-- ==== Sys2Proof/Word.lean ====
section
/-! DEFINITION. The words of the HNR3224: the 24-bit word of every register, parameter and table row
(spec/00_scope.md, Notation), bytes, the 32-bit dword and the 64-bit address of host memory. -/

set_option Elab.async false

namespace Sys2Proof

/-- The 24-bit word of the control bus, of a register, a parameter item and a table row word. -/
abbrev Word := BitVec 24

/-- One byte of a frame or of host memory. -/
abbrev Byte := BitVec 8

/-- A 32-bit dword of a host-memory structure, little-endian in memory (R2). -/
abbrev Dword := BitVec 32

/-- A 64-bit host address. -/
abbrev Addr := BitVec 64

/-- A sparse numbered family: an unlisted number holds the family's own reset value. -/
abbrev Tab (α : Type) := List (Nat × α)

end Sys2Proof
end

