-- ==== Sys2Proof/Stimulus.lean ====
section
/-! DEFINITION. What the commands of the block carry from outside: bus accesses, completions of host reads,
received frames, Ride frames, what a mount finds on the medium, and the readings of the sensors. -/

set_option Elab.async false

namespace Sys2Proof

/-- How one word access reaches a window (R34, R98). On the control bus the master drives the parity bits
CB_APAR and CB_PAR (R39). Through BAR0 each dword carries its byte enables (R101). -/
inductive Path where
  | cb (apar : Bool) (par : BitVec 3)
  | bar0 (t : Fin 4) (be : BitVec 4)
  deriving DecidableEq, Repr

/-- The parity bits of an access that only master 0 can make: the M window is reached through the control bus alone. -/
structure CbPar where
  apar : Bool
  par : BitVec 3
  deriving DecidableEq, Repr

/-- One whole bus access: a word on the control bus, or a memory request of one or more dwords to BAR0 (R98 to R102). -/
inductive Access where
  | cb (read : Bool) (addr : BitVec 8) (apar : Bool) (data : Word) (par : BitVec 3)
  | bar0 (t : Fin 4) (read : Bool) (first : Nat) (dwords : List (Dword × BitVec 4))
  deriving DecidableEq, Repr

/-- The multi-word groups of Table 2.4 (the tenant groups share the M group's name). -/
inductive Group where
  | xferSrc | xferDst | canopyBase | perf
  deriving DecidableEq, Repr

/-- A read of a group's anchor, and whether it finds an uncorrectable error in the counter it reads (R57, R470). -/
structure GroupRead where
  group : Group
  ecc : Bool
  deriving DecidableEq, Repr

/-- The keyed write of M_CONTROL.SLEEP, and whether the copy of the non-volatile record written at the entry passes its
test (R517, R524). -/
structure SleepWrite where
  par : CbPar
  nvGood : Bool
  deriving DecidableEq, Repr

/-- A W1C mask for T_FAULT, and the cause that occurs at the instant of the write, if any (R92, R150). -/
structure FaultMask where
  mask : Word
  cause : Option (Fin 9)
  deriving DecidableEq, Repr

/-- A channel whose writes are complete, and whether the read of an epoch's bank that then follows finds an uncorrectable
error (R408, R444). -/
structure ChanEnd where
  ch : Fin 16
  ecc : Bool
  deriving DecidableEq, Repr

/-- A host link that logs an error, and the rings with a request in its replay (R212, R461). -/
structure LinkError where
  link : Fin 4
  replay : List (Fin 132)
  deriving DecidableEq, Repr

/-- How a host read ends: with data, or with a completion of status UR or CA. The data of a read through the Canopy that
misses begin with the whole first sector it touches and end with the last (R425). -/
inductive HostRead where
  | data (bytes : List Byte)
  | ur
  | ca
  deriving DecidableEq, Repr

/-- How an extended flow row read ends (R292). -/
inductive ExtRead where
  | done (r : HostRead)
  | timeout
  deriving DecidableEq, Repr

/-- The extended flow row read of a port's frame ends; ecc: the staging that holds the frame has an uncorrectable error
(R291, R299). -/
structure FlowEnd where
  port : Fin 32
  read : ExtRead
  ecc : Bool
  deriving DecidableEq, Repr

/-- What a load of an image reads: the host's answer, and whether the store area has a page in error (R124, R128). -/
structure ImageRead where
  host : HostRead
  areaBad : Bool
  deriving DecidableEq, Repr

/-- The PCIe link states the device's rules name (R146, R153, R461). -/
inductive LinkState where
  | detect | training | l0 | l1 | other
  deriving DecidableEq, Repr

/-- The configuration registers the rules name (R146). -/
inductive CfgReg where
  | deviceCapabilities | command | other
  deriving DecidableEq, Repr

/-- A configuration request of a tenant's host (R146, R458, R576); rest holds the other bits of a Command write. -/
inductive CfgRequest where
  | read (r : CfgReg)
  | command (bme mse : Bool) (rest : BitVec 16)
  | msi (enable : Bool) (addr : Addr) (data : Dword)
  deriving DecidableEq, Repr

/-- Requests to BAR0 that complete as Unsupported Request (R103). -/
inductive UrKind where
  | io | atomicOp | lockedRead
  deriving DecidableEq, Repr

/-- A frame at a port's pins, as it ends: every byte from the destination address to the end of the FCS, the offset of the
first PCS error character or invalid block inside it, whether it came as preemptable fragments, whether their sequence was
in error, and the byte times by which its end lies later than LEN byte times after its timestamp point, which the gaps
between fragments take (R245, R262, R308). nested says that it came whole between the fragments of another frame. -/
structure RxFrame where
  bytes : List Byte
  codeError : Option Nat
  preempt : Bool
  preemptError : Bool
  extra : Nat
  nested : Bool
  deriving DecidableEq, Repr

/-- What ECC finds in a read: a correctable error of a Glade cell, or an uncorrectable error by the memory it strikes
(R30, Table 18.2). -/
inductive EccHit where
  | none
  | gladeCorrected
  | glade
  | rxStage
  | egressStage
  | thicketStaging
  | thicketRow (table inst row : Nat)
  | pageBuffer
  | storeWay
  deriving DecidableEq, Repr

/-- A stream whose oldest reference has waited its time, and what the build of its page meets (R334). -/
structure WaitEnd where
  stream : Fin 64
  ecc : EccHit
  deriving DecidableEq, Repr

/-- What an uncorrectable error of the Canopy strikes: the sector of an address, or a tag (R444). -/
inductive CanopyHit where
  | sector (a : Addr)
  | tag (a : Addr)
  deriving DecidableEq, Repr

/-- The answer of one MDIO poll (R263, R264). -/
inductive MdioAnswer where
  | noTurnaround
  | value (v : BitVec 16)
  deriving DecidableEq, Repr

/-- What the read of the non-volatile record at a reset finds by the copies' CRC-32 (R524, R534, R536): the newer copy is
valid, only the older one is, or neither. -/
inductive NvRead where
  | newer | older | neither
  deriving DecidableEq, Repr

/-- What a release of RESET_N finds in the non-volatile record, and whether the copy written after it passes its test (R524,
R536). -/
structure RecordUse where
  found : NvRead
  wrote : Bool
  deriving DecidableEq, Repr

/-- A Ride header (Table 16.2). -/
structure RideHeader where
  type : BitVec 8
  flags : BitVec 8
  len : Nat
  seq : BitVec 16
  ack : BitVec 16
  epoch : BitVec 32
  credit : BitVec 16
  role : BitVec 3
  priority : BitVec 8
  deriving DecidableEq, Repr

/-- A Ride frame as sent or received. -/
structure RideFrame where
  hdr : RideHeader
  payload : List Byte
  deriving DecidableEq, Repr

/-- A COMMIT, and whether the read of the epoch's bank finds an uncorrectable error (R444, R489). -/
structure CommitIn where
  frame : RideFrame
  ecc : Bool
  deriving DecidableEq, Repr

/-- A cartridge label (Table 12.3). -/
structure Label where
  formats : Nat
  cartId : List Byte
  owner : BitVec 48
  formatSec : Nat
  blocks : Nat
  reserve : Nat
  system : Nat
  deriving DecidableEq, Repr

/-- One row of the block states read from the medium: the two words of Table 12.6. -/
structure BlockState where
  eraseCount : Nat
  age : Nat
  state : Nat
  prot : Bool
  pending : Bool
  maxCorr : Nat
  deriving DecidableEq, Repr

/-- A segment found on the medium by a mount: its header fields, its data image and its block (R361, R362).
closed is false for a segment without a header; its data is then what pages without an uncorrectable error hold.
holdFrom counts the powered seconds since the end of the window that protects it. -/
structure FoundSegment where
  stream : Nat
  seq : Nat
  block : Nat
  closed : Bool
  flags : Nat
  records : Nat
  firstTime : Nat
  lastTime : Nat
  chain : List Byte
  prevChain : List Byte
  header : List Byte
  data : List Byte
  prot : Bool
  holdFrom : Nat
  deriving DecidableEq, Repr

/-- The geometry a valid parameter page gives (Table 12.2): targets, LUNs per target, page data bytes, spare bytes,
pages per block, blocks per LUN, and the highest interface and mode the page supports. -/
structure Geometry where
  targets : Nat
  luns : Nat
  pageSize : Nat
  spare : Nat
  pages : Nat
  blocks : Nat
  maxMode : Nat × Nat
  deriving DecidableEq, Repr

/-- What a parameter page says of its target (R366, Table 12.2): LUNs, page data bytes, spare bytes, pages per block, blocks
per LUN, and the highest interface and mode the page supports. -/
structure ParamPage where
  luns : Nat
  pageSize : Nat
  spare : Nat
  pages : Nat
  blocks : Nat
  maxMode : Nat × Nat
  deriving DecidableEq, Repr

/-- A cartridge as the store reads it (R366, R369, R371, R372): for each target from CE_N[0] whose READ ID returns the ONFI
signature, the redundant copies of its parameter page, each with whether its CRC is correct; the copies of target 0's
unique ID, each with its complement; the first 64 bytes of page 0 of each label block; the block states and the powered
seconds of its snapshot and journal; the blocks whose first spare byte of the first or last page is not 0xFF, with both
bytes; its segments; and the bytes of its reserved image area. -/
structure Cartridge where
  targets : List (List (ParamPage × Bool))
  ids : List (List Byte × List Byte)
  labels : List (List Byte)
  blocks : List BlockState
  powered : Nat
  marks : List (Nat × Byte × Byte)
  segments : List FoundSegment
  image : List Byte
  deriving DecidableEq, Repr

/-- What answers at CE_N[0]: nothing with the ONFI signature, or a cartridge (R366, R368). -/
inductive Discovery where
  | absent
  | found (c : Cartridge)
  deriving DecidableEq, Repr

/-- How the NAND work of a store command went: the blocks whose erase, and those whose label program, reported FAIL (R372,
R380, Table 12.4). -/
structure StoreOutcome where
  eraseFails : List Nat
  labelFails : List Nat
  deriving DecidableEq, Repr

/-- One read of a page: how many µs after the first read it ended, and for each codeword the bits that differ from what the
page holds, bit 0 the first bit of the codeword (R374, R378). -/
structure LevelRead where
  us : Nat
  errs : List (List Nat)
  deriving DecidableEq, Repr

/-- The reads of a page at the default level and at retry levels 1, 2 and onward; the last one listed stands for those
after it (R376 to R378). -/
structure PageRead where
  reads : List LevelRead
  deriving DecidableEq, Repr

/-- The move of a block: the reads of its programmed pages, and whether a program of the destination reports FAIL (R380,
R384). -/
structure BlockMove where
  reads : List PageRead
  failed : Bool
  deriving DecidableEq, Repr

/-- What an uncorrectable error strikes while a channel reads: its source, or its share of the buffer (R417, R444). -/
inductive XferHit where
  | none
  | source
  | buffer
  deriving DecidableEq, Repr

/-- What a request of a transfer channel meets (R353, R378, R380, R406, R417): an uncorrectable error; whether the channel
samples DREQ_N[DREQ_SEL] low through its filter; the reads of the store pages it needs; and whether a page program of the
image area reports FAIL. -/
structure BurstIo where
  hit : XferHit
  dreq : Bool
  pages : List PageRead
  failed : Bool
  deriving DecidableEq, Repr

/-- One aging monitor's two frequencies in Hz, or a monitor that fails to oscillate (R529, R535). -/
inductive MonReading where
  | stuck
  | freqs (ref mon : Nat)
  deriving DecidableEq, Repr

/-- How one periodic test ends (R542 to R545): it passes, fails or is missed; or it passes, and a read it made found a
correctable error in a Glade cell, or an uncorrectable one (R30). -/
inductive TestEnd where
  | pass
  | fail
  | miss
  | corrected
  | struck (cell : Fin 49152)
  deriving DecidableEq, Repr

/-- IEEE 1149.1 instructions other than BYPASS (R585). -/
inductive TapInstr where
  | extest | samplePreload | highz
  deriving DecidableEq, Repr

/-- An edge of PPS_IN or EVT_IN with the width of its pulse in ns (R314). -/
structure Edge where
  falling : Bool
  widthNs : Nat
  deriving DecidableEq, Repr

end Sys2Proof
end

