-- ==== Sys2Proof/Syntax.lean ====
section
/-! DEFINITION. The commands of the block: one constructor for each row of spec/opcode_table.json, with the operands
a command carries from outside. The rows carry no operands in the table: each is read from the rule the row names. -/

namespace Sys2Proof

/-- A command or event of the HNR3224 (spec/opcode_table.json). -/
inductive Instr where
  /-- CB_REQUEST (R45): A master asserts CB_REQ_N and the device grants it the bus by round robin or management first. -/
  | cbRequest (m : Fin 5)
  /-- CB_REQUEST_RELEASE (R46): A granted master deasserts CB_REQ_N after its last handshake, and the device deasserts its grant within tRG. -/
  | cbRequestRelease (m : Fin 5)
  /-- TENURE_LIMIT (R47): A tenure reaches CB_TENURE_LIMIT, and the grant is withdrawn at once or when the handshake in progress completes. -/
  | tenureLimit
  /-- HELD_STROBE (R48): CB_STB_N stays asserted more than 1 µs after the acknowledge, so the device drops the acknowledge and the grant and revokes the tenure. -/
  | heldStrobe
  /-- CB_REQ_HOLDOFF_END (R49): CB_REQ_N of a revoked master has stayed deasserted for 1 µs, and the device stops ignoring it. -/
  | cbReqHoldoffEnd (m : Fin 5)
  /-- CB_JAM (R51): CB_STB_N asserts while no grant is asserted; the device does not acknowledge and sets M_FAULT.CB_JAM. -/
  | cbJam
  /-- REGISTER_WRITE (R63): A write to a register field with no behaviour of its own acts as its access class states. -/
  | registerWrite (a : Access)
  /-- ANCHOR_READ (R57): A read of an anchor returns bits 23:0 and copies the whole value into the path's read shadow. -/
  | anchorRead (p : Path) (r : GroupRead)
  /-- ANCHOR_WRITE (R58): A write to an anchor commits the anchor data and the path's write shadow to the register in one cycle. -/
  | anchorWrite (p : Path) (g : Group) (d : Word)
  /-- NON_ANCHOR_WRITE (R58): A write to a non-anchor word of a group goes only into the path's write shadow. -/
  | nonAnchorWrite (p : Path) (g : Group) (high : Bool) (d : Word)
  /-- TBL_DATA_ACCESS (R113): An access to M_TBL_DATA or T_TBL_DATA reads or writes one row-buffer word and advances M_TBL_WORD with wrap. -/
  | tblDataAccess (p : Path) (read : Bool) (d : Word)
  /-- PARAM_READ (R110): Parameter port OP 1 reads a parameter into M_PARAM_DATA, latching a wide value on its anchor item. -/
  | paramRead (p : Path) (ecc : Bool)
  /-- PARAM_WRITE (R111): Parameter port OP 2 writes M_PARAM_DATA to a parameter, staging non-anchor items and committing on the anchor with its result code. -/
  | paramWrite (p : Path)
  /-- PARAM_RESERVED_OP (R598): Parameter port OP 3 sets BUSY, changes nothing and ends with RESULT RANGE. -/
  | paramReservedOp (p : Path)
  /-- PARAM_OP_END (R108): A parameter operation completes and BUSY clears within the time of Table 4.2. -/
  | paramOpEnd (w : Fin 5)
  /-- TABLE_ROW_READ (R113): Table port OP 1 loads the addressed row into the window's row buffer. -/
  | tableRowRead (p : Path) (ecc : Bool)
  /-- TABLE_ROW_WRITE (R113): Table port OP 2 writes the first L buffer words to the row after the checks of R121. -/
  | tableRowWrite (p : Path)
  /-- TABLE_ROW_ZERO (R113): Table port OP 3 writes a row of zeros, subject to the address, rights and guard checks only. -/
  | tableRowZero (p : Path)
  /-- TABLE_OP_END (R108): A table operation completes and BUSY clears within the time of Table 4.2. -/
  | tableOpEnd (w : Fin 5)
  /-- CLAIM (R452): A read of M_CLAIM or T_CLAIM claims the lowest enabled pending source, returning its number and COUNT, or 0 or 63. -/
  | claim (p : Path) (ecc : Bool)
  /-- COMPLETE (R454): A write of source s to M_COMPLETE or T_COMPLETE clears its ACTIVE and may make it pending again in REPEND mode. -/
  | completeSource (p : Path) (source : BitVec 6)
  /-- DEV_RESET (R568): A keyed write of M_CONTROL.DEV_RESET starts a command device reset held for 10 µs. -/
  | devReset (q : CbPar)
  /-- MGMT_RESET (R163): A keyed write of M_CONTROL.MGMT_RESET resets the M window, its interrupt controller, management locks and channels. -/
  | mgmtReset (q : CbPar)
  /-- MGMT_RESET_END (R163): A management reset completes and MGMT_RESET clears. -/
  | mgmtResetEnd
  /-- TRIM_ENTRY (R514): M_CONTROL.TRIM set to 1 powers down the quads named in TRIM_QUADS within 100 µs. -/
  | trimEntry (q : CbPar)
  /-- TRIM_EXIT (R515): M_CONTROL.TRIM set to 0 restarts each powered-down quad's lane in its LANE_MODE. -/
  | trimExit (q : CbPar)
  /-- SLEEP (R517): A keyed write of M_CONTROL.SLEEP enters DEPOT_SLEEP through the steps of R517, unless R516 forbids it. -/
  | depotSleep (w : SleepWrite)
  /-- ACQUIRE (R159): Lock operation ACQUIRE takes the selected lock if free, or records the window as waiting. -/
  | lockAcquire (p : Path) (ecc : Bool)
  /-- RELEASE (R159): Lock operation RELEASE frees the selected lock held by this window. -/
  | lockRelease (p : Path)
  /-- CLEAR_BROKEN (R159): Lock operation CLEAR_BROKEN clears the BROKEN mark of a lock this window holds. -/
  | clearBroken (p : Path)
  /-- CAPTURE_NOW (R305): Time command OP 1 loads W0 to W3 with the device time of the receiving tick. -/
  | captureNow (p : Path) (ecc : Bool)
  /-- LAST_EVT_IN0 (R305): Time command OP 2 loads the last EVT_IN[0] capture, with VALID per window read flag. -/
  | lastEvtIn0 (p : Path)
  /-- LAST_EVT_IN1 (R305): Time command OP 3 loads the last EVT_IN[1] capture, with VALID per window read flag. -/
  | lastEvtIn1 (p : Path)
  /-- LAST_PPS_IN (R305): Time command OP 4 loads the last PPS_IN capture, with VALID per window read flag. -/
  | lastPpsIn (p : Path)
  /-- TIME_SET (R306): Time command OP 8 sets the device time to W0 to W3 in one tick and raises the time-discontinuity sources. -/
  | timeSet (q : CbPar)
  /-- STEP_FORWARD (R306): Time command OP 9 adds W0 to W3 to the device time. -/
  | stepForward (q : CbPar)
  /-- STEP_BACK (R306): Time command OP 10 subtracts W0 to W3 from the device time, stopping at 0. -/
  | stepBack (q : CbPar)
  /-- TIME_CMD_END (R305): A time command completes and BUSY of M_TIME_CMD or T_TIME_CMD clears. -/
  | timeCmdEnd (w : Fin 5)
  /-- XFER_START (R400): START sets BUSY and runs the start checks in order, ending the channel at the first failure. -/
  | xferStart (p : Path) (ctl : Word)
  /-- XFER_PAUSE (R410): Setting PAUSE stops new reads of the channel and begins its drain. -/
  | xferPause (p : Path)
  /-- XFER_DRAIN_END (R410): A pausing channel has written and closed its data and sets PAUSED with exact registers. -/
  | xferDrainEnd (ch : Fin 16)
  /-- XFER_RESUME (R410): Clearing PAUSE resumes the channel from its exact registers. -/
  | xferResume (p : Path)
  /-- XFER_ABORT (R411): ABORT discards buffered data, waits for outstanding reads and ends the channel with ABORTED. -/
  | xferAbort (p : Path)
  /-- XFER_PACED_BURST (R406): A channel samples its request line asserted, or has room in software mode, and moves a burst. -/
  | xferPacedBurst (ch : Fin 16) (io : BurstIo)
  /-- XFER_READ_END (R403): Source data or a scatter-gather element arrives for a channel and is consumed, advancing SRC, COUNT and ELEM. -/
  | xferReadEnd (ch : Fin 16) (r : HostRead) (ecc : Bool)
  /-- XFER_READ_TIMEOUT (R412): A channel's host read or closing read reaches CPL_TIMEOUT, ending it with HOST_NO_RESPONSE. -/
  | xferReadTimeout (ch : Fin 16)
  /-- XFER_CHANNEL_END (R408): Every write of the channel is complete, so it sets DONE, clears BUSY and raises its source. -/
  | xferChannelEnd (e : ChanEnd)
  /-- CANOPY_CLEAN (R430): Canopy maintenance OP 1 writes back dirty sectors of the range or partition. -/
  | canopyClean (p : Path) (t : Fin 4) (all : Bool)
  /-- CANOPY_INVALIDATE (R430): Canopy maintenance OP 2 invalidates the sectors of the range without write-back. -/
  | canopyInvalidate (p : Path) (t : Fin 4) (all : Bool)
  /-- CANOPY_CLEAN_AND_INVALIDATE (R430): Canopy maintenance OP 3 writes back dirty sectors and invalidates every sector of the range. -/
  | canopyCleanAndInvalidate (p : Path) (t : Fin 4) (all : Bool)
  /-- CANOPY_OP_END (R431): A maintenance operation's closing read completes, so it sets DONE and raises its source, and the next queued operation starts. -/
  | canopyOpEnd (t : Fin 4) (r : HostRead)
  /-- CANOPY_FILL_END (R432): A Canopy fill completes, serving its requester once and applying any doomed-line maintenance. -/
  | canopyFillEnd (t : Fin 4) (r : HostRead) (ecc : Option CanopyHit)
  /-- SCRATCH_WAY_CONVERSION_END (R437): A way being converted to scratch has been written back, invalidated and zeroed and joins SCRATCH_STAT. -/
  | scratchWayConversionEnd
  /-- FORCE_FAULT (R145): M_TENANT_CTL.FORCE_FAULT puts the selected tenant in tenant fault with T_FAULT.FORCED. -/
  | forceFault (q : CbPar)
  /-- TENANT_RESET (R155): M_TENANT_CTL.RESET starts a tenant reset of the selected tenant. -/
  | tenantReset (q : CbPar)
  /-- TENANT_HOLD (R158): M_TENANT_CTL.ENABLE written 0 holds the selected tenant in tenant reset. -/
  | tenantHold (q : CbPar)
  /-- TENANT_RELEASE (R572): M_TENANT_CTL.ENABLE written 1 releases the selected tenant from its held reset. -/
  | tenantRelease (q : CbPar)
  /-- T_TENANT_RESET (R155): A T_CONTROL write with KEY 0xC3 and TENANT_RESET starts the tenant's own reset. -/
  | tTenantReset (p : Path)
  /-- TENANT_RESET_END (R156): A tenant reset completes its steps and the tenant window returns to its reset state. -/
  | tenantResetEnd (t : Fin 4)
  /-- T_FAULT_CLEAR (R150): A W1C write to T_FAULT clears causes; clearing FAULT_RING_LOST zeroes LOST and clearing all clears STOPPED. -/
  | tFaultClear (p : Path) (m : FaultMask)
  /-- ENGINE_ENABLE (R150): A write of T_CONTROL.ENGINE_EN starts or stops the ring engine, held at 0 while T_FAULT is set. -/
  | engineEnable (p : Path) (on : Bool)
  /-- JOIN (R481): M_PAIR_CMD OP 1 on a SOLO unit starts the Ride link and HELLO exchange. -/
  | joinPair (q : CbPar)
  /-- PLANNED_SWITCHOVER (R502): M_PAIR_CMD OP 2 on an ACTIVE with a synced STANDBY stops service and hands over at the next boundary. -/
  | plannedSwitchover (q : CbPar)
  /-- LEAVE_TO_SOLO (R503): M_PAIR_CMD OP 3 sends LEAVE and enters SOLO, or is ignored on an ACTIVE with its partner present. -/
  | leaveToSolo (q : CbPar)
  /-- CLEAR_ALARM (R474): M_PAIR_CMD OP 4 clears M_PAIR_STAT.ALARM. -/
  | clearAlarm (q : CbPar)
  /-- SERVICE_WATCHDOG (R547): M_SAFETY_CMD OP 1 arms or restarts the safety watchdog with WDOG_MS. -/
  | serviceWatchdog (q : CbPar) (ecc : Bool)
  /-- ENTER_SAFE_STATE (R548): M_SAFETY_CMD OP 2 with KEY 0x3C puts the device in the device safe state. -/
  | enterSafeState (q : CbPar)
  /-- FORMAT (R372): Store OP 1 with KEY 0x5C rediscovers the cartridge, erases good blocks, sets the reserve and writes the labels. -/
  | storeFormat (q : CbPar) (d : Discovery)
  /-- ADOPT (R373): Store OP 2 with KEY 0x5C rewrites a foreign label with this owner and completes the mount. -/
  | storeAdopt (q : CbPar) (d : Discovery)
  /-- EVENT_LOCK (R348): Store OP 3 triggers an event lock on a stream at the command's acceptance time. -/
  | eventLock (q : CbPar) (stream : Fin 64)
  /-- STREAM_ONLINE (R356): Store OP 4 brings an offline stream to STATE 1 while MEDIUM is 3 and KEY_STATE is 0b11. -/
  | streamOnline (q : CbPar) (stream : Fin 64)
  /-- STREAM_OFFLINE (R356): Store OP 5 builds waiting records, closes the open segment and sets STATE 0. -/
  | streamOffline (q : CbPar) (stream : Fin 64)
  /-- SUSPEND (R356): Store OP 6 stops recording, closes every open segment and sets MEDIUM 4. -/
  | storeSuspend (q : CbPar)
  /-- RESUME (R356): Store OP 7 mounts the medium again and returns streams to their former state if MEDIUM becomes 3. -/
  | storeResume (q : CbPar) (d : Discovery)
  /-- STORE_COMMAND_END (R356): A store command finishes and sets DONE, with ERROR and ERR on failure. -/
  | storeCommandEnd (o : StoreOutcome)
  /-- LOAD (R124): M_IMAGE_CMD.LOAD starts a Zerik image load from host memory or the reserved store area, taking the transfer buffer. -/
  | imageLoad (q : CbPar) (fromStore : Bool) (r : ImageRead)
  /-- IMAGE_LOAD_END (R132): An image load ends, clearing LOAD, setting DONE and RESULT, and resuming paused channels. -/
  | imageLoadEnd (ecc : Option Nat)
  /-- T_TXBELL (R178): A TX doorbell is checked against the ring's head and tail and moves the tail, is ignored, or causes DOORBELL_OVERRUN. -/
  | tTxbell (p : Path) (d : Word)
  /-- T_RXBELL (R178): An RX doorbell is checked against the ring's head and tail and moves the tail, is ignored, or causes DOORBELL_OVERRUN. -/
  | tRxbell (p : Path) (d : Word)
  /-- RING_ENABLE (R205): Writing T_RINGCTL.ENABLE 1 loads head and tail from START_INDEX and START_LAP and clears STOPPED. -/
  | ringEnable (p : Path)
  /-- RING_DISABLE (R204): Writing T_RINGCTL.ENABLE 0 starts a flush of the ring. -/
  | ringDisable (p : Path)
  /-- FLUSH (R202): Writing T_RINGCTL.FLUSH stops fetching and discards or writes back the ring's work in progress. -/
  | flushRing (p : Path)
  /-- FLUSH_COMPLETE (R203): Every write-back a flush requires is handed over; the tail is set to the head and FLUSH_DONE sets. -/
  | flushComplete (t : Fin 4) (ring : Fin 132)
  /-- RING_STOP (R201): Setting T_RINGCTL.STOP stops new entries of the ring; STOPPED sets when work in progress is written back. -/
  | ringStop (p : Path)
  /-- RING_RESUME (R201): Clearing T_RINGCTL.STOP resumes the ring from its head. -/
  | ringResume (p : Path)
  /-- DESCRIPTOR_READ_END (R182): A descriptor read completion arrives and the ring engine parses and checks the entries it holds. -/
  | descriptorReadEnd (t : Fin 4) (ring : Fin 132) (r : HostRead)
  /-- DESCRIPTOR_READ_TIMEOUT (R211): A descriptor read before the tail reaches CPL_TIMEOUT and is reissued at once. -/
  | descriptorReadTimeout (t : Fin 4) (ring : Fin 132)
  /-- OWN_REREAD (R184): A first slot before the tail read OWN = 0 and is read again every 1 µs. -/
  | ownReread (t : Fin 4) (ring : Fin 132)
  /-- FETCH_TIMEOUT (R210): A ring's fetch clock reaches FETCH_TIMEOUT and T_FAULT.FETCH_TIMEOUT sets. -/
  | fetchTimeout (t : Fin 4) (ring : Fin 132)
  /-- TX_SCHEDULE (R197): The ring engine chooses an eligible TX ring by strict precedence and deficit round robin and takes its head frame. -/
  | txSchedule (t : Fin 4) (ecc : Bool)
  /-- TX_BUFFER_READ_END (R219): TX buffer data arrives in staging, and the ring engine builds the frame and its tag. -/
  | txBufferReadEnd (t : Fin 4) (r : HostRead) (ecc : Bool)
  /-- TX_BUFFER_READ_TIMEOUT (R211): A TX buffer read reaches CPL_TIMEOUT and sets T_FAULT.HOST_NO_RESPONSE. -/
  | txBufferReadTimeout (t : Fin 4)
  /-- TX_GLADE_ADMISSION (R139): A staged TX frame would now be admitted under R138 and is written to the Glade and queued on its class. -/
  | txGladeAdmission (t : Fin 4) (ring : Fin 132) (ecc : Bool)
  /-- WRITE_BACK_HOLD_EXPIRY (R192): A write-back held 1 µs for a contiguous successor is sent. -/
  | writeBackHoldExpiry (t : Fin 4) (ring : Fin 132)
  /-- RX_DELIVERY (R200): The ring engine takes a queued reference and writes the frame, prologue and write-back into the next usable RX entry, or discards it. -/
  | rxDelivery (t : Fin 4) (ring : Fin 64) (ecc : EccHit)
  /-- FAULT_RECORD_PUSH_END (R152): The closing read after a fault record write completes and the record counts as pushed. -/
  | faultRecordPushEnd (t : Fin 4) (r : HostRead)
  /-- PERST_N_ASSERT (R155): Assertion of PERST_N of a host link starts and holds a tenant reset. -/
  | perstNAssert (t : Fin 4)
  /-- PERST_N_DEASSERT (R158): Deassertion of PERST_N lets the held tenant reset complete and link training begin. -/
  | perstNDeassert (t : Fin 4)
  /-- HOT_RESET (R146): A hot reset received on a host link triggers a tenant reset and clears the Command register. -/
  | hotReset (t : Fin 4)
  /-- FUNCTION_LEVEL_RESET (R146): A Function Level Reset of the function triggers a tenant reset completed within 100 ms. -/
  | functionLevelReset (t : Fin 4)
  /-- BUS_MASTER_ENABLE_CLEAR (R146): The host clears Bus Master Enable; with a ring enabled this is tenant fault cause LINK_DOWN. -/
  | busMasterEnableClear (t : Fin 4)
  /-- HOST_LINK_STATE_CHANGE (R461): A host link leaves L0 and L1 or returns to L0, raising tenant source 3 and possibly LINK_DOWN. -/
  | hostLinkStateChange (t : Fin 4) (st : LinkState)
  /-- LINK_TRAINING_START (R576): A host link begins training within 20 ms of RESET_N release and PERST_N deassertion. -/
  | linkTrainingStart (t : Fin 4)
  /-- CONFIGURATION_REQUEST (R576): A configuration request completes with Retry Status before READY and normally after. -/
  | configurationRequest (t : Fin 4) (c : CfgRequest)
  /-- BAR0_UNSUPPORTED_REQUEST (R103): An I/O, AtomicOp or locked read request to BAR0 completes as Unsupported Request. -/
  | bar0UnsupportedRequest (t : Fin 4) (k : UrKind)
  /-- BAR0_POISONED_WRITE (R101): A poisoned write TLP to BAR0 has no effect and is reported through AER. -/
  | bar0PoisonedWrite (t : Fin 4)
  /-- FRAME_RECEIVE (R245): A frame ends at the pins and the receive MAC checks it and places it in the RX stage buffer or discards it. -/
  | frameReceive (port : Fin 32) (f : RxFrame)
  /-- PAUSE_EXPIRY (R257): The received pause quanta of a paused class elapse and the class may send again. -/
  | pauseExpiry (port : Fin 32) (cls : Fin 8)
  /-- MAC_CONTROL_SEND (R255): A due pause or PFC frame starts when the wire is idle and no launch instant would be disturbed. -/
  | macControlSend (port : Fin 32)
  /-- PFC_REFRESH (R254): While XOFF persists, the MAC resends the pause or PFC frame every 32,768 quanta. -/
  | pfcRefresh (port : Fin 32)
  /-- LINK_UP (R243): The link conditions have held for 1 ms and PORT_STAT bit 0 sets. -/
  | linkUp (port : Fin 32)
  /-- LINK_DOWN (R243): A link condition fails; PORT_STAT bit 0 clears and queued egress references are discarded. -/
  | linkDown (port : Fin 32)
  /-- LANE_SIGNAL_LOSS (R271): Loss of signal or lock on a lane clears LANE_STAT and drops every port of the lane. -/
  | laneSignalLoss (lane : Fin 8)
  /-- MDIO_POLL (R263): An MDIO master reads the link status of the next polled PHY. -/
  | mdioPoll (k : Fin 2) (a : MdioAnswer)
  /-- THICKET_RESOLVE (R274): The Thicket takes a complete frame, filters it, matches rules, resolves actions and charge, and offers it to the Glade. -/
  | thicketResolve (ecc : EccHit)
  /-- EXT_FLOW_READ_END (R291): An extended flow row read ends as a hit or miss and the frame's delivery is settled. -/
  | extFlowReadEnd (r : FlowEnd)
  /-- KNOWN_ANSWER_PROBE (R297): The Thicket runs its probe between frames and writes PROBE_STAT, failing as a periodic test. -/
  | knownAnswerProbe (passed : Bool)
  /-- EGRESS_COPY (R321): A due head frame of a class queue is copied into a free egress-stage slot and its reference completes. -/
  | egressCopy (port : Fin 32) (ecc : EccHit)
  /-- EGRESS_LAUNCH (R323): The wire side starts the eligible staged frame of the highest class, within G of its launch time. -/
  | egressLaunch (port : Fin 32) (ecc : EccHit)
  /-- TX_FRAME_END (R224): The last bit of a frame leaves the port and its tenant entry is written back. -/
  | txFrameEnd (port : Fin 32)
  /-- WITNESS_BEACON (R496): Every 1 ms a paired unit sends a witness beacon on each listed port with link up. -/
  | witnessBeacon (port : Fin 32)
  /-- GATE_CHANGE (R318): A gate control list entry begins and the port's gate states change. -/
  | gateChange (port : Fin 32) (ecc : Bool)
  /-- GATE_SWAP (R319): At change time C the pending list becomes active at entry 0, ACTIVE toggles and SWAP clears. -/
  | gateSwap (port : Fin 32)
  /-- PPS_OUT_PULSE (R312): PPS_OUT rises at a second boundary that the device time reaches by counting. -/
  | ppsOutPulse
  /-- PPS_OUT_END (R312): The PPS_OUT pulse width elapses and PPS_OUT falls. -/
  | ppsOutEnd
  /-- PPS_IN_CAPTURE (R314): A selected edge of PPS_IN is captured with the device time and raises its sources. -/
  | ppsInCapture (e : Edge)
  /-- EVT_IN_CAPTURE (R314): A selected edge of EVT_IN[e] is captured with the device time and raises its sources. -/
  | evtInCapture (input : Fin 2) (e : Edge)
  /-- TIMEBASE_PLL_LOCK (R329): The timebase PLL locks and the device time and fixed cycle counter start at 0. -/
  | timebasePllLock
  /-- PLL_LOCK_LOSS (R328): The timebase PLL loses lock and M_FAULT.TIMEBASE sets. -/
  | pllLockLoss
  /-- FIXED_CYCLE_COUNTER_WRAP (R463): The fixed cycle counter wraps after 2^48 ticks and raises management source 23. -/
  | fixedCycleCounterWrap
  /-- PROGRAMMABLE_COUNTER_WRAP (R465): A programmable counter wraps and raises its management source. -/
  | programmableCounterWrap (n : Fin 8)
  /-- BANDWIDTH_WINDOW_END (R467): A bandwidth window ends; its sum loads into BW_BYTES and source 32 is raised. -/
  | bandwidthWindowEnd
  /-- PRESENTATION (R456): A window with a pending source, none active and MIN_GAP elapsed begins to present on its pin or MSI. -/
  | presentation (w : Fin 5)
  /-- PAGE_BUILD (R334): The store builds a page of a stream's waiting records, opening or closing segments and completing references. -/
  | pageBuild (stream : Fin 64) (ecc : EccHit)
  /-- RECORD_WAIT_EXPIRY (R334): A stream's oldest waiting reference has waited 10 ms and its page must be built. -/
  | recordWaitExpiry (w : WaitEnd)
  /-- PAGE_PROGRAM (R335): The store issues the program of a ready page, lower PRIORITY first. -/
  | pageProgram
  /-- PAGE_PROGRAM_END (R380): A page program finishes, restarting the watchdog, or fails and relocates the segment. -/
  | pageProgramEnd (stream : Fin 64) (failed : Bool)
  /-- STORE_TRIG_EDGE (R348): A rising edge of STORE_TRIG[k] held 1 µs triggers event locks on streams whose TRIG bit is set. -/
  | storeTrigEdge (k : Fin 2)
  /-- LOCK_WINDOW_END (R349): An event lock window reaches t + POST and stops protecting new segments. -/
  | lockWindowEnd (stream : Fin 64)
  /-- HOLD_EXPIRY (R350): HOLD_DAYS powered days pass after a window end and the segment's protection ends. -/
  | holdExpiry (stream : Fin 64)
  /-- STREAM_WRITE_WATCHDOG (R360): A stream's write watchdog reaches WATCHDOG; M_FAULT.STORE sets and recording stops with MEDIUM 6. -/
  | streamWriteWatchdog (stream : Fin 64)
  /-- MOUNT (R366): The store discovers the medium, reads its label and block states, and sets MEDIUM. -/
  | mediumMount (d : Discovery)
  /-- PRESENCE_POLL (R368): Every 1 s the store issues READ ID on CE_N[0] to detect removal or insertion. -/
  | presencePoll (signature : Bool)
  /-- POWER_UP_SCAN (R386): After a mount the store reads sample pages of every programmed block and updates MAX_CORR. -/
  | powerUpScan (first middle last : PageRead)
  /-- COPPICE_REFRESH (R384): Coppice moves a segment or system block whose refresh trigger holds and erases the source. -/
  | coppiceRefresh (block : Nat) (m : BlockMove)
  /-- WEAR_LEVELLING_MOVE (R383): Static wear-levelling moves the least-worn closed segment into the most-worn free block. -/
  | wearLevellingMove (m : BlockMove)
  /-- AGE_DAY (R384): Each 86,400 s of powered time increases AGE of every programmed block. -/
  | ageDay
  /-- TARGET_BUSY_TIMEOUT (R393): A NAND target stays busy over 50 ms or gives no status, with the consequences of R360. -/
  | targetBusyTimeout (target : Fin 4)
  /-- RIDE_LINK_UP (R475): Block lock has held 1 ms; LINK sets and a new session exchanges HELLO. -/
  | rideLinkUp
  /-- RIDE_LINK_DOWN (R475): Loss of block lock or an exceeded retransmission budget clears LINK. -/
  | rideLinkDown
  /-- HELLO (R482): A received HELLO resolves the roles of the two units or fails the join. -/
  | helloFrame (f : RideFrame)
  /-- HEARTBEAT (R492): A received HEARTBEAT refreshes heartbeat status and drives the standby's time alignment. -/
  | heartbeatFrame (f : RideFrame)
  /-- DATA (R488): A received DATA frame of an epoch image is accepted in order and moved into the standby bank. -/
  | dataFrame (f : RideFrame) (ecc : Bool)
  /-- COMMIT (R489): A received COMMIT with matching length and CRC commits the epoch and applies its journal. -/
  | commitFrame (c : CommitIn)
  /-- ACK (R478): A received ACK frame updates the acknowledged sequence and credits. -/
  | ackFrame (f : RideFrame)
  /-- NAK (R480): A received NAK makes the sender resend from the named frame. -/
  | nakFrame (f : RideFrame)
  /-- SWITCH_REQUEST (R502): A received SWITCH request makes the standby commit the final image and take over. -/
  | switchRequest (f : RideFrame)
  /-- SWITCH_DONE (R502): A received SWITCH done makes the old active become STANDBY and a sync begin. -/
  | switchDone (f : RideFrame)
  /-- LEAVE (R503): A received LEAVE makes an ACTIVE stop mirroring and a standby role end. -/
  | leaveFrame (f : RideFrame)
  /-- RETRANSMISSION_TIMEOUT (R480): An acknowledgement has not come within 100 µs and unacknowledged frames are resent. -/
  | retransmissionTimeout
  /-- HELLO_SEND (R481): A joining unit sends HELLO every 100 µs until it receives one. -/
  | helloSend
  /-- HEARTBEAT_SEND (R495): A unit in a paired role sends a HEARTBEAT every 100 µs. -/
  | heartbeatSend
  /-- HEARTBEAT_LOSS (R498): No partner HEARTBEAT for 3 ms; a STANDBY opens its witness window or the ACTIVE raises ALARM. -/
  | heartbeatLoss
  /-- WITNESS_WINDOW_EXPIRY (R498): The 5 ms witness window passes with no partner beacon and the standby takes over or becomes SOLO. -/
  | witnessWindowExpiry
  /-- PARTITION_TIMEOUT (R498): A PARTITIONED_STANDBY sees neither HEARTBEAT nor partner beacon for 5 ms and takes over. -/
  | partitionTimeout
  /-- EPOCH_BOUNDARY (R483): Each 1 ms the active builds an epoch image and sends it through channel 6. -/
  | epochBoundary
  /-- EPOCH_TIMEOUT (R490): An epoch's COMMIT has not arrived within EPOCH_TIMEOUT and the standby discards it. -/
  | epochTimeout
  /-- SWITCHOVER_TIMEOUT (R502): SWITCH done has not arrived within EPOCH_TIMEOUT and the active resumes service with ALARM. -/
  | switchoverTimeout
  /-- DROOP_TRIP (R507): A droop detector trips and the island's period becomes 1.5× or 2× nominal. -/
  | droopTrip (island : Fin 25) (high : Bool)
  /-- DROOP_CLEAR (R509): A detector has stayed clear 1 µs and the island's period steps back toward nominal. -/
  | droopClear (island : Fin 25) (high : Bool)
  /-- STRETCH_BUDGET_WINDOW_END (R512): A 1 ms window ends and an island over its stretch budget counts in STRETCH_OVER and raises source 11. -/
  | stretchBudgetWindowEnd
  /-- DETECTOR_DISAGREEMENT (R533): One detector of a pair reports a trip its partner does not for over 100 µs, failing checker 40. -/
  | detectorDisagreement (island : Fin 25)
  /-- THERMAL_SAMPLE (R525): Every 1 ms the thermal sensors are sampled into TJ and the thermal alarm is judged. -/
  | thermalSample (readings : List Int)
  /-- ODOMETER_SECOND (R528): Each second of powered time adds its acceleration factor to the thermal accumulator. -/
  | odometerSecond
  /-- HOURLY_MEASUREMENT (R529): Each powered hour the aging monitors are measured, LIFE_USED recomputed and checker 43 tested. -/
  | hourlyMeasurement (readings : List MonReading) (nvGood : Bool)
  /-- SELF_CHECK_END (R541): The self-check ends; FENCE_SELF and SC_REPORT are written, faults set, and READY sets. -/
  | selfCheckEnd (failed : List (Fin 48 × Fin 25))
  /-- MEMORY_INITIALISATION_END (R570): Every memory holds its reset content, and READY may set once the self-check has also ended. -/
  | memoryInitialisationEnd
  /-- PERIODIC_TEST (R542): In each FTTI/2 half-period the safety island injects and checks every checker at its offset. -/
  | periodicTest (checker : Fin 48) (island : Fin 25) (e : TestEnd)
  /-- SAFETY_WATCHDOG_EXPIRY (R547): WDOG_MS passes without OP 1 and M_FAULT.WATCHDOG sets. -/
  | safetyWatchdogExpiry
  /-- HANDSHAKE_TIMEOUT (R19): An inter-island handshake does not complete in 20 µs; M_FAULT.HANDSHAKE sets and the device enters the safe state. -/
  | handshakeTimeout (a : Fin 25) (b : Fin 25)
  /-- KEEP_ALIVE (R600): Each live island completes a keep-alive handshake with the control island at least every 100 µs. -/
  | keepAlive (island : Fin 25)
  /-- SAFETY_RESET (R550): 100 ms after a safe state caused by a control-island handshake, the safety island issues a device reset. -/
  | safetyReset
  /-- POWER_ON (R565): Supplies ramp with RESET_N low and the device asserts FAULT_N and holds its outputs in reset state. -/
  | powerOn
  /-- RESET_N_ASSERT (R567): RESET_N held low 10 µs with supplies steady causes a pin reset. -/
  | resetNAssert (lowNs : Nat)
  /-- RESET_N_RELEASE (R570): RESET_N release starts the start-up timeline of Table 19.3. -/
  | resetNRelease (r : RecordUse)
  /-- INTERNAL_RESET_RELEASE (R568): A command or safety reset releases after 10 µs and starts the start-up timeline. -/
  | internalResetRelease (nv : NvRead)
  /-- PLL_LOCK_TIMEOUT (R578): The timebase PLL has not locked 5 ms after release; TIMEBASE sets and the device enters the safe state. -/
  | pllLockTimeout
  /-- STARTUP_WINDOW_CLOSE (R571): The start-up window closes, releasing tenants and starting the mount unless held or safe. -/
  | startupWindowClose
  /-- CB_STROBE_DEASSERT (R38): The granted master deasserts CB_STB_N, and the device deasserts CB_ACK_N or CB_ERR_N within tAH and stops driving read data within tDH. -/
  | cbStrobeDeassert
  /-- LANE_LOCK_ACQUIRED (R243): A lane gains signal and block or code-group lock, LANE_STAT bits 0 and 1 set, and the 1 ms link qualification of its ports begins. -/
  | laneLockAcquired (lane : Fin 8)
  /-- IN_BAND_LINK_CHANGE (R241): A port's in-band link word or Clause 37 result changes its reported link, speed or duplex. -/
  | inBandLinkChange (port : Fin 32) (link : Bool) (speed : Fin 6) (half : Bool)
  /-- BLOCK_ERASE_END (R380): A NAND block erase finishes, and a FAIL status retires the block as grown bad, consumes a spare and recomputes HEALTH. -/
  | blockEraseEnd (block : Nat) (failed : Bool)
  /-- PHASE_SLEW_DECREMENT (R303): Each accumulated nanosecond of slew decrements the magnitude of PHASE_SLEW, and the faster or slower rate ends when it reaches 0. -/
  | phaseSlewDecrement
  /-- SUPPLY_LOSS (R565): Supplies fall, with or without RESET_N, and the device stops driving its outputs and enters OFF. -/
  | supplyLoss
  /-- DISCARDED_RIDE_FRAME (R478): A Ride frame with a bad CRC, an illegal LEN or a reserved TYPE arrives, is discarded, and causes a NAK for the gap. -/
  | discardedRideFrame (bytes : List Byte)
  /-- PARTNER_BEACON_LOSS (R497): No partner beacon has arrived for 5 ms and M_PAIR_STAT.BEACON falls to 0. -/
  | partnerBeaconLoss
  /-- FAULT_PUSH_CPL_TIMEOUT (R153): The closing read of a fault record push reaches CPL_TIMEOUT, the push fails and FAULT_RING_LOST sets. -/
  | faultPushCplTimeout (t : Fin 4)
  /-- CANOPY_CLOSING_READ_TIMEOUT (R431): The closing read of a Canopy maintenance operation reaches CPL_TIMEOUT, and the operation ends with ERR 2, ERROR and DONE. -/
  | canopyClosingReadTimeout (t : Fin 4)
  /-- RECOVERING_ONSET (R212): A read for a ring has been outstanding for 100 µs and T_RINGSTAT.RECOVERING sets. -/
  | recoveringOnset (t : Fin 4) (ring : Fin 132)
  /-- TAP_INSTRUCTION_LOAD (R585): An IEEE 1149.1 instruction other than BYPASS is loaded through the TAP, and the outputs follow the boundary-scan register. -/
  | tapInstructionLoad (i : TapInstr) (bsr : List Bool)
  /-- HOST_LINK_ERROR (R461): The host link logs an error through AER other than a poisoned BAR0 write, and tenant source 3 is raised. -/
  | hostLinkError (e : LinkError)
  /-- POWERED_TIME_JOURNAL (R371): At least once per hour the store journals AGE and the powered-time total. -/
  | poweredTimeJournal
  deriving DecidableEq, Repr

end Sys2Proof
end

