-- ==== Sys2Proof/Config.lean ====
section
/-! DEFINITION. What one device fixes and the spec leaves open: opaque constants, so that no proof can see a value. -/

set_option Elab.async false

namespace Sys2Proof

/-- A free number: the n-th value the spec leaves open (assumption 5). -/
opaque Config.freeNat : Nat → Nat

/-- A free byte, by draw and by index within the draw (assumption 5). -/
opaque Config.freeByte : Nat → Nat → Byte

/-- UID (0x010000-01): the factory's 48-bit device number (R116). -/
opaque Config.uid : Nat

/-- The acceleration factor of R528 at the mean of a number of samples of TJ with this sum, in units of 2^-20: a
real-valued exponential for which the spec states no number format (assumption 12). -/
opaque Config.accelFactor : Int → Nat → Nat

end Sys2Proof
end

