-- ==== Sys2Proof/Machine/Flags.lean ====
section
/-! DEFINITION. The computations over words and bytes that the rules name: parity, bit fields, sticking counters,
CRC-32, ones'-complement sums, and little-endian packing. -/

set_option Elab.async false

namespace Sys2Proof.Machine

/-- Bits lo to lo + n - 1 of a number. -/
def bits (x lo n : Nat) : Nat := (x >>> lo) % 2 ^ n

/-- Bit i of a number. -/
def bitOf (x i : Nat) : Bool := x.testBit i

/-- A truth value as a bit at place i. -/
def flag (b : Bool) (i : Nat) : Nat := if b then 2 ^ i else 0

/-- x with its bits lo to lo + n - 1 replaced by v. -/
def putBits (x lo n v : Nat) : Nat := x - (bits x lo n) * 2 ^ lo + (v % 2 ^ n) * 2 ^ lo

/-- The number of ones among the low n bits. -/
def ones : Nat → Nat → Nat
  | 0, _ => 0
  | n + 1, x => x % 2 + ones n (x / 2)

/-- Odd parity bit over the low n bits of x: data and parity together hold an odd number of ones (R39). -/
def oddParity (n x : Nat) : Bool := ones n x % 2 == 0

/-- CB_PAR for a word: bit k is odd parity over bits 8k+7 to 8k (Table 2.1, R40). -/
def parOf (d : Word) : BitVec 3 :=
  BitVec.ofNat 3 (flag (oddParity 8 (bits d.toNat 0 8)) 0 + flag (oddParity 8 (bits d.toNat 8 8)) 1
    + flag (oddParity 8 (bits d.toNat 16 8)) 2)

/-- CB_APAR for an address and CB_RW: odd parity over CB_A[7:0] and CB_RW (Table 2.1). -/
def aparOf (addr : BitVec 8) (read : Bool) : Bool :=
  oddParity 9 (addr.toNat + flag read 8)

/-- A count of width w that sticks at its top (Table 15.4). -/
def stick (w c n : Nat) : Nat := min (c + n) (2 ^ w - 1)

/-- A signed number from its two's complement of n bits. -/
def toInt (n x : Nat) : Int := if x % 2 ^ n < 2 ^ (n - 1) then (x % 2 ^ n : Nat) else (x % 2 ^ n : Nat) - (2 ^ n : Nat)

/-- Two's complement of n bits. -/
def ofInt (n : Nat) (i : Int) : Nat := (i % (2 ^ n : Nat)).toNat

/-- A word of a number's low 24 bits. -/
def word (n : Nat) : Word := BitVec.ofNat 24 n

/-- Word k of a wide value (bits 24k+23 to 24k). -/
def wordOf (v k : Nat) : Word := word (v >>> (24 * k))

/-- A wide value from its words, word 0 first. -/
def ofWords : List Word → Nat
  | [] => 0
  | w :: ws => w.toNat + 2 ^ 24 * ofWords ws

/-- A number's n low bytes, least significant first (R2). -/
def leBytes : Nat → Nat → List Byte
  | 0, _ => []
  | n + 1, x => BitVec.ofNat 8 x :: leBytes n (x / 256)

/-- The number that bytes hold, least significant first (R2). -/
def leNat : List Byte → Nat
  | [] => 0
  | b :: bs => b.toNat + 256 * leNat bs

/-- The number that bytes hold, most significant first. -/
def beNat (bs : List Byte) : Nat := bs.foldl (fun a b => a * 256 + b.toNat) 0

/-- A number's n low bytes, most significant first. -/
def beBytes (n x : Nat) : List Byte := (leBytes n x).reverse

/-- Bytes off to off + n - 1. -/
def slice (bs : List Byte) (off n : Nat) : List Byte := (bs.drop off).take n

/-- Byte k, 0 beyond the end. -/
def byteAt (bs : List Byte) (k : Nat) : Nat := (bs.getD k 0).toNat

/-- bs with the bytes from off replaced by v. -/
def patch (bs : List Byte) (off : Nat) (v : List Byte) : List Byte :=
  bs.take off ++ v ++ bs.drop (off + v.length)

/-- Dwords of bytes, little-endian (R2). -/
def dwordsOf : Nat → List Byte → List Dword
  | 0, _ => []
  | n + 1, bs => BitVec.ofNat 32 (leNat (bs.take 4)) :: dwordsOf n (bs.drop 4)

/-- Bytes of dwords, little-endian (R2). -/
def bytesOf (ds : List Dword) : List Byte := ds.flatMap fun d => leBytes 4 d.toNat

/-- A tag as 12 bytes: word n at bytes 3n to 3n+2 (R8). -/
def tagBytes (tag : List Word) : List Byte := tag.flatMap fun w => leBytes 3 w.toNat

/-- One bit step of the reflected CRC-32 of R123. -/
def crcStep : Nat → Nat → Nat
  | 0, c => c
  | n + 1, c => crcStep n (if c % 2 = 1 then (c / 2) ^^^ 0xEDB88320 else c / 2)

/-- CRC-32 of R123: reflected polynomial 0x04C11DB7, initial and final 0xFFFFFFFF. -/
def crc32 (bs : List Byte) : Nat :=
  (bs.foldl (fun c b => crcStep 8 (c ^^^ b.toNat)) 0xFFFFFFFF) ^^^ 0xFFFFFFFF

/-- The FCS of a frame body: the CRC-32, least significant byte first. -/
def fcsOf (body : List Byte) : List Byte := leBytes 4 (crc32 body)

/-- A whole frame carries a good FCS. -/
def fcsGood (bs : List Byte) : Bool :=
  bs.length ≥ 4 && bs.drop (bs.length - 4) == fcsOf (bs.take (bs.length - 4))

/-- Sum of big-endian 16-bit words, a last odd byte padded with 0. -/
def sum16 : List Byte → Nat
  | [] => 0
  | [a] => a.toNat * 256
  | a :: b :: rest => a.toNat * 256 + b.toNat + sum16 rest

/-- Fold the carries of a ones'-complement sum. -/
def fold16 (x : Nat) : Nat :=
  let f := fun y => y % 65536 + y / 65536
  f (f (f x))

/-- The ones'-complement checksum of a sum. -/
def csum16 (sum : Nat) : Nat := 65535 - fold16 sum

/-- The pseudo-header sum of R234: addresses, protocol and length. -/
def pseudoSum (addrs : List Byte) (proto len : Nat) : Nat := sum16 addrs + proto + len / 65536 + len % 65536

end Sys2Proof.Machine
end

