-- ==== Sys2Proof/Machine/State.lean ====
section
/-! DEFINITION. The state of the HNR3224 as plain data. Every default is the value right after reset; a field that
has no reset value of the spec's own is named in the assumption log. Derived read-only registers are computed in
Machine/Windows.lean and Machine/Pins.lean and hold no field here. -/

set_option Elab.async false

namespace Sys2Proof.Machine

/-! ### Control bus (chapter 2) -/

/-- Why the tenure in progress ends when its handshake completes (R47, R599). -/
inductive Ending where
  | none | revoke | disable
  deriving DecidableEq, Repr

/-- Control-bus pins, arbitration and the handshake in progress (R34 to R51, R599). Bit m of a mask is master m. -/
structure Bus where
  /-- CB_REQ_N[m] asserted. -/
  req : BitVec 5 := 0
  /-- CB_GNT_N[m] asserted: the one granted master. -/
  grant : Option Nat := none
  /-- The master last granted: as if master 4 (R45). -/
  lastGrant : Nat := 4
  /-- The tenant master last granted, 0 for none since device reset (R46). -/
  lastTenant : Nat := 0
  /-- The instant the tenure began and the limit in µs that applies to it (R47, R69). -/
  grantAt : Nat := 0
  limit : Nat := 0x14
  /-- A handshake between phases 2 and 4: true for CB_ERR_N, false for CB_ACK_N, and the instant it asserted. -/
  ack : Option (Bool × Nat) := none
  ending : Ending := .none
  /-- Masters whose request is ignored after a revocation, and since when each request is deasserted (R49). -/
  ignored : BitVec 5 := 0
  offAt : Tab Nat := []
  /-- CB_D and CB_PAR as the device drives them on a read (R40). -/
  dataOut : Option (Word × BitVec 3) := none
  deriving DecidableEq, Repr

/-! ### Register windows (chapter 3) -/

/-- The status fields of a parameter or table port (Table 3.10), and the RESULT the operation in progress ends with
(R107): RESULT holds its former value until then. -/
structure OpStat where
  overrun : Bool := false
  result : Nat := 0
  ends : Nat := 0
  busy : Bool := false
  deriving DecidableEq, Repr

/-- The shadows of one anchored group on one path (R56): 64 bits each. -/
structure Shadow where
  rd : Nat := 0
  wr : Nat := 0
  deriving DecidableEq, Repr

/-- One register window: M is number 0, T0 to T3 are 1 to 4. -/
structure Win where
  paramId : Word := 0
  paramData : Word := 0
  pstat : OpStat := {}
  /-- Read latch: the anchor item and the whole value (R110). -/
  latch : Option (Nat × Nat) := none
  /-- Write shadow: item and word (R111). -/
  staged : List (Nat × Word) := []
  tblId : Nat := 0
  tblRow : Word := 0
  tblWord : Nat := 0
  /-- The row buffer of 64 words; words beyond the list read 0 (R113). -/
  buf : List Word := []
  tstat : OpStat := {}
  pinEn : Bool := false
  msiEn : Bool := false
  /-- Presentation (R456): the instant the window last began to present, whether it presents now, and whether it has
  presented since the last claim through each path, bit 0 the control bus, bit 1 BAR0 (R453). -/
  presentAt : Option Nat := none
  sinceClaim : BitVec 2 := 0
  presenting : Bool := false
  lockSel : Nat := 0
  /-- LAST_OK of this window for each lock (Table 3.13). -/
  lastOk : BitVec 16 := 0
  w0 : Word := 0
  w1 : Word := 0
  w2 : Word := 0
  w3 : Word := 0
  timeValid : Bool := false
  timeBusy : Bool := false
  /-- Bit e: a capture of EVT_IN[0], EVT_IN[1] or PPS_IN this window has not read yet (R305). -/
  capNew : BitVec 3 := 0
  xferCh : Nat := 0
  canopyBase : Nat := 0
  canopyLen : Word := 0
  canopyErr : Nat := 0
  canopyOverrun : Bool := false
  canopyError : Bool := false
  canopyDone : Bool := false
  canopyBusy : Bool := false
  /-- Shadows of the anchored groups, at 4 · path + group: path 0 control bus, 1 BAR0 (R56). -/
  shadows : Tab Shadow := []
  deriving DecidableEq, Repr

/-- The registers only the M window has. -/
structure Mgmt where
  /-- A write of PAIR_ASSIGN or PAIR_CTL waits for the channels that change owner to end: item and value (R397). -/
  handover : Option (Nat × Nat) := none
  scratch : Word := 0
  /-- M_FAULT (Table 3.7) and M_FAULT_DETAIL (Table 3.8). -/
  fault : BitVec 12 := 0
  detail : Word := 0
  /-- M_CONTROL (Table 3.6). -/
  trim : Bool := false
  sleep : Bool := false
  mgmtReset : Bool := false
  perfSel : Nat := 0
  /-- M_TENANT_SEL (Table 3.18). -/
  selOffset : Nat := 0
  selTenant : Nat := 0
  deriving DecidableEq, Repr

/-- The Zerik image loader (chapter 4): M_IMAGE_CMD and the image bytes it holds in the transfer buffer (R126). -/
structure Image where
  load : Bool := false
  fromStore : Bool := false
  done : Bool := false
  result : Nat := 0
  bytes : List Byte := []
  /-- The result decided before application, by the checks of R128 or the source, and the record it failed at. -/
  verdict : Nat := 0
  failAt : Nat := 0xFFFFFF
  deriving DecidableEq, Repr

/-! ### Locks, tenants and rings (chapters 5 to 7) -/

/-- A hardware lock (R159): the owner is a window number. Bit w of waiting records window w. -/
structure Lock where
  owner : Option Nat := none
  broken : Bool := false
  waiting : BitVec 5 := 0
  deriving DecidableEq, Repr

/-- A token bucket (R143, R294): the content in units of 1/4000 byte at an instant; none is full. -/
structure Bucket where
  level : Option Int := none
  since : Nat := 0
  deriving DecidableEq, Repr

/-- A fault record before its TIME field's dword order (Table 5.3): T_FAULT_DETAIL word, dword 0 bits 30:24, the
arguments and the cycle counter. -/
structure FaultRec where
  detail : Word
  cpl : Nat
  seq : Nat
  arg0 : Nat
  arg1 : Nat
  time : Nat
  deriving DecidableEq, Repr

/-- A slot of a ring as fetched (R182): its position, its four dwords, the read it came with, whether it lay beyond
the tail when it was read (R185), and the device time in ns at which it was read (R221). -/
structure Slot where
  pos : Nat
  dw : List Dword
  read : Nat
  pre : Bool
  readNs : Nat
  /-- Step cycles held for the slot: those of the issue of the read that brought it (R469). -/
  cycles : Nat := 0
  deriving DecidableEq, Repr

/-- A descriptor read outstanding: first position, number of slots, whether every slot lies beyond the tail, the instant
it was issued, whether it is a reissue, and the step cycles of its issues (R182 to R187, R212, R469). -/
structure DescRead where
  pos : Nat
  count : Nat
  beyond : Bool
  since : Nat
  reissued : Bool
  cycles : Nat := 0
  deriving DecidableEq, Repr

/-- Where an entry of a ring stands between fetch and write-back. -/
inductive Stage where
  | fetched | gathering | staged | queued | egress | wire | done
  deriving DecidableEq, Repr

/-- An entry in flight: its position and slots, the first slot as read, the bytes its write-back stores (once done), and
the device time in ns at which its prologue's slot was read (R221, Table 7.5). -/
structure Entry where
  pos : Nat
  len : Nat
  kind : Nat
  slots : List (List Dword)
  proNs : Nat := 0
  stage : Stage := .fetched
  wb : List Byte := []
  /-- Step cycles held for the cycle ledger, and whether they count as USEFUL (R468, R469). -/
  cycles : Nat := 0
  useful : Bool := false
  deriving DecidableEq, Repr

/-- One descriptor ring. Positions run from 0 to 2N - 1 (R172). -/
structure Ring where
  enable : Bool := false
  stop : Bool := false
  /-- A flush is in progress (R202, R204, R147), and FLUSH as software has set it. -/
  flush : Bool := false
  flushBit : Bool := false
  prefetch : Nat := 8
  flushDone : Bool := false
  stopped : Bool := false
  recovering : Bool := false
  head : Nat := 0
  tail : Nat := 0
  deficit : Int := 0
  slots : List Slot := []
  read : Option DescRead := none
  /-- Slots beyond the tail still to be read after the last accepted doorbell: first position and count (R185). -/
  preDue : Option (Nat × Nat) := none
  nextRead : Nat := 0
  entries : List Entry := []
  /-- A first slot before the tail read OWN = 0: to be read again after 1 µs (R184). -/
  ownWait : Option Nat := none
  ownCounted : Bool := false
  /-- The fetch clock: since when it runs, and the ticks it stood at when it last stood still (R210). -/
  clockAt : Option Nat := none
  clockHeld : Nat := 0
  /-- Since when finished write-backs are held (R192). -/
  heldAt : Option Nat := none
  /-- Glade frames queued to an RX ring (R200). -/
  refs : List Nat := []
  deriving DecidableEq, Repr

/-- A TX frame in the ring engine's staging (R139, R195): its ring and entry, the buffers still to read, the bytes read,
and the instant the read outstanding was issued. -/
structure TxStage where
  ring : Nat
  pos : Nat
  bufs : List (Addr × Nat)
  bytes : List Byte
  complete : Bool
  readAt : Nat
  deriving DecidableEq, Repr

/-- Configuration space and state of a host link (R98, R146, R458). -/
structure Link where
  state : LinkState := .detect
  /-- PERST_N of the link is asserted: an input pin, high when nothing asserts it. -/
  perst : Bool := false
  bme : Bool := false
  mse : Bool := false
  msiEn : Bool := false
  msiAddr : Addr := 0
  msiData : Dword := 0
  /-- Memory writes the link has issued, oldest first: address and bytes (posted, R152, R193, R458). -/
  posted : List (Addr × List Byte) := []
  /-- The dwords of the last BAR0 read completion; none for Unsupported Request (R98 to R103). -/
  bar0 : Option (List Dword) := some []
  /-- The last configuration request completed with Configuration Request Retry Status (R576). -/
  crs : Bool := false
  /-- Errors logged through AER (R101, R461). -/
  aer : Nat := 0
  /-- Rings whose requests the link is replaying (R212). -/
  replaying : List Nat := []
  /-- The bits of the Command register other than Bus Master Enable and Memory Space Enable (R146). -/
  command : BitVec 16 := 0
  /-- The dword of the last configuration read completion (R146). -/
  cfg : Option Dword := none
  /-- Requests of the ring engine issued in a row while a channel request waited (R415). -/
  share : Nat := 0
  deriving DecidableEq, Repr

/-- One tenant: its fault state, its reset and its ring engine. -/
structure Tenant where
  /-- M_TENANT_CTL (Table 3.18). -/
  enable : Bool := true
  reset : Bool := false
  /-- T_CONTROL (Table 3.24). -/
  selfReset : Bool := false
  engineEn : Bool := false
  /-- A tenant reset is in progress or held (R155, R158); held by a hot reset or FLR until the link ends it (R146), and
  by the start-up until the window closes (R571). -/
  inReset : Bool := true
  /-- Every step of R156 has been performed; a held reset then waits for its release (R158). -/
  stepped : Bool := true
  linkHold : Bool := false
  /-- Tenant resets begun so far: the model's own count, by which a host read is known to be abandoned (R156). -/
  resets : Nat := 0
  fault : BitVec 10 := 0
  lost : Nat := 0
  detail : Word := 0
  stopped : Bool := false
  ringSel : Nat := 0
  /-- The fault ring: next record, PHASE, SEQ, the record whose closing read is outstanding and since when, and the
  records waiting (R151 to R154). -/
  frIndex : Nat := 0
  frPhase : Bool := true
  frSeq : Nat := 0
  frPush : Option (FaultRec × Nat) := none
  frWait : List FaultRec := []
  frRestart : Bool := false
  buckets : Tab Bucket := []
  rings : Tab Ring := []
  /-- The weighted ring whose turn it is and the frames it has sent in the turn; none before the first turn (R197). -/
  turn : Option (Nat × Nat) := none
  staging : List TxStage := []
  /-- Fifths of a ring-engine cycle carried between ticks, and step cycles already counted whose time has still to pass
  (R468). -/
  cycRem : Nat := 0
  ahead : Nat := 0
  deriving DecidableEq, Repr

/-! ### The Glade (chapter 1) -/

/-- A frame in the Glade: its tag words, bytes, cells, references outstanding, charge and origin. -/
structure GFrame where
  tag : List Word
  bytes : List Byte
  ncells : Nat
  /-- The cell numbers taken: a free choice (R601). -/
  cells : List Nat
  refs : Nat
  charge : Option Nat
  /-- Ingress port of a received frame (R252). -/
  port : Option Nat
  /-- The whole ingress timestamp in units of 2^-16 ns (R8, R229). -/
  ts : Nat
  deriving DecidableEq, Repr

/-! ### Ports and lanes (chapters 8 and 10) -/

/-- Who sent a frame queued for egress: a tenant's entry with its TX options, a relay or mirror reference, or the
pairing island's witness beacon. -/
inductive Origin where
  | tenant (t ring pos : Nat) (tsReq : Bool) (l4 : Nat) (l3off l4off : Nat)
  | relay
  | beacon
  deriving DecidableEq, Repr

/-- An item of a port's class queue: the Glade frame and its origin; launch is in ns of device time (R213, R321). -/
structure EgItem where
  frame : Nat
  origin : Origin
  launch : Option Nat
  supplied : Nat
  deriving DecidableEq, Repr

/-- A frame whole in an egress-stage slot (R321 to R324) or on the wire: its class, its tag and its bytes. -/
structure Staged where
  cls : Nat
  origin : Origin
  launch : Option Nat
  supplied : Nat
  tag : List Word
  bytes : List Byte
  /-- The clock instant at which the fragment on the wire starts, and the frame bytes earlier fragments carried (R326). -/
  clkAt : Nat := 0
  sentB : Nat := 0
  fragments : Nat := 0
  /-- Taken as the frame starts: the true time of its first preamble bit in units of 2^-16 ns (R323), the speed it runs at,
  TS_EG_OFFSET in 2^-16 ns, TS_CFG bit 0, and whether preemption may cut it (R260, R308, R309). -/
  startAt : Nat := 0
  speed : Nat := 0
  egOff : Int := 0
  update : Bool := false
  pre : Bool := false
  deriving DecidableEq, Repr

/-- XOFF of a port class; class 8 stands for 802.3x pause (R253). -/
structure Xoff where
  /-- XOFF began with a refusal, of a frame charged so. -/
  refused : Option (Option Nat) := none
  /-- The instant of the last XOFF frame sent. -/
  sentAt : Nat := 0
  deriving DecidableEq, Repr

/-- A frame in the RX stage buffer: its bytes, the ingress timestamp in 2^-16 ns, PREEMPT, and the instant it ended. -/
structure RxItem where
  bytes : List Byte
  ts : Nat
  preempt : Bool
  at0 : Nat
  deriving DecidableEq, Repr

/-- Gates of a port (R315 to R320). -/
structure Gate where
  enable : Bool := false
  active : Nat := 0
  /-- SWAP pending: the change time C in ns. -/
  swapAt : Option Nat := none
  /-- Operational list length, cycle time and base time in ns. -/
  len : Nat := 1
  cycle : Nat := 0xF4240
  base : Nat := 0
  /-- Set-And-Hold-MAC in force (R326). -/
  hold : Bool := false
  deriving DecidableEq, Repr

/-- One port. -/
structure Port where
  link : Bool := false
  speed : Nat := 0
  /-- Since when every link condition of R243 has held. -/
  qualAt : Option Nat := none
  /-- The in-band link word or Clause 37 result: link, speed code, half duplex (R241, R242). -/
  inLink : Bool := false
  inSpeed : Nat := 0
  inHalf : Bool := false
  /-- The last MDIO poll read link up (R243). -/
  mdioUp : Bool := false
  /-- Paused classes: class and the instant its quanta elapse (R257); class 8 for 802.3x pause. -/
  paused : Tab Nat := []
  xoff : Tab Xoff := []
  /-- MAC control frames due: class and time value (R254). -/
  ctlDue : Tab Nat := []
  rx : List RxItem := []
  /-- Frames that have left the RX stage: when they ended, when they left, and the bytes they held (R246). -/
  rxGone : List (Nat × Nat × Nat) := []
  queues : Tab (List EgItem) := []
  stage : List Staged := []
  wire : Option Staged := none
  /-- A preempted frame waiting to resume (R326). -/
  held : Option Staged := none
  /-- The instant from which the wire is idle long enough for the next frame to start (R247, R255). -/
  freeAt : Nat := 0
  /-- The frames sent, oldest first. -/
  sent : List (List Byte) := []
  gate : Gate := {}
  deriving DecidableEq, Repr

/-- One lane (R238, R243, R271). LANE_STAT bits 0 and 1, and whether quad power is on (R514). -/
structure Lane where
  signal : Bool := false
  lock : Bool := false
  down : Bool := false
  deriving DecidableEq, Repr

/-- An MDIO master: no response, the port last polled, whether it drives its bus after a frame, and the bits it drove in its
last poll, first bit first (R263 to R265). -/
structure Mdio where
  noResp : Bool := false
  last : Option Nat := none
  owns : Bool := false
  sent : List Bool := []
  deriving DecidableEq, Repr

/-- A frame in the Thicket's staging waiting for its extended flow row (R275, R290). -/
structure TFrame where
  port : Nat
  item : RxItem
  /-- The tenant whose extended table is read. -/
  tenant : Nat
  addr : Nat
  readAt : Nat
  /-- The tenant's resets when the read was issued (R292). -/
  resets : Nat
  deriving DecidableEq, Repr

/-- The Thicket: round-robin pointer, frames in step 5, and the relay rows' buckets (R275, R294). -/
structure Thicket where
  last : Nat := 31
  waiting : List TFrame := []
  buckets : Tab Bucket := []
  deriving DecidableEq, Repr

/-! ### Time and counters (chapters 10 and 15) -/

/-- A stretch of device time: at tick clk it was dev and rem, and from then on it gains rate at each tick, in units of 10^-9
of 2^-16 ns (R302). -/
structure TimeSeg where
  clk : Nat
  dev : Nat
  rem : Nat
  rate : Nat
  deriving DecidableEq, Repr

/-- The timebase: device time in 2^-16 ns with the remainder below it (in 10^-9 of that unit), the fixed cycle counter,
the accumulated slew ticks, and the captures of EVT_IN[0], EVT_IN[1] and PPS_IN (R301 to R314). -/
structure Time where
  pll : Bool := false
  /-- Lock was lost: device time has no defined meaning (R328). -/
  lost : Bool := false
  dev : Nat := 0
  rem : Nat := 0
  fixed : Nat := 0
  slewAcc : Nat := 0
  /-- How the device time ran of late, newest stretch first: what a timestamp point in the past reads (R308). -/
  segs : List TimeSeg := []
  cap : Tab (Nat × Nat) := []
  ppsDue : Bool := false
  /-- PPS_OUT high: the fixed-cycle instant at which its width has passed. -/
  ppsOut : Option Nat := none
  deriving DecidableEq, Repr

/-- Programmable counters 1 to 8 by index 0 to 7, and the bandwidth window (R464 to R467): when it began and the sum. -/
structure Perf where
  cnt : Tab Nat := []
  bwAt : Option Nat := none
  bwSum : Nat := 0
  bwBytes : Nat := 0
  deriving DecidableEq, Repr

/-! ### Transfer channels and the Canopy (chapters 13 and 14) -/

/-- A host read a channel has outstanding (R402, R405, R408): a list element, source data of so many bytes, or the
closing read. -/
inductive ChanRead where
  | elem
  | data (n : Nat)
  | closing
  deriving DecidableEq, Repr

/-- A transfer channel: its registers (Tables 3.15, 3.16) and its progress. -/
structure Chan where
  src : Nat := 0
  dst : Nat := 0
  count : Nat := 0
  /-- M_XFER_CTL as stored: bits 23:16, 10:3, PAUSE and START. -/
  ctl : Nat := 0
  elem : Nat := 0
  err : Nat := 0
  error : Bool := false
  paused : Bool := false
  done : Bool := false
  busy : Bool := false
  /-- The piece in progress in SG mode: source address, units left, last element (R403). -/
  piece : Option (Nat × Nat × Bool) := none
  /-- The pieces of the list so far, as address and bytes, and where the destination began (R404). -/
  pieces : List (Nat × Nat) := []
  dst0 : Nat := 0
  /-- Host reads outstanding, oldest first, each with the instant of its issue (R398, R405). -/
  reads : List (ChanRead × Nat) := []
  /-- Bytes still to read of the burst in progress, and bytes still to write of each burst begun, oldest first (R406,
  R412). -/
  toRead : Nat := 0
  bursts : List Nat := []
  /-- A posted write to host memory has been issued and not closed (R408). -/
  wrote : Bool := false
  /-- The whole of the data has been moved: only completion remains. -/
  moved : Bool := false
  /-- The ERR the channel ends with once its reads are back and its writes are closed (R408, R411). -/
  ending : Option Nat := none
  /-- Paused by an image load (R126). -/
  yielded : Bool := false
  /-- SRC, DST, COUNT and ELEM at the start of the earliest burst not written in full, and of the earliest whose write is not
  known to be complete (R412). -/
  edge : Nat × Nat × Nat × Nat := (0, 0, 0, 0)
  mark : Nat × Nat × Nat × Nat := (0, 0, 0, 0)
  deriving DecidableEq, Repr

/-- A Canopy line (R419, R423): host address, sector masks, data, and the window and generation that allocated it. -/
structure Line where
  base : Nat
  valid : BitVec 4
  dirty : BitVec 4
  data : List Byte
  win : Nat
  gen : Nat
  deriving DecidableEq, Repr

/-- Who waits for a fill (R425, R426): a demand read, a prefetch, or a partial write to merge at an offset. -/
inductive FillFor where
  | demand (who : Nat)
  | prefetch
  | merge (off : Nat) (bytes : List Byte)
  deriving DecidableEq, Repr

/-- A fill in flight: the sectors it brings and the sectors maintenance has doomed (R432). -/
structure Fill where
  t : Nat
  base : Nat
  sectors : BitVec 4
  who : FillFor
  win : Nat
  gen : Nat
  doomed : BitVec 4
  /-- Reached by a clean, or by a clean and invalidate: a waiting partial write goes to memory (R432). -/
  back : Bool
  /-- Its number among the fills started, and the way it takes (R427, R433). -/
  id : Nat
  way : Nat
  deriving DecidableEq, Repr

/-- A device read of a cached place in progress: the bytes its hits gave, by address, and whether any of it is to come
from host memory (R425). -/
structure CRead where
  t : Nat
  who : Nat
  hits : List (Nat × List Byte)
  host : Bool
  deriving DecidableEq, Repr

/-- A maintenance operation queued on a partition (R430 to R434): cover lists the sectors valid or being filled when its
OP was acknowledged, and upto is the number of the first fill that started later (R433). -/
structure Maint where
  win : Nat
  op : Nat
  all : Bool
  base : Nat
  len : Nat
  started : Bool
  wrote : Bool
  since : Nat
  cover : List (Nat × BitVec 4)
  upto : Nat
  deriving DecidableEq, Repr

/-- The Canopy: lines at 16 · set + way, pseudo-LRU bits per set, window generations and streaming counters at
8 · tenant + window, fills, maintenance queues, and scratch ways. -/
structure Canopy where
  lines : Tab Line := []
  plru : Tab Nat := []
  gens : Tab Nat := []
  stream : Tab (Nat × Nat) := []
  fills : List Fill := []
  nextFill : Nat := 0
  reads : List CRead := []
  queues : Tab (List Maint) := []
  /-- Converted ways (SCRATCH_STAT bits 11:8) and the claims (R437, R439). -/
  ways : Nat := 0
  storeWays : List Nat := []
  pairWays : List Nat := []
  deriving DecidableEq, Repr

/-! ### The Journey Store and its medium (chapters 11 and 12) -/

/-- What waits to be recorded on a stream: a frame of the Glade, or a lock (type 2) or gap (type 3) marker with its
payload (Table 11.2); ts is the record's time in 2^-16 ns and since the clock instant the item was queued. -/
inductive WaitItem where
  | frame (id : Nat) (since : Nat)
  | marker (type : Nat) (payload : List Byte) (ts : Nat) (since : Nat)
  deriving DecidableEq, Repr

/-- A stream: the hardware fields of its row (Table 11.7) and its work in progress. -/
structure Stream where
  state : Nat := 0
  /-- NEWEST_SEQ, and the CHAIN of that segment. -/
  newest : Nat := 0
  chain : List Byte := []
  /-- The next segment has FIRST set (R341). -/
  fresh : Bool := true
  bucket : Bucket := {}
  wait : List WaitItem := []
  /-- RECORD actions not recorded since the stream's previous record, and their causes (R340). -/
  gap : Nat := 0
  gapCause : Nat := 0
  /-- The open event-lock window: start and end in ns of device time (R348, R349). -/
  window : Option (Nat × Nat) := none
  /-- TRIGGER and rule row of the lock that opened the window (Table 11.2). -/
  windowBy : Nat × Nat := (0, 0)
  /-- Since when the write watchdog runs (R360). -/
  dogAt : Option Nat := none
  deriving DecidableEq, Repr

/-- A segment held: its place in its chain, its block, and its data image as built so far (R331, R341 to R344). -/
structure Segment where
  stream : Nat
  seq : Nat
  block : Nat
  closed : Bool := false
  flags : Nat := 0
  records : Nat := 0
  firstTs : Nat × Nat := (0, 0)
  lastTs : Nat × Nat := (0, 0)
  prevChain : List Byte := []
  header : List Byte := []
  data : List Byte := []
  /-- Pages of the data image programmed, and whether the header page is. -/
  progd : Nat := 0
  sealed : Bool := false
  prot : Bool := false
  /-- Powered seconds at the end of the window that protects it (R350). -/
  holdAt : Option Int := none
  deriving DecidableEq, Repr

/-- A command the store issues on the NAND bus, with its target (R366, R368, R378, R380). A feature setting names the LUN
for LUN SET FEATURES. -/
inductive NandCmd where
  | reset (target : Nat)
  | readId (target : Nat)
  | readParameterPage (target : Nat)
  | readUniqueId (target : Nat)
  | setFeatures (target : Nat) (lun : Option Nat) (addr : Nat) (params : List Byte)
  | zqCalibration (target lun : Nat)
  | pageRead (block page : Nat)
  | pageProgram (block page : Nat)
  | blockErase (block : Nat)
  deriving DecidableEq, Repr

/-- What the journal of a cartridge records (R371, R373): its label, the block states, the powered seconds, the streams whose
next segment has FIRST set, the blocks that retire once their data is no longer live (R380, R382), and the blocks of the
system area in order: label copies, journal, image area. -/
structure Journal where
  label : Label
  blocks : List BlockState
  powered : Nat
  fresh : List Nat
  bad : List Nat
  system : List Nat
  deriving DecidableEq, Repr

/-- A page ready to program or being programmed: its stream, segment and page number; P - 1 is the header page. -/
structure Page where
  stream : Nat
  seq : Nat
  index : Nat
  issued : Bool := false
  deriving DecidableEq, Repr

/-- The store island. -/
structure Store where
  /-- The fields of M_STORE_STAT (Table 3.21). -/
  medium : Nat := 0
  err : Nat := 0
  error : Bool := false
  done : Bool := false
  overrun : Bool := false
  capReached : Bool := false
  /-- A lock has gone beyond the cap under CAP_POLICY 1, and the protected fraction is not within it again (R351). -/
  beyond : Bool := false
  /-- The command in progress: OP, stream, and what the medium shows. -/
  cmd : Option (Nat × Nat × Discovery) := none
  streams : Tab Stream := []
  segs : List Segment := []
  pages : List Page := []
  geometry : Option Geometry := none
  label : Option Label := none
  /-- The unique ID of target 0 (R366); none where no copy of it matches its complement. -/
  uniqueId : Option (List Byte) := none
  /-- The journal of the cartridge last mounted, which outlives every reset (R371). -/
  journal : Option Journal := none
  /-- The commands issued to the medium, oldest first. -/
  nand : List NandCmd := []
  /-- The next block the power-up scan looks at (R386). -/
  scanAt : Nat := 0
  /-- The block table (Table 12.6), blocks being erased, and blocks with an uncorrectable codeword (R385, R394). -/
  blocks : List BlockState := []
  erasing : List Nat := []
  uncorr : List Nat := []
  /-- A mount is due (R366, R368), and when the store last polled for a cartridge. -/
  mountDue : Bool := false
  pollAt : Nat := 0
  lastMove : Option Nat := none
  /-- The powered seconds of the cartridge at an instant, the powered days counted into AGE (R384), and the powered hours
  journalled (R371). -/
  powered : Nat := 0
  poweredAt : Nat := 0
  days : Nat := 0
  hours : Nat := 0
  /-- Recorded frames of the last second: instant and bytes (RECORD_RATE). -/
  recent : List (Nat × Nat) := []
  /-- The staging key, the key in OTP and its lock (R345 to R347); the last two outlive a device reset. -/
  staging : List Byte := List.replicate 32 0
  otpKey : Option (List Byte) := none
  otpLock : Bool := false
  /-- The reserved image area as written, and where its next write must continue (Table 11.4). -/
  area : List Host.Cell := []
  areaNext : Option Nat := none
  deriving DecidableEq, Repr

/-! ### Safety (chapter 18) and pairing (chapter 16) -/

/-- The safety island and the fault log's order (R537 to R555). -/
structure Safety where
  safe : Bool := false
  scDone : Bool := false
  scPass : Bool := false
  testFail : Bool := false
  fttiMiss : Bool := false
  lifeAlarm : Bool := false
  /-- The watchdog: the fixed-cycle instant it was last serviced, and the period in ms then in force (R547). -/
  dog : Option (Nat × Nat) := none
  /-- Consecutive misses of each checker (R545). -/
  misses : Tab Nat := []
  /-- The half-period of the periodic tests last looked at: its start, its length, the checkers tested in it, each with its
  island, and the offset at which each is tested, at 25 · checker + island (R542). -/
  halfAt : Nat := 0
  halfLen : Nat := 12500000
  tested : List (Nat × Nat) := []
  offsets : Tab Nat := []
  /-- Rows of table 0x0E, oldest first (R555). -/
  logOrder : List Nat := []
  /-- The instant of a safe state whose cause was a handshake of the control island (R550). -/
  resetFrom : Option Nat := none
  deriving DecidableEq, Repr

/-- Droop of an island (chapter 17): detectors L and H tripped, or clear for less than 1 µs, and the island's stretched
ticks in the current window of 1 ms. -/
structure Droop where
  low : Bool := false
  high : Bool := false
  ticks : Nat := 0
  deriving DecidableEq, Repr

/-- What a copy of the non-volatile record holds (R524): LIFE_USED, POWER_CYCLES, every MON_SHIFT, and the thermal
accumulator. -/
structure NvRecord where
  life : Word := 0
  cycles : Word := 0
  shifts : List Word := []
  acc : Nat := 0
  deriving DecidableEq, Repr

/-- Power states, thermal sensing, the odometer and the non-volatile record (chapter 17). -/
structure Power where
  /-- DEPOT_SLEEP, the exit from it in progress, and the instant it was entered (R517 to R522). -/
  asleep : Bool := false
  waking : Bool := false
  /-- The instant of the wake event that WAKE_CAUSE records (R296). -/
  wakeAt : Nat := 0
  sleepAt : Nat := 0
  wakeN : Bool := false
  /-- The store was suspended at entry and resumes at exit (R517, R521). -/
  resume : Bool := false
  /-- Consecutive samples above 120 degrees, and TJ has been 3 degrees below TJ_ALARM since source 10 (R526, R527). -/
  hot : Nat := 0
  armed : Bool := true
  /-- The instant of the last sample (R525). -/
  sampleAt : Nat := 0
  /-- Sum and number of the samples of TJ in the present second (R528). -/
  tjSum : Int := 0
  tjCount : Nat := 0
  /-- The thermal accumulator in units of 2^-20 s; seconds and hours of powered time counted (R528, R529). -/
  acc : Nat := 0
  /-- Supplies have come on since: the accumulator has only the time since then, and what the record holds is added when
  the record is read (R524, R528). -/
  accLoad : Bool := false
  /-- The newer and the older copy of the non-volatile record (R524). -/
  nvNew : NvRecord := {}
  nvOld : NvRecord := {}
  seconds : Nat := 0
  hours : Nat := 0
  /-- The instant of the last timebase PLL lock, from which whole hours count (R524). -/
  lockedAt : Nat := 0
  /-- Both copies of the record failed: the reported values stay at 0xFFFFFF (R534). -/
  lost : Bool := false
  deriving DecidableEq, Repr

/-- A record of the mirror journal: a parameter item with its stored value, or a table row (R483, R484). -/
inductive JRecord where
  | param (id : Nat) (value : Word)
  | row (table inst row : Nat) (words : List Word)
  deriving DecidableEq, Repr

/-- A sequenced Ride frame not yet acknowledged: its first and last transmission and how often it was sent (R480). -/
structure RideOut where
  frame : RideFrame
  first : Nat
  last : Nat
  count : Nat
  deriving DecidableEq, Repr

/-- An epoch the standby is receiving (R488 to R490): its number, the length its header gives, the bank, the instant of
its first DATA frame, and the length and CRC of its COMMIT once that has come. -/
structure EpochIn where
  epoch : Nat
  len : Nat
  bank : Nat
  since : Nat
  commit : Option (Nat × Nat) := none
  deriving DecidableEq, Repr

/-- What waits in a receive buffer of the Ride link (R477, R487): a DATA frame, its epoch, its OFFSET, the instant it came
and its bytes; or the COMMIT of an epoch whose first DATA frame still waits, its IMAGE_LEN and IMAGE_CRC. -/
inductive RideBuf where
  | data (epoch off came : Nat) (bytes : List Byte)
  | commit (epoch len crc : Nat)
  deriving DecidableEq, Repr

/-- The epoch a waiting frame belongs to. -/
def RideBuf.epoch : RideBuf → Nat
  | .data e _ _ _ => e
  | .commit e _ _ => e

/-- An epoch image staged on the active for channel 6 (R486): its number, its FLAGS, the scratch way and its length. -/
structure EpochOut where
  epoch : Nat
  flags : Nat
  way : Nat
  len : Nat
  deriving DecidableEq, Repr

/-- The pairing island (chapter 16). -/
structure Pair where
  alarm : Bool := false
  /-- Role code of Table 3.5. -/
  role : Nat := 0
  /-- OP 1 has started the Ride link; block lock has held; HELLO has been received in this session (R475, R481). -/
  started : Bool := false
  link : Bool := false
  hello : Bool := false
  /-- SEQ of the next new frame, ACK, credits granted, and the partner's latest CREDIT (R475 to R478). -/
  seq : Nat := 0
  ack : Nat := 0
  credit : Nat := 0
  partnerCredit : Nat := 0
  unacked : List RideOut := []
  /-- Sequenced frames waiting for a credit: TYPE, EPOCH and payload. -/
  waiting : List (Nat × Nat × List Byte) := []
  /-- A NAK has been sent for the gap now open (R478). -/
  naked : Bool := false
  /-- Frames in the receive buffers, oldest first. -/
  buffers : List RideBuf := []
  /-- Frames sent on the Ride lane, oldest first. -/
  sent : List RideFrame := []
  /-- The partner's UID and START_ACTIVE as HELLO gave them, and ROLE and PRIORITY of its last frame. -/
  uid : Nat := 0
  partnerStart : Bool := false
  partnerRole : Nat := 0
  partnerPrio : Nat := 0
  /-- The partner has sent LEAVE (R503). -/
  left : Bool := false
  /-- HEARTBEAT and BEACON of M_PAIR_STAT, the instants of the last ones, and T_TX and arrival time of the last
  HEARTBEAT in 2^-16 ns (R492, R495, R497). -/
  heartbeat : Bool := false
  heartAt : Nat := 0
  heartTx : Nat := 0
  heartRx : Nat := 0
  beacon : Bool := false
  beaconAt : Nat := 0
  /-- When this unit last sent a HELLO, a HEARTBEAT and the beacon of each port; the beacons of each port
  counted since reset. -/
  helloSent : Nat := 0
  heartSent : Nat := 0
  beaconSent : Tab Nat := []
  beacons : Tab Nat := []
  /-- The witness window has been open since this instant; when the present role was entered (R498). -/
  witness : Option Nat := none
  roleAt : Nat := 0
  /-- The last epoch sent or committed, the last boundary, and the last committed bank (R483, R489). -/
  epoch : Nat := 0
  boundaryAt : Nat := 0
  bank : Nat := 0
  /-- On the active: it mirrors; the writes journalled since the last image; the items of a sync still to send; a sync is
  asked for; the images staged; the epoch that carried SYNC_END (R484 to R491). -/
  mirroring : Bool := false
  journal : List JRecord := []
  syncLeft : Option (List JRecord) := none
  resyncAsked : Bool := false
  out : List EpochOut := []
  syncEnd : Option Nat := none
  /-- The sync is complete: on the standby its own, on the active its partner's as acknowledged. -/
  synced : Bool := false
  /-- The active has asked for a switchover that waits for the final image to be committed (R502). -/
  switchAsked : Bool := false
  /-- On the standby: the epoch in progress, RESYNC in its frames, the committed image. -/
  inEpoch : Option EpochIn := none
  resync : Bool := false
  image : List Byte := []
  /-- Planned switchover (R502): 1 after OP 2, 2 with the request sent, at this instant. -/
  switching : Nat := 0
  switchAt : Nat := 0
  deriving DecidableEq, Repr

/-- Power-up and start-up (chapter 19). The reset state is right after RESET_N release. -/
structure Start where
  /-- Supplies within range (VDD_AON and VDDIO_GEN), and RESET_N low. -/
  powered : Bool := true
  resetLow : Bool := false
  /-- A command or safety reset holds the device in reset since this instant (R568). -/
  internal : Option Nat := none
  /-- The instant of the RESET_N release or internal release the timeline counts from. -/
  releasedAt : Nat := 0
  /-- The PLL did not lock within 5 ms (R578). -/
  pllFailed : Bool := false
  memInit : Bool := false
  checked : Bool := false
  ready : Bool := false
  readyAt : Nat := 0
  /-- The start-up window has not closed: tenants are held, but for those released early (R571, R572). -/
  window : Bool := true
  early : BitVec 4 := 0
  /-- FAULT_N is low, as kept through a command or safety reset (R551, R569). -/
  faultN : Bool := true
  deriving DecidableEq, Repr

/-! ### The machine -/

/-- The whole block. -/
structure State where
  /-- Commands waiting, first in first out. -/
  pending : List Instr := []
  /-- Instants in timebase ticks of 2 ns since the last power-on (assumption 2). -/
  clk : Nat := 0
  /-- The model's own: how many free values have been drawn (assumption 5). -/
  free : Nat := 0
  bus : Bus := {}
  wins : Tab Win := []
  mgmt : Mgmt := {}
  image : Image := {}
  /-- Parameters that differ from reset, by ID; table rows that differ from zero, by table, instance and row. -/
  params : Tab Word := []
  tables : Tab (List Word) := []
  locks : Tab Lock := []
  tenants : Tab Tenant := []
  links : Tab Link := []
  frames : Tab GFrame := []
  nextFrame : Nat := 0
  ports : Tab Port := []
  lanes : Tab Lane := []
  mdio : Tab Mdio := []
  thicket : Thicket := {}
  time : Time := {}
  perf : Perf := {}
  chans : Tab Chan := []
  lastChan : Nat := 15
  canopy : Canopy := {}
  scratch : List Host.Cell := []
  /-- Units whose FENCE bit has been 1 since the last device reset (R21 to R23); FENCE_SELF is parameter 0xA00001. -/
  fences : Nat := 0
  store : Store := {}
  safety : Safety := {}
  pair : Pair := {}
  power : Power := {}
  start : Start := {}
  droop : Tab Droop := []
  /-- A TAP instruction other than BYPASS is loaded (R585), and the boundary-scan register. -/
  tap : Bool := false
  bsr : List Bool := []
  deriving DecidableEq, Repr

/-- Why a command stops. -/
inductive Fault where
  /-- Raised by every command but the resets and the TAP while a TAP instruction other than BYPASS is loaded: the
  functional behaviour is undefined until the next device reset (R585). Safe. -/
  | boundaryScan
  deriving DecidableEq, Repr

/-- Why a command has no meaning. -/
inductive Refusal where
  /-- Raised by exec's arm of a command the model has not reached. Safe. -/
  | notModelled (mnemonic : String)
  deriving DecidableEq, Repr

/-- The block right after RESET_N is released (assumption 1): every field at its default. -/
def State.reset : State := {}

end Sys2Proof.Machine
end

