-- ==== Sys2Proof/Machine/Ops.lean ====
section
/-! DEFINITION. The named operations over the sparse families of State: reading and updating a window, tenant, link,
ring, port, channel, parameter or table row; drawing a free value; the memory cells; and the form of a meaning. -/

set_option Elab.async false

namespace Sys2Proof.Machine

/-- The value a sparse family holds at k: d where nothing is listed. -/
def tget {α : Type} (t : Tab α) (k : Nat) (d : α) : α :=
  match t with
  | [] => d
  | (a, v) :: rest => if a = k then v else tget rest k d

/-- A sparse family with v at k, kept in rising order of number. -/
def tput {α : Type} (t : Tab α) (k : Nat) (v : α) : Tab α :=
  match t with
  | [] => [(k, v)]
  | (a, w) :: rest =>
    if a = k then (k, v) :: rest
    else if k < a then (k, v) :: (a, w) :: rest
    else (a, w) :: tput rest k v

/-- A sparse family with f applied at k. -/
def tmod {α : Type} (t : Tab α) (k : Nat) (d : α) (f : α → α) : Tab α := tput t k (f (tget t k d))

/-- A list with element i replaced. -/
def setAt {α : Type} : List α → Nat → α → List α
  | [], _, _ => []
  | _ :: xs, 0, v => v :: xs
  | x :: xs, i + 1, v => x :: setAt xs i v

/-! ### Memory cells of the scratch ways and the store's image area -/

/-- One byte of a memory whose unlisted addresses read d. -/
def cellRead (d : Byte) (m : List Host.Cell) (a : Nat) : Byte := tget m a d

/-- A memory without an entry at a. -/
def cellDrop (m : List Host.Cell) (a : Nat) : List Host.Cell :=
  match m with
  | [] => []
  | (b, v) :: rest => if b = a then rest else (b, v) :: cellDrop rest a

/-- Write one byte, keeping the canonical form: no entry equals what an unlisted address reads as. -/
def cellWrite (d : Byte) (m : List Host.Cell) (a : Nat) (v : Byte) : List Host.Cell :=
  if v = d then cellDrop m a else tput m a v

/-- Read n bytes from a. -/
def cellsRead (d : Byte) (m : List Host.Cell) (a : Nat) : Nat → List Byte
  | 0 => []
  | n + 1 => cellRead d m a :: cellsRead d m (a + 1) n

/-- Write bytes from a. -/
def cellsWrite (d : Byte) (m : List Host.Cell) (a : Nat) : List Byte → List Host.Cell
  | [] => m
  | v :: vs => cellsWrite d (cellWrite d m a v) (a + 1) vs

/-- The addresses of a memory rise strictly from above a bound. -/
def risesFrom (lo : Nat) : List Host.Cell → Bool
  | [] => true
  | (a, _) :: rest => decide (lo ≤ a) && risesFrom (a + 1) rest

/-- The canonical form: addresses strictly rising, no entry equal to the unlisted value. -/
def Memory.wf (d : Byte) (m : List Host.Cell) : Bool := risesFrom 0 m && m.all (fun c => c.2 != d)

/-! ### The form of a meaning -/

/-- A command acts while no TAP instruction other than BYPASS is loaded (R585). -/
def live (f : State → State) (s : State) : Host.Outcome State Fault Refusal :=
  if s.tap then .fault .boundaryScan else .next (f s)

/-- f applied when a condition holds; otherwise nothing happens. -/
def onlyIf (c : Bool) (f : State → State) (s : State) : State := if c then f s else s

/-- Unit u of Table 1.7 is fenced: by FENCE since the last device reset, or by FENCE_SELF (R20, R21, R23). -/
def fenced (s : State) (u : Nat) : Bool := bitOf s.fences u || bitOf (tget s.params 0xA00001 0).toNat u

/-- Pairing is unavailable: it needs the pairing, Canopy and transfer islands (Tables 1.6 and 1.8). -/
def pairingLost (s : State) : Bool := fenced s 18 || fenced s 19 || fenced s 20

/-- Frame service is lost: Glade bank 0, the Thicket or every port quad is fenced (FENCE_LOST, Table 1.8). -/
def frameLost (s : State) : Bool := fenced s 8 || fenced s 16 || (List.range 8).all (fenced s)

/-- The frame path serves: Glade bank 0 and the Thicket are in service (Table 1.8), the role is SOLO or ACTIVE with no
switchover in progress (R472, R502), and the device is neither asleep nor in the safe state (R517, R549). -/
def frameService (s : State) : Bool :=
  !fenced s 8 && !fenced s 16 && decide (s.pair.role ≤ 1) && decide (s.pair.switching = 0) && !s.power.asleep
    && !s.safety.safe && s.start.ready

/-! ### Free values -/

/-- Advance the free-value counter past the value just drawn. -/
def drawn (s : State) : State := { s with free := s.free + 1 }

/-- The free number of this state. -/
def freeNat (s : State) : Nat := Config.freeNat s.free

/-- n free bytes of this state. -/
def freeBytes (s : State) (n : Nat) : List Byte := (List.range n).map (Config.freeByte s.free)

/-! ### Windows, tenants, links, rings, ports, channels -/

/-- Window w: 0 is M, 1 to 4 are T0 to T3. -/
def win (s : State) (w : Nat) : Win := tget s.wins w {}

/-- s with window w changed. -/
def modWin (w : Nat) (f : Win → Win) (s : State) : State := { s with wins := tmod s.wins w {} f }

/-- Tenant t. -/
def ten (s : State) (t : Nat) : Tenant := tget s.tenants t {}

/-- s with tenant t changed. -/
def modTen (t : Nat) (f : Tenant → Tenant) (s : State) : State := { s with tenants := tmod s.tenants t {} f }

/-- Host link t. -/
def link (s : State) (t : Nat) : Link := tget s.links t {}

/-- s with host link t changed. -/
def modLink (t : Nat) (f : Link → Link) (s : State) : State := { s with links := tmod s.links t {} f }

/-- Ring r of tenant t: 0 to 67 TX, 68 to 131 RX (Table 4.9). -/
def ring (s : State) (t r : Nat) : Ring := tget (ten s t).rings r {}

/-- s with ring r of tenant t changed. -/
def modRing (t r : Nat) (f : Ring → Ring) (s : State) : State :=
  modTen t (fun x => { x with rings := tmod x.rings r {} f }) s

/-- Port p. -/
def port (s : State) (p : Nat) : Port := tget s.ports p {}

/-- s with port p changed. -/
def modPort (p : Nat) (f : Port → Port) (s : State) : State := { s with ports := tmod s.ports p {} f }

/-- Lane q. -/
def lane (s : State) (q : Nat) : Lane := tget s.lanes q {}

/-- s with lane q changed. -/
def modLane (q : Nat) (f : Lane → Lane) (s : State) : State := { s with lanes := tmod s.lanes q {} f }

/-- Transfer channel c. -/
def chan (s : State) (c : Nat) : Chan := tget s.chans c {}

/-- s with channel c changed. -/
def modChan (c : Nat) (f : Chan → Chan) (s : State) : State := { s with chans := tmod s.chans c {} f }

/-- Lock k. -/
def lock (s : State) (k : Nat) : Lock := tget s.locks k {}

/-- s with lock k changed. -/
def modLock (k : Nat) (f : Lock → Lock) (s : State) : State := { s with locks := tmod s.locks k {} f }

/-- Apply an operation for every number below n, in rising order. -/
def forAll (n : Nat) (f : Nat → State → State) (s : State) : State :=
  (List.range n).foldl (fun s i => f i s) s

/-- Apply an operation for every element of a list, in order. -/
def forEach {α : Type} (l : List α) (f : α → State → State) (s : State) : State := l.foldl (fun s x => f x s) s

/-! ### Table rows, stored by table, instance and row -/

/-- The key of a row. -/
def rowKey (table inst row : Nat) : Nat := (table * 256 + inst) * 65536 + row

/-- The words of a row as stored; a row nothing has written is zero. -/
def rowAt (s : State) (table inst row : Nat) : List Word := tget s.tables (rowKey table inst row) []

/-- Word i of a row. -/
def rowWord (s : State) (table inst row i : Nat) : Nat := ((rowAt s table inst row).getD i 0).toNat

/-- A row of n words with word i replaced. -/
def rowSet (ws : List Word) (n i : Nat) (v : Word) : List Word :=
  setAt (ws ++ List.replicate (n - ws.length) 0) i v

/-- s with a row stored. -/
def putRow (table inst row : Nat) (ws : List Word) (s : State) : State :=
  { s with tables := tput s.tables (rowKey table inst row) ws }

/-- s with one word of a row of n words stored. -/
def putRowWord (table inst row n i : Nat) (v : Nat) (s : State) : State :=
  putRow table inst row (rowSet (rowAt s table inst row) n i (word v)) s

/-- Every row of one table and instance is zero again. -/
def clearTable (table inst : Nat) (s : State) : State :=
  { s with tables := s.tables.filter (fun e => e.1 / 65536 != table * 256 + inst) }

/-! ### Time units: the clock runs in timebase ticks of 2 ns -/

/-- Ticks of n µs. -/
def us (n : Nat) : Nat := 500 * n

/-- Ticks of n ms. -/
def ms (n : Nat) : Nat := 500000 * n

end Sys2Proof.Machine
end

