-- ==== Sys2Proof/Machine/Catalogue.lean ====
section
/-! DEFINITION. The parameter catalogue (Tables 2.7 and 4.4 to 4.8, R21, R25, R104, R116) and the table catalogue
(Table 4.9, R121), with the tenant rights of Table 4.10. -/

set_option Elab.async false

namespace Sys2Proof.Machine

/-- How a written value is fitted to its range (R107): implemented bits only, a number clamped to a range, a signed
number of so many bits clamped to a range, or an enumeration whose codes end at a limit. -/
inductive Fit where
  | mask (m : Nat)
  | num (m lo hi : Nat)
  | sint (n : Nat) (lo hi : Int)
  | code (top : Nat)
  deriving DecidableEq, Repr

/-- A parameter family member: its anchor item, the number of its words, whether software may write it, its reset value
as a whole, and its fit. -/
structure Param where
  anchor : Nat
  words : Nat
  rw : Bool
  reset : Nat
  fit : Fit
  deriving DecidableEq, Repr

/-- A read-only parameter with the bits it implements. -/
def roParam (anchor words reset m : Nat) : Option Param := some ⟨anchor, words, false, reset, .mask m⟩

/-- A writable parameter. -/
def rwParam (anchor words reset : Nat) (f : Fit) : Option Param := some ⟨anchor, words, true, reset, f⟩

/-- All ones of n bits. -/
def allOnes (n : Nat) : Nat := 2 ^ n - 1

/-- Block 0x01, device (Table 4.4). -/
def paramDevice (item id : Nat) : Option Param :=
  if item ≤ 1 then roParam 0x010000 2 0 (allOnes 48)
  else if item = 2 then roParam id 1 0 3
  else if item = 5 then roParam id 1 0xFFFFFF (allOnes 24)
  else if item ≤ 6 then roParam id 1 0 (allOnes 24) else none

/-- Block 0x02, control bus (Table 2.7). -/
def paramBus (m item id : Nat) : Option Param :=
  if item = 0xF0 ∧ m = 0 then rwParam id 1 0 (.mask 1)
  else if m > 4 then none
  else if item = 0 then rwParam id 1 0x14 (.num 0xFF 1 255)
  else if item = 1 then rwParam id 1 1 (.mask 1)
  else if item ≤ 3 then rwParam id 1 0 (.mask 0xFFFFFF)
  else if item = 4 then roParam id 1 0 0xC001FF else none

/-- Block 0x03, tenancy (Table 4.4). The ignored bits 5:0 of FAULT_RING_BASE are stored, and so read, as 0 (DESIGN CHOICE,
log entry 51: the spec does not say how they read). -/
def paramTenancy (t item id : Nat) : Option Param :=
  let b := 0x030000 + 256 * t
  if t > 3 then none
  else if item = 0 then rwParam id 1 0x2000 (.num 0xFFFFFF 0 49152)
  else if item = 1 then roParam id 1 0 (allOnes 24)
  else if item = 2 then rwParam id 1 0 (.mask 0xFFFFFF)
  else if item ≤ 5 then rwParam (b + 3) 3 0 (.mask (allOnes 64 - 63))
  else if item = 6 then rwParam id 1 3 (.num 0xFFFFFF 3 12)
  else if item = 7 then rwParam id 1 0x2710 (.num 0xFFFFFF 50 50000)
  else if item = 8 then rwParam id 1 0xC350 (.mask 0xFFFFFF)
  else if item ≤ 0x0A then rwParam (b + 9) 2 0xFFFFFFFF (.mask 0xFFFFFFFF)
  else if item = 0x0B then rwParam id 1 0x4000 (.num 0xFFFFFF 9232 16777215)
  else if 0x20 ≤ item ∧ item ≤ 0x3F then rwParam id 1 0 (.num 0xFFFFFF 0 10000)
  else none

/-- Block 0x10, ports (Table 4.5). -/
def paramPort (p item id : Nat) : Option Param :=
  let b := 0x100000 + 256 * p
  if p > 31 then none
  else if item = 0 then rwParam id 1 0 (.mask 7)
  else if item = 1 then rwParam id 1 0 (.code 5)
  else if item = 2 then roParam id 1 0 0x1F
  else if item = 3 then rwParam id 1 0x5F2 (.num 0xFFFFFF 64 9232)
  else if item = 4 then rwParam id 1 0 (.mask 0xFF03)
  else if item = 5 then rwParam id 1 0x100 (.num 0xFFFFFF 1 49152)
  else if item = 6 then rwParam id 1 0x80 (.mask 0xFFFFFF)
  else if item = 7 then rwParam id 1 0 (.mask 0x3FF01)
  else if item = 8 then rwParam id 1 1 (.mask 0x1FFF)
  else if item ≤ 0x0A then rwParam (b + 9) 2 0 (.mask (allOnes 48))
  else if item ≤ 0x0C then rwParam id 1 0 (.mask 0xFFFFFF)
  else if item = 0x0D then rwParam id 1 0 (.mask 0x7F) else none

/-- Block 0x11, lanes (Table 4.5). -/
def paramLane (q item id : Nat) : Option Param :=
  if q > 7 then none
  else if item = 0 then rwParam id 1 0 (.code 6)
  else if item = 1 then rwParam id 1 1 (.mask 1)
  else if item = 2 then rwParam id 1 0x3000 (.mask 0x3F3F3F)
  else if item = 3 then roParam id 1 0 (allOnes 24)
  else if item = 4 then roParam id 1 0 3
  else if item = 5 then rwParam id 1 0 (.mask 3) else none

/-- Block 0x12, MDIO masters (Table 4.5). -/
def paramMdio (k item id : Nat) : Option Param :=
  if k > 1 then none
  else if item = 0 then rwParam id 1 0x9C4 (.num 0xFFFFFF 100 12500)
  else if item = 1 then rwParam id 1 0 (.mask 1)
  else if item = 2 then roParam id 1 0 3 else none

/-- Blocks 0x20 to 0x22: Thicket, relay and wake (Table 4.6). -/
def paramThicket (block item id : Nat) : Option Param :=
  if block = 0x20 then
    if item = 0 then rwParam id 1 0 (.mask 0x77)
    else if item ≤ 3 then rwParam 0x200001 3 0 (.mask (allOnes 64))
    else if item = 4 then rwParam id 1 10 (.num 0xFFFFFF 10 20)
    else if item = 5 then rwParam id 1 0 (.mask 0x8003FF)
    else if item = 6 then rwParam id 1 0 (.mask 0xFFFFFF)
    else if item = 7 then roParam id 1 0 1 else none
  else if block = 0x21 then
    if item = 0 then rwParam id 1 0 (.mask 1)
    else if item = 1 then rwParam id 1 0 (.mask 0xFFFFFF)
    else if item = 2 then rwParam id 1 1 (.mask 1) else none
  else
    if item = 0 then rwParam id 1 0 (.mask 0xF)
    else if item ≤ 2 then rwParam 0x220001 2 0 (.mask 0xFFFFFFFF)
    else if item = 3 then roParam id 1 0 0x1FF else none

/-- Block 0x30, time (Table 4.6). -/
def paramTime (item id : Nat) : Option Param :=
  if item ≤ 1 then rwParam 0x300000 2 0 (.sint 48 (-65536000000) 65536000000)
  else if item = 2 then rwParam id 1 0 (.sint 24 (-8388607) 8388607)
  else if item = 3 then rwParam id 1 0 (.mask 0xFFFF01)
  else if item = 4 then rwParam id 1 0 (.mask 3)
  else if item = 5 then rwParam id 1 0 (.mask 0xF)
  else if item ≤ 7 then rwParam 0x300006 2 0 (.mask (allOnes 48))
  else if item = 8 then rwParam id 1 0 (.mask 0x1D) else none

/-- Block 0x31, gates (Table 4.6). -/
def paramGate (p item id : Nat) : Option Param :=
  let b := 0x310000 + 256 * p
  if p > 31 then none
  else if item = 0 then rwParam id 1 0 (.mask 3)
  else if item = 1 then rwParam id 1 1 (.num 0xFFFFFF 1 256)
  else if item ≤ 3 then rwParam (b + 2) 2 0x0F4240 (.num (allOnes 48) 1000 (allOnes 48))
  else if item ≤ 5 then rwParam (b + 4) 2 0 (.mask (allOnes 48))
  else if item ≤ 7 then rwParam (b + 6) 2 0 (.code 999999999) else none

/-- Blocks 0x40 to 0x42: store, medium and Coppice (Table 4.7). -/
def paramStore (block item id : Nat) : Option Param :=
  if block = 0x40 then
    if item = 0 then rwParam id 1 0 (.mask 1)
    else if item = 1 then rwParam id 1 0x32 (.num 0xFFFFFF 1 90)
    else if item = 2 then rwParam id 1 0x64 (.num 0xFFFFFF 5 10000)
    else if item ≤ 4 then roParam id 1 0 (allOnes 24) else none
  else if block = 0x41 then
    if item = 0 then rwParam id 1 0 (.mask 0xF3)
    else if item = 1 then roParam id 1 0 0x3F
    else if item ≤ 4 then roParam id 1 0 (allOnes 24)
    else if item = 5 then rwParam id 1 0xBB8 (.num 0xFFFFFF 1 16777215)
    else if item = 6 then rwParam id 1 0x3C (.num 0xFFFFFF 1 86400)
    else if item ≤ 9 then roParam id 1 0 (allOnes 24) else none
  else
    if item = 0 then rwParam id 1 0x28 (.num 0xFFFFFF 1 72)
    else if item = 1 then rwParam id 1 0x16D (.num 0xFFFFFF 1 3650)
    else if item = 2 then roParam id 1 0 3
    else if item = 3 then rwParam id 1 0 (.mask 0xFFFFFF) else none

/-- Blocks 0x50, 0x51, 0x60 and 0x61: transfer, Canopy, interrupts and counters (Table 4.7). -/
def paramEngine (block i item id : Nat) : Option Param :=
  if block = 0x50 then
    if item = 0 ∧ i = 0 then rwParam id 1 0 (.mask 0xFFF)
    else if item = 1 ∧ i ≤ 15 then rwParam id 1 0 (.num 0xFFFFFF 0 3) else none
  else if block = 0x51 then
    if i ≠ 0 then none
    else if item = 0 then rwParam id 1 0 (.num 0xFFFFFF 0 8)
    else if item = 1 then roParam id 1 0 0xFFF
    else if item = 2 then rwParam id 1 1 (.mask 1) else none
  else if block = 0x60 then
    if i ≤ 4 ∧ item = 0 then rwParam id 1 0 (.num 0xFFFFFF 0 1000) else none
  else
    if i ≠ 0 then none
    else if item ≤ 7 then rwParam id 1 0 (.mask 0xFFFFFF)
    else if item ≤ 9 then rwParam 0x610008 2 500000000 (.num (allOnes 48) 1000 (allOnes 48))
    else if item = 0x0A then rwParam id 1 0 (.mask 0x3F)
    else if item ≤ 0x0C then roParam 0x61000B 2 0 (allOnes 48) else none

/-- Block 0x70, pairing (Table 4.8). -/
def paramPair (item id : Nat) : Option Param :=
  if item = 0 then rwParam id 1 0 (.mask 3)
  else if item = 1 then rwParam id 1 0 (.num 0xFFFFFF 0 255)
  else if item = 2 then rwParam id 1 0 (.mask 0xFFFFFF)
  else if item = 3 then rwParam id 1 0xBB8 (.num 0xFFFFFF 1000 100000)
  else if item ≤ 5 then rwParam id 1 0 (.mask 0xFFFFFF) else none

/-- Blocks 0x80, 0x81, 0x90 and 0xA0: power, aging, safety and fences (Table 4.8, R21, R25). -/
def paramSafety (block i item id : Nat) : Option Param :=
  if block = 0x80 then
    if i = 0xFF then
      if item = 0 then roParam id 1 0 (allOnes 24)
      else if item = 1 then rwParam id 1 0x69 (.sint 24 (-40) 110)
      else if item = 2 then rwParam id 1 0 (.mask 0xFF) else none
    else if i ≤ 24 ∧ i ≠ 1 then
      if item = 0 then rwParam id 1 4 (.num 0xFFFFFF 2 8)
      else if item = 1 then rwParam id 1 0x32 (.num 0xFFFFFF 0 1000)
      else if item = 2 then rwParam id 1 0 (.mask 0xFFFFFF) else none
    else none
  else if block = 0x81 then
    if item = 2 ∧ i ≤ 11 then roParam id 1 0 (allOnes 24)
    else if i ≠ 0 then none
    else if item = 0 then roParam id 1 0 (allOnes 24)
    else if item = 1 then rwParam id 1 0x1F40 (.num 0xFFFFFF 0 10000) else none
  else if i ≠ 0 then none
  else if block = 0x90 then
    if item = 0 then rwParam id 1 0x32 (.num 0xFFFFFF 5 1000)
    else if item ≤ 2 then roParam 0x900001 2 0 (allOnes 48)
    else if item = 3 then rwParam id 1 0x64 (.num 0xFFFFFF 1 1000) else none
  else
    if item = 0 then rwParam id 1 0 (.mask 0x1FFFFF)
    else if item = 1 then roParam id 1 0 0x1FFFFF
    else if item = 2 then roParam id 1 0 0x3FF else none

/-- The parameter an ID names, if any (R104, R116). -/
def paramInfo (id : Nat) : Option Param :=
  let block := bits id 16 8
  let i := bits id 8 8
  let item := bits id 0 8
  if id ≥ 2 ^ 24 then none
  else if block = 0x02 then paramBus i item id
  else if block = 0x03 then paramTenancy i item id
  else if block = 0x04 then (if i ≤ 15 ∧ item = 0 then roParam id 1 0 0x1F else none)
  else if block = 0x10 then paramPort i item id
  else if block = 0x11 then paramLane i item id
  else if block = 0x12 then paramMdio i item id
  else if block = 0x31 then paramGate i item id
  else if block = 0x50 ∨ block = 0x51 ∨ block = 0x60 ∨ block = 0x61 then paramEngine block i item id
  else if block = 0x80 ∨ block = 0x81 ∨ block = 0x90 ∨ block = 0xA0 then paramSafety block i item id
  else if i ≠ 0 then none
  else if block = 0x01 then paramDevice item id
  else if block = 0x20 ∨ block = 0x21 ∨ block = 0x22 then paramThicket block item id
  else if block = 0x30 then paramTime item id
  else if block = 0x40 ∨ block = 0x41 ∨ block = 0x42 then paramStore block item id
  else if block = 0x70 then paramPair item id
  else none

/-- The bits a parameter implements, as a whole value; the others are reserved and read 0 (R3). GATE_CTL also reads its
bit 2. -/
def implemented (p : Param) : Nat :=
  if bits p.anchor 16 8 = 0x31 ∧ bits p.anchor 0 8 = 0 then 7
  else match p.fit with
    | .mask m => m
    | .num m _ _ => m
    | .sint n _ _ => allOnes n
    | .code _ => allOnes (24 * p.words)

/-- A word as an item can return it: reserved bits are 0 (R3). -/
def itemWord (id v : Nat) : Word :=
  match paramInfo id with
  | none => 0
  | some p => word (v &&& (wordOf (implemented p) (id - p.anchor)).toNat)

/-- The reset word of an item. -/
def paramReset (id : Nat) : Word :=
  match paramInfo id with
  | none => 0
  | some p => wordOf p.reset (id - p.anchor)

/-- The stored word of a parameter item. -/
def pw (s : State) (id : Nat) : Word := tget s.params id (paramReset id)

/-- The stored word as a number. -/
def pn (s : State) (id : Nat) : Nat := (pw s id).toNat

/-- The stored whole value of n items from an anchor. -/
def pwide (s : State) (anchor n : Nat) : Nat :=
  ofWords ((List.range n).map fun k => pw s (anchor + k))

/-- s with a parameter word stored. -/
def setPw (id : Nat) (v : Nat) (s : State) : State := { s with params := tput s.params id (word v) }

/-- s with a whole value of n items stored from an anchor. -/
def setWide (anchor n v : Nat) (s : State) : State :=
  (List.range n).foldl (fun s k => setPw (anchor + k) (v >>> (24 * k)) s) s

/-- Add to a 24-bit parameter counter, which sticks at 0xFFFFFF (Table 15.4). -/
def bumpParam (id n : Nat) (s : State) : State := setPw id (stick 24 (pn s id) n) s

/-- A table of Table 4.9: its instances, its rows and its row length in words. -/
structure Table where
  insts : Nat
  rows : Nat
  words : Nat
  deriving DecidableEq, Repr

/-- The table an ID names (R121); the rows of table 0x0F are the blocks of the medium. -/
def tableInfo (id blocks : Nat) : Option Table :=
  match id with
  | 0x01 => some ⟨4, 132, 6⟩
  | 0x02 => some ⟨32, 33, 3⟩
  | 0x03 => some ⟨32, 171, 1⟩
  | 0x04 => some ⟨1, 2048, 32⟩
  | 0x05 => some ⟨1, 256, 4⟩
  | 0x06 => some ⟨32, 512, 2⟩
  | 0x07 => some ⟨32, 8, 50⟩
  | 0x08 => some ⟨1, 64, 12⟩
  | 0x09 => some ⟨1, 16, 16⟩
  | 0x0A => some ⟨1, 32, 49⟩
  | 0x0B => some ⟨4, 132, 9⟩
  | 0x0C => some ⟨5, 63, 1⟩
  | 0x0D => some ⟨4, 8, 8⟩
  | 0x0E => some ⟨1, 32, 4⟩
  | 0x0F => some ⟨1, blocks, 2⟩
  | _ => none

/-- A tenant window may read a parameter (R118, R119, Table 4.10). -/
def tenantReads (t id : Nat) : Bool :=
  let block := bits id 16 8
  let i := bits id 8 8
  let item := bits id 0 8
  block == 0x01 || block == 0x04 || block == 0x10 || block == 0x11 || block == 0x30 || block == 0x31
    || (block == 0x02 && i == t + 1 && 2 ≤ item && item ≤ 4)
    || (block == 0x03 && i == t) || (block == 0x60 && i == t + 1)

/-- A tenant window may write a parameter: R118, and the time tenant's rights of R120. -/
def tenantWrites (s : State) (t id : Nat) : Bool :=
  let block := bits id 16 8
  let i := bits id 8 8
  let item := bits id 0 8
  let ts := pn s 0x300008
  (block == 0x03 && i == t && 2 ≤ item && item ≤ 8) || (block == 0x60 && i == t + 1)
    || (bitOf ts 4 && bits ts 2 2 == t
        && (id == 0x300000 || id == 0x300001 || id == 0x300002 || id == 0x300006 || id == 0x300007))

/-- A tenant window may read a table; its instance is then its own (R119, Table 4.10). -/
def tenantReadsTable (table : Nat) : Bool :=
  table == 0x01 || table == 0x0A || table == 0x0B || table == 0x0C || table == 0x0D

/-- A tenant window may write a table (Table 4.10). -/
def tenantWritesTable (table : Nat) : Bool :=
  table == 0x01 || table == 0x0B || table == 0x0C || table == 0x0D

end Sys2Proof.Machine
end

