-- ==== Sys2Proof/Machine/Irq.lean ====
section
/-! DEFINITION. Interrupt controllers (chapter 15): raising, conditions, claim, completion and presentation; the
programmable counters; M_FAULT with its detail (R86) and the fault log (R554, R555). -/

set_option Elab.async false

namespace Sys2Proof.Machine

/-- The row word of source n of window w. -/
def srcRow (s : State) (w n : Nat) : Nat := rowWord s 0x0C w n 0

/-- s with the row word of a source stored. -/
def putSrc (w n v : Nat) (s : State) : State := putRow 0x0C w n [word v] s

/-- A raise of an enabled source sets PEND and counts; a disabled source is unchanged (R449). -/
def raise (w n : Nat) (s : State) : State :=
  let r := srcRow s w n
  if bitOf r 23 then
    if bits r 0 4 < 15 then putSrc w n (putBits (putBits r 0 4 (bits r 0 4 + 1)) 6 1 1) s
    else putSrc w n (putBits (putBits r 5 1 1) 6 1 1) s
  else s

/-- A raise in every tenant window. -/
def raiseTenants (n : Nat) (s : State) : State := forAll 4 (fun t s => raise (t + 1) n s) s

/-- Any SAT bit of the rows of a statistics table instance is 1; SAT is the last of len words. -/
def anySat (s : State) (table inst rows len : Nat) : Bool :=
  (List.range rows).any fun r => rowWord s table inst r (len - 1) != 0

/-- The condition of a source (Tables 15.2 and 15.3); false for a source without one. -/
def cond (s : State) (w n : Nat) : Bool :=
  if w = 0 then
    if n = 1 then s.mgmt.fault != 0
    else if n = 2 then s.safety.testFail || s.safety.fttiMiss || s.safety.lifeAlarm
    else if 3 ≤ n ∧ n ≤ 6 then (ten s (n - 3)).fault != 0
    else if n = 9 then s.pair.alarm
    else if n = 10 then decide (toInt 24 (pn s 0x80FF00) ≥ toInt 24 (pn s 0x80FF01))
    else if n = 33 then anySat s 0x0A 0 32 49
    else false
  else
    if n = 1 then (ten s (w - 1)).fault != 0
    else if n = 4 then (ten s (w - 1)).fault.getLsbD 1
    else if n = 50 then anySat s 0x0B (w - 1) 132 9
    else false

/-- Sources 1 to 62. -/
def sources : List Nat := (List.range 62).map (· + 1)

/-- Some enabled source is pending and no source is active (R456). -/
def presentable (s : State) (w : Nat) : Bool :=
  (sources.any fun n => bitOf (srcRow s w n) 23 && bitOf (srcRow s w n) 6)
    && !(sources.any fun n => bitOf (srcRow s w n) 7)

/-- A presentation ends as soon as its condition no longer holds (R457). -/
def settle (w : Nat) (s : State) : State :=
  if (win s w).presenting && !presentable s w then modWin w (fun x => { x with presenting := false }) s else s

/-- The source a claim selects (R452). -/
def claimable (s : State) (w : Nat) : Option Nat :=
  sources.find? fun n => bitOf (srcRow s w n) 23 && bitOf (srcRow s w n) 6 && !bitOf (srcRow s w n) 7

/-- The value a claim through the paths of a mask returns: SOURCE and COUNT; else 63 where the window has presented since
the last claim through one of them, so that a claim through the other path is seen; else 0 (R452, R453). -/
def claimValue (s : State) (w : Nat) (paths : BitVec 2) : Nat :=
  match claimable s w with
  | some n => bits (srcRow s w n) 0 4 * 256 + n
  | none => if (win s w).sinceClaim &&& paths != 0 then 63 else 0

/-- A claim makes its source active, not pending, with COUNT 0 (R452). -/
def claimEffect (w path : Nat) (s : State) : State :=
  let s1 := match claimable s w with
    | some n => putSrc w n (putBits (putBits (putBits (srcRow s w n) 0 4 0) 6 1 0) 7 1 1) s
    | none => s
  settle w (modWin w (fun x => { x with sinceClaim := x.sinceClaim &&& ~~~BitVec.ofNat 2 (2 ^ path) }) s1)

/-- Completion of source n (R454). -/
def completeEffect (w n : Nat) (s : State) : State :=
  let r := srcRow s w n
  if n = 0 ∨ n > 62 ∨ !bitOf r 7 then s
  else
    let s1 := putSrc w n (putBits r 7 1 0) s
    if bitOf r 23 && bitOf r 22 && cond s w n then raise w n s1 else s1

/-- The stored row word of a source row write (R448, R450): ENABLE, MODE and CLEAR. -/
def srcWrite (s : State) (w n v : Nat) : Nat :=
  let r := srcRow s w n
  let r1 := putBits (putBits r 23 1 (bits v 23 1)) 22 1 (bits v 22 1)
  let r2 := if bitOf v 21 then putBits (putBits (putBits r1 0 4 0) 5 1 0) 6 1 0 else r1
  if bitOf r 23 && !bitOf v 23 then putBits (putBits r2 0 4 0) 6 1 0
  else if !bitOf r 23 && bitOf v 23 && bitOf v 22 && cond s w n then putBits (putBits r2 0 4 1) 6 1 1
  else r2

/-- Every source of a window idle, COUNT and SAT 0; ENABLE and MODE kept (R471). -/
def idleSources (w : Nat) (s : State) : State :=
  sources.foldl (fun s n => if srcRow s w n % 2 ^ 22 = 0 then s
    else putSrc w n (putBits (srcRow s w n) 0 22 0) s) s

/-! ### Programmable counters (R464, R465) -/

/-- An occurrence of event code `code` adds n to every counter that counts it. -/
def perfAdd (code n : Nat) (s : State) : State :=
  forAll 8 (fun i s =>
    if pn s (0x610000 + i) = code ∧ code ≠ 0 then
      let c := tget s.perf.cnt i 0 + n
      let s1 := { s with perf := { s.perf with cnt := tput s.perf.cnt i (c % 2 ^ 48) } }
      if c ≥ 2 ^ 48 then raise 0 (24 + i) s1 else s1
    else s) s

/-! ### M_FAULT and the fault log -/

/-- Seconds of the device time. -/
def devSec (s : State) : Nat := s.time.dev / (65536 * 1000000000)

/-- Nanoseconds within the second of the device time. -/
def devNs (s : State) : Nat := (s.time.dev / 65536) % 1000000000

/-- The row a new fault log entry takes: the lowest with VALID 0, else the oldest whose SAFE is 0 (R555). -/
def logRow (s : State) : Option Nat :=
  match (List.range 32).find? fun r => !bitOf (rowWord s 0x0E 0 r 0) 23 with
  | some r => some r
  | none => s.safety.logOrder.find? fun r => !bitOf (rowWord s 0x0E 0 r 2) 23

/-- A fault log occurrence (R554, R555): KIND, CAUSE, TENANT, UNIT, INFO, ADDR and whether it causes the safe state. -/
def logFault (kind cause tenant unit info addr : Nat) (safe : Bool) (s : State) : State :=
  let w0 := 2 ^ 23 + kind * 2 ^ 21 + cause * 2 ^ 16 + tenant * 2 ^ 14 + unit * 2 ^ 9 + info
  let held := (List.range 32).any fun r => rowWord s 0x0E 0 r 0 == w0 && rowWord s 0x0E 0 r 3 == addr
  if held && !safe then s
  else match logRow s with
    | none => s
    | some r =>
      let row := [word w0, word (devSec s), word (flag safe 23 + devNs s / 256), word addr]
      let s1 := putRow 0x0E 0 r row s
      { s1 with safety := { s1.safety with logOrder := s1.safety.logOrder.filter (· != r) ++ [r] } }

/-- A cause of M_FAULT sets: M_FAULT_DETAIL latches the first (R86), management source 1 is raised when the bit rises
(assumption 14), and the fault log records the occurrence with its ADDR. -/
def setMFault (cause unitA unitB info addr : Nat) (safe : Bool) (s : State) : State :=
  let s1 := if s.mgmt.fault = 0 then
      { s with mgmt := { s.mgmt with
        detail := word (cause * 2 ^ 19 + unitA * 2 ^ 14 + unitB * 2 ^ 9 + info) } }
    else s
  let s2 := { s1 with mgmt := { s1.mgmt with fault := s.mgmt.fault ||| BitVec.ofNat 12 (2 ^ cause) } }
  let s3 := if s.mgmt.fault.getLsbD cause then s2 else raise 0 1 s2
  logFault 0 cause 0 unitA info addr safe s3

end Sys2Proof.Machine
end

