-- ==== Sys2Proof/Machine/Time.lean ====
section
/-! DEFINITION. The timebase (chapter 10): how time passes, the device time, and the gate control lists as functions of
the device time. -/

set_option Elab.async false

namespace Sys2Proof.Machine

/-- FREQ_ADJ, signed, in 2^-16 ppb (R302). -/
def freqAdj (s : State) : Int := toInt 48 (pwide s 0x300000 2)

/-- PHASE_SLEW, signed ns (R303). -/
def phaseSlew (s : State) : Int := toInt 24 (pn s 0x300002)

/-- Ticks for which the slew in progress still lasts: 1 ns accumulates in 500 ticks at 1,000 ppm (R303). -/
def slewLeft (s : State) : Nat := 500 * (phaseSlew s).natAbs - s.time.slewAcc

/-- After a write of PHASE_SLEW over an old value: the part of 1 ns accumulated so far stays while the slew runs on in the
same direction, so that a decrement due with the write lowers the written value (R303, Table 2.6). -/
def slewWritten (old : Int) (s : State) : State :=
  if decide (0 < old * phaseSlew s) then s else { s with time := { s.time with slewAcc := 0 } }

/-- What n ticks add to the device time, in 10^-9 of 2^-16 ns, m of them slewing (R302, R303). -/
def advanceOf (s : State) (n m : Nat) : Nat :=
  let f := freqAdj s
  let rate : Int := 131072000000000 + 2 * f
  let slew : Int := if phaseSlew s < 0 then -131072000000 else 131072000000
  (rate * n + slew * m).toNat

/-- The period of an island: 0 nominal, 1 for 1.5 times while only detector L counts, 2 for twice while H does (R507). -/
def droopPeriod (d : Droop) : Nat := if d.high then 2 else if d.low then 1 else 0

/-- The island's clock is stretched (R507). -/
def stretched (s : State) (i : Nat) : Bool := droopPeriod (tget s.droop i {}) != 0

/-- Device time in ns. -/
def nowNs (s : State) : Nat := s.time.dev / 65536

/-! ### Gate control lists (R315 to R320) -/

/-- Entry k of a list of a port: interval, OP and STATES (Table 10.2). -/
def gateEntry (s : State) (p list k : Nat) : Nat × Nat × Nat :=
  let r := 256 * list + k
  let w0 := rowWord s 0x06 p r 0
  (max 32 (bits w0 16 8 * 2 ^ 24 + rowWord s 0x06 p r 1), bits w0 8 2, bits w0 0 8)

/-- The entry that position pos of a cycle falls in, and where in the cycle it ends (R318). -/
def entryAt (f : Nat → Nat) (len cycle pos : Nat) : Nat → Nat → Nat → Nat × Nat
  | 0, k, _ => (k, cycle)
  | fuel + 1, k, start =>
    if k + 1 ≥ len then (k, cycle)
    else if pos < start + f k then (k, min cycle (start + f k))
    else entryAt f len cycle pos fuel (k + 1) (start + f k)

/-- The entry at a position of a port's list. -/
def entryOf (s : State) (p list len cycle pos : Nat) : Nat × Nat :=
  entryAt (fun k => (gateEntry s p list k).1) len cycle pos len 0 0

/-- The position of an instant in the operational cycle, when the gates follow their list (R317, R318). -/
def cyclePos (s : State) (p now : Nat) : Option Nat :=
  let g := (port s p).gate
  if g.enable ∧ g.base ≤ now then some ((now - g.base) % max 1 g.cycle) else none

/-- STATES of a port's gates now; every gate is open while disabled and before the base time (R317, R318). -/
def gateStates (s : State) (p : Nat) : Nat :=
  let g := (port s p).gate
  match cyclePos s p (nowNs s) with
  | none => 255
  | some pos => (gateEntry s p g.active (entryOf s p g.active g.len g.cycle pos).1).2.2

/-- The gate of class c of port p is open. -/
def gateOpen (s : State) (p c : Nat) : Bool := bitOf (gateStates s p) c

/-- ns from a position until the gate of class c is (open = want), none if never; across entries and cycles (R325). -/
def gateTurn (s : State) (p list len cycle c : Nat) (want : Bool) : Nat → Nat → Nat → Option Nat
  | 0, _, _ => none
  | fuel + 1, pos, acc =>
    let e := entryOf s p list len cycle pos
    if bitOf (gateEntry s p list e.1).2.2 c = want then some acc
    else gateTurn s p list len cycle c want fuel (e.2 % max 1 cycle) (acc + (e.2 - pos))

/-- ns from now until the gate of class c next has a state, with the swap in prospect taken into account. -/
def untilGate (s : State) (p c : Nat) (want : Bool) : Option Nat :=
  let g := (port s p).gate
  let now := nowNs s
  let old := match cyclePos s p now with
    | some pos => gateTurn s p g.active g.len g.cycle c want (2 * g.len + 2) pos 0
    | none => if want then some 0
      else if g.enable then
        (gateTurn s p g.active g.len g.cycle c want (2 * g.len + 2) 0 0).map (· + (g.base - now))
      else none
  match g.swapAt with
  | none => old
  | some at0 =>
    match old with
    | some d => if now + d < at0 then some d
      else (gateTurn s p (1 - g.active) (pn s (0x310001 + 256 * p)) (pwide s (0x310002 + 256 * p) 2) c want
        (2 * pn s (0x310001 + 256 * p) + 2) 0 0).map (· + (at0 - now))
    | none => (gateTurn s p (1 - g.active) (pn s (0x310001 + 256 * p)) (pwide s (0x310002 + 256 * p) 2) c want
        (2 * pn s (0x310001 + 256 * p) + 2) 0 0).map (· + (at0 - now))

/-! ### Speeds as time -/

/-- Mb/s of a speed code. -/
def mbps : Nat → Nat
  | 1 => 10
  | 2 => 100
  | 3 => 1000
  | 4 => 2500
  | 5 => 10000
  | _ => 1000

/-- n byte times at a speed, in 2^-16 ns. -/
def byteTime (speed n : Nat) : Nat := n * 8000 * 65536 / mbps speed

/-- n byte times at a speed, in ns rounded up. -/
def byteNs (speed n : Nat) : Nat := (n * 8000 + mbps speed - 1) / mbps speed

/-- n byte times at a speed, in ticks rounded up. -/
def byteTicks (speed n : Nat) : Nat := (n * 4000 + mbps speed - 1) / mbps speed

/-- n pause quanta of 512 bit times at a speed, in ticks. -/
def quantaTicks (speed n : Nat) : Nat := n * 256000 / mbps speed

/-! ### Guard bands and eligibility (R260, R322, R325) -/

/-- Preemption is active on a port (R260). -/
def preempting (s : State) (p : Nat) : Bool :=
  bitOf (pn s (0x100007 + 256 * p)) 0 && (port s p).link && decide ((port s p).speed ≥ 3)

/-- A class is express (R260). -/
def express (s : State) (p c : Nat) : Bool := bitOf (pn s (0x100007 + 256 * p)) (8 + c)

/-- The guard band of a staged frame, in byte times (R325). -/
def guardBytes (s : State) (p : Nat) (f : Staged) : Nat :=
  let len := f.bytes.length
  let frag := 64 * (1 + bits (pn s (0x100007 + 256 * p)) 16 2)
  if !preempting s p || express s p f.cls || decide (len < frag + 64) then 8 + len else 8 + frag + 4

/-- A staged frame would be eligible once its launch time, if any, is reached (R322). The time that is left before the
gate closes is taken with the fraction of the device time. -/
def gateEligible (s : State) (p : Nat) (f : Staged) : Bool :=
  gateOpen s p f.cls
    && (match untilGate s p f.cls false with
        | some d => decide (guardBytes s p f * 8000 * 65536 ≤ mbps (port s p).speed * (d * 65536 - s.time.dev % 65536))
        | none => true)

/-- The pauses a port obeys: a class while its bit of FLOW_CFG is 1, 802.3x pause while bit 1 is (R251, R257). -/
def obeyed (s : State) (p : Nat) : List (Nat × Nat) :=
  let flow := pn s (0x100004 + 256 * p)
  (port s p).paused.filter fun e => bitOf flow (if e.1 = 8 then 1 else e.1 + 8)

/-- A class is paused now (R257). -/
def classPaused (s : State) (p c : Nat) : Bool :=
  (obeyed s p).any fun e => (e.1 == c || e.1 == 8) && decide (e.2 > s.clk)

/-- Some class of the port is paused now (R257). -/
def anyPaused (s : State) (p : Nat) : Bool := (obeyed s p).any fun e => decide (e.2 > s.clk)

/-- A staged frame's launch time has been reached. -/
def launched (s : State) (f : Staged) : Bool :=
  match f.launch with
  | some l => decide (l ≤ nowNs s)
  | none => true

/-! ### Ticks -/

/-- A paced channel is waiting on its line (Table 15.5, unit 0x07). -/
def pacedWait (c : Chan) : Bool := c.busy && !c.paused && bits c.ctl 4 2 != 0 && c.toRead == 0 && !c.moved

/-- An event code of Table 15.5 that gains 1 in every tick of the present state. -/
def tickEvent (s : State) (code : Nat) : Bool :=
  let i := bits code 8 8
  code == 0x010001
    || (bits code 16 8 == 2 && bits code 0 8 == 5 && anyPaused s i)
    || (bits code 16 8 == 2 && bits code 0 8 == 7 && (port s i).xoff != [])
    || (bits code 16 8 == 2 && bits code 0 8 == 6
      && (port s i).stage.any fun f => launched s f && !classPaused s i f.cls && !gateEligible s i f)
    || (code == 0x050004 && s.thicket.waiting.length ≥ 4)
    || (bits code 16 8 == 7 && bits code 0 8 == 3 && pacedWait (chan s i))
    || (bits code 16 8 == 9 && stretched s i)

/-- Ring-engine cycles of n ticks: 1.2 per tick at the nominal period, in fifths, fewer while stretched (R468). -/
def engineFifths (s : State) (t n : Nat) : Nat :=
  match droopPeriod (tget s.droop (12 + t) {}) with
  | 0 => 6 * n
  | 1 => 4 * n
  | _ => 3 * n

/-- The class of a cycle of ring engine t that performs no step: event codes 0x04 HOST_WAIT, 0x05 NO_WORK, 0x06
GLADE_WAIT, 0x08 OTHER_WAIT for the Canopy write-back of an RX buffer (R468). Posted writes leave at once in this model, so
POST_WAIT never holds (assumption 9). -/
def waitClass (s : State) (t : Nat) : Nat :=
  let x := ten s t
  let merging := s.canopy.fills.any fun f => f.t == t && match f.who with
    | .merge _ _ => true
    | _ => false
  if x.staging.any (·.complete) then 6
  else if merging && x.rings.any (fun r => decide (68 ≤ r.1) && r.2.entries.any fun e => e.kind != 0 && e.stage == .done)
    then 8
  else if x.staging.any (fun f => !f.complete) || x.rings.any (fun r => r.2.read.isSome) then 4
  else 5

/-- Some entry of engine t lies between fetch and write-back (Table 15.5, event 0x09). -/
def inFlight (s : State) (t : Nat) : Bool := (ten s t).rings.any fun r => r.2.entries != []

/-- n ticks of ring engine t in the cycle counters: cycles that steps have taken are counted already, the others perform
no step (R468, R469). -/
def engineTicks (n t : Nat) (s : State) : State :=
  let f := engineFifths s t n + (ten s t).cycRem
  let c := f / 5 - (ten s t).ahead
  let u := 0x030000 + 256 * t
  let s1 := modTen t (fun x => { x with cycRem := f % 5, ahead := x.ahead - f / 5 }) s
  let s2 := perfAdd (u + waitClass s t) c (perfAdd (u + 1) c s1)
  if inFlight s t then perfAdd (u + 9) c s2 else s2

/-- What the n ticks up to now add to a counter of an event code; a port's paused time ends with its last pause (R257). -/
def tickGain (s : State) (code n : Nat) : Nat :=
  if bits code 16 8 = 2 ∧ bits code 0 8 = 5 then
    min n ((obeyed s (bits code 8 8)).foldl (fun m e => max m e.2) 0 - (s.clk - n))
  else if tickEvent s code then n
  else 0

/-- Codes of the eight programmable counters that a tick advances. -/
def perfTicks (n : Nat) (s : State) : State :=
  forAll 8 (fun i s =>
    let gain := tickGain s (pn s (0x610000 + i)) n
    if gain = 0 then s
    else
      let c := tget s.perf.cnt i 0 + gain
      let s1 := { s with perf := { s.perf with cnt := tput s.perf.cnt i (c % 2 ^ 48) } }
      if c ≥ 2 ^ 48 then raise 0 (24 + i) s1 else s1) s

/-- Some programmable counter counts cycles of a ring engine. -/
def countsEngine (s : State) : Bool := (List.range 8).any fun i => bits (pn s (0x610000 + i)) 16 8 == 3

/-- STRETCH_OVER of an island gains k, with management source 11 raised for each (R512). -/
def stretchOver (i k : Nat) (s : State) : State :=
  if k = 0 then s
  else forAll (min k 16) (fun _ s => raise 0 11 s) (bumpParam (0x800002 + 256 * i) k s)

/-- n ticks of an island from place f of the present 1 ms window of the fixed cycle counter: at each window's end the
stretched time is judged by STRETCH_BUDGET (R512). -/
def stretchIsland (f n i : Nat) (d : Droop) (s : State) : State :=
  let on := droopPeriod d != 0
  let budget := 500 * pn s (0x800001 + 256 * i)
  let room := 500000 - f
  let put := fun (k : Nat) (s : State) => { s with droop := tput s.droop i { d with ticks := k } }
  if n < room then (if on then put (d.ticks + n) s else s)
  else
    let first := d.ticks + (if on then room else 0)
    let full := if on && decide (500000 > budget) then (n - room) / 500000 else 0
    put (if on then (n - room) % 500000 else 0) (stretchOver i ((if first > budget then 1 else 0) + full) s)

/-- n ticks of every island from place f of the present window. -/
def droopTicks (f n : Nat) (s : State) : State := forEach s.droop (fun (i, d) s => stretchIsland f n i d s) s

/-- The device time of a stretch at a tick, in units of 10^-9 of 2^-16 ns. -/
def segAt (g : TimeSeg) (clk : Nat) : Nat := g.dev * 1000000000 + g.rem + g.rate * (clk - g.clk)

/-- The stretches back to one that holds an instant. -/
def segsTo (lim : Nat) : List TimeSeg → List TimeSeg
  | [] => []
  | g :: gs => if g.clk ≤ lim then [g] else g :: segsTo lim gs

/-- A stretch that the newest one does not foretell begins; stretches older than every timestamp point still wanted, and
than 50 ms, fall away. -/
def segPush (clk dev rem rate : Nat) (s : State) : State :=
  let foretold := match s.time.segs with
    | [] => false
    | g :: _ => g.rate == rate && segAt g clk == dev * 1000000000 + rem
  if foretold then s
  else
    let onWire := s.ports.flatMap fun e => (e.2.wire.toList ++ e.2.held.toList).map fun f => f.startAt / 131072
    let lim := onWire.foldl min (clk - ms 50)
    { s with time := { s.time with segs := ⟨clk, dev, rem, rate⟩ :: segsTo lim s.time.segs } }

/-- The device time, in 2^-16 ns, at a past instant of true time in 2^-16 ns since the model's clock began; before every
stretch kept, at the nominal rate back from the present device time. -/
def devAt (s : State) (at0 : Nat) : Nat :=
  match s.time.segs.find? (fun g => decide (g.clk * 131072 ≤ at0)) with
  | some g => g.dev + (g.rem + g.rate * (at0 - g.clk * 131072) / 131072) / 1000000000
  | none => s.time.dev - (s.clk * 131072 - at0)

/-- The timebase's own n ticks, the last of them now: device time, fixed cycle counter, slew (R302, R303, R463). -/
def timeTicks (n : Nat) (s0 : State) : State :=
  let m := min n (slewLeft s0)
  let from0 := s0.clk - n
  let mid := s0.time.dev * 1000000000 + s0.time.rem + advanceOf s0 m m
  let sa := if m = 0 then s0 else segPush from0 s0.time.dev s0.time.rem (advanceOf s0 1 1) s0
  let s := if m = n then sa
    else segPush (from0 + m) (mid / 1000000000) (mid % 1000000000) (advanceOf s0 1 0) sa
  let total := s.time.rem + advanceOf s n m
  let dev := s.time.dev + total / 1000000000
  let acc := s.time.slewAcc + m
  let left := (phaseSlew s).natAbs - acc / 500
  let slew : Int := if phaseSlew s < 0 then -(left : Int) else left
  let fixed := s.time.fixed + n
  let pps := bitOf (pn s 0x300003) 0 && decide (dev / 65536000000000 > s.time.dev / 65536000000000)
  let s1 := { s with time := { s.time with
      dev := dev % (2 ^ 48 * 65536000000000), rem := total % 1000000000, fixed := fixed % 2 ^ 48,
      slewAcc := if left = 0 then 0 else acc % 500, ppsDue := s.time.ppsDue || pps } }
  let s2 := if m = 0 then s1 else setPw 0x300002 (ofInt 24 slew) s1
  if fixed ≥ 2 ^ 48 then raise 0 23 s2 else s2

/-- GATE_CTL as read (Table 10.3). -/
def gateCtl (s : State) (p : Nat) : Nat :=
  let g := (port s p).gate
  flag g.enable 0 + flag g.swapAt.isSome 1 + flag (g.active == 1) 2

/-- The admin base time of a port in ns (R319). -/
def adminBase (s : State) (p : Nat) : Nat :=
  pwide s (0x310004 + 256 * p) 2 * 1000000000 + pwide s (0x310006 + 256 * p) 2

/-- The pending list becomes active with its admin values (R317, R319). -/
def gateActivate (p : Nat) (s : State) : State :=
  modPort p (fun x => { x with gate := { x.gate with
    active := 1 - x.gate.active, swapAt := none,
    len := pn s (0x310001 + 256 * p), cycle := pwide s (0x310002 + 256 * p) 2, base := adminBase s p } }) s

/-- A swap becomes due: ACTIVE toggles, SWAP clears, management source 19 is raised (R319). -/
def gateSwapNow (p : Nat) (s : State) : State := raise 0 19 (gateActivate p s)

/-- The change time of a swap written now (R319). -/
def changeTime (s : State) (p : Nat) : Nat :=
  let b := adminBase s p
  let t := max 1 (pwide s (0x310002 + 256 * p) 2)
  let soon := (s.time.dev + 65535) / 65536 + 2000
  if b ≥ soon then b else b + (soon - b + t - 1) / t * t

/-- A write of GATE_CTL that its guard admits (R316 to R320). -/
def gateCtlWrite (p v : Nat) (s : State) : State :=
  let g := (port s p).gate
  if !bitOf v 0 then
    modPort p (fun x => { x with gate := { x.gate with enable := false, swapAt := none, hold := false } }) s
  else if !g.enable then
    modPort p (fun x => { x with gate := { x.gate with enable := true } }) (gateActivate p s)
  else if bitOf v 1 && g.swapAt.isNone then
    modPort p (fun x => { x with gate := { x.gate with swapAt := some (changeTime s p) } }) s
  else s

/-- Where the device time is at or past a change time, the swap happens at once (R319). -/
def gateCatchUp (s : State) : State :=
  forAll 32 (fun p s => match (port s p).gate.swapAt with
    | some at0 => if at0 ≤ nowNs s then gateSwapNow p s else s
    | none => s) s

/-- n ticks pass. Before the timebase PLL has locked only the model's clock moves (R329). -/
def wait (n : Nat) (s : State) : State :=
  let s1 := { s with clk := s.clk + n }
  if n = 0 ∨ !s.time.pll then s1
  else
    let s2 := droopTicks (s.time.fixed % 500000) n (perfTicks n (timeTicks n s1))
    let s3 := if countsEngine s2 then forAll 4 (engineTicks n) s2 else s2
    if s3.ports.any (fun e => e.2.gate.swapAt.isSome) then gateCatchUp s3 else s3

/-- Time passes until an instant, or not at all when it is past (assumption 3). -/
def waitUntil (at0 : Nat) (s : State) : State := wait (at0 - s.clk) s

/-- Ticks until the device time has gained d units of 2^-16 ns, at a number of 10^-9 units per tick. -/
def ticksFor (s : State) (d rate : Nat) : Nat := (d * 1000000000 - s.time.rem + rate - 1) / rate

/-- Time passes until the device time reaches a target in units of 2^-16 ns. -/
def waitDev (target : Nat) (s : State) : State :=
  let need := fun (s : State) =>
    ticksFor s (target - s.time.dev) (if slewLeft s = 0 then advanceOf s 1 0 else advanceOf s 1 1)
  let s1 := if slewLeft s != 0 && decide (need s > slewLeft s) then wait (slewLeft s) s else s
  if s1.time.dev ≥ target ∨ !s1.time.pll then s1 else wait (need s1) s1

/-- Store the device time, in 2^-16 ns (R306, R307): both time-discontinuity sources are raised. -/
def setTime (dev : Nat) (s : State) : State :=
  gateCatchUp (raise 0 15 (raiseTenants 49 { s with time := { s.time with dev := dev % (2 ^ 48 * 65536000000000) } }))

end Sys2Proof.Machine
end

