-- ==== Sys2Proof/Machine/Canopy.lean ====
section
/-! DEFINITION. The host links' posted writes and the Canopy (chapter 14): windows and modes, lines, replacement,
fills, device reads and writes, range maintenance and scratch ways. -/

set_option Elab.async false

namespace Sys2Proof.Machine

/-- Host link t is in L0 or L1. -/
def linkUp (s : State) (t : Nat) : Bool :=
  match (link s t).state with
  | .l0 => true
  | .l1 => true
  | _ => false

/-- Host link t may issue memory requests: Bus Master Enable is 1 and the link is in L0 or L1 (R146). -/
def canIssue (s : State) (t : Nat) : Bool := linkUp s t && (link s t).bme

/-- One posted memory write on host link t; none while the link may not issue one (R146, R156). -/
def post (t addr : Nat) (bytes : List Byte) (s : State) : State :=
  if canIssue s t && bytes != [] then
    perfAdd (0x0A0002 + 256 * t) 1
      (modLink t (fun l => { l with posted := l.posted ++ [(BitVec.ofNat 64 addr, bytes)] }) s)
  else s

/-- Base, size in bytes and mode of cache window row w of tenant t, when VALID (Table 14.1). -/
def cacheWin (s : State) (t w : Nat) : Option (Nat × Nat × Nat) :=
  let r := rowWord s 0x0D t w
  if bitOf (r 0) 23 then
    some (bits (r 1) 12 12 * 2 ^ 12 + r 2 * 2 ^ 24 + bits (r 3) 0 16 * 2 ^ 48,
      (r 4 + bits (r 5) 0 8 * 2 ^ 24) * 4096, bits (r 0) 21 2)
  else none

/-- Whether window row w of tenant t covers an address. -/
def covers (s : State) (t w a : Nat) : Bool :=
  match cacheWin s t w with
  | some (base, size, _) => decide (base ≤ a) && decide (a < base + size)
  | none => false

/-- Window and mode of an address: the lowest-numbered row that covers it; uncached otherwise and while the Canopy is
fenced (R421, R445). -/
def modeOf (s : State) (t a : Nat) : Nat × Nat :=
  if fenced s 18 then (0, 0)
  else match (List.range 8).find? fun w => covers s t w a with
    | some w => match cacheWin s t w with
      | some (_, _, m) => (w, m)
      | none => (0, 0)
    | none => (0, 0)

/-- The line an address lies in. -/
def lineBase (a : Nat) : Nat := a / 256 * 256

/-- The set of an address of tenant t (R420). -/
def setOf (t a : Nat) : Nat := 64 * t + a / 256 % 64

/-- The key of way w of a set. -/
def lineKey (set way : Nat) : Nat := 16 * set + way

/-- The way that holds a line of tenant t, if any. -/
def findLine (s : State) (t base : Nat) : Option (Nat × Line) :=
  (s.canopy.lines.find? fun e => e.1 / 16 == setOf t base && e.2.base == base && e.2.valid != 0)

/-- Ways of a set that may be allocated: those not converted, nor in conversion. Ways are converted one after another, so
at most one is in conversion (R427, R437). -/
def openWays (s : State) : Nat := 16 - min (pn s 0x510000) (s.canopy.ways + 1)

/-- Set the pseudo-LRU bits on a way's path to point away from it (R427). -/
def plruTouch (set way : Nat) (s : State) : State :=
  let b3 := bits way 3 1
  let b2 := bits way 2 1
  let b1 := bits way 1 1
  let b0 := bits way 0 1
  let n1 := 1 + b3
  let n2 := 2 * n1 + 1 + b2
  let n3 := 2 * n2 + 1 + b1
  let v := tget s.canopy.plru set 0
  let v := putBits (putBits (putBits (putBits v 0 1 (1 - b3)) n1 1 (1 - b2)) n2 1 (1 - b1)) n3 1 (1 - b0)
  { s with canopy := { s.canopy with plru := tput s.canopy.plru set v } }

/-- The way the pseudo-LRU tree selects among the open ways: right at a bit of 1, never into a subtree whose ways are
all converted (R427). -/
def plruWay (s : State) (set : Nat) : Nat :=
  let v := tget s.canopy.plru set 0
  let n := openWays s
  let d3 := if bitOf v 0 && decide (8 < n) then 1 else 0
  let n1 := 1 + d3
  let d2 := if bitOf v n1 && decide (8 * d3 + 4 < n) then 1 else 0
  let n2 := 2 * n1 + 1 + d2
  let d1 := if bitOf v n2 && decide (8 * d3 + 4 * d2 + 2 < n) then 1 else 0
  let n3 := 2 * n2 + 1 + d1
  let d0 := if bitOf v n3 && decide (8 * d3 + 4 * d2 + 2 * d1 + 1 < n) then 1 else 0
  8 * d3 + 4 * d2 + 2 * d1 + d0

/-- The way a new line of a set takes: the lowest open one that holds no valid sector, or the pseudo-LRU choice (R427).
DESIGN CHOICE (assumption 52): a way that a fill in flight has taken counts as held. -/
def allocWay (s : State) (set : Nat) : Nat :=
  match (List.range (openWays s)).find? fun w =>
      !(s.canopy.lines.any fun e => e.1 == lineKey set w && e.2.valid != 0)
        && !(s.canopy.fills.any fun f => setOf f.t f.base == set && f.way == w) with
  | some w => w
  | none => plruWay s set

/-- Write back the dirty sectors of a line that lie in a mask, as posted writes on the tenant's link. -/
def writeBackLine (t : Nat) (l : Line) (mask : BitVec 4) (s : State) : State :=
  forAll 4 (fun k s =>
    if l.dirty.getLsbD k && mask.getLsbD k then
      perfAdd (0x060003 + 256 * t) 1 (post t (l.base + 64 * k) (slice l.data (64 * k) 64) s)
    else s) s

/-- Store a line at a key; a line with no valid sector is no line. -/
def putLine (key : Nat) (l : Line) (s : State) : State :=
  { s with canopy := { s.canopy with lines :=
      if l.valid = 0 then s.canopy.lines.filter (fun e => e.1 != key) else tput s.canopy.lines key l } }

/-- The generation of a window (R423). -/
def genOf (s : State) (t w : Nat) : Nat := tget s.canopy.gens (8 * t + w) 0

/-- The line that holds a way is a victim: its dirty sectors are written back and it is gone (R427). -/
def evict (t key : Nat) (s : State) : State :=
  match s.canopy.lines.find? (fun e => e.1 == key) with
  | some (_, old) => putLine key { old with valid := 0 } (writeBackLine t old 15 s)
  | none => s

/-- The way a line of tenant t has, or a fill of it has taken; otherwise the way it takes now, its victim written back
before any fill is issued (R427). -/
def takeWay (t base : Nat) (s : State) : Nat × State :=
  match findLine s t base with
  | some (key, _) => (key % 16, s)
  | none => match s.canopy.fills.find? (fun f => f.t == t && f.base == base && decide (f.way < openWays s)) with
    | some f => (f.way, s)
    | none =>
      let way := allocWay s (setOf t base)
      (way, evict t (lineKey (setOf t base) way) s)

/-- Change the line of an address, allocating one when there is none (R427). -/
def touchLine (t a w : Nat) (f : Line → Line) (s : State) : State :=
  let base := lineBase a
  let set := setOf t a
  match findLine s t base with
  | some (key, l) => plruTouch set (key % 16) (putLine key (f l) s)
  | none =>
    let (way, s1) := takeWay t base s
    let key := lineKey set way
    plruTouch set way (putLine key (f ⟨base, 0, 0, List.replicate 256 0, w, genOf s t w⟩) (evict t key s1))

/-- The lines a range of n bytes from a touches, as (line address, first offset, end offset). -/
def linesOf (a n : Nat) : List (Nat × Nat × Nat) :=
  if n = 0 then []
  else (List.range ((a + n - 1) / 256 - a / 256 + 1)).map fun i =>
    let base := lineBase a + 256 * i
    (base, max a base - base, min (a + n) (base + 256) - base)

/-- The sectors that offsets lo to hi - 1 of a line touch. -/
def sectorMask (lo hi : Nat) : BitVec 4 :=
  BitVec.ofNat 4 (((List.range 4).map fun k => flag (decide (lo < 64 * k + 64) && decide (64 * k < hi)) k).sum)

/-- The sectors that offsets lo to hi - 1 cover whole. -/
def wholeMask (lo hi : Nat) : BitVec 4 :=
  BitVec.ofNat 4 (((List.range 4).map fun k => flag (decide (lo ≤ 64 * k) && decide (64 * k + 64 ≤ hi)) k).sum)

/-- Sectors of a line being filled. -/
def filling (s : State) (t base : Nat) : BitVec 4 :=
  s.canopy.fills.foldl (fun m f => if f.t = t ∧ f.base = base then m ||| f.sectors else m) 0

/-- s with the fills in flight changed. -/
def setFills (fs : List Fill) (s : State) : State := { s with canopy := { s.canopy with fills := fs } }

/-- Any read of a window sets its streaming counter to 0; the place of its previous write stays (R428). -/
def streamReset (t w : Nat) (s : State) : State :=
  { s with canopy := { s.canopy with
    stream := tput s.canopy.stream (8 * t + w) (0, (tget s.canopy.stream (8 * t + w) (0, 0)).2) } }

/-- A fill starts: its way is taken and a victim written back before it is issued (R427). -/
def startFill (t base : Nat) (secs : BitVec 4) (who : FillFor) (w : Nat) (s : State) : State :=
  let (way, s1) := takeWay t base s
  let c := s1.canopy
  { s1 with canopy := { c with
    nextFill := c.nextFill + 1, fills := c.fills ++ [⟨t, base, secs, who, w, genOf s t w, 0, false, c.nextFill, way⟩] } }

/-- The sectors of a line that a read of offsets lo to hi - 1 hits. -/
def hitMask (s : State) (t base lo hi : Nat) : BitVec 4 :=
  if (modeOf s t base).2 = 0 then 0
  else match findLine s t base with
    | some (_, l) => l.valid &&& sectorMask lo hi
    | none => 0

/-- A read misses a line: some sector of a cached line it touches is not valid. -/
def misses (s : State) (t : Nat) (l : Nat × Nat × Nat) : Bool :=
  (modeOf s t l.1).2 != 0 && hitMask s t l.1 l.2.1 l.2.2 != sectorMask l.2.1 l.2.2

/-- The bytes a read takes from the valid sectors of a line, by address (R425). -/
def hitBytes (s : State) (t : Nat) (l : Nat × Nat × Nat) : List (Nat × List Byte) :=
  match findLine s t l.1 with
  | none => []
  | some (_, x) => (List.range 4).filterMap fun k =>
      if (hitMask s t l.1 l.2.1 l.2.2).getLsbD k then
        let lo := max l.2.1 (64 * k)
        some (l.1 + lo, slice x.data lo (min l.2.2 (64 * k + 64) - lo))
      else none

/-- One line of a demand read: hits move the pseudo-LRU bits, and the sectors that miss are fetched in one read (R425,
R427). -/
def readLine (t who : Nat) (l : Nat × Nat × Nat) (s : State) : State :=
  let (w, m) := modeOf s t l.1
  if m = 0 then s
  else
    let hit := hitMask s t l.1 l.2.1 l.2.2
    let miss := sectorMask l.2.1 l.2.2 &&& ~~~hit
    let s1 := perfAdd (0x060001 + 256 * t) (ones 4 hit.toNat) (streamReset t w s)
    let s2 := match findLine s t l.1 with
      | some (key, _) => if hit = 0 then s1 else plruTouch (key / 16) (key % 16) s1
      | none => s1
    if miss = 0 then s2
    else startFill t l.1 miss (.demand who) w (perfAdd (0x060002 + 256 * t) (ones 4 miss.toNat) s2)

/-- The line after one a demand read missed is fetched whole, when it lies in the same window and no sector of it is valid
or being filled (R426). -/
def prefetchNext (t : Nat) (l : Nat × Nat × Nat) (s : State) : State :=
  let next := l.1 + 256
  let w := (modeOf s t l.1).1
  if pn s 0x510002 = 1 ∧ covers s t w next ∧ (modeOf s t next).1 = w ∧ (findLine s t next).isNone
      ∧ filling s t next = 0 then
    let s1 := startFill t next 15 .prefetch w (perfAdd (0x060004 + 256 * t) 1 s)
    if canIssue s t then perfAdd (0x0A0001 + 256 * t) 1 s1 else s1
  else s

/-- The device read a requester of tenant t has in progress on cached memory. -/
def cread (s : State) (t who : Nat) : Option CRead := s.canopy.reads.find? fun r => r.t == t && r.who == who

/-- s without the record of a requester's read. -/
def creadEnd (t who : Nat) (s : State) : State :=
  { s with canopy := { s.canopy with reads := s.canopy.reads.filter fun r => !(r.t == t && r.who == who) } }

/-- Requests that a device read of n bytes puts on its host link: one for each cached line that misses, and one for what is
not cached. -/
def readRequests (s : State) (t a n : Nat) : Nat :=
  let ls := linesOf a n
  if canIssue s t then (ls.filter (misses s t)).length + (if ls.any fun l => (modeOf s t l.1).2 == 0 then 1 else 0) else 0

/-- A device read is issued: valid sectors are served from the Canopy at once, every line that misses starts one fill for
the requester, and after all of them each missed line may prefetch the following one (R425, R426). Reads that reach the
link count only while it issues requests (R146). -/
def readIssue (t a n who : Nat) (s : State) : State :=
  let ls := linesOf a n
  let plain := ls.any fun l => (modeOf s t l.1).2 == 0
  let miss := ls.filter (misses s t)
  let s0 := creadEnd t who s
  let s1 := if ls.all (fun l => (modeOf s t l.1).2 == 0) then s0
    else { s0 with canopy := { s0.canopy with
      reads := s0.canopy.reads ++ [⟨t, who, ls.flatMap (hitBytes s t), plain || miss != []⟩] } }
  let s2 := forEach ls (readLine t who) s1
  forEach miss (prefetchNext t) (if canIssue s t then perfAdd (0x0A0001 + 256 * t) (readRequests s t a n) s2 else s2)

/-- What ends a requester's read: a read that hits in every sector needs nothing of the host (R425). -/
def readOutcome (s : State) (t who : Nat) (r : HostRead) : HostRead :=
  match cread s t who with
  | some c => if c.host then r else .data []
  | none => r

/-- A requester waits for the host: a read that hits in every sector does not. -/
def readWaits (s : State) (t who : Nat) : Bool :=
  match cread s t who with
  | some c => c.host
  | none => true

/-- A filled line: the sectors that come in are valid with the data read; a sector already valid keeps its data. -/
def fillLine (l : Line) (secs : BitVec 4) (data : List Byte) : Line :=
  let take := secs &&& ~~~l.valid
  let d := (List.range 4).foldl (fun acc k =>
    if take.getLsbD k then patch acc (64 * k) (slice data (64 * k) 64) else acc) l.data
  { l with valid := l.valid ||| secs, data := d }

/-- Install a fill: doomed sectors and sectors of a superseded generation are dropped (R423, R432). -/
def install (f : Fill) (data : List Byte) (s : State) : State :=
  let secs := f.sectors &&& ~~~f.doomed
  if secs = 0 ∨ genOf s f.t f.win ≠ f.gen then s
  else touchLine f.t f.base f.win (fun l => fillLine l secs data) s

/-- Bytes of a partial write still waiting for its fill, laid over a read of the same place (R425). -/
def overlayMerges (s : State) (t a : Nat) (host : List Byte) : List Byte :=
  s.canopy.fills.foldl (fun acc f => match f.who with
    | .merge off bytes =>
      let x := max a (f.base + off)
      let y := min (a + host.length) (f.base + off + bytes.length)
      if f.t = t ∧ x < y then patch acc (x - a) (slice bytes (x - f.base - off) (y - x)) else acc
    | _ => acc) host

/-- The bytes a device read of a range returns: host bytes, overlaid by every valid cached sector (R425). -/
def overlay (s : State) (t a : Nat) (host : List Byte) : List Byte :=
  overlayMerges s t a <| (linesOf a host.length).foldl (fun acc (base, lo, hi) =>
    if (modeOf s t base).2 = 0 then acc
    else match findLine s t base with
      | none => acc
      | some (_, l) => (List.range 4).foldl (fun acc k =>
          let x := max lo (64 * k)
          let y := min hi (64 * k + 64)
          if l.valid.getLsbD k && decide (x < y) then patch acc (base + x - a) (slice l.data x (y - x)) else acc) acc) host

/-- The host address at which the bytes of a requester's completion begin: the whole first sector is fetched where it
missed (R425), and otherwise the read's own first byte. -/
def readStart (s : State) (t a who : Nat) : Nat :=
  if s.canopy.fills.any fun f => f.t == t && f.who == .demand who && f.base == lineBase a
      && f.sectors.getLsbD (a % 256 / 64) then a / 64 * 64 else a

/-- A demand read of n bytes ends with data: the requester is served exactly once and its fills are installed (R425,
R432). The host's bytes run from readStart to the end of the last sector fetched. -/
def readServe (t a n who : Nat) (host : List Byte) (s : State) : List Byte × State :=
  let start := readStart s t a who
  let raw := (host.drop (a - start) ++ List.replicate n 0).take n
  let hits := match cread s t who with
    | some c => c.hits
    | none => []
  let out := hits.foldl (fun acc h => patch acc (h.1 - a) h.2) (overlay s t a raw)
  let mine := s.canopy.fills.filter fun f => f.t == t && f.who == .demand who
  let rest := s.canopy.fills.filter fun f => !(f.t == t && f.who == .demand who)
  (out, forEach mine (fun f s =>
    let data := List.replicate (start - f.base) (0 : Byte) ++ host.drop (f.base - start)
    install f ((data ++ List.replicate 256 0).take 256) s) (creadEnd t who (setFills rest s)))

/-- A demand read failed or was abandoned: its fills never come. -/
def readDrop (t who : Nat) (s : State) : State :=
  creadEnd t who (setFills (s.canopy.fills.filter fun f => !(f.t == t && f.who == .demand who)) s)

/-- A newer write of a place replaces the bytes an older partial write still waiting there would lay down. -/
def mergeNewer (t a : Nat) (bytes : List Byte) (f : Fill) : Fill :=
  match f.who with
  | .merge off old =>
    let x := max a (f.base + off)
    let y := min (a + bytes.length) (f.base + off + old.length)
    if f.t = t ∧ x < y then { f with who := .merge off (patch old (x - f.base - off) (slice bytes (x - a) (y - x))) } else f
  | _ => f

/-- A write hit moves the pseudo-LRU bits of its line (R427). -/
def hitTouch (hit : Option (Nat × Line)) (s : State) : State :=
  match hit with
  | some (key, _) => plruTouch (key / 16) (key % 16) s
  | none => s

/-- A device write within one line (R424, R425, R428, Table 14.2). A sector that a mode 1 write invalidates is dirty no
longer. -/
def writeLine (t a : Nat) (bytes : List Byte) (s : State) : State :=
  let base := lineBase a
  let (w, m) := modeOf s t a
  let lo := a - base
  let hi := lo + bytes.length
  let secs := sectorMask lo hi
  let found := findLine s t base
  let hit := found.filter fun e => e.2.valid &&& secs != 0
  match m with
  | 0 => post t a bytes s
  | 1 =>
    let s1 := match hit with
      | some (key, l) => putLine key { l with valid := l.valid &&& ~~~secs, dirty := l.dirty &&& ~~~secs } (hitTouch hit s)
      | none => s
    post t a bytes s1
  | 2 =>
    let s1 := match hit with
      | some (key, l) => putLine key { l with data := patch l.data lo bytes } (hitTouch hit s)
      | none => s
    post t a bytes s1
  | _ =>
    let k := 8 * t + w
    let (c, last) := tget s.canopy.stream k (0, 0)
    let c1 := if last ≠ 0 ∧ base = last then c + 1 else 0
    let s := { s with canopy := { s.canopy with stream := tput s.canopy.stream k (c1, base + 256) } }
    let valid : BitVec 4 := match found with
      | some (_, l) => l.valid
      | none => 0
    let whole := wholeMask lo hi
    let part := secs &&& ~~~whole &&& ~~~valid
    if valid &&& secs ≠ secs ∧ c1 ≥ 16 then
      let s1 := match hit with
        | some (key, l) => putLine key { l with data := patch l.data lo bytes } (hitTouch hit s)
        | none => s
      post t a bytes s1
    else
      let s1 := if secs &&& ~~~part = 0 then s
        else touchLine t a w (fun l =>
          { l with data := patch l.data lo bytes, valid := l.valid ||| (secs &&& ~~~part),
                   dirty := l.dirty ||| (secs &&& ~~~part) }) s
      forAll 4 (fun k s =>
        let x := max lo (64 * k)
        let y := min hi (64 * k + 64)
        if part.getLsbD k then
          let s2 := startFill t base (BitVec.ofNat 4 (2 ^ k)) (.merge x (slice bytes (x - lo) (y - x))) w s
          if canIssue s t then perfAdd (0x0A0001 + 256 * t) 1 s2 else s2
        else s) s1

/-- A partial write within a range still waits for its fill (R425, R429). -/
def mergeWaits (s : State) (t a n : Nat) : Bool :=
  s.canopy.fills.any fun f => f.t == t && match f.who with
    | .merge off bytes => decide (a < f.base + off + bytes.length) && decide (f.base + off < a + n)
    | _ => false

/-- Write back every dirty sector of a range; the sectors stay valid and clean (R429, and a clean of R430). -/
def cleanRange (t a n : Nat) (s : State) : State :=
  forEach (linesOf a n) (fun (base, lo, hi) s =>
    match findLine s t base with
    | none => s
    | some (key, l) =>
      let m := sectorMask lo hi
      putLine key { l with dirty := l.dirty &&& ~~~m } (writeBackLine t l m s)) s

/-- A prefetch or a partial write's fill completes with the line's bytes: its sectors are installed, the waiting bytes
are laid over them and made dirty, and written back where a clean has reached the fill (R425, R426, R432). -/
def fillDone (f : Fill) (data : List Byte) (s : State) : State :=
  match f.who with
  | .merge off bytes =>
    if f.doomed = 0 ∧ genOf s f.t f.win = f.gen then
      let s1 := touchLine f.t f.base f.win (fun l =>
        let l1 := fillLine l f.sectors data
        { l1 with data := patch l1.data off bytes, dirty := l1.dirty ||| f.sectors }) s
      if f.back then cleanRange f.t (f.base + off) bytes.length s1 else s1
    else if f.doomed ≠ 0 ∧ f.back then post f.t (f.base + off) bytes s
    else s
  | _ => install f data s

/-- A device write of any length: line by line, lowest address first. -/
def devWrite (t a : Nat) (bytes : List Byte) (s : State) : State :=
  forEach (linesOf a bytes.length) (fun (base, lo, hi) s =>
    writeLine t (base + lo) (slice bytes (base + lo - a) (hi - lo)) s)
    (setFills (s.canopy.fills.map (mergeNewer t a bytes)) s)

/-- A write-back of ring entries: one posted write, as R192 states, in the uncached memory where rings lie (R177);
elsewhere it takes the window's mode. -/
def entryWrite (t a : Nat) (bytes : List Byte) (s : State) : State :=
  if (linesOf a bytes.length).all (fun l => (modeOf s t l.1).2 == 0) then post t a bytes s else devWrite t a bytes s

/-! ### Range maintenance (R430 to R434) -/

/-- The sectors of a line that lie in an operation's range (R430). -/
def maintRange (m : Maint) (base : Nat) : BitVec 4 :=
  if m.all then 15
  else BitVec.ofNat 4 (((List.range 4).map fun k =>
    flag (decide (m.base ≤ base + 64 * k) && decide (base + 64 * k < m.base + 64 * m.len)) k).sum)

/-- The sectors valid or being filled in the partition of tenant t, by line (R433). -/
def maintCover (s : State) (t : Nat) : List (Nat × BitVec 4) :=
  ((s.canopy.lines.filter fun e => e.1 / 1024 == t).map fun e => (e.2.base, e.2.valid))
    ++ (s.canopy.fills.filter fun f => f.t == t).map fun f => (f.base, f.sectors)

/-- The sectors of a line that a maintenance operation covers: those of its range that were valid or being filled when its
OP was acknowledged (R433). -/
def maintMask (m : Maint) (base : Nat) : BitVec 4 :=
  maintRange m base &&& m.cover.foldl (fun k e => if e.1 = base then k ||| e.2 else k) 0

/-- The partition's lines and fills take the operation's effect (R430, R432, R433). -/
def maintRun (t : Nat) (m : Maint) (s : State) : State × Bool :=
  let mine := s.canopy.lines.filter fun e => e.1 / 1024 == t
  let wb := m.op % 2 == 1
  let reached := fun (f : Fill) => f.t == t && decide (f.id < m.upto) && (f.sectors &&& maintRange m f.base) != 0
  let dirty := (mine.any fun e => (e.2.dirty &&& maintMask m e.2.base) != 0)
    || s.canopy.fills.any fun f => reached f && match f.who with
      | .merge _ _ => true
      | _ => false
  let s1 := forEach mine (fun (key, l) s =>
    let k := maintMask m l.base
    let s := if wb then writeBackLine t l k s else s
    putLine key { l with dirty := l.dirty &&& ~~~k, valid := if m.op = 1 then l.valid else l.valid &&& ~~~k } s) s
  let s2 := setFills (s1.canopy.fills.map fun f =>
    if reached f then { f with
      doomed := if m.op = 1 then f.doomed else f.doomed ||| (f.sectors &&& maintRange m f.base), back := f.back || wb }
    else f) s1
  (s2, wb && dirty)

/-- The maintenance queue of a partition (R434). -/
def maintQueue (s : State) (t : Nat) : List Maint := tget s.canopy.queues t []

/-- s with a partition's queue. -/
def setQueue (t : Nat) (q : List Maint) (s : State) : State :=
  { s with canopy := { s.canopy with queues := tput s.canopy.queues t q } }

/-- Start the operation at the front of a partition's queue. -/
def maintStart (t : Nat) (s : State) : State :=
  match maintQueue s t with
  | m :: rest =>
    if m.started then s
    else
      let r := maintRun t m s
      let s1 := setQueue t ({ m with started := true, wrote := r.2, since := s.clk } :: rest) r.1
      if r.2 && canIssue s t then perfAdd (0x0A0001 + 256 * t) 1 s1 else s1
  | [] => s

/-- An operation's window sees its end: DONE, and ERR with ERROR; its source is raised (R431). -/
def maintDone (w err : Nat) (s : State) : State :=
  raise w (if w = 0 then 20 else 45) (modWin w (fun x => { x with
    canopyBusy := false, canopyDone := true, canopyErr := err, canopyError := x.canopyError || decide (err ≠ 0) }) s)

/-- The front operation of a partition ends, and the next one starts (R431, R434). -/
def maintEnd (t err : Nat) (s : State) : State :=
  match maintQueue s t with
  | m :: rest => maintStart t (maintDone m.win err (setQueue t rest s))
  | [] => s

/-- A non-zero OP written by window w on the partition of tenant t (R430, R434, R445). -/
def canopyOp (w t op : Nat) (all : Bool) (s : State) : State :=
  let x := win s w
  if op = 0 ∨ op > 3 then s
  else if x.canopyBusy then modWin w (fun x => { x with canopyOverrun := true }) s
  else
    let s1 := modWin w (fun x => { x with canopyErr := 0 }) s
    if fenced s 18 then maintDone w 1 s1
    else if !all ∧ x.canopyLen = 0 then maintDone w 0 s1
    else
      let m : Maint := ⟨w, op, all, x.canopyBase / 64 * 64, x.canopyLen.toNat, false, false, s.clk,
        maintCover s t, s.canopy.nextFill⟩
      maintStart t (setQueue t (maintQueue s t ++ [m]) (modWin w (fun x => { x with canopyBusy := true }) s1))

/-- Fills that an operation has reached are still in flight: the sequencer may not clear BUSY yet (R432). -/
def doomedFills (s : State) (t : Nat) : Bool := s.canopy.fills.any fun f => f.t == t && (f.doomed != 0 || f.back)

/-- Maintenance is busy on a tenant (R434): the guard of table 0x0D. -/
def maintBusy (s : State) (t : Nat) : Bool := maintQueue s t != []

/-- A row of table 0x0D is written: its generation moves on, its lines and dirty data are gone, its counter is 0
(R423, R428). -/
def windowRewritten (t w : Nat) (s : State) : State :=
  let k := 8 * t + w
  { s with canopy := { s.canopy with
    gens := tput s.canopy.gens k (genOf s t w + 1),
    lines := s.canopy.lines.filter (fun e => !(e.1 / 1024 == t && e.2.win == w)),
    stream := tput s.canopy.stream k (0, 0) } }

/-- A tenant reset invalidates the partition without write-back and ends its operations (R156, R446). -/
def partitionReset (t : Nat) (s : State) : State :=
  let mgmt := (maintQueue s t).any fun m => m.win == 0
  let s1 := { s with canopy := { s.canopy with
    lines := s.canopy.lines.filter (fun e => e.1 / 1024 != t),
    fills := s.canopy.fills.filter (fun f => f.t != t), reads := s.canopy.reads.filter (fun r => r.t != t),
    stream := s.canopy.stream.filter (fun e => e.1 / 8 != t) } }
  let s2 := setQueue t [] s1
  if mgmt then maintDone 0 0 s2 else s2

/-! ### Scratch ways (R436 to R439) -/

/-- The next way is converted: dirty sectors written back, the lines gone, the way zero-filled and counted (R437). -/
def convertWay (s : State) : State :=
  let k := s.canopy.ways
  let way := 15 - k
  if k ≥ pn s 0x510000 then s
  else
    let mine := s.canopy.lines.filter fun e => e.1 % 16 == way
    let s1 := forEach mine (fun (key, l) s => writeBackLine (key / 1024) l 15 s) s
    { s1 with
      canopy := { s1.canopy with lines := s1.canopy.lines.filter (fun e => e.1 % 16 != way), ways := k + 1 },
      scratch := s1.scratch.filter (fun c => c.1 / 65536 != k) }

/-- Ways above the new number return to the cache and lose their contents (R438). -/
def returnWays (n : Nat) (s : State) : State :=
  { s with
    canopy := { s.canopy with ways := min s.canopy.ways n },
    scratch := s.scratch.filter (fun c => c.1 / 65536 < n) }

/-- The least SCRATCH_WAYS a write may store: one more than the highest claimed scratch way (R438). -/
def claimedFloor (s : State) : Nat := (s.canopy.storeWays ++ s.canopy.pairWays).foldl (fun m k => max m (k + 1)) 0

/-- Scratch ways converted and unclaimed, lowest first (R439). -/
def freeWays (s : State) : List Nat :=
  (List.range s.canopy.ways).filter fun k => !(s.canopy.storeWays ++ s.canopy.pairWays).contains k

/-- SCRATCH_STAT (Table 4.7). -/
def scratchStat (s : State) : Nat :=
  s.canopy.storeWays.length + 16 * s.canopy.pairWays.length + 256 * s.canopy.ways

end Sys2Proof.Machine
end

