-- ==== Sys2Proof/Machine/Glade.lean ====
section
/-! DEFINITION. The Glade (chapter 1): cells, quotas, admission, references; port and ring statistics; XOFF of port
classes (R252 to R254); and the class queues of the ports. -/

set_option Elab.async false

namespace Sys2Proof.Machine

/-! ### Statistics rows (R207, R270) -/

/-- Add n to 40-bit counter i of a statistics row of len words; a counter that reaches its top sets its SAT bit (R65). The answer says
whether a SAT bit has just set. -/
def countRow (ws : List Word) (len i n : Nat) : List Word × Bool :=
  let ws := ws ++ List.replicate (len - ws.length) 0
  let c := (ws.getD (2 * i) 0).toNat + 2 ^ 24 * bits (ws.getD (2 * i + 1) 0).toNat 0 16
  let c1 := stick 40 c n
  let sat := (ws.getD (len - 1) 0).toNat
  let top := decide (c1 = 2 ^ 40 - 1) && decide (0 < n)
  let ws1 := setAt (setAt ws (2 * i) (word c1)) (2 * i + 1) (word (c1 / 2 ^ 24))
  (if top then setAt ws1 (len - 1) (word (putBits sat i 1 1)) else ws1, top && !bitOf sat i)

/-- Add n to counter i of Table 8.4 for port p; source 33 is raised when its SAT bit sets. -/
def countPort (p i n : Nat) (s : State) : State :=
  let r := countRow (rowAt s 0x0A 0 p) 49 i n
  let s1 := putRow 0x0A 0 p r.1 s
  if r.2 then raise 0 33 s1 else s1

/-- Add n to counter i of Table 6.6 for ring r of tenant t; source 50 is raised when its SAT bit sets. -/
def countRing (t r i n : Nat) (s : State) : State :=
  let c := countRow (rowAt s 0x0B t r) 9 i n
  let s1 := putRow 0x0B t r c.1 s
  if c.2 then raise (t + 1) 50 s1 else s1

/-! ### Cells and quotas (R12, R137 to R141) -/

/-- Cells a frame with its tag occupies (chapter 1). -/
def cellsFor (len : Nat) : Nat := (len + 12 + 255) / 256

/-- Cells frames hold. -/
def usedCells (s : State) : Nat := (s.frames.map fun f => f.2.ncells).sum

/-- Cells of the banks in service. -/
def allCells (s : State) : Nat :=
  12288 * ((List.range 4).filter fun b => !fenced s (8 + b)).length

/-- Free cells (R17, R601). -/
def freeCells (s : State) : Nat := allCells s - usedCells s

/-- GLADE_USED of tenant t (R137). -/
def gladeUsed (s : State) (t : Nat) : Nat :=
  ((s.frames.filter fun f => f.2.charge == some t).map fun f => f.2.ncells).sum

/-- GLADE_QUOTA of tenant t. -/
def quota (s : State) (t : Nat) : Nat := pn s (0x030000 + 256 * t)

/-- Cells the four tenants still have reserved: H of R138. -/
def reserved (s : State) : Nat := ((List.range 4).map fun t => quota s t - gladeUsed s t).sum

/-- A frame of so many cells with this charge is admitted (R138). -/
def admits (s : State) (charge : Option Nat) (need : Nat) : Bool :=
  match charge with
  | some t => decide (gladeUsed s t + need ≤ quota s t) && decide (need ≤ freeCells s)
  | none => decide (need + reserved s ≤ freeCells s)

/-- The first cell at or after c that is free and in no fenced bank. -/
def nextFree (s : State) (used : List Nat) : Nat → Nat → Nat
  | 0, c => c
  | fuel + 1, c =>
    let c := c % 49152
    if used.contains c || fenced s (8 + c / 12288) then nextFree s used fuel (c + 1) else c

/-- n cells, each a free choice among the free cells of the banks in service (R601). -/
def pickCells (s : State) : Nat → List Nat → List Nat
  | 0, acc => acc
  | n + 1, acc =>
    let used := s.frames.flatMap (fun f => f.2.cells) ++ acc
    pickCells s n (nextFree s used 49152 (Config.freeNat (s.free + n)) :: acc)

/-- GLADE_PEAK follows GLADE_USED (R141). -/
def peak (s : State) : State :=
  forAll 4 (fun t s =>
    let id := 0x030002 + 256 * t
    if gladeUsed s t > pn s id then setPw id (gladeUsed s t) s else s) s

/-- A frame enters the Glade under the next frame number, once for all its references (R14). -/
def takeIn (f : GFrame) (s : State) : State :=
  let s1 := { s with
    frames := tput s.frames s.nextFrame { f with cells := pickCells s f.ncells [] },
    nextFrame := s.nextFrame + 1, free := s.free + f.ncells }
  perfAdd 0x040003 f.ncells (perfAdd 0x040001 1 (peak s1))

/-- The frame of a number. -/
def frame (s : State) (id : Nat) : GFrame := tget s.frames id ⟨[], [], 0, [], 0, none, none, 0⟩

/-- LEN of a tag (Table 1.2). -/
def tagLen (tag : List Word) : Nat := bits (tag.getD 0 0).toNat 0 14

/-- TC of a tag (Table 1.2). -/
def tagTc (tag : List Word) : Nat := bits (tag.getD 1 0).toNat 21 3

/-! ### XOFF (R252 to R254); class 8 stands for 802.3x pause -/

/-- Cells held by frames received on port p with tag TC c, over all classes for c = 8 (R252). -/
def classCells (s : State) (p c : Nat) : Nat :=
  ((s.frames.filter fun f => f.2.port == some p && (c == 8 || tagTc f.2.tag == c)).map fun f => f.2.ncells).sum

/-- The port sends flow control for a class (R251). -/
def sendsFlow (s : State) (p c : Nat) : Bool := bitOf (pn s (0x100004 + 256 * p)) (if c = 8 then 0 else c + 8)

/-- Flow-control classes of a frame of tag TC c. -/
def flowClasses (c : Nat) : List Nat := [c, 8]

/-- A class enters XOFF, and its frame falls due (R253, R254). -/
def xoffEnter (p c : Nat) (refused : Option (Option Nat)) (s : State) : State :=
  if sendsFlow s p c && !((port s p).xoff.any fun e => e.1 == c) then
    modPort p (fun x => { x with xoff := tput x.xoff c { refused := refused, sentAt := s.clk },
                                  ctlDue := tput x.ctlDue c 0xFFFF }) s
  else s

/-- After an admission or a refusal of a frame received on p with TC c (R253). -/
def xoffJudge (p c : Nat) (refused : Option (Option Nat)) (s : State) : State :=
  forEach (flowClasses c) (fun k s =>
    if refused.isSome || decide (classCells s p k ≥ pn s (0x100005 + 256 * p)) then xoffEnter p k refused s else s) s

/-- A class leaves XOFF when its cells have fallen to PFC_XON and, after a refusal, a maximum frame charged alike would
be admitted (R253). -/
def xoffLeave (p : Nat) (s : State) : State :=
  forEach (port s p).xoff (fun (c, x) s =>
    let room := match x.refused with
      | none => true
      | some ch => admits s ch 37
    if decide (classCells s p c ≤ pn s (0x100006 + 256 * p)) && room then
      modPort p (fun y => { y with xoff := y.xoff.filter (fun e => e.1 != c), ctlDue := tput y.ctlDue c 0 }) s
    else s) s

/-- Every port in XOFF is judged again: cells or quotas have changed. -/
def xoffReview (s : State) : State :=
  forEach (s.ports.filter fun e => e.2.xoff != []) (fun (p, _) s => xoffLeave p s) s

/-- One reference of a frame completes; the last one frees its cells in the same step (R15). -/
def release (id : Nat) (s : State) : State :=
  let f := frame s id
  if f.refs ≤ 1 then xoffReview { s with frames := s.frames.filter (fun e => e.1 != id) }
  else { s with frames := tput s.frames id { f with refs := f.refs - 1 } }

/-! ### Class queues -/

/-- The class queue c of port p. -/
def queueOf (s : State) (p c : Nat) : List EgItem := tget (port s p).queues c []

/-- s with a class queue. -/
def setClassQueue (p c : Nat) (q : List EgItem) (s : State) : State :=
  modPort p (fun x => { x with queues := tput x.queues c q }) s

/-- Queue an item on class c of port p. -/
def enqueue (p c : Nat) (i : EgItem) (s : State) : State := setClassQueue p c (queueOf s p c ++ [i]) s

/-- An item belongs to ring r of tenant t. -/
def ofRing (t r : Nat) (i : EgItem) : Bool :=
  match i.origin with
  | .tenant a b _ _ _ _ _ => a == t && b == r
  | _ => false

/-- Remove from every class queue the items that satisfy a test; their references complete (R28). -/
def dropItems (test : EgItem → Bool) (s : State) : State :=
  let gone := s.ports.flatMap fun e => e.2.queues.flatMap fun q => q.2.filter test
  let s1 := { s with ports := s.ports.map fun e =>
    (e.1, { e.2 with queues := e.2.queues.map fun q => (q.1, q.2.filter fun i => !test i) }) }
  forEach gone (fun i s => release i.frame s) s1

end Sys2Proof.Machine
end

