-- ==== Sys2Proof/Machine/Rings.lean ====
section
/-! DEFINITION. Descriptor rings (chapter 6): geometry, write-back, completion events, flush and stop. Fetching and the
commands stand in Machine/RingEngine.lean. -/

set_option Elab.async false

namespace Sys2Proof.Machine

/-- Number of slots N = 2^SIZE_LOG2 of a ring (R168). -/
def ringN (s : State) (t r : Nat) : Nat := 2 ^ bits (rowWord s 0x01 t r 3) 0 5

/-- Host address of a ring's slot 0 (Table 6.5). -/
def ringBase (s : State) (t r : Nat) : Nat :=
  rowWord s 0x01 t r 0 / 64 * 64 + rowWord s 0x01 t r 1 * 2 ^ 24 + bits (rowWord s 0x01 t r 2) 0 16 * 2 ^ 48

/-- Rings 68 to 131 are RX rings (Table 4.9). -/
def isRx (r : Nat) : Bool := decide (68 ≤ r)

/-- Slots from one position to another: (b - a) mod 2N (R172). -/
def dist (n a b : Nat) : Nat := (b + 2 * n - a) % (2 * n)

/-- The position k slots on. -/
def adv (n p k : Nat) : Nat := (p + k) % (2 * n)

/-- Host address of a position's slot. -/
def slotAddr (s : State) (t r p : Nat) : Nat := ringBase s t r + 16 * (p % ringN s t r)

/-- Dword 0 of an entry's first slot (Table 6.1). -/
def entryDw0 (e : Entry) : Nat := ((e.slots.getD 0 []).getD 0 0).toNat

/-- Dword j of slot i of an entry. -/
def entryDw (e : Entry) (i j : Nat) : Nat := ((e.slots.getD i []).getD j 0).toNat

/-- The entry's CMPL_EVENT. -/
def cmplEvent (e : Entry) : Bool := bitOf (entryDw0 e) 23

/-- The interrupt source of a ring's completion events (Table 6.4). -/
def cmplSource (r : Nat) : Nat := if isRx r then 9 + (r - 68) / 4 else if 64 ≤ r then 8 else 25 + r / 4

/-- TX status codes (Table 7.5). -/
inductive TxStatus where
  | sent | barred | flushed | linkDown | ecc | aborted | launchMissed | launchRange
  deriving DecidableEq, Repr

/-- The code of a TX status (Table 7.5). -/
def TxStatus.code : TxStatus → Nat
  | .sent => 0
  | .barred => 1
  | .flushed => 2
  | .linkDown => 3
  | .ecc => 4
  | .aborted => 5
  | .launchMissed => 6
  | .launchRange => 7

/-- The first slot of a TX entry as written back (Table 7.4): ts is the egress timestamp in ns, when valid. -/
def txWriteBack (e : Entry) (st : TxStatus) (ts : Option Nat) : List Byte :=
  let d := entryDw0 e
  let d0 := putBits (putBits (putBits d 31 1 0) 15 4 st.code) 14 1 (if ts.isSome then 1 else 0)
  match ts with
  | some ns => leBytes 4 d0 ++ leBytes 4 (entryDw e 0 1) ++ leBytes 4 (ns % 1000000000)
      ++ leBytes 4 (ns / 1000000000)
  | none => leBytes 4 d0 ++ leBytes 4 (entryDw e 0 1) ++ leBytes 4 (entryDw e 0 2) ++ leBytes 4 (entryDw e 0 3)

/-- Change the entry at a position of a ring. -/
def modEntry (t r pos : Nat) (f : Entry → Entry) (s : State) : State :=
  modRing t r (fun x => { x with entries := x.entries.map fun e => if e.pos = pos then f e else e }) s

/-- The buffer of an RX entry in host memory: address and length (Table 7.6). -/
def rxBuffer (e : Entry) : Nat × Nat := (entryDw e 0 2 + entryDw e 0 3 * 2 ^ 32, bits (entryDw e 0 1) 0 16)

/-- An entry is finished and its write-back may go: an RX entry waits while a partial write to its buffer still waits for
its sector (R193, R429). -/
def wbReady (s : State) (t r : Nat) (e : Entry) : Bool :=
  e.stage == .done && !(isRx r && e.kind != 0 && mergeWaits s t (rxBuffer e).1 (rxBuffer e).2)

/-- The entries whose write-backs travel in the next posted write: done, contiguous in host memory, at most 256 bytes,
not across the ring end, and ending with the first CMPL_EVENT (R192). -/
def wbGroup (n : Nat) : List Entry → Nat → List Entry
  | [], _ => []
  | e :: es, used =>
    if e.stage ≠ .done ∨ used + e.wb.length > 256 then []
    else
      let full := decide (16 * e.len = e.wb.length) && decide (e.pos % n + e.len < n)
      if cmplEvent e || !full then [e] else e :: wbGroup n es (used + e.wb.length)

/-- A group is sent at once unless a contiguous successor may still join it (R192). -/
def wbNow (n : Nat) (g : List Entry) (next : Option Entry) : Bool :=
  match g.getLast? with
  | none => false
  | some e =>
    cmplEvent e || decide (16 * e.len ≠ e.wb.length) || decide (e.pos % n + e.len ≥ n)
      || decide ((g.map fun e => e.wb.length).sum ≥ 241)
      || (match next with
          | some f => f.stage == .done
          | none => false)

/-- Ring engine t performs k steps: they count as cycles at once, and the time they take is not counted again as it passes
(R468, R469). -/
def engineSteps (t k : Nat) (s : State) : State :=
  if countsEngine s then
    let u := 0x030000 + 256 * t
    let s1 := perfAdd (u + 1) k (modTen t (fun x => { x with ahead := x.ahead + k }) s)
    if inFlight s t then perfAdd (u + 9) k s1 else s1
  else s

/-- k steps for an entry, which holds their cycles; f is what else they change in it (R469). -/
def entrySteps (t r pos k : Nat) (f : Entry → Entry) (s : State) : State :=
  engineSteps t k (modEntry t r pos (fun e => { f e with cycles := e.cycles + k }) s)

/-- Step cycles held for slots. -/
def slotCycles (l : List Slot) : Nat := (l.map (·.cycles)).sum

/-- Held step cycles become VOID (R468, R469). -/
def voidCycles (t k : Nat) (s : State) : State := perfAdd (0x030003 + 256 * t) k s

/-- Only the slots that a test selects are kept; the cycles held for the others become VOID (R469). -/
def keepSlots (t r : Nat) (test : Slot → Bool) (s : State) : State :=
  voidCycles t (slotCycles ((ring s t r).slots.filter fun y => !test y))
    (modRing t r (fun x => { x with slots := x.slots.filter test }) s)

/-- Settle an entry's step cycles in the cycle ledger (R469). -/
def ledger (t : Nat) (e : Entry) (s : State) : State :=
  perfAdd (0x030000 + 256 * t + (if e.useful then 2 else 3)) e.cycles s

/-- Hand a group of write-backs to the host link as one posted write: received data first (R429), the head advances
past the entries (R180), and completion events are raised (R194). -/
def handOver (t r : Nat) (g : List Entry) (s : State) : State :=
  match g with
  | [] => s
  | e :: _ =>
    let n := ringN s t r
    let total := (g.map fun e => e.len).sum
    let s1 := forEach g (fun e s =>
      if isRx r && e.kind != 0 then
        cleanRange t (rxBuffer e).1 (rxBuffer e).2 s
      else s) s
    let s2 := entryWrite t (slotAddr s t r e.pos) (g.flatMap fun e => e.wb) s1
    let s3 := modRing t r (fun x => { x with
      entries := x.entries.drop g.length, head := adv n x.head total, heldAt := none }) s2
    forEach g (fun e s =>
      let s := ledger t e s
      if cmplEvent e then raise (t + 1) (cmplSource r) s else s) s3

/-- Send the finished write-backs of a ring in ring order, as many as may go (R191, R192). -/
def drainLoop (t r : Nat) (force : Bool) : Nat → State → State
  | 0, s => s
  | fuel + 1, s =>
    let x := ring s t r
    let g := wbGroup (ringN s t r) (x.entries.takeWhile (wbReady s t r)) 0
    if g = [] then s
    else if force || wbNow (ringN s t r) g (x.entries[g.length]?) then
      drainLoop t r force fuel (handOver t r g s)
    else if x.heldAt.isSome then s
    else modRing t r (fun x => { x with heldAt := some s.clk }) s

/-- The position after the last entry in flight. -/
def entriesEnd (x : Ring) (n : Nat) : Nat :=
  match x.entries.getLast? with
  | some e => adv n e.pos e.len
  | none => x.head

/-- The slots held without a gap from a position on. -/
def runFrom (n : Nat) : Nat → List Slot → List Slot
  | _, [] => []
  | p, y :: ys => if y.pos = p then y :: runFrom n (adv n p 1) ys else []

/-- The slots held of the entries still to parse, up to the first one missing. -/
def slotRun (x : Ring) (n : Nat) : List Slot := runFrom n (entriesEnd x n) x.slots

/-- An entry's length in slots at a position: SLOTS + 1, or to the ring end for a PAD (Table 6.1, R171). -/
def entryLen (n p dw0 : Nat) : Nat := if bits dw0 24 4 = 0 then n - p % n else bits dw0 28 3 + 1

/-- The head entry is known to reach beyond the tail (R183). -/
def coverWait (x : Ring) (n : Nat) : Bool :=
  match slotRun x n with
  | f :: _ =>
    let dw0 := (f.dw.getD 0 0).toNat
    bitOf dw0 31 && decide (dist n x.head f.pos + entryLen n f.pos dw0 > dist n x.head x.tail)
  | [] => false

/-- The fetch clock runs while the head entry is awaited and the ring is served; it stands still otherwise, and is back at
0 once the head entry is usable (R210). DESIGN CHOICE (assumption 53): it is at 0 too when the ring is empty, and stands
still during a flush and while the frame path does not serve. -/
def clockFix (t r : Nat) (s : State) : State :=
  let x := ring s t r
  let n := ringN s t r
  let runs := frameService s && x.enable && !x.stop && !x.flush && (ten s t).engineEn && !coverWait x n
  modRing t r (fun x =>
    if x.entries != [] || x.head == x.tail then { x with clockAt := none, clockHeld := 0 }
    else match x.clockAt with
      | some a => if runs then x else { x with clockAt := none, clockHeld := x.clockHeld + (s.clk - a) }
      | none => if runs then { x with clockAt := some s.clk } else x) s

/-- Nothing of the ring is in progress: no entry started and unfinished, nothing to write back. -/
def ringQuiet (x : Ring) : Bool := x.entries.all fun e => e.stage == .fetched

/-- STOPPED sets once a stopped ring has nothing in progress (R201). -/
def stopCheck (t r : Nat) (s : State) : State :=
  let x := ring s t r
  if x.stop && ringQuiet x then modRing t r (fun x => { x with stopped := true }) s else s

/-- Send finished write-backs; force sends the held ones too. The head may have moved: the fetch clock follows. -/
def drain (t r : Nat) (force : Bool) (s : State) : State :=
  stopCheck t r <| clockFix t r (drainLoop t r (force || (ring s t r).flush || (ring s t r).stop) ((ring s t r).entries.length + 1) s)

/-- A TX entry finishes with a status (R224, R225): counted, and written back in ring order. len is the tag LEN. -/
def finishTx (t r pos : Nat) (st : TxStatus) (len : Nat) (ts : Option Nat) (s : State) : State :=
  match (ring s t r).entries.find? (fun e => e.pos == pos) with
  | none => s
  | some e =>
    let s1 := entrySteps t r pos 1 (fun x => { x with
      stage := .done, wb := txWriteBack e st ts, useful := decide (st = .sent) }) s
    let s2 := if st = .sent then countRing t r 1 len (countRing t r 0 1 s1) else countRing t r 2 1 s1
    drain t r false s2

/-- An egress item or staged frame of a tenant finishes with a status; any other origin has no entry. -/
def finishOrigin (o : Origin) (st : TxStatus) (len : Nat) (ts : Option Nat) (s : State) : State :=
  match o with
  | .tenant t r pos tsReq _ _ _ => finishTx t r pos st len (if tsReq && st == .sent then ts else none) s
  | _ => s

/-- A read for the ring makes RECOVERING hold: outstanding for 100 µs or more, or a descriptor read reissued (R212). -/
def readsLong (s : State) (t r : Nat) : Bool :=
  (match (ring s t r).read with
    | some d => d.reissued || decide (d.since + us 100 ≤ s.clk)
    | none => false)
    || (ten s t).staging.any fun f => f.ring == r && !f.complete && decide (f.readAt + us 100 ≤ s.clk)

/-- RECOVERING clears once no read for the ring makes it hold (R212); the reads of a request the link replays are seen in
ringStat. -/
def recoverFix (t r : Nat) (s : State) : State :=
  modRing t r (fun x => { x with recovering := x.recovering && readsLong s t r }) s

/-- Discard every prefetched slot of a ring (R188) and every entry from the first that nothing has begun, PADs behind it
included: the head stays at that entry, which is read again (R201, R202). The reads the ring has outstanding go with them.
DESIGN CHOICE (assumption 53): an entry delayed by OWN = 0 that is discarded so and read again counts in ANOMALIES once
more when it is again delayed (R184). -/
def dropFetched (t r : Nat) (s : State) : State :=
  let lost := (ring s t r).entries.dropWhile fun e => e.stage != .fetched
  let held := (lost.map (·.cycles)).sum + slotCycles (ring s t r).slots + ((ring s t r).read.map (·.cycles)).getD 0
  voidCycles t held <|
  recoverFix t r (readDrop t r (modRing t r (fun x => { x with
    slots := [], preDue := none, read := none, ownWait := none, ownCounted := false,
    entries := x.entries.takeWhile fun e => e.stage != .fetched }) s))

/-- Discard the slots of a ring that were read beyond its tail, those of a read still outstanding included (R188). -/
def dropPrefetched (t r : Nat) (s : State) : State :=
  match (ring s t r).read with
  | some d => if d.beyond then
      recoverFix t r (readDrop t r (keepSlots t r (fun y => !y.pre) (voidCycles t d.cycles
        (modRing t r (fun x => { x with preDue := none, read := none }) s))))
    else keepSlots t r (fun y => !y.pre) (modRing t r (fun x => { x with preDue := none }) s)
  | none => keepSlots t r (fun y => !y.pre) (modRing t r (fun x => { x with preDue := none }) s)

/-- The class-queue items of a ring complete as discarded, and their entries finish with a status. -/
def dropQueued (t r : Nat) (st : TxStatus) (s : State) : State :=
  let mine := s.ports.flatMap fun e => e.2.queues.flatMap fun q => q.2.filter (ofRing t r)
  forEach mine (fun i s => finishOrigin i.origin st 0 none s) (dropItems (ofRing t r) s)

/-- RX references queued to a ring complete as discarded; DISCARDS counts each (R202). -/
def dropRefs (t r : Nat) (s : State) : State :=
  let refs := (ring s t r).refs
  forEach refs (fun id s => countRing t r 2 1 (release id s)) (modRing t r (fun x => { x with refs := [] }) s)

/-- Start a flush of a ring (R202): fetching stops, frames in staging and class queues are discarded as FLUSHED, frames
in an egress stage or on the wire go on, RX references complete as discarded. -/
def flushStart (t r : Nat) (s : State) : State :=
  let staged := (ten s t).staging.filter fun f => f.ring == r
  let s1 := modRing t r (fun x => { x with flush := true }) s
  let s2 := dropFetched t r s1
  let s3 := recoverFix t r (modTen t (fun x => { x with staging := x.staging.filter fun f => f.ring != r }) s2)
  let s4 := forEach staged (fun f s => finishTx t r f.pos .flushed 0 none (readDrop t 200 s)) s3
  drain t r true (dropRefs t r (dropQueued t r .flushed s4))

/-- A flush is complete when every write-back it requires is handed over: tail = head, FLUSH_DONE (R203). -/
def flushEnd (t r : Nat) (s : State) : State :=
  let s1 := drain t r true s
  let x := ring s1 t r
  if x.flush && x.entries == [] then
    stopCheck t r (clockFix t r
      (modRing t r (fun x => { x with flush := false, flushBit := false, flushDone := true, tail := x.head }) s1))
  else s1

/-- A flush that leaves nothing to write back is complete at once (R203). -/
def flushNow (t r : Nat) (s : State) : State := flushEnd t r (flushStart t r s)

/-- The work of a ring at the start of a tenant reset (R156 steps 1 to 3): reads are abandoned, write-backs not yet issued
are dropped, queued references and frames not yet whole in an egress stage are discarded and counted. A frame that is
whole there is sent; its entry is gone. -/
def ringAbandon (t r : Nat) (s : State) : State :=
  let staged := (ten s t).staging.filter fun f => f.ring == r
  let queued := s.ports.flatMap fun e => e.2.queues.flatMap fun q => q.2.filter (ofRing t r)
  let s1 := readDrop t 200 (dropFetched t r s)
  let s2 := modTen t (fun x => { x with staging := x.staging.filter fun f => f.ring != r }) s1
  let s3 := countRing t r 2 (staged.length + queued.length) s2
  let s4 := voidCycles t ((ring s3 t r).entries.map (·.cycles)).sum (dropRefs t r (dropItems (ofRing t r) s3))
  modRing t r (fun x => { x with
    enable := false, flush := false, flushBit := false, entries := [], heldAt := none, clockAt := none, clockHeld := 0,
    recovering := false }) s4

end Sys2Proof.Machine
end

