-- ==== Sys2Proof/Machine/Channels.lean ====
section
/-! DEFINITION. The transfer channels as the links and the tenants see them (chapter 13): owners, host reads and the buffer
share, bursts, closing reads and ends, and how a host link divides its requests (R396, R398, R405, R408 to R412, R414,
R415). -/

set_option Elab.async false

namespace Sys2Proof.Machine

/-! ### Ownership -/

/-- The owner of a channel (Table 13.1). -/
inductive Owner where
  | mgmt
  | pairing
  | tenant (t : Nat)
  deriving DecidableEq, Repr

/-- The tenant that a value of PAIR_ASSIGN gives channel pair p, when valid (R396). -/
def pairOf (v p : Nat) : Option Nat := if bitOf v (3 * p + 2) then some (bits v (3 * p) 2) else none

/-- The tenant that owns channel pair p (R396). -/
def pairOwner (s : State) (p : Nat) : Option Nat := pairOf (pn s 0x500000) p

/-- The owner of channel c (Table 13.1). -/
def chanOwner (s : State) (c : Nat) : Owner :=
  if c < 6 then .mgmt
  else if c < 8 then (if bitOf (pn s 0x700000) 0 then .pairing else .mgmt)
  else match pairOwner s ((c - 8) / 2) with
    | some t => .tenant t
    | none => .mgmt

/-- The channel pair of tenant t, when one is assigned (Table 3.24). -/
def tenantPair (s : State) (t : Nat) : Option Nat := (List.range 4).find? fun p => pairOwner s p == some t

/-! ### The control word of a channel (Table 3.15) -/

/-- The link of a channel's host-memory accesses: a tenant's own (R90), else HOST. -/
def chanHost (s : State) (c : Nat) : Nat :=
  match chanOwner s c with
  | .tenant t => t
  | _ => bits (chan s c).ctl 16 2

/-- SRC_SPACE. -/
def srcSpace (x : Chan) : Nat := bits x.ctl 21 3

/-- DST_SPACE. -/
def dstSpace (x : Chan) : Nat := bits x.ctl 18 3

/-- SG. -/
def chanSg (x : Chan) : Bool := bitOf x.ctl 3

/-- PACE. -/
def chanPace (x : Chan) : Nat := bits x.ctl 4 2

/-- PAUSE. -/
def chanPause (x : Chan) : Bool := bitOf x.ctl 1

/-- Bytes of a paced burst: BURST 7 acts as 6 (R406). -/
def burstBytes (x : Chan) : Nat := 64 * 2 ^ min 6 (bits x.ctl 7 3)

/-! ### Ends (R408, R409, R412) -/

/-- A channel ends: DONE, BUSY and START clear, ERR and ERROR; with an error its registers go back to the start of the
earliest burst not complete; its interrupt sources are raised (R408, R409, R412). -/
def endChan (c err : Nat) (s : State) : State :=
  let x := chan s c
  let irq := bitOf x.ctl 10
  let back := decide (err ≠ 0)
  let s1 := modChan c (fun x => { x with
    src := if back then x.mark.1 else x.src, dst := if back then x.mark.2.1 else x.dst,
    count := if back then x.mark.2.2.1 else x.count, elem := if back then x.mark.2.2.2 else x.elem,
    ctl := putBits x.ctl 0 1 0, err := err, error := x.error || back, paused := false, done := true,
    busy := false, piece := none, pieces := [], reads := [], toRead := 0, bursts := [], wrote := false, moved := false,
    ending := none, yielded := false }) s
  match chanOwner s c with
  | .tenant t =>
    let k := c % 2
    let s2 := if irq then raise (t + 1) (41 + k) s1 else s1
    if back then raise (t + 1) (43 + k) s2 else s2
  | .mgmt => if irq || back then raise 0 21 s1 else s1
  | .pairing => s1

/-- End a channel with ABORTED when it is running, without waiting for its host link: a reset, a fence, the device safe
state or sleep (Table 13.5). -/
def abortChan (c : Nat) (s : State) : State := if (chan s c).busy then endChan c 9 s else s

/-- End the running channels of tenant t's pair with ABORTED, as a tenant reset does. -/
def abortPair (t : Nat) (s : State) : State :=
  match tenantPair s t with
  | some p => abortChan (9 + 2 * p) (abortChan (8 + 2 * p) s)
  | none => s

/-- Where the earliest incomplete burst starts: here, when a burst has just been written out or none is begun. It is confirmed
too when no host write is open (R412). -/
def chanMark (c : Nat) (whole : Bool) (s : State) : State :=
  modChan c (fun x =>
    let now := (x.src, x.dst, x.count, x.elem)
    let edge := if whole || x.bursts == [] then now else x.edge
    { x with edge := edge, mark := if x.wrote then x.mark else edge }) s

/-- A channel that has its reads back: it closes the host writes it has issued by a zero-length read, or ends at once where
the link issues none; one that is to end without open writes ends (R408, R410, R411). -/
def chanSettle (c : Nat) (s : State) : State :=
  let x := chan s c
  let stops := x.ending.isSome || x.moved || ((chanPause x || x.yielded) && x.piece.isNone)
  if !x.busy || x.reads != [] || !stops then s
  else if x.wrote then
    (if !canIssue s (chanHost s c) then endChan c (x.ending.getD 4) s
    else perfAdd (0x0A0001 + 256 * chanHost s c) 1 (modChan c (fun x => { x with reads := [(.closing, s.clk)] }) s))
  else match x.ending with
    | some e => endChan c e s
    | none => s

/-- A channel must end with an error: it issues no further read, its reads come back unused, its writes are closed, and then
it ends. The first cause stands (R408, R411). -/
def endWith (c err : Nat) (s : State) : State :=
  chanSettle c (modChan c (fun x => { x with ending := some (x.ending.getD err), toRead := 0, paused := false }) s)

/-- A running channel ends with ABORTED as R411 has it: ABORT, a tenant fault or a change of owner. -/
def abortReq (c : Nat) (s : State) : State := if (chan s c).busy then endWith c 9 s else s

/-- The running channels of tenant t's pair end with ABORTED on a tenant fault (R147). -/
def faultPair (t : Nat) (s : State) : State :=
  match tenantPair s t with
  | some p => abortReq (9 + 2 * p) (abortReq (8 + 2 * p) s)
  | none => s

/-! ### Reading ahead (R398, R402, R405, R406, R410) -/

/-- Bytes a read of source data asks for. -/
def ChanRead.bytes (r : ChanRead) : Nat :=
  match r with
  | .data n => n
  | _ => 0

/-- Bytes of source data asked for and not yet received: they fill the channel's share of the buffer (R398). -/
def ahead (x : Chan) : Nat := (x.reads.map fun r => r.1.bytes).sum

/-- The channel stops after the data it holds, and after its element in SG mode (R126, R410). -/
def draining (x : Chan) : Bool := chanPause x || x.yielded

/-- The next read is of a list element (R402). -/
def wantsElem (x : Chan) : Bool := chanSg x && x.piece.isNone

/-- Address of the next source data, and the bytes of the piece or block not yet asked for. -/
def nextData (x : Chan) : Nat × Nat :=
  match x.piece with
  | some (a, k, _) => (a + ahead x, 16 * min k x.count - ahead x)
  | none => (x.src + ahead x, 16 * x.count - ahead x)

/-- Bytes of the next request: within the burst in progress, or 512 outside one, and within the share. -/
def requestBytes (x : Chan) : Nat :=
  min (min (if x.toRead = 0 then 512 else x.toRead) (nextData x).2) (16384 - ahead x)

/-- The channel may issue a read, its pacing apart: it has something left to read and its share has room (R414). -/
def chanReads (x : Chan) : Bool :=
  x.busy && !x.moved && x.ending.isNone && x.reads.all (fun r => r.1.bytes != 0)
    && if wantsElem x then x.reads == [] && !draining x
      else decide (0 < requestBytes x) && (!draining x || x.piece.isSome)

/-- The channel must first sample its request line: it is paced and has no burst in progress (R406). -/
def needsLine (x : Chan) : Bool := chanPace x != 0 && x.toRead == 0 && !draining x

/-- A request of n bytes of source data is noted: a burst begins with it unless it belongs to one. -/
def noteRequest (n : Nat) (x : Chan) : Chan :=
  { x with toRead := x.toRead - n, bursts := if x.toRead = 0 then x.bursts ++ [n] else x.bursts }

/-- No new burst reads on: what the burst in progress has not read is taken off it. -/
def cutBurst (x : Chan) : Chan :=
  { x with toRead := 0, bursts :=
      if x.toRead = 0 then x.bursts
      else x.bursts.dropLast ++ (if x.bursts.getLastD 0 ≤ x.toRead then [] else [x.bursts.getLastD 0 - x.toRead]) }

/-- A host read of a channel is issued, or the link cannot: HOST_NO_RESPONSE (Table 13.5). -/
def issueRead (c : Nat) (r : ChanRead) (s : State) : State :=
  let t := chanHost s c
  if !canIssue s t then endWith c 4 s
  else
    let s1 := modLink t (fun l => { l with share := 0 }) (perfAdd (0x0A0001 + 256 * t) 1 s)
    { modChan c (fun x => { x with reads := x.reads ++ [(r, s.clk)] }) s1 with lastChan := c }

/-- Bytes a burst of channel c counts when it begins (Table 15.5). -/
def countBurst (c : Nat) (s : State) : State :=
  if (chan s c).toRead = 0 then perfAdd (0x070002 + 256 * c) 1 s else s

/-- The next host read of a channel: an element of the list, or source data of at most 512 bytes that crosses no 4 KiB
boundary (R402, R403, R405). -/
def hostRequest (c : Nat) (s : State) : State :=
  let x := chan s c
  if wantsElem x then (if x.elem ≥ 4096 then endWith c 3 s else issueRead c .elem s)
  else
    let n := min (min (requestBytes x) 512) (4096 - (nextData x).1 % 4096)
    issueRead c (.data n) (modChan c (noteRequest n) (countBurst c s))

/-! ### Arbitration (R414, R415) -/

/-- CH_PRIO of channel c. -/
def chPrio (s : State) (c : Nat) : Nat := pn s (0x500001 + 256 * c)

/-- Channel c comes before channel d: the lower CH_PRIO, then round robin from the channel last served (R414). -/
def chanBefore (s : State) (c d : Nat) : Bool :=
  decide (chPrio s c < chPrio s d)
    || (chPrio s c == chPrio s d && decide ((c + 15 - s.lastChan) % 16 ≤ (d + 15 - s.lastChan) % 16))

/-- Channel c has a host read ready for link t. -/
def waitsOn (s : State) (t c : Nat) : Bool :=
  let x := chan s c
  chanReads x && !needsLine x && srcSpace x == 0 && chanHost s c == t

/-- The channel whose request link t takes next. -/
def linkWaiting (s : State) (t : Nat) : Option Nat :=
  (List.range 16).find? fun c => waitsOn s t c && (List.range 16).all fun d => !waitsOn s t d || chanBefore s c d

/-- Ring engine t issues n requests, which take precedence over those of channels; but after 7 in a row with a channel
waiting the eighth is a channel's (R415). -/
def ringTurn (t : Nat) : Nat → State → State
  | 0, s => s
  | n + 1, s =>
    let s1 := match linkWaiting s t with
      | none => modLink t (fun l => { l with share := 0 }) s
      | some c =>
        let s0 := if (link s t).share ≥ 7 then hostRequest c s else s
        modLink t (fun l => { l with share := l.share + 1 }) s0
    ringTurn t n s1

end Sys2Proof.Machine
end

