-- ==== Sys2Proof/Machine/Tenancy.lean ====
section
/-! DEFINITION. Locks (R159 to R162), tenant fault and the fault ring (R145 to R154),
and tenant reset (R155 to R158). -/

set_option Elab.async false

namespace Sys2Proof.Machine

/-! ### Locks -/

/-- The lock-broken source of a window: 8 in M, 2 in a T window (R161). -/
def brokenSource (w : Nat) : Nat := if w = 0 then 8 else 2

/-- Every lock a window holds becomes free and BROKEN; every window waiting on one is signalled (R157, R161). -/
def breakLocks (w : Nat) (s : State) : State :=
  forAll 16 (fun k s =>
    let l := lock s k
    if l.owner = some w then
      forAll 5 (fun v s => if l.waiting.getLsbD v then raise v (brokenSource v) s else s)
        (modLock k (fun l => { l with owner := none, broken := true }) s)
    else s) s

/-- A lock operation of window w on lock k (Table 5.6): 1 ACQUIRE, 2 RELEASE, 3 CLEAR_BROKEN. -/
def lockOp (w k op : Nat) (s : State) : State :=
  let l := lock s k
  let mine := decide (l.owner = some w)
  let ok := fun (b : Bool) (s : State) => modWin w (fun x => { x with
    lastOk := if b then x.lastOk ||| BitVec.ofNat 16 (2 ^ k) else x.lastOk &&& ~~~BitVec.ofNat 16 (2 ^ k) }) s
  match op with
  | 1 =>
    let faulted := w != 0 && (ten s (w - 1)).fault != 0
    if mine || (l.owner.isNone && !faulted) then
      ok true (modLock k (fun l => { l with
        owner := some w, waiting := l.waiting &&& ~~~BitVec.ofNat 5 (2 ^ w) }) s)
    else ok false (modLock k (fun l => { l with waiting := l.waiting ||| BitVec.ofNat 5 (2 ^ w) }) s)
  | 2 => if mine then ok true (modLock k (fun l => { l with owner := none }) s) else ok false s
  | 3 => if mine then ok true (modLock k (fun l => { l with broken := false }) s) else ok false s
  | _ => s

/-- LOCK_STATE of a lock (Table 4.4). -/
def lockState (s : State) (k : Nat) : Nat :=
  let l := lock s k
  match l.owner with
  | some w => 1 + 2 * w + flag l.broken 4
  | none => flag l.broken 4

/-! ### The fault ring -/

/-- FAULT_RING_BASE of tenant t. -/
def frBase (s : State) (t : Nat) : Nat := pwide s (0x030003 + 256 * t) 3

/-- The 16 bytes of a fault record (Table 5.3). -/
def recordBytes (phase : Bool) (r : FaultRec) : List Byte :=
  leBytes 4 (flag phase 31 + r.cpl * 2 ^ 28 + r.seq * 2 ^ 24 + r.detail.toNat) ++ leBytes 4 r.arg0
    ++ leBytes 4 r.arg1 ++ leBytes 4 r.time

/-- The ring index and PHASE return to their start, at once or when the push in flight ends (R152). -/
def frRestart (t : Nat) (s : State) : State :=
  modTen t (fun x => if x.frPush.isSome then { x with frRestart := true }
    else { x with frIndex := 0, frPhase := true, frRestart := false }) s

/-- A restart asked for during the push that has just ended takes effect (R152). -/
def frSettle (t : Nat) (s : State) : State := if (ten s t).frRestart then frRestart t s else s

/-- A push fails: FAULT_RING_LOST sets with the record's word in T_FAULT_DETAIL, every waiting record is lost and counts
in LOST (R153, R154). -/
def pushFail (t : Nat) (r : FaultRec) (s : State) : State :=
  let x := ten s t
  let s1 := frSettle t (modTen t (fun x => { x with
    detail := r.detail, fault := x.fault ||| 1, lost := stick 4 x.lost x.frWait.length, frPush := none, frWait := [] }) s)
  let s2 := logFault 1 0 t (12 + t) 0 0 false s1
  let s3 := if x.fault = 0 then raise 0 (3 + t) s2 else s2
  if x.fault.getLsbD 0 then s3 else raise (t + 1) 1 s3

/-- Begin to push a record: one posted 16-byte write and a closing read, or failure at once (R152, R153). -/
def pushStart (t : Nat) (r : FaultRec) (s : State) : State :=
  if frBase s t = 0 ∨ !canIssue s t then pushFail t r s
  else
    let x := ten s t
    let s1 := post t (frBase s t + 16 * x.frIndex) (recordBytes x.frPhase r) s
    perfAdd (0x0A0001 + 256 * t) 1 (modTen t (fun x => { x with frPush := some (r, s.clk) }) s1)

/-! ### Tenant fault -/

/-- STOPPED sets when every ring of a faulted tenant has finished flushing; during a tenant reset it waits for the reset's
end (R147 step 7, R156). -/
def stoppedCheck (t : Nat) (s : State) : State :=
  if (ten s t).fault != 0 && !(ten s t).inReset && (ten s t).rings.all (fun e => !e.2.flush) then
    modTen t (fun x => { x with stopped := true }) s
  else s

/-- The actions on entering tenant fault that R149 does not repeat: engine and rings stop, locks break, every ring
flushes, channels end (R147). A ring with nothing to write back has flushed at once. -/
def faultActions (t : Nat) (s : State) : State :=
  let s1 := modTen t (fun x => { x with
    engineEn := false, rings := x.rings.map fun e => (e.1, { e.2 with enable := false }) }) s
  let s2 := forAll 132 (fun r s => if (ring s t r).flush then s else flushNow t r s) (breakLocks (t + 1) s1)
  stoppedCheck t (faultPair t s2)

/-- A tenant fault cause (R145, R147, R149): T_FAULT bit, ring as in T_FAULT_DETAIL, completion status and arguments;
info is the INFO of its fault log entry. -/
def tenantFault (t bit ringNo : Nat) (rx : Bool) (cpl arg0 arg1 info : Nat) (s : State) : State :=
  let x := ten s t
  let first := decide (x.fault = 0)
  let d := word (bit * 2 ^ 19 + ringNo * 2 ^ 12 + flag rx 11)
  let rec_ : FaultRec := ⟨d, cpl, x.frSeq, arg0, arg1, s.time.fixed % 2 ^ 32⟩
  let s1 := modTen t (fun x => { x with
    fault := x.fault ||| BitVec.ofNat 10 (2 ^ bit), frSeq := (x.frSeq + 1) % 16 }) s
  let s2 := logFault 1 bit t (12 + t) info 0 false s1
  let s3 := if x.fault.getLsbD 0 then modTen t (fun x => { x with lost := stick 4 x.lost 1 }) s2
    else
      let s' := modTen t (fun x => { x with detail := d }) s2
      if x.frPush.isSome then modTen t (fun x => { x with frWait := x.frWait ++ [rec_] }) s' else pushStart t rec_ s'
  let s4 := raise (t + 1) 1 s3
  let s5 := if bit = 1 then raise (t + 1) 4 s4 else s4
  let s6 := if first then raise 0 (3 + t) s5 else s5
  if first then faultActions t s6 else s6

/-- A push that fails outside a tenant fault enters it (R153): the actions of R147. -/
def pushFailEnter (t : Nat) (s : State) : State :=
  match (ten s t).frPush with
  | none => s
  | some (r, _) =>
    let first := decide ((ten s t).fault = 0)
    let s1 := pushFail t r s
    if first then faultActions t s1 else s1

/-- The push in flight ends well: the index moves on, and the next waiting record is pushed; when that push fails at once
and the driver has cleared T_FAULT meanwhile, it enters tenant fault (R152 to R154). -/
def pushGood (t : Nat) (s : State) : State :=
  let x := ten s t
  let n := 2 ^ pn s (0x030006 + 256 * t)
  let wrap := decide (x.frIndex + 1 ≥ n)
  let s1 := frSettle t (modTen t (fun x => { x with
    frPush := none, frIndex := if wrap then 0 else x.frIndex + 1,
    frPhase := if wrap then !x.frPhase else x.frPhase }) s)
  match x.frWait with
  | r :: rest =>
    let s2 := pushStart t r (modTen t (fun x => { x with frWait := rest }) s1)
    if x.fault = 0 ∧ (ten s2 t).fault ≠ 0 then faultActions t s2 else s2
  | [] => s1

/-- Clear causes of T_FAULT; clearing FAULT_RING_LOST zeroes LOST; with none left STOPPED clears (R91, R92, R150). A cause
that arises in the same cycle while FAULT_RING_LOST is 1 is lost: FAULT_RING_LOST stays 1 and LOST reads 1 (R92). -/
def faultClear (t : Nat) (mask : Nat) (cause : Option Nat) (s : State) : State :=
  let was := (ten s t).fault.getLsbD 0
  let s1 := modTen t (fun x => { x with
    fault := x.fault &&& ~~~BitVec.ofNat 10 mask, lost := if bitOf mask 0 then 0 else x.lost }) s
  let s2 := match cause with
    | none => s1
    | some b => tenantFault t b 0 false 0 0 0 0
        (if was then modTen t (fun x => { x with fault := x.fault ||| 1 }) s1 else s1)
  if (ten s2 t).fault = 0 then modTen t (fun x => { x with stopped := false }) s2 else s2

/-! ### Tenant reset -/

/-- Tenant t is held in tenant reset (R146, R158, R571, R572, R549, R22). -/
def tenantHeld (s : State) (t : Nat) : Bool :=
  let x := ten s t
  (link s t).perst || !x.enable || x.linkHold || fenced s (12 + t) || s.safety.safe
    || (s.start.window && !s.start.early.getLsbD t) || !s.start.ready

/-- M_STATUS.READY and T_STATUS.READY (Tables 3.4 and 3.24). -/
def tReady (s : State) (t : Nat) : Bool := s.start.ready && !fenced s (12 + t) && !(ten s t).inReset

/-- A tenant reset abandons the fault record push in flight, which so fails (R153, R156 step 2). -/
def pushAbandon (t : Nat) (s : State) : State :=
  match (ten s t).frPush with
  | some (r, _) => pushFail t r s
  | none => s

/-- A staged or sent frame of tenant t whose entry a tenant reset has taken away: no ring bears the number 132. -/
def orphan (t : Nat) (f : Staged) : Staged :=
  match f.origin with
  | .tenant a _ pos ts l4 l3 l4off => if a = t then { f with origin := .tenant a 132 pos ts l4 l3 l4off } else f
  | _ => f

/-- The frames of tenant t in the egress stages and on the wires go on without their entries (R156 step 3). -/
def orphanFrames (t : Nat) (s : State) : State :=
  { s with ports := s.ports.map fun e => (e.1, { e.2 with
    stage := e.2.stage.map (orphan t), wire := e.2.wire.map (orphan t), held := e.2.held.map (orphan t) }) }

/-- A tenant reset begins: steps 1 to 4 of R156. A trigger during a reset extends it and starts nothing (R155). -/
def tenantResetStart (t : Nat) (s : State) : State :=
  if (ten s t).inReset then s
  else
    let s1 := modTen t (fun x => { x with inReset := true, stepped := false, engineEn := false, resets := x.resets + 1 }) s
    let s2 := pushAbandon t (abortPair t s1)
    let s3 := forEach (ten s2 t).rings (fun (r, _) s => ringAbandon t r s) s2
    breakLocks (t + 1) (modTen t (fun x => { x with staging := [] }) (orphanFrames t s3))

/-- The window's registers and access machinery return to their reset state; its sources become idle (R76, R156). -/
def windowReset (w : Nat) (s : State) : State := modWin w (fun _ => {}) s

/-- Parameters a tenant reset returns to their reset values: items 0x02 to 0x08 of block 0x03, and MIN_GAP (R156). -/
def tenantParams (t : Nat) (s : State) : State :=
  peak { s with params := s.params.filter fun e =>
    !((decide (0x030002 + 256 * t ≤ e.1) && decide (e.1 ≤ 0x030008 + 256 * t)) || e.1 == 0x600000 + 256 * (t + 1)) }

/-- Steps 5 to 8 of R156. -/
def tenantResetSteps (t : Nat) (s : State) : State :=
  let s0 := forEach (ten s t).rings (fun (r, _) s => ringAbandon t r s) (pushAbandon t s)
  let s1 := windowReset (t + 1) (partitionReset t s0)
  let s2 := clearTable 0x01 t (clearTable 0x0B t (clearTable 0x0D t (clearTable 0x0C (t + 1) s1)))
  let s3 := tenantParams t s2
  let s4 := modTen t (fun x => { x with
    stepped := true, engineEn := false, ringSel := 0, rings := [], staging := [], turn := none, buckets := [],
    frIndex := 0, frPhase := true, frSeq := 0, frPush := none, frWait := [], frRestart := false }) s3
  match tenantPair s4 t with
  | some p => modChan (8 + 2 * p) (fun _ => {}) (modChan (9 + 2 * p) (fun _ => {}) s4)
  | none => s4

/-- TENANT_RESET_END: a tenant reset in progress performs its remaining steps once. It completes unless it is held: a held
reset stays in progress, with its steps done, until its release (R156, R158). -/
def tenantResetEnd (t : Nat) (s : State) : State :=
  if !(ten s t).inReset then s
  else
    let s1 := if (ten s t).stepped then s else tenantResetSteps t s
    if tenantHeld s1 t then s1
    else raise 0 (3 + t) (modTen t (fun x => { x with
      inReset := false, reset := false, selfReset := false, stopped := decide (x.fault ≠ 0) }) s1)

end Sys2Proof.Machine
end

