-- ==== Sys2Proof/Machine/Parse.lean ====
section
/-! DEFINITION. What the device reads in a frame: tags, IP and L4 headers with their checksums (R236), the frame's VID
(R249), the flow hash (R232), and checksum insertion on transmit (R233 to R235). -/

set_option Elab.async false

namespace Sys2Proof.Machine

/-- What the Thicket's parse of a frame finds (R236). -/
structure Parsed where
  stag : Option Nat := none
  ctag : Option Nat := none
  etype : Nat := 0
  l3off : Nat := 0
  ipv4 : Bool := false
  ipv6 : Bool := false
  l3Bad : Bool := false
  frag : Bool := false
  tcp : Bool := false
  udp : Bool := false
  l4Bad : Bool := false
  proto : Nat := 0
  l4off : Nat := 0
  deriving DecidableEq, Repr

/-- Big-endian 16 bits at an offset. -/
def be16 (bs : List Byte) (k : Nat) : Nat := byteAt bs k * 256 + byteAt bs (k + 1)

/-- The tags of a frame: an outer S-tag, then a C-tag (R236 step 1). -/
def parseTags (bs : List Byte) : Parsed :=
  let p0 : Parsed := {}
  let (p1, off) := if be16 bs 12 = 0x88A8 then ({ p0 with stag := some (be16 bs 14) }, 16) else (p0, 12)
  let (p2, off2) := if be16 bs off = 0x8100 then ({ p1 with ctag := some (be16 bs (off + 2)) }, off + 4) else (p1, off)
  { p2 with etype := be16 bs off2, l3off := off2 + 2 }

/-- The TCP or UDP header of L bytes at l4off, within n frame bytes before the FCS (R236 steps 4 to 6). A checksum is good
where the ones'-complement sum with it is 0xFFFF, so that a TCP field of 0xFFFF where R234 computes 0x0000 is no mismatch:
DESIGN CHOICE, the spec leaves open which of the two zeros verification expects (assumption 59). -/
def parseL4 (bs : List Byte) (n : Nat) (p : Parsed) (len : Int) (addrs : List Byte) : Parsed :=
  let least : Int := if p.proto = 6 then 20 else 8
  if (p.proto ≠ 6 ∧ p.proto ≠ 17) ∨ len < least ∨ p.l4off + len.toNat > n then p
  else
    let l := len.toNat
    let good := fold16 (pseudoSum addrs p.proto l + sum16 (slice bs p.l4off l)) == 65535
    let zero := p.proto == 17 && be16 bs (p.l4off + 6) == 0
    { p with tcp := p.proto == 6, udp := p.proto == 17, l4Bad := if zero then p.ipv6 else !good }

/-- An IPv4 header (R236 step 2). -/
def parseV4 (bs : List Byte) (n : Nat) (p : Parsed) : Parsed :=
  let o := p.l3off
  let ihl := byteAt bs o % 16 * 4
  if byteAt bs o / 16 ≠ 4 ∨ ihl < 20 ∨ o + ihl > n then p
  else
    let p1 := { p with
      ipv4 := true, l3Bad := fold16 (sum16 (slice bs o ihl)) != 65535, proto := byteAt bs (o + 9), l4off := o + ihl }
    if be16 bs (o + 6) % 0x4000 ≠ 0 then { p1 with frag := true }
    else parseL4 bs n p1 ((be16 bs (o + 2) : Int) - ihl) (slice bs (o + 12) 8)

/-- The IPv6 header chain: the value that names the header where the parse ends, its offset, whether the parse stops
there, and whether that is a fragment header (R236 step 3). -/
def v6Chain (bs : List Byte) (n : Nat) : Nat → Nat → Nat → Nat × Nat × Bool × Bool
  | 0, nh, off => (nh, off, nh == 44 || nh == 0 || nh == 43 || nh == 60, nh == 44)
  | k + 1, nh, off =>
    if nh = 44 then (nh, off, true, true)
    else if nh = 0 ∨ nh = 43 ∨ nh = 60 then
      let size := (byteAt bs (off + 1) + 1) * 8
      if off + size > n ∨ (nh = 43 ∧ byteAt bs (off + 3) > 0) then (nh, off, true, false)
      else v6Chain bs n k (byteAt bs off) (off + size)
    else (nh, off, false, false)

/-- An IPv6 header (R236 step 3): at most two extension headers are followed. -/
def parseV6 (bs : List Byte) (n : Nat) (p : Parsed) : Parsed :=
  let o := p.l3off
  if byteAt bs o / 16 ≠ 6 ∨ o + 40 > n then p
  else
    let (nh, off, stop, fr) := v6Chain bs n 2 (byteAt bs (o + 6)) (o + 40)
    let p1 := { p with ipv6 := true, proto := nh, l4off := off, frag := fr }
    if stop then p1
    else parseL4 bs n p1 ((be16 bs (o + 4) : Int) + 40 - (off - o : Nat)) (slice bs (o + 8) 32)

/-- The parse of a frame with its FCS (R236). -/
def parse (bs : List Byte) : Parsed :=
  let p := parseTags bs
  let n := bs.length - 4
  if p.etype = 0x0800 then parseV4 bs n p else if p.etype = 0x86DD then parseV6 bs n p else p

/-- PCP of the outer tag, 0 without one (Table 1.2). -/
def Parsed.pcp (p : Parsed) : Nat :=
  match p.stag, p.ctag with
  | some v, _ => v / 2 ^ 13
  | none, some v => v / 2 ^ 13
  | none, none => 0

/-- The frame's VID under a VLAN_CFG value: the selected tag's VID, PVID without it or at 0 (R249). -/
def Parsed.vid (p : Parsed) (cfg : Nat) : Nat :=
  let v := match (if bitOf cfg 12 then p.stag else p.ctag) with
    | some x => x % 4096
    | none => 0
  if v = 0 then cfg % 4096 else v

/-- Bits 11:2 of tag word 2 from the parse and PREEMPT (Table 1.2). -/
def Parsed.flags (p : Parsed) (preempt : Bool) : Nat :=
  flag p.ctag.isSome 11 + flag p.stag.isSome 10 + flag p.ipv4 9 + flag p.ipv6 8 + flag p.tcp 7 + flag p.udp 6
    + flag p.l3Bad 5 + flag p.l4Bad 4 + flag p.frag 3 + flag preempt 2

/-- Source address bytes of the IP header. -/
def Parsed.src (p : Parsed) (bs : List Byte) : List Byte :=
  if p.ipv4 then slice bs (p.l3off + 12) 4 else if p.ipv6 then slice bs (p.l3off + 8) 16 else []

/-- Destination address bytes of the IP header. -/
def Parsed.dst (p : Parsed) (bs : List Byte) : List Byte :=
  if p.ipv4 then slice bs (p.l3off + 16) 4 else if p.ipv6 then slice bs (p.l3off + 24) 16 else []

/-- Source and destination port of a TCP or UDP header. -/
def Parsed.ports (p : Parsed) (bs : List Byte) : Nat × Nat := (be16 bs p.l4off, be16 bs (p.l4off + 2))

/-- The hash key of Table 7.11. -/
def hashKey (p : Parsed) (bs : List Byte) : List Byte :=
  if p.tcp || p.udp then
    p.src bs ++ p.dst bs ++ [BitVec.ofNat 8 (if p.tcp then 6 else 17)] ++ slice bs p.l4off 4
  else if p.ipv4 || p.ipv6 then p.src bs ++ p.dst bs
  else slice bs 0 6 ++ slice bs 6 6 ++ beBytes 2 p.etype

/-- The flow hash: bits 23:0 of the CRC-32 of the key (R232). -/
def flowHash (bs : List Byte) : Nat := crc32 (hashKey (parse bs) bs) % 2 ^ 24

/-! ### Checksum insertion on transmit -/

/-- Insert the IPv4 header checksum (R233); none where R235 leaves the result undefined. -/
def insertIp4 (bs : List Byte) (o : Nat) : Option (List Byte) :=
  let ihl := byteAt bs o % 16 * 4
  if o + ihl > bs.length ∨ o + 12 > bs.length then none
  else
    let z := patch bs (o + 10) [0, 0]
    some (patch bs (o + 10) (beBytes 2 (csum16 (sum16 (slice z o ihl)))))

/-- Insert the TCP (proto 6) or UDP (proto 17) checksum (R234); none where R235 leaves the result undefined. -/
def insertL4 (bs : List Byte) (o l4 proto : Nat) : Option (List Byte) :=
  let v := byteAt bs o / 16
  let span : Int := (l4 : Int) - o
  let len : Int := if v = 4 then (be16 bs (o + 2) : Int) - span else (be16 bs (o + 4) : Int) + 40 - span
  let field := l4 + (if proto = 6 then 16 else 6)
  let addrs := if v = 4 then slice bs (o + 12) 8 else slice bs (o + 8) 32
  if (v ≠ 4 ∧ v ≠ 6) ∨ len ≤ 0 ∨ l4 + len.toNat > bs.length ∨ field + 2 > bs.length
      ∨ o + (if v = 4 then 20 else 40) > bs.length then none
  else
    let z := patch bs field [0, 0]
    let c := csum16 (pseudoSum addrs proto len.toNat + sum16 (slice z l4 len.toNat))
    some (patch bs field (beBytes 2 (if proto = 17 ∧ c = 0 then 65535 else c)))

/-- Both insertions as a prologue asks for them, IPv4 first; none where R235 leaves the result undefined: a version nibble
neither 4 nor 6, a range beyond the bytes, an L of 0 or less, and both insertions on an IPv6 frame. -/
def insertCsums (bs : List Byte) (ip4 : Bool) (l4sel o l4 : Nat) : Option (List Byte) :=
  let v := byteAt bs o / 16
  let both := ip4 && (l4sel == 1 || l4sel == 2)
  if (ip4 || l4sel == 1 || l4sel == 2) && v != 4 && (v != 6 || both) then none
  else match (if ip4 then insertIp4 bs o else some bs) with
  | none => none
  | some b => if l4sel = 1 then insertL4 b o l4 6 else if l4sel = 2 then insertL4 b o l4 17 else some b

end Sys2Proof.Machine
end

