-- ==== Sys2Proof/Machine/RingEngine.lean ====
section
/-! DEFINITION. The ring engine (chapters 6 and 7): fetching and checking entries, doorbells, ring control, transmit
scheduling, building and admitting frames, and receive delivery; with the meanings of the ring commands. -/

set_option Elab.async false

namespace Sys2Proof.Machine

/-! ### Fetching (R182 to R188) -/

/-- The ring fetches: enabled, not stopped, no flush, the engine runs and the link may issue reads. -/
def fetches (s : State) (t r : Nat) : Bool :=
  let x := ring s t r
  frameService s && x.enable && !x.stop && !x.flush && (ten s t).engineEn && canIssue s t

/-- A read of the ring engine: its requests take their turns on the host link (R415). -/
def ringRead (t a n who : Nat) (s : State) : State := readIssue t a n who (ringTurn t (readRequests s t a n) s)

/-- Issue the next descriptor read that is due: the first slots missing within the tail, then the prefetch beyond it; at
most 32 slots, never across the ring end, and none that is held (R182, R185, R186). -/
def fetchNext (t r : Nat) (s : State) : State :=
  let x := ring s t r
  let n := ringN s t r
  let d := dist n x.head x.tail
  let np := adv n (entriesEnd x n) (slotRun x n).length
  let off := dist n x.head np
  if !fetches s t r || x.read.isSome || x.ownWait.isSome then s
  else
    let go := fun (p cnt : Nat) (beyond : Bool) (due : Option (Nat × Nat)) =>
      ringRead t (slotAddr s t r p) (16 * cnt) r (engineSteps t 1
        (modRing t r (fun x => { x with read := some ⟨p, cnt, beyond, s.clk, false, 1⟩, preDue := due }) s))
    if off < d then
      let gap := match x.slots.find? fun y => decide (off < dist n x.head y.pos) with
        | some y => dist n x.head y.pos - off
        | none => d - off
      go np (min (min (d - off) gap) (min 32 (n - np % n))) false x.preDue
    else match x.preDue with
      | some (p, c) =>
        if c > 0 then
          let cnt := min c (min 32 (n - p % n))
          go p cnt true (if c - cnt = 0 then none else some (adv n p cnt, c - cnt))
        else s
      | none => s

/-- Buffers of a TX entry: address and length of each (Tables 7.1 and 7.2). DESIGN CHOICE (assumption 53): NBUF 0, outside
the 1 to 7 of Table 7.1, supplies buffer 0 as NBUF 1 does. -/
def txBuffers (e : Entry) : List (Addr × Nat) :=
  let d := entryDw0 e
  let pro := bits d 22 1
  let first := (BitVec.ofNat 64 (entryDw e 0 2 + entryDw e 0 3 * 2 ^ 32), bits d 0 14)
  first :: (List.range (bits d 19 3 - 1)).map fun i =>
    let k := 1 + pro + i
    (BitVec.ofNat 64 (entryDw e k 2 + entryDw e k 3 * 2 ^ 32), bits (entryDw e k 0) 0 14)

/-- The checks of R217 and R208 on a fetched entry whose slots are all held: the failing value, in the order given. -/
def entryCheck (rx : Bool) (e : Entry) : Option Nat :=
  let d := entryDw0 e
  if e.kind = 0 then none
  else if rx then
    if e.len ≠ 2 then some e.len
    else if bits (entryDw e 0 1) 0 16 < 64 then some (bits (entryDw e 0 1) 0 16) else none
  else
    let nbuf := bits d 19 3
    if nbuf + bits d 22 1 > e.len then some nbuf
    else
      let lens := (txBuffers e).map (·.2)
      if lens.any (· == 0) then some 0
      else if lens.sum < 14 ∨ lens.sum > 9228 then some lens.sum else none

/-- TX entries of a tenant between fetch and write-back (R199). -/
def txInFlight (s : State) (t : Nat) : Nat :=
  (((ten s t).rings.filter fun e => !isRx e.1).map fun e => (e.2.entries.filter fun y => y.kind != 0).length).sum

/-- What parsing the next entry does. -/
inductive ParseStep where
  | stop (s : State)
  | more (s : State)

/-- Some TX entry of a tenant lies between its start and its write-back. -/
def txStarted (s : State) (t : Nat) : Bool :=
  (ten s t).rings.any fun e => !isRx e.1 && e.2.entries.any fun y => y.kind != 0 && y.stage != .fetched

/-- A further TX entry may be taken up (R199). DESIGN CHOICE (assumption 53): the entry that brings the tenant to the limit
of 1,024 waits until some entry of it has started, since none would be eligible otherwise. -/
def txRoom (s : State) (t : Nat) : Bool :=
  decide (txInFlight s t < 1023) || (decide (txInFlight s t = 1023) && txStarted s t)

/-- A slot lies outside the distances lo up to hi of the ring's head. -/
def outside (x : Ring) (n lo hi : Nat) (y : Slot) : Bool :=
  decide (dist n x.head y.pos < lo) || decide (hi ≤ dist n x.head y.pos)

/-- The slots of a ring from distance lo up to hi of the head are discarded, to be read again. -/
def dropSlots (t r n lo hi : Nat) (s : State) : State := keepSlots t r (outside (ring s t r) n lo hi) s

/-- Prefetched slots of an entry are used without being read again: they lie in one aligned 64-byte block and came in one
completion (R186). -/
def prefetchGood (n len : Nat) (mine : List Slot) : Bool :=
  match mine with
  | [] => false
  | f :: _ => decide (mine.length = len) && mine.all (fun y => y.read == f.read)
      && decide (f.pos % n / 4 = (f.pos % n + len - 1) / 4)

/-- A first slot before the tail read OWN = 0: what is held is read again after 1 µs, and the first time counts (R184). -/
def ownZero (t r : Nat) (s : State) : State :=
  let s1 := keepSlots t r (fun _ => false) (modRing t r (fun x => { x with ownWait := some s.clk, ownCounted := true }) s)
  if (ring s t r).ownCounted then s1 else countRing t r 3 1 s1

/-- A parsed entry at distance off joins the ring's entries, and its slots are taken. -/
def takeEntry (t r n off : Nat) (e : Entry) (s : State) : State :=
  engineSteps t 1 (modRing t r (fun x => { x with
    entries := x.entries ++ [e], ownCounted := false, slots := x.slots.filter (outside x n off (off + e.len)) }) s)

/-- Parse the next entry of a ring, if its slots are held (R169 to R171, R182 to R186, R208). -/
def parseOne (t r : Nat) (s : State) : ParseStep :=
  let x := ring s t r
  let n := ringN s t r
  let d := dist n x.head x.tail
  let run := slotRun x n
  match run with
  | [] => .stop s
  | f :: _ =>
    let dw0 := (f.dw.getD 0 0).toNat
    let off := dist n x.head f.pos
    if off ≥ d then .stop s
    else if !bitOf dw0 31 then
      if f.pre then .stop (dropSlots t r n off (off + 1) s)
      else .stop (ownZero t r s)
    else
      let kind := bits dw0 24 4
      let len := entryLen n f.pos dw0
      let lap := f.pos / n * 65536 + f.pos % n
      let ringNo := if isRx r then r - 68 else r
      let fail := fun (v : Nat) => tenantFault t 6 ringNo (isRx r) 0 lap v 0 s
      if off + len > d then .stop s
      else if kind ≠ 0 ∧ f.pos % n + len > n then .stop (fail len)
      else if kind ≠ 0 ∧ isRx r ∧ len ≠ 2 then .stop (fail len)
      else
        let need := if kind = 0 then 1 else len
        let mine := run.take len
        if run.length < need then .stop s
        else if mine.any (·.pre) && !prefetchGood n len mine then .stop (dropSlots t r n off (off + len) s)
        else if kind ≠ 0 ∧ !isRx r ∧ !txRoom s t then .stop s
        else
          let e : Entry := { pos := f.pos, len := len, kind := kind, slots := (mine.take need).map (·.dw),
                             proNs := (mine.getD 1 f).readNs,
                             cycles := 1 + slotCycles (x.slots.filter fun y => !outside x n off (off + len) y) }
          match entryCheck (isRx r) e with
          | some v => .stop (fail v)
          | none =>
            let e1 := if kind = 0 then
                { e with stage := .done, useful := true,
                         wb := bytesOf (setAt f.dw 0 (BitVec.ofNat 32 (putBits dw0 31 1 0))) }
              else e
            .more (takeEntry t r n off e1 s)

/-- Parse every entry whose slots are held. -/
def parseLoop (t r : Nat) : Nat → State → State
  | 0, s => s
  | fuel + 1, s => match parseOne t r s with
    | .stop s' => s'
    | .more s' => parseLoop t r fuel s'

/-- The ring engine looks at a ring: it parses what it holds, hands over finished PADs, keeps the fetch clock, and issues
the next read. -/
def serve (t r : Nat) (s : State) : State :=
  fetchNext t r (drain t r false (parseLoop t r ((ring s t r).slots.length + 1) s))

/-- The rings of a tenant look for work again once their link may issue requests. -/
def linkServe (t : Nat) (s : State) : State :=
  if canIssue s t then forEach (ten s t).rings (fun (r, _) s => serve t r s) s else s

/-- Frame service begins: every ring looks at the doorbells that came while it did not run (R472, R499, R502). -/
def serviceBegin (s : State) : State := forAll 4 linkServe s

/-! ### Doorbells (R178) -/

/-- A doorbell of tenant t for ring r with LAP and TAIL (Table 6.2). -/
def doorbell (t r : Nat) (d : Word) (s : State) : State :=
  let x := ring s t r
  let n := ringN s t r
  let v := d.toNat
  let tail := (bits v 16 1 * n + bits v 0 16) % (2 * n)
  let dNew := dist n x.head tail
  let dOld := dist n x.head x.tail
  if !x.enable || x.flush then countRing t r 3 1 s
  else if dNew > n then
    tenantFault t 1 (if isRx r then r - 68 else r) (isRx r) 0 v (x.head / n * 65536 + x.head % n) 0 s
  else if dNew < dOld then countRing t r 3 1 s
  else if dNew = dOld then s
  else
    let pre := min x.prefetch (n - dNew)
    serve t r (keepSlots t r (fun y => decide (dist n x.head y.pos < dNew)) (modRing t r (fun x => { x with
      tail := tail, preDue := if pre = 0 then none else some (tail, pre) }) s))

/-- A write to T_TXBELL (Table 3.26, R93). -/
def txBell (t : Nat) (d : Word) (s : State) : State :=
  let r := bits d.toNat 17 7
  if r > 67 then s else doorbell t r d s

/-- A write to T_RXBELL (Table 3.26, R93). -/
def rxBell (t : Nat) (d : Word) (s : State) : State :=
  let r := bits d.toNat 17 7
  if r > 63 then s else doorbell t (68 + r) d s

/-! ### Ring control -/

/-- The ring T_RINGSEL names, when it exists (R93). -/
def selRing (s : State) (t : Nat) : Option Nat :=
  let v := (ten s t).ringSel
  let r := v % 128
  if bitOf v 7 then (if r > 63 then none else some (68 + r)) else (if r > 67 then none else some r)

/-- ENABLE written 1 (R150, R204, R205). -/
def ringEnable (t r : Nat) (s : State) : State :=
  let x := ring s t r
  let n := ringN s t r
  let w5 := rowWord s 0x01 t r 5
  let k := bits (rowWord s 0x01 t r 3) 0 5
  if x.enable || x.flush || decide ((ten s t).fault ≠ 0) || decide (k < 3) then s
  else
    let p := (bits w5 16 1 * n + bits w5 0 16) % (2 * n)
    stopCheck t r (modRing t r (fun x => { x with
      enable := true, head := p, tail := p, stopped := false, deficit := 0, entries := [], slots := [], read := none,
      preDue := none, ownWait := none, clockAt := none, clockHeld := 0, heldAt := none }) s)

/-- ENABLE written 0: it reads 0 at once and a flush starts (R204). -/
def ringDisable (t r : Nat) (s : State) : State :=
  let x := ring s t r
  if !x.enable then s
  else
    let s1 := modRing t r (fun x => { x with enable := false }) s
    if x.flush then s1 else flushStart t r s1

/-- FLUSH written 1 (R202, R203). -/
def ringFlush (t r : Nat) (s : State) : State :=
  let s1 := modRing t r (fun x => { x with flushBit := true }) s
  if (ring s t r).flush then s1 else flushStart t r s1

/-- STOP written 1 (R188, R201). -/
def ringStop (t r : Nat) (s : State) : State :=
  if (ring s t r).stop then s
  else drain t r true (dropFetched t r (modRing t r (fun x => { x with stop := true }) s))

/-- STOP written 0: the ring resumes from its head (R201). -/
def ringResume (t r : Nat) (s : State) : State :=
  if !(ring s t r).stop then s
  else serve t r (modRing t r (fun x => { x with stop := false, stopped := false }) s)

/-- T_RINGCTL of a ring (Table 3.26). -/
def ringCtl (s : State) (t r : Nat) : Nat :=
  let x := ring s t r
  x.prefetch * 256 + flag x.stop 2 + flag x.flushBit 1 + flag x.enable 0

/-- A write of T_RINGCTL for ring r. -/
def ringCtlWrite (t r v : Nat) (s : State) : State :=
  let s1 := modRing t r (fun x => { x with prefetch := min 32 (bits v 8 6) }) s
  let s2 := if bitOf v 2 then ringStop t r s1 else ringResume t r s1
  let s3 := if bitOf v 0 then ringEnable t r s2 else ringDisable t r s2
  if bitOf v 1 then ringFlush t r s3 else s3

/-- T_RINGSTAT of a ring (Table 3.26). -/
def ringStat (s : State) (t r : Nat) : Nat :=
  let x := ring s t r
  let n := ringN s t r
  flag (x.recovering || (link s t).replaying.contains r) 19 + flag x.stopped 18 + flag x.flushDone 17 + x.head / n % 2 * 65536 + x.head % n

/-- ENGINE_EN written (R150, R188). -/
def engineWrite (t : Nat) (on : Bool) (s : State) : State :=
  if on then
    if (ten s t).fault ≠ 0 then s
    else forEach (ten s t).rings (fun (r, _) s => serve t r s) (modTen t (fun x => { x with engineEn := true }) s)
  else forEach (ten s t).rings (fun (r, _) s => clockFix t r (dropPrefetched t r s))
    (modTen t (fun x => { x with engineEn := false }) s)

/-! ### Transmit scheduling (R195 to R199) -/

/-- The TX prologue of an entry, when it bears one: its four dwords (Table 7.3). -/
def prologue (e : Entry) : Option (Nat × Nat × Nat × Nat) :=
  if bitOf (entryDw0 e) 22 then some (entryDw e 1 0, entryDw e 1 1, entryDw e 1 2, entryDw e 1 3) else none

/-- The egress port of an entry (R198). -/
def txPort (s : State) (t r : Nat) (e : Entry) : Nat :=
  match prologue e with
  | some (d0, _, _, _) => bits d0 26 5
  | none => bits (rowWord s 0x01 t r 3) 8 5

/-- The egress class of an entry (R198). -/
def txClass (s : State) (t r : Nat) (e : Entry) : Nat :=
  let w3 := rowWord s 0x01 t r 3
  match prologue e with
  | some (d0, _, _, _) => if bitOf w3 16 && bitOf d0 25 then bits d0 22 3 else bits w3 13 3
  | none => bits w3 13 3

/-- The tag LEN of an entry's frame: padded to 60 bytes, FCS included (R218). -/
def txLen (e : Entry) : Nat := max 60 (((txBuffers e).map (·.2)).sum) + 4

/-- The launch time an entry asks for, in ns, with bits 47:32 of the seconds at which its prologue was read (R221). -/
def launchOf (e : Entry) : Option Nat :=
  match prologue e with
  | some (d0, _, d2, d3) =>
    if bitOf d0 20 then some ((e.proNs / 1000000000 / 2 ^ 32 * 2 ^ 32 + d3) * 1000000000 + bits d2 0 30) else none
  | none => none

/-- The content of a bucket now, in 1/4000 byte: rate is in Mb/s, which is rate such units per tick (R143, R294, R333). -/
def bucketLevel (b : Bucket) (rate burst clk : Nat) : Int :=
  match b.level with
  | none => burst * 4000
  | some l => min (burst * 4000 : Int) (l + rate * (clk - b.since))

/-- A bucket after n bytes are taken. -/
def bucketTake (b : Bucket) (rate burst clk n : Nat) : Bucket := ⟨some (bucketLevel b rate burst clk - 4000 * n), clk⟩

/-- The shaper of tenant t toward port p holds at least 0 bytes, or there is none (R143, R144). -/
def shaperOpen (s : State) (t p : Nat) : Bool :=
  let rate := pn s (0x030020 + 256 * t + p)
  decide (rate = 0) || decide (bucketLevel (tget (ten s t).buckets p {}) rate (pn s (0x03000B + 256 * t)) s.clk ≥ 0)

/-- The next entry of a ring nothing has begun. -/
def nextEntry (x : Ring) : Option Entry := x.entries.find? fun e => e.stage == .fetched

/-- A TX ring is eligible (R195, R199). -/
def eligible (s : State) (t r : Nat) : Bool :=
  let x := ring s t r
  frameService s && x.enable && !x.stop && !x.flush && (ten s t).engineEn
    && (match nextEntry x with
        | some e => shaperOpen s t (txPort s t r e)
        | none => false)
    && !((ten s t).staging.any fun f => f.ring == r) && decide (txInFlight s t < 1024)

/-- Bytes the staging holds toward the Glade (R12). -/
def stagingUse (s : State) (t : Nat) : Nat :=
  ((ten s t).staging.map fun f => ((f.bufs.map (·.2)).sum + f.bytes.length + 16)).sum

/-- The deficit round robin's choice among the weighted rings, starting where the turn stands (R197): the answer is the
ring and the state with turn and deficits moved on; the ring pays when a frame of it is sent. DESIGN CHOICE (assumption
53): a ring is found empty when the turn comes to it, so one that empties during its own turn keeps its deficit. -/
def drr (t : Nat) : Nat → State → Option Nat × State
  | 0, s => (none, s)
  | fuel + 1, s =>
    let (r, sent) := (ten s t).turn.getD (63, 65536)
    let w4 := rowWord s 0x01 t r 4
    let len := match nextEntry (ring s t r) with
      | some e => txLen e
      | none => 0
    if sent < bits w4 8 7 ∧ eligible s t r ∧ (ring s t r).deficit ≥ len then (some r, s)
    else
      let r1 := (r + 1) % 64
      let x := ring s t r1
      if eligible s t r1 then
        let w := bits (rowWord s 0x01 t r1 4) 0 8
        drr t fuel (modTen t (fun y => { y with turn := some (r1, 0) })
          (modRing t r1 (fun y => { y with deficit := y.deficit + w * 512 }) s))
      else
        let s1 := if x.head = x.tail ∧ x.enable then modRing t r1 (fun y => { y with deficit := 0 }) s else s
        drr t fuel (modTen t (fun y => { y with turn := some (r1, 65536) }) s1)

/-- A frame of a weighted ring is sent in its turn: the deficit pays its LEN (R197). -/
def drrPay (t r len : Nat) (s : State) : State :=
  if r < 64 then
    modTen t (fun x => { x with turn := x.turn.map fun (k, sent) => (k, sent + 1) })
      (modRing t r (fun x => { x with deficit := x.deficit - len }) s)
  else s

/-- The ring the engine takes its next frame from, strict rings first (R196, R197). -/
def chooseRing (t : Nat) (s : State) : Option Nat × State :=
  match [64, 65, 66, 67].find? fun r => eligible s t r with
  | some r => (some r, s)
  | none => if (List.range 64).any (fun r => eligible s t r) then drr t 1400 s else (none, s)

/-- Issue the read of the next buffer of the frame being gathered. -/
def readBuffer (t : Nat) (s : State) : State :=
  match (ten s t).staging.find? fun f => !f.complete with
  | some f => match f.bufs with
    | (a, n) :: _ => ringRead t a.toNat n 200 (modTen t (fun x => { x with staging := x.staging.map fun g =>
        if g.complete then g else { g with readAt := s.clk } }) s)
    | [] => s
  | none => s

/-- Take the head frame of a ring: barred and launch-range entries end at once and are not sent, others start to gather and
pay their turn (R142, R197, R220, Table 7.5). -/
def takeFrame (t r : Nat) (s : State) : State :=
  match nextEntry (ring s t r) with
  | none => s
  | some e =>
    let p := txPort s t r e
    let far := match launchOf e with
      | some l => decide (l > e.proNs + 1000000000)
      | none => false
    if !bitOf (pwide s (0x030009 + 256 * t) 2) p then serve t r (finishTx t r e.pos .barred 0 none s)
    else if far then serve t r (finishTx t r e.pos .launchRange 0 none s)
    else
      let s1 := entrySteps t r e.pos 1 (fun x => { x with stage := .gathering }) (drrPay t r (txLen e) s)
      readBuffer t (modTen t (fun x => { x with
        staging := x.staging ++ [⟨r, e.pos, txBuffers e, [], false, s.clk⟩] }) s1)

/-- TX rings that hold slots still to parse are looked at again: another ring's write-backs may have made room (R199). -/
def txCatchUp (t : Nat) (s : State) : State :=
  forEach ((ten s t).rings.filter fun e => !isRx e.1 && e.2.slots != []) (fun (r, _) s => serve t r s) s

/-- TX_SCHEDULE (R195 to R197). -/
def txScheduleEffect (t : Nat) (s : State) : State :=
  let s := txCatchUp t s
  if (ten s t).staging.any (fun f => !f.complete) || decide (stagingUse s t + 9244 > 18488) then s
  else match chooseRing t s with
    | (some r, s1) => takeFrame t r s1
    | (none, s1) => s1

/-- The frame an entry's gathered bytes make, before padding: insertions applied, or free bytes where R235 leaves the
result undefined. -/
def buildBytes (e : Entry) (bytes : List Byte) (s : State) : List Byte × State :=
  match prologue e with
  | none => (bytes, s)
  | some (d0, d1, _, _) =>
    match insertCsums bytes (bitOf d0 19) (bits d0 17 2) (bits d1 24 8) (bits d1 12 10) with
    | some b => (b, s)
    | none => (freeBytes s bytes.length, drawn s)

/-- The padded frame with its FCS (R218). -/
def padded (b : List Byte) : List Byte :=
  let body := b ++ List.replicate (60 - b.length) 0
  body ++ fcsOf body

/-- The Gulmethal tag of a transmitted frame (R11, R223). -/
def txTag (s : State) (t r : Nat) (e : Entry) : List Word :=
  let len := txLen e
  let d0 := match prologue e with
    | some (d, _, _, _) => d
    | none => 0
  let csum := bitOf d0 19 || bits d0 17 2 == 1 || bits d0 17 2 == 2
  let ts := match launchOf e with
    | some l => l
    | none => nowNs s
  [word (2 ^ 21 + t * 2 ^ 16 + len),
   word (txClass s t r e * 2 ^ 21 + t * 2 ^ 19 + 2 ^ 18),
   word (flag (bitOf d0 21) 16 + flag csum 15 + flag (bitOf d0 20) 14),
   word ts]

/-- A completion for a ring comes in: the link no longer replays its request (R212; assumption 53). -/
def replayEnd (t r : Nat) (s : State) : State :=
  if (link s t).replaying.contains r then modLink t (fun l => { l with replaying := l.replaying.filter (· != r) }) s else s

/-- TX_BUFFER_READ_END (R219): a buffer's data arrives; the whole frame is built in staging. -/
def txBufferReadEndEffect (t : Nat) (r : HostRead) (s : State) : State :=
  match (ten s t).staging.find? fun f => !f.complete with
  | none => s
  | some f => match f.bufs with
    | [] => s
    | (a, n) :: rest => match readOutcome s t 200 r with
      | .data host =>
        let (got, s1) := readServe t a.toNat n 200 host (replayEnd t f.ring s)
        let bytes := f.bytes ++ got
        let s2 := entrySteps t f.ring f.pos ((n + 63) / 64) id s1
        let put := fun (g : TxStage) => modTen t (fun x => { x with staging := x.staging.map fun h =>
          if h.ring = f.ring then g else h })
        match rest with
        | _ :: _ => recoverFix t f.ring (readBuffer t (put { f with bufs := rest, bytes := bytes } s2))
        | [] => match (ring s2 t f.ring).entries.find? fun e => e.pos == f.pos with
          | none => s2
          | some e =>
            let (b, s3) := buildBytes e bytes s2
            entrySteps t f.ring f.pos 1 (fun e => { e with stage := .staged })
              (recoverFix t f.ring (put { f with bufs := [], bytes := b, complete := true } s3))
      | .ur => tenantFault t 4 f.ring false 1 (a.toNat % 2 ^ 32) (a.toNat / 2 ^ 32) 0 (readDrop t 200 (replayEnd t f.ring s))
      | .ca => tenantFault t 4 f.ring false 4 (a.toNat % 2 ^ 32) (a.toNat / 2 ^ 32) 0 (readDrop t 200 (replayEnd t f.ring s))

/-- CPL_TIMEOUT of tenant t's link, in ticks (Table 4.4). -/
def cplTimeout (s : State) (t : Nat) : Nat := us (pn s (0x030007 + 256 * t))

/-- TX_BUFFER_READ_TIMEOUT (R211): the read is not reissued. -/
def txBufferReadTimeoutEffect (t : Nat) (s : State) : State :=
  match (ten s t).staging.find? fun f => !f.complete with
  | none => s
  | some f => match f.bufs with
    | [] => s
    | (a, _) :: _ =>
      if !readWaits s t 200 then s else
      let s1 := perfAdd (0x0A0004 + 256 * t) 1 (waitUntil (f.readAt + cplTimeout s t) s)
      tenantFault t 3 f.ring false 0 (a.toNat % 2 ^ 32) (a.toNat / 2 ^ 32) 0 (readDrop t 200 s1)

/-- A port's queued reference may be taken: the link is up and the quad is in service (R27, R29). -/
def portOpen (s : State) (p : Nat) : Bool := (port s p).link && !fenced s (p / 4)

/-- TX_GLADE_ADMISSION (R139, R143, R198): the staged frame of a ring enters the Glade and its class queue. -/
def txGladeAdmissionEffect (t r : Nat) (s : State) : State :=
  match (ten s t).staging.find? (fun f => f.ring == r && f.complete),
        (ring s t r).entries.find? (fun e => e.stage == .staged) with
  | some f, some e =>
    let tag := txTag s t r e
    let need := cellsFor (tagLen tag)
    if fenced s 8 || !admits s (some t) need then s
    else
      let p := txPort s t r e
      let (d0, d1) := match prologue e with
        | some (a, b, _, _) => (a, b)
        | none => (0, 0)
      let id := s.nextFrame
      let s1 := takeIn ⟨tag, padded f.bytes, need, [], 1, some t, none, 0⟩ s
      let s2 := modTen t (fun x => { x with staging := x.staging.filter fun g => g.ring != r }) s1
      let s3 := entrySteps t r e.pos 1 (fun x => { x with stage := .queued }) s2
      let rate := pn s (0x030020 + 256 * t + p)
      let b := bucketTake (tget (ten s t).buckets p {}) rate (pn s (0x03000B + 256 * t)) s.clk (tagLen tag + 20)
      let s4 := if rate = 0 then s3 else modTen t (fun x => { x with buckets := tput x.buckets p b }) s3
      if portOpen s4 p then
        enqueue p (txClass s t r e) ⟨id, .tenant t r e.pos (bitOf d0 21) (bits d0 17 2) (bits d1 24 8) (bits d1 12 10),
          launchOf e, f.bytes.length⟩ s4
      else countPort p 20 1 (release id (finishTx t r e.pos .linkDown 0 none s4))
  | _, _ => s

/-! ### Receive delivery (R200, R227 to R232) -/

/-- The write-back slot of an RX entry (Table 7.8). -/
def rxSlot (f : GFrame) (trunc pre : Bool) : List Byte :=
  let w1 := (f.tag.getD 1 0).toNat
  let w2 := (f.tag.getD 2 0).toNat
  let ns := f.ts / 65536
  leBytes 4 (flag trunc 27 + flag pre 26 + bits w1 11 1 * 2 ^ 25 + bits w1 0 11 * 2 ^ 14 + tagLen f.tag)
    ++ leBytes 4 (flowHash f.bytes * 256 + bits w2 2 8)
    ++ leBytes 4 (ns % 1000000000) ++ leBytes 4 (ns / 1000000000)

/-- The RX prologue (Table 7.10). -/
def rxPrologue (f : GFrame) : List Byte := tagBytes f.tag ++ leBytes 2 (f.ts % 65536) ++ [0, 0]

/-- An uncorrectable error in a cell of a frame: M_FAULT.ECC_UNCORR with the bank's memory number and the cell (R30). -/
def cellError (id : Nat) (s : State) : State :=
  let f := frame s id
  let c := f.cells.getD (freeNat s % max 1 f.cells.length) 0
  setMFault 3 11 31 (0x40 + c / 12288) c false (drawn s)

/-- A read of a frame's cells corrects what ECC can and counts it (R30, Table 15.5). -/
def cellsCorrected (ecc : EccHit) (s : State) : State := if ecc = .gladeCorrected then perfAdd 0x040004 1 s else s

/-- A reference of a received frame is discarded for an uncorrectable error: counted in RX_ECC of its port (R30). -/
def countRxEcc (id : Nat) (s : State) : State :=
  match (frame s id).port with
  | some p => countPort p 14 1 s
  | none => s

/-- RX_DELIVERY: the next reference of an RX ring goes into the next usable entry, or is discarded (R200, R228, R229). -/
def rxDeliveryEffect (t k : Nat) (ecc : EccHit) (s : State) : State :=
  let r := 68 + k
  let x := ring s t r
  match x.refs with
  | [] => s
  | id :: rest =>
    let s0 := cellsCorrected ecc (modRing t r (fun x => { x with refs := rest }) s)
    let f := frame s id
    if ecc = .glade then release id (countRxEcc id (cellError id s0))
    else match (if frameService s && x.enable && !x.stop && !x.flush && (ten s t).engineEn then nextEntry x else none) with
      | none => countRing t r 2 1 (release id s0)
      | some e =>
        let d := entryDw0 e
        let pre := bitOf d 22
        let len := tagLen f.tag
        let body := if bitOf d 21 then f.bytes else f.bytes.take (len - 4)
        let all := (if pre then rxPrologue f else []) ++ body
        let room := bits (entryDw e 0 1) 0 16
        let trunc := decide (all.length > room)
        let addr := entryDw e 0 2 + entryDw e 0 3 * 2 ^ 32
        let out := all.take room
        let s1 := devWrite t addr out s0
        let first := bytesOf (setAt (e.slots.getD 0 []) 0 (BitVec.ofNat 32 (putBits d 31 1 0)))
        let s2 := entrySteps t r e.pos (1 + (out.length + 63) / 64) (fun y => { y with
          stage := .done, wb := first ++ rxSlot f trunc pre, useful := !trunc }) s1
        let s3 := if trunc then countRing t r 2 1 s2 else countRing t r 1 len (countRing t r 0 1 s2)
        serve t r (release id s3)

/-! ### Meanings of the ring commands -/

/-- DESCRIPTOR_READ_END (R182, R187, R211): the slots join those held, in ring order. DESIGN CHOICE (assumption 53): a read
covers only slots beyond the tail, or slots before it, as the tail stood when it was issued; a doorbell that comes in
between does not change how its end is judged. -/
def descriptorReadEndEffect (t r : Nat) (h : HostRead) (s : State) : State :=
  let x := ring s t r
  match x.read with
  | none => s
  | some d =>
    let a := slotAddr s t r d.pos
    let s0 := recoverFix t r (replayEnd t r (modRing t r (fun x => { x with read := none }) s))
    let bad := fun (cpl : Nat) =>
      let s1 := voidCycles t d.cycles (readDrop t r s0)
      if d.beyond then serve t r (countRing t r 3 1 s1)
      else tenantFault t 4 (if isRx r then r - 68 else r) (isRx r) cpl (a % 2 ^ 32) (a / 2 ^ 32) 0 s1
    match readOutcome s t r h with
    | .ur => bad 1
    | .ca => bad 4
    | .data host =>
      let (got, s1) := readServe t a (16 * d.count) r host s0
      let n := ringN s t r
      let lo := dist n x.head d.pos
      let new := (List.range d.count).map fun i =>
        (⟨adv n d.pos i, dwordsOf 4 (got.drop (16 * i)), x.nextRead, d.beyond, nowNs s, if i = 0 then d.cycles else 0⟩ : Slot)
      serve t r (modRing t r (fun x => { x with
        slots := x.slots.filter (fun y => decide (dist n x.head y.pos < lo)) ++ new
          ++ x.slots.filter (fun y => decide (lo + d.count ≤ dist n x.head y.pos)),
        nextRead := x.nextRead + 1 }) s1)

/-- DESCRIPTOR_READ_END. -/
def execDescriptorReadEnd (t : Fin 4) (r : Fin 132) (h : HostRead) (s : State) : Host.Outcome State Fault Refusal :=
  live (descriptorReadEndEffect t r h) s

/-- A descriptor read reaches CPL_TIMEOUT: reissued before the tail, dropped beyond it (R187, R211, R212). -/
def descriptorReadTimeoutEffect (t r : Nat) (s : State) : State :=
  match (ring s t r).read with
  | none => s
  | some d =>
    if !readWaits s t r then s else
    let s1 := perfAdd (0x0A0004 + 256 * t) 1 (waitUntil (d.since + cplTimeout s t) s)
    if d.beyond then
      serve t r (countRing t r 3 1 (readDrop t r (recoverFix t r (voidCycles t d.cycles
        (modRing t r (fun x => { x with read := none }) s1)))))
    else perfAdd (0x0A0001 + 256 * t) 1 (engineSteps t 1 (modRing t r (fun x => { x with
      read := some { d with since := s1.clk, reissued := true, cycles := d.cycles + 1 }, recovering := true })
      (ringTurn t 1 s1)))

/-- DESCRIPTOR_READ_TIMEOUT. -/
def execDescriptorReadTimeout (t : Fin 4) (r : Fin 132) (s : State) : Host.Outcome State Fault Refusal :=
  live (descriptorReadTimeoutEffect t r) s

/-- A first slot that read OWN = 0 is read again 1 µs later (R184). -/
def ownRereadEffect (t r : Nat) (s : State) : State :=
  match (ring s t r).ownWait with
  | none => s
  | some at0 => serve t r (modRing t r (fun x => { x with ownWait := none }) (waitUntil (at0 + us 1) s))

/-- OWN_REREAD. -/
def execOwnReread (t : Fin 4) (r : Fin 132) (s : State) : Host.Outcome State Fault Refusal :=
  live (ownRereadEffect t r) s

/-- The fetch clock reaches FETCH_TIMEOUT (R210). -/
def fetchTimeoutEffect (t r : Nat) (s : State) : State :=
  let s := clockFix t r s
  match (ring s t r).clockAt with
  | none => s
  | some at0 =>
    let s1 := waitUntil (at0 + (us (pn s (0x030008 + 256 * t)) - (ring s t r).clockHeld)) s
    let a := slotAddr s t r (ring s t r).head
    tenantFault t 2 (if isRx r then r - 68 else r) (isRx r) 0 (a % 2 ^ 32) (a / 2 ^ 32) 0 s1

/-- FETCH_TIMEOUT. -/
def execFetchTimeout (t : Fin 4) (r : Fin 132) (s : State) : Host.Outcome State Fault Refusal :=
  live (fetchTimeoutEffect t r) s

/-- Since when the oldest read for a ring is outstanding: its descriptor read or the buffer read of its frame (R212). -/
def oldestRead (s : State) (t r : Nat) : Option Nat :=
  let buf := if readWaits s t 200 then ((ten s t).staging.find? fun f => f.ring == r && !f.complete).map (·.readAt) else none
  match (if readWaits s t r then (ring s t r).read.map (·.since) else none), buf with
  | some a, some b => some (min a b)
  | some a, none => some a
  | none, b => b

/-- A read for the ring has been outstanding for 100 µs (R212). -/
def recoveringOnsetEffect (t r : Nat) (s : State) : State :=
  match oldestRead s t r with
  | none => s
  | some at0 => modRing t r (fun x => { x with recovering := true }) (waitUntil (at0 + us 100) s)

/-- RECOVERING_ONSET. -/
def execRecoveringOnset (t : Fin 4) (r : Fin 132) (s : State) : Host.Outcome State Fault Refusal :=
  live (recoveringOnsetEffect t r) s

/-- TX_BUFFER_READ_TIMEOUT. -/
def execTxBufferReadTimeout (t : Fin 4) (s : State) : Host.Outcome State Fault Refusal :=
  live (txBufferReadTimeoutEffect t) s

/-- A write-back held for 1 µs is sent (R192). -/
def writeBackHoldExpiryEffect (t r : Nat) (s : State) : State :=
  match (ring s t r).heldAt with
  | none => s
  | some at0 => serve t r (drain t r true (waitUntil (at0 + us 1) s))

/-- WRITE_BACK_HOLD_EXPIRY. -/
def execWriteBackHoldExpiry (t : Fin 4) (r : Fin 132) (s : State) : Host.Outcome State Fault Refusal :=
  live (writeBackHoldExpiryEffect t r) s

/-- RX_DELIVERY. -/
def execRxDelivery (t : Fin 4) (r : Fin 64) (ecc : EccHit) (s : State) : Host.Outcome State Fault Refusal :=
  live (rxDeliveryEffect t r ecc) s

/-- FLUSH_COMPLETE: the flush ends, and a faulted tenant's last one sets STOPPED (R147, R203). -/
def flushCompleteEffect (t r : Nat) (s : State) : State := stoppedCheck t (flushEnd t r s)

/-- FLUSH_COMPLETE. -/
def execFlushComplete (t : Fin 4) (r : Fin 132) (s : State) : Host.Outcome State Fault Refusal :=
  live (flushCompleteEffect t r) s

end Sys2Proof.Machine
end

