-- ==== Sys2Proof/Machine/Ports.lean ====
section
/-! DEFINITION. Ports, lanes and MDIO (chapter 8) and egress (chapter 10): link state, receive checks, pause and PFC,
egress copy and launch, one-step update, preemption; with the meanings of their events. -/

set_option Elab.async false

namespace Sys2Proof.Machine

/-! ### Modes, speeds and link state (R238 to R244) -/

/-- LANE_MODE of port p's lane. -/
def laneMode (s : State) (p : Nat) : Nat := pn s (0x110000 + 256 * (p / 4))

/-- The port is carried by its lane's mode (Table 8.1). -/
def available (s : State) (p : Nat) : Bool :=
  let m := laneMode s p
  m == 1 || m == 2 || (decide (3 ≤ m) && decide (m ≤ 6) && p % 4 == 0)

/-- SPEED_CFG codes a lane mode accepts for a port it carries (Table 8.1); an unavailable port accepts 0 (R239). -/
def speedOk (mode p code : Nat) : Bool :=
  match mode with
  | 1 => decide (code ≤ 3)
  | 2 => decide (code ≤ 4)
  | 3 => code == 0 || (code == 5 && p % 4 == 0)
  | 4 => code == 0 || (decide (code ≤ 3) && p % 4 == 0)
  | 5 => code == 0 || (code == 3 && p % 4 == 0)
  | 6 => code == 0 || (code == 4 && p % 4 == 0)
  | _ => code == 0

/-- The speed of a mode when SPEED_CFG is 0 and in-band negotiation is off (Table 8.1). -/
def modeSpeed : Nat → Nat
  | 1 => 3
  | 2 => 4
  | 3 => 5
  | 4 => 3
  | 5 => 3
  | 6 => 4
  | _ => 0

/-- In-band negotiation applies to the port's lane (R241). -/
def negotiates (s : State) (p : Nat) : Bool :=
  let m := laneMode s p
  bitOf (pn s (0x110001 + 256 * (p / 4))) 0 && m != 3 && m != 6

/-- PORT_CTL enable. -/
def portEnabled (s : State) (p : Nat) : Bool := bitOf (pn s (0x100000 + 256 * p)) 0

/-- The loopback of a port (R267). -/
def loopback (s : State) (p : Nat) : Nat := bits (pn s (0x100000 + 256 * p)) 1 2

/-- The speed code the port runs at while its link is up (R241, R267). -/
def runSpeed (s : State) (p : Nat) : Nat :=
  let c := pn s (0x100001 + 256 * p)
  if c ≠ 0 then c
  else if negotiates s p && loopback s p != 1 then (port s p).inSpeed
  else modeSpeed (laneMode s p)

/-- Port p is polled by an MDIO master (R263). -/
def polled (s : State) (p : Nat) : Bool :=
  portEnabled s p && available s p && laneMode s p != 5 && laneMode s p != 6

/-- Every link condition of R243 holds, with R241, R242, R27 and a quad in power (R514). MAC loopback alone waives the lane,
the in-band word and the PHY (R267); a PCS loopback waives nothing (assumption 55). -/
def linkCond (s : State) (p : Nat) : Bool :=
  let x := port s p
  let q := lane s (p / 4)
  let c := pn s (0x100001 + 256 * p)
  portEnabled s p && available s p && !fenced s (p / 4) && !q.down
    && (loopback s p == 1
      || (q.signal && q.lock
        && (!negotiates s p || (x.inLink && !x.inHalf && (c == 0 || c == x.inSpeed)))
        && (!polled s p || x.mdioUp)))

/-- A staged or wire frame leaves unsent with a status. -/
def endStaged (f : Staged) (st : TxStatus) (s : State) : State :=
  finishOrigin f.origin st f.bytes.length none s

/-- Every reference queued to a port and every frame in its egress stage is discarded with a status, counted in
TX_DISCARD (R29, R268, R22). -/
def clearEgress (p : Nat) (st : TxStatus) (s : State) : State :=
  let x := port s p
  let items := x.queues.flatMap fun q => q.2
  let s1 := modPort p (fun x => { x with queues := [], stage := [] }) s
  let s2 := forEach items (fun i s => countPort p 20 1 (release i.frame (finishOrigin i.origin st 0 none s))) s1
  forEach x.stage (fun f s => countPort p 20 1 (endStaged f st s)) s2

/-- A frame on the wire, or preempted, is cut short: TX_ABORT, and ABORTED for a tenant's entry (R29). -/
def cutWire (p : Nat) (s : State) : State :=
  let x := port s p
  let gone := (match x.wire with
    | some f => [f]
    | none => []) ++ (match x.held with
    | some f => [f]
    | none => [])
  forEach gone (fun f s => countPort p 21 1 (endStaged f .aborted s))
    (modPort p (fun x => { x with wire := none, held := none }) s)

/-- The link of a port falls: source 13, LINK_DOWN, and its references are discarded (R29, R244). -/
def linkDrop (p : Nat) (cut : Bool) (s : State) : State :=
  if !(port s p).link then s
  else
    let s1 := modPort p (fun x => { x with link := false, speed := 0, qualAt := none, paused := [], ctlDue := [] }) s
    let s2 := countPort p 23 1 (raise 0 13 s1)
    clearEgress p .linkDown (if cut then cutWire p s2 else s2)

/-- Judge a port's link conditions after a change: they start the 1 ms, or the link falls (R243). -/
def linkReview (p : Nat) (s : State) : State :=
  if linkCond s p then
    if (port s p).link then modPort p (fun x => { x with speed := runSpeed s p }) s
    else if (port s p).qualAt.isSome then s
    else modPort p (fun x => { x with qualAt := some s.clk }) s
  else linkDrop p true (modPort p (fun x => { x with qualAt := none }) s)

/-- Judge the four ports of a lane. -/
def laneReview (q : Nat) (s : State) : State := forAll 4 (fun i s => linkReview (4 * q + i) s) s

/-- PORT_STAT (Table 4.5). -/
def portStat (s : State) (p : Nat) : Nat :=
  let x := port s p
  if available s p then flag x.link 0 + (if x.link then 2 * x.speed else 0) + flag (anyPaused s p) 4 else 0

/-- The ports that MDIO master k polls, in ascending order (R263). -/
def mdioPorts (s : State) (k : Nat) : List Nat :=
  (List.range 32).filter fun p => polled s p && bits (pn s (0x10000D + 256 * p)) 5 1 == k

/-- MDIO_STAT of master k (R264, R265): it owns its bus while a polled port is assigned to it, and until the frame in
progress is complete. -/
def mdioStat (s : State) (k : Nat) : Nat :=
  let m := tget s.mdio k {}
  flag (m.owns || mdioPorts s k != []) 0 + flag m.noResp 1

/-- The start granularity G of R323, in 2^-16 ns. -/
def startGrain (speed : Nat) : Nat :=
  match speed with
  | 1 => 800 * 65536
  | 2 => 80 * 65536
  | 3 => 8 * 65536
  | _ => 419430

/-- Add LEN + 20 of a frame to the bandwidth sum, when its port and direction are measured (R467). -/
def bwCount (p : Nat) (tx : Bool) (len : Nat) (s : State) : State :=
  let v := pn s 0x61000A
  if s.perf.bwAt.isSome ∧ bits v 0 5 = p ∧ bitOf v 5 = tx then
    { s with perf := { s.perf with bwSum := stick 48 s.perf.bwSum (len + 20) } }
  else s

/-! ### Receive (R245, R246, R250, R257) -/

/-- A received pause quanta count for a class: 0 ends the pause (R257). -/
def pauseFor (p c quanta : Nat) (s : State) : State :=
  modPort p (fun x =>
    let q := if quanta = 0 then x.paused.filter (fun e => e.1 != c)
      else tput x.paused c (s.clk + quantaTicks x.speed quanta)
    { x with paused := q }) s

/-- A MAC control frame is consumed (R250, R251, R257). -/
def macControlReceive (p : Nat) (bs : List Byte) (s : State) : State :=
  let flow := pn s (0x100004 + 256 * p)
  let op := be16 bs 14
  if op = 0x0001 then
    let s1 := countPort p 7 1 s
    if bitOf flow 1 then pauseFor p 8 (be16 bs 16) s1 else s1
  else if op = 0x0101 then
    forAll 8 (fun c s =>
      if bitOf (be16 bs 16) c && bitOf flow (c + 8) then pauseFor p c (be16 bs (18 + 2 * c)) s else s) (countPort p 8 1 s)
  else countPort p 9 1 s

/-- The bytes of 20 KiB an RX stage buffer held at an instant: the frames that had ended by then and had not yet left. -/
def stageUse (x : Port) (at0 : Nat) : Nat :=
  ((x.rx.filter fun r => decide (r.at0 ≤ at0)).map fun r => r.bytes.length + 12).sum
    + ((x.rxGone.filter fun g => decide (g.1 ≤ at0 ∧ at0 < g.2.1)).map fun g => g.2.2).sum

/-- The instant at which a frame that ends now began: its preamble, its bytes and the gaps between its fragments before
(R246, R247). -/
def frameStart (s : State) (p : Nat) (f : RxFrame) : Nat :=
  s.clk - byteTicks (port s p).speed (8 + f.bytes.length + f.extra)

/-- No room was free at the start of a frame for MAX_FRAME + 12 bytes, beside what the stage held then and the frame whose
fragments enclose this one (R246). -/
def stageFull (s : State) (p : Nat) (f : RxFrame) : Bool :=
  let need := pn s (0x100003 + 256 * p) + 12
  decide (stageUse (port s p) (frameStart s p f) + (if f.nested then need else 0) + need > 20480)

/-- The ingress timestamp of a frame that has just ended: the device time at its timestamp point, plus TS_IN_OFFSET (R308),
in 2^-16 ns. -/
def ingressTime (s : State) (p : Nat) (f : RxFrame) : Nat :=
  let off := toInt 24 (pn s (0x10000B + 256 * p)) * 256
  ((devAt s (s.clk * 131072 - byteTime (port s p).speed (f.bytes.length + f.extra)) : Int) + off).toNat

/-- A frame of len bytes that passes every check counts in RX_OK and RX_OCTETS (Table 8.4). -/
def acceptCount (p len : Nat) (s : State) : State :=
  perfAdd (0x020002 + 256 * p) len (perfAdd (0x020001 + 256 * p) 1
    (bwCount p false len (countPort p 1 len (countPort p 0 1 s))))

/-- A frame that passes every check enters the RX stage. -/
def stageFrame (p : Nat) (f : RxFrame) (s : State) : State :=
  modPort p (fun x => { x with rx := x.rx ++ [⟨f.bytes, ingressTime s p f, f.preempt, s.clk⟩] })
    (acceptCount p f.bytes.length s)

/-- A frame that passes every check and is then discarded: RX_FILTERED counts it as well (R295, R549). -/
def filterFrame (p len : Nat) (s : State) : State := countPort p 11 1 (acceptCount p len s)

/-- The checks of Table 8.3 in order; enter says what becomes of a frame that passes them all. Reception stops at
MAX_FRAME + 1 bytes, so that an error character beyond them is not seen (R245). -/
def receiveChecks (p : Nat) (f : RxFrame) (enter : State → State) (s : State) : State :=
  let len := f.bytes.length
  let maxF := pn s (0x100003 + 256 * p)
  if f.preempt && f.preemptError then countPort p 15 1 s
  else if f.codeError.any (fun k => decide (k ≤ maxF)) then countPort p 6 1 s
  else if len < 64 then (if fcsGood f.bytes then countPort p 3 1 s else countPort p 4 1 s)
  else if len > maxF then countPort p 5 1 s
  else if !fcsGood f.bytes then countPort p 2 1 s
  else if be16 f.bytes 12 = 0x8808 then bwCount p false len (macControlReceive p f.bytes s)
  else if stageFull s p f then countPort p 10 1 s
  else enter s

/-- A frame that the MAC receives: in the device safe state it is discarded after the checks and counted in RX_FILTERED
(R549). -/
def macReceive (p : Nat) (f : RxFrame) (s : State) : State :=
  if s.safety.safe then receiveChecks p f (filterFrame p f.bytes.length) s else receiveChecks p f (stageFrame p f) s

/-- A MAC control frame leaves the MAC now: it takes the wire for its 72 byte times and the idle after them (R247, R255).
In a loopback it comes back to the receive path as it ends (R267). -/
def leaves (p : Nat) (bytes : List Byte) (s : State) : State :=
  let ends := s.clk + byteTicks (port s p).speed (8 + bytes.length)
  let s1 := modPort p (fun x => { x with freeAt := ends + byteTicks x.speed 12 }) s
  if loopback s p = 0 then modPort p (fun x => { x with sent := x.sent ++ [bytes] }) s1
  else macReceive p ⟨bytes, none, false, false, 0, false⟩ (waitUntil ends s1)

/-! ### Pause and PFC on transmit (R254, R255) -/

/-- The MAC control frame for what is due: 802.3x pause, or one PFC frame for every class due (R254). -/
def controlFrame (s : State) (p : Nat) (pause : Bool) : List Byte :=
  let x := port s p
  let mac := pwide s (0x100009 + 256 * p) 2
  let head := [0x01, 0x80, 0xC2, 0x00, 0x00, 0x01] ++ leBytes 6 mac ++ beBytes 2 0x8808
  let body := if pause then beBytes 2 1 ++ beBytes 2 (tget x.ctlDue 8 0)
    else
      let due := x.ctlDue.filter fun e => decide (e.1 < 8)
      beBytes 2 0x0101 ++ beBytes 2 ((due.map fun e => 2 ^ e.1).sum)
        ++ (List.range 8).flatMap fun c => beBytes 2 (tget due c 0)
  padded (head ++ body)

/-- A control frame starting now would still be on the wire at the launch instant of a staged frame (R255). -/
def disturbsLaunch (s : State) (p : Nat) : Bool :=
  (port s p).stage.any fun f => match f.launch with
    | some l => decide (nowNs s < l) && decide (l < nowNs s + byteNs (port s p).speed 72)
    | none => false

/-- A due pause or PFC frame is sent whole once the wire has been idle long enough (R247, R254, R255). -/
def macControlSendEffect (p : Nat) (s0 : State) : State :=
  let s := if (port s0 p).wire.isNone && (port s0 p).ctlDue != [] then waitUntil (port s0 p).freeAt s0 else s0
  let x := port s p
  if x.ctlDue = [] ∨ x.wire.isSome ∨ !x.link ∨ s.safety.safe ∨ disturbsLaunch s p then s
  else
    let pause := x.ctlDue.any fun e => e.1 == 8
    let frame := controlFrame s p pause
    let went := fun (c : Nat) => if pause then c == 8 else decide (c < 8)
    let s1 := modPort p (fun x => { x with
      ctlDue := x.ctlDue.filter (fun e => !went e.1),
      xoff := x.xoff.map fun e => if went e.1 then (e.1, { e.2 with sentAt := s.clk }) else e }) s
    leaves p frame (bwCount p true 64 (countPort p (if pause then 18 else 19) 1 s1))

/-- While XOFF persists the frame falls due again every 32,768 quanta (R254). -/
def pfcRefreshEffect (p : Nat) (s : State) : State :=
  let x := port s p
  match x.xoff with
  | [] => s
  | (_, x0) :: _ =>
    let gap := quantaTicks x.speed 32768
    let s1 := waitUntil (x.xoff.foldl (fun m e => min m (e.2.sentAt + gap)) (x0.sentAt + gap)) s
    forEach x.xoff (fun (c, y) s =>
      if y.sentAt + gap ≤ s.clk then modPort p (fun x => { x with ctlDue := tput x.ctlDue c 0xFFFF }) s else s) s1

/-! ### Egress (R321 to R327) -/

/-- A class head is due: its launch at most 20 µs ahead, its gate open or opening within 20 µs (R321). -/
def due (s : State) (p c : Nat) (i : EgItem) : Bool :=
  (match i.launch with
    | some l => decide (l ≤ nowNs s + 20000)
    | none => true)
  && (match untilGate s p c true with
    | some d => decide (d ≤ 20000)
    | none => false)

/-- A preemptable frame waits on hold, and while another one stands preempted (R326, Clause 99). -/
def preemptableWaits (s : State) (p : Nat) (f : Staged) : Bool :=
  preempting s p && !express s p f.cls && ((port s p).held.isSome || (port s p).gate.hold)

/-- A staged frame is eligible (R322, R326). -/
def stagedEligible (s : State) (p : Nat) (f : Staged) : Bool :=
  gateEligible s p f && launched s f && !classPaused s p f.cls && !preemptableWaits s p f

/-- The frame the wire side would start: of the eligible ones the highest class. Frames of one class keep the order in
which they were staged, so that one with a future launch time blocks the later ones (R321, R322). -/
def pickStaged (s : State) (p : Nat) : Option Staged :=
  [7, 6, 5, 4, 3, 2, 1, 0].findSome? fun c =>
    match (port s p).stage.find? (fun f => f.cls == c) with
    | some f => if stagedEligible s p f then some f else none
    | none => none

/-- The tag of a frame as the egress stage holds it: a relayed frame's SRC_KIND goes from 0 to 2 and nothing else changes
(R10). -/
def egressTag (o : Origin) (tag : List Word) : List Word :=
  match o, tag with
  | .relay, w0 :: rest => word (putBits w0.toNat 21 3 2) :: rest
  | _, _ => tag

/-- Copy a due head into a free egress-stage slot; its reference completes (R15, R321, R324). -/
def egressCopyEffect (p : Nat) (ecc : EccHit) (s : State) : State :=
  let x := port s p
  if x.stage.length ≥ 2 ∨ s.pair.role ≥ 2 then s
  else
    match ([7, 6, 5, 4, 3, 2, 1, 0].find? fun c => match queueOf s p c with
        | i :: _ => due s p c i
        | [] => false) with
    | none => s
    | some c => match queueOf s p c with
      | [] => s
      | i :: rest =>
        let f := frame s i.frame
        let s1 := cellsCorrected ecc (setClassQueue p c rest s)
        if ecc = .glade then
          let s2 := cellError i.frame s1
          match i.origin with
          | .relay => release i.frame (countRxEcc i.frame s2)
          | o => release i.frame (finishOrigin o .ecc 0 none s2)
        else
          let late := match i.launch with
            | some l => decide (l * 65536 < s.time.dev)
            | none => false
          let s2 := release i.frame s1
          if late then finishOrigin i.origin .launchMissed 0 none s2
          else
            let st : Staged := { cls := c, origin := i.origin, launch := i.launch, supplied := i.supplied,
                                 tag := egressTag i.origin f.tag, bytes := f.bytes }
            let s3 := modPort p (fun x => { x with stage := x.stage ++ [st] }) s2
            match i.origin with
            | .tenant t r pos _ _ _ _ => modEntry t r pos (fun e => { e with stage := .egress }) s3
            | _ => s3

/-- The one-step Sync update of a frame with egress timestamp te in 2^-16 ns (R309 to R311). -/
def oneStep (f : Staged) (te : Nat) : List Byte :=
  match f.origin with
  | .tenant _ _ _ tsReq l4 l3off l4off =>
    let bs := f.bytes
    let h := if l4 = 2 then l4off + 8 else l4off
    if !f.update ∨ !tsReq ∨ l4 = 1 ∨ h < 14 ∨ h + 44 > f.supplied
        ∨ byteAt bs h % 16 ≠ 0 ∨ byteAt bs (h + 1) % 16 ≠ 2 ∨ bitOf (byteAt bs (h + 6)) 1 then bs
    else
      let t0 : Int := (beNat (slice bs (h + 34) 6) * 1000000000 + beNat (slice bs (h + 40) 4)) * 65536
      let diff : Int := (te : Int) - t0
      let old := toInt 64 (beNat (slice bs (h + 8) 8))
      let new := old + diff
      if diff.natAbs ≥ 1000000000 * 65536 ∨ new ≥ 2 ^ 63 ∨ new < -(2 ^ 63) then bs
      else
        let corr := beBytes 8 (ofInt 64 new)
        let b1 := patch bs (h + 8) corr
        let at0 := l4off + 6
        let c0 := be16 bs at0
        let b2 := if l4 ≠ 2 ∨ (c0 = 0 ∧ byteAt bs l3off / 16 = 4) then b1
          else
            -- ones'-complement update, each 16-bit word taken at its place in the UDP header's alignment
            let odd := (h + 8 - l4off) % 2 = 1
            let w := fun (v : List Byte) => if odd then sum16 ((0 : Byte) :: v ++ [0]) else sum16 v
            let sum := (65535 - c0) + (4 * 65535 + 65535 - fold16 (w (slice bs (h + 8) 8))) + fold16 (w corr)
            let c := csum16 sum
            patch b1 at0 (beBytes 2 (if c = 0 then 65535 else c))
        b2.take (b2.length - 4) ++ fcsOf (b2.take (b2.length - 4))
  | _ => f.bytes

/-- The egress timestamp of a frame whose timestamp point has passed: the device time there, 8 byte times after its first
preamble bit, plus TS_EG_OFFSET as it started (R308), in 2^-16 ns. -/
def egressTime (s : State) (f : Staged) : Nat := ((devAt s (f.startAt + byteTime f.speed 8) : Int) + f.egOff).toNat

/-- The instant at which the frame on the wire, or its last fragment, ends (R247, R326). -/
def wireEnd (f : Staged) : Nat := f.clkAt + byteTicks f.speed (8 + f.bytes.length - f.sentB)

/-- A frame as it starts on the wire at an instant of true time: what the wire side takes with it (R260, R308, R309). -/
def onWire (s : State) (p : Nat) (f : Staged) (startAt : Nat) : Staged :=
  { f with
    clkAt := s.clk, startAt := startAt, speed := (port s p).speed,
    egOff := toInt 24 (pn s (0x10000C + 256 * p)) * 256, update := bitOf (pn s 0x300008) 0,
    pre := preempting s p && !express s p f.cls }

/-- Start a staged frame on the wire from a base instant of the device time, within G of it (R323). -/
def startFrame (p : Nat) (f : Staged) (base : Nat) (s : State) : State :=
  let delta := freeNat s % startGrain (port s p).speed
  let g := onWire s p f (s.clk * 131072 + delta - (s.time.dev - base))
  let s1 := modPort p (fun x => { x with stage := x.stage.erase f, wire := some g }) (drawn s)
  match f.origin with
  | .tenant t r pos _ _ _ _ => modEntry t r pos (fun e => { e with stage := .wire }) s1
  | _ => s1

/-- The wire side reads a staged frame to start it: an uncorrectable error in its words discards it (R272). -/
def readStaged (p : Nat) (f : Staged) (base : Nat) (ecc : EccHit) (s : State) : State :=
  if ecc = .egressStage then
    let s1 := setMFault 3 (2 + p / 4) 31 (0x20 + p) 1 false (modPort p (fun x => { x with stage := x.stage.erase f }) s)
    countPort p 20 1 (endStaged f .ecc s1)
  else startFrame p f base s

/-- The frame on the wire is cut at the earliest point Clause 99 permits (R326, assumption 56): with at least F bytes in
the fragment and 64 left after it (R325); one that has not started yet goes back whole. -/
def cutFrame (p : Nat) (s : State) : State :=
  let x := port s p
  match x.wire, x.held with
  | some f, none =>
    if !f.pre then s
    else if s.clk < f.clkAt then modPort p (fun x => { x with wire := none, held := some f, freeAt := f.clkAt }) s
    else
      let frag := 64 * (1 + bits (pn s (0x100007 + 256 * p)) 16 2)
      let cut := max frag ((s.clk - f.clkAt) * mbps f.speed / 4000 - 8)
      if f.bytes.length < f.sentB + cut + 64 then s
      else modPort p (fun x => { x with
        wire := none, held := some { f with sentB := f.sentB + cut, fragments := f.fragments + 1 },
        freeAt := f.clkAt + byteTicks f.speed (8 + cut + 4 + 12) }) s
  | _, _ => s

/-- A preempted frame resumes when the wire is idle, its gate open, hold released, and no staged frame goes first (R326). -/
def resumeHeld (p : Nat) (s : State) : State :=
  let x := port s p
  match x.wire, x.held with
  | none, some h =>
    if gateOpen s p h.cls && !x.gate.hold && (pickStaged s p).isNone then
      modPort p (fun x => { x with wire := some { h with clkAt := max s.clk x.freeAt }, held := none }) s
    else s
  | _, _ => s

/-- A preemptable frame on the wire is preempted when its gate closes or hold begins (R326). -/
def preemptWire (p : Nat) (s : State) : State :=
  match (port s p).wire with
  | some f => if !gateOpen s p f.cls || (port s p).gate.hold then cutFrame p s else s
  | none => s

/-- An express frame is ready to start: a preemptable frame on the wire gives way to it (R260). -/
def expressReady (s : State) (p : Nat) : Bool :=
  match pickStaged s p with
  | some f => express s p f.cls
  | none => false

/-- The idle wire starts the eligible staged frame of the highest class, else the preempted frame; where every staged
frame only waits for its launch time, time passes to the earliest of them (R247, R322, R323, R326). -/
def launchIdle (p : Nat) (ecc : EccHit) (s0 : State) : State :=
  if (port s0 p).wire.isSome ∨ ((port s0 p).stage = [] ∧ (port s0 p).held.isNone) then s0
  else
    let s := waitUntil (port s0 p).freeAt s0
    match pickStaged s p with
    | some f => readStaged p f s.time.dev ecc s
    | none =>
      let s1 := resumeHeld p s
      match (if (port s1 p).wire.isSome then [] else (port s1 p).stage.filterMap fun f =>
          if launched s1 f then none else f.launch) with
      | [] => s1
      | l :: ls =>
        let at0 := (ls.foldl min l) * 65536
        let s2 := waitDev at0 s1
        match pickStaged s2 p with
        | some f => readStaged p f (if f.launch.isSome then min at0 s2.time.dev else s2.time.dev) ecc s2
        | none => s2

/-- The wire side of a port starts a frame: on an idle wire, or in the place of a preemptable frame that gives way to an
express one, now or at the launch time of one before its end (R260, R322, R323). -/
def egressLaunchEffect (p : Nat) (ecc : EccHit) (s : State) : State :=
  let x := port s p
  if !x.link ∨ s.safety.safe ∨ s.pair.role ≥ 2 then s
  else match x.wire with
    | none => launchIdle p ecc s
    | some f =>
      if expressReady s p then launchIdle p ecc (cutFrame p s)
      else match (x.stage.filterMap fun g => if launched s g || !express s p g.cls then none else g.launch) with
        | [] => s
        | l :: ls =>
          let s1 := waitDev ((ls.foldl min l) * 65536) s
          if f.pre && decide (s1.clk < wireEnd f) && expressReady s1 p then launchIdle p ecc (cutFrame p s1) else s

/-- The last bit of the frame on the wire leaves: its counters, its entry and its ring (R224, R262, R270); at least 12 byte
times of idle follow it (R247). Where the frame goes is Machine/PortEvents.lean's. -/
def txEnd (p : Nat) (s : State) : State :=
  match (port s p).wire with
  | none => s
  | some f =>
    let s0 := waitUntil (wireEnd f) s
    let len := f.bytes.length
    let s1 := modPort p (fun x => { x with wire := none, freeAt := s0.clk + byteTicks f.speed 12 }) s0
    let s2 := bwCount p true len (countPort p 17 len (countPort p 16 1 s1))
    let s3 := perfAdd (0x020004 + 256 * p) len (perfAdd (0x020003 + 256 * p) 1 s2)
    let s4 := if f.fragments > 0 then countPort p 22 1 s3 else s3
    let s5 := finishOrigin f.origin .sent len (some (egressTime s0 f / 65536)) s4
    let s6 := match f.origin with
      | .tenant t r _ _ _ _ _ => serve t r s5
      | _ => s5
    resumeHeld p s6

/-! ### Meanings -/

/-- PAUSE_EXPIRY: the received quanta of a class elapse (R257). -/
def pauseExpiryEffect (p c : Nat) (s : State) : State :=
  forEach ((port s p).paused.filter fun e => e.1 == c || e.1 == 8) (fun (k, at0) s =>
    let s1 := waitUntil at0 s
    modPort p (fun x => { x with paused := x.paused.filter (fun e => e.1 != k) }) s1) s

/-- PAUSE_EXPIRY. -/
def execPauseExpiry (p : Fin 32) (c : Fin 8) (s : State) : Host.Outcome State Fault Refusal :=
  live (pauseExpiryEffect p c) s

/-- MAC_CONTROL_SEND. -/
def execMacControlSend (p : Fin 32) (s : State) : Host.Outcome State Fault Refusal := live (macControlSendEffect p) s

/-- PFC_REFRESH. -/
def execPfcRefresh (p : Fin 32) (s : State) : Host.Outcome State Fault Refusal := live (pfcRefreshEffect p) s

/-- LINK_DOWN: a link condition fails (R243). The failing condition is the environment's; where the conditions
that State holds still hold, the 1 ms begins again. -/
def linkDownEffect (p : Nat) (s : State) : State :=
  linkReview p (linkDrop p true (modPort p (fun x => { x with qualAt := none }) s))

/-- LINK_DOWN. -/
def execLinkDown (p : Fin 32) (s : State) : Host.Outcome State Fault Refusal := live (linkDownEffect p) s

/-- LANE_SIGNAL_LOSS (R271). -/
def laneSignalLossEffect (q : Nat) (s : State) : State :=
  laneReview q (modLane q (fun x => { x with signal := false, lock := false }) s)

/-- LANE_SIGNAL_LOSS. -/
def execLaneSignalLoss (q : Fin 8) (s : State) : Host.Outcome State Fault Refusal := live (laneSignalLossEffect q) s

/-- LANE_LOCK_ACQUIRED (R243): the lane is on and powered. What the receive equaliser adapted to, in RX_EQ_STAT
(Table 4.5), is a free value (assumption 5). -/
def laneLockAcquiredEffect (q : Nat) (s : State) : State :=
  if pn s (0x110000 + 256 * q) = 0 ∨ (lane s q).down ∨ fenced s q then s
  else
    let s1 := drawn (setPw (0x110003 + 256 * q) (freeNat s) s)
    laneReview q (modLane q (fun x => { x with signal := true, lock := true }) s1)

/-- LANE_LOCK_ACQUIRED. -/
def execLaneLockAcquired (q : Fin 8) (s : State) : Host.Outcome State Fault Refusal := live (laneLockAcquiredEffect q) s

/-- IN_BAND_LINK_CHANGE (R241, R242). -/
def inBandLinkChangeEffect (p : Nat) (up : Bool) (speed : Nat) (half : Bool) (s : State) : State :=
  linkReview p (modPort p (fun x => { x with inLink := up, inSpeed := speed, inHalf := half }) s)

/-- IN_BAND_LINK_CHANGE. -/
def execInBandLinkChange (p : Fin 32) (up : Bool) (speed : Fin 6) (half : Bool) (s : State) :
    Host.Outcome State Fault Refusal := live (inBandLinkChangeEffect p up speed half) s

/-- The n low bits of a number, the highest first. -/
def msbBits (n v : Nat) : List Bool := ((List.range n).map fun i => bitOf v i).reverse

/-- The bits a master drives in the poll of port p: the read frame of Clause 22, or the address and read frames of
Clause 45, each after its preamble (R263, assumption 57). -/
def mdioBits (s : State) (k p : Nat) : List Bool :=
  let a := pn s (0x10000D + 256 * p)
  let lead := if bitOf (pn s (0x120001 + 256 * k)) 0 then [] else List.replicate 32 true
  let who := msbBits 5 a ++ msbBits 5 1
  if bitOf a 6 then lead ++ msbBits 4 0 ++ who ++ msbBits 2 2 ++ msbBits 16 1 ++ lead ++ msbBits 4 3 ++ who
  else lead ++ msbBits 4 6 ++ who

/-- MDIO_POLL: master k reads the next polled port's link status, at MDC_RATE; with none left it has completed its last
frame and releases its bus (R263 to R265). -/
def mdioPollEffect (k : Nat) (a : MdioAnswer) (s0 : State) : State :=
  let m := tget s0.mdio k {}
  let mine := mdioPorts s0 k
  let next := match m.last with
    | some l => (mine.find? fun p => decide (l < p)).orElse fun _ => mine.head?
    | none => mine.head?
  match next with
  | none => { s0 with mdio := tput s0.mdio k { m with owns := false } }
  | some p =>
    let sent := mdioBits s0 k p
    let s := wait ((sent.length + 18) * 500000 / max 1 (pn s0 (0x120000 + 256 * k))) s0
    let (up, bad) := match a with
      | .noTurnaround => (false, true)
      | .value v => if v = 0xFFFF then (false, true) else (v.getLsbD 2, false)
    let s1 := { s with mdio := tput s.mdio k ⟨bad, some p, true, sent⟩ }
    linkReview p (modPort p (fun x => { x with mdioUp := up }) s1)

/-- MDIO_POLL. -/
def execMdioPoll (k : Fin 2) (a : MdioAnswer) (s : State) : Host.Outcome State Fault Refusal := live (mdioPollEffect k a) s

/-- EGRESS_COPY. -/
def execEgressCopy (p : Fin 32) (ecc : EccHit) (s : State) : Host.Outcome State Fault Refusal :=
  live (egressCopyEffect p ecc) s

/-- EGRESS_LAUNCH. -/
def execEgressLaunch (p : Fin 32) (ecc : EccHit) (s : State) : Host.Outcome State Fault Refusal :=
  live (egressLaunchEffect p ecc) s

/-- The gates of a port have changed: frames are preempted and resume (R326). -/
def gateReview (p : Nat) (s : State) : State := resumeHeld p (preemptWire p s)

/-- A gate control list entry begins: hold follows its OP, and frames are preempted and resume (R326). -/
def entryBegins (p : Nat) (s : State) : State :=
  let g := (port s p).gate
  match cyclePos s p (nowNs s) with
  | none => gateReview p s
  | some pos =>
    let op := (gateEntry s p g.active (entryOf s p g.active g.len g.cycle pos).1).2.1
    let hold := if op = 1 then true else if op = 2 then false else g.hold
    gateReview p (modPort p (fun x => { x with gate := { x.gate with hold := hold } }) s)

/-- A write of GATE_CTL: where ENABLE changes, the gates change at once (R317, R326). -/
def gateWrite (p v : Nat) (s : State) : State :=
  let s1 := gateCtlWrite p v s
  if (port s1 p).gate.enable = (port s p).gate.enable then s1 else entryBegins p s1

/-- A set or step of the device time: every port's gates take the state of the position the new time gives (R306, R318). -/
def timeChange (dev : Nat) (s : State) : State :=
  forAll 32 (fun p s => if (port s p).gate.enable then entryBegins p s else s) (setTime dev s)

/-- A gate control list entry begins (R318): time passes to its start. -/
def gateChangeEffect (p : Nat) (s : State) : State :=
  let g := (port s p).gate
  if !g.enable then s
  else
    let now := nowNs s
    let next := match cyclePos s p now with
      | none => g.base
      | some pos => now - pos + (entryOf s p g.active g.len g.cycle pos).2
    entryBegins p (waitDev (next * 65536) s)

/-- GATE_SWAP: time passes to the change time, at which the pending list becomes active at its entry 0 (R319). -/
def gateSwapEffect (p : Nat) (s : State) : State :=
  match (port s p).gate.swapAt with
  | none => s
  | some at0 => entryBegins p (gateCatchUp (waitDev (at0 * 65536) s))

/-- GATE_SWAP. -/
def execGateSwap (p : Fin 32) (s : State) : Host.Outcome State Fault Refusal := live (gateSwapEffect p) s

end Sys2Proof.Machine
end

