-- ==== Sys2Proof/Machine/Bch.lean ====
section
/-! DEFINITION. The BCH code of the flash medium (R374 to R376): GF(2^15), the generator, the parity of a codeword, and the
decoder, which corrects up to 72 bits or reports a codeword uncorrectable. -/

set_option Elab.async false

namespace Sys2Proof.Machine

/-! ### GF(2^15) with field polynomial x^15 + x + 1 (R375). An element is its coefficients as a number below 2^15. -/

/-- An element times α. -/
def gfDouble (a : Nat) : Nat := if 2 * a < 32768 then 2 * a else (2 * a) ^^^ 32771

/-- Products with the n low coefficients of b, added to acc. -/
def gfMulFrom : Nat → Nat → Nat → Nat → Nat
  | 0, _, _, acc => acc
  | n + 1, a, b, acc => gfMulFrom n (gfDouble a) (b / 2) (if b % 2 = 1 then acc ^^^ a else acc)

/-- The product of two elements. -/
def gfMul (a b : Nat) : Nat := gfMulFrom 15 a b 0

/-- Powers by the n low bits of the exponent. -/
def gfPowFrom : Nat → Nat → Nat → Nat → Nat
  | 0, _, _, acc => acc
  | n + 1, a, e, acc => gfPowFrom n (gfMul a a) (e / 2) (if e % 2 = 1 then gfMul acc a else acc)

/-- a to the power e, for e below 2^15. -/
def gfPow (a e : Nat) : Nat := gfPowFrom 15 a e 1

/-- The inverse of an element other than 0. -/
def gfInv (a : Nat) : Nat := gfPow a 32766

/-- α to the power e; the multiplicative group has order 2^15 - 1. -/
def alpha (e : Nat) : Nat := gfPow 2 (e % 32767)

/-- The value of a polynomial at a point, coefficients from the lowest degree. -/
def gfEval (p : List Nat) (x : Nat) : Nat := p.foldr (fun c acc => gfMul acc x ^^^ c) 0

/-- The product of a polynomial by x + r, coefficients from the lowest degree. -/
def gfTimesRoot (p : List Nat) (r : Nat) : List Nat :=
  List.zipWith (· ^^^ ·) (p.map (gfMul r) ++ [0]) (0 :: p)

/-! ### The generator: polynomials over GF(2) are numbers, bit k for the coefficient of x^k -/

/-- The minimal polynomial of α^i: its roots are the 15 conjugates of α^i. -/
def minimalPoly (i : Nat) : Nat :=
  let roots := (List.range 15).map fun j => alpha (i * 2 ^ j)
  let p := roots.foldl gfTimesRoot [1]
  p.foldr (fun c acc => 2 * acc + c) 0

/-- The product of two polynomials over GF(2), n coefficients of the second. -/
def polyMul : Nat → Nat → Nat → Nat
  | 0, _, _ => 0
  | n + 1, a, b => (if b % 2 = 1 then a else 0) ^^^ polyMul n (2 * a) (b / 2)

/-- The generator: the product of the minimal polynomials of α^1 to α^143, those of the odd powers (R375). -/
def bchGenerator : Nat := (List.range 72).foldl (fun g k => polyMul 16 g (minimalPoly (2 * k + 1))) 1

/-! ### Parity (R374, R375) -/

/-- The bits of bytes, each most significant bit first. -/
def byteBits (bs : List Byte) : List Bool :=
  bs.flatMap fun b => (List.range 8).map fun i => bitOf b.toNat (7 - i)

/-- The remainder of a bit string followed by 1,080 zeros, first bit highest, on division by a generator of degree 1,080. -/
def bchRemainder (g : Nat) (bits_ : List Bool) : Nat :=
  let low := g % 2 ^ 1080
  bits_.foldl (fun r b =>
    let out := bitOf r 1079 != b
    let r1 := 2 * r % 2 ^ 1080
    if out then r1 ^^^ low else r1) 0

/-- The 135 parity bytes of a message. -/
def bchParity (message : List Byte) : List Byte := beBytes 135 (bchRemainder bchGenerator (byteBits message))

/-- A codeword: 2,048 data bytes, 4 metadata bytes and the parity over both (R374). -/
def codeword (data mdata : List Byte) : List Byte := data ++ mdata ++ bchParity (data ++ mdata)

/-! ### The decoder (R376) -/

/-- The state of the search for the shortest locator: the locator, the one before its last growth, its length, the steps
since that growth and the discrepancy at it. -/
structure Locator where
  cur : List Nat
  prev : List Nat
  len : Nat
  gap : Nat
  disc : Nat
  deriving DecidableEq, Repr

/-- The sum of two polynomials over GF(2^15). -/
def gfAdd : List Nat → List Nat → List Nat
  | [], q => q
  | p, [] => p
  | a :: p, b :: q => (a ^^^ b) :: gfAdd p q

/-- One step of the search over the syndromes S_1, S_2, …: the discrepancy of step n, and the locator it leaves. -/
def locatorStep (syn : List Nat) (l : Locator) (n : Nat) : Locator :=
  let d := (List.range (l.len + 1)).foldl (fun acc i => acc ^^^ gfMul (l.cur.getD i 0) (syn.getD (n - i) 0)) 0
  if d = 0 then { l with gap := l.gap + 1 }
  else
    let fix := gfAdd l.cur (List.replicate l.gap 0 ++ l.prev.map (gfMul (gfMul d (gfInv l.disc))))
    if 2 * l.len ≤ n then ⟨fix, l.cur, n + 1 - l.len, 1, d⟩ else { l with cur := fix, gap := l.gap + 1 }

/-- The positions in error of a codeword of 17,496 bits, counted from its first bit, where at most 72 explain what was
read; none where the codeword is uncorrectable. -/
def bchErrors (word : List Byte) : Option (List Nat) :=
  let g := bchGenerator
  let rem := bchRemainder g (byteBits (word.take 2052)) ^^^ beNat ((word.drop 2052).take 135)
  if rem = 0 then some []
  else
    let ones := (List.range 1080).filter fun k => bitOf rem k
    let syn := (List.range 144).map fun j => ones.foldl (fun acc k => acc ^^^ alpha ((j + 1) * k)) 0
    let l := (List.range 144).foldl (locatorStep syn) ⟨[1], [1], 0, 1, 1⟩
    let found := (List.range 17496).filter fun i => gfEval l.cur (alpha (32767 - (17495 - i))) == 0
    if 0 < l.len ∧ l.len ≤ 72 ∧ found.length = l.len then some found else none

/-- Bits inverted in a byte string, bit 0 the most significant bit of byte 0. -/
def flipBits (bs : List Byte) (at_ : List Nat) : List Byte :=
  at_.foldl (fun acc k => setAt acc (k / 8) (acc.getD (k / 8) 0 ^^^ BitVec.ofNat 8 (2 ^ (7 - k % 8)))) bs

/-- What a codeword reads as: the bits corrected and the data bytes, or none for an uncorrectable one; a codeword with at
most 72 bits at 0 is erased and returns 0xFF (R376). -/
def decodeWord (word : List Byte) : Option (Nat × List Byte) :=
  let zeros := ((byteBits word).filter fun b => !b).length
  if zeros ≤ 72 then some (0, List.replicate 2048 0xFF)
  else (bchErrors word).map fun errs => (errs.length, (flipBits word errs).take 2048)

end Sys2Proof.Machine
end

