-- ==== Sys2Proof/Machine/Store.lean ====
section
/-! DEFINITION. The Journey Store (chapter 11): stream rows, records, segments with their chain and seal, page building
and programming, event locks and the protected fraction, store space, and the write watchdog. -/

set_option Elab.async false

namespace Sys2Proof.Machine

/-! ### Streams and geometry -/

/-- Stream k. -/
def stream (s : State) (k : Nat) : Stream := tget s.store.streams k {}

/-- s with the store changed. -/
def modStore (f : Store → Store) (s : State) : State := { s with store := f s.store }

/-- s with stream k changed. -/
def modStream (k : Nat) (f : Stream → Stream) (s : State) : State :=
  modStore (fun x => { x with streams := tmod x.streams k {} f }) s

/-- PAGE_SIZE (0x410002). -/
def pageSize (s : State) : Nat := pn s 0x410002

/-- PAGES_PER_BLOCK (0x410003). -/
def pagesPer (s : State) : Nat := pn s 0x410003

/-- Bytes of a data image (R331). -/
def imageLen (s : State) : Nat := pageSize s * (pagesPer s - 1)

/-- Configuration fields of a stream row (Table 11.7): word i, bits lo to lo + n - 1. -/
def rowField (s : State) (k i lo n : Nat) : Nat := bits (rowWord s 0x08 0 k i) lo n

/-- Segments a stream holds. -/
def held (s : State) (k : Nat) : List Segment := s.store.segs.filter fun g => g.stream == k

/-- The open segment of a stream. -/
def openSeg (s : State) (k : Nat) : Option Segment := s.store.segs.find? fun g => g.stream == k && !g.closed

/-- s with every segment of a stream and sequence changed. -/
def modSeg (k q : Nat) (f : Segment → Segment) (s : State) : State :=
  modStore (fun x => { x with segs := x.segs.map fun g => if g.stream = k ∧ g.seq = q then f g else g }) s

/-- OLDEST_SEQ of a stream (R352). -/
def oldestSeq (s : State) (k : Nat) : Nat :=
  match (held s k).map (·.seq) with
  | [] => 0
  | q :: qs => qs.foldl min q

/-- PROTECTED_SEGS (0x400003). -/
def protectedSegs (s : State) : Nat := (s.store.segs.filter (·.prot)).length

/-- Blocks available to streams: U of R364. -/
def streamBlocks (s : State) : Nat := (s.store.blocks.filter fun b => decide (b.state ≤ 1)).length

/-- Powered seconds of the cartridge (R371, R384). -/
def poweredSec (s : State) : Nat := s.store.powered + (s.clk - s.store.poweredAt) / 500000000

/-- The clock instant at which the cartridge's powered seconds reach n. -/
def poweredAt (s : State) (n : Nat) : Nat := s.store.poweredAt + (n - s.store.powered) * 500000000

/-- Every programmed block grows by n powered days (R384). -/
def ageBlocks (n : Nat) (s : State) : State :=
  modStore (fun x => { x with
    days := x.days + n,
    blocks := x.blocks.map fun b => if b.state = 1 ∨ b.state = 2 then { b with age := min 4095 (b.age + n) } else b }) s

/-- The whole days of powered time that AGE has not counted yet are counted (R384). -/
def ageCatchUp (s : State) : State := ageBlocks (poweredSec s / 86400 - s.store.days) s

/-- A command issued on the NAND bus. -/
def nandIssue (cs : List NandCmd) (s : State) : State := modStore (fun x => { x with nand := x.nand ++ cs }) s

/-- The number of a block's target, and of its LUN within the target (R389). -/
def blockLun (s : State) (b : Nat) : Nat × Nat :=
  let luns := bits (pn s 0x410001) 3 3
  let lun := b / max 1 (pn s 0x410004)
  (lun / max 1 luns, lun % max 1 luns)

/-- The time of a record, seconds and nanoseconds, of an instant in 2^-16 ns. -/
def secNs (ts : Nat) : Nat × Nat := (ts / 65536 / 1000000000, ts / 65536 % 1000000000)

/-! ### Drops and gap markers (R332, R340) -/

/-- Count a RECORD action not recorded: DROPS, and the gap with its cause bit (Table 11.2). -/
def dropRecord (k cause : Nat) (s : State) : State :=
  let s1 := putRowWord 0x08 0 k 12 10 (stick 24 (rowWord s 0x08 0 k 10) 1) s
  modStream k (fun x => { x with gap := stick 32 x.gap 1, gapCause := x.gapCause ||| 2 ^ cause }) s1

/-- What waits is a frame. -/
def WaitItem.isFrame (w : WaitItem) : Bool :=
  match w with
  | .frame _ _ => true
  | .marker _ _ _ _ => false

/-- What waits is a lock marker. -/
def WaitItem.isLock (w : WaitItem) : Bool :=
  match w with
  | .frame _ _ => false
  | .marker type _ _ _ => type == 2

/-- References the store holds. -/
def storeRefs (s : State) : Nat :=
  (s.store.streams.map fun e => (e.2.wait.filter WaitItem.isFrame).length).sum

/-- A suspend or a resume is in progress: recording has stopped. -/
def storeHeld (s : State) : Bool :=
  match s.store.cmd with
  | some (op, _, _) => op == 6 || op == 7 || op == 1
  | none => false

/-- The cause bit that keeps a RECORD action on stream k from creating a reference, if any (R26, R332, Table 11.2). -/
def recordBar (s : State) (k : Nat) : Option Nat :=
  let x := stream s k
  let rate := rowField s k 1 0 14
  if fenced s 17 || frameLost s || !bitOf (pn s 0x400000) 0 || decide (s.store.medium ≠ 3) || storeHeld s then some 3
  else if x.state ≠ 1 then some 2
  else if rate ≠ 0 ∧ bucketLevel x.bucket rate 18464 s.clk < 0 then some 0
  else if storeRefs s ≥ 8192 then some 1
  else none

/-- A gap marker payload (Table 11.2). -/
def gapPayload (n cause : Nat) : List Byte :=
  leBytes 4 n ++ [BitVec.ofNat 8 cause] ++ List.replicate 59 0

/-- The gap marker that must precede the stream's next record (R340): behind the frames that wait, before anything else. -/
def closeGap (k : Nat) (s : State) : State :=
  let x := stream s k
  if x.gap = 0 then s
  else
    let m : WaitItem := .marker 3 (gapPayload x.gap x.gapCause) s.time.dev s.clk
    modStream k (fun x => { x with
      gap := 0, gapCause := 0, wait := if x.wait.any WaitItem.isFrame then x.wait ++ [m] else m :: x.wait }) s

/-- A stream whose gap markers will not be written: the count and causes stand again for the next one (R340). -/
def ungap (ws : List WaitItem) (x : Stream) : Stream :=
  ws.foldl (fun x w => match w with
    | .marker 3 payload _ _ => { x with gap := stick 32 x.gap (leNat (payload.take 4)), gapCause := x.gapCause ||| byteAt payload 4 }
    | _ => x) x

/-- The waiting references of a stream complete as discarded, counted in DROPS where a cause is given; its lock markers
wait on for its next record (R340, R342, R349, R352). -/
def dropWaiting (k : Nat) (cause : Option Nat) (s : State) : State :=
  let ws := (stream s k).wait
  let s1 := modStream k (fun x => { ungap ws x with wait := ws.filter WaitItem.isLock, dogAt := none }) s
  forEach ws (fun w s => match w with
    | .frame id _ => release id (match cause with
      | some c => dropRecord k c s
      | none => s)
    | .marker _ _ _ _ => s) s1

/-- The stream has a waiting frame or a page that is not programmed (R360). -/
def unwritten (s : State) (k : Nat) : Bool :=
  (s.store.pages.any fun p => p.stream == k) || (stream s k).wait.any WaitItem.isFrame

/-- Since when the watchdog of a stream runs, as something more waits to be written (R360). -/
def dogStart (s : State) (k : Nat) : Option Nat :=
  match (stream s k).dogAt with
  | some at0 => if unwritten s k then some at0 else some s.clk
  | none => some s.clk

/-- A RECORD action creates a reference: the stream's bucket pays LEN + 32 bytes (R332, R333). -/
def recordPay (k len : Nat) (s : State) : State :=
  let rate := rowField s k 1 0 14
  if rate = 0 then s
  else modStream k (fun x => { x with bucket := bucketTake x.bucket rate 18464 s.clk (len + 32) }) s

/-- The Glade queues a reference on the stream, and the write watchdog runs (R334, R360). -/
def recordFrame (k id : Nat) (s : State) : State :=
  modStream k (fun x => { x with wait := x.wait ++ [.frame id s.clk], dogAt := dogStart s k }) (closeGap k s)

/-! ### Records (R337 to R340) -/

/-- A record: TYPE, tag, time in 2^-16 ns, index and payload, padded to a multiple of 4 (R337, Table 11.1). -/
def recordBytes_ (type : Nat) (tag : List Word) (ts rseq : Nat) (payload : List Byte) : List Byte :=
  let (sec, ns) := secNs ts
  let body := leBytes 2 (32 + payload.length) ++ [BitVec.ofNat 8 type, 0] ++ tagBytes tag ++ leBytes 6 sec
    ++ leBytes 4 ns ++ leBytes 2 (ts % 65536) ++ leBytes 4 rseq ++ payload
  body ++ List.replicate ((4 - body.length % 4) % 4) 0

/-- The tag of a marker record (R338). -/
def markerTag (type ts : Nat) : List Word :=
  [word (3 * 2 ^ 21 + 64), 0, word (if type = 2 then 2 ^ 17 else 2 ^ 18), word (ts / 65536)]

/-- The bytes of a waiting item as record rseq, and its time. -/
def itemRecord (s : State) (w : WaitItem) (rseq : Nat) : List Byte × Nat :=
  match w with
  | .frame id _ =>
    let f := frame s id
    (recordBytes_ 1 f.tag f.ts rseq f.bytes, f.ts)
  | .marker type payload ts _ => (recordBytes_ type (markerTag type ts) ts rseq payload, ts)

/-- A fill record over n bytes (R339). -/
def fillRecord (n : Nat) : List Byte := leBytes 2 n ++ [4] ++ List.replicate (n - 3) 0

/-! ### Segment headers (Table 11.3) -/

/-- A time as 10 bytes: seconds and nanoseconds. -/
def timeBytes (t : Nat × Nat) : List Byte := leBytes 6 t.1 ++ leBytes 4 t.2

/-- Header bytes 0 to 119: all that the chain commits to. -/
def headerStem (s : State) (g : Segment) : List Byte :=
  [0x4A, 0x53, 0x45, 0x47, 0x01, BitVec.ofNat 8 g.stream] ++ leBytes 2 g.flags ++ leBytes 4 g.seq
    ++ leBytes 6 Config.uid ++ [0, 0] ++ leBytes 4 g.records
    ++ timeBytes (if g.records = 0 then (0, 0) else g.firstTs) ++ timeBytes (if g.records = 0 then (0, 0) else g.lastTs)
    ++ leBytes 4 g.data.length ++ leBytes 4 (pageSize s) ++ [0, 0, 0, 0] ++ g.prevChain ++ sha256 g.data

/-- The 188 bytes of a header: stem, CHAIN, SEAL under the device key, and CRC. -/
def sealHeader (s : State) (g : Segment) : List Byte :=
  let stem := headerStem s g
  let b := stem ++ sha256 stem
  let c := b ++ hmacSha256 (s.store.otpKey.getD (List.replicate 32 0)) b
  c ++ leBytes 4 (crc32 c)

/-- CHAIN of a header. -/
def chainOf (header : List Byte) : List Byte := slice header 120 32

/-! ### Blocks -/

/-- Block b of the block table. -/
def block (s : State) (b : Nat) : BlockState := s.store.blocks.getD b ⟨0, 0, 7, false, false, 0⟩

/-- A journal entry of a block: its state and erase count as they change, its age only as it falls (R371). -/
def Journal.note (b : Nat) (y : BlockState) (j : Journal) : Journal :=
  { j with blocks := setAt j.blocks b { y with age := min (j.blocks.getD b y).age y.age } }

/-- s with block b changed, in the block table and in the journal. -/
def modBlock (b : Nat) (f : BlockState → BlockState) (s : State) : State :=
  let y := f (block s b)
  modStore (fun x => { x with blocks := setAt x.blocks b y, journal := x.journal.map (Journal.note b y) }) s

/-- s with the journal changed. -/
def modJournal (f : Journal → Journal) (s : State) : State := modStore (fun x => { x with journal := x.journal.map f }) s

/-- The blocks of the system area in order. -/
def systemList (s : State) : List Nat :=
  match s.store.journal with
  | some j => j.system
  | none => []

/-- A block retires once its data is no longer live: a program in it failed (R380, R382). -/
def goesBad (s : State) (b : Nat) : Bool :=
  match s.store.journal with
  | some j => j.bad.contains b
  | none => false

/-- Among the blocks of STATE 0 the one a test prefers: the lowest-numbered of the best (R380, R383, R384). -/
def freeBlock (s : State) (better : Nat → Nat → Bool) : Option Nat :=
  (List.range s.store.blocks.length).foldl (fun best b =>
    let x := block s b
    if x.state ≠ 0 ∨ s.store.erasing.contains b then best
    else match best with
      | some a => if better x.eraseCount (block s a).eraseCount then some b else best
      | none => some b) none

/-- The block of STATE 0 with the lowest erase count. -/
def leastWorn (s : State) : Option Nat := freeBlock s (fun a b => decide (a < b))

/-- The block of STATE 0 with the highest erase count. -/
def mostWorn (s : State) : Option Nat := freeBlock s (fun a b => decide (a > b))

/-- HEALTH (R390). -/
def healthOf (s : State) : Nat :=
  let bs := s.store.blocks.filter fun b => b.state == 0 || b.state == 1 || b.state == 3
  let sum := (bs.map (·.eraseCount)).sum
  let n := bs.length
  let reserve := match s.store.label with
    | some l => l.reserve
    | none => 0
  let spare := (s.store.blocks.filter fun b => b.state == 3).length
  let a := if n = 0 then 0 else 10000 * sum / (n * max 1 (pn s 0x410005))
  let b := if reserve = 0 then 0 else 10000 * (reserve - spare) / reserve
  min 10000 (max a b)

/-- The page indices of a data image not yet handed to the page list: full pages from a byte length to another. -/
def newPages (k q from_ to_ size : Nat) : List Page :=
  if size = 0 then [] else (List.range (to_ / size - from_ / size)).map fun i => ⟨k, q, from_ / size + i, false⟩

/-- Close the open segment of a stream: its last page and its header page become ready (R343). -/
def closeSeg (k : Nat) (s : State) : State :=
  match openSeg s k with
  | none => s
  | some g =>
    let h := sealHeader s g
    let size := pageSize s
    let tail := if size ≠ 0 ∧ g.data.length % size ≠ 0 then [(⟨k, g.seq, g.data.length / size, false⟩ : Page)] else []
    let s1 := modSeg k g.seq (fun g => { g with closed := true, header := h }) s
    modStream k (fun x => { x with chain := chainOf h, dogAt := dogStart s k })
      (modStore (fun x => { x with pages := x.pages ++ tail ++ [⟨k, g.seq, pagesPer s - 1, false⟩] }) s1)

/-- The records that lie wholly in a data image: the end offset, how many of TYPE 1 to 3, first and last times, and the
flag bits of markers (R337, R361). -/
structure Scan where
  stop : Nat := 0
  records : Nat := 0
  first : Nat × Nat := (0, 0)
  last : Nat × Nat := (0, 0)
  flags : Nat := 0
  deriving DecidableEq, Repr

/-- Scan a data image from an offset. -/
def scanRecords (data : List Byte) : Nat → Nat → Scan → Scan
  | 0, _, acc => acc
  | fuel + 1, off, acc =>
    let len := leNat (slice data off 2)
    let next := off + (len + 3) / 4 * 4
    if off + 4 > data.length ∨ len = 0xFFFF ∨ len < 3 ∨ next > data.length then acc
    else
      let type := byteAt data (off + 2)
      if type = 4 then scanRecords data fuel next { acc with stop := next }
      else if type = 1 ∨ type = 2 ∨ type = 3 then
        let t := (leNat (slice data (off + 16) 6), leNat (slice data (off + 22) 4) % 2 ^ 30)
        scanRecords data fuel next {
          stop := next, records := acc.records + 1, first := if acc.records = 0 then t else acc.first, last := t,
          flags := acc.flags ||| (if type = 2 then 8 else if type = 3 then 4 else 0) }
      else acc

/-- A segment cut to the records that lie wholly in a data image, beside the flags it keeps (R361). -/
def cutSegment (data : List Byte) (keep : Nat) (g : Segment) : Segment :=
  let z := scanRecords data data.length 0 {}
  { g with flags := keep ||| z.flags, records := z.records, firstTs := z.first, lastTs := z.last,
           data := if z.records = 0 then [] else data.take z.stop }

/-- CHAIN of the segment before g in its stream, where that segment is held; else what g has (R341). -/
def chainBefore (s : State) (g : Segment) : List Byte :=
  if bitOf g.flags 0 then g.prevChain
  else match s.store.segs.find? fun h => h.stream == g.stream && h.seq + 1 == g.seq with
    | some h => if h.header = [] then g.prevChain else chainOf h.header
    | none => g.prevChain

/-- Close a segment on the pages of it already programmed or in progress; its header page becomes ready (R361, R363). -/
def closeShort (g : Segment) (s : State) : State :=
  let reach := (s.store.pages.filter fun p => p.stream == g.stream && p.seq == g.seq).foldl
    (fun m p => max m (p.index + 1)) g.progd
  let cut := { cutSegment (g.data.take (reach * pageSize s)) (g.flags &&& 3) g with closed := true, prevChain := chainBefore s g }
  let h := sealHeader s cut
  modStream g.stream (fun x => { x with chain := chainOf h, dogAt := dogStart s g.stream })
    (modStore (fun x => { x with pages := x.pages ++ [⟨g.stream, g.seq, pagesPer s - 1, false⟩] })
      (modSeg g.stream g.seq (fun _ => { cut with header := h }) s))

/-- MEDIUM becomes 5: from here on the store programs only header pages, so every segment whose header page is not yet
programmed or in progress closes on what the medium holds of it (R363, R390, R395). -/
def wornOut (s : State) : State :=
  let started := s.store.pages.filter (·.issued)
  let short := s.store.segs.filter fun g => !g.sealed && !(started.any fun p =>
    p.stream == g.stream && p.seq == g.seq && p.index + 1 == pagesPer s)
  forEach short closeShort (modStore (fun x => { x with medium := 5, pages := started }) s)

/-- Blocks of STATE 3. -/
def spareBlocks (s : State) : Nat := (s.store.blocks.filter fun b => b.state == 3).length

/-- SPARE_BLOCKS and HEALTH take their values: source 12 on rising to or past 8,000 or 9,500 (R390). -/
def putHealth (s : State) : State :=
  let old := pn s 0x410008
  let new := healthOf s
  let s1 := setPw 0x410007 (spareBlocks s) (setPw 0x410008 new s)
  if (old < 8000 ∧ 8000 ≤ new) ∨ (old < 9500 ∧ 9500 ≤ new) then raise 0 12 s1 else s1

/-- Recompute HEALTH and SPARE_BLOCKS, and MEDIUM 5 at 10,000 (R390); with no block table loaded there is nothing to
compute. -/
def judgeHealth (s : State) : State :=
  if s.store.blocks = [] then s
  else
    let s1 := putHealth s
    if healthOf s = 10000 ∧ s.store.medium = 3 then wornOut s1 else s1

/-! ### The protected fraction (R351) -/

/-- The store may protect one more segment (R351). -/
def mayProtect (s : State) : Bool :=
  decide ((protectedSegs s + 1) * 100 ≤ pn s 0x400001 * streamBlocks s)

/-- The protected fraction is beyond the cap. -/
def overCap (s : State) : Bool := decide (pn s 0x400001 * streamBlocks s < protectedSegs s * 100)

/-- STATE of a stream as the cap has it: with a lock granted beyond the cap, a stream with no open window stops; with the
fraction within the cap, a stopped one returns (R351). -/
def capState (beyond exceeded : Bool) (x : Stream) : Stream :=
  if beyond && exceeded && decide (x.state = 1) && x.window.isNone then { x with state := 3 }
  else if !exceeded && decide (x.state = 3) then { x with state := 1 }
  else x

/-- CAP_REACHED follows the protected fraction, with source 12 when it sets, and the streams stop at the cap or return
(R351). -/
def capReview (s : State) : State :=
  let exceeded := overCap s
  let new := decide (s.store.medium = 3) && !mayProtect s
  let s1 := modStore (fun x => { x with
    capReached := new, beyond := x.beyond && exceeded,
    streams := x.streams.map fun e => (e.1, capState x.beyond exceeded e.2) }) s
  if new && !s.store.capReached then raise 0 12 s1 else s1

/-- Retire a block into a STATE: one spare block becomes free, and the protected fraction is judged anew (R351, R380 to
R382). -/
def retire (b st : Nat) (s : State) : State :=
  let s1 := modJournal (fun j => { j with bad := j.bad.filter (· != b) })
    (modBlock b (fun x => { x with state := st, pending := false }) s)
  let s2 := match (List.range s1.store.blocks.length).find? fun i => (block s1 i).state == 3 with
    | some i => modBlock i (fun x => { x with state := 0 }) s1
    | none => s1
  capReview (judgeHealth s2)

/-- Issue the erase of a block: its count is journalled first. A block at ENDURANCE is retired as worn instead, and one in
which a program failed as grown bad (R371, R380, R381). -/
def eraseIssue (b : Nat) (s : State) : State :=
  if goesBad s b then retire b 5 s
  else if (block s b).eraseCount ≥ pn s 0x410005 then retire b 6 s
  else judgeHealth (nandIssue [.blockErase b] (modStore (fun x => { x with erasing := x.erasing ++ [b] })
    (modBlock b (fun x => { x with
      eraseCount := min 16777215 (x.eraseCount + 1), prot := false, pending := false, maxCorr := 0, age := 0 }) s)))

/-- A system block retires, and the free block with the lowest erase count takes its place in the system area; the answer
is false when there is none (R380, R381). -/
def replaceSystem (b st : Nat) (s : State) : State × Bool :=
  let s1 := retire b st s
  match leastWorn s1 with
  | none => (s1, false)
  | some f => (modJournal (fun j => { j with system := j.system.map fun i => if i = b then f else i })
      (modBlock f (fun y => { y with state := 2, age := 0, maxCorr := 0, pending := false }) s1), true)

/-- Erase a block of the image area where it stands, or replace it when it may not be erased; false when nothing can take
its place (R381). -/
def eraseSystem (b : Nat) (s : State) : State × Bool :=
  if goesBad s b then replaceSystem b 5 s
  else if (block s b).eraseCount ≥ pn s 0x410005 then replaceSystem b 6 s
  else (eraseIssue b s, true)

/-- A channel reads a segment: the store treats it as protected for reuse (R355). -/
def beingRead (s : State) (k q : Nat) : Bool :=
  s.chans.any fun e => e.2.busy && bits e.2.ctl 21 3 == 3 && e.2.src / 2 ^ 26 == k * 2 ^ 32 + q

/-- The oldest unprotected closed segment of a stream that no channel reads (R352, R355). -/
def reusable (s : State) (k : Nat) : Option Segment :=
  (held s k).foldl (fun best g =>
    if !g.closed || g.prot || !g.sealed || beingRead s k g.seq then best
    else match best with
      | some b => if g.seq < b.seq then some g else best
      | none => some g) none

/-- Give up a segment: its block is erased (R352). -/
def dropSeg (g : Segment) (s : State) : State :=
  eraseIssue g.block (modStore (fun x => { x with
    segs := x.segs.filter fun h => !(h.stream == g.stream && h.seq == g.seq) }) s)

/-- A stream stops at its limit: STATE 2; its waiting frames complete as discarded and count in DROPS (R342, R352). -/
def stopStream (k : Nat) (s : State) : State := dropWaiting k (some 2) (modStream k (fun x => { x with state := 2 }) s)

/-! ### Event locks (R348 to R350) -/

/-- The first protected SEQ of a stream among the segments a window covers. -/
def firstCovered (s : State) (k start : Nat) : Nat :=
  match ((held s k).filter fun g =>
      g.prot && (!g.closed || decide (start ≤ g.lastTs.1 * 1000000000 + g.lastTs.2))).map (·.seq) with
  | [] => 0
  | q :: qs => qs.foldl min q

/-- A lock marker payload (Table 11.2): window start and end in ns. -/
def lockPayload (trig outcome row start stop first : Nat) : List Byte :=
  [BitVec.ofNat 8 trig, BitVec.ofNat 8 outcome] ++ leBytes 2 row
    ++ timeBytes (start / 1000000000, start % 1000000000) ++ timeBytes (stop / 1000000000, stop % 1000000000)
    ++ leBytes 4 first ++ List.replicate 36 0

/-- Queue a lock marker at the stream's next record position (R349). -/
def queueMarker (k trig outcome row start stop : Nat) (s : State) : State :=
  let first := if outcome = 1 then 0 else firstCovered s k start
  let s1 := closeGap k s
  modStream k (fun x => { x with
    wait := x.wait ++ [.marker 2 (lockPayload trig outcome row start stop first) s.time.dev s.clk] }) s1

/-- The window of a stream ends early because it may protect no new segment: a marker with OUTCOME 2 (R351). -/
def curtail (k : Nat) (s : State) : State :=
  match (stream s k).window with
  | none => s
  | some (a, b) =>
    let (trig, row) := (stream s k).windowBy
    raise 0 12 (queueMarker k trig 2 row a b (modStream k (fun x => { x with window := none })
      (modStore (fun x => { x with segs := x.segs.map fun g =>
        if g.stream = k ∧ g.prot ∧ g.holdAt = none then { g with holdAt := some (poweredSec s : Int) } else g }) s)))

/-- Protect one segment of a stream under its lock; the answer is false when the cap forbids it (R351). -/
def protectSeg (k q : Nat) (s : State) : State × Bool :=
  match s.store.segs.find? fun g => g.stream == k && g.seq == q with
  | none => (s, true)
  | some g =>
    if g.prot then (modSeg k q (fun g => { g with holdAt := none }) s, true)
    else if !mayProtect s && rowField s k 0 20 1 == 0 then (s, false)
    else
      let s1 := modSeg k q (fun g => { g with prot := true, holdAt := none }) s
      (capReview (modStore (fun x => { x with beyond := x.beyond || !mayProtect s }) s1), true)

/-- Protect a list of segments in rising SEQ, ending the window when the cap is met (R349, R351). -/
def protectAll (k : Nat) : List Nat → State → State
  | [], s => s
  | q :: qs, s =>
    match protectSeg k q s with
    | (s1, true) => protectAll k qs s1
    | (s1, false) => curtail k s1

/-- An event lock of stream k at t ns (R348 to R351). The answer is the marker's OUTCOME. -/
def lockTrigger (k trig row t : Nat) (s : State) : State × Nat :=
  let x := stream s k
  let start := t - rowField s k 2 12 12 * 1000000000
  let stop := t + rowField s k 2 0 12 * 1000000000
  match x.window with
  | some (a, b) =>
    let e := max b stop
    (queueMarker k trig 3 row a e (modStream k (fun x => { x with window := some (a, e) }) s), 3)
  | none =>
    if rowField s k 0 20 1 = 0 ∧ !mayProtect s then
      (raise 0 12 (queueMarker k trig 1 row start stop s), 1)
    else
      let s1 := modStream k (fun x => { x with window := some (start, stop), windowBy := (trig, row) }) s
      let s2 := putRowWord 0x08 0 k 12 11 (stick 24 (rowWord s1 0x08 0 k 11) 1) s1
      let covered := ((held s2 k).filter fun g =>
        !g.closed || decide (start ≤ g.lastTs.1 * 1000000000 + g.lastTs.2)).map (·.seq)
      let s3 := protectAll k (covered.mergeSort (· ≤ ·)) s2
      let s4 := if (stream s3 k).window.isSome then queueMarker k trig 0 row start stop s3 else s3
      -- an offline stream protects held segments only: no window stays open (R349)
      let s5 := if x.state = 0 then
          modStore (fun y => { y with segs := y.segs.map fun g =>
            if g.stream = k ∧ g.prot ∧ g.holdAt = none then
              { g with holdAt := some ((poweredSec s : Int) + rowField s k 2 0 12) } else g })
            (modStream k (fun x => { x with window := none }) s4)
        else s4
      (capReview s5, 0)

/-! ### Opening segments and building pages (R334, R341 to R343, R352) -/

/-- Open a segment of a stream in a block of STATE 0 (R341, R383). -/
def openIn (k b : Nat) (s : State) : State :=
  let x := stream s k
  let q := x.newest + 1
  let g : Segment := { stream := k, seq := q, block := b, flags := if x.fresh then 1 else 0,
                       prevChain := if x.fresh then List.replicate 32 0 else x.chain }
  let s1 := modBlock b (fun y => { y with state := 1, age := 0, maxCorr := 0, pending := false })
    (modStore (fun y => { y with segs := y.segs ++ [g] }) s)
  let s2 := modJournal (fun j => { j with fresh := j.fresh.filter (· != k) })
    (modStream k (fun x => { x with newest := q, fresh := false }) s1)
  match x.window with
  | some _ => match protectSeg k q s2 with
    | (s3, true) => s3
    | (s3, false) => curtail k s3
  | none => s2

/-- A stream needs a new segment (R342, R352): the state, and whether one is open now. -/
def needSeg (k : Nat) (s : State) : State × Bool :=
  let x := stream s k
  let limit := rowField s k 0 0 16
  let full := decide (limit ≠ 0) && decide ((held s k).length ≥ limit)
  if x.newest = 2 ^ 32 - 1 then (raise 0 12 (stopStream k s), false)
  else if !full && (leastWorn s).isSome then
    match leastWorn s with
    | some b => (openIn k b s, true)
    | none => (s, false)
  else if !full && s.store.erasing != [] then (s, false)
  else if rowField s k 0 19 1 = 0 then (stopStream k s, false)
  else match reusable s k with
    | none =>
      if (held s k).any (fun g => g.closed && !g.prot && !g.sealed) then (s, false) else (stopStream k s, false)
    | some g =>
      let s1 := dropSeg g s
      match leastWorn s1 with
      | some b => if s1.store.medium = 3 then (openIn k b s1, true) else (s1, false)
      | none => (s1, false)

/-- The stream builds no record now: the medium takes none, or the stream is stopped at the cap (R351, R395). -/
def buildBarred (s : State) (k : Nat) : Bool := decide (s.store.medium ≠ 3) || decide ((stream s k).state = 3)

/-- Build the stream's first waiting item into its open segment, a gap marker first where one is due (R340); the answer is
false when nothing could be built. -/
def buildItem (k : Nat) (ecc : EccHit) (s0 : State) : State × Bool :=
  let s := if (stream s0 k).wait.any WaitItem.isFrame then s0 else if (stream s0 k).wait = [] then s0 else closeGap k s0
  if buildBarred s k then (s, false)
  else match (stream s k).wait with
  | [] => (s, false)
  | w :: rest =>
    let pop := modStream k (fun x => { x with wait := rest })
    match w, ecc with
    | .frame id _, .glade => (release id (countRxEcc id (cellError id (pop s))), true)
    | _, .gladeCorrected => (cellsCorrected .gladeCorrected s, true)
    | _, _ =>
      match openSeg s k with
      | none => needSeg k s
      | some g =>
        let (r, ts) := itemRecord s w g.records
        if g.data.length + r.length > imageLen s then (closeSeg k s, true)
        else
          let bit := match w with
            | .marker 3 _ _ _ => 4
            | .marker _ _ _ _ => 8
            | .frame _ _ => 0
          let s1 := modSeg k g.seq (fun g => { g with
            data := g.data ++ r, records := g.records + 1, flags := g.flags ||| bit, lastTs := secNs ts,
            firstTs := if g.records = 0 then secNs ts else g.firstTs }) s
          let s2 := modStore (fun x => { x with
            pages := x.pages ++ newPages k g.seq g.data.length (g.data.length + r.length) (pageSize s) }) s1
          match w with
          | .frame id _ =>
            let len := tagLen (frame s id).tag
            (perfAdd 0x080001 1 <| release id (modStore (fun x => { x with
              recent := (x.recent.filter fun e => decide (s.clk < e.1 + 500000000)) ++ [(s.clk, len)] }) (pop s2)), true)
          | .marker _ _ _ _ => (perfAdd 0x080001 1 (pop s2), true)

/-- Bytes in the page being filled. -/
def pageFill (s : State) (k : Nat) : Nat :=
  match openSeg s k with
  | some g => g.data.length % max 1 (pageSize s)
  | none => 0

/-- Build items until a page is complete (or, for all, until none waits). -/
def buildLoop (k : Nat) (all : Bool) (ecc : EccHit) : Nat → State → State
  | 0, s => s
  | fuel + 1, s =>
    match buildItem k ecc s with
    | (s1, false) => s1
    | (s1, true) =>
      if !all && decide (s1.store.pages.length > s.store.pages.length) then s1
      else buildLoop k all .none fuel s1

/-- Build everything a stream has waiting (R334, Table 11.5). -/
def buildAll (k : Nat) (s : State) : State := buildLoop k true .none (2 * (stream s k).wait.length + 4) s

/-- Fill the rest of the current page (R339). -/
def fillPage (k : Nat) (s : State) : State :=
  match openSeg s k with
  | none => s
  | some g =>
    let size := pageSize s
    let room := size - g.data.length % max 1 size
    if size = 0 ∨ g.data.length % size = 0 then s
    else modStore (fun x => { x with pages := x.pages ++ newPages k g.seq g.data.length (g.data.length + room) size })
      (modSeg k g.seq (fun g => { g with data := g.data ++ fillRecord room }) s)

/-- Bytes of records a stream has waiting. -/
def waitingBytes (s : State) (k : Nat) : Nat := ((stream s k).wait.map fun w => (itemRecord s w 0).1.length).sum

/-- The instant a waiting frame was queued. -/
def frameSince (w : WaitItem) : Option Nat :=
  match w with
  | .frame _ since => some since
  | .marker _ _ _ _ => none

/-- The instant a stream's oldest waiting reference was queued. -/
def oldestWait (s : State) (k : Nat) : Option Nat := (stream s k).wait.findSome? frameSince

/-- The stream has the oldest reference of all (R334). -/
def hasOldest (s : State) (k : Nat) : Bool :=
  match oldestWait s k with
  | none => false
  | some a => s.store.streams.all fun e => match oldestWait s e.1 with
    | some b => decide (a ≤ b)
    | none => true

/-- PAGE_BUILD (R334, R339): the waiting records reach the end of the page, or the store is full of references and the
rest of the page is filled. -/
def pageBuildEffect (k : Nat) (ecc : EccHit) (s : State) : State :=
  if buildBarred s k ∨ fenced s 17 then s
  else if pageFill s k + waitingBytes s k ≥ pageSize s ∨ (storeRefs s ≥ 8192 ∧ hasOldest s k) then
    let s1 := buildLoop k false ecc (2 * (stream s k).wait.length + 4) s
    if s1.store.pages.length > s.store.pages.length then s1 else fillPage k s1
  else s

/-- RECORD_WAIT_EXPIRY (R334, R339): the page is built and the rest of it filled. -/
def recordWaitExpiryEffect (k : Nat) (ecc : EccHit) (s : State) : State :=
  match oldestWait s k with
  | none => s
  | some at0 =>
    let s1 := waitUntil (at0 + ms 10) s
    if buildBarred s1 k ∨ fenced s1 17 then s1
    else
      let s2 := buildLoop k false ecc (2 * (stream s1 k).wait.length + 4) s1
      if s2.store.pages.length > s1.store.pages.length then s2 else fillPage k s2

/-! ### Programming pages (R335, R360, R380) -/

/-- PRIORITY of a page's stream. -/
def pagePriority (s : State) (p : Page) : Nat := rowField s p.stream 0 17 2

/-- A page may be programmed: at MEDIUM 5 a header page only (R363, Table 12.1). -/
def mayProgram (s : State) (p : Page) : Bool :=
  !p.issued && (decide (s.store.medium = 3) || (decide (s.store.medium = 5) && decide (p.index + 1 = pagesPer s)))

/-- The page the store programs next: the lower PRIORITY first, then the oldest (R335). -/
def nextPage (s : State) : Option Page :=
  s.store.pages.foldl (fun best p =>
    if !mayProgram s p then best
    else match best with
      | some b => if pagePriority s p < pagePriority s b then some p else best
      | none => some p) none

/-- The block that holds the segment of a page. -/
def pageBlock (s : State) (p : Page) : Option Nat :=
  (s.store.segs.find? fun g => g.stream == p.stream && g.seq == p.seq).map (·.block)

/-- PAGE_PROGRAM: the program of the chosen page is issued (R335, R363). -/
def pageProgramEffect (s : State) : State :=
  if fenced s 17 then s
  else match nextPage s with
    | none => s
    | some p =>
      nandIssue ((pageBlock s p).toList.map fun b => .pageProgram b p.index)
        (modStore (fun x => { x with pages := x.pages.map fun q => if q = p then { q with issued := true } else q }) s)

/-- PAGE_PROGRAM. -/
def execPageProgram (s : State) : Host.Outcome State Fault Refusal := live pageProgramEffect s

/-- A page is programmed: readable from store space. -/
def pageDone (p : Page) (s : State) : State :=
  let s1 := perfAdd 0x080002 1 (modStore (fun x => { x with pages := x.pages.filter fun q => q != p }) s)
  modSeg p.stream p.seq (fun g =>
    if p.index + 1 = pagesPer s then { g with sealed := true } else { g with progd := max g.progd (p.index + 1) }) s1

/-- The write watchdog of a stream restarts, or stops with nothing left to write (R360). -/
def dogRestart (k : Nat) (s : State) : State :=
  modStream k (fun x => { x with dogAt := if unwritten s k then some s.clk else none }) s

/-- A program failure in a block that the store does not relocate, during a suspend or at MEDIUM 5: the segment keeps what
is programmed, its other pages are lost, and the block retires once its data is no longer live (R361, R380, R382). -/
def abandonPages (g : Segment) (s : State) : State :=
  modJournal (fun j => { j with bad := if j.bad.contains g.block then j.bad else j.bad ++ [g.block] })
    (modStore (fun x => { x with pages := x.pages.filter fun q => !(q.stream == g.stream && q.seq == g.seq) }) s)

/-- A program failure: the block retires as grown bad and the segment continues in a free block, or in the spare block
that the retirement freed, where the page is programmed again; each page copied restarts the watchdog (R380). -/
def relocate (p : Page) (s : State) : State :=
  match s.store.segs.find? fun g => g.stream == p.stream && g.seq == p.seq with
  | none => s
  | some g =>
    let again := modStore (fun x => { x with pages := x.pages.map fun q => if q = p then { q with issued := false } else q })
    let used := fun (b : Nat) => modBlock b (fun y => { y with state := 1, age := 0, maxCorr := 0, pending := false })
    let copied := fun (s : State) => if g.progd = 0 then s else dogRestart p.stream s
    if storeHeld s || decide (s.store.medium ≠ 3) then abandonPages g s
    else match leastWorn s with
      | none =>
        let s1 := retire g.block 5 (again s)
        match leastWorn s1 with
        | none => abandonPages g s1
        | some b => copied (modSeg g.stream g.seq (fun g => { g with block := b }) (used b s1))
      | some b => copied (retire g.block 5 (modSeg g.stream g.seq (fun g => { g with block := b }) (again (used b s))))

/-- PAGE_PROGRAM_END of the stream's page in progress. -/
def pageProgramEndEffect (k : Nat) (failed : Bool) (s : State) : State :=
  match s.store.pages.find? fun p => p.stream == k && p.issued with
  | none => s
  | some p => if failed then relocate p s else dogRestart k (pageDone p s)

/-- PAGE_PROGRAM_END. -/
def execPageProgramEnd (k : Fin 64) (failed : Bool) (s : State) : Host.Outcome State Fault Refusal :=
  live (pageProgramEndEffect k failed) s

/-- MEDIUM becomes 0 or 6: the store's scratch ways are released (R439), and a scan in progress is over (R386). -/
def storeGone (m : Nat) (s : State) : State :=
  let s1 := modStore (fun x => { x with medium := m, mountDue := false }) s
  let s2 := if bitOf (pn s1 0x420002) 0 then setPw 0x420002 0 s1 else s1
  setPw 0x410009 0 { s2 with canopy := { s2.canopy with storeWays := [] } }

/-- Every reference the store holds completes as discarded, and its pages are lost. -/
def discardRefs (s : State) : State :=
  forEach s.store.streams (fun (k, _) s => dropWaiting k none s) (modStore (fun x => { x with pages := [] }) s)

/-- A store command ends: DONE, and ERR with ERROR; source 12 (Table 15.2). -/
def storeDone (err : Nat) (s : State) : State :=
  raise 0 12 (modStore (fun x => { x with cmd := none, done := true, err := err, error := x.error || decide (err ≠ 0) }) s)

/-- A command in progress ends because MEDIUM no longer meets its condition (Table 11.6). -/
def storeCut (s : State) : State := if s.store.cmd.isSome then storeDone 2 s else s

/-- M_FAULT.STORE: recording stops, references are discarded, MEDIUM reads 6 (R360, R393). -/
def storeFault (s : State) : State := storeCut (storeGone 6 (discardRefs (setMFault 10 20 31 0 0 false s)))

/-- STREAM_WRITE_WATCHDOG (R360). -/
def streamWriteWatchdogEffect (k : Nat) (s : State) : State :=
  match (stream s k).dogAt with
  | none => s
  | some at0 =>
    if (stream s k).state = 0 ∨ s.store.medium ≠ 3 ∨ !unwritten s k then s
    else storeFault (waitUntil (at0 + ms (pn s 0x400002)) s)

/-- STREAM_WRITE_WATCHDOG. -/
def execStreamWriteWatchdog (k : Fin 64) (s : State) : Host.Outcome State Fault Refusal :=
  live (streamWriteWatchdogEffect k) s

/-! ### Lock windows and holds (R348 to R350) -/

/-- STORE_TRIG_EDGE: a rising edge of STORE_TRIG[k] locks every stream whose TRIG bit is 1 (R348). -/
def storeTrigEdgeEffect (k : Nat) (s : State) : State :=
  if fenced s 17 then s
  else forAll 64 (fun i s => if rowField s i 1 (22 + k) 1 = 1 then (lockTrigger i k 0 (nowNs s) s).1 else s) s

/-- STORE_TRIG_EDGE. -/
def execStoreTrigEdge (k : Fin 2) (s : State) : Host.Outcome State Fault Refusal := live (storeTrigEdgeEffect k) s

/-- LOCK_WINDOW_END: the window reaches its end and its segments begin their hold time (R349, R350). -/
def lockWindowEndEffect (k : Nat) (s : State) : State :=
  match (stream s k).window with
  | none => s
  | some (_, stop) =>
    let s1 := waitDev (stop * 65536) s
    capReview (modStream k (fun x => { x with window := none })
      (modStore (fun x => { x with segs := x.segs.map fun g =>
        if g.stream = k ∧ g.prot ∧ g.holdAt = none then { g with holdAt := some (poweredSec s1 : Int) } else g }) s1))

/-- LOCK_WINDOW_END. -/
def execLockWindowEnd (k : Fin 64) (s : State) : Host.Outcome State Fault Refusal := live (lockWindowEndEffect k) s

/-- HOLD_EXPIRY: the earliest hold of the stream runs out, and with it the protection of its segments (R350). -/
def holdExpiryEffect (k : Nat) (s : State) : State :=
  let days := rowField s k 3 0 16
  let ends := (held s k).filterMap fun g => if g.prot then g.holdAt else none
  match ends with
  | [] => s
  | e :: es =>
    if days = 0 then s
    else
      let due := es.foldl min e + (days : Int) * 86400
      let s1 := waitUntil (poweredAt s due.toNat) s
      capReview (modStore (fun x => { x with segs := x.segs.map fun g =>
        match g.holdAt with
        | some h => if g.stream = k ∧ g.prot ∧ h + (days : Int) * 86400 ≤ due then { g with prot := false, holdAt := none } else g
        | none => g }) s1)

/-- HOLD_EXPIRY. -/
def execHoldExpiry (k : Fin 64) (s : State) : Host.Outcome State Fault Refusal := live (holdExpiryEffect k) s

/-- RELEASE written to a stream's row: every segment of it loses its protection (R350, R359). -/
def releaseStream (k : Nat) (s : State) : State :=
  capReview (modStore (fun x => { x with segs := x.segs.map fun g =>
    if g.stream = k then { g with prot := false, holdAt := none } else g }) s)

/-! ### Store space (R353 to R355, Table 11.4) -/

/-- KEY_STATE (0x010002). -/
def keyState (s : State) : Nat := flag s.store.otpKey.isSome 0 + flag s.store.otpLock 1

/-- Bytes of the reserved image area. -/
def areaRead (s : State) (off n : Nat) : List Byte := cellsRead 0xFF s.store.area off n

/-- Byte off of a segment's image (R331, R353). -/
def segByte (s : State) (g : Segment) (off : Nat) : Byte :=
  let size := pageSize s
  if off < size then (if g.sealed then g.header.getD off 0 else 0xFF)
  else
    let d := off - size
    if d / max 1 size < g.progd then g.data.getD d 0xFF else 0xFF

/-- n bytes of store space from an address; none for an address the store refuses (R353, R354). -/
def storeRead (s : State) (a n : Nat) : Option (List Byte) :=
  let k := a / 2 ^ 58
  let q := bits a 26 32
  let off := bits a 0 26
  let reads := s.store.medium == 3 || s.store.medium == 5
  if fenced s 17 then none
  else if q = 0 then
    if k ≠ 0 then none
    else if 0x100 ≤ off ∧ off + n ≤ 0x120 then
      some (slice (sha256 (s.store.otpKey.getD s.store.staging)) (off - 0x100) n)
    else if 0x100000 ≤ off ∧ off + n ≤ 0x140000 ∧ reads then some (areaRead s (off - 0x100000) n)
    else none
  else if !reads then none
  else match s.store.segs.find? fun g => g.stream == k && g.seq == q with
    | none => none
    | some g =>
      if off + n > pageSize s * pagesPer s then none else some ((List.range n).map fun i => segByte s g (off + i))

/-- The commit or lock pattern of Table 11.4, by its fourth letter. -/
def slotPattern (letter : Byte) : List Byte :=
  [0x4B, 0x45, 0x59, letter] ++ leBytes 6 Config.uid ++ List.replicate 6 0

/-- The blocks of the reserved image area: the last of the system area (chapter 12, Label and system area). -/
def imageBlockList (s : State) : List Nat :=
  let data := pageSize s * pagesPer s
  let n := (0x40000 + data - 1) / max 1 data
  let sys := systemList s
  sys.drop (sys.length - n)

/-- The image area is erased block by block; false where a block cannot be erased and none can take its place. -/
def eraseArea (s : State) : State × Bool :=
  (imageBlockList s).foldl (fun (s, ok) b =>
    let (s1, good) := eraseSystem b s
    (s1, ok && good)) (modStore (fun x => { x with area := [], areaNext := none }) s, true)

/-- Write bytes of the image area at its next offset; a page that fails to program retires its block, whose content moves
with it to another (R380). -/
def areaWrite (off : Nat) (bytes : List Byte) (failed : Bool) (s : State) : Option State :=
  let put := fun (s : State) => modStore (fun x => { x with
    area := cellsWrite 0xFF x.area off bytes, areaNext := some (off + bytes.length) }) s
  if !failed then some (put s)
  else
    match (imageBlockList s)[off / max 1 (pageSize s * pagesPer s)]? with
    | none => some (put s)
    | some b => match replaceSystem b 5 s with
      | (s1, true) => some (put s1)
      | (_, false) => none

/-- A write to store space, whose page program may fail; none where it ends the channel with SPACE (R345 to R347, R353,
R354). -/
def storeWrite (a : Nat) (bytes : List Byte) (failed : Bool) (s : State) : Option State :=
  let n := bytes.length
  if fenced s 17 then none
  else if a = 0 ∧ n = 32 ∧ s.store.otpKey.isNone then some (modStore (fun x => { x with staging := bytes }) s)
  else if a = 0x200 ∧ s.store.otpKey.isNone ∧ bytes = slotPattern 0x43 then
    some (modStore (fun x => { x with otpKey := some x.staging }) s)
  else if a = 0x300 ∧ s.store.otpKey.isSome ∧ bytes = slotPattern 0x4C then
    some (modStore (fun x => { x with otpLock := true }) s)
  else if 0x100000 ≤ a ∧ a + n ≤ 0x140000 ∧ s.store.medium = 3 then
    if a = 0x100000 then
      match eraseArea s with
      | (s1, true) => areaWrite 0 bytes failed s1
      | (_, false) => none
    else if s.store.areaNext = some (a - 0x100000) then areaWrite (a - 0x100000) bytes failed s
    else none
  else none

/-- RECORD_RATE (0x400004): recorded frame bytes of the last second, in Mb/s. -/
def recordRate (s : State) : Nat :=
  ((s.store.recent.filter fun e => decide (s.clk < e.1 + 500000000)).map (·.2)).sum * 8 / 1000000

/-- A stream row as read (Table 11.7): the hardware fields over the stored configuration. -/
def streamRow (s : State) (k : Nat) : List Word :=
  let x := stream s k
  let ws := rowAt s 0x08 0 k
  let ws := ws ++ List.replicate (12 - ws.length) 0
  let put := fun (ws : List Word) (i v : Nat) => setAt ws i (word v)
  let w0 := putBits (putBits (ws.getD 0 0).toNat 22 2 x.state) 21 1 0
  let old := oldestSeq s k
  put (put (put (put (put (put (put ws 0 w0) 4 x.newest) 5 (x.newest / 2 ^ 24)) 6 old) 7 (old / 2 ^ 24))
    8 (held s k).length) 9 ((held s k).filter (·.prot)).length

end Sys2Proof.Machine
end

