-- ==== Sys2Proof/Machine/Nand.lean ====
section
/-! DEFINITION. Pages of the flash medium (chapter 12): the cartridge label, what each programmed page holds and its
codewords, reading a page with read-retry, and reads of store space through them. -/

set_option Elab.async false

namespace Sys2Proof.Machine

/-! ### The cartridge label (R369, Table 12.3) -/

/-- Bytes 0 to 59 of a label. -/
def labelStem (l : Label) : List Byte :=
  [0x4A, 0x53, 0x4D, 0x44, 0x01, 0x00] ++ leBytes 2 l.formats ++ l.cartId ++ leBytes 6 l.owner.toNat ++ leBytes 6 l.formatSec
    ++ leBytes 4 l.blocks ++ leBytes 4 l.reserve ++ leBytes 4 l.system ++ List.replicate 12 0

/-- The 64 bytes of a label. -/
def labelBytes (l : Label) : List Byte := labelStem l ++ leBytes 4 (crc32 (labelStem l))

/-- A label copy that is valid on a cartridge of a unique ID: MAGIC, FORMAT, CRC and CART_ID are right. -/
def parseLabel (uid : Option (List Byte)) (copy : List Byte) : Option Label :=
  let bs := copy.take 64
  if bs.take 5 = [0x4A, 0x53, 0x4D, 0x44, 0x01] ∧ leNat (slice bs 60 4) = crc32 (bs.take 60) ∧ uid = some (slice bs 8 16) then
    some { formats := leNat (slice bs 6 2), cartId := slice bs 8 16, owner := BitVec.ofNat 48 (leNat (slice bs 24 6)),
           formatSec := leNat (slice bs 30 6), blocks := leNat (slice bs 36 4), reserve := leNat (slice bs 40 4),
           system := leNat (slice bs 44 4) }
  else none

/-- The label the store uses: the valid copy with the higher FORMATS, copy 0 when both are equal. -/
def chooseLabel (uid : Option (List Byte)) (copies : List (List Byte)) : Option Label :=
  (copies.take 2).foldl (fun best c => match best, parseLabel uid c with
    | none, l => l
    | some b, some l => if b.formats < l.formats then some l else some b
    | some b, none => some b) none

/-! ### Page contents (R331, R374) -/

/-- The segment a block holds. -/
def segOn (s : State) (b : Nat) : Option Segment := s.store.segs.find? fun g => g.block == b

/-- n bytes of a byte string from an offset, with d after its end. -/
def padTo (d : Byte) (bs : List Byte) (off n : Nat) : List Byte :=
  let out := slice bs off n
  out ++ List.replicate (n - out.length) d

/-- The data area of page i of a system block: page 0 of a label copy holds the label; a page of the image area holds its
bytes; what the other pages hold is free. -/
def systemPage (s : State) (b i : Nat) : List Byte :=
  let size := pageSize s
  let sys := systemList s
  let image := imageBlockList s
  let span := (sys.length - image.length - 4) / 2
  match image.idxOf? b with
  | some n => areaRead s (n * (pagesPer s * size) + i * size) size
  | none =>
    if i = 0 ∧ (sys[0]? = some b ∨ sys[span]? = some b) then
      padTo 0 ((s.store.label.map labelBytes).getD []) 0 size
    else (List.range size).map (Config.freeByte (b * 2048 + i))

/-- The data area and the metadata of a programmed page; none for a page not programmed since its block was erased. -/
def pageContent (s : State) (b i : Nat) : Option (List Byte × List Byte) :=
  let size := pageSize s
  let tail := fun (g : Segment) => [BitVec.ofNat 8 g.stream] ++ leBytes 2 (g.seq % 65536)
  match (block s b).state with
  | 1 => match segOn s b with
    | none => none
    | some g =>
      if i + 1 = pagesPer s then (if g.sealed then some (padTo 0 g.header 0 size, (0x02 : Byte) :: tail g) else none)
      else if i < g.progd then some (padTo 0xFF g.data (i * size) size, (0x01 : Byte) :: tail g)
      else none
  | 2 => some (systemPage s b i, [0x03, 0, 0, 0])
  | _ => none

/-- The codewords of page i of block b, as programmed or erased: codeword k in columns 2,187k to 2,187k + 2,186 (R374). -/
def pageWords (s : State) (b i : Nat) : List (List Byte) :=
  (List.range (pageSize s / 2048)).map fun k => match pageContent s b i with
    | some (data, mdata) => codeword (slice data (2048 * k) 2048) mdata
    | none => List.replicate 2187 0xFF

/-- The programmed pages of a block, in order. -/
def programmedPages (s : State) (b : Nat) : List Nat := (List.range (pagesPer s)).filter fun i => (pageContent s b i).isSome

/-! ### Read-retry (R376 to R379, Table 12.5) -/

/-- The operations of retry level k, for a block: its feature addresses and parameters, to its LUN or its target. -/
def levelOps (s : State) (b k : Nat) : List NandCmd :=
  let w := rowWord s 0x09 0 (k - 1)
  let (target, lun) := blockLun s b
  (List.range (bits (w 0) 0 3)).map fun j =>
    let a := w (1 + 2 * j)
    let p := w (2 + 2 * j)
    .setFeatures target (if bitOf p 0 then some lun else none) (bits a 16 8)
      [BitVec.ofNat 8 (bits a 8 8), BitVec.ofNat 8 (bits a 0 8), BitVec.ofNat 8 (bits p 16 8), BitVec.ofNat 8 (bits p 8 8)]

/-- The feature settings of a list of commands with every parameter at 0, each address once. -/
def restoreOps (cs : List NandCmd) : List NandCmd :=
  cs.foldl (fun acc c => match c with
    | .setFeatures t l a _ =>
      let z := NandCmd.setFeatures t l a [0, 0, 0, 0]
      if acc.contains z then acc else acc ++ [z]
    | _ => acc) []

/-- What a page read gave: each codeword's corrected bits and data, none for an uncorrectable one; the last retry level
used, 0 for the default; and the commands issued. -/
structure PageGot where
  words : List (Option (Nat × List Byte))
  level : Nat
  cmds : List NandCmd
  deriving DecidableEq, Repr

/-- What the reads say of the read at level k. -/
def levelRead (r : PageRead) (k : Nat) : LevelRead := r.reads.getD k (r.reads.getLastD ⟨0, []⟩)

/-- Read a page at level k and, while a codeword stays uncorrectable, at the levels after it: up to the first row with VALID
0, level 16, or 2.5 ms since the first read (R378). -/
def readWalk (s : State) (b i : Nat) (words : List (List Byte)) (r : PageRead) : Nat → Nat → List NandCmd → PageGot
  | 0, k, cmds => ⟨[], k, cmds⟩
  | fuel + 1, k, cmds =>
    let l := levelRead r k
    let got := words.zipIdx.map fun e => decodeWord (flipBits e.1 (l.errs.getD e.2 []))
    let now := cmds ++ [.pageRead b i]
    if got.all Option.isSome || decide (16 ≤ k) || decide (2500 ≤ l.us) || !bitOf (rowWord s 0x09 0 k 0) 23 then ⟨got, k, now⟩
    else readWalk s b i words r fuel (k + 1) (now ++ levelOps s b (k + 1))

/-- The most bits corrected in a codeword of a page. -/
def PageGot.worst (g : PageGot) : Nat := g.words.foldl (fun m w => max m ((w.map (·.1)).getD 0)) 0

/-- The data area of a page every codeword of which decoded. -/
def PageGot.data (g : PageGot) : Option (List Byte) :=
  if g.words.all Option.isSome then some (g.words.flatMap fun w => (w.map (·.2)).getD []) else none

/-- Read a page: retries and corrected bits count, features return to 0, MAX_CORR rises, and a retry sets PENDING_REFRESH
(R378, R379, R384, Table 15.5). An uncorrectable codeword stays noted on its block (R385). -/
def readPage (b i : Nat) (r : PageRead) (s : State) : State × Option (List Byte) :=
  let g := readWalk s b i (pageWords s b i) r 17 0 []
  let total := (g.words.map fun w => (w.map (·.1)).getD 0).sum
  let s1 := nandIssue (g.cmds ++ restoreOps g.cmds) (perfAdd 0x080004 total (if g.level > 0 then perfAdd 0x080003 1 s else s))
  let s2 := modBlock b (fun x => { x with maxCorr := max x.maxCorr g.worst, pending := x.pending || decide (g.level > 0) }) s1
  let s3 := if g.data.isNone then modStore (fun x => { x with
      uncorr := if x.uncorr.contains b then x.uncorr else x.uncorr ++ [b] }) s2
    else s2
  (s3, g.data)

/-- Read pages of blocks in turn, each with the next of the reads; the answer is their data, none where one is
uncorrectable. -/
def readPages : List (Nat × Nat) → List PageRead → State → State × Option (List Byte)
  | [], _, s => (s, some [])
  | (b, i) :: rest, rs, s =>
    let (s1, d) := readPage b i (rs.headD ⟨[]⟩) s
    let (s2, ds) := readPages rest rs.tail s1
    (s2, match d, ds with
      | some x, some y => some (x ++ y)
      | _, _ => none)

/-! ### Reads of store space (R353) -/

/-- The pages that n bytes of store space from an address touch, with the offset of the first byte in the first of them;
none for a slot that no page holds. -/
def storePages (s : State) (a n : Nat) : Option (List (Nat × Nat) × Nat) :=
  let size := max 1 (pageSize s)
  let q := bits a 26 32
  let off := bits a 0 26
  if q = 0 then
    if off < 0x100000 then none
    else
      let base := off - 0x100000
      let blocks := imageBlockList s
      some ((List.range ((base + n - 1) / size - base / size + 1)).map (fun i =>
        let p := base / size + i
        (blocks.getD (p / max 1 (pagesPer s)) 0, p % max 1 (pagesPer s))), base % size)
  else match s.store.segs.find? fun g => g.stream == a / 2 ^ 58 && g.seq == q with
    | none => none
    | some g => some ((List.range ((off + n - 1) / size - off / size + 1)).map (fun i =>
        (g.block, if off / size + i = 0 then pagesPer s - 1 else off / size + i - 1)), off % size)

/-- A channel's read of store space: its bytes as the pages decode, or the code the channel ends with, SPACE or ECC (R353,
R394). -/
def storeFetch (a n : Nat) (rs : List PageRead) (s : State) : State × Except Nat (List Byte) :=
  match storeRead s a n with
  | none => (s, .error 6)
  | some plain => match storePages s a n with
    | none => (s, .ok plain)
    | some (pages, off) => match readPages pages rs s with
      | (s1, none) => (s1, .error 8)
      | (s1, some bytes) => (s1, .ok (slice bytes off n))

end Sys2Proof.Machine
end

