-- ==== Sys2Proof/Machine/Medium.lean ====
section
/-! DEFINITION. The flash medium (chapter 12): mount and discovery, format and adopt, the store commands, bad blocks,
wear-levelling, Coppice and the power-up scan. -/

set_option Elab.async false

namespace Sys2Proof.Machine

/-! ### Discovery (R366, R388, Table 12.2) -/

/-- The geometry of a cartridge: every target has a good copy of its parameter page, the first of which counts, and all
agree (R366 step 2). -/
def geometryOf (c : Cartridge) : Option Geometry :=
  let pages := (c.targets.take 4).map fun copies => (copies.find? (·.2)).map (·.1)
  match pages.headD none with
  | none => none
  | some p =>
    if pages.all (· == some p) then some ⟨pages.length, p.luns, p.pageSize, p.spare, p.pages, p.blocks, p.maxMode⟩ else none

/-- The unique ID of target 0: the first copy that matches its complement (R366 step 4). -/
def uniqueIdOf (c : Cartridge) : Option (List Byte) :=
  (c.ids.find? fun e => e.1.length == 16 && e.2 == e.1.map (fun b => ~~~ b)).map (·.1)

/-- Every item of a geometry lies within Table 12.2 and the spare area suffices (R366 step 2). -/
def geometryOk (g : Geometry) : Bool :=
  decide (1 ≤ g.targets ∧ g.targets ≤ 4 ∧ 1 ≤ g.luns ∧ g.luns ≤ 4)
    && (g.pageSize == 4096 || g.pageSize == 8192 || g.pageSize == 16384)
    && decide (64 ≤ g.pages ∧ g.pages ≤ 1536)
    && decide (g.targets * g.luns * g.blocks * g.pages * g.pageSize ≤ 2 ^ 41)
    && decide (139 * g.pageSize / 2048 ≤ g.spare)

/-- Blocks of a medium. -/
def blockCount (g : Geometry) : Nat := g.targets * g.luns * g.blocks

/-- The lower of two interface and mode pairs. -/
def lowerMode (a b : Nat × Nat) : Nat × Nat := if a.1 < b.1 ∨ (a.1 = b.1 ∧ a.2 ≤ b.2) then a else b

/-- The highest pair the device supports on an interface (Table 12.2). -/
def deviceMode (i : Nat) : Nat := if i = 0 then 5 else 8

/-- The interface and mode in use on a cartridge: TIMING_MODE lowered to what the device and the page support (R366 step
3). -/
def pairInUse (s : State) (g : Geometry) : Nat × Nat :=
  let v := pn s 0x410000
  lowerMode (bits v 0 2, min (bits v 4 4) (deviceMode (bits v 0 2))) (g.maxMode.1, min g.maxMode.2 (deviceMode g.maxMode.1))

/-- The commands of discovery up to the parameter pages: RESET and READ ID on each CE_N, up to the first without the
signature (R366 steps 1 and 2). -/
def probeCmds (targets : Nat) : List NandCmd :=
  (List.range (min 4 (targets + 1))).flatMap (fun t => [.reset t, .readId t])
    ++ (List.range targets).map fun t => .readParameterPage t

/-- The commands of discovery from the interface on: SET FEATURES, ZQ CALIBRATION LONG for NV-DDR3, READ UNIQUE ID (R366
steps 3 and 4). -/
def setupCmds (g : Geometry) (im : Nat × Nat) : List NandCmd :=
  (List.range g.targets).map (fun t => .setFeatures t none 0x01 [BitVec.ofNat 8 (16 * im.1 + im.2), 0, 0, 0])
    ++ (if im.1 = 2 then (List.range g.targets).flatMap fun t => (List.range g.luns).map fun l => .zqCalibration t l else [])
    ++ [.readUniqueId 0]

/-- Scratch ways a geometry needs: one for each 256 GiB, or part, after the first (chapter 12, Segment map). -/
def waysNeeded (g : Geometry) : Nat := (blockCount g * (g.pages * g.pageSize) + 2 ^ 38 - 1) / 2 ^ 38 - 1

/-- Steps 1 to 4 of R366 on a cartridge of a geometry: the parameters, the interface and the unique ID; the store keeps its
scratch ways and claims those it lacks (R388, R439), a format only where it holds none. -/
def discover (c : Cartridge) (g : Geometry) (format : Bool) (s : State) : State :=
  let im := pairInUse s g
  let s1 := setPw 0x410000 (im.1 + 16 * im.2) (setPw 0x410004 g.blocks (setPw 0x410003 g.pages (setPw 0x410002 g.pageSize
    (setPw 0x410001 (g.targets + 8 * g.luns) s))))
  let had := s.canopy.storeWays
  let ways := if fenced s 18 then [] else if format && had != [] then had
    else had ++ (freeWays s).take (waysNeeded g - had.length)
  let s2 := { s1 with canopy := { s1.canopy with storeWays := ways } }
  modStore (fun x => { x with geometry := some g, uniqueId := uniqueIdOf c })
    (nandIssue (setupCmds g im) (setPw 0x410009 ways.length s2))

/-- Blocks beyond the capacity that the store island and its ways map (R388). -/
def mappedBlocks (s : State) (g : Geometry) : Nat :=
  (1 + s.canopy.storeWays.length) * 2 ^ 38 / max 1 (g.pages * g.pageSize)

/-- Block states with those beyond the mapped range at STATE 7 (R388). -/
def unmapBeyond (n : Nat) (bs : List BlockState) : List BlockState :=
  (List.range bs.length).map fun i =>
    let b := bs.getD i ⟨0, 0, 7, false, false, 0⟩
    if n ≤ i then { b with state := 7 } else b

/-- The hardware fields of every stream row become 0, and no segment is held (R368). -/
def clearMedium (s : State) : State :=
  modStore (fun x => { x with
    segs := [], pages := [], blocks := [], erasing := [], uncorr := [], label := none, geometry := none, beyond := false,
    streams := x.streams.map fun e => (e.1, { e.2 with
      state := 0, newest := 0, chain := [], fresh := true, window := none }) }) s

/-! ### Closing and loading segments at a mount (R361, R362) -/

/-- A segment found without a header closes with RECOVERED set (R361). -/
def recoverSeg (s : State) (f : FoundSegment) : Segment :=
  let g := cutSegment f.data (f.flags ||| 2) {
    stream := f.stream, seq := f.seq, block := f.block, closed := true, sealed := true, prevChain := f.prevChain,
    progd := f.data.length / max 1 (pageSize s) + 1, prot := f.prot,
    holdAt := if f.prot then some ((poweredSec s : Int) - f.holdFrom) else none }
  { g with header := sealHeader s g }

/-- A segment found with its header. -/
def loadSeg (s : State) (f : FoundSegment) : Segment :=
  { stream := f.stream, seq := f.seq, block := f.block, closed := true, sealed := true, flags := f.flags,
    records := f.records, firstTs := secNs (f.firstTime * 65536), lastTs := secNs (f.lastTime * 65536),
    prevChain := f.prevChain, header := f.header, data := f.data,
    progd := f.data.length / max 1 (pageSize s) + 1, prot := f.prot,
    holdAt := if f.prot then some ((poweredSec s : Int) - f.holdFrom) else none }

/-- The newest segment of a stream. -/
def newestSeg (s : State) (k : Nat) : Option Segment :=
  (held s k).foldl (fun best g => match best with
    | some b => if g.seq > b.seq then some g else best
    | none => some g) none

/-- Step 7 of R366: segments closed and loaded, stream rows filled; FIRST is due on the streams the journal names (R341,
R361, R362). -/
def loadSegments (fs : List FoundSegment) (fresh : List Nat) (s : State) : State :=
  let segs := fs.map fun f => if f.closed then loadSeg s f else recoverSeg s f
  forAll 64 (fun k s => match newestSeg s k with
    | none => s
    | some g => modStream k (fun x => { x with newest := g.seq, chain := chainOf g.header, fresh := fresh.contains k }) s)
    (modStore (fun x => { x with segs := segs, pages := [] }) s)

/-- The streams whose newest segment on a cartridge another device sealed: their next segment has FIRST set (R341, R373). -/
def foreignStreams (fs : List FoundSegment) : List Nat :=
  (List.range 64).filter fun k =>
    match (fs.filter fun f => f.stream == k).foldl (fun best f => match best with
        | some (b : FoundSegment) => if f.seq > b.seq then some f else best
        | none => some f) none with
    | some f => f.closed && leNat (slice f.header 12 6) != Config.uid % 2 ^ 48
    | none => false

/-- The block states of a cartridge, one for each block of its geometry. -/
def cartBlocks (g : Geometry) (c : Cartridge) : List BlockState :=
  let n := blockCount g
  (c.blocks ++ List.replicate (n - c.blocks.length) (⟨0, 0, 0, false, false, 0⟩ : BlockState)).take n

/-- What the label snapshot and the journal of a cartridge say: what this device last recorded there, where it is the
cartridge of that label; else what the cartridge holds (R366 step 6, R371). -/
def loadJournal (g : Geometry) (c : Cartridge) (l : Label) (s : State) : Journal :=
  let other : Journal := {
    label := l, blocks := cartBlocks g c, powered := c.powered, fresh := foreignStreams c.segments, bad := [],
    system := (List.range (blockCount g)).filter fun i => ((cartBlocks g c).getD i ⟨0, 0, 7, false, false, 0⟩).state == 2 }
  match s.store.journal with
  | some j => if j.label = l ∧ j.blocks.length = blockCount g then j else other
  | none => other

/-- The powered time of a cartridge runs from n seconds (R371, R384). -/
def powerFrom (n : Nat) (s : State) : State :=
  modStore (fun x => { x with powered := n, poweredAt := s.clk, days := n / 86400, hours := n / 3600 }) s

/-- Record AGE of every block and the powered-time total in the journal (R371). -/
def recordTime (s : State) : State :=
  modJournal (fun j => { j with
    powered := poweredSec s,
    blocks := (List.range j.blocks.length).map fun i =>
      let b := j.blocks.getD i ⟨0, 0, 7, false, false, 0⟩
      match s.store.blocks[i]? with
      | some x => { b with age := x.age }
      | none => b }) s

/-- A block of STATE 1 that holds no segment was being erased, or had no page programmed: it is free. -/
def freeEmpty (fs : List FoundSegment) (bs : List BlockState) : List BlockState :=
  (List.range bs.length).map fun i =>
    let b := bs.getD i ⟨0, 0, 7, false, false, 0⟩
    if b.state = 1 ∧ !(fs.any fun f => f.block == i) then { b with state := 0 } else b

/-- Steps 6 and 7 of R366 with a journal of a medium this device owns: block states, HEALTH, MEDIUM 5 or 3, segments, the
scan. -/
def completeMount (g : Geometry) (j : Journal) (c : Cartridge) (s : State) : State :=
  let bs := freeEmpty c.segments j.blocks
  let s1 := powerFrom j.powered (modStore (fun x => { x with
    label := some j.label, journal := some { j with blocks := bs }, blocks := unmapBeyond (mappedBlocks s g) bs, erasing := [],
    uncorr := [], area := cellsWrite 0xFF [] 0 (c.image.take 0x40000), areaNext := none, scanAt := 0 }) s)
  let s2 := setPw 0x420002 1 (putHealth s1)
  capReview (modStore (fun x => { x with medium := if healthOf s1 = 10000 then 5 else 3 }) (loadSegments c.segments j.fresh s2))

/-- A mount fails: MEDIUM 6, ERR, and source 12; it sets ERROR when OP 7 or a format began it (R366, R372). -/
def mountFail (err : Nat) (command : Bool) (s : State) : State :=
  raise 0 12 (modStore (fun x => { x with err := err, error := x.error || command }) (storeGone 6 (clearMedium s)))

/-- A label is this device's own (R366 step 5). -/
def ownLabel (l : Label) : Bool := l.owner.toNat == Config.uid % 2 ^ 48

/-- A cartridge whose geometry the store accepts. -/
def acceptCart (d : Discovery) : Option (Cartridge × Geometry) :=
  match d with
  | .absent => none
  | .found c => match geometryOf c with
    | some g => if geometryOk g then some (c, g) else none
    | none => none

/-- Targets that answer. -/
def targetsOf (d : Discovery) : Nat :=
  match d with
  | .absent => 0
  | .found c => min 4 c.targets.length

/-- The mount of R366 on what it finds. A suspended medium's powered time counts up to here. -/
def mountApply (d : Discovery) (command : Bool) (s : State) : State :=
  let s0 := nandIssue (probeCmds (targetsOf d)) (setPw 0x420002 0 (clearMedium (modStore (fun x => { x with
    mountDue := false, pollAt := s.clk }) (if s.store.medium = 4 then recordTime (ageCatchUp s) else s))))
  if targetsOf d = 0 then storeGone 0 s0
  else match acceptCart d with
    | none => mountFail 8 command s0
    | some (c, g) =>
      let s1 := discover c g false s0
      match chooseLabel (uniqueIdOf c) c.labels with
      | none => modStore (fun x => { x with medium := 1 }) s1
      | some l =>
        if ownLabel l then completeMount g (loadJournal g c l s1) c s1
        else modStore (fun x => { x with medium := 2, label := some l }) s1

/-- Streams return to their former STATE and window when the medium is ready again (Table 11.5, R521). -/
def streamsReturn (former : Tab Stream) (s : State) : State :=
  if s.store.medium = 3 then
    capReview (forEach former (fun (k, x) s => modStream k (fun y => { y with state := x.state, window := x.window }) s) s)
  else s

/-- MOUNT (R366): a mount is due, after the start-up window or for a cartridge a poll has found; the store suspended at
sleep entry resumes as OP 7 does (R521). -/
def mediumMountEffect (d : Discovery) (s : State) : State :=
  if s.store.mountDue && !fenced s 17 && !s.safety.safe && !s.power.asleep then
    let s1 := mountApply d false s
    let s2 := if s.power.resume then streamsReturn s.store.streams s1 else s1
    { s2 with power := { s2.power with resume := false } }
  else s

/-- MOUNT. -/
def execMediumMount (d : Discovery) (s : State) : Host.Outcome State Fault Refusal := live (mediumMountEffect d) s

/-- PRESENCE_POLL (R368, R573): READ ID on CE_N[0] every second while MEDIUM is neither ready nor suspended. A format or
adopt whose cartridge is gone ends. -/
def presencePollEffect (signature : Bool) (s : State) : State :=
  let m := s.store.medium
  if m = 3 ∨ m = 4 ∨ fenced s 17 ∨ s.start.window ∨ s.power.asleep then s
  else
    let s1 := waitUntil (s.store.pollAt + ms 1000) s
    let s2 := nandIssue [.readId 0] (modStore (fun x => { x with pollAt := s1.clk }) s1)
    if !signature then (if m = 0 then s2 else storeCut (storeGone 0 (clearMedium s2)))
    else if m = 0 then modStore (fun x => { x with mountDue := true }) s2
    else s2

/-- PRESENCE_POLL. -/
def execPresencePoll (signature : Bool) (s : State) : Host.Outcome State Fault Refusal :=
  live (presencePollEffect signature) s

/-! ### Format and adopt (R372, R373) -/

/-- Seconds of the device time for FORMAT_SEC. -/
def formatSec (s : State) : Nat := devSec s

/-- Blocks of the system area: two label blocks, four journal blocks and the image area (chapter 12, Label and system
area). -/
def systemBlocks (g : Geometry) : Nat :=
  let data := g.pages * g.pageSize
  2 * ((g.pageSize + 6 * blockCount g + data - 1) / max 1 data) + 4 + (0x40000 + data - 1) / max 1 data

/-- Numbers of the good blocks of a list of block states. -/
def goodBlocks (bs : List BlockState) : List Nat :=
  (List.range bs.length).filter fun i => (bs.getD i ⟨0, 0, 7, false, false, 0⟩).state == 0

/-- What the erases of a format leave of the blocks: with a valid label before, erase counts and grown-bad, factory and worn
marks stay; without one the factory marks decide and counts start at 0. A block whose erase fails is grown bad (R372, R380,
R381). -/
def formatErase (s : State) (g : Geometry) (old : Option Journal) (c : Cartridge) (fails : List Nat) : List BlockState :=
  (List.range (blockCount g)).map fun i =>
    let b := match old with
      | some j => j.blocks.getD i ⟨0, 0, 0, false, false, 0⟩
      | none => ⟨0, 0, if c.marks.any (fun e => e.1 == i && (e.2.1 != 0xFF || e.2.2 != 0xFF)) then 4 else 0, false, false, 0⟩
    if 4 ≤ b.state ∧ b.state ≤ 6 then { b with prot := false, pending := false }
    else if old.isSome && decide (b.eraseCount ≥ pn s 0x410005) then ⟨b.eraseCount, 0, 6, false, false, 0⟩
    else ⟨min 16777215 (b.eraseCount + 1), 0, if fails.contains i then 5 else 0, false, false, 0⟩

/-- How a format divides the good blocks: the system area, which candidates for a label copy failed, and the spare
reserve. -/
structure Layout where
  system : List Nat
  failed : List Nat
  spare : List Nat
  reserve : Nat
  deriving DecidableEq, Repr

/-- The layout of a format: the system area in the lowest-numbered good blocks of target 0, LUN 0, past those on which a
label copy fails to program, and the spare reserve after it. The answer is the ERR where it cannot be had: 9 when fewer than
64 blocks would have STATE 0, 11 when no candidate takes a label copy (R372, Table 12.4). -/
def formatLayout (g : Geometry) (bs : List BlockState) (labelFails : List Nat) : Except Nat Layout :=
  let good := goodBlocks bs
  let lun0 := good.filter (· < g.blocks)
  let sys := systemBlocks g
  let labels := sys - 4 - (0x40000 + g.pages * g.pageSize - 1) / max 1 (g.pages * g.pageSize)
  let reserve := max 16 ((2 * good.length + 99) / 100)
  let fit := lun0.filter fun i => !labelFails.contains i
  if good.length < sys + reserve + 64 ∨ lun0.length < sys then .error 9
  else if fit.length < labels then .error 11
  else
    let copies := fit.take labels
    let failed := lun0.filter fun i => labelFails.contains i && decide (i < copies.getLastD 0)
    let rest := good.filter fun i => !copies.contains i && !failed.contains i
    let system := copies ++ rest.take (sys - labels)
    .ok ⟨system, failed, (rest.drop (sys - labels)).take reserve |>.drop failed.length, reserve⟩

/-- The block table a format leaves. -/
def formatTable (bs : List BlockState) (z : Layout) : List BlockState :=
  (List.range bs.length).map fun i =>
    let b := bs.getD i ⟨0, 0, 7, false, false, 0⟩
    if z.system.contains i then { b with state := 2 }
    else if z.failed.contains i then { b with state := 5 }
    else if z.spare.contains i then { b with state := 3 }
    else b

/-- The work of a format as it begins: steps 1 to 4 of R366 on the cartridge present, whose failure ends it with MEDIUM 6,
and every stream offline (R372, R439). -/
def formatBegin (d : Discovery) (s : State) : State :=
  let s0 := nandIssue (probeCmds (targetsOf d)) s
  match acceptCart d with
  | none => storeDone 8 (mountFail 8 true s0)
  | some (c, g) =>
    modStore (fun x => { x with streams := x.streams.map fun e => (e.1, { e.2 with state := 0 }) }) (discover c g true s0)

/-- A format's work on the medium, as it ends (R372). -/
def formatApply (d : Discovery) (o : StoreOutcome) (s : State) : State :=
  match acceptCart d with
  | none => storeDone 8 (mountFail 8 true s)
  | some (c, g) =>
    let label := chooseLabel (uniqueIdOf c) c.labels
    let old := label.map fun l => loadJournal g c l s
    let s1 := modStore (fun x => { x with geometry := some g }) (clearMedium s)
    let bs := formatErase s g old c o.eraseFails
    let s2 := nandIssue ((goodBlocks (formatErase s g old c [])).map .blockErase) s1
    let mapped := unmapBeyond (mappedBlocks s2 g) bs
    match formatLayout g mapped o.labelFails with
    | .error e => storeDone e (modStore (fun x => { x with medium := 1 }) s2)
    | .ok z =>
      let formats := match label with
        | some l => (l.formats + 1) % 65536
        | none => 1
      let l : Label := { formats := formats, cartId := (uniqueIdOf c).getD (List.replicate 16 0),
                         owner := BitVec.ofNat 48 Config.uid, formatSec := formatSec s, blocks := blockCount g,
                         reserve := z.reserve, system := z.system.length }
      let powered := match old with
        | some j => j.powered
        | none => 0
      let blocks := formatTable mapped z
      let j : Journal := { label := l, blocks := blocks, powered := powered, fresh := List.range 64, bad := [], system := z.system }
      let s3 := putHealth (powerFrom powered (modStore (fun x => { x with
        label := some l, journal := some j, blocks := blocks, area := [], areaNext := none }) s2))
      storeDone 0 (capReview (modStore (fun x => { x with medium := if healthOf s3 = 10000 then 5 else 3 }) s3))

/-- An adopt's work as it ends: the label is read again and rewritten, a label block that fails is replaced, and the mount
completes (R373, R380, Table 12.4). -/
def adoptApply (d : Discovery) (o : StoreOutcome) (s : State) : State :=
  match acceptCart d with
  | none => storeDone 10 s
  | some (c, g) => match chooseLabel (uniqueIdOf c) c.labels with
    | none => storeDone 10 s
    | some l =>
      let l1 := { l with owner := BitVec.ofNat 48 Config.uid, formats := (l.formats + 1) % 65536, formatSec := formatSec s }
      let s1 := completeMount g { loadJournal g c l s with label := l1, fresh := List.range 64 } c s
      let labels := (systemList s1).take ((systemList s1).length - 4 - (imageBlockList s1).length)
      let (s2, ok) := (labels.filter o.labelFails.contains).foldl (fun (s, ok) b =>
        let (t, good) := replaceSystem b 5 s
        (t, ok && good)) (s1, true)
      if ok then storeDone 0 s2 else storeDone 11 s

/-! ### Store commands (R356, Tables 11.5 and 11.6) -/

/-- The condition of a store command: the ERR it ends with, 0 when it holds. -/
def storeCond (s : State) (op key : Nat) : Nat :=
  let m := s.store.medium
  if fenced s 17 then 5
  else match op with
    | 1 => if key ≠ 0x5C then 1 else if m = 0 ∨ m = 3 then 2 else 0
    | 2 => if key ≠ 0x5C then 1 else if m ≠ 2 then 2 else 0
    | 3 => if m ≠ 3 then 2 else 0
    | 4 => if m ≠ 3 then 2 else if keyState s ≠ 3 then 3 else 0
    | 5 => if m ≠ 3 ∧ m ≠ 4 then 2 else 0
    | 6 => if m ≠ 3 then 2 else 0
    | _ => if m ≠ 4 then 2 else 0

/-- A stream's waiting records are built and its open segment closes. A stream stopped at the cap gets no record: its
references are discarded. A stream that is offline or stopped opens no segment: what it has waiting waits on (R349, R351). -/
def settleStream (k : Nat) (s : State) : State :=
  let st := (stream s k).state
  closeSeg k (if st = 1 then buildAll k s else if st = 3 then dropWaiting k (some 2) s else s)

/-- What a store command does when it is accepted; adopt and resume act as they end. -/
def storeBegin (op k : Nat) (d : Discovery) (s : State) : State :=
  match op with
  | 1 => formatBegin d s
  | 4 => capReview (modStream k (fun x => { x with state := if x.state = 0 then 1 else x.state }) s)
  | 5 => capReview (modStream k (fun x => { x with state := 0 })
      (if s.store.medium = 3 then settleStream k s else s))
  | 6 => forEach s.store.streams (fun (i, _) s => settleStream i s) s
  | _ => s

/-- A write of M_STORE_CMD (R356): one command at a time. -/
def storeCommand (op k key : Nat) (d : Discovery) (s : State) : State :=
  if op = 0 ∨ op > 7 then s
  else if s.store.cmd.isSome then modStore (fun x => { x with overrun := true }) s
  else
    let e := storeCond s op key
    if e ≠ 0 then storeDone e s
    else if op = 3 then
      let (s1, outcome) := lockTrigger k 3 0 (nowNs s) s
      storeDone (if outcome = 1 then 4 else 0) s1
    else storeBegin op k d (modStore (fun x => { x with cmd := some (op, k, d) }) s)

/-- Every page of a stream is programmed (a command's DONE waits for its header pages). -/
def flushPages (want : Nat → Bool) (s : State) : State :=
  forEach (s.store.pages.filter fun p => want p.stream) (fun p s => dogRestart p.stream (pageDone p s)) s

/-- The store is suspended: MEDIUM 4, with the powered time recorded, and a scan in progress over (R371, R386). -/
def suspended (s : State) : State :=
  let s1 := if bitOf (pn s 0x420002) 0 then setPw 0x420002 0 s else s
  modStore (fun x => { x with medium := 4 }) (recordTime s1)

/-- STORE_COMMAND_END (R356): the command in progress ends. -/
def storeCommandEndEffect (o : StoreOutcome) (s : State) : State :=
  match s.store.cmd with
  | none => s
  | some (op, k, d) =>
    match op with
    | 1 => formatApply d o s
    | 2 => adoptApply d o s
    | 5 => storeDone 0 (flushPages (· == k) s)
    | 6 => storeDone 0 (suspended (flushPages (fun _ => true) s))
    | 7 =>
      let s1 := mountApply d true s
      storeDone (if s1.store.medium = 6 then s1.store.err else 0) (streamsReturn s.store.streams s1)
    | _ => storeDone 0 s

/-- STORE_COMMAND_END. -/
def execStoreCommandEnd (o : StoreOutcome) (s : State) : Host.Outcome State Fault Refusal :=
  live (storeCommandEndEffect o) s

/-- The store is suspended at once, as OP 6 does (R517, R549). -/
def suspendNow (s : State) : State :=
  if s.store.medium ≠ 3 then s
  else
    let s1 := forEach s.store.streams (fun (i, _) s => settleStream i s) s
    modStore (fun x => { x with cmd := none }) (suspended (flushPages (fun _ => true) s1))

/-! ### Scan, Coppice and wear-levelling (R379 to R386, R394) -/

/-- An uncorrectable codeword in a scan or a move: the block stays, the fault log counts it, source 12 (R394). -/
def badBlock (b : Nat) (s : State) : State := raise 0 12 (logFault 2 0 0 20 0 b false s)

/-- The medium may be read in the background: the store has its power, and no format or adopt is at work on it. -/
def storeReads (s : State) : Bool :=
  (s.store.medium == 3 || s.store.medium == 5) && !fenced s 17 && !s.power.asleep && !(s.store.cmd.any fun c => c.1 ≤ 2)

/-- The next block of STATE 1 or 2 that the scan looks at. -/
def scanBlock (s : State) (from_ : Nat) : Option Nat :=
  (List.range s.store.blocks.length).find? fun b =>
    decide (from_ ≤ b) && ((block s b).state == 1 || (block s b).state == 2) && !s.store.erasing.contains b

/-- POWER_UP_SCAN (R386): the first, middle and last programmed page of the next block; the scan ends with the last block. -/
def powerUpScanEffect (rs : List PageRead) (s : State) : State :=
  if !storeReads s ∨ !bitOf (pn s 0x420002) 0 then s
  else match scanBlock s s.store.scanAt with
    | none => setPw 0x420002 2 s
    | some b =>
      let ps := programmedPages s b
      let sample := [ps.head?, ps[ps.length / 2]?, ps.getLast?].filterMap id
      let (s1, got) := readPages (sample.map fun i => (b, i)) rs s
      let s2 := modStore (fun x => { x with scanAt := b + 1 }) (if got.isNone then badBlock b s1 else s1)
      if (scanBlock s2 (b + 1)).isNone then setPw 0x420002 2 s2 else s2

/-- POWER_UP_SCAN. -/
def execPowerUpScan (first middle last : PageRead) (s : State) : Host.Outcome State Fault Refusal :=
  live (powerUpScanEffect [first, middle, last]) s

/-- Move what block a holds into block b: the image bit for bit, with its protection; the map switches, and the source is
erased (R344, R384). -/
def moveBlock (a b : Nat) (s : State) : State :=
  let st := (block s a).state
  let s1 := modBlock b (fun y => { y with state := st, age := 0, maxCorr := 0, pending := false }) s
  eraseIssue a (modJournal (fun j => { j with system := j.system.map fun i => if i = a then b else i })
    (modStore (fun x => { x with segs := x.segs.map fun g => if g.block = a then { g with block := b } else g }) s1))

/-- Read every programmed page of block a and write them into block b: with an uncorrectable codeword a stays as it is; a
program that fails retires b and the move is not made. The answer is whether it was (R380, R394). -/
def copyBlock (a b : Nat) (rs : List PageRead) (failed : Bool) (s : State) : State × Bool :=
  let ps := programmedPages s a
  let (s1, got) := readPages (ps.map fun i => (a, i)) rs s
  if got.isNone then (badBlock a s1, false)
  else
    let s2 := nandIssue (ps.map fun i => .pageProgram b i) s1
    if failed then (retire b 5 s2, false) else (moveBlock a b s2, true)

/-- A refresh trigger holds on a block (R384). -/
def wantsRefresh (s : State) (b : Nat) : Bool :=
  let x := block s b
  decide (x.maxCorr ≥ pn s 0x420000) || decide (x.age ≥ pn s 0x420001) || x.pending

/-- Coppice may move a block now (R385). -/
def mayRefresh (s : State) (b : Nat) : Bool :=
  !s.store.uncorr.contains b && !s.store.erasing.contains b
    && match (block s b).state with
      | 2 => true
      | 1 => match segOn s b with
        | some g => g.closed && g.sealed && decide ((stream s g.stream).state ≠ 0)
        | none => false
      | _ => false

/-- COPPICE_REFRESH (R384, R385, R394). -/
def coppiceRefreshEffect (b : Nat) (rs : List PageRead) (failed : Bool) (s : State) : State :=
  if !storeReads s ∨ !wantsRefresh s b ∨ !mayRefresh s b then s
  else match leastWorn s with
    | none => s
    | some f => match copyBlock b f rs failed s with
      | (s1, true) => bumpParam 0x420003 1 s1
      | (s1, false) => s1

/-- COPPICE_REFRESH. -/
def execCoppiceRefresh (b : Nat) (m : BlockMove) (s : State) : Host.Outcome State Fault Refusal :=
  live (coppiceRefreshEffect b m.reads m.failed) s

/-- The block of the least-worn closed segment that wear-levelling may move (R383). -/
def coldest (s : State) : Option Nat :=
  (s.store.segs.foldl (fun best g =>
    if !g.closed || !g.sealed || (stream s g.stream).state == 0 || beingRead s g.stream g.seq
        || s.store.uncorr.contains g.block then best
    else match best with
      | some b => if (block s g.block).eraseCount < (block s b).eraseCount then some g.block else best
      | none => some g.block) none)

/-- WEAR_LEVELLING_MOVE (R383): at most one per WL_MIN_INTERVAL. -/
def wearLevellingMoveEffect (rs : List PageRead) (failed : Bool) (s : State) : State :=
  match coldest s, mostWorn s with
  | some a, some b =>
    let emax := (s.store.blocks.filter fun x => decide (x.state ≤ 1)).foldl (fun m x => max m x.eraseCount) 0
    let gap := max 50 (pn s 0x410005 / 20)
    if s.store.medium ≠ 3 ∨ !storeReads s ∨ emax ≤ (block s a).eraseCount + gap then s
    else
      let s1 := match s.store.lastMove with
        | some at0 => waitUntil (at0 + pn s 0x410006 * 500000000) s
        | none => s
      match copyBlock a b rs failed s1 with
      | (s2, true) => modStore (fun x => { x with lastMove := some s1.clk }) s2
      | (s2, false) => s2
  | _, _ => s

/-- WEAR_LEVELLING_MOVE. -/
def execWearLevellingMove (m : BlockMove) (s : State) : Host.Outcome State Fault Refusal :=
  live (wearLevellingMoveEffect m.reads m.failed) s

/-- AGE_DAY (R384): the next 86,400 s of the cartridge's powered time are complete; days that end in DEPOT_SLEEP are counted
at the exit (R522). -/
def ageDayEffect (s : State) : State :=
  if s.store.blocks = [] ∨ s.power.asleep then s
  else ageBlocks 1 (waitUntil (poweredAt s ((s.store.days + 1) * 86400)) s)

/-- AGE_DAY. -/
def execAgeDay (s : State) : Host.Outcome State Fault Refusal := live ageDayEffect s

/-- The store is at work on target t: a mount is due, or OP 7, a format or an adopt runs; or MEDIUM lets it issue commands
to the targets it has found. -/
def targetInUse (s : State) (t : Nat) : Bool :=
  let work := (s.store.mountDue && !s.start.window && !s.safety.safe && !s.power.asleep)
    || s.store.cmd.any fun c => c.1 == 7 || c.1 ≤ 2
  !fenced s 17 && (work || (s.store.medium != 0 && s.store.medium != 4 && decide (t < bits (pn s 0x410001) 0 3)))

/-- TARGET_BUSY_TIMEOUT (R393): a target stayed busy. -/
def targetBusyTimeoutEffect (t : Nat) (s : State) : State := if targetInUse s t then storeFault s else s

/-- TARGET_BUSY_TIMEOUT. -/
def execTargetBusyTimeout (t : Fin 4) (s : State) : Host.Outcome State Fault Refusal :=
  live (targetBusyTimeoutEffect t) s

/-- BLOCK_ERASE_END (R380): the block is free again, or retires as grown bad; a block of the system area stays there, or
another takes its place. -/
def blockEraseEndEffect (b : Nat) (failed : Bool) (s : State) : State :=
  if !s.store.erasing.contains b then s
  else
    let s1 := modStore (fun x => { x with erasing := x.erasing.filter (· != b), uncorr := x.uncorr.filter (· != b) }) s
    if (systemList s).contains b then (if failed then (replaceSystem b 5 s1).1 else s1)
    else if failed then retire b 5 s1
    else capReview (modBlock b (fun x => { x with state := 0 }) s1)

/-- BLOCK_ERASE_END. -/
def execBlockEraseEnd (b : Nat) (failed : Bool) (s : State) : Host.Outcome State Fault Refusal :=
  live (blockEraseEndEffect b failed) s

/-- The four blocks that carry the journal (R371): they stand before the image area's among the reserved ones. -/
def journalBlocks (s : State) : List Nat :=
  ((systemList s).drop ((systemList s).length - (imageBlockList s).length - 4)).take 4

/-- The journal written. Which of its four blocks fails in the program, 4 for none, is a free value (assumption 5): a block
that fails is replaced (R371, R380). -/
def journalWrite (s : State) : State :=
  match (journalBlocks s)[freeNat s % 5]? with
  | some b => (replaceSystem b 5 (drawn s)).1
  | none => drawn s

/-- POWERED_TIME_JOURNAL (R371): AGE and the powered-time total are journalled at least once an hour; a journal block in
which the program fails is replaced (R380). -/
def poweredTimeJournalEffect (s : State) : State :=
  if !storeReads s ∨ s.store.blocks = [] then s
  else
    journalWrite (recordTime (modStore (fun x => { x with hours := x.hours + 1 })
      (waitUntil (poweredAt s ((s.store.hours + 1) * 3600)) s)))

/-- POWERED_TIME_JOURNAL. -/
def execPoweredTimeJournal (s : State) : Host.Outcome State Fault Refusal := live poweredTimeJournalEffect s

/-- Rows of table 0x0F: the blocks of the medium, from the mount that defines the geometry on (R389). -/
def blockTableRows (s : State) : Nat :=
  match s.store.geometry with
  | some g => blockCount g
  | none => 0

/-- The words of row b of table 0x0F (Table 12.6). Where the geometry stands but no block states are loaded, at MEDIUM 1 and
2, the spec states no values: they are free. -/
def blockRow (s : State) (b : Nat) : List Word :=
  if s.store.blocks = [] then [word (Config.freeNat (s.free + 2 * b)), word (Config.freeNat (s.free + 2 * b + 1))]
  else
  let x := block s b
  let prot := match segOn s b with
    | some g => g.prot
    | none => x.prot
  [word x.eraseCount, word (min 4095 x.age * 4096 + x.state * 512 + flag prot 8 + flag x.pending 7 + x.maxCorr)]

/-- M_STORE_STAT (Table 3.21). -/
def storeStat (s : State) : Nat :=
  let x := s.store
  flag x.overrun 11 + flag x.capReached 10 + x.err * 64 + x.medium * 8 + flag x.error 2 + flag x.done 1
    + flag x.cmd.isSome 0

end Sys2Proof.Machine
end

