-- ==== Sys2Proof/Machine/Xfer.lean ====
section
/-! DEFINITION. The transfer engine (chapter 13): spaces, start checks, scatter-gather, pause, completion and the effect of
writes to the channel registers. Machine/Channels.lean holds what links and tenants need of the channels; the burst command
stands in Machine/Pairing.lean, because channels 6 and 7 may end on the Ride lane. -/

set_option Elab.async false

namespace Sys2Proof.Machine

/-! ### Spaces (Table 13.2) -/

/-- Channel c reads BUSY: running or paused, or channel 0 while an image loads (R126). -/
def chanBusy (s : State) (c : Nat) : Bool := (chan s c).busy || (c == 0 && s.image.load)

/-- A space is permitted for a channel and not fenced; host memory is fenced with the tenant path of its link (R399, R400
step 2, Table 1.7). -/
def spaceOpen (s : State) (c sp : Nat) : Bool :=
  let host := sp == 0 && !fenced s (12 + chanHost s c)
  match chanOwner s c with
  | .tenant _ => host
  | .pairing => sp == 2 || sp == 4
  | .mgmt => host || (sp == 1 && !(fenced s 8 && fenced s 9 && fenced s 10 && fenced s 11))
      || (sp == 2 && !fenced s 18) || (sp == 3 && !fenced s 17)

/-- A scratch range lies in converted ways that the channel may reach (Table 13.2). -/
def scratchOpen (s : State) (c a n : Nat) : Bool :=
  decide (0 < n) && (List.range ((a + n - 1) / 65536 - a / 65536 + 1)).all fun i =>
    let k := a / 65536 + i
    decide (k < s.canopy.ways) && !s.canopy.storeWays.contains k
      && (!s.canopy.pairWays.contains k || (chanOwner s c == .pairing))

/-- A byte of the cell memory: tag and frame bytes of the frame that holds the cell; none for a cell no frame holds. -/
def cellByte (s : State) (a : Nat) : Option Byte :=
  s.frames.findSome? fun e =>
    match e.2.cells.idxOf? (a / 256) with
    | some i => (tagBytes e.2.tag ++ e.2.bytes)[256 * i + a % 256]?
    | none => none

/-- Bytes of the Glade; what no frame holds is free (the spec gives such cells no content). -/
def gladeRead (s : State) (a n : Nat) : List Byte :=
  let fill := freeBytes s n
  (List.range n).map fun i => (cellByte s (a + i)).getD (fill.getD i 0)

/-- Bytes of an internal space, or the code the channel ends with: SPACE where Table 13.2 does not permit the read, ECC for
a store page that does not decode (R353). -/
def spaceRead (c sp a n : Nat) (pages : List PageRead) (s : State) : State × Except Nat (List Byte) :=
  match sp with
  | 1 =>
    if a + n > 12582912 ∨ (List.range (n / 256 + 2)).any (fun i => fenced s (8 + min 3 ((a + 256 * i) / 256 / 12288))
        && decide (256 * ((a + 256 * i) / 256) < a + n)) then (s, .error 6)
    else (drawn s, .ok (gladeRead s a n))
  | 2 => (s, if scratchOpen s c a n then .ok (cellsRead 0 s.scratch a n) else .error 6)
  | 3 => storeFetch a n pages s
  | _ => (s, .error 6)

/-- Post a write to host memory in pieces of at most 256 bytes that cross no 4 KiB boundary (R405). -/
def postPieces (t : Nat) : Nat → Nat → List Byte → State → State
  | 0, _, _, s => s
  | fuel + 1, a, bytes, s =>
    if bytes = [] then s
    else
      let n := min 256 (4096 - a % 4096)
      postPieces t fuel (a + n) (bytes.drop n) (post t a (bytes.take n) s)

/-- Write to a destination; none where the space refuses it. A page program of the store may fail. -/
def spaceWrite (c sp a : Nat) (bytes : List Byte) (failed : Bool) (s : State) : Option State :=
  match sp with
  | 0 => some (modChan c (fun x => { x with wrote := true }) (postPieces (chanHost s c) (bytes.length / 16 + 2) a bytes s))
  | 1 => if srcSpace (chan s c) = 1 ∧ a = (chan s c).src then some s else none
  | 2 => if scratchOpen s c a bytes.length then some { s with scratch := cellsWrite 0 s.scratch a bytes } else none
  | 3 => storeWrite a bytes failed s
  | _ => none

/-! ### Progress of a running channel -/

/-- Scratch bytes from lo up to hi are free: the spec gives overlapping bytes of a list no value (R404). -/
def scratchFree (lo hi : Nat) (s : State) : State :=
  if lo < hi then drawn { s with scratch := cellsWrite 0 s.scratch lo (freeBytes s (hi - lo)) } else s

/-- The bytes from a up to b of the destination that lie in a piece of the list are free (R404). -/
def overlapFree (c a b : Nat) (s : State) : State :=
  forEach (chan s c).pieces (fun (p, n) s => scratchFree (max a p) (min b (p + n)) s) s

/-- An element is consumed: SRC names the next one and ELEM counts (R403). -/
def elemDone (c next : Nat) (last : Bool) (s : State) : State :=
  chanMark c false (modChan c (fun x => { x with src := next, elem := x.elem + 1, piece := none, moved := x.moved || last }) s)

/-- A scatter-gather element arrives (R402 to R404, Table 13.3). -/
def takeElem (c : Nat) (bytes : List Byte) (s : State) : State :=
  let x := chan s c
  let addr := leNat (bytes.take 8)
  let len := leNat (slice bytes 8 3)
  let d3 := leNat (slice bytes 12 4)
  let last := bitOf d3 30
  if addr % 16 ≠ 0 then endWith c 1 s
  else if bitOf d3 31 then elemDone c addr last s
  else if len = 0 then elemDone c (x.src + 16) last s
  else
    let same := srcSpace x == 2 && dstSpace x == 2
    let s1 := modChan c (fun x => { x with
      piece := some (addr, len, last), pieces := if same then [(addr, 16 * len)] else [] }) s
    modChan c (fun y => { y with pieces := if same then x.pieces ++ [(addr, 16 * len)] else [] }) (overlapFree c x.dst0 x.dst s1)

/-- The bursts begun after n bytes more are written. -/
def popBurst (n : Nat) : List Nat → List Nat
  | [] => []
  | b :: rest => if b ≤ n then rest else (b - n) :: rest

/-- Bytes read from the source go to the destination as they arrive, and the registers advance (R403, R405, R412). -/
def moveBytes (c : Nat) (bytes : List Byte) (failed : Bool) (s : State) : State :=
  let x := chan s c
  let n := bytes.length / 16
  if dstSpace x = 0 ∧ !canIssue s (chanHost s c) then endWith c 4 s
  else match spaceWrite c (dstSpace x) x.dst bytes failed s with
    | none => endWith c 6 s
    | some s1 =>
      let s2 := overlapFree c x.dst (x.dst + bytes.length) (perfAdd (0x070001 + 256 * c) bytes.length
        (modChan c (fun x => { x with
          dst := (x.dst + bytes.length) % 2 ^ 64, count := x.count - n, bursts := popBurst bytes.length x.bursts }) s1))
      let s3 := match x.piece with
        | some (a, left, last) =>
          if left ≤ n then elemDone c (x.src + 16) last s2
          else modChan c (fun x => { x with piece := some (a + bytes.length, left - n, last) }) s2
        | none => modChan c (fun x => { x with src := (x.src + bytes.length) % 2 ^ 64 }) s2
      chanMark c (match x.bursts with
        | b :: _ => decide (b ≤ bytes.length)
        | [] => true) (modChan c (fun x =>
        if x.moved || decide (x.count = 0) then { x with moved := true, toRead := 0, bursts := [] } else x) s3)

/-- The memory an uncorrectable error of the source strikes, as memory number and island: none for host memory. -/
def chanMemory (s : State) (c : Nat) : Option (Nat × Nat) :=
  match srcSpace (chan s c) with
  | 1 => some (0x40 + (chan s c).src / 256 / 12288, 11)
  | 2 => some (0x70, 22)
  | 3 => some (0x60, 20)
  | _ => none

/-- An uncorrectable error in the source or in the channel's share of the buffer ends the channel with ECC (R417, R444, Table
13.5). -/
def chanEcc (c : Nat) (hit : XferHit) (s : State) : State :=
  match hit with
  | .none => s
  | .buffer => endWith c 8 (setMFault 3 21 31 0x68 0 false s)
  | .source => match chanMemory s c with
    | some (m, u) => endWith c 8 (setMFault 3 u 31 m (if m / 4 = 0x10 then (chan s c).src / 256 else 0) false s)
    | none => s

/-- One request of channel c: a host read, or a read of an internal space whose data go on at once (R402, R405, R406). -/
def oneRequest (c : Nat) (io : BurstIo) (s : State) : State :=
  let x := chan s c
  if srcSpace x = 0 then (if io.hit = .buffer then chanEcc c .buffer s else hostRequest c s)
  else if wantsElem x ∧ x.elem ≥ 4096 then endWith c 3 s
  else if io.hit ≠ .none then chanEcc c io.hit s
  else
    let n := requestBytes x
    let s0 := if wantsElem x then { s with lastChan := c } else
      modChan c (noteRequest n) (countBurst c { s with lastChan := c })
    chanSettle c (match spaceRead c (srcSpace x) (if wantsElem x then x.src else (nextData x).1)
        (if wantsElem x then 16 else n) io.pages s0 with
      | (s1, .error e) => endWith c e s1
      | (s1, .ok bytes) => if wantsElem x then takeElem c bytes s1 else moveBytes c bytes io.failed s1)

/-! ### Reads, ends and timeouts -/

/-- XFER_READ_END (R403, R408, R411, R412, R417): the oldest read of the channel comes back. -/
def xferReadEndEffect (c : Nat) (r : HostRead) (ecc : Bool) (s : State) : State :=
  let x := chan s c
  match x.reads with
  | [] => s
  | (what, _) :: rest =>
    let s0 := modChan c (fun x => { x with reads := rest }) s
    let failed := fun (s : State) => match what with
      | .closing => endChan c (x.ending.getD 5) s
      | _ => endWith c 5 s
    match r with
    | .ur => failed s0
    | .ca => failed s0
    | .data bytes => match what with
      | .closing => chanSettle c (chanMark c false (modChan c (fun x => { x with wrote := false }) s0))
      | _ =>
        if x.ending.isSome then chanSettle c s0
        else if ecc then chanEcc c .buffer s0
        else match what with
          | .elem => chanSettle c (takeElem c bytes s0)
          | _ => chanSettle c (moveBytes c (bytes.take what.bytes ++ List.replicate (what.bytes - bytes.length) 0) false s0)

/-- XFER_READ_END. -/
def execXferReadEnd (c : Fin 16) (r : HostRead) (ecc : Bool) (s : State) : Host.Outcome State Fault Refusal :=
  live (xferReadEndEffect c r ecc) s

/-- XFER_READ_TIMEOUT (R408, R412, R413): the oldest read of the channel is not answered in time. -/
def xferReadTimeoutEffect (c : Nat) (s : State) : State :=
  let x := chan s c
  match x.reads with
  | [] => s
  | (what, at0) :: rest =>
    let t := chanHost s c
    let s1 := perfAdd (0x0A0004 + 256 * t) 1 (waitUntil (at0 + cplTimeout s t) s)
    let s2 := modChan c (fun x => { x with reads := rest }) s1
    match what with
    | .closing => endChan c (x.ending.getD 4) s2
    | _ => endWith c 4 s2

/-- XFER_READ_TIMEOUT. -/
def execXferReadTimeout (c : Fin 16) (s : State) : Host.Outcome State Fault Refusal := live (xferReadTimeoutEffect c) s

/-- XFER_CHANNEL_END (R408): everything is moved and every write is complete. -/
def xferChannelEndEffect (c : Nat) (s : State) : State :=
  let x := chan s c
  if x.busy && x.moved && x.reads == [] && !x.wrote && x.ending.isNone then endChan c 0 s else s

/-- XFER_DRAIN_END (R410): a pausing channel has closed its data. -/
def xferDrainEndEffect (c : Nat) (s : State) : State :=
  let x := chan s c
  if x.busy && chanPause x && !x.moved && x.reads == [] && !x.wrote && x.piece.isNone && x.ending.isNone then
    modChan c (fun x => { x with paused := true }) s
  else s

/-- XFER_DRAIN_END. -/
def execXferDrainEnd (c : Fin 16) (s : State) : Host.Outcome State Fault Refusal := live (xferDrainEndEffect c) s

/-! ### Channel registers (R88, R90, R94, R396, R400, R410, R411) -/

/-- The start checks of R400 in order: the error code of the first that fails, 0 for none. -/
def startError (s : State) (c : Nat) : Nat :=
  let x := chan s c
  let sp := srcSpace x
  let dp := dstSpace x
  if x.count = 0 then 7
  else if !spaceOpen s c sp || !spaceOpen s c dp || (chanSg x && sp != 0 && sp != 2)
      || (dp == 1 && (sp != 1 || x.dst != x.src)) then 6
  else if x.src % 16 ≠ 0 ∨ x.dst % 16 ≠ 0 then 1
  else if !chanSg x && sp == dp && decide (x.src < x.dst) && decide (x.dst < x.src + 16 * x.count) then 2
  else 0

/-- START written 1 to an idle channel (R400). -/
def startChan (c : Nat) (s : State) : State :=
  let s1 := modChan c (fun x => { x with
    busy := true, ctl := putBits x.ctl 0 1 1, elem := 0, err := 0, paused := false, piece := none, pieces := [], dst0 := x.dst,
    reads := [], toRead := 0, bursts := [], wrote := false, moved := false, ending := none, yielded := s.image.load,
    edge := (x.src, x.dst, x.count, 0), mark := (x.src, x.dst, x.count, 0) }) s
  if fenced s 19 || s.safety.safe then endChan c 9 s1
  else
    let e := startError s1 c
    if e ≠ 0 then endChan c e s1 else s1

/-- PAUSE of channel c is stored as written. -/
def putPause (c : Nat) (on : Bool) (s : State) : State := modChan c (fun x => { x with ctl := putBits x.ctl 1 1 (flag on 0) }) s

/-- PAUSE set on a running channel (R410). -/
def pauseChan (c : Nat) (s : State) : State := chanSettle c (putPause c true (modChan c cutBurst s))

/-- PAUSE cleared on a running channel (R410). -/
def resumeChan (c : Nat) (s : State) : State := putPause c false (modChan c (fun x => { x with paused := false }) s)

/-- The bits of M_XFER_CTL that a write stores in an idle channel: 23:16, 10:3 and PAUSE (Table 3.15). -/
def ctlStore (v : Nat) : Nat := bits v 16 8 * 2 ^ 16 + bits v 3 8 * 8 + bits v 1 1 * 2

/-- A write of M_XFER_CTL or T_XFER_CTL by the owner of channel c. While BUSY is 1 only PAUSE and ABORT act: PAUSE is stored,
on channel 0 during an image load too, and ABORT prevails where both are written (R88, R400, R410, R411). -/
def ctlWrite (c v : Nat) (s : State) : State :=
  let x := chan s c
  if x.busy then
    if bitOf v 2 then abortReq c (putPause c (bitOf v 1) s)
    else if bitOf v 1 = chanPause x then s
    else if bitOf v 1 then pauseChan c s else resumeChan c s
  else if chanBusy s c then putPause c (bitOf v 1) s
  else
    let s1 := modChan c (fun x => { x with ctl := ctlStore v }) s
    if bitOf v 0 then startChan c s1 else s1

/-- M_XFER_CTL as read. -/
def ctlRead (s : State) (c : Nat) : Nat := (chan s c).ctl

/-- M_XFER_STAT of channel c (Table 3.16). -/
def chanStat (s : State) (c : Nat) : Nat :=
  let x := chan s c
  x.elem * 256 + x.err * 16 + flag x.error 3 + flag x.paused 2 + flag x.done 1 + flag (chanBusy s c) 0

/-- A write of M_XFER_STAT: DONE and ERROR are W1C. -/
def chanStatWrite (c v : Nat) (s : State) : State :=
  modChan c (fun x => { x with error := x.error && !bitOf v 3, done := x.done && !bitOf v 1 }) s

/-- Bus Master Enable of link t clears: the running channels that use it end with HOST_NO_RESPONSE (R146). -/
def linkChannels (t : Nat) (s : State) : State :=
  forAll 16 (fun c s =>
    let x := chan s c
    if x.busy && chanHost s c == t && (srcSpace x == 0 || dstSpace x == 0) then endWith c 4 s else s) s

end Sys2Proof.Machine
end

