-- ==== Sys2Proof/Machine/Thicket.lean ====
section
/-! DEFINITION. The Thicket (chapter 9): address and VLAN filters, rule match, the extended flow lookup, action
resolution and Glade admission, and the known-answer probe. -/

set_option Elab.async false

namespace Sys2Proof.Machine

/-! ### Filters (R276 to R278) -/

/-- Two words of a table row as a six-byte address, byte 0 lowest (R276). -/
def rowMac (w0 w1 : Nat) : Nat := w0 + w1 * 2 ^ 24

/-- The destination address of a frame as a number, byte 0 lowest. -/
def frameMac (bs : List Byte) (off : Nat) : Nat := leNat (slice bs off 6)

/-- The port address filter admits a frame (R277). -/
def addressOk (s : State) (p : Nat) (bs : List Byte) : Bool :=
  let d := frameMac bs 0
  let w2 := rowWord s 0x02 p 32 2
  let hash := rowWord s 0x02 p 32 0 + rowWord s 0x02 p 32 1 * 2 ^ 24 + bits w2 0 16 * 2 ^ 48
  bitOf w2 23
    || (List.range 32).any (fun r => bitOf (rowWord s 0x02 p r 2) 23
        && rowMac (rowWord s 0x02 p r 0) (rowWord s 0x02 p r 1) == d)
    || (d == 2 ^ 48 - 1 && bitOf w2 22)
    || (bitOf d 0 && bitOf w2 21)
    || bitOf hash (crc32 (slice bs 0 6) % 64)

/-- The VLAN filter admits a VID on a port (R278, Table 4.9). -/
def vlanOk (s : State) (p vid : Nat) : Bool := bitOf (rowWord s 0x03 p (vid / 24) 0) (vid % 24)

/-! ### Rules (R279 to R284) -/

/-- The first n bits of two 16-byte strings agree (R280). -/
def prefixEq (n : Nat) (a b : List Byte) : Bool :=
  beNat a / 2 ^ (128 - n) == beNat b / 2 ^ (128 - n)

/-- An address of a frame as 16 bytes, an IPv4 address followed by zeros (R280). -/
def addr16 (a : List Byte) : List Byte := (a ++ List.replicate 16 0).take 16

/-- Address bytes and prefix length of six words of a rule row (Table 9.3, words 14 to 19 or 20 to 25). -/
def ruleAddr (w : Nat → Nat) (i : Nat) : List Byte × Nat :=
  (((List.range 6).flatMap fun k => leBytes 3 (w (i + k))).take 16, bits (w (i + 5)) 8 8)

/-- The rule row of a frame matches (R280, R281). flags are tag word 2 bits 11:2. -/
def ruleMatches (s : State) (r port vid : Nat) (q : Parsed) (flags : Nat) (bs : List Byte) : Bool :=
  let w := fun i => rowWord s 0x04 0 r i
  let set := bits (w 0) 14 2
  let active := bits (pn s 0x200005) 23 1
  let ports := w 1 + bits (w 2) 0 8 * 2 ^ 24
  let masked := fun (value mask x : Nat) => value &&& mask == x &&& mask
  let ip := q.ipv4 || q.ipv6
  let l4 := q.tcp || q.udp
  let (sip, splen) := ruleAddr w 14
  let (dip, dplen) := ruleAddr w 20
  let anyPorts := w 26 % 65536 == 0 && w 27 % 65536 == 65535 && w 28 % 65536 == 0 && w 29 % 65536 == 65535
  let (sp, dp) := q.ports bs
  bitOf (w 0) 23 && (set == 0 || set == active + 1) && bitOf ports port
    && masked (bits (w 0) 19 3) (bits (w 0) 16 3) q.pcp
    && masked (bits (w 3) 12 12) (bits (w 3) 0 12) vid
    && masked (bits (w 4) 10 10) (bits (w 4) 0 10) (flags / 4)
    && (!bitOf (w 5) 23 || bits (w 5) 0 16 == q.etype)
    && masked (rowMac (w 6) (w 7)) (rowMac (w 8) (w 9)) (frameMac bs 0)
    && masked (rowMac (w 10) (w 11)) (rowMac (w 12) (w 13)) (frameMac bs 6)
    && (bits (w 2) 8 8 == 0 || (ip && masked (bits (w 2) 16 8) (bits (w 2) 8 8) q.proto))
    && (splen == 0 || (ip && prefixEq splen sip (addr16 (q.src bs))))
    && (dplen == 0 || (ip && prefixEq dplen dip (addr16 (q.dst bs))))
    && (anyPorts || (l4 && decide (w 26 % 65536 ≤ sp ∧ sp ≤ w 27 % 65536 ∧ w 28 % 65536 ≤ dp ∧ dp ≤ w 29 % 65536)))

/-- The numbers of the rows that a table instance stores, in rising order. -/
def storedRows (s : State) (table inst : Nat) : List Nat :=
  (s.tables.filter fun e => e.1 / 65536 == table * 256 + inst).map fun e => e.1 % 65536

/-- The winning rule: lowest PRIORITY, then lowest row number (R282). -/
def winningRule (s : State) (port vid : Nat) (q : Parsed) (flags : Nat) (bs : List Byte) : Option Nat :=
  (storedRows s 0x04 0).foldl (fun best r =>
    if !ruleMatches s r port vid q flags bs then best
    else match best with
      | some b => if bits (rowWord s 0x04 0 r 0) 0 8 < bits (rowWord s 0x04 0 b 0) 0 8 then some r else best
      | none => some r) none

/-! ### Actions (R285 to R288, Table 9.5) -/

/-- The action set of a frame. -/
structure Actions where
  deliver : Option (Nat × Nat) := none
  record : Option Nat := none
  mark : Option Nat := none
  drop : Bool := false
  lock : Option Nat := none
  relay : Option Nat := none
  mirror : Option Nat := none
  charge : Option Nat := none
  ext : Bool := false
  deriving DecidableEq, Repr

/-- The actions of a rule row, or of DEFAULT_ACTION (Tables 9.3 and 9.4). -/
def actionsOf (s : State) (row : Option Nat) : Actions :=
  match row with
  | some r =>
    let a := rowWord s 0x04 0 r 30
    let b := rowWord s 0x04 0 r 31
    { deliver := if bitOf a 23 then some (bits a 21 2, bits a 15 6) else none,
      record := if bitOf a 14 then some (bits a 8 6) else none,
      mark := if bitOf a 7 then some (bits a 4 3) else none,
      drop := bitOf a 3, lock := if bitOf a 2 then some (bits a 8 6) else none,
      relay := if bitOf b 23 then some (bits b 15 8) else none,
      mirror := if bitOf b 14 then some (bits b 6 8) else none,
      charge := if bitOf b 5 then some (bits b 3 2) else none,
      ext := bitOf (rowWord s 0x04 0 r 0) 22 }
  | none =>
    let v := pn s 0x200005
    { deliver := if bitOf v 0 then some (bits v 1 2, bits v 3 6) else none, ext := bitOf v 9 }

/-- A relay or mirror reference of map row j is created (R293). -/
def relayOpen (s : State) (j ingress : Nat) (test : Bool) : Bool :=
  let w := fun i => rowWord s 0x05 0 j i
  let ports := w 0 + bits (w 1) 0 8 * 2 ^ 24
  let out := bits (w 3) 8 5
  let rate := bits (w 2) 0 14
  bitOf (pn s 0x210000) 0 && bitOf (w 1) 23 && (!test || bitOf ports ingress)
    && (out != ingress || !bitOf (pn s 0x210002) 0) && portEnabled s out && !fenced s (out / 4)
    && (rate == 0 || decide (bucketLevel (tget s.thicket.buckets j {}) rate 18464 s.clk ≥ 0))

/-- A relay or mirror action: the state with a drop counted, or with the row's bucket paying LEN + 20 bytes for the reference
it creates (R293, R294), and whether it is created. -/
def relayAsk (j : Option Nat) (ingress len : Nat) (test : Bool) (s : State) : State × Bool :=
  match j with
  | none => (s, false)
  | some j =>
    if !relayOpen s j ingress test then (bumpParam 0x210001 1 s, false)
    else
      let rate := bits (rowWord s 0x05 0 j 2) 0 14
      let paid := bucketTake (tget s.thicket.buckets j {}) rate 18464 s.clk (len + 20)
      if rate = 0 then (s, true)
      else ({ s with thicket := { s.thicket with buckets := tput s.thicket.buckets j paid } }, true)

/-- Queue the copy of a frame that map row j asks for; where its port's link is down the reference is discarded (R29). -/
def relayQueue (j id len tc : Nat) (s : State) : State :=
  let w3 := rowWord s 0x05 0 j 3
  let out := bits w3 8 5
  let cls := if bitOf w3 4 then tc else bits w3 0 3
  if portOpen s out then enqueue out cls ⟨id, .relay, none, len⟩ s else countPort out 20 1 (release id s)

/-- Resolve the actions of a frame and offer it to the Glade: steps 6 and 7 of Table 9.1 (R285 to R288, R17). -/
def resolveActions (port : Nat) (item : RxItem) (row : Option Nat) (a : Actions) (s : State) : State :=
  let q := parse item.bytes
  let len := item.bytes.length
  let lockNow := fun (s : State) => match a.lock with
    | some k => if fenced s 17 then s else (lockTrigger k 2 (row.getD 0) (item.ts / 65536) s).1
    | none => s
  let s1 := lockNow (perfAdd 0x050001 1 s)
  let deliver := if a.drop then none else a.deliver
  let (s2, rec) := match (if a.drop then none else a.record) with
    | none => (s1, none)
    | some k => match recordBar s1 k with
      | none => (recordPay k len s1, some k)
      | some cause => (dropRecord k cause s1, none)
  let (s3, relay) := relayAsk (if a.drop then none else a.relay) port len true s2
  let (s4, mirror) := relayAsk (if a.drop then none else a.mirror) port len false s3
  let refs := (if deliver.isSome then 1 else 0) + (if rec.isSome then 1 else 0) + (if relay then 1 else 0)
    + (if mirror then 1 else 0)
  let charge := match a.charge with
    | some t => some t
    | none => deliver.map (·.1)
  let tc := (if a.drop then none else a.mark).getD q.pcp
  let word2 := flag deliver.isSome 23 + flag rec.isSome 22 + flag relay 21 + flag mirror 20
    + flag (!a.drop && a.mark.isSome) 19 + flag (decide (refs = 0)) 18 + flag a.lock.isSome 17 + q.flags item.preempt
  let tag : List Word := [word (port * 2 ^ 16 + len),
    word (tc * 2 ^ 21 + (charge.getD 0) * 2 ^ 19 + flag charge.isSome 18 + q.pcp * 2 ^ 15 + flag row.isSome 11 + row.getD 0),
    word word2, word (item.ts / 65536)]
  if refs = 0 then countPort port 12 1 s4
  else
    let need := cellsFor len
    if !admits s4 charge need then
      xoffJudge port tc (some charge) (perfAdd 0x040002 1 (countPort port 13 1 s4))
    else
      let id := s4.nextFrame
      let s5 := takeIn ⟨tag, item.bytes, need, [], refs, charge, some port, item.ts⟩ s4
      let s6 := xoffJudge port tc none s5
      let s7 := match deliver with
        | some (t, k) => modRing t (68 + k) (fun x => { x with refs := x.refs ++ [id] }) s6
        | none => s6
      let s8 := match rec with
        | some k => recordFrame k id s7
        | none => s7
      let s9 := if relay then relayQueue (a.relay.getD 0) id len tc s8 else s8
      if mirror then relayQueue (a.mirror.getD 0) id len tc s9 else s9

/-! ### The extended flow table (R289 to R292) -/

/-- A row hits a frame: the new delivery it gives (R290, Table 9.6). -/
def flowHit (q : Parsed) (bs row : List Byte) : Option Bool :=
  let d0 := leNat (slice row 0 4)
  let d9 := leNat (slice row 36 4)
  let (sp, dp) := q.ports bs
  if bitOf d0 31 && bitOf d0 30 == q.ipv6 && bits d0 16 8 == (if q.tcp then 6 else 17)
      && slice row 4 16 == addr16 (q.src bs) && slice row 20 16 == addr16 (q.dst bs)
      && bits d9 0 16 == sp && bits d9 16 16 == dp then some (bitOf (leNat (slice row 40 4)) 31)
  else none

/-- The action set after a lookup whose row is row: a hit takes effect within the owner's own deliveries (R291). -/
def flowApply (t : Nat) (q : Parsed) (bs row : List Byte) (a : Actions) : Actions :=
  match flowHit q bs row with
  | none => a
  | some deliver =>
    let mine := match a.deliver with
      | none => true
      | some (d, _) => d == t
    if mine then { a with deliver := if deliver then some (t, bits (leNat (slice row 40 4)) 16 6) else none } else a

/-- The tenant of EXT_FLOW_CTL. -/
def flowTenant (s : State) : Nat := bits (pn s 0x200000) 1 2

/-- The address of a frame's extended row (R290). -/
def flowAddr (s : State) (bs : List Byte) : Nat :=
  pwide s 0x200001 3 / 64 * 64 + 64 * (flowHash bs % 2 ^ pn s 0x200004)

/-- The Thicket's read for a frame of port p, among the readers of the Canopy. -/
def lookupWho (p : Nat) : Nat := 300 + p

/-- The winning rule of a frame received on port p, or none (R249, R282). -/
def ruleOf (s : State) (p : Nat) (item : RxItem) : Option Nat :=
  let q := parse item.bytes
  winningRule s p (q.vid (pn s (0x100008 + 256 * p))) q (q.flags item.preempt) item.bytes

/-- Steps 6 and 7 for a frame whose lookup, if it made one, read a row of tenant t: the rule row and tables are those
current now, so that a frame that waited is matched again, wholly against the set now active (R16, R284, assumption 58). -/
def settleFrame (p : Nat) (item : RxItem) (hit : Option (Nat × List Byte)) (s : State) : State :=
  let row := ruleOf s p item
  let a := actionsOf s row
  match hit with
  | some (t, bytes) =>
    resolveActions p item row (if a.ext then flowApply t (parse item.bytes) item.bytes bytes a else a) s
  | none => resolveActions p item row a s

/-- Step 5: a frame whose actions ask for a lookup reads its row through the Canopy, and waits where the host must answer
(R290 to R292). -/
def lookUp (p : Nat) (item : RxItem) (s : State) : State :=
  let a := actionsOf s (ruleOf s p item)
  let q := parse item.bytes
  let t := flowTenant s
  if !a.ext || !bitOf (pn s 0x200000) 0 || !(q.tcp || q.udp) then settleFrame p item none s
  else
    let s1 := perfAdd 0x050002 1 s
    if fenced s 18 || !canIssue s t || (ten s t).inReset then settleFrame p item none s1
    else
      let adr := flowAddr s item.bytes
      let s2 := readIssue t adr 64 (lookupWho p) s1
      if readWaits s2 t (lookupWho p) then
        let s3 := perfAdd 0x050003 1 (bumpParam 0x200006 1 s2)
        { s3 with thicket := { s3.thicket with
          waiting := s3.thicket.waiting ++ [⟨p, item, t, adr, s3.clk, (ten s3 t).resets⟩] } }
      else
        let (bytes, s3) := readServe t adr 64 (lookupWho p) [] s2
        settleFrame p item (some (t, bytes)) s3

/-- A waiting frame leaves step 5. -/
def leaveWaiting (p : Nat) (s : State) : State :=
  { s with thicket := { s.thicket with waiting := s.thicket.waiting.filter fun f => f.port != p } }

/-- EXT_FLOW_READ_END (R291, R292): the lookup of port p's waiting frame ends. A reset of its tenant since then, or a cleared
Bus Master Enable, has abandoned the read (R146, R156): the lookup is a miss. An uncorrectable error in the Thicket's
staging discards the frame (R299). With frame service stopped the frame stays where it is (Table 1.8, R22). -/
def extFlowReadEndEffect (p : Nat) (r : ExtRead) (ecc : Bool) (s : State) : State :=
  match s.thicket.waiting.find? (fun f => f.port == p) with
  | none => s
  | some f =>
    if frameLost s then s
    else
      let t := f.tenant
      let who := lookupWho p
      let s0 := leaveWaiting p s
      let drop := fun (s : State) => readDrop t who s
      let miss := fun (s : State) => settleFrame p f.item none (raise 0 14 (drop s))
      if ecc then countPort p 14 1 (setMFault 3 10 31 0x48 0 false (drop s0))
      else if (ten s t).resets ≠ f.resets then settleFrame p f.item none s0
      else match r with
      | .timeout => miss (perfAdd (0x0A0004 + 256 * t) 1 (waitUntil (f.readAt + cplTimeout s t) s0))
      | .done .ur => miss s0
      | .done .ca => miss s0
      | .done (.data host) =>
        let (bytes, s1) := readServe t f.addr 64 who host s0
        settleFrame p f.item (some (t, bytes)) s1

/-- EXT_FLOW_READ_END. -/
def execExtFlowReadEnd (r : FlowEnd) (s : State) : Host.Outcome State Fault Refusal :=
  live (extFlowReadEndEffect r.port r.read r.ecc) s

/-- Bus Master Enable of tenant t's function clears: every lookup waiting on its host ends as a miss (R146). -/
def lookupsMiss (t : Nat) (s : State) : State :=
  forEach (s.thicket.waiting.filter fun f => f.tenant == t) (fun f s =>
    settleFrame f.port f.item none (readDrop t (lookupWho f.port) (leaveWaiting f.port s))) s

/-! ### Treatment of a frame (R274, R275) -/

/-- Ports in the round robin's order after the one last served (R275). -/
def thicketNext (s : State) : Option Nat :=
  ((List.range 32).map fun i => (s.thicket.last + 1 + i) % 32).find? fun p =>
    (port s p).rx != [] && !(s.thicket.waiting.any fun f => f.port == p)

/-- A frame leaves the RX stage of its port: how long it held its bytes is kept for the frames that began meanwhile (R246). -/
def rxTake (item : RxItem) (clk : Nat) (rest : List RxItem) (x : Port) : Port :=
  { x with rx := rest,
           rxGone := (x.rxGone.filter fun g => decide (clk < g.2.1 + ms 50)) ++ [(item.at0, clk, item.bytes.length + 12)] }

/-- Treat a frame taken from port p in the order of Table 9.1. -/
def treatFrame (p : Nat) (item : RxItem) (ecc : EccHit) (s : State) : State :=
  if ecc = .rxStage then countPort p 14 1 (setMFault 3 (2 + p / 4) 31 (0x20 + p) 0 false s)
  else if ecc = .thicketStaging then countPort p 14 1 (setMFault 3 10 31 0x48 0 false s)
  else if s.pair.role = 2 ∨ s.pair.role = 3 ∨ s.safety.safe then countPort p 11 1 s
  else
    let q := parse item.bytes
    let vid := q.vid (pn s (0x100008 + 256 * p))
    if !addressOk s p item.bytes || !vlanOk s p vid then countPort p 11 1 s
    else lookUp p item s

/-- THICKET_RESOLVE: the Thicket takes the next complete frame, unless frame service is lost (Table 1.8). -/
def thicketResolveEffect (ecc : EccHit) (s : State) : State :=
  if frameLost s ∨ s.power.asleep ∨ s.thicket.waiting.length ≥ 4 then s
  else match thicketNext s with
    | none => s
    | some p => match (port s p).rx with
      | [] => s
      | item :: rest =>
        treatFrame p item ecc { modPort p (rxTake item s.clk rest) s with
          thicket := { s.thicket with last := p } }

end Sys2Proof.Machine
end

