-- ==== Sys2Proof/Machine/Roles.lean ====
section
/-! DEFINITION. What pairing shares with the parameters and the safe state (chapter 16): the Ride link's sending side,
roles and ALARM, entry into SOLO, scratch ways and channels, the mirrored items of Table 16.5, and LEAVE. -/

set_option Elab.async false

namespace Sys2Proof.Machine

/-- s with the pairing island changed. -/
def modPair (f : Pair → Pair) (s : State) : State := { s with pair := f s.pair }

/-- PAIR_CTL bit 0. -/
def pairEnabled (s : State) : Bool := bitOf (pn s 0x700000) 0

/-- PRIORITY of this unit. -/
def ownPrio (s : State) : Nat := pn s 0x700001

/-! ### Roles and ALARM (Table 16.1, R474) -/

/-- ALARM is entered: its bit sets and source 9 is raised (R474). -/
def pairAlarm (s : State) : State := raise 0 9 (modPair (fun x => { x with alarm := true }) s)

/-- The role becomes r; a change raises source 9 (R474). -/
def setRole (r : Nat) (s : State) : State :=
  if s.pair.role = r then s
  else raise 0 9 (modPair (fun x => { x with role := r, roleAt := s.clk, witness := none }) s)

/-! ### The Ride link, sending (R476 to R480) -/

/-- a is above b modulo m (R479). -/
def above (m a b : Nat) : Bool :=
  let d := (a + m - b % m) % m
  decide (1 ≤ d) && decide (d ≤ m / 2 - 1)

/-- a is below b modulo m (R479). -/
def below (m a b : Nat) : Bool := decide ((a + m - b % m) % m ≥ m / 2)

/-- The header of a frame sent now (Table 16.2). -/
def rideHeader (s : State) (type len seq epoch : Nat) : RideHeader :=
  { type := BitVec.ofNat 8 type, flags := BitVec.ofNat 8 (flag s.pair.resync 1), len := len, seq := BitVec.ofNat 16 seq,
    ack := BitVec.ofNat 16 s.pair.ack, epoch := BitVec.ofNat 32 epoch, credit := BitVec.ofNat 16 s.pair.credit,
    role := BitVec.ofNat 3 s.pair.role, priority := BitVec.ofNat 8 (ownPrio s) }

/-- The link carries frames: it is up, the pairing island is in service and the device is not in the safe state (R549). -/
def rideOpen (s : State) : Bool := s.pair.link && !pairingLost s && !s.safety.safe

/-- An unsequenced frame: SEQ is the next number the sender will use (Table 16.2). -/
def rideSend (type : Nat) (payload : List Byte) (s : State) : State :=
  if rideOpen s then
    let f : RideFrame := ⟨rideHeader s type payload.length s.pair.seq s.pair.epoch, payload⟩
    modPair (fun x => { x with sent := x.sent ++ [f] }) s
  else s

/-- R477 permits a new sequenced frame. -/
def rideCredit (s : State) : Bool := rideOpen s && above 65536 s.pair.partnerCredit s.pair.seq

/-- When ACK or CREDIT has changed and no other frame is ready, an ACK frame leaves: a frame that waits for a credit is not
ready (R477, R478). -/
def rideAck (s : State) : State := if s.pair.waiting = [] ∨ rideCredit s = false then rideSend 5 [] s else s

/-- The same where an operation may have changed CREDIT. -/
def rideTold (before after : State) : State :=
  if before.pair.credit = after.pair.credit then after else rideAck after

/-- One new sequenced frame leaves (R477, R480). -/
def rideNew (type epoch : Nat) (payload : List Byte) (s : State) : State :=
  let f : RideFrame := ⟨rideHeader s type payload.length s.pair.seq epoch, payload⟩
  modPair (fun x => { x with
    seq := (x.seq + 1) % 65536, sent := x.sent ++ [f], unacked := x.unacked ++ [⟨f, s.clk, s.clk, 1⟩] }) s

/-- Waiting sequenced frames leave while credits last. -/
def ridePump : Nat → State → State
  | 0, s => s
  | fuel + 1, s => match s.pair.waiting with
    | (ty, e, p) :: rest =>
      if rideCredit s then ridePump fuel (rideNew ty e p (modPair (fun x => { x with waiting := rest }) s)) else s
    | [] => s

/-- Queue a sequenced frame. -/
def rideQueue (type epoch : Nat) (payload : List Byte) (s : State) : State :=
  ridePump 64 (modPair (fun x => { x with waiting := x.waiting ++ [(type, epoch, payload)] }) s)

/-- Resend, in order, every unacknowledged frame that a test selects; a frame's sixth transmission or the 500 µs budget
takes the link down (R480). The answer says whether the budget is exceeded. -/
def rideResend (test : RideOut → Bool) (s : State) : State × Bool :=
  let spent := s.pair.unacked.any fun o => test o && (decide (o.count ≥ 5) || decide (s.clk > o.first + us 500))
  if spent then (s, true)
  else
    let again := s.pair.unacked.filter test
    let s1 := modPair (fun x => { x with
      sent := x.sent ++ again.map fun o => { o.frame with hdr := { o.frame.hdr with
        flags := BitVec.ofNat 8 (1 + flag s.pair.resync 1), ack := BitVec.ofNat 16 s.pair.ack,
        credit := BitVec.ofNat 16 s.pair.credit } },
      unacked := x.unacked.map fun o => if test o then { o with last := s.clk, count := o.count + 1 } else o }) s
    (s1, false)

/-- M_PAIR_STAT.RETRANSMIT: a resend is outstanding (R480). -/
def retransmitting (s : State) : Bool := s.pair.unacked.any fun o => decide (o.count > 1)

/-- M_PAIR_STAT (Table 3.19). -/
def pairStat (s : State) : Nat :=
  let x := s.pair
  flag (retransmitting s) 8 + flag x.alarm 7 + flag (x.bank == 1) 6 + flag x.beacon 5 + flag x.heartbeat 4
    + flag x.link 3 + x.role

/-! ### Epochs in progress (R490) -/

/-- Drain the receive buffers that a test selects: one more credit for each (R477). -/
def drainBuffers (test : RideBuf → Bool) (s : State) : State :=
  modPair (fun x => { x with
    credit := (x.credit + (x.buffers.filter test).length) % 65536, buffers := x.buffers.filter fun b => !test b }) s

/-- The standby discards the epoch in progress: PARTIAL_EPOCHS counts it, the committed bank stands, RESYNC is asked
for; frames of a later epoch stay in the receive buffers (R490). -/
def discardEpoch (s : State) : State :=
  match s.pair.inEpoch with
  | none => s
  | some e =>
    abortChan 7 (bumpParam 0x700004 1 (drainBuffers (fun b => b.epoch == e.epoch)
      (modPair (fun x => { x with inEpoch := none, resync := true }) s)))

/-- The epoch in progress and whatever of a later one waits are discarded: the link goes down, a takeover begins, or the
pair is left (R490). -/
def discardEpochs (s : State) : State := drainBuffers (fun _ => true) (discardEpoch s)

/-- The Ride link goes down: LINK clears, the session ends, the epoch in progress is discarded and staged images cannot
go on (R475, R490). -/
def rideDown (s : State) : State :=
  if !s.pair.link then s
  else
    let s1 := discardEpochs s
    let s2 := modPair (fun x => { x with
      link := false, hello := false, unacked := [], waiting := [], naked := false, out := [],
      switchAsked := false }) s1
    if pairEnabled s then abortChan 6 s2 else s2

/-! ### Scratch ways and SOLO (R439, R473, R481, R503) -/

/-- The pairing island claims the two lowest unclaimed scratch ways, or none (R439). -/
def pairClaim (s : State) : State :=
  match freeWays s with
  | a :: b :: _ => { s with canopy := { s.canopy with pairWays := [a, b] } }
  | _ => s

/-- It releases them. -/
def pairRelease (s : State) : State := { s with canopy := { s.canopy with pairWays := [] } }

/-- PORT_CTL enable of a port clears, with the effects of R268. -/
def portOff (p : Nat) (s : State) : State :=
  let id := 0x100000 + 256 * p
  if bitOf (pn s id) 0 then
    linkDrop p false (modPort p (fun x => { x with qualAt := none }) (setPw id (putBits (pn s id) 0 1 0) s))
  else s

/-- The device enters SOLO, and frame service begins where it did not run; ports says whether R473 disables every port.
A LEAVE that waits for a credit stays, and leaves when one comes (R477, R503). -/
def enterSolo (ports : Bool) (s : State) : State :=
  let s1 := rideTold s (discardEpochs s)
  let s2 := setRole 0 (modPair (fun x => { x with
    started := false, hello := false, waiting := x.waiting.filter (fun w => w.1 == 8),
    witness := none, mirroring := false, journal := [], syncLeft := none, resyncAsked := false,
    out := [], syncEnd := none, synced := false, resync := false, image := [], switching := 0, switchAsked := false, left := false }) s1)
  let s3 := if pairEnabled s then abortChan 7 (abortChan 6 s2) else s2
  let s4 := if s.pair.role ≤ 1 ∧ s.pair.switching = 0 then s3 else serviceBegin s3
  if ports then forAll 32 portOff s4 else s4

/-- A standby role. -/
def standbyRole (s : State) : Bool := s.pair.role == 2 || s.pair.role == 3

/-- OP 3 or clearing PAIR_CTL bit 0, where R503 admits it: a standby role sends LEAVE; an ACTIVE without heartbeat keeps its
ports. -/
def leavePair (s : State) : State :=
  if standbyRole s then enterSolo true (rideQueue 8 s.pair.epoch [] s)
  else enterSolo false s

/-- R503 refuses to leave: an ACTIVE whose partner heartbeat is present. -/
def leaveBarred (s : State) : Bool := s.pair.role == 1 && s.pair.heartbeat

/-- A pairing fault (R501). -/
def pairFault (s : State) : State := pairAlarm (enterSolo true (setMFault 11 23 31 0 0 false s))

/-- An uncorrectable error in pairing-island state or a receive buffer: memory 0x078 (Table 18.2, R501). -/
def pairEcc (s : State) : State :=
  let s1 := setMFault 3 23 31 0x78 0 false s
  if pairEnabled s then pairFault s1 else s1

/-! ### Mirrored items (Table 16.5) -/

/-- A parameter item is mirrored. -/
def mirroredParam (id : Nat) : Bool :=
  let block := bits id 16 8
  let item := bits id 0 8
  match paramInfo id with
  | none => false
  | some p => p.rw && (
    (block == 0x03 && (item == 0 || (0x09 ≤ item && item ≤ 0x0B) || 0x20 ≤ item))
    || (block == 0x10 && item != 0x0B && item != 0x0C && item != 0x0D)
    || block == 0x20 || block == 0x21 || block == 0x22 || block == 0x31
    || (block == 0x30 && item != 2)
    || (block == 0x40 && item ≤ 2) || (block == 0x42 && item ≤ 1))

/-- A table is mirrored. -/
def mirroredTable (t : Nat) : Bool := 2 ≤ t && t ≤ 8

/-- R472 denies a write of a mirrored item: the role is a standby one. -/
def mirrorBarred (s : State) : Bool := standbyRole s

/-- A write of a mirrored item that ended well is journalled (R484). -/
def journalAdd (rs : List JRecord) (s : State) : State :=
  if s.pair.role = 1 ∧ s.pair.mirroring then modPair (fun x => { x with journal := x.journal ++ rs }) s else s

end Sys2Proof.Machine
end

