-- ==== Sys2Proof/Machine/Fences.lean ====
section
/-! DEFINITION. Fences and their effects (R20 to R30, Table 1.8) and the device safe state (R548 to R550). -/

set_option Elab.async false

namespace Sys2Proof.Machine

/-- Some unit is fenced: M_STATUS.DEGRADED (R25). -/
def degraded (s : State) : Bool := (List.range 21).any (fenced s)

/-- FENCE_LOST (Table 1.8). -/
def fenceLost (s : State) : Nat :=
  let f := fenced s
  let frames := frameLost s
  let allT := (List.range 4).all fun t => f (12 + t)
  flag (f 9 || f 10 || f 11) 9 + flag (f 18) 8 + flag (f 18) 7 + flag (f 19) 6 + flag (pairingLost s) 5
    + flag (f 17 || f 19 || allT) 4 + flag (f 17 || frames) 3 + flag frames 2 + flag frames 1
    + flag ((List.range 4).any fun t => f (12 + t)) 0

/-! ### What a fenced unit discards (R22) -/

/-- A port quad is held in reset: its ports report link down and hold nothing (R27, R29). -/
def fenceQuad (q : Nat) (s : State) : State :=
  let s1 := modLane q (fun x => { x with signal := false, lock := false }) s
  forAll 4 (fun i s =>
    let p := 4 * q + i
    let s1 := linkDrop p true s
    let s2 := clearEgress p .linkDown (cutWire p s1)
    modPort p (fun x => { x with rx := [], rxGone := [], qualAt := none, xoff := [], paused := [], ctlDue := [] }) s2) s1

/-- A frame has a cell in Glade bank b. -/
def inBank (b : Nat) (f : GFrame) : Bool := f.cells.any fun c => c / 12288 == b

/-- Every reference to a frame is discarded: a transmitted frame's entry is written back with ECC, each reference of a
received frame counts in RX_ECC, and its cells are free (R22, R30). -/
def discardFrame (id : Nat) (s : State) : State :=
  let f := frame s id
  let items := s.ports.flatMap fun e => e.2.queues.flatMap fun q => q.2.filter fun i => i.frame == id
  let dropItem := fun (q : Nat × List EgItem) => (q.1, q.2.filter fun i => i.frame != id)
  let dropRing := fun (r : Nat × Ring) => (r.1, { r.2 with refs := r.2.refs.filter (· != id) })
  let keep := fun (w : WaitItem) => match w with
    | .frame k _ => k != id
    | .marker _ _ _ _ => true
  let ports := s.ports.map fun e => (e.1, { e.2 with queues := e.2.queues.map dropItem })
  let tenants := s.tenants.map fun e => (e.1, { e.2 with rings := e.2.rings.map dropRing })
  let streams := s.store.streams.map fun e => (e.1, { e.2 with wait := e.2.wait.filter keep })
  let s2 := { s with ports := ports, tenants := tenants, store := { s.store with streams := streams } }
  let s3 := forEach items (fun i s => finishOrigin i.origin .ecc 0 none s) s2
  let s4 := match f.port with
    | some p => countPort p 14 f.refs s3
    | none => s3
  { s4 with frames := s4.frames.filter fun e => e.1 != id }

/-- A Glade bank is fenced: every frame with a cell in it is discarded for every reference (R22). -/
def fenceBank (b : Nat) (s : State) : State :=
  xoffReview (forEach (s.frames.filter fun e => inBank b e.2) (fun e s => discardFrame e.1 s) s)

/-- A tenant path is fenced: a held tenant reset, and the host link back in Detect (R155, R552). -/
def fenceTenant (t : Nat) (s : State) : State :=
  modLink t (fun l => { l with state := .detect, bme := false, mse := false, msiEn := false, command := 0, replaying := [] })
    (tenantResetStart t s)

/-- The store island is fenced: what it holds is discarded, and no medium is in service. -/
def fenceStore (s : State) : State :=
  let idle := fun (e : Nat × Stream) => (e.1, { e.2 with state := 0, window := none })
  modStore (fun x => { x with
    cmd := none, geometry := none, label := none, segs := [], blocks := [], erasing := [],
    streams := x.streams.map idle }) (storeGone 0 (discardRefs s))

/-- The Canopy is fenced: dirty sectors are lost, no scratch way exists, every operation ends with ERR 1 (R445). -/
def fenceCanopy (s : State) : State :=
  let ops := s.canopy.queues.flatMap fun e => e.2
  let s1 := { setPw 0x410009 0 s with scratch := [], canopy := { s.canopy with
    lines := [], fills := [], reads := [], queues := [], ways := 0, storeWays := [], pairWays := [] } }
  forEach ops (fun m s => maintDone m.win 1 s) s1

/-- Every running channel ends with ABORTED (Table 13.5). -/
def abortAll (s : State) : State := forAll 16 (fun c s => abortChan c s) s

/-- A unit that pairing needs is fenced: the device runs SOLO (Table 1.8, R501). -/
def fencePair (s : State) : State :=
  if s.pair.role = 0 then modPair (fun x => { x with link := false, unacked := [], started := false, hello := false }) s
  else modPair (fun x => { x with link := false, unacked := [] }) (enterSolo (standbyRole s) s)

/-- What unit u of Table 1.7 holds is discarded as it is fenced (R22). -/
def fenceUnit (u : Nat) (s : State) : State :=
  if u < 8 then fenceQuad u s
  else if u < 12 then fenceBank (u - 8) s
  else if u < 16 then fenceTenant (u - 12) s
  else if u = 16 then { s with thicket := { s.thicket with waiting := [] } }
  else if u = 17 then fenceStore s
  else if u = 18 then fencePair (fenceCanopy s)
  else if u = 19 then fencePair (abortAll s)
  else if u = 20 then fencePair s
  else s

/-- Each unit of a mask that was not fenced before discards what it holds. -/
def fenceNew (m : Nat) (was : Nat → Bool) (s : State) : State :=
  forAll 21 (fun u s => if bitOf m u && !was u then fenceUnit u s else s) s

/-- FENCE is written: the units whose bits are 1 are fenced at once (R22, R23). -/
def fenceMask (m : Nat) (s : State) : State := fenceNew m (fenced s) { s with fences := s.fences ||| m }

/-- A failed test adds bits to FENCE_SELF (R22, R544). -/
def fenceSelf (m : Nat) (s : State) : State := fenceNew m (fenced s) (setPw 0xA00001 (pn s 0xA00001 ||| m) s)

/-! ### The device safe state (R548, R549) -/

/-- The actions on entering the device safe state (R549). -/
def enterSafe (s : State) : State :=
  if s.safety.safe then s
  else
    let s1 := { s with safety := { s.safety with safe := true, dog := none }, start := { s.start with faultN := true } }
    let s2 := forAll 32 (fun p s => cutWire p s) s1
    let s3 := forAll 4 (fun t s => tenantResetStart t s) s2
    suspendNow (abortAll s3)

/-- A cause of M_FAULT that leads to the device safe state (R548). -/
def safeFault (cause unitA unitB info addr : Nat) (s : State) : State :=
  enterSafe (setMFault cause unitA unitB info addr (!s.safety.safe) s)

/-- An inter-island handshake between islands a and b times out (R19, R550): with the control island as a party, the
safety island will reset the device. -/
def handshakeFault (a b : Nat) (s : State) : State :=
  let first := !s.safety.safe
  let s1 := safeFault 0 a b 0 b s
  if first && (a == 0 || b == 0) then { s1 with safety := { s1.safety with resetFrom := some s1.clk } } else s1

end Sys2Proof.Machine
end

