-- ==== Sys2Proof/Machine/Tenure.lean ====
section
/-! DEFINITION. Arbitration and tenures of the control bus (R44 to R50, R599). -/

set_option Elab.async false

namespace Sys2Proof.Machine

/-- s with the control bus changed. -/
def modBus (f : Bus → Bus) (s : State) : State := { s with bus := f s.bus }

/-- Master m may be granted: it requests, it is not ignored, and a tenant master is enabled (R45, R49). -/
def wants (s : State) (m : Nat) : Bool :=
  s.bus.req.getLsbD m && !s.bus.ignored.getLsbD m && (m == 0 || bitOf (pn s (0x020001 + 256 * m)) 0)

/-- The master the arbitration selects (R45, R46). -/
def nextMaster (s : State) : Option Nat :=
  if bitOf (pn s 0x0200F0) 0 then
    if wants s 0 then some 0
    else ((List.range 4).map fun i => (s.bus.lastTenant + i) % 4 + 1).find? (wants s)
  else ((List.range 5).map fun i => (s.bus.lastGrant + 1 + i) % 5).find? (wants s)

/-- The device drives the bus: it is powered, RESET_N is high and no internal reset is in force (R70, R568). -/
def busLive (s : State) : Bool := s.start.powered && !s.start.resetLow && s.start.internal.isNone

/-- An idle bus is granted to the selected master, whose tenure begins with the limit now in force (R44, R69). -/
def arbitrate (s : State) : State :=
  if s.bus.grant.isSome || s.bus.ack.isSome || !busLive s then s
  else match nextMaster s with
    | none => s
    | some m => modBus (fun b => { b with
        grant := some m, lastGrant := m, lastTenant := if m = 0 then b.lastTenant else m, grantAt := s.clk,
        limit := pn s (0x020000 + 256 * m), ending := .none }) s

/-- The grant is withdrawn, and the bus is arbitrated again. -/
def dropGrant (s : State) : State :=
  arbitrate (modBus (fun b => { b with grant := none, ack := none, dataOut := none, ending := .none }) s)

/-- A tenure is revoked: held says that the strobe was held (R47 to R50). A request that is already deasserted then counts
its 1 µs of R49 from the revocation (DESIGN CHOICE, log entry 50: the spec does not say from when). -/
def revoke (m : Nat) (heldStrobe : Bool) (s : State) : State :=
  let off := if s.bus.req.getLsbD m then s.bus.offAt.filter (fun e => e.1 != m) else tput s.bus.offAt m s.clk
  let s1 := modBus (fun b => { b with ignored := b.ignored ||| BitVec.ofNat 5 (2 ^ m), offAt := off }) s
  let s2 := bumpParam (0x020003 + 256 * m) 1 s1
  let s3 := if m = 0 then setMFault 1 0 31 0 0 false s2
    else tenantFault (m - 1) 5 0 false 0 (flag heldStrobe 0) 0 0 s2
  dropGrant s3

/-- CB_ENABLE of a granted tenant master becomes 0: the tenure ends without a revocation (R599). Of a handshake in which the
limit is reached as well, the disable decides in either order, with no count and no fault (DESIGN CHOICE, log entry 50: R47
and R599 are not joined). -/
def disableMaster (m : Nat) (s : State) : State :=
  if s.bus.grant ≠ some m then s
  else if s.bus.ack.isSome then modBus (fun b => { b with ending := .disable }) s
  else dropGrant s

end Sys2Proof.Machine
end

