-- ==== Sys2Proof/Machine/Params.lean ====
section
/-! DEFINITION. The parameter port (chapter 4): live reads, the checks of R107 in their order, clamping, and what a
committed write does. -/

set_option Elab.async false

namespace Sys2Proof.Machine

/-! ### Reading -/

/-- The live word of a parameter item: parameters that report state are computed from it. -/
def liveWord (s : State) (id : Nat) : Nat :=
  let block := bits id 16 8
  let i := bits id 8 8
  let item := bits id 0 8
  if id = 0x010000 then Config.uid % 2 ^ 24
  else if id = 0x010001 then Config.uid / 2 ^ 24 % 2 ^ 24
  else if id = 0x010002 then keyState s
  else if block = 0x03 ∧ item = 1 then gladeUsed s i
  else if block = 0x04 then lockState s i
  else if block = 0x10 ∧ item = 2 then portStat s i
  else if block = 0x11 ∧ item = 4 then flag (lane s i).signal 0 + flag (lane s i).lock 1
  else if block = 0x12 ∧ item = 2 then mdioStat s i
  else if block = 0x31 ∧ item = 0 then gateCtl s i
  else if id = 0x400003 then protectedSegs s
  else if id = 0x400004 then recordRate s
  else if id = 0x510001 then scratchStat s
  else if id = 0x61000B then s.perf.bwBytes % 2 ^ 24
  else if id = 0x61000C then s.perf.bwBytes / 2 ^ 24
  else if id = 0xA00002 then fenceLost s
  else pn s id

/-- The whole live value of a parameter. -/
def liveWhole (s : State) (p : Param) : Nat :=
  ofWords ((List.range p.words).map fun k => word (liveWord s (p.anchor + k)))

/-! ### Fitting a value to its range (R107, Table 4.1) -/

/-- The value a fit stores and whether it was clamped; none for a reserved code. -/
def fitValue (f : Fit) (v : Nat) : Option (Nat × Bool) :=
  match f with
  | .mask m => some (v &&& m, false)
  | .num m lo hi =>
    let x := v &&& m
    some (max lo (min hi x), decide (x < lo) || decide (hi < x))
  | .sint n lo hi =>
    let x := toInt n v
    some (ofInt n (max lo (min hi x)), decide (x < lo) || decide (hi < x))
  | .code top => if v ≤ top then some (v, false) else none

/-- An event code of Table 15.5 (R464). -/
def eventOk (v : Nat) : Bool :=
  let u := bits v 16 8
  let i := bits v 8 8
  let e := bits v 0 8
  v == 0 || (1 ≤ e && (match u with
    | 0x01 => i == 0 && e ≤ 1
    | 0x02 => i ≤ 31 && e ≤ 7
    | 0x03 => i ≤ 3 && e ≤ 9
    | 0x04 => i == 0 && e ≤ 4
    | 0x05 => i == 0 && e ≤ 4
    | 0x06 => i ≤ 3 && e ≤ 4
    | 0x07 => i ≤ 15 && e ≤ 3
    | 0x08 => i == 0 && e ≤ 4
    | 0x09 => (i == 0 || (2 ≤ i && i ≤ 24)) && e ≤ 1
    | 0x0A => i ≤ 3 && e ≤ 4
    | _ => false))

/-- A PAIR_ASSIGN value gives two pairs to one tenant (Table 4.7). -/
def assignTwice (v : Nat) : Bool :=
  (List.range 4).any fun p => (List.range p).any fun q =>
    bitOf v (3 * p + 2) && bitOf v (3 * q + 2) && bits v (3 * p) 2 == bits v (3 * q) 2

/-! ### Checks that depend on the state -/

/-- A write guard that holds whatever the value, so that it refuses a non-anchor item as well (R111, R320). -/
def itemGuard (s : State) (id : Nat) : Bool :=
  bits id 16 8 == 0x31 && bits id 0 8 != 0 && (port s (bits id 8 8)).gate.swapAt.isSome

/-- A write guard refuses a value (R107 order 3, R240, R320, R503, Table 2.7). -/
def paramGuard (s : State) (id v : Nat) : Bool :=
  let block := bits id 16 8
  let i := bits id 8 8
  let item := bits id 0 8
  (id == 0x020001 && !bitOf v 0)
    || (block == 0x11 && item == 0 && (List.range 4).any fun k => portEnabled s (4 * i + k))
    || itemGuard s id
    || (id == 0x700000 && pairEnabled s && !bitOf v 0 && leaveBarred s)

/-- A value is a forbidden combination (R107 order 4, R239, R251, R267, R397, R464). -/
def paramForbidden (s : State) (id v : Nat) : Bool :=
  let block := bits id 16 8
  let i := bits id 8 8
  let item := bits id 0 8
  (block == 0x10 && item == 0 && (bits v 1 2 == 3 || (bitOf v 0 && !available s i)))
    || (block == 0x10 && item == 1 && !speedOk (if available s i then laneMode s i else 0) i v)
    || (block == 0x10 && item == 4 && bits v 0 2 != 0 && bits v 8 8 != 0)
    || (id == 0x410000 && bits v 0 2 == 3)
    || (id == 0x500000 && assignTwice v)
    || (block == 0x61 && item ≤ 7 && !eventOk v)

/-- A value raised or lowered by a limit that the state sets (R117, R256, R312, R438). -/
def paramLimit (s : State) (id v : Nat) : Nat :=
  let block := bits id 16 8
  let item := bits id 0 8
  if block = 0x03 ∧ item = 8 then max v (2 * pn s (id - 1))
  else if block = 0x03 ∧ item = 2 then max v (gladeUsed s (bits id 8 8))
  else if block = 0x10 ∧ item = 6 then min v (pn s (id - 1) - 1)
  else if id = 0x300003 ∧ bitOf v 0 ∧ bits v 8 16 = 0 then putBits v 8 16 1
  else if id = 0x510000 then max v (claimedFloor s)
  else v

/-! ### Effects of a committed write -/

/-- The quads that TRIM powers down or restarts (R514, R515). -/
def trimApply (s : State) : State :=
  forAll 8 (fun q s =>
    let want := s.mgmt.trim && bitOf (pn s 0x80FF02) q
    if want && !(lane s q).down then
      laneReview q (modLane q (fun x => { x with down := true, signal := false, lock := false }) s)
    else if !want && (lane s q).down && !s.power.asleep then modLane q (fun x => { x with down := false }) s
    else s) s

/-- A port parameter has been written. Where FLOW_CFG no longer sends for a class in XOFF, the XOFF and a frame due for it end
without an XON (R253): DESIGN CHOICE, the spec names no frame there (assumption 60). -/
def portParamEffect (p item old : Nat) (s : State) : State :=
  if item = 0 then
    if bitOf old 0 && !portEnabled s p then linkDrop p false (modPort p (fun x => { x with qualAt := none }) s)
    else linkReview p s
  else if item = 1 ∨ item = 0x0D then linkReview p s
  else if item = 4 then
    let s1 := modPort p (fun x => { x with
      xoff := x.xoff.filter fun e => sendsFlow s p e.1, ctlDue := x.ctlDue.filter fun e => sendsFlow s p e.1 }) s
    forAll 8 (fun c s => xoffJudge p c none s) s1
  else if item = 5 then
    let x := pn s (0x100005 + 256 * p)
    let s1 := if pn s (0x100006 + 256 * p) ≥ x then setPw (0x100006 + 256 * p) (x - 1) s else s
    xoffLeave p (forAll 8 (fun c s => xoffJudge p c none s) s1)
  else if item = 6 then xoffLeave p s
  else s

/-- LANE_MODE has been written: SPEED_CFG codes it does not accept become 0, and the lane is reset (R240). -/
def laneModeEffect (q : Nat) (s : State) : State :=
  let s1 := forAll 4 (fun k s =>
    let id := 0x100001 + 256 * (4 * q + k)
    let mode := if available s (4 * q + k) then laneMode s (4 * q + k) else 0
    if speedOk mode (4 * q + k) (pn s id) then s else setPw id 0 s) s
  laneReview q (modLane q (fun x => { x with signal := false, lock := false }) s1)

/-- PAIR_CTL has been written (R397, R439, R481, R503). -/
def pairCtlEffect (old : Nat) (s : State) : State :=
  if !bitOf old 0 && pairEnabled s then pairClaim s
  else if bitOf old 0 && !pairEnabled s then pairRelease s
  else s

/-- A write of PERF_EVENT: its counter is 0 (R465); with no counter left on a ring engine nothing is owed to its cycles. -/
def perfSelect (item : Nat) (s : State) : State :=
  let s1 := { s with perf := { s.perf with cnt := tput s.perf.cnt item 0 } }
  if countsEngine s1 then s1 else forAll 4 (fun t s => modTen t (fun x => { x with ahead := 0 }) s) s1

/-- What a committed write does beside storing its value. -/
def paramEffect (id old : Nat) (s : State) : State :=
  let block := bits id 16 8
  let i := bits id 8 8
  let item := bits id 0 8
  let v := pn s id
  if block = 0x02 ∧ item = 1 then (if bitOf v 0 then arbitrate s else disableMaster i s)
  else if block = 0x03 then
    if item = 0 then xoffReview s
    else if item = 3 ∨ item = 6 then frRestart i s
    else if item = 7 then (if pn s (id + 1) < 2 * v then setPw (id + 1) (2 * v) s else s)
    else if 0x20 ≤ item then modTen i (fun x => { x with buckets := tput x.buckets (item - 0x20) {} }) s
    else s
  else if block = 0x10 then portParamEffect i item old s
  else if block = 0x11 then (if item = 0 then laneModeEffect i s else if item = 1 then laneReview i s else s)
  else if id = 0x300002 then slewWritten (toInt 24 old) s
  else if id = 0x400001 then capReview s
  else if id = 0x410005 then judgeHealth s
  else if id = 0x510000 then returnWays v s
  else if block = 0x61 ∧ item ≤ 7 then perfSelect item s
  else if id = 0x610008 ∨ id = 0x61000A then { s with perf := { s.perf with bwAt := some s.clk, bwSum := 0 } }
  else if id = 0x700000 then pairCtlEffect old s
  else if id = 0x80FF02 then trimApply s
  else if id = 0xA00000 then fenceMask v s
  else s

/-- The buckets of tenant t take up their content under the burst in force before SHAPE_BURST is written (R143). -/
def settleBuckets (t : Nat) (s : State) : State :=
  let burst := pn s (0x03000B + 256 * t)
  forAll 32 (fun p s =>
    let rate := pn s (0x030020 + 256 * t + p)
    if rate = 0 then s
    else modTen t (fun x => { x with
      buckets := tput x.buckets p (bucketTake (tget x.buckets p {}) rate burst s.clk 0) }) s) s

/-- The channels that a write of PAIR_ASSIGN or PAIR_CTL gives another owner (R397). -/
def movedChannels (s : State) (id v : Nat) : List Nat :=
  if id = 0x500000 then
    ((List.range 4).filter fun p => pairOf (pn s id) p != pairOf v p).flatMap fun p => [8 + 2 * p, 9 + 2 * p]
  else if id = 0x700000 ∧ bitOf v 0 ≠ pairEnabled s then [6, 7]
  else []

/-- The start of the half-period last looked at: the first begins with timebase time, at the PLL's lock (assumption 71). -/
def halfStart (s : State) : Nat := max s.safety.halfAt s.power.lockedAt

/-- The boundary that ends it. -/
def halfEnd (s : State) : Nat := halfStart s + s.safety.halfLen

/-- The half-period in which the present instant lies. FTTI as it stands gives the length of every half-period after the one
last looked at (R542). -/
def rollHalf (s : State) : State :=
  let len := ms (pn s 0x900000) / 2
  if s.clk < halfEnd s then s
  else { s with safety := { s.safety with
    halfAt := halfEnd s + (s.clk - halfEnd s) / len * len, halfLen := len, tested := [],
    offsets := if len = s.safety.halfLen then s.safety.offsets else [] } }

/-- What a write does before its value is stored: channels that change owner with it end (R397), shaper buckets settle
(R143), and half-periods up to now keep the FTTI they had (R542). -/
def paramBefore (id v : Nat) (s : State) : State :=
  if id = 0x500000 then forEach (movedChannels s id v) abortReq s
  else if id = 0x700000 ∧ bitOf v 0 ≠ pairEnabled s then
    if pairEnabled s then abortChan 7 (abortChan 6 (leavePair s)) else abortReq 7 (abortReq 6 s)
  else if bits id 16 8 = 0x03 ∧ bits id 0 8 = 0x0B then settleBuckets (bits id 8 8) s
  else if id = 0x900000 then rollHalf s
  else s

/-- The mirror journal's records of a committed parameter: one per item, anchor last (R484). -/
def paramRecords (s : State) (p : Param) : List JRecord :=
  ((List.range (p.words - 1)).map fun k => JRecord.param (p.anchor + 1 + k) (word (liveWord s (p.anchor + 1 + k))))
    ++ [.param p.anchor (word (liveWord s p.anchor))]

/-- A value is stored, with what that does (R109). -/
def commitValue (p : Param) (y : Nat) (s : State) : State := paramEffect p.anchor (pn s p.anchor) (setWide p.anchor p.words y s)

/-- A whole value is committed to a parameter: its RESULT and the state after it (R107, R111). A change of owner waits for the
channels that close their writes first (R397). -/
def paramCommit (p : Param) (v : Nat) (s : State) : Nat × State :=
  let id := p.anchor
  if paramGuard s id v then (2, s)
  else if paramForbidden s id v then (4, s)
  else match fitValue p.fit v with
    | none => (4, s)
    | some (x, c) =>
      let y := paramLimit s id x
      let lowers := bits id 16 8 == 0x10 && bits id 0 8 == 5 && decide (pn s (id + 1) ≥ y)
      let raises := bits id 16 8 == 0x03 && bits id 0 8 == 7 && decide (pn s (id + 1) < 2 * y)
      let peakItem := bits id 16 8 == 0x03 && bits id 0 8 == 2
      let clamped := c || (y != x && !peakItem) || lowers || raises
      let s1 := if bits id 16 8 = 0x31 ∧ bits id 0 8 = 0 then gateWrite (bits id 8 8) y s
        else
          let s0 := paramBefore id y s
          if (movedChannels s id y).any fun c => (chan s0 c).busy then { s0 with mgmt := { s0.mgmt with handover := some (id, y) } }
          else commitValue p y s0
      let s2 := if mirroredParam id then journalAdd (paramRecords s1 p) s1 else s1
      (if clamped then 1 else 0, s2)

/-- A write of one item with its write shadow (R111): RESULT, the shadow after it, and the state after it. may says that
the writer has the right. -/
def paramPut (may : Bool) (staged : List (Nat × Word)) (id : Nat) (v : Word) (s : State) :
    Nat × List (Nat × Word) × State :=
  match paramInfo id with
  | none => (3, staged, s)
  | some p =>
    let wide := decide (1 < p.words)
    let after := if wide && id == p.anchor then [] else staged
    if !p.rw || !may || s.safety.safe || (mirroredParam id && mirrorBarred s) || itemGuard s id then (2, after, s)
    else if id ≠ p.anchor then (0, tput staged id v, s)
    else
      let whole := ofWords (v :: (List.range (p.words - 1)).map fun k =>
        tget staged (id + 1 + k) (word (liveWord s (id + 1 + k))))
      let r := paramCommit p whole s
      (r.1, after, r.2)

/-! ### The port (R106 to R111, R598) -/

/-- BUSY of a parameter or table port reads 1 in all windows while an image loads (R127). -/
def portBusy (s : State) (o : OpStat) : Bool := o.busy || s.image.load

/-- Window w may write a parameter (R118). -/
def mayWrite (s : State) (w id : Nat) : Bool := w == 0 || tenantWrites s (w - 1) id

/-- Window w may read a parameter (R118). -/
def mayRead (w id : Nat) : Bool := w == 0 || tenantReads (w - 1) id

/-- The RESULT an operation ends with on the parameter port, with BUSY set. -/
def paramBusy (w result : Nat) (s : State) : State :=
  modWin w (fun x => { x with pstat := { x.pstat with ends := result, busy := true } }) s

/-- OP 1: a parameter is read into M_PARAM_DATA; an anchor read latches the whole value (R110). -/
def paramReadOp (w : Nat) (s : State) : State :=
  let id := (win s w).paramId.toNat
  match paramInfo id with
  | none => paramBusy w 3 s
  | some p =>
    if !mayRead w id then paramBusy w 2 s
    else if 1 < p.words ∧ id = p.anchor then
      let v := liveWhole s p
      paramBusy w 0 (modWin w (fun x => { x with paramData := word v, latch := some (id, v) }) s)
    else
      let v := match (win s w).latch with
        | some (a, whole) => if 1 < p.words ∧ a = p.anchor then wordOf whole (id - a) else word (liveWord s id)
        | none => word (liveWord s id)
      paramBusy w 0 (modWin w (fun x => { x with paramData := v }) s)

/-- OP 2: M_PARAM_DATA is written to a parameter (R111). -/
def paramWriteOp (w : Nat) (s : State) : State :=
  let x := win s w
  let id := x.paramId.toNat
  let (res, staged, s1) := paramPut (mayWrite s w id) x.staged id x.paramData s
  let s2 := modWin w (fun x => { x with
    staged := staged, paramData := if res = 1 then word (liveWord s1 id) else x.paramData }) s1
  paramBusy w res s2

/-- OP 3: reserved; it ends with RANGE (R598). -/
def paramReservedOpAct (w : Nat) (s : State) : State := paramBusy w 4 s

/-- A write of M_PARAM_STAT or T_PARAM_STAT: OVERRUN is W1C, OP starts an operation or sets OVERRUN (R598). -/
def paramStatWrite (w v : Nat) (s : State) : State :=
  let s1 := if bitOf v 7 then modWin w (fun x => { x with pstat := { x.pstat with overrun := false } }) s else s
  let op := bits v 0 2
  if op = 0 then s1
  else if portBusy s1 (win s1 w).pstat then
    modWin w (fun x => { x with pstat := { x.pstat with overrun := true } }) s1
  else match op with
    | 1 => paramReadOp w s1
    | 2 => paramWriteOp w s1
    | _ => paramReservedOpAct w s1

/-- M_PARAM_STAT or M_TBL_CMD as read (Table 3.10). -/
def opStat (s : State) (o : OpStat) : Nat := flag o.overrun 7 + o.result * 16 + flag (portBusy s o) 3

/-- The write that waits for channels to end takes place. -/
def handOwner (s : State) : State :=
  match s.mgmt.handover with
  | none => s
  | some (id, v) =>
    let s1 := { s with mgmt := { s.mgmt with handover := none } }
    match paramInfo id with
    | some p => commitValue p v s1
    | none => s1

/-- A write waits for channels that have not ended. -/
def handoverWaits (s : State) : Bool :=
  match s.mgmt.handover with
  | some (id, v) => (movedChannels s id v).any fun c => (chan s c).busy
  | none => false

/-- PARAM_OP_END: BUSY clears and RESULT holds the operation's result (R107, R108); a write that changes owners of channels
first waits for them to end (R397). -/
def paramOpEndEffect (w : Nat) (s0 : State) : State :=
  if w = 0 ∧ handoverWaits s0 then s0
  else
  let s := if w = 0 then handOwner s0 else s0
  modWin w (fun x => if x.pstat.busy then { x with pstat := { x.pstat with result := x.pstat.ends, busy := false } } else x) s

/-- PARAM_OP_END. -/
def execParamOpEnd (w : Fin 5) (s : State) : Host.Outcome State Fault Refusal := live (paramOpEndEffect w) s

end Sys2Proof.Machine
end

