-- ==== Sys2Proof/Machine/Tables.lean ====
section
/-! DEFINITION. The table port (chapter 4): row reads and writes with the checks of R121, the value checks of the chapters
that own the tables, and the row buffer. -/

set_option Elab.async false

namespace Sys2Proof.Machine

/-- All bits of a word. -/
def wordAll : Nat := 0xFFFFFF

/-- Bits of word i of row r that a table implements; the others are reserved, or hardware's (R3). -/
def rowMask (table r i : Nat) : Nat :=
  match table with
  | 0x01 => if r < 68 then
      [0xFFFFC0, wordAll, 0xFFFF, 0x1FF1F, if r < 64 then 0x7FFF else 0, 0x1FFFF].getD i 0
    else [0xFFFFC0, wordAll, 0xFFFF, 0x1F, 0, 0x1FFFF].getD i 0
  | 0x02 => if i < 2 then wordAll else if r < 32 then 0x800000 else 0xE0FFFF
  | 0x03 => if r < 170 then wordAll else 0xFFFF
  | 0x04 => if i = 0 then 0xFFC0FF
    else if i = 4 then 0x0FFFFF
    else if i = 5 then 0x80FFFF
    else if i = 19 ∨ (25 ≤ i ∧ i ≤ 29) then 0xFFFF
    else if i = 30 then 0xFFFFFC
    else if i = 31 then 0xFFFFF8
    else wordAll
  | 0x05 => [wordAll, 0x8000FF, 0x3FFF, 0x1F17].getD i 0
  | 0x06 => [0xFF03FF, wordAll].getD i 0
  | 0x07 => if i = 42 then 0xFFFF else if i = 48 then 0xFF else if i = 49 then 0x800000 else wordAll
  | 0x08 => [0x1EFFFF, 0xC03FFF, wordAll, 0xFFFF, 0, 0, 0, 0, 0, 0, wordAll, wordAll].getD i 0
  | 0x09 => if i = 0 then 0x800007 else if i = 15 then 0 else if i % 2 = 1 then wordAll else 0xFFFF01
  | 0x0A => if i = 48 then wordAll else if i % 2 = 0 then wordAll else 0xFFFF
  | 0x0B => if i = 8 then 0xF else if i % 2 = 0 then wordAll else 0xFFFF
  | 0x0D => [0xE00000, 0xFFF000, wordAll, 0xFFFF, wordAll, 0xFF, 0, 0].getD i 0
  | _ => wordAll

/-- Bits of word i of row r that read as anything but 0: those of rowMask and hardware's own fields; RELEASE of a stream row
reads 0 (Tables 11.7, 12.6; R3). -/
def rowReads (table r i : Nat) : Nat :=
  match table with
  | 0x08 => [0xDEFFFF, 0xC03FFF, wordAll, 0xFFFF, wordAll, 0xFF, wordAll, 0xFF].getD i wordAll
  | _ => rowMask table r i

/-- The words of a row as read. -/
def tableRead (s : State) (table inst r : Nat) : List Word :=
  match table with
  | 0x08 => streamRow s r
  | 0x0C => if r = 0 then [0] else [word (putBits (srcRow s inst r) 4 1 (flag (cond s inst r) 0))]
  | 0x0F => blockRow s r
  | _ => rowAt s table inst r

/-- A write guard bars a row (Table 4.9, R204, R320). -/
def rowGuard (s : State) (op table inst r : Nat) : Bool :=
  match table with
  | 0x01 => (ring s inst r).enable || (ring s inst r).flush
  | 0x06 => (port s inst).gate.enable && ((port s inst).gate.active == r / 256 || (port s inst).gate.swapAt.isSome)
  | 0x08 => (stream s r).state != 0
  | 0x0C => r == 0
  | 0x0D => maintBusy s inst
  | 0x0E => op == 2
  | 0x0F => true
  | _ => false

/-- The value checks of the owning chapters refuse a row (R206, R279, R315, R422). -/
def rowForbidden (table : Nat) (ws : List Word) : Bool :=
  let w := fun i => (ws.getD i 0).toNat
  match table with
  | 0x01 =>
    let k := bits (w 3) 0 5
    decide (k < 3) || decide (16 < k) || decide (bits (w 5) 0 16 ≥ 2 ^ k)
  | 0x04 => bits (w 0) 14 2 == 3 || decide (128 < bits (w 19) 8 8) || decide (128 < bits (w 25) 8 8)
  | 0x06 => bits (w 0) 8 2 == 3
  | 0x0D =>
    let base := bits (w 1) 12 12 * 2 ^ 12 + w 2 * 2 ^ 24 + bits (w 3) 0 16 * 2 ^ 48
    let pages := w 4 + bits (w 5) 0 8 * 2 ^ 24
    bitOf (w 0) 23 && (pages == 0 || decide (base + 4096 * pages > 2 ^ 64))
  | _ => false

/-- A row with its numbers lowered or raised to their limits (R206, Table 9.7, R315, R358). -/
def rowClamp (table r : Nat) (ws : List Word) : List Word :=
  let w := fun i => (ws.getD i 0).toNat
  match table with
  | 0x01 => if r < 64 then
      setAt ws 4 (word (putBits (putBits (w 4) 0 8 (max 1 (bits (w 4) 0 8))) 8 7 (max 1 (min 64 (bits (w 4) 8 7)))))
    else ws
  | 0x05 => setAt ws 2 (word (min 10000 (w 2)))
  | 0x06 => if bits (w 0) 16 8 = 0 ∧ w 1 < 32 then setAt ws 1 32 else ws
  | 0x08 => setAt (setAt ws 1 (word (putBits (w 1) 0 14 (min 10000 (bits (w 1) 0 14))))) 3 (word (min 36500 (w 3)))
  | _ => ws

/-- The words that a write stores: masked to the implemented bits. -/
def rowStored (table r len : Nat) (ws : List Word) : List Word :=
  (List.range len).map fun i => word ((ws.getD i 0).toNat &&& rowMask table r i)

/-- What a stored row does beside being stored. -/
def rowEffect (table inst r : Nat) (release : Bool) (s : State) : State :=
  match table with
  | 0x05 => { s with thicket := { s.thicket with buckets := tput s.thicket.buckets r {} } }
  | 0x08 =>
    let s1 := modStream r (fun x => { x with bucket := {} }) s
    if release then releaseStream r s1 else s1
  | 0x0C => settle inst s
  | 0x0D => windowRewritten inst r s
  | 0x0E => { s with safety := { s.safety with logOrder := s.safety.logOrder.filter (· != r) } }
  | _ => s

/-- A row write whose table, row and instance exist: OP 2 with words, or OP 3 with zeros; RESULT and the state (R113,
R121). may says that the writer has the right. -/
def rowPut (may : Bool) (op table inst r len : Nat) (ws : List Word) (s : State) : Nat × State :=
  let barred := (s.safety.safe && !(table == 0x0E && op == 3)) || (mirroredTable table && mirrorBarred s)
  if !may || barred || rowGuard s op table inst r then (2, s)
  else
    let in_ := if op = 3 then [] else ws
    let stored := rowStored table r len in_
    if op = 2 && rowForbidden table stored then (4, s)
    else
      let fitted := if op = 2 then rowClamp table r stored else stored
      let final := if table = 0x0C then [word (srcWrite s inst r (in_.getD 0 0).toNat)] else fitted
      let s1 := rowEffect table inst r (bitOf (in_.getD 0 0).toNat 21) (putRow table inst r final s)
      let s2 := if mirroredTable table then journalAdd [.row table inst r final] s1 else s1
      (if fitted = stored then 0 else 1, s2)

/-- The instance a window's operation acts on: its own for tables held per tenant or window (R119). -/
def tableInst (s : State) (w table : Nat) : Nat :=
  if w = 0 then bits (win s w).tblId 8 8
  else if table = 0x0C then w
  else if table = 0x01 ∨ table = 0x0B ∨ table = 0x0D then w - 1
  else bits (win s w).tblId 8 8

/-- The RESULT an operation ends with on the table port, with BUSY set. -/
def tableBusy (w result : Nat) (s : State) : State :=
  modWin w (fun x => { x with tstat := { x.tstat with ends := result, busy := true } }) s

/-- The address of an operation: table, instance, row and its description, or the RESULT that ends it (R121). -/
def tableAddress (s : State) (w : Nat) : Nat ⊕ (Nat × Nat × Nat × Table) :=
  let table := bits (win s w).tblId 0 8
  let inst := tableInst s w table
  let r := (win s w).tblRow.toNat
  match tableInfo table (blockTableRows s) with
  | none => .inl 3
  | some t =>
    if r ≥ t.rows ∨ inst ≥ t.insts then .inl 4 else .inr (table, inst, r, t)

/-- OP 1: a row is loaded into the row buffer; words beyond it read 0 (R113). -/
def tableReadOp (w : Nat) (s : State) : State :=
  match tableAddress s w with
  | .inl res => tableBusy w res s
  | .inr (table, inst, r, t) =>
    if w ≠ 0 ∧ !tenantReadsTable table then tableBusy w 2 s
    else
      let ws := tableRead s table inst r
      let full := (List.range t.words).map fun i => ws.getD i 0
      tableBusy w 0 (modWin w (fun x => { x with buf := full }) (if table = 0x0F then drawn s else s))

/-- OP 2 and OP 3: a row is written (R113). -/
def tableWriteOp (w op : Nat) (s : State) : State :=
  match tableAddress s w with
  | .inl res => tableBusy w res s
  | .inr (table, inst, r, t) =>
    let may := w == 0 || tenantWritesTable table
    let res := rowPut may op table inst r t.words ((win s w).buf.take t.words) s
    tableBusy w res.1 res.2

/-- A write of M_TBL_CMD or T_TBL_CMD (R113, R598). -/
def tblCmdWrite (w v : Nat) (s : State) : State :=
  let s1 := if bitOf v 7 then modWin w (fun x => { x with tstat := { x.tstat with overrun := false } }) s else s
  let op := bits v 0 2
  if op = 0 then s1
  else if portBusy s1 (win s1 w).tstat then
    modWin w (fun x => { x with tstat := { x.tstat with overrun := true } }) s1
  else if op = 1 then tableReadOp w s1 else tableWriteOp w op s1

/-- The row length at which M_TBL_WORD wraps (R113). -/
def bufLen (s : State) (w : Nat) : Nat :=
  match tableInfo (bits (win s w).tblId 0 8) (blockTableRows s) with
  | some t => t.words
  | none => 64

/-- The word M_TBL_DATA shows: word M_TBL_WORD of the buffer, 0 while BUSY (Table 3.3). -/
def tblDataRead (s : State) (w : Nat) : Word :=
  if portBusy s (win s w).tstat || decide (bufLen s w ≤ (win s w).tblWord) then 0
  else (win s w).buf.getD (win s w).tblWord 0

/-- Each access to M_TBL_DATA made while BUSY is 0 advances M_TBL_WORD, with wrap (R113). -/
def tblAdvance (w : Nat) (s : State) : State :=
  if portBusy s (win s w).tstat then s
  else
    let n := (win s w).tblWord + 1
    modWin w (fun x => { x with tblWord := if n = bufLen s w ∨ n > 63 then 0 else n }) s

/-- A write of M_TBL_DATA (R77, R113). -/
def tblDataWrite (w : Nat) (d : Word) (s : State) : State :=
  if portBusy s (win s w).tstat then s
  else
    let x := win s w
    let k := x.tblWord
    let buf := if k < 64 then setAt (x.buf ++ List.replicate (k + 1 - x.buf.length) 0) k d else x.buf
    tblAdvance w (modWin w (fun x => { x with buf := buf }) s)

/-- TABLE_OP_END: BUSY clears and RESULT holds the operation's result (R107, R108). -/
def tableOpEndEffect (w : Nat) (s : State) : State :=
  modWin w (fun x => if x.tstat.busy then { x with tstat := { x.tstat with result := x.tstat.ends, busy := false } } else x) s

/-- TABLE_OP_END. -/
def execTableOpEnd (w : Fin 5) (s : State) : Host.Outcome State Fault Refusal := live (tableOpEndEffect w) s

end Sys2Proof.Machine
end

