-- ==== Sys2Proof/Machine/Pairing.lean ====
section
/-! DEFINITION. Pairing (chapter 16): the Ride frame protocol, joining and role resolution, epochs through channels 6 and
7, time alignment, heartbeats, witness windows, takeover, planned switchover and leaving; with the meanings of their
commands and of the channel bursts. -/

set_option Elab.async false

namespace Sys2Proof.Machine

/-! ### Receiving (R476 to R480) -/

/-- LEN is legal for a frame's TYPE (Table 16.3). -/
def rideLen (type len : Nat) : Bool :=
  match type with
  | 1 => len == 16
  | 2 => len == 36
  | 3 => decide (72 ≤ len) && decide (len ≤ 4104) && len % 16 == 8
  | 4 => len == 8
  | 5 => len == 0
  | 6 => len == 0
  | 7 => len == 4
  | 8 => len == 0
  | _ => false

/-- The bytes of a frame on the Ride lane: the header of Table 16.2, the payload and the CRC-32 over both (R476). -/
def rideBytes (f : RideFrame) : List Byte :=
  let h := f.hdr
  let body := leBytes 1 h.type.toNat ++ leBytes 1 h.flags.toNat ++ leBytes 2 h.len ++ leBytes 2 h.seq.toNat
    ++ leBytes 2 h.ack.toNat ++ leBytes 4 h.epoch.toNat ++ leBytes 2 h.credit.toNat ++ leBytes 1 h.role.toNat
    ++ leBytes 1 h.priority.toNat ++ f.payload
  body ++ leBytes 4 (crc32 body)

/-- Bytes received on the lane are a frame that is not discarded: a TYPE and a LEN of Table 16.3, as many bytes as LEN
says, and the CRC-32 of R123 over them (R476). -/
def rideGood (bytes : List Byte) : Bool :=
  let n := bytes.length - 4
  let len := leNat (slice bytes 2 2)
  decide (20 ≤ bytes.length) && n == 16 + len && rideLen (byteAt bytes 0) len
    && crc32 (bytes.take n) == leNat (bytes.drop n)

/-- A frame of the command's type with a legal LEN. -/
def rideLegal (type : Nat) (f : RideFrame) : Bool :=
  f.hdr.type.toNat == type && rideLen type f.hdr.len && f.payload.length == f.hdr.len

/-- One NAK per gap (R478). -/
def rideNak (s : State) : State :=
  if s.pair.naked then s else rideSend 6 [] (modPair (fun x => { x with naked := true }) s)

/-- The earliest burst of channel 6 whose DATA frame the partner has not acknowledged (R412, R486). -/
def rideMark (s : State) : State :=
  match s.pair.out with
  | [] => s
  | o :: _ =>
    let off := fun (p : List Byte) => leNat (p.take 4)
    let sent := (s.pair.unacked.filter fun u => u.frame.hdr.type == 3).map fun u => off u.frame.payload
    let open_ := sent ++ (s.pair.waiting.filter fun w => w.1 == 3).map fun w => off w.2.2
    let at0 := open_.foldl min (chan s 6).dst
    if (chan s 6).busy then modChan 6 (fun x => { x with mark := (65536 * o.way + at0, at0, (o.len - at0) / 16, 0) }) s else s

/-- The fields every frame carries: ACK retires frames, CREDIT admits new ones, RESYNC asks for a sync (R477, R478,
R490, R491). -/
def rideFields (f : RideFrame) (s : State) : State :=
  let a := f.hdr.ack.toNat
  let gone := s.pair.unacked.filter fun o => below 65536 o.frame.hdr.seq.toNat a
  let done := gone.any fun o => o.frame.hdr.type == 4 && s.pair.syncEnd == some o.frame.hdr.epoch.toNat
  rideMark <| ridePump 64 (modPair (fun x => { x with
    unacked := x.unacked.filter (fun o => !below 65536 o.frame.hdr.seq.toNat a),
    partnerCredit := f.hdr.credit.toNat, partnerRole := f.hdr.role.toNat, partnerPrio := f.hdr.priority.toNat,
    resyncAsked := x.resyncAsked || f.hdr.flags.getLsbD 1,
    synced := x.synced || done, syncEnd := if done then none else x.syncEnd }) s)

/-- A receive buffer is drained: one more credit (R477). -/
def rideGrant (n : Nat) (s : State) : State := modPair (fun x => { x with credit := (x.credit + n) % 65536 }) s

/-- A frame arrives on the link: a discarded one opens a gap; an unsequenced one acts; a sequenced one acts only when its
SEQ equals ACK (R478). -/
def rideReceive (type : Nat) (sequenced : Bool) (f : RideFrame) (act : State → State) (s : State) : State :=
  if !rideOpen s then s
  else if !rideLegal type f then rideNak s
  else if !sequenced then act (rideFields f s)
  else
    let q := f.hdr.seq.toNat
    if q = s.pair.ack then
      rideAck (act (modPair (fun x => { x with ack := (x.ack + 1) % 65536, naked := false }) (rideFields f s)))
    else if above 65536 q s.pair.ack then rideNak s
    else rideSend 5 [] s

/-! ### Channel 6 and the epoch images of the active (R483 to R487) -/

/-- The XOFF byte of a port record: class 8 shows in bit 0 (Table 16.4). -/
def xoffByte (x : Port) : Nat :=
  (x.xoff.map fun e => if e.1 = 8 then 1 else 2 ^ e.1).foldl (· ||| ·) 0

/-- The wire record of port p (R483). -/
def wireRecord (s : State) (p : Nat) : List Byte :=
  let x := port s p
  let g := x.gate
  leBytes 1 (flag g.enable 0 + flag (g.active == 1) 1 + flag g.swapAt.isSome 2) ++ leBytes 1 (xoffByte x)
    ++ leBytes 2 g.len ++ leBytes 6 g.cycle ++ leBytes 6 (g.base / 1000000000) ++ leBytes 4 (g.base % 1000000000)
    ++ leBytes 4 0

/-- A journal record's bytes (R483). -/
def recordImage : JRecord → List Byte
  | .param id v => [(1 : Byte)] ++ leBytes 3 id ++ leBytes 3 v.toNat ++ [0]
  | .row t i r ws =>
    let body := ws.flatMap fun w => leBytes 3 w.toNat
    [(2 : Byte)] ++ leBytes 1 ws.length ++ leBytes 1 t ++ leBytes 1 i ++ leBytes 2 r ++ [0, 0] ++ body
      ++ List.replicate ((4 - body.length % 4) % 4) 0

/-- A record of a sync as it stands now (R491). -/
def recordNow (s : State) : JRecord → JRecord
  | .param id _ => .param id (word (liveWord s id))
  | .row t i r ws =>
    let now := rowAt s t i r
    .row t i r ((List.range ws.length).map fun k => now.getD k 0)

/-- Records that fit in n bytes, in order, and the rest. -/
def takeFit : Nat → List JRecord → List JRecord × List JRecord
  | _, [] => ([], [])
  | n, r :: rest =>
    let k := (recordImage r).length
    if k ≤ n then
      let t := takeFit (n - k) rest
      (r :: t.1, t.2)
    else ([], r :: rest)

/-- A record of a non-anchor item: an image never ends between it and its anchor in a sync. -/
def isNonAnchor : JRecord → Bool
  | .param id _ => match paramInfo id with
    | some p => id != p.anchor
    | none => false
  | .row _ _ _ _ => false

/-- Cut a sync's records back to a whole parameter. -/
def cutWhole (t : List JRecord × List JRecord) : List JRecord × List JRecord :=
  let back := (t.1.reverse.takeWhile isNonAnchor).reverse
  (t.1.take (t.1.length - back.length), back ++ t.2)

/-- The IDs of the mirrored parameter items, each parameter's anchor last. -/
def mirroredIds : List Nat :=
  let group := fun (id : Nat) => match paramInfo id with
    | some p => if id = p.anchor ∧ mirroredParam id then ((List.range (p.words - 1)).map fun k => id + 1 + k) ++ [id] else []
    | none => []
  let block := fun (b n items : Nat) => (List.range n).flatMap fun i =>
    (List.range items).flatMap fun k => group (b * 65536 + i * 256 + k)
  block 0x03 4 64 ++ block 0x10 32 14 ++ block 0x20 1 8 ++ block 0x21 1 3 ++ block 0x22 1 4 ++ block 0x30 1 9
    ++ block 0x31 32 8 ++ block 0x40 1 3 ++ block 0x42 1 2

/-- Every row of a mirrored table. -/
def mirroredRows (t : Nat) : List JRecord :=
  match tableInfo t 0 with
  | none => []
  | some x => (List.range x.insts).flatMap fun i => (List.range x.rows).map fun r => .row t i r (List.replicate x.words 0)

/-- Every mirrored item and row (R491). -/
def allRecords : List JRecord :=
  (mirroredIds.map fun id => JRecord.param id 0) ++ [2, 3, 4, 5, 6, 7, 8].flatMap mirroredRows

/-- IMAGE_LEN of so many record bytes: a multiple of 16, padded so that the last burst carries at least 64 bytes (Table
16.3, assumption 40). -/
def imageSize (n : Nat) : Nat :=
  let len := (max 800 (784 + n) + 15) / 16 * 16
  let tail := len % 4096
  if 0 < tail ∧ tail < 64 then len + (64 - tail) else len

/-- The bytes of an epoch image (Table 16.4). -/
def epochImage (s : State) (epoch flags : Nat) (rs : List JRecord) : List Byte :=
  let body := rs.flatMap recordImage
  let len := imageSize body.length
  let all := [0x45, 0x50, 0x4F, 0x43] ++ leBytes 4 epoch ++ leBytes 4 len ++ leBytes 2 rs.length ++ leBytes 2 flags
    ++ (List.range 32).flatMap (wireRecord s) ++ body
  all ++ List.replicate (len - all.length) 0

/-- Program a channel of the pairing island and start it (R486, R488). -/
def programChan (c src srcSp dst dstSp len : Nat) (s : State) : State :=
  startChan c (modChan c (fun x => { x with
    src := src, dst := dst, count := len / 16,
    ctl := srcSp * 2 ^ 21 + dstSp * 2 ^ 18 + 6 * 2 ^ 7 + 2 * 2 ^ 4, done := false, error := false, err := 0 }) s)

/-- The oldest staged image goes to channel 6 when the channel is idle (R486). -/
def sendNext (s : State) : State :=
  match s.pair.out with
  | o :: _ => if (chan s 6).busy then s else programChan 6 (65536 * o.way) 2 0 4 o.len s
  | [] => s

/-- A sync starts: every mirrored item is due again (R491). -/
def syncStart (s : State) : State :=
  modPair (fun x => { x with
    mirroring := true, journal := [], syncLeft := some allRecords, resyncAsked := false, synced := false,
    syncEnd := none }) s

/-- A staging way that holds no image. -/
def stagingWay (s : State) : Option Nat :=
  s.canopy.pairWays.find? fun k => !(s.pair.out.any fun o => o.way == k)

/-- Build the image of this boundary in a staging way (R483, R485, R487). -/
def buildEpoch (way : Nat) (s0 : State) : State :=
  let s := if s0.pair.resyncAsked then syncStart s0 else s0
  let room := 65536 - 784
  let j := takeFit room s.pair.journal
  let overflow := j.2 != []
  let used := (j.1.flatMap recordImage).length
  let (sync, left) := match s.pair.syncLeft with
    | some l =>
      let t := cutWhole (takeFit (room - used) (l.map (recordNow s)))
      (t.1, some t.2)
    | none => ([], none)
  let ends := left == some []
  let final := decide (s.pair.switching = 1)
  let flags := flag left.isSome 0 + flag ends 1 + flag final 2 + flag overflow 3
  let image := epochImage s s.pair.epoch flags (j.1 ++ sync)
  let s1 := modPair (fun x => { x with
    journal := [], syncLeft := if ends then none else left, resyncAsked := x.resyncAsked || overflow,
    syncEnd := if ends then some x.epoch else if overflow then none else x.syncEnd,
    synced := x.synced && !overflow,
    out := x.out ++ [⟨x.epoch, flags, way, image.length⟩] }) s
  let s2 := { s1 with scratch := cellsWrite 0 s1.scratch (65536 * way) image }
  sendNext (if overflow then bumpParam 0x700004 1 s2 else s2)

/-- EPOCH_BOUNDARY: each 1 ms of an ACTIVE, counted in EPOCH; an image is built while the active mirrors over an open link
and a staging way is free (R483 to R487). -/
def epochBoundaryEffect (s : State) : State :=
  if s.pair.role ≠ 1 ∨ pairingLost s ∨ s.safety.safe then s
  else
    let s1 := waitUntil (s.pair.boundaryAt + ms 1) s
    let s2 := modPair (fun x => { x with boundaryAt := x.boundaryAt + ms 1, epoch := (x.epoch + 1) % 2 ^ 32 }) s1
    match stagingWay s2 with
    | some way => if s2.pair.mirroring && rideOpen s2 then buildEpoch way s2 else s2
    | none => s2

/-- EPOCH_BOUNDARY. -/
def execEpochBoundary (s : State) : Host.Outcome State Fault Refusal := live epochBoundaryEffect s

/-- Channel 6 under the pairing island has a burst to move and the Ride credit line is asserted for it (R487). -/
def rideReady (s : State) : Bool :=
  let x := chan s 6
  x.busy && !x.moved && x.ending.isNone && !x.yielded && rideCredit s && s.pair.out != []

/-- A burst of channel 6 becomes one DATA frame (R406, R486, R487). -/
def rideBurst (hit : XferHit) (s : State) : State :=
  let x := chan s 6
  if hit = .source then pairFault (setMFault 3 22 31 0x70 0 false s)
  else if hit = .buffer then chanEcc 6 .buffer s
  else match s.pair.out with
    | [] => s
    | o :: _ =>
      let n := min 4096 (16 * x.count)
      let bytes := cellsRead 0 s.scratch x.src n
      let s1 := rideQueue 3 o.epoch (leBytes 4 x.dst ++ leBytes 4 0 ++ bytes) s
      let s2 := perfAdd 0x070602 1 (perfAdd 0x070601 n { s1 with lastChan := 6 })
      rideMark (modChan 6 (fun y => { y with
        src := y.src + n, dst := y.dst + n, count := y.count - n / 16, moved := decide (y.count ≤ n / 16) }) s2)

/-! ### Epochs on the standby (R488 to R490) -/

/-- FLAGS of an epoch image. -/
def imageFlags (image : List Byte) : Nat := leNat (slice image 14 2)

/-- The records of a journal: type 1 and 2 records from an offset, so many of them. -/
def parseRecords (image : List Byte) : Nat → Nat → List JRecord
  | 0, _ => []
  | n + 1, off =>
    if byteAt image off = 1 then
      .param (leNat (slice image (off + 1) 3)) (word (leNat (slice image (off + 4) 3))) :: parseRecords image n (off + 8)
    else
      let k := byteAt image (off + 1)
      .row (byteAt image (off + 2)) (byteAt image (off + 3)) (leNat (slice image (off + 4) 2))
        ((List.range k).map fun i => word (leNat (slice image (off + 8 + 3 * i) 3)))
        :: parseRecords image n (off + 8 + (3 * k + 3) / 4 * 4)

/-- Apply one journal record as a management port write (R489); the list is the port's write shadow. -/
def applyRecord (r : JRecord) (a : List (Nat × Word) × State) : List (Nat × Word) × State :=
  match r with
  | .param id v =>
    let s0 := a.2
    let role := s0.pair.role
    let res := paramPut true a.1 id v (modPair (fun x => { x with role := 0 }) s0)
    (res.2.1, modPair (fun x => { x with role := role }) res.2.2)
  | .row t i r ws =>
    match tableInfo t 0 with
    | none => a
    | some x =>
      if r ≥ x.rows ∨ i ≥ x.insts then a
      else
        let s0 := a.2
        let role := s0.pair.role
        let words := if t = 8 then
            (word (putBits (ws.getD 0 0).toNat 21 1 0) :: (ws.drop 1).take 3) ++ (rowAt s0 8 i r).drop 4
          else ws
        let res := rowPut true 2 t i r x.words words (modPair (fun x => { x with role := 0 }) s0)
        (a.1, modPair (fun x => { x with role := role }) res.2)

/-- Apply the journal of a committed image in order (R489). -/
def applyJournal (image : List Byte) (s : State) : State :=
  ((parseRecords image (leNat (slice image 12 2)) 784).foldl (fun a r => applyRecord r a) ([], s)).2

/-- The bank of the epoch in progress is read: its COMMIT has come and channel 7 has ended (R489). -/
def bankRead (s : State) : Bool := (s.pair.inEpoch.any fun e => e.commit.isSome) && !(chan s 7).busy

/-- The epoch in progress is complete when its COMMIT has come and channel 7 has ended with DONE; an uncorrectable error in the
bank, a pairing scratch way, is a pairing fault (R444, R489, R490, R501). -/
def commitTry (ecc : Bool) (s : State) : State :=
  if !bankRead s then s
  else if ecc then pairFault (setMFault 3 22 31 0x70 0 false s)
  else match s.pair.inEpoch with
    | none => s
    | some e =>
      let (len, crc) := e.commit.getD (0, 0)
      let image := cellsRead 0 s.scratch (65536 * s.canopy.pairWays.getD e.bank 0) e.len
      if len = e.len ∧ (chan s 7).done ∧ (chan s 7).err = 0 ∧ crc32 image = crc then
        let fl := imageFlags image
        let s1 := modPair (fun x => { x with
          inEpoch := none, bank := e.bank, image := image, epoch := e.epoch,
          synced := (x.synced || bitOf fl 1) && !bitOf fl 3 }) s
        applyJournal image s1
      else discardEpoch s

/-- The first DATA frame of an epoch programs channel 7 for the bank that does not hold the committed epoch (R479,
R488). -/
def epochOpen (epoch came : Nat) (bytes : List Byte) (s : State) : State :=
  if s.pair.image ≠ [] ∧ !above (2 ^ 32) epoch s.pair.epoch then s
  else
    let s1 := discardEpoch s
    let len := leNat (slice bytes 8 4)
    let bank := if s.pair.image = [] then 0 else 1 - s.pair.bank
    if byteAt bytes 0 ≠ 0x45 ∨ len < 800 ∨ 65536 < len ∨ len % 16 ≠ 0 ∨ s.canopy.pairWays.length < 2 then
      modPair (fun x => { x with resync := true }) (bumpParam 0x700004 1 s1)
    else
      programChan 7 0 4 (65536 * s1.canopy.pairWays.getD bank 0) 2 len
        (modPair (fun x => { x with
          inEpoch := some ⟨epoch, len, bank, came, none⟩,
          resync := x.resync && !bitOf (leNat (slice bytes 14 2)) 0 }) s1)

/-- The epoch in progress is epoch e. -/
def inProgress (s : State) (e : Nat) : Bool :=
  match s.pair.inEpoch with
  | some x => x.epoch == e
  | none => false

/-- Channel 7 under the pairing island has a burst to move: a DATA frame of the current epoch waits (R487). -/
def bankReady (s : State) : Bool :=
  let x := chan s 7
  x.busy && !x.moved && x.ending.isNone && !x.yielded && (match s.pair.inEpoch, s.pair.buffers with
    | some e, .data ep _ _ _ :: _ => ep == e.epoch
    | _, _ => false)

/-- The COMMIT of the epoch just opened that waits behind its first DATA frame counts as arrived (R489). -/
def takeCommit (epoch : Nat) (s : State) : State :=
  match s.pair.buffers.findSome? (fun b => match b with
      | .commit e len crc => if e = epoch then some (len, crc) else none
      | .data _ _ _ _ => none) with
  | none => s
  | some c =>
    drainBuffers (fun b => match b with
      | .commit e _ _ => e == epoch
      | .data _ _ _ _ => false)
      (modPair (fun x => { x with inEpoch := x.inEpoch.map fun e => { e with commit := some c } }) s)

/-- An epoch has its COMMIT and all its data, and channel 7 has only to end: the frames of the next one wait (R489). -/
def epochClosing (s : State) : Bool :=
  (s.pair.inEpoch.any fun e => e.commit.isSome) && (chan s 7).busy && (chan s 7).moved

/-- The oldest frame leaves its receive buffer. -/
def dropBuffer (s : State) : State := rideGrant 1 (modPair (fun x => { x with buffers := x.buffers.drop 1 }) s)

/-- Go on with the frames in the receive buffers: those of the epoch in progress wait for channel 7, those of the next one
for its end; the first DATA frame of an epoch opens it; a frame of no epoch in progress is dropped and its buffer drained
(R477, R488). -/
def rideSettle : Nat → State → State
  | 0, s => s
  | n + 1, s => match s.pair.buffers with
    | [] => s
    | b :: _ =>
      if inProgress s b.epoch || epochClosing s then s
      else match b with
        | .data epoch off came bytes =>
          let s1 := if off = 0 then epochOpen epoch came bytes s else s
          if inProgress s1 epoch then takeCommit epoch s1 else rideSettle n (dropBuffer s1)
        | .commit _ _ _ => rideSettle n (dropBuffer s)

/-- An epoch has been committed or discarded: the next one may begin. -/
def epochOver (s : State) : State := rideSettle s.pair.buffers.length s

/-- A burst of channel 7 moves a waiting DATA frame of the current epoch into its bank and drains the buffer (R487,
R488). -/
def bankBurst (s : State) : State :=
  match s.pair.buffers with
  | [] => s
  | .commit _ _ _ :: _ => s
  | .data _ off _ bytes :: rest =>
    let x := chan s 7
    let n := min bytes.length (16 * x.count)
    let s1 := { s with scratch := cellsWrite 0 s.scratch x.dst (bytes.take n), lastChan := 7 }
    let s2 := rideGrant 1 (modPair (fun y => { y with buffers := rest }) s1)
    let s3 := perfAdd 0x070702 1 (perfAdd 0x070701 n s2)
    let s4 := chanMark 7 true (modChan 7 (fun y => { y with
      src := y.src + n, dst := y.dst + n, count := y.count - n / 16, moved := decide (y.count ≤ n / 16) }) s3)
    rideAck (epochOver (if off = x.src then s4 else discardEpoch s4))

/-- DATA of an epoch image: it waits in a receive buffer for its turn (R488). -/
def dataAct (ecc : Bool) (f : RideFrame) (s : State) : State :=
  if ecc then pairEcc (rideGrant 1 s)
  else if !standbyRole s then rideGrant 1 s
  else
    epochOver (modPair (fun x => { x with
      buffers := x.buffers ++ [.data f.hdr.epoch.toNat (leNat (f.payload.take 4)) s.clk (f.payload.drop 8)] }) s)

/-- DATA. -/
def dataFrameEffect (f : RideFrame) (ecc : Bool) (s : State) : State := rideReceive 3 true f (dataAct ecc f) s

/-- DATA. -/
def execDataFrame (f : RideFrame) (ecc : Bool) (s : State) : Host.Outcome State Fault Refusal := live (dataFrameEffect f ecc) s

/-- EPOCH_TIMEOUT: an epoch whose COMMIT has not come in time is discarded (R490). -/
def epochTimeoutEffect (s : State) : State :=
  match s.pair.inEpoch with
  | none => s
  | some e =>
    if e.commit.isSome then s
    else
      let s1 := waitUntil (e.since + us (pn s 0x700003)) s
      rideTold s1 (epochOver (discardEpoch s1))

/-- EPOCH_TIMEOUT. -/
def execEpochTimeout (s : State) : Host.Outcome State Fault Refusal := live epochTimeoutEffect s

/-! ### The end of channel 6 (R408, R486) -/

/-- Channel 6 is complete when the partner has acknowledged every DATA frame; the pairing island then sends COMMIT, and
after a FINAL image the SWITCH request (R408, R486, R502). -/
def rideChannelEnd (s : State) : State :=
  let x := chan s 6
  let open_ := s.pair.waiting.any (fun w => w.1 == 3) || s.pair.unacked.any fun o => o.frame.hdr.type == 3
  match s.pair.out with
  | [] => s
  | o :: rest =>
    if !x.busy || !x.moved || open_ then s
    else
      let image := cellsRead 0 s.scratch (65536 * o.way) o.len
      let s1 := rideQueue 4 o.epoch (leBytes 4 o.len ++ leBytes 4 (crc32 image)) (endChan 6 0 s)
      let s2 := modPair (fun y => { y with out := rest }) s1
      let s3 := if bitOf o.flags 2 ∧ s.pair.switching = 1 then
          rideQueue 7 o.epoch [1, 0, 0, 0] (modPair (fun y => { y with switching := 2, switchAt := s2.clk }) s2)
        else s2
      sendNext s3

/-! ### Joining and role resolution (R475, R481, R482) -/

/-- A HELLO payload of this unit (Table 16.3). -/
def helloPayload (s : State) : List Byte :=
  leBytes 6 Config.uid ++ leBytes 3 0x010000 ++ leBytes 1 (flag (bitOf (pn s 0x700000) 1) 0 + flag (s.pair.role == 1) 1)
    ++ List.replicate 6 0

/-- RIDE_LINK_UP: block lock has held for 1 ms; a new session begins and HELLO is sent (R475, R481). -/
def rideLinkUpEffect (s : State) : State :=
  if s.pair.link || !pairEnabled s || !(s.pair.started || decide (s.pair.role ≠ 0)) || pairingLost s || s.safety.safe then s
  else
    let s1 := modPair (fun x => { x with
      link := true, hello := false, seq := 0, ack := 0, credit := 0, partnerCredit := 0, unacked := [], waiting := [],
      buffers := [], naked := false, helloSent := s.clk }) s
    rideSend 1 (helloPayload s1) s1

/-- RIDE_LINK_UP. -/
def execRideLinkUp (s : State) : Host.Outcome State Fault Refusal := live rideLinkUpEffect s

/-- RIDE_LINK_DOWN: block lock is lost (R475). -/
def execRideLinkDown (s : State) : Host.Outcome State Fault Refusal := live rideDown s

/-- HELLO_SEND: every 100 µs until a HELLO has come (R481). -/
def helloSendEffect (s : State) : State :=
  if !rideOpen s || s.pair.hello || !(s.pair.started || decide (s.pair.role ≠ 0)) then s
  else
    let s1 := waitUntil (s.pair.helloSent + us 100) s
    rideSend 1 (helloPayload s1) (modPair (fun x => { x with helloSent := s1.clk }) s1)

/-- HELLO_SEND. -/
def execHelloSend (s : State) : Host.Outcome State Fault Refusal := live helloSendEffect s

/-- This unit wins over its partner: SERVING, START_ACTIVE, PRIORITY, UID in that order (R482). -/
def winsOver (s : State) (serving start : Bool) (prio uid : Nat) : Bool :=
  let mine := s.pair.role == 1
  let mineStart := bitOf (pn s 0x700000) 1
  if mine != serving then mine
  else if mineStart != start then mineStart
  else if ownPrio s ≠ prio then decide (ownPrio s > prio)
  else decide (Config.uid % 2 ^ 48 > uid)

/-- The role becomes ACTIVE with a partner present: epochs and a sync begin (R483, R491). -/
def becomeActive (s : State) : State :=
  syncStart (modPair (fun x => { x with boundaryAt := s.clk, out := [] }) (setRole 1 s))

/-- The role becomes STANDBY and a sync is awaited (Table 16.1). -/
def becomeStandby (s : State) : State :=
  let s1 := setRole 2 (modPair (fun x => { x with
    mirroring := false, journal := [], syncLeft := none, out := [], switching := 0 }) s)
  modPair (fun x => { x with synced := false, image := [], resync := false }) s1

/-- An ACTIVE yields (Table 16.1): to STANDBY with the link up, else to PARTITIONED_STANDBY; with ALARM. -/
def yieldRole (s : State) : State :=
  let s1 := becomeStandby s
  pairAlarm (if s.pair.link then s1 else setRole 3 s1)

/-- The exchange of HELLO resolves the roles (R482). -/
def resolveRoles (serving start : Bool) (prio uid : Nat) (s : State) : State :=
  let both := serving && s.pair.role == 1
  if winsOver s serving start prio uid then
    let s1 := becomeActive s
    if both then pairAlarm s1 else s1
  else if s.pair.role = 1 then yieldRole s
  else if s.pair.role = 3 then s
  else becomeStandby s

/-- HELLO (R475, R477, R482). -/
def helloAct (f : RideFrame) (s : State) : State :=
  let b9 := byteAt f.payload 9
  let uid := leNat (f.payload.take 6)
  if s.pair.hello || !(s.pair.started || decide (s.pair.role ≠ 0)) then s
  else
    let s0 := rideSend 1 (helloPayload s) s
    let s1 := modPair (fun x => { x with
      hello := true, credit := if x.credit = 0 ∧ x.ack = 0 then 16 else x.credit, uid := uid, partnerStart := bitOf b9 0,
      left := false }) s0
    let s2 := if slice f.payload 7 2 ≠ [0, 1] then pairAlarm s1
      else resolveRoles (bitOf b9 1) (bitOf b9 0) f.hdr.priority.toNat uid s1
    rideAck s2

/-- HELLO. -/
def helloFrameEffect (f : RideFrame) (s : State) : State := rideReceive 1 false f (helloAct f) s

/-- HELLO. -/
def execHelloFrame (f : RideFrame) (s : State) : Host.Outcome State Fault Refusal := live (helloFrameEffect f) s

/-! ### Acknowledgement and resending (R478, R480) -/

/-- ACK: the fields every frame carries. -/
def ackFrameEffect (f : RideFrame) (s : State) : State := rideReceive 5 false f id s

/-- ACK. -/
def execAckFrame (f : RideFrame) (s : State) : Host.Outcome State Fault Refusal := live (ackFrameEffect f) s

/-- Resend, or take the link down when the budget is exceeded (R480). -/
def resendOr (test : RideOut → Bool) (s : State) : State :=
  let r := rideResend test s
  if r.2 then rideDown s else r.1

/-- NAK: its ACK names the first frame to resend; every later unacknowledged frame follows (R480). -/
def nakFrameEffect (f : RideFrame) (s : State) : State := rideReceive 6 false f (resendOr fun _ => true) s

/-- NAK. -/
def execNakFrame (f : RideFrame) (s : State) : Host.Outcome State Fault Refusal := live (nakFrameEffect f) s

/-- RETRANSMISSION_TIMEOUT: the oldest frame's acknowledgement has not come within 100 µs (R480). -/
def retransmissionTimeoutEffect (s : State) : State :=
  match s.pair.unacked with
  | [] => s
  | o :: _ => if rideOpen s then resendOr (fun _ => true) (waitUntil (o.last + us 100) s) else s

/-- RETRANSMISSION_TIMEOUT. -/
def execRetransmissionTimeout (s : State) : Host.Outcome State Fault Refusal := live retransmissionTimeoutEffect s

/-- DISCARDED_RIDE_FRAME: bytes arrive that are no frame of R476, by their CRC, their LEN or their TYPE, and draw a NAK
(R478). -/
def discardedRideFrameEffect (bytes : List Byte) (s : State) : State :=
  if rideOpen s && !rideGood bytes then rideNak s else s

/-- DISCARDED_RIDE_FRAME. -/
def execDiscardedRideFrame (bytes : List Byte) (s : State) : Host.Outcome State Fault Refusal :=
  live (discardedRideFrameEffect bytes) s

/-! ### Heartbeats and time alignment (R492 to R495) -/

/-- Twelve bytes of a HEARTBEAT time, from units of 2^-16 ns. -/
def timeField (dev : Nat) : List Byte :=
  let ns := dev / 65536
  leBytes 6 (ns / 1000000000) ++ leBytes 4 (ns % 1000000000) ++ leBytes 2 (dev % 65536)

/-- A HEARTBEAT time in units of 2^-16 ns. -/
def fieldTime (bs : List Byte) : Nat :=
  (leNat (bs.take 6) * 1000000000 + leNat (slice bs 6 4)) * 65536 + leNat (slice bs 10 2)

/-- HEARTBEAT_SEND: every 100 µs in a paired role (R495). -/
def heartbeatSendEffect (s : State) : State :=
  if s.pair.role = 0 ∨ !rideOpen s then s
  else
    let s1 := waitUntil (s.pair.heartSent + us 100) s
    rideSend 2 (timeField s1.time.dev ++ timeField s1.pair.heartTx ++ timeField s1.pair.heartRx)
      (modPair (fun x => { x with heartSent := s1.clk }) s1)

/-- HEARTBEAT_SEND. -/
def execHeartbeatSend (s : State) : Host.Outcome State Fault Refusal := live heartbeatSendEffect s

/-- Steer the standby's device time toward zero offset: by a step at 1 µs or more, else by a slew (R492, R493). -/
def steer (offset : Int) (s : State) : State :=
  if offset.natAbs ≥ 1000 * 65536 then timeChange ((s.time.dev : Int) - offset).toNat s
  else
    slewWritten (phaseSlew s) (setPw 0x300002 (ofInt 24 (-(offset / 65536))) s)

/-- HEARTBEAT (R492, R493, R495, Table 16.1). -/
def heartbeatAct (f : RideFrame) (s : State) : State :=
  let s0 := modPair (fun x => { x with heartbeat := true, heartAt := s.clk }) s
  if s.pair.role = 0 then s0
  else
    let tx := fieldTime f.payload
    let eTx := fieldTime (f.payload.drop 12)
    let eRx := fieldTime (f.payload.drop 24)
    let rx := s.time.dev
    let back := !s.pair.heartbeat
    let s1 := modPair (fun x => { x with
      heartTx := tx, heartRx := rx, left := false, witness := if x.role = 2 then none else x.witness }) s0
    let s2 := if s.pair.role = 3 then becomeStandby s1
      else if s.pair.role = 1 ∧ back ∧ !s.pair.mirroring then
        syncStart s1
      else s1
    if s2.pair.role = 2 ∧ f.hdr.role = 1 ∧ eTx ≠ 0 then
      steer (((rx : Int) - tx - ((eRx : Int) - eTx)) / 2) s2
    else s2

/-- HEARTBEAT. -/
def heartbeatFrameEffect (f : RideFrame) (s : State) : State := rideReceive 2 false f (heartbeatAct f) s

/-- HEARTBEAT. -/
def execHeartbeatFrame (f : RideFrame) (s : State) : Host.Outcome State Fault Refusal := live (heartbeatFrameEffect f) s

/-- HEARTBEAT_LOSS: no HEARTBEAT for 3 ms (R495, R498, Table 16.1). -/
def heartbeatLossEffect (s : State) : State :=
  if !s.pair.heartbeat then s
  else
    let s1 := waitUntil (s.pair.heartAt + ms 3) s
    let s2 := modPair (fun x => { x with heartbeat := false }) s1
    if s2.pair.role = 2 then modPair (fun x => { x with witness := some s2.clk }) s2
    else if s2.pair.role = 1 then
      let s3 := serviceBegin
        (modPair (fun x => { x with mirroring := false, journal := [], syncLeft := none, switching := 0 }) s2)
      if s2.pair.left then s3 else pairAlarm s3
    else s2

/-- HEARTBEAT_LOSS. -/
def execHeartbeatLoss (s : State) : Host.Outcome State Fault Refusal := live heartbeatLossEffect s

/-! ### Witness beacons (R496 to R498) -/

/-- BEACON_PORTS lists port p. -/
def beaconPort (s : State) (p : Nat) : Bool :=
  let v := pn s 0x700002
  (List.range 4).any fun k => bitOf v (6 * k + 5) && bits v (6 * k) 5 == p

/-- The witness beacon of port p (Table 16.6). -/
def beaconFrame (s : State) (p : Nat) : List Byte :=
  let ns := nowNs s
  let body := [0x03, 0x00, 0x5A, 0x32, 0x24, 0x00] ++ leBytes 6 (pwide s (0x100009 + 256 * p) 2) ++ [0x88, 0xB5]
    ++ leBytes 6 Config.uid ++ leBytes 6 s.pair.uid ++ leBytes 1 s.pair.role ++ leBytes 1 (ownPrio s)
    ++ leBytes 4 (tget s.pair.beacons p 0) ++ leBytes 6 (ns / 1000000000) ++ leBytes 4 (ns % 1000000000) ++ List.replicate 18 0
  body ++ fcsOf body

/-- The tag the pairing island writes for a beacon: SRC_KIND 4, TC 7, LEN 64 and the time of generation (R9, R496). -/
def beaconTag (s : State) : List Word := [word (4 * 2 ^ 21 + 64), word (7 * 2 ^ 21), 0, word (nowNs s)]

/-- WITNESS_BEACON: every 1 ms on a listed port with link up, started as MAC control frames are (R255, R496); its last bit
is TX_FRAME_END's, which counts it in TX_OK. -/
def witnessBeaconEffect (p : Nat) (s : State) : State :=
  if s.pair.role = 0 ∨ !beaconPort s p ∨ !(port s p).link ∨ s.safety.safe ∨ pairingLost s then s
  else
    let s1 := waitUntil (max (port s p).freeAt (tget s.pair.beaconSent p 0 + ms 1)) s
    if (port s1 p).wire.isSome ∨ disturbsLaunch s1 p then s1
    else
      let f : Staged := { cls := 7, origin := .beacon, launch := none, supplied := 60, tag := beaconTag s1,
                          bytes := beaconFrame s1 p }
      let s2 := modPort p (fun x => { x with wire := some { onWire s1 p f (s1.clk * 131072) with pre := false } }) s1
      modPair (fun x => { x with beaconSent := tput x.beaconSent p s1.clk, beacons := tput x.beacons p ((tget x.beacons p 0 + 1) % 2 ^ 32) }) s2

/-- WITNESS_BEACON. -/
def execWitnessBeacon (p : Fin 32) (s : State) : Host.Outcome State Fault Refusal := live (witnessBeaconEffect p) s

/-- A partner beacon arrives: BEACON, the witness window, and a second ACTIVE (R482, R497, R498). -/
def beaconAct (bs : List Byte) (s : State) : State :=
  if leNat (slice bs 14 6) ≠ s.pair.uid ∨ s.pair.uid = 0 then s
  else
    let s1 := modPair (fun x => { x with beacon := true, beaconAt := s.clk }) s
    if s.pair.role = 2 ∧ s.pair.witness.isSome then pairAlarm (setRole 3 s1)
    else if s.pair.role = 1 ∧ byteAt bs 26 = 1 then
      if winsOver s1 true s1.pair.partnerStart (byteAt bs 27) s1.pair.uid then (if s1.pair.alarm then s1 else pairAlarm s1)
      else yieldRole s1
    else s1

/-- PARTNER_BEACON_LOSS: no partner beacon for 5 ms (R497). -/
def partnerBeaconLossEffect (s : State) : State :=
  if s.pair.beacon then modPair (fun x => { x with beacon := false }) (waitUntil (s.pair.beaconAt + ms 5) s) else s

/-- PARTNER_BEACON_LOSS. -/
def execPartnerBeaconLoss (s : State) : Host.Outcome State Fault Refusal := live partnerBeaconLossEffect s

/-! ### Takeover and switchover (R498, R499, R502) -/

/-- Load the wire record of port p from the committed image (R499 step 3). -/
def loadWire (image : List Byte) (p : Nat) (s : State) : State :=
  let r := slice image (16 + 24 * p) 24
  let b0 := byteAt r 0
  let base := leNat (slice r 10 6) * 1000000000 + leNat (slice r 16 4)
  let s1 := modPort p (fun x => { x with gate := { x.gate with
    enable := bitOf b0 0, active := bits b0 1 1, len := leNat (slice r 2 2), cycle := leNat (slice r 4 6), base := base,
    swapAt := none } }) s
  if bitOf b0 2 then modPort p (fun x => { x with gate := { x.gate with swapAt := some (changeTime s1 p) } }) s1 else s1

/-- XON for each class whose XOFF bit is 1 and that the port's own count does not hold in XOFF (R499 step 5). -/
def xonRecord (image : List Byte) (p : Nat) (s : State) : State :=
  let v := byteAt image (16 + 24 * p + 1)
  forAll 8 (fun c s =>
    let k := if c = 0 ∧ bitOf (pn s (0x100004 + 256 * p)) 0 then 8 else c
    if bitOf v c && !((port s p).xoff.any fun e => e.1 == k) then modPort p (fun x => { x with ctlDue := tput x.ctlDue k 0 }) s
    else s) s

/-- A takeover (R499). -/
def takeover (counted : Bool) (s : State) : State :=
  let s1 := rideTold s (discardEpochs s)
  let image := s1.pair.image
  let s2 := if image = [] then s1 else forAll 32 (loadWire image) s1
  let s3 := modPair (fun x => { x with resync := false, mirroring := false, boundaryAt := s.clk }) (setRole 1 s2)
  let s4 := if counted then bumpParam 0x700005 1 s3 else s3
  serviceBegin (gateCatchUp (if image = [] then s4 else forAll 32 (xonRecord image) s4))

/-- A standby role ends without its partner: takeover with the sync complete, else SOLO with ALARM (Table 16.1). -/
def standAlone (s : State) : State := if s.pair.synced then takeover true s else pairAlarm (enterSolo true s)

/-- WITNESS_WINDOW_EXPIRY: the 5 ms window passes with no partner beacon (R498). -/
def witnessWindowExpiryEffect (s : State) : State :=
  match s.pair.witness with
  | none => s
  | some at0 => if s.pair.role = 2 then standAlone (waitUntil (at0 + ms 5) s) else s

/-- WITNESS_WINDOW_EXPIRY. -/
def execWitnessWindowExpiry (s : State) : Host.Outcome State Fault Refusal := live witnessWindowExpiryEffect s

/-- PARTITION_TIMEOUT: 5 ms with neither a HEARTBEAT nor a partner beacon (R498). -/
def partitionTimeoutEffect (s : State) : State :=
  if s.pair.role = 3 then
    standAlone (waitUntil (max s.pair.roleAt (max s.pair.heartAt s.pair.beaconAt) + ms 5) s)
  else s

/-- PARTITION_TIMEOUT. -/
def execPartitionTimeout (s : State) : Host.Outcome State Fault Refusal := live partitionTimeoutEffect s

/-- A switchover that the active has asked for takes place once the standby has committed the final image: it takes over
without counting, and answers (R502). -/
def switchTry (s : State) : State :=
  if s.pair.switchAsked ∧ s.pair.role = 2 ∧ bitOf (imageFlags s.pair.image) 2 ∧ s.pair.inEpoch = none then
    syncStart (rideQueue 7 s.pair.epoch [2, 0, 0, 0] (takeover false (modPair (fun x => { x with switchAsked := false }) s)))
  else s

/-- COMMIT of an epoch: of the one in progress it is judged, of one whose first DATA frame waits it waits too (R489). -/
def commitAct (ecc : Bool) (f : RideFrame) (s : State) : State :=
  let epoch := f.hdr.epoch.toNat
  let c := (leNat (f.payload.take 4), leNat (slice f.payload 4 4))
  if inProgress s epoch then
    epochOver (switchTry (commitTry ecc
      (modPair (fun x => { x with inEpoch := x.inEpoch.map fun e => { e with commit := some c } }) (rideGrant 1 s))))
  else if s.pair.buffers.any (fun b => b.epoch == epoch) then
    modPair (fun x => { x with buffers := x.buffers ++ [.commit epoch c.1 c.2] }) s
  else rideGrant 1 s

/-- COMMIT. -/
def commitFrameEffect (f : RideFrame) (ecc : Bool) (s : State) : State := rideReceive 4 true f (commitAct ecc f) s

/-- COMMIT. -/
def execCommitFrame (c : CommitIn) (s : State) : Host.Outcome State Fault Refusal :=
  live (commitFrameEffect c.frame c.ecc) s

/-- SWITCH_REQUEST: the standby takes over when the final image is committed (R502). -/
def switchRequestAct (f : RideFrame) (s : State) : State :=
  switchTry (modPair (fun x => { x with switchAsked := x.switchAsked || (x.role == 2 && byteAt f.payload 0 == 1) }) (rideGrant 1 s))

/-- SWITCH_REQUEST. -/
def switchRequestEffect (f : RideFrame) (s : State) : State := rideReceive 7 true f (switchRequestAct f) s

/-- SWITCH_REQUEST. -/
def execSwitchRequest (f : RideFrame) (s : State) : Host.Outcome State Fault Refusal := live (switchRequestEffect f) s

/-- SWITCH_DONE: the old active becomes STANDBY (R502). -/
def switchDoneAct (f : RideFrame) (s : State) : State :=
  let s1 := rideGrant 1 s
  if s1.pair.role = 1 ∧ s1.pair.switching = 2 ∧ byteAt f.payload 0 = 2 then becomeStandby s1 else s1

/-- SWITCH_DONE. -/
def switchDoneEffect (f : RideFrame) (s : State) : State := rideReceive 7 true f (switchDoneAct f) s

/-- SWITCH_DONE. -/
def execSwitchDone (f : RideFrame) (s : State) : Host.Outcome State Fault Refusal := live (switchDoneEffect f) s

/-- SWITCHOVER_TIMEOUT: SWITCH done has not come within EPOCH_TIMEOUT of the request (R502). -/
def switchoverTimeoutEffect (s : State) : State :=
  if s.pair.switching = 2 then
    pairAlarm (serviceBegin
      (modPair (fun x => { x with switching := 0 }) (waitUntil (s.pair.switchAt + us (pn s 0x700003)) s)))
  else s

/-- SWITCHOVER_TIMEOUT. -/
def execSwitchoverTimeout (s : State) : Host.Outcome State Fault Refusal := live switchoverTimeoutEffect s

/-- LEAVE: an ACTIVE stays ACTIVE and stops mirroring, with no ALARM (R503). -/
def leaveAct (s : State) : State :=
  let s1 := rideGrant 1 s
  if s1.pair.role = 1 then
    serviceBegin (modPair (fun x => { x with
      mirroring := false, journal := [], syncLeft := none, out := [], left := true, hello := false, switching := 0 })
      (abortChan 6 s1))
  else s1

/-- LEAVE. -/
def leaveFrameEffect (f : RideFrame) (s : State) : State := rideReceive 8 true f leaveAct s

/-- LEAVE. -/
def execLeaveFrame (f : RideFrame) (s : State) : Host.Outcome State Fault Refusal := live (leaveFrameEffect f) s

/-! ### The bursts and ends of every channel (R406, R408, R414) -/

/-- The request line of a paced channel is asserted (Table 13.4): the store takes no burst while its image area is being
erased; PACE 1 names no line for a channel that neither reads nor writes the store. -/
def lineAsserted (s : State) (c : Nat) (dreq : Bool) : Bool :=
  let x := chan s c
  match chanPace x with
  | 1 => srcSpace x == 3 || (dstSpace x == 3 && (imageBlockList s).all fun b => !s.store.erasing.contains b)
  | 2 => rideCredit s
  | 3 => dreq
  | _ => true

/-- Bytes of the burst that a paced channel begins: the last one is the remainder (R406). -/
def nextBurst (x : Chan) : Nat := min (burstBytes x) (16 * x.count - ahead x)

/-- Channel c may issue a request now: it has something to read, its share has room, and its pacing permits (R406, R414). -/
def mayIssue (s : State) (c : Nat) (dreq : Bool) : Bool :=
  let x := chan s c
  if pairEnabled s && c == 6 then rideReady s
  else if pairEnabled s && c == 7 then bankReady s
  else chanReads x && (!needsLine x || (lineAsserted s c dreq && decide (ahead x + nextBurst x ≤ 16384)))

/-- Channel c is the one the read engine serves: no other that may issue comes before it (R414). A channel that waits on a
DREQ_N pin is asked through its own command. -/
def chosen (s : State) (c : Nat) : Bool :=
  (List.range 16).all fun d => d == c || !mayIssue s d false || chanBefore s c d

/-- XFER_PACED_BURST: the read engine issues one request of channel c. A paced channel with no burst in progress samples its
line and begins one; a burst once begun goes on whatever the line does (R405, R406, R414). -/
def xferPacedBurstEffect (c : Nat) (io : BurstIo) (s : State) : State :=
  if !mayIssue s c io.dreq || !chosen s c then s
  else if pairEnabled s && c == 6 then rideBurst io.hit s
  else if pairEnabled s && c == 7 then
    (match io.hit with
      | .none => bankBurst s
      | .source => pairEcc s
      | .buffer => chanEcc 7 .buffer s)
  else
    let x := chan s c
    oneRequest c io (if needsLine x then
      modChan c (fun x => { x with toRead := nextBurst x, bursts := x.bursts ++ [nextBurst x] }) (countBurst c s) else s)

/-- XFER_PACED_BURST. -/
def execXferPacedBurst (c : Fin 16) (io : BurstIo) (s : State) : Host.Outcome State Fault Refusal :=
  live (xferPacedBurstEffect c io) s

/-- XFER_CHANNEL_END: the end of channel 7 lets its epoch commit, whose bank is then read. -/
def channelEnd (c : Nat) (ecc : Bool) (s : State) : State :=
  if pairEnabled s && c == 6 then rideChannelEnd s
  else if pairEnabled s && c == 7 then
    (if (chan s 7).busy && (chan s 7).moved then rideTold s (epochOver (switchTry (commitTry ecc (endChan 7 0 s)))) else s)
  else xferChannelEndEffect c s

/-- XFER_CHANNEL_END. -/
def execXferChannelEnd (e : ChanEnd) (s : State) : Host.Outcome State Fault Refusal := live (channelEnd e.ch e.ecc) s

/-! ### M_PAIR_CMD (Table 3.19) -/

/-- A write of M_PAIR_CMD: 1 join, 2 planned switchover, 3 leave to SOLO, 4 clear alarm. -/
def pairCommand (op : Nat) (s : State) : State :=
  match op with
  | 1 =>
    if s.pair.role ≠ 0 ∨ !pairEnabled s ∨ pairingLost s then s
    else if s.canopy.pairWays.length < 2 then pairAlarm s
    else
      let s1 := modPair (fun x => { x with started := true, helloSent := s.clk }) s
      if s1.pair.link then rideSend 1 (helloPayload s1) s1 else s1
  | 2 =>
    if s.pair.role = 1 ∧ s.pair.partnerRole = 2 ∧ s.pair.synced ∧ s.pair.heartbeat ∧ s.pair.mirroring
        ∧ s.pair.switching = 0 then
      modPair (fun x => { x with switching := 1 }) s
    else s
  | 3 => if s.pair.role = 0 ∨ leaveBarred s then s else leavePair s
  | 4 => modPair (fun x => { x with alarm := false }) s
  | _ => s

end Sys2Proof.Machine
end

