-- ==== Sys2Proof/Machine/SelfTest.lean ====
section
/-! DEFINITION. The checkers, the start-up self-check, the periodic tests, the safety watchdog and the supervisors of the
safety island (chapter 18), with the meanings of their events. -/

set_option Elab.async false

namespace Sys2Proof.Machine

/-- s with the safety island changed. -/
def modSafety (f : Safety → Safety) (s : State) : State := { s with safety := f s.safety }

/-! ### Checkers (Table 18.1) -/

/-- The island of checker c; i is the island of a failed detector pair or clock-stretch generator (R86, R539). -/
def checkerIsland (c i : Nat) : Nat :=
  if c ≤ 3 then 0
  else if c ≤ 5 then 1
  else if c ≤ 7 then 24
  else if c ≤ 15 then c - 6
  else if c ≤ 20 then 11
  else if c ≤ 23 then 10
  else if c ≤ 31 then c - 12
  else if c ≤ 35 then 20
  else if c = 36 then 21
  else if c = 37 then 22
  else if c = 38 then 23
  else if c = 40 ∨ c = 41 then i
  else if c = 43 ∨ c = 44 then 31
  else if c = 45 then 24
  else 0

/-- The fence bits of an island (R539). -/
def islandFence (i : Nat) : Nat :=
  if 2 ≤ i ∧ i ≤ 9 then 2 ^ (i - 2)
  else if i = 10 then 2 ^ 16
  else if i = 11 then 0xF00
  else if 12 ≤ i ∧ i ≤ 15 then 2 ^ i
  else if 16 ≤ i ∧ i ≤ 19 then 2 ^ (i - 4)
  else if i = 20 then 2 ^ 17
  else if i = 21 then 2 ^ 19
  else if i = 22 then 2 ^ 18
  else if i = 23 then 2 ^ 20
  else 0

/-- The fence bits that a failure of checker c costs (Table 18.1, R539). -/
def checkerFence (c i : Nat) : Nat :=
  if 8 ≤ c ∧ c ≤ 19 then 2 ^ (c - 8)
  else if c = 20 then 2 ^ 8
  else if 21 ≤ c ∧ c ≤ 23 then 2 ^ 16
  else if 24 ≤ c ∧ c ≤ 27 then 2 ^ (c - 12)
  else if 28 ≤ c ∧ c ≤ 31 then 2 ^ (c - 16)
  else if 32 ≤ c ∧ c ≤ 35 then 2 ^ 17
  else if c = 36 then 2 ^ 19
  else if c = 37 then 2 ^ 18
  else if c = 38 then 2 ^ 20
  else if c = 40 ∨ c = 41 then islandFence i
  else 0

/-- A failure of checker c leads to the device safe state (Table 18.1, R539). -/
def checkerSafe (c i : Nat) : Bool :=
  c ≤ 7 || c == 39 || c == 42 || (45 ≤ c && c ≤ 47) || ((c == 40 || c == 41) && (i == 0 || i == 24))

/-! ### A failed test (R544) -/

/-- A bit of M_SAFETY_STAT sets: management source 2 is raised when it rises (assumption 14). -/
def safetySets (was : Bool) (f : Safety → Safety) (s : State) : State :=
  if was then modSafety f s else raise 0 2 (modSafety f s)

/-- The two status bits of a failed test, all that a report-only checker sets: M_FAULT.PERIODIC_TEST and TEST_FAIL (R544). -/
def reportTest (c i : Nat) (s : State) : State :=
  let s1 := setMFault 5 (checkerIsland c i) 31 c 0 (checkerSafe c i && !s.safety.safe) s
  safetySets s.safety.testFail (fun x => { x with testFail := true }) s1

/-- A failed periodic test: its report, and the fence bits or the device safe state (R544). -/
def failTest (c i : Nat) (s : State) : State :=
  let s2 := reportTest c i s
  if checkerSafe c i then enterSafe s2
  else if checkerFence c i = 0 then s2 else fenceSelf (checkerFence c i) s2

/-- Every unit of a mask is fenced. -/
def allFenced (s : State) (m : Nat) : Bool := m != 0 && (List.range 21).all fun u => !bitOf m u || fenced s u

/-- The lane of a checker's unit, when it is a port island's. -/
def checkerLane (c i : Nat) : Option Nat :=
  if 8 ≤ c ∧ c ≤ 15 then some (c - 8)
  else if (c = 40 ∨ c = 41) ∧ 2 ≤ i ∧ i ≤ 9 then some (i - 2)
  else none

/-- The test of a checker is skipped (R542, R545, R549, R517). -/
def testSkipped (s : State) (c i : Nat) : Bool :=
  s.safety.safe || s.power.asleep || !s.start.checked || c == 43 || c == 44 || allFenced s (checkerFence c i)
    || (match checkerLane c i with
        | some q => (lane s q).down || pn s (0x110000 + 256 * q) == 0
        | none => false)

/-- s with the consecutive misses of checker c. -/
def setMisses (c n : Nat) (s : State) : State := modSafety (fun x => { x with misses := tput x.misses c n }) s

/-- A test read finds an uncorrectable error in a Glade cell of a bank in service: it is reported, and no frame is discarded
(R30). -/
def testStrike (cell : Nat) (s : State) : State :=
  if fenced s (8 + cell / 12288) then s else setMFault 3 11 31 (0x40 + cell / 12288) cell false s

/-- Time passes until the test of checker c starts: once in each half-period, at the offset at which it was tested in the one
before. DESIGN CHOICE (assumption 71): the spec gives no offsets, so a checker keeps the one of its first test under the
FTTI in force (R542). -/
def testTurn (c i : Nat) (s : State) : State :=
  let s1 := rollHalf s
  let s2 := if s1.safety.tested.contains (c, i) then rollHalf (waitUntil (halfEnd s1) s1) else s1
  let off := min (tget s2.safety.offsets (25 * c + i) (s2.clk - halfStart s2)) (s2.safety.halfLen - ms 1)
  modSafety (fun x => { x with tested := (c, i) :: x.tested, offsets := tput x.offsets (25 * c + i) off })
    (waitUntil (halfStart s2 + off) s2)

/-- PERIODIC_TEST (R542 to R545): two consecutive misses of one checker count as its failure; a miss shows at the end of the
half-period. -/
def periodicTestEffect (c i : Nat) (e : TestEnd) (s0 : State) : State :=
  if testSkipped s0 c i then s0
  else
    let s := testTurn c i s0
    match e with
    | .pass => setMisses c 0 s
    | .corrected => perfAdd 0x040004 1 (setMisses c 0 s)
    | .struck cell => testStrike cell.val (setMisses c 0 s)
    | .fail => failTest c i (setMisses c 0 s)
    | .miss =>
      let n := tget s.safety.misses c 0 + 1
      let s1 := logFault 3 4 0 (checkerIsland c i) c 0 false
        (safetySets s.safety.fttiMiss (fun x => { x with fttiMiss := true }) (waitUntil (halfEnd s) s))
      if n ≥ 2 then failTest c i (setMisses c 0 s1) else setMisses c n s1

/-- PERIODIC_TEST. -/
def execPeriodicTest (c : Fin 48) (i : Fin 25) (e : TestEnd) (s : State) : Host.Outcome State Fault Refusal :=
  live (periodicTestEffect c i e) s

/-- DETECTOR_DISAGREEMENT (R533): checker 40 of a stretchable island fails (R510). -/
def detectorDisagreementEffect (i : Nat) (s : State) : State :=
  if i = 1 ∨ allFenced s (islandFence i) then s else failTest 40 i s

/-- DETECTOR_DISAGREEMENT. -/
def execDetectorDisagreement (i : Fin 25) (s : State) : Host.Outcome State Fault Refusal :=
  live (detectorDisagreementEffect i) s

/-- KNOWN_ANSWER_PROBE (R297, R298): PROBE_STAT bit 0, and checker 22 on a failure. -/
def knownAnswerProbeEffect (passed : Bool) (s : State) : State :=
  if testSkipped s 22 0 then s
  else if passed then setPw 0x200007 1 s else failTest 22 0 (setPw 0x200007 0 s)

/-- KNOWN_ANSWER_PROBE. -/
def execKnownAnswerProbe (passed : Bool) (s : State) : Host.Outcome State Fault Refusal :=
  live (knownAnswerProbeEffect passed) s

/-! ### The self-check (R540, R541) and READY (R570) -/

/-- The device runs: supplies and RESET_N are high and no internal reset is in force. -/
def running (s : State) : Bool := s.start.powered && !s.start.resetLow && s.start.internal.isNone

/-- The store counts the whole seconds spent in DEPOT_SLEEP, AGE with them (R522). -/
def sleepCounted (s : State) : State :=
  ageCatchUp (modStore (fun x => { x with poweredAt := x.poweredAt + (s.clk - s.power.sleepAt) % 500000000 }) s)

/-- Exit from DEPOT_SLEEP as READY sets (R521, R522): source 34, WAKE_N deasserted, the lanes that sleep powered down restart,
each tenant that nothing else holds leaves its reset, and a store that was suspended at entry mounts again. -/
def wakeExit (s0 : State) : State :=
  let s := sleepCounted s0
  let s1 := { s with
    power := { s.power with asleep := false, waking := false, wakeN := false, resume := s.power.resume && !s.safety.safe },
    store := { s.store with mountDue := s.store.mountDue || (s.power.resume && !s.safety.safe) } }
  let s2 := forAll 4 (fun t s => tenantResetEnd t s) (raise 0 34 (trimApply s1))
  forAll 8 (fun q s => laneReview q s) s2

/-- READY sets once the self-check, or its omission (R578), and memory initialisation have both ended (R570). -/
def becomeReady (s : State) : State :=
  if s.start.ready ∨ !s.start.memInit ∨ !(s.start.checked || s.start.pllFailed) then s
  else
    let s1 := { s with start := { s.start with ready := true, readyAt := if s.power.waking then s.start.readyAt else s.clk } }
    if s.power.waking then wakeExit s1 else s1

/-- SELF_CHECK_END: the steps of R541 for the failed checkers, each with the island of its failed pair or generator. -/
def selfCheckEndEffect (failed : List (Nat × Nat)) (s : State) : State :=
  if s.start.checked ∨ s.start.pllFailed ∨ !s.time.pll ∨ !running s then s
  else
    let fence := failed.foldl (fun m e => m ||| checkerFence e.1 e.2) 0
    let report := failed.foldl (fun m e => m ||| 2 ^ e.1) 0
    let safe := failed.any fun e => checkerSafe e.1 e.2
    let lowest := failed.foldl (fun (m : Nat × Nat) e => if e.1 < m.1 then e else m) (48, 0)
    let s1 := fenceNew fence (fenced s) (setWide 0x900001 2 report (setPw 0xA00001 fence s))
    let s2 := if failed = [] then s1
      else setMFault 4 (checkerIsland lowest.1 lowest.2) 31 lowest.1 0 (safe && !s.safety.safe) s1
    let s3 := if safe then enterSafe s2 else s2
    let s4 := safetySets s.safety.scDone (fun x => { x with scDone := true, scPass := decide (failed = []) }) s3
    becomeReady { s4 with start := { s4.start with checked := true, faultN := s4.safety.safe } }

/-- SELF_CHECK_END. -/
def execSelfCheckEnd (failed : List (Fin 48 × Fin 25)) (s : State) : Host.Outcome State Fault Refusal :=
  live (selfCheckEndEffect (failed.map fun e => (e.1.val, e.2.val))) s

/-- MEMORY_INITIALISATION_END: every memory holds its reset content (R570). -/
def memoryInitialisationEndEffect (s : State) : State :=
  if running s then becomeReady { s with start := { s.start with memInit := true } } else s

/-- MEMORY_INITIALISATION_END. -/
def execMemoryInitialisationEnd (s : State) : Host.Outcome State Fault Refusal := live memoryInitialisationEndEffect s

/-! ### Supervisors (R19, R547, R550, R600) -/

/-- M_SAFETY_CMD OP 1: the watchdog is armed or restarted with the WDOG_MS in force (R547, R549). -/
def watchdogService (s : State) : State :=
  if s.start.ready && !s.safety.safe && !s.power.asleep then
    modSafety (fun x => { x with dog := some (s.time.fixed, pn s 0x900003) }) s
  else s

/-- A write of M_SAFETY_CMD (Table 3.20, R548): OP 2 needs KEY 0x3C. -/
def safetyCommand (v : Nat) (s : State) : State :=
  match bits v 0 2 with
  | 1 => watchdogService s
  | 2 => if bits v 16 8 = 0x3C then enterSafe s else s
  | _ => s

/-- SAFETY_WATCHDOG_EXPIRY: WDOG_MS of the fixed cycle counter pass without an OP 1 (R547). -/
def safetyWatchdogExpiryEffect (s : State) : State :=
  match s.safety.dog with
  | none => s
  | some (at0, period) =>
    let gone := (s.time.fixed + 2 ^ 48 - at0) % 2 ^ 48
    safeFault 7 24 31 0 0 (wait (ms period - gone) s)

/-- SAFETY_WATCHDOG_EXPIRY. -/
def execSafetyWatchdogExpiry (s : State) : Host.Outcome State Fault Refusal := live safetyWatchdogExpiryEffect s

/-- An island takes part in handshakes: it is not fenced and not powered down by TRIM or DEPOT_SLEEP (R600). -/
def handshakes (s : State) (i : Nat) : Bool :=
  !allFenced s (islandFence i) && !s.power.asleep && !(2 ≤ i && i ≤ 9 && (lane s (i - 2)).down)

/-- HANDSHAKE_TIMEOUT: a handshake of two islands that take part in handshakes times out (R19, R600). -/
def handshakeTimeoutEffect (a b : Nat) (s : State) : State :=
  if running s && s.time.pll && handshakes s a && handshakes s b && a != b then handshakeFault a b s else s

/-- HANDSHAKE_TIMEOUT. -/
def execHandshakeTimeout (a b : Fin 25) (s : State) : Host.Outcome State Fault Refusal :=
  live (handshakeTimeoutEffect a b) s

/-- KEEP_ALIVE: a handshake that completes changes nothing the spec names (R600). -/
def execKeepAlive (_i : Fin 25) (s : State) : Host.Outcome State Fault Refusal := live id s

end Sys2Proof.Machine
end

