-- ==== Sys2Proof/Machine/Ecc.lean ====
section
/-! DEFINITION. Uncorrectable errors of the memories of Table 18.2 that an access finds (R546), with the meanings of the
commands that carry one: the commands of rings, gates, Thicket, store and Canopy that read those memories. -/

set_option Elab.async false

namespace Sys2Proof.Machine

/-- An uncorrectable error in memory n of island i: M_FAULT.ECC_UNCORR, and the device safe state where Table 18.2 says
so. -/
def eccMark (n i addr : Nat) (safe : Bool) (s : State) : State :=
  if safe then safeFault 3 i 31 n addr s else setMFault 3 i 31 n addr false s

/-- T_FAULT.ECC of tenant t for memory n of island i. -/
def eccTenant (t n i addr : Nat) (s : State) : State := tenantFault t 8 0 false 0 n 0 n (eccMark n i addr false s)

/-- Memory number of an interrupt controller: every enabled source of the window becomes pending with COUNT 15 and SAT 1,
and ACTIVE clears (R470). -/
def eccIrq (w n : Nat) (addr : Nat) (s : State) : State :=
  let hit := sources.foldl (fun s k =>
    let r := srcRow s w k
    if bitOf r 23 then putSrc w k (putBits (putBits (putBits (putBits r 0 4 15) 5 1 1) 6 1 1) 7 1 0) s
    else putSrc w k (putBits r 7 1 0) s) s
  if w = 0 then eccMark n 0 addr false hit else eccTenant (w - 1) n 0 addr hit

/-- The island that holds a table, by the role Table 1.1 gives it (R86, R114): ring engines the tables of rings, the
Thicket those of its filters, rules and patterns, port islands those of gates and ports, the store island those of
streams and blocks, the safety island the fault log, the Canopy island its windows, the control island the rest. -/
def tableIsland (table inst r : Nat) : Nat :=
  match table with
  | 0x01 => 12 + inst
  | 0x0B => 12 + inst
  | 0x06 => 2 + inst / 4
  | 0x0A => 2 + r / 4
  | 0x08 => 20
  | 0x09 => 20
  | 0x0F => 20
  | 0x0D => 22
  | 0x0E => 24
  | _ => if (2 ≤ table ∧ table ≤ 5) ∨ table = 7 then 10 else 0

/-- An uncorrectable error in a row of a table: memory 0x010 + table (Table 18.2, R299, R328, R470). -/
def eccRow (table inst r : Nat) (s : State) : State :=
  let n := 0x010 + table
  let i := tableIsland table inst r
  let mark := eccMark n i r false
  match table with
  | 0x01 => eccTenant inst n i r s
  | 0x0D => eccTenant inst n i r s
  | 0x06 => mark (putRowWord 0x06 inst r 2 0 (putBits (rowWord s 0x06 inst r 0) 0 8 0) s)
  | 0x08 => storeBegin 5 r .absent (mark s)
  | 0x0C => eccIrq inst n r s
  | 0x0F => storeFault (mark s)
  | _ => mark (putRow table inst r [] s)

/-- An uncorrectable error in a programmable counter, or in the fixed cycle counter, that a read of its anchor finds: the
counter restarts from 0 and goes on; the fixed counter's duplicated state leads to the device safe state (R470, Table
18.2). The number that INFO shows for a programmable counter's memory is a free value: Table 18.2 gives none (assumption
32). -/
def eccCounter (s : State) : State :=
  let n := s.mgmt.perfSel
  if n = 0 then eccMark 0x08A 1 0 true s
  else if n ≤ 8 then
    eccMark (freeNat s % 512) 0 0 false { drawn s with perf := { s.perf with cnt := tput s.perf.cnt (n - 1) 0 } }
  else s

/-- An uncorrectable error in BW_BYTES: it restarts from 0 (R470). -/
def eccBandwidth (s : State) : State := eccMark 0x000 0 0 false (setWide 0x61000B 2 0 s)

/-- An uncorrectable error in a parameter item: memories 0x000 to 0x004 (Table 18.2). -/
def eccParam (id : Nat) (s : State) : State :=
  let block := bits id 16 8
  let i := bits id 8 8
  if id = 0x61000B ∨ id = 0x61000C then eccBandwidth s
  else if block = 0x03 ∧ i ≤ 3 then eccTenant i (i + 1) 0 0 s
  else if block = 0x60 ∧ 1 ≤ i ∧ i ≤ 4 then eccTenant (i - 1) i 0 0 s
  else eccMark 0x000 0 0 true s

/-- f after the consequence of an uncorrectable error, when the access finds one. -/
def afterEcc (ecc : Bool) (hit f : State → State) (s : State) : State := f (if ecc then hit s else s)

/-! ### Rings, gates, Thicket and store -/

/-- TX_SCHEDULE. An uncorrectable error in staging or ring state is T_FAULT.ECC (memory 0x050 + t). -/
def execTxSchedule (t : Fin 4) (ecc : Bool) (s : State) : Host.Outcome State Fault Refusal :=
  live (afterEcc ecc (eccTenant t (0x050 + t) (12 + t) 0) (txScheduleEffect t)) s

/-- TX_BUFFER_READ_END. An uncorrectable error in the host link's buffers is T_FAULT.ECC (memory 0x058 + t). -/
def execTxBufferReadEnd (t : Fin 4) (h : HostRead) (ecc : Bool) (s : State) : Host.Outcome State Fault Refusal :=
  live (afterEcc ecc (eccTenant t (0x058 + t) (16 + t) 0) (txBufferReadEndEffect t h)) s

/-- TX_GLADE_ADMISSION. An uncorrectable error in the free list or the reference counts leads to the device safe state
(memory 0x044). -/
def execTxGladeAdmission (t : Fin 4) (r : Fin 132) (ecc : Bool) (s : State) : Host.Outcome State Fault Refusal :=
  live (afterEcc ecc (eccMark 0x044 11 0 true) (txGladeAdmissionEffect t r)) s

/-- The gate list row in force on a port, when its gates follow their list. -/
def gateRowNow (s : State) (p : Nat) : Nat :=
  let g := (port s p).gate
  match cyclePos s p (nowNs s) with
  | some pos => 256 * g.active + (entryOf s p g.active g.len g.cycle pos).1
  | none => 256 * g.active

/-- GATE_CHANGE. An uncorrectable error in the entry that begins closes every gate of it until its row is written
(R328). -/
def execGateChange (p : Fin 32) (ecc : Bool) (s : State) : Host.Outcome State Fault Refusal :=
  live (fun s =>
    let s1 := gateChangeEffect p s
    if ecc then preemptWire p (eccRow 0x06 p (gateRowNow s1 p) s1) else s1) s

/-- THICKET_RESOLVE. An uncorrectable error in a row of tables 0x02 to 0x05 makes it match or let in nothing until it is
written (R299). -/
def execThicketResolve (ecc : EccHit) (s : State) : Host.Outcome State Fault Refusal :=
  live (fun s => match ecc with
    | .thicketRow table inst r =>
      if 2 ≤ table ∧ table ≤ 5 then thicketResolveEffect .none (eccRow table inst r s) else thicketResolveEffect .none s
    | e => thicketResolveEffect e s) s

/-- The records a page would hold are discarded, counted in DROPS and followed by a gap marker (memory 0x060). -/
def pageBufferHit (k : Nat) (s : State) : State := dropWaiting k (some 3) (eccMark 0x060 20 0 false s)

/-- An uncorrectable error in a scratch way that holds the segment map is reported to the store, as one in its own map memory
is: M_FAULT.STORE (R444, Table 18.2). -/
def storeWayHit (s : State) : State :=
  if s.canopy.storeWays = [] then s else storeFault (eccMark 0x070 22 0 false s)

/-- A page build, or the error it meets instead. -/
def buildOr (k : Nat) (ecc : EccHit) (f : State → State) (s : State) : State :=
  match ecc with
  | .pageBuffer => pageBufferHit k s
  | .storeWay => storeWayHit s
  | _ => f s

/-- PAGE_BUILD. -/
def execPageBuild (k : Fin 64) (ecc : EccHit) (s : State) : Host.Outcome State Fault Refusal :=
  live (buildOr k ecc (pageBuildEffect k ecc)) s

/-- RECORD_WAIT_EXPIRY. -/
def execRecordWaitExpiry (w : WaitEnd) (s : State) : Host.Outcome State Fault Refusal :=
  live (buildOr w.stream w.ecc (recordWaitExpiryEffect w.stream w.ecc)) s

/-! ### The Canopy (R432, R444) -/

/-- An uncorrectable error in the Canopy partition of tenant t: a clean sector becomes invalid, a dirty sector is
discarded with T_FAULT.ECC; a tag loses its whole line (R444). -/
def canopyHit (t : Nat) (h : CanopyHit) (s : State) : State :=
  let (a, m) : Nat × BitVec 4 := match h with
    | .sector a => (a.toNat, sectorMask (a.toNat % 256) (a.toNat % 256 + 1))
    | .tag a => (a.toNat, 15)
  match findLine s t (lineBase a) with
  | none => s
  | some (key, l) =>
    let s1 := putLine key { l with valid := l.valid &&& ~~~m, dirty := l.dirty &&& ~~~m } s
    if l.dirty &&& m = 0 then eccMark 0x070 22 0 false s1 else eccTenant t 0x070 22 0 s1

/-- CANOPY_FILL_END: the oldest prefetch or partial-write fill of a partition completes; a failed read brings no data
(R425, R426, R432). RX entries whose buffers waited for a partial write are handed over (R429). -/
def canopyFillEndEffect (t : Nat) (r : HostRead) (s : State) : State :=
  match s.canopy.fills.find? fun f => f.t == t && (match f.who with
      | .demand _ => false
      | _ => true) with
  | none => s
  | some f =>
    let s1 := setFills (s.canopy.fills.erase f) s
    let s2 := match r with
      | .data bytes => fillDone f ((bytes ++ List.replicate 256 0).take 256) s1
      | _ => s1
    forEach ((ten s2 t).rings.filter fun e => isRx e.1 && e.2.entries != []) (fun (r, _) s => drain t r false s) s2

/-- CANOPY_FILL_END. -/
def execCanopyFillEnd (t : Fin 4) (r : HostRead) (ecc : Option CanopyHit) (s : State) : Host.Outcome State Fault Refusal :=
  live (fun s =>
    let s1 := canopyFillEndEffect t r s
    match ecc with
    | some h => canopyHit t h s1
    | none => s1) s

end Sys2Proof.Machine
end

