-- ==== Sys2Proof/Machine/PortEvents.lean ====
section
/-! DEFINITION. What happens at the pins of ports and of the timebase: frames received and sent, links rising, the wake
matcher (R295, R296), PPS and event inputs, the timebase PLL, counter wraps, the bandwidth window, and presentation. -/

set_option Elab.async false

namespace Sys2Proof.Machine

/-! ### Wake (R295, R296, R520) -/

/-- WAKE_SRC bit k: 0 magic, 1 pattern, 2 link-up, 3 EVT_IN (Table 4.6). -/
def wakeSrc (s : State) (k : Nat) : Bool := bitOf (pn s 0x220000) k

/-- WAKE_PORTS lists port p. -/
def wakePort (s : State) (p : Nat) : Bool := bitOf (pwide s 0x220001 2) p

/-- The first wake event: WAKE_CAUSE, SLEEP clears, WAKE_N, and the exit begins with a self-check (R296, R520, R521). Of the
events of one cycle the lower source code, then the lower port, is recorded. -/
def wake (source p row : Nat) (s : State) : State :=
  let old := pn s 0x220003
  let first := decide (source < bits old 0 4 ∨ (source = bits old 0 4 ∧ p < bits old 4 5))
  let cause := setPw 0x220003 (source + 16 * p + 512 * row) s
  if !s.power.asleep then s
  else if s.power.waking then (if s.power.wakeAt = s.clk ∧ first then cause else s)
  else
    let s1 := cause
    { s1 with
      mgmt := { s1.mgmt with sleep := false },
      power := { s1.power with wakeN := true, waking := true, wakeAt := s1.clk },
      start := { s1.start with checked := false } }

/-- The frame holds six 0xFF and 16 copies of MAC_ADDR after its source address (R295). -/
def magicFrame (s : State) (p : Nat) (bs : List Byte) : Bool :=
  let mac := leBytes 6 (pwide s (0x100009 + 256 * p) 2)
  let want := List.replicate 6 (0xFF : Byte) ++ (List.replicate 16 mac).flatten
  let body := (bs.take (bs.length - 4)).drop 12
  (List.range (body.length + 1 - want.length)).any fun i => decide (want.length ≤ body.length) && slice body i 102 == want

/-- The 128 pattern bytes and the mask of a row of table 0x07 (Table 9.8). -/
def wakeRow (s : State) (p r : Nat) : List Byte × Nat :=
  let ws := (List.range 50).map fun i => rowWord s 0x07 p r i
  let bytes := (List.range 43).flatMap fun i => leBytes 3 (ws.getD i 0)
  let mask := ofWords ((List.range 6).map fun i => word (ws.getD (43 + i) 0))
  (bytes.take 128, mask % 2 ^ 128)

/-- A frame matches a pattern row (R295). -/
def patternMatch (s : State) (p r : Nat) (bs : List Byte) : Bool :=
  let (pat, mask) := wakeRow s p r
  bitOf (rowWord s 0x07 p r 49) 23
    && (List.range 128).all fun k =>
      !bitOf mask k || (decide (k + 4 < bs.length) && bs.getD k 0 == pat.getD k 0)

/-- A frame that passed Table 8.3 is offered to the wake matcher: magic before pattern, the lower row first (R296). -/
def wakeMatch (p : Nat) (bs : List Byte) (s : State) : State :=
  if wakeSrc s 0 && magicFrame s p bs then wake 1 p 0 s
  else if wakeSrc s 1 then
    match (List.range 8).find? fun r => patternMatch s p r bs with
    | some r => wake 2 p r s
    | none => s
  else s

/-! ### Frames at the pins -/

/-- A frame comes to the receive MAC of a port: the wake matcher in DEPOT_SLEEP, the partner's beacons, the RX stage
otherwise (R245, R295, R497, R549). -/
def frameIn (p : Nat) (f : RxFrame) (s : State) : State :=
  let len := f.bytes.length
  if s.power.asleep then
    if wakePort s p then receiveChecks p f (fun s => wakeMatch p f.bytes (filterFrame p len s)) s else s
  else if s.safety.safe then macReceive p f s
  else if beaconPort s p && be16 f.bytes 12 == 0x88B5 then
    receiveChecks p f (fun s => beaconAct f.bytes (acceptCount p len s)) s
  else macReceive p f s

/-- FRAME_RECEIVE: a frame ends at the pins of a port whose link is up and which is not looped back (R245, R267). -/
def frameReceiveEffect (p : Nat) (f : RxFrame) (s : State) : State :=
  if (port s p).link && loopback s p == 0 && !fenced s (p / 4) then frameIn p f s else s

/-- FRAME_RECEIVE. -/
def execFrameReceive (p : Fin 32) (f : RxFrame) (s : State) : Host.Outcome State Fault Refusal :=
  live (frameReceiveEffect p f) s

/-- TX_FRAME_END: the last bit leaves the port, or comes back through a loopback (R224, R267), as preemptable fragments
where the PCS returns a preemptable frame (R262); a disabled port discards what it is receiving (R268). -/
def txFrameEndEffect (p : Nat) (s : State) : State :=
  match (port s p).wire with
  | none => s
  | some f =>
    let s0 := waitUntil (wireEnd f) s
    let bytes := oneStep f (egressTime s0 f)
    let s1 := txEnd p s0
    if loopback s1 p = 0 then modPort p (fun x => { x with sent := x.sent ++ [bytes] }) s1
    else if !(port s1 p).link then s1
    else
      let late := (s0.clk * 131072 - f.startAt) / byteTime f.speed 1 - (8 + bytes.length)
      frameIn p ⟨bytes, none, f.pre && loopback s1 p == 2, false, late, false⟩ s1

/-- TX_FRAME_END. -/
def execTxFrameEnd (p : Fin 32) (s : State) : Host.Outcome State Fault Refusal := live (txFrameEndEffect p) s

/-- LINK_UP: the conditions of R243 have held for 1 ms; in DEPOT_SLEEP a watched port wakes the device (R295). -/
def linkUpEffect (p : Nat) (s : State) : State :=
  match (port s p).qualAt with
  | none => s
  | some at0 =>
    let s1 := waitUntil (at0 + ms 1) s
    let s2 := raise 0 13 (modPort p (fun x => { x with link := true, speed := runSpeed s1 p, qualAt := none }) s1)
    if s2.power.asleep && wakePort s2 p && wakeSrc s2 2 then wake 3 p 0 s2 else s2

/-- LINK_UP. -/
def execLinkUp (p : Fin 32) (s : State) : Host.Outcome State Fault Refusal := live (linkUpEffect p) s

/-! ### PPS and event inputs (R312 to R314) -/

/-- PPS_OUT rises where a boundary has been reached by counting; in DEPOT_SLEEP it is held low (R312, R518). -/
def ppsRise (s : State) : State :=
  if !s.time.ppsDue then s
  else if s.power.asleep ∨ s.time.lost ∨ !bitOf (pn s 0x300003) 0 then { s with time := { s.time with ppsDue := false } }
  else { s with time := { s.time with ppsDue := false, ppsOut := some ((s.time.fixed + us (bits (pn s 0x300003) 8 16)) % 2 ^ 48) } }

/-- PPS_OUT_PULSE: time passes to the next second boundary when none is due yet. -/
def ppsOutPulseEffect (s : State) : State :=
  let second := 65536 * 1000000000
  let go := s.time.pll && !s.time.ppsDue && bitOf (pn s 0x300003) 0
  ppsRise (if go then waitDev ((s.time.dev / second + 1) * second) s else s)

/-- PPS_OUT_PULSE. -/
def execPpsOutPulse (s : State) : Host.Outcome State Fault Refusal := live ppsOutPulseEffect s

/-- PPS_OUT_END: the width has passed on the fixed cycle counter (R312). -/
def ppsOutEndEffect (s : State) : State :=
  match s.time.ppsOut with
  | none => s
  | some stop =>
    let left := (stop + 2 ^ 48 - s.time.fixed) % 2 ^ 48
    let s1 := wait (if left ≤ us 65535 then left else 0) s
    { s1 with time := { s1.time with ppsOut := none } }

/-- PPS_OUT_END. -/
def execPpsOutEnd (s : State) : Host.Outcome State Fault Refusal := live ppsOutEndEffect s

/-- An edge on input e (0 and 1: EVT_IN, 2: PPS_IN) is captured with the device time; its sources are raised (R314). -/
def capture (e : Nat) (edge : Edge) (s : State) : State :=
  let near : Bool := match s.time.cap.find? (fun c => c.1 == e) with
    | some (_, _, at0) => decide (s.clk ≤ at0 + us 1)
    | none => false
  if decide (edge.widthNs < 20) || near || !s.time.pll then s
  else
    let s1 := { s with time := { s.time with cap := tput s.time.cap e (s.time.dev, s.clk) } }
    let s2 := forAll 5 (fun w s => modWin w (fun x => { x with capNew := x.capNew ||| BitVec.ofNat 3 (2 ^ e) }) s) s1
    raise 0 (16 + e) (raiseTenants (46 + e) s2)

/-- PPS_IN_CAPTURE. -/
def ppsInCaptureEffect (edge : Edge) (s : State) : State :=
  let cfg := pn s 0x300004
  if bitOf cfg 0 && bitOf cfg 1 == edge.falling then capture 2 edge s else s

/-- PPS_IN_CAPTURE. -/
def execPpsInCapture (edge : Edge) (s : State) : Host.Outcome State Fault Refusal := live (ppsInCaptureEffect edge) s

/-- EVT_IN_CAPTURE: the edge EVT_CFG selects; in DEPOT_SLEEP it is a wake event (R295). -/
def evtInCaptureEffect (e : Nat) (edge : Edge) (s : State) : State :=
  let cfg := bits (pn s 0x300005) (2 * e) 2
  if bitOf cfg (if edge.falling then 1 else 0) && decide (20 ≤ edge.widthNs) then
    let s1 := capture e edge s
    if wakeSrc s1 3 then wake (4 + e) 0 0 s1 else s1
  else s

/-- EVT_IN_CAPTURE. -/
def execEvtInCapture (e : Fin 2) (edge : Edge) (s : State) : Host.Outcome State Fault Refusal :=
  live (evtInCaptureEffect e edge) s

/-! ### The timebase PLL (R328, R329) -/

/-- TIMEBASE_PLL_LOCK: the device time and the fixed cycle counter start at 0. -/
def timebasePllLockEffect (s : State) : State :=
  if s.time.pll ∨ s.start.pllFailed ∨ !running s then s
  else { s with
    time := { s.time with pll := true, dev := 0, rem := 0, fixed := 0, segs := [] }, power := { s.power with lockedAt := s.clk } }

/-- TIMEBASE_PLL_LOCK. -/
def execTimebasePllLock (s : State) : Host.Outcome State Fault Refusal := live timebasePllLockEffect s

/-- PLL_LOCK_LOSS: M_FAULT.TIMEBASE; the device time has no defined meaning from now on: a free value (assumption 5). -/
def pllLockLossEffect (s : State) : State :=
  if !s.time.pll ∨ s.time.lost then s
  else
    let dev := freeNat s % (2 ^ 48 * 65536000000000)
    safeFault 6 1 31 0 0 (drawn { s with time := { s.time with lost := true, dev := dev } })

/-- PLL_LOCK_LOSS. -/
def execPllLockLoss (s : State) : Host.Outcome State Fault Refusal := live pllLockLossEffect s

/-- FIXED_CYCLE_COUNTER_WRAP: time passes to the wrap, which raises source 23 (R463). -/
def fixedCycleCounterWrapEffect (s : State) : State := if s.time.pll then wait (2 ^ 48 - s.time.fixed) s else s

/-- FIXED_CYCLE_COUNTER_WRAP. -/
def execFixedCycleCounterWrap (s : State) : Host.Outcome State Fault Refusal := live fixedCycleCounterWrapEffect s

/-- PROGRAMMABLE_COUNTER_WRAP: time passes to the wrap of a counter that counts ticks; the wrap of a counter of other
events is part of the event that causes it (R465). -/
def programmableCounterWrapEffect (n : Nat) (s : State) : State :=
  if s.time.pll && tickEvent s (pn s (0x610000 + n)) then wait (2 ^ 48 - tget s.perf.cnt n 0) s else s

/-- PROGRAMMABLE_COUNTER_WRAP. -/
def execProgrammableCounterWrap (n : Fin 8) (s : State) : Host.Outcome State Fault Refusal :=
  live (programmableCounterWrapEffect n) s

/-- PHASE_SLEW_DECREMENT: time passes until 1 ns has accumulated (R303). -/
def phaseSlewDecrementEffect (s : State) : State :=
  if s.time.pll && phaseSlew s != 0 then wait (500 - s.time.slewAcc % 500) s else s

/-- PHASE_SLEW_DECREMENT. -/
def execPhaseSlewDecrement (s : State) : Host.Outcome State Fault Refusal := live phaseSlewDecrementEffect s

/-- BANDWIDTH_WINDOW_END: the sum loads into BW_BYTES, source 32 is raised, the next window begins (R467). -/
def bandwidthWindowEndEffect (s : State) : State :=
  match s.perf.bwAt with
  | none => s
  | some at0 =>
    let stop := at0 + pwide s 0x610008 2
    let s1 := waitUntil stop s
    raise 0 32 { s1 with perf := { s1.perf with bwBytes := s1.perf.bwSum, bwSum := 0, bwAt := some stop } }

/-- BANDWIDTH_WINDOW_END. -/
def execBandwidthWindowEnd (s : State) : Host.Outcome State Fault Refusal := live bandwidthWindowEndEffect s

/-! ### Presentation (R456 to R459) -/

/-- PRESENTATION: a window that may present begins to once MIN_GAP has elapsed; a T window sends one MSI (R458). -/
def presentationEffect (w : Nat) (s : State) : State :=
  if (win s w).presenting ∨ !presentable s w then s
  else
    let s1 := match (win s w).presentAt with
      | some at0 => waitUntil (at0 + us (pn s (0x600000 + 256 * w))) s
      | none => s
    let s2 := modWin w (fun x => { x with presenting := true, sinceClaim := 3, presentAt := some s1.clk }) s1
    let l := link s2 (w - 1)
    if w ≠ 0 ∧ (win s2 w).msiEn ∧ l.msiEn then post (w - 1) l.msiAddr.toNat (leBytes 4 l.msiData.toNat) s2 else s2

/-- PRESENTATION. -/
def execPresentation (w : Fin 5) (s : State) : Host.Outcome State Fault Refusal := live (presentationEffect w) s

end Sys2Proof.Machine
end

