-- ==== Sys2Proof/Machine/Power.lean ====
section
/-! DEFINITION. Power, droop and the life odometer (chapter 17): TRIM, entry into DEPOT_SLEEP, droop response, thermal
sensing, and the hourly measurement, with the meanings of their events. -/

set_option Elab.async false

namespace Sys2Proof.Machine

/-- s with the power state changed. -/
def modPower (f : Power → Power) (s : State) : State := { s with power := f s.power }

/-- M_STATUS.PSTATE (Tables 3.4 and 17.2). -/
def pstate (s : State) : Nat := if s.power.asleep then 2 else if s.mgmt.trim then 1 else 0

/-! ### TRIM and DEPOT_SLEEP (R514 to R523) -/

/-- A write of M_CONTROL.TRIM (R514, R515). -/
def trimWrite (on : Bool) (s : State) : State :=
  if s.mgmt.trim = on then s else trimApply { s with mgmt := { s.mgmt with trim := on } }

/-- R516 keeps the device out of DEPOT_SLEEP. -/
def sleepBarred (s : State) : Bool := pairEnabled s || s.safety.safe || s.image.load

/-- A host link is held in reset: it is in Detect, its Command register and MSI capability are clear (R146, R519). -/
def linkReset (t : Nat) (s : State) : State :=
  modLink t (fun l => { l with
    state := .detect, bme := false, mse := false, command := 0, msiEn := false, crs := false, replaying := [] }) s

/-- The maintenance operations in every queue end with ERR 0, and the Canopy and every scratch way lose what they hold
(R517 step 4). -/
def canopyEmpty (s : State) : State :=
  let ops := s.canopy.queues.flatMap fun e => e.2
  forEach ops (fun m s => maintDone m.win 0 s)
    { s with scratch := [], canopy := { s.canopy with lines := [], fills := [], reads := [], queues := [], plru := [], stream := [] } }

/-- A lane carries a port that WAKE_PORTS lists. -/
def wakeLane (s : State) (q : Nat) : Bool := (List.range 4).any fun i => wakePort s (4 * q + i)

/-- A port's egress references are discarded as R268 discards them, and its RX stage is powered down (R517). -/
def sleepPort (p : Nat) (s : State) : State :=
  clearEgress p .linkDown (modPort p (fun x => { x with rx := [], rxGone := [], ctlDue := [], xoff := [] }) s)

/-- What the non-volatile record holds when it is written now (R524). -/
def nvRecord (s : State) : NvRecord :=
  { life := pw s 0x810000, cycles := pw s 0x010006, shifts := (List.range 12).map fun m => pw s (0x810002 + 256 * m),
    acc := s.power.acc }

/-- The non-volatile record is written over the older copy, and the write tests checker 44 (R524, R542). -/
def recordWrite (good : Bool) (s : State) : State :=
  let s1 := modPower (fun x => { x with nvNew := nvRecord s, nvOld := x.nvNew }) s
  if good then s1 else reportTest 44 0 s1

/-- The steps of R517; the record is written at the entry, and the copy written may fail its test (R524). -/
def sleepEntry (nvGood : Bool) (s : State) : State :=
  if sleepBarred s ∨ s.power.asleep then s
  else
    let suspends := decide (s.store.medium = 3)
    let s1 := { s with
      start := { s.start with ready := false }, mgmt := { s.mgmt with sleep := true },
      power := { s.power with asleep := true, waking := false, sleepAt := s.clk, resume := suspends } }
    let s2 := forAll 4 (fun t s => linkReset t (tenantResetStart t s)) (recordWrite nvGood s1)
    let s3 := canopyEmpty (abortAll (forAll 32 sleepPort s2))
    let s4 := modSafety (fun x => { x with dog := none }) (suspendNow s3)
    let s5 := forAll 8 (fun q s => if wakeLane s q then s
      else laneReview q (modLane q (fun x => { x with down := true, signal := false, lock := false }) s)) s4
    { discardRefs s5 with
      frames := [], thicket := { s5.thicket with waiting := [] }, time := { s5.time with ppsOut := none, ppsDue := false } }

/-! ### Droop (R507 to R512) -/

/-- DROOP_TRIP: a detector of a stretchable island trips (R507, R510). -/
def droopTripEffect (i : Nat) (high : Bool) (s : State) : State :=
  if i = 1 then s
  else { s with droop := tmod s.droop i {} fun d =>
    if high then { d with high := true } else { d with low := true } }

/-- DROOP_TRIP. -/
def execDroopTrip (i : Fin 25) (high : Bool) (s : State) : Host.Outcome State Fault Refusal :=
  live (droopTripEffect i high) s

/-- DROOP_CLEAR: a detector has stayed clear for 1 µs (R509). -/
def droopClearEffect (i : Nat) (high : Bool) (s : State) : State :=
  if i = 1 then s
  else { s with droop := tmod s.droop i {} fun d =>
    if high then { d with high := false } else { d with low := false } }

/-- DROOP_CLEAR. -/
def execDroopClear (i : Fin 25) (high : Bool) (s : State) : Host.Outcome State Fault Refusal :=
  live (droopClearEffect i high) s

/-- STRETCH_BUDGET_WINDOW_END: time passes to the end of the 1 ms window of the fixed cycle counter (R512). -/
def stretchBudgetWindowEndEffect (s : State) : State :=
  if s.time.pll then wait (500000 - s.time.fixed % 500000) s else s

/-- STRETCH_BUDGET_WINDOW_END. -/
def execStretchBudgetWindowEnd (s : State) : Host.Outcome State Fault Refusal := live stretchBudgetWindowEndEffect s

/-! ### Thermal sensing (R525 to R527) -/

/-- The highest of the readings. -/
def highest : List Int → Int
  | [] => 0
  | r :: rs => rs.foldl max r

/-- THERMAL_SAMPLE, every 1 ms: the eight sensors give TJ, source 10, and the shutdown after 10 consecutive samples above
120 degrees (R525 to R527). -/
def thermalSampleEffect (readings : List Int) (s0 : State) : State :=
  if readings.length ≠ 8 ∨ !s0.start.powered then s0
  else
    let s := waitUntil (s0.power.sampleAt + ms 1) s0
    let tj := highest readings
    let alarm := toInt 24 (pn s 0x80FF01)
    let hot := if tj > 120 then s.power.hot + 1 else 0
    let up := decide (tj ≥ alarm)
    let armed := if up then false else s.power.armed || decide (tj ≤ alarm - 3)
    let s1 := modPower (fun x => { x with
      hot := hot, armed := armed, sampleAt := s.clk, tjSum := x.tjSum + tj, tjCount := x.tjCount + 1 }) (setPw 0x80FF00 (ofInt 24 tj) s)
    let s2 := if up && s.power.armed then raise 0 10 s1 else s1
    if hot ≥ 10 then safeFault 9 0 31 0 0 s2 else s2

/-- THERMAL_SAMPLE. -/
def execThermalSample (readings : List Int) (s : State) : Host.Outcome State Fault Refusal :=
  live (thermalSampleEffect readings) s

/-! ### The life odometer (R528 to R535) -/

/-- ODOMETER_SECOND: a second of powered time adds its acceleration factor to the accumulator. -/
def odometerSecondEffect (s : State) : State :=
  if !s.start.powered then s
  else
    let s1 := waitUntil ((s.power.seconds + 1) * 500000000) s
    let x := s1.power
    let af := if x.tjCount = 0 then Config.accelFactor (toInt 24 (pn s1 0x80FF00)) 1
      else Config.accelFactor x.tjSum x.tjCount
    modPower (fun x => { x with seconds := x.seconds + 1, acc := x.acc + af, tjSum := 0, tjCount := 0 }) s1

/-- ODOMETER_SECOND. -/
def execOdometerSecond (s : State) : Host.Outcome State Fault Refusal := live odometerSecondEffect s

/-- MON_SHIFT of a reading: 0xFFFFFF for a monitor that does not oscillate or lies beyond 100,000 ppm (R529, R535). -/
def monShift (r : MonReading) : Nat :=
  match r with
  | .stuck => 0xFFFFFF
  | .freqs ref mon =>
    if ref = 0 then 0xFFFFFF
    else
      let v := (2000000 * (ref - mon) + ref) / (2 * ref)
      if v > 100000 then 0xFFFFFF else v

/-- The second-highest valid shift, when two are valid (R529). -/
def secondShift (shifts : List Nat) : Option Nat :=
  let valid := shifts.filter (· ≠ 0xFFFFFF)
  match valid.foldl (fun (m : Option Nat × Option Nat) v => match m with
      | (none, _) => (some v, none)
      | (some a, b) => if v > a then (some v, some a) else (some a, some (max v (b.getD 0)))) (none, none) with
  | (_, b) => b

/-- floor(E_T): A holds units of 2^-20 s (R528). -/
def thermalLife (acc : Nat) : Nat := 10000 * acc / (1262304000 * 2 ^ 20)

/-- floor(E_A) of the second-highest shift (R529). -/
def agingLife (s2 : Nat) : Nat := 10000 * s2 ^ 5 / 50000 ^ 5

/-- M_SAFETY_STAT.LIFE_ALARM sets, with source 2 and its fault log entry (R531, R554). -/
def lifeAlarmSet (s : State) : State :=
  logFault 3 6 0 31 0 0 false (raise 0 2 (modSafety (fun x => { x with lifeAlarm := true }) s))

/-- Measured values go into the parameters, unless the record was lost (R530, R534). -/
def measure (shifts : List Nat) (life : Nat) (s : State) : State :=
  if s.power.lost then s
  else
    let s1 := forAll 12 (fun m s => match shifts[m]? with
      | some v => setPw (0x810002 + 256 * m) v s
      | none => s) s
    setPw 0x810000 (min 0xFFFFFF (max (pn s 0x810000) life)) s1

/-- HOURLY_MEASUREMENT at each whole hour since the timebase PLL lock: monitors, LIFE_USED, checkers 43 and 44, LIFE_ALARM
and the non-volatile record (R524, R529 to R531, R535, R542). -/
def hourlyMeasurementEffect (readings : List MonReading) (nvGood : Bool) (s : State) : State :=
  if !s.time.pll then s
  else
    let s1 := waitUntil (s.power.lockedAt + (s.power.hours + 1) * 1800000000000) s
    let shifts := (readings.take 12).map monShift
    let second := secondShift shifts
    let aging := match second with
      | some v => agingLife v
      | none => 0
    let s2 := measure shifts (max (thermalLife s1.power.acc) aging) (modPower (fun x => { x with hours := x.hours + 1 }) s1)
    let s3 := if second.isNone then reportTest 43 0 s2 else s2
    let s4 := if pn s3 0x810000 ≥ pn s3 0x810001 then lifeAlarmSet s3 else s3
    recordWrite nvGood s4

/-- HOURLY_MEASUREMENT. -/
def execHourlyMeasurement (readings : List MonReading) (nvGood : Bool) (s : State) : Host.Outcome State Fault Refusal :=
  live (hourlyMeasurementEffect readings nvGood) s

end Sys2Proof.Machine
end

