-- ==== Sys2Proof/Machine/Start.lean ====
section
/-! DEFINITION. Power-up, resets and start-up (chapter 19), the management reset (R163), and the test access port
(R585), with the meanings of their events. -/

set_option Elab.async false

namespace Sys2Proof.Machine

/-! ### Device reset (R562) -/

/-- A parameter item that a device reset keeps: POWER_CYCLES, LIFE_USED, MON_SHIFT and WAKE_CAUSE (R524, R562). -/
def keptParam (id : Nat) : Bool :=
  id == 0x010006 || id == 0x810000 || (bits id 16 8 == 0x81 && bits id 0 8 == 2) || id == 0x220003

/-- The power state a device reset keeps: the thermal sensing and the odometer of the always-on domain (R505), and the
non-volatile record. -/
def keptPower (p : Power) : Power :=
  { acc := p.acc, accLoad := p.accLoad, nvNew := p.nvNew, nvOld := p.nvOld, seconds := p.seconds, lost := p.lost,
    sampleAt := p.sampleAt, tjSum := p.tjSum, tjCount := p.tjCount }

/-- What a device reset leaves: State.reset with the items of R562, the levels that others drive on its inputs, the
model's own clock and queue, and start as given. The journal of the cartridge outlives it, as does the key in OTP. -/
def deviceReset (start : Start) (s : State) : State :=
  { State.reset with
    pending := s.pending, clk := s.clk, free := s.free,
    bus := { req := s.bus.req },
    links := s.links.map fun e => (e.1, { perst := e.2.perst }),
    params := s.params.filter fun e => keptParam e.1,
    store := { otpKey := s.store.otpKey, otpLock := s.store.otpLock, journal := (recordTime s).store.journal },
    power := keptPower s.power, start := start }

/-- FAULT_N is low while RESET_N is low, until the self-check after power-up ends without a cause, and in the device safe
state (R551, R569). -/
def faultLow (s : State) : Bool := s.start.resetLow || s.start.faultN || s.safety.safe

/-- A command or safety reset: the device holds itself in reset, and FAULT_N keeps its level (R568, R569). -/
def internalReset (s : State) : State := deviceReset { internal := some s.clk, faultN := faultLow s } s

/-- A pin reset: RESET_N is low (R567). -/
def pinReset (s : State) : State := deviceReset { resetLow := true } s

/-- R534: both copies of the non-volatile record fail. -/
def recordLost (s : State) : State :=
  let s1 := setPw 0x010006 0xFFFFFF (setPw 0x810000 0xFFFFFF s)
  let s2 := forAll 12 (fun m s => setPw (0x810002 + 256 * m) 0xFFFFFF s) s1
  lifeAlarmSet (modPower (fun x => { x with acc := 0, accLoad := false, lost := true }) s2)

/-- A valid copy of the record is loaded (R536). The accumulator is loaded when power has been off (R524, R528). -/
def recordLoad (n : NvRecord) (s : State) : State :=
  let s1 := setPw 0x010006 n.cycles.toNat (setPw 0x810000 n.life.toNat s)
  let s2 := forAll 12 (fun m s => setPw (0x810002 + 256 * m) (n.shifts.getD m 0).toNat s) s1
  modPower (fun x => { x with acc := if x.accLoad then x.acc + n.acc else x.acc, accLoad := false }) s2

/-- The record is read at a reset: the newer valid copy is loaded, or neither is valid (R534, R536). A newer copy found bad
is the one that is written next (R524). -/
def recordRead (nv : NvRead) (s : State) : State :=
  match nv with
  | .newer => recordLoad s.power.nvNew s
  | .older => recordLoad s.power.nvOld (modPower (fun x => { x with nvNew := x.nvOld }) s)
  | .neither => recordLost s

/-- RESET_N_ASSERT: RESET_N has been low for so many ns. Below 1 µs it is ignored, from 10 µs it resets; between, which of
the two is a free value (R567, assumption 5). -/
def resetNAssertEffect (lowNs : Nat) (s : State) : State :=
  if !s.start.powered ∨ s.start.resetLow ∨ lowNs < 1000 then s
  else if lowNs ≥ 10000 then pinReset s
  else if freeNat s % 2 = 1 then pinReset (drawn s) else drawn s

/-- RESET_N_ASSERT acts while a TAP instruction is loaded as well. -/
def execResetNAssert (lowNs : Nat) (s : State) : Host.Outcome State Fault Refusal := .next (resetNAssertEffect lowNs s)

/-- RESET_N_RELEASE: the record is read, POWER_CYCLES counts, the record is written, and the bus may be granted (R71,
R570). -/
def resetNReleaseEffect (nv : NvRead) (wrote : Bool) (s : State) : State :=
  if !s.start.powered ∨ !s.start.resetLow then s
  else
    let s1 := { s with start := { s.start with resetLow := false, releasedAt := s.clk } }
    arbitrate (recordWrite wrote (bumpParam 0x010006 1 (recordRead nv s1)))

/-- RESET_N_RELEASE: which copies of the record are valid, and whether the copy then written passes its test. -/
def execResetNRelease (r : RecordUse) (s : State) : Host.Outcome State Fault Refusal :=
  .next (resetNReleaseEffect r.found r.wrote s)

/-- INTERNAL_RESET_RELEASE: 10 µs after a command or safety reset began (R568). -/
def internalResetReleaseEffect (nv : NvRead) (s : State) : State :=
  match s.start.internal with
  | none => s
  | some at0 =>
    let s1 := waitUntil (at0 + us 10) s
    let s2 := { s1 with start := { s1.start with internal := none, releasedAt := s1.clk } }
    arbitrate (recordRead nv s2)

/-- INTERNAL_RESET_RELEASE. -/
def execInternalResetRelease (nv : NvRead) (s : State) : Host.Outcome State Fault Refusal :=
  .next (internalResetReleaseEffect nv s)

/-- SUPPLY_LOSS: the device enters OFF; what is not in non-volatile memory is gone, powered time since the last hourly journal
entry too (R371, R565). -/
def supplyLossEffect (s : State) : State :=
  let s1 := modStore (fun x => { x with journal := s.store.journal }) (deviceReset { powered := false } s)
  { s1 with params := s1.params.filter fun e => e.1 != 0x220003 }

/-- SUPPLY_LOSS. -/
def execSupplyLoss (s : State) : Host.Outcome State Fault Refusal := .next (supplyLossEffect s)

/-- POWER_ON: from OFF the supplies come into range with RESET_N low; the accumulator starts with the time from now on
(R524, R528, R564, R565). -/
def powerOnEffect (s : State) : State :=
  if s.start.powered then s
  else { s with
    clk := 0,
    start := { s.start with powered := true, resetLow := true },
    power := { accLoad := true, nvNew := s.power.nvNew, nvOld := s.power.nvOld, lost := s.power.lost } }

/-- POWER_ON. -/
def execPowerOn (s : State) : Host.Outcome State Fault Refusal := .next (powerOnEffect s)

/-- SAFETY_RESET: 100 ms after the entry, the safety island resets the device (R550). -/
def safetyResetEffect (s : State) : State :=
  match s.safety.resetFrom with
  | none => s
  | some at0 => internalReset (waitUntil (at0 + ms 100) s)

/-- SAFETY_RESET. -/
def execSafetyReset (s : State) : Host.Outcome State Fault Refusal := .next (safetyResetEffect s)

/-- TAP_INSTRUCTION_LOAD: the outputs follow the boundary-scan register until the next device reset (R585). -/
def tapInstructionLoadEffect (_i : TapInstr) (bsr : List Bool) (s : State) : State := { s with tap := true, bsr := bsr }

/-- TAP_INSTRUCTION_LOAD. -/
def execTapInstructionLoad (i : TapInstr) (bsr : List Bool) (s : State) : Host.Outcome State Fault Refusal :=
  .next (tapInstructionLoadEffect i bsr s)

/-! ### Start-up (R570 to R578) -/

/-- PLL_LOCK_TIMEOUT: 5 ms after release without lock (R578). -/
def pllLockTimeoutEffect (s : State) : State :=
  if s.time.pll ∨ s.start.pllFailed ∨ !running s then s
  else
    let s1 := waitUntil (s.start.releasedAt + ms 5) s
    becomeReady (safeFault 6 1 31 0 0 { s1 with start := { s1.start with pllFailed := true } })

/-- PLL_LOCK_TIMEOUT. -/
def execPllLockTimeout (s : State) : Host.Outcome State Fault Refusal := live pllLockTimeoutEffect s

/-- A tenant whose reset was held and is held no longer leaves it (R158, R572). -/
def releaseTenants (held : Nat → Bool) (s : State) : State :=
  forAll 4 (fun t s => if held t then tenantResetEnd t s else s) s

/-- The start-up window closes: held tenants are released, and the mount is due; neither in the device safe state (R571 to
R574). -/
def closeWindow (s : State) : State :=
  if !s.start.window then s
  else
    let s1 := { s with start := { s.start with window := false } }
    if s.safety.safe then s1
    else releaseTenants (tenantHeld s) (modStore (fun x => { x with mountDue := true }) s1)

/-- STARTUP_WINDOW_CLOSE: 100 ms after READY (R571). -/
def startupWindowCloseEffect (s : State) : State :=
  if s.start.ready && s.start.window then closeWindow (waitUntil (s.start.readyAt + ms 100) s) else s

/-- STARTUP_WINDOW_CLOSE. -/
def execStartupWindowClose (s : State) : Host.Outcome State Fault Refusal := live startupWindowCloseEffect s

/-- TENANT_RESET_END. -/
def execTenantResetEnd (t : Fin 4) (s : State) : Host.Outcome State Fault Refusal := live (tenantResetEnd t) s

/-! ### The management reset (R76, R163, R446, Table 5.7) -/

/-- Management's Canopy operations end (R446). -/
def mgmtCanopyEnd (s : State) : State :=
  forAll 4 (fun t s => maintStart t (setQueue t ((maintQueue s t).filter fun m => m.win != 0) s)) s

/-- Channels that an image load held resume (R126). -/
def unyield (s : State) : State :=
  { s with chans := s.chans.map fun e => (e.1, { e.2 with yielded := false }) }

/-- M_CONTROL.MGMT_RESET set to 1 with its KEY. A parameter write that still waits for channels completes first (R163). -/
def mgmtResetStart (s : State) : State :=
  if s.mgmt.mgmtReset then s
  else
    let s0 := match s.mgmt.handover with
      | some (id, v) => handOwner (forEach (movedChannels s id v) abortChan s)
      | none => s
    let s1 := forAll 16 (fun c s => if chanOwner s c = .mgmt then modChan c (fun _ => {}) (abortChan c s) else s) s0
    let s2 := breakLocks 0 (mgmtCanopyEnd (unyield { s1 with image := {} }))
    let s3 := { windowReset 0 s2 with
      mgmt := { scratch := s.mgmt.scratch, fault := s.mgmt.fault, detail := s.mgmt.detail, trim := s.mgmt.trim,
                mgmtReset := true } }
    idleSources 0 (forAll 4 (fun t s => modTen t (fun x => { x with reset := false }) s) s3)

/-- MGMT_RESET_END: MGMT_RESET clears. -/
def mgmtResetEndEffect (s : State) : State := { s with mgmt := { s.mgmt with mgmtReset := false } }

/-- MGMT_RESET_END. -/
def execMgmtResetEnd (s : State) : Host.Outcome State Fault Refusal := live mgmtResetEndEffect s

end Sys2Proof.Machine
end

