-- ==== Sys2Proof/Machine/Image.lean ====
section
/-! DEFINITION. Zerik images (R122 to R134): the layout, the checks before application, the application, and the end of a
load. -/

set_option Elab.async false

namespace Sys2Proof.Machine

/-- What an image applies: a parameter record, or one row of a table block with the block's row length. -/
inductive ImageOp where
  | param (id : Nat) (v : Word)
  | row (table inst r words : Nat) (ws : List Word)
  deriving DecidableEq, Repr

/-- The word at a byte offset of an image. -/
def imageWord (bs : List Byte) (off : Nat) : Nat := leNat (slice bs off 3)

/-- n parameter records from an offset, each with its offset (Table 4.11). -/
def imageRecords (bs : List Byte) : Nat → Nat → List (Nat × ImageOp)
  | 0, _ => []
  | n + 1, off => (off, .param (imageWord bs off) (word (imageWord bs (off + 3)))) :: imageRecords bs n (off + 6)

/-- The rows of a block whose header lies at an offset. -/
def blockRows (bs : List Byte) (off : Nat) : List (Nat × ImageOp) :=
  let tbl := imageWord bs off
  let first := imageWord bs (off + 3)
  let size := imageWord bs (off + 6)
  let words := bits size 16 8
  (List.range (bits size 0 16)).map fun i =>
    (off, .row (bits tbl 0 8) (bits tbl 8 8) (first + i) words
      ((List.range words).map fun k => word (imageWord bs (off + 9 + 3 * (i * words + k)))))

/-- n table blocks from an offset within an image that ends at stop: the rows and the offset behind them; none for a block
that does not fit or holds no row. A block of ROWS 0, outside Table 4.11's 1 to 65,535, fails as layout does, with RESULT 5
and before the CRC (DESIGN CHOICE, log entry 51: the spec names no result for it). -/
def imageBlocks (bs : List Byte) (stop : Nat) : Nat → Nat → Option (List (Nat × ImageOp) × Nat)
  | 0, off => some ([], off)
  | n + 1, off =>
    let size := imageWord bs (off + 6)
    let next := off + 9 + 3 * bits size 16 8 * bits size 0 16
    if bits size 0 16 = 0 ∨ next > stop then none
    else match imageBlocks bs stop n next with
      | none => none
      | some (rows, last) => some (blockRows bs off ++ rows, last)

/-- The records and rows of an image in the order of R129; none when they and the padding do not fill LENGTH - 4 bytes. -/
def imageOps (bs : List Byte) : Option (List (Nat × ImageOp)) :=
  let len := imageWord bs 6
  let nrec := imageWord bs 9
  if len % 16 ≠ 0 ∨ len < 32 ∨ 18 + 6 * nrec > len - 4 then none
  else match imageBlocks bs (len - 4) (imageWord bs 12) (18 + 6 * nrec) with
    | none => none
    | some (rows, last) =>
      if last + 15 < len - 4 ∨ (slice bs last (len - 4 - last)).any (· != 0) then none
      else some (imageRecords bs nrec 18 ++ rows)

/-- An image being applied: the loader's write shadow, the state, and how many were applied and clamped. -/
structure ImageRun where
  staged : List (Nat × Word)
  state : State
  applied : Nat
  clamped : Nat

/-- One record or row as a management port write: its RESULT and the run after it (R129). -/
def imageStep (op : ImageOp) (x : ImageRun) : Nat × ImageRun :=
  match op with
  | .param id v =>
    let r := paramPut true x.staged id v x.state
    (r.1, ⟨r.2.1, r.2.2, x.applied + 1, x.clamped + if r.1 = 1 then 1 else 0⟩)
  | .row table inst r words ws =>
    match tableInfo table (blockTableRows x.state) with
    | none => (3, x)
    | some t =>
      if r ≥ t.rows ∨ inst ≥ t.insts ∨ words ≠ t.words then (4, x)
      else
        let res := rowPut true 2 table inst r t.words ws x.state
        (res.1, ⟨x.staged, res.2, x.applied + 1, x.clamped + if res.1 = 1 then 1 else 0⟩)

/-- Apply operations until one ends with DENIED, UNKNOWN or RANGE, or the buffer fails after a number of them: the offset
and RESULT of the load where it stops (R131). -/
def imageRun (ecc : Option Nat) : List (Nat × ImageOp) → ImageRun → ImageRun × Option (Nat × Nat)
  | [], x => (x, none)
  | (off, op) :: rest, x =>
    if ecc = some x.applied then (x, some (off, 6))
    else
      let r := imageStep op x
      if r.1 ≥ 2 then (x, some (off, 5)) else imageRun ecc rest r.2

/-- The checks of R128 in order: RESULT, and the offset of the first failing record for check 6. -/
def imageVerdict (bs : List Byte) (s : State) : Nat × Nat :=
  let none_ := 0xFFFFFF
  let ver := imageWord bs 3
  let len := imageWord bs 6
  if imageWord bs 0 ≠ 0x5A4552 then (1, none_)
  else if bits ver 16 8 ≠ 1 ∨ bits ver 8 8 ≠ 1 ∨ bits ver 0 8 > 0 then (2, none_)
  else if len > 262144 then (3, none_)
  else if bs.length < len then (6, none_)
  else match imageOps bs with
    | none => (5, none_)
    | some ops =>
      if leNat (slice bs (len - 4) 4) ≠ crc32 (bs.take (len - 4)) then (4, none_)
      else match (imageRun none ops ⟨[], s, 0, 0⟩).2 with
        | some (off, r) => (r, off)
        | none => (0, none_)

/-- A load ends (R132): DONE, RESULT, source 22, M_FAULT.IMAGE unless RESULT is 0; held channels resume; the first good
load closes the start-up window (R571). -/
def imageDone (result failAt applied clamped : Nat) (s : State) : State :=
  let s1 := setPw 0x010003 applied (setPw 0x010004 clamped (setPw 0x010005 failAt s))
  let s2 := raise 0 22 (unyield { s1 with image := { fromStore := s1.image.fromStore, done := true, result := result } })
  if result ≠ 0 then setMFault 8 0 31 0 0 false s2 else closeWindow s2

/-- The source of an image can be read now: a reserved area needs MEDIUM 3 or 4, host memory the HOST link of channel 0,
and both the transfer island (R124, R128). -/
def sourceOpen (fromStore : Bool) (s : State) : Bool :=
  !fenced s 19 && (if fromStore then s.store.medium == 3 || s.store.medium == 4
    else canIssue s (bits (chan s 0).ctl 16 2))

/-- The bytes of the source: the reserved area, or host memory at channel 0's SRC; none for a source that cannot be read
and for a read error of the host or of the store area (R124, R128). -/
def imageSource (fromStore : Bool) (r : HostRead) (areaBad : Bool) (s : State) : Option (List Byte) :=
  if !sourceOpen fromStore s then none
  else if fromStore then
    (if areaBad then none else some (areaRead s 0 (min 0x40000 (max 32 (leNat (areaRead s 6 3))))))
  else match r with
    | .data bs => some bs
    | _ => none

/-- Every running channel stops issuing reads and closes its data (R126). -/
def yieldChannels (s : State) : State :=
  forAll 16 (fun c s => if (chan s c).busy then chanSettle c (modChan c (fun x => { cutBurst x with yielded := true }) s)
    else s) s

/-- A write of M_IMAGE_CMD with LOAD 1 (R124 to R128, R549). The image is read and judged here, before the held channels
have drained (DESIGN CHOICE, log entry 51). -/
def imageStart (fromStore : Bool) (r : HostRead) (areaBad : Bool) (s : State) : State :=
  if s.image.load ∨ s.safety.safe then s
  else
    let s0 := { s with image := { s.image with fromStore := fromStore } }
    if (chan s 0).busy then imageDone 7 0xFFFFFF 0 0 s0
    else
      let s1 := yieldChannels s0
      let (bytes, verdict, failAt) := match imageSource fromStore r areaBad s1 with
        | none => ([], 6, 0xFFFFFF)
        | some bs => (bs, imageVerdict bs s1)
      { s1 with image := { load := true, fromStore := fromStore, done := s1.image.done, result := s1.image.result,
                           bytes := bytes, verdict := verdict, failAt := failAt } }

/-- Some channel held by the load has not yet closed its data (R126). -/
def undrained (s : State) : Bool := s.chans.any fun e => e.2.busy && e.2.yielded && (e.2.reads != [] || e.2.wrote || e.2.piece.isSome)

/-- IMAGE_LOAD_END: the image is applied, up to a record at which the buffer fails, if it does (R129 to R132). -/
def imageLoadEndEffect (ecc : Option Nat) (s : State) : State :=
  if !s.image.load ∨ undrained s then s
  else if s.image.verdict ≠ 0 then imageDone s.image.verdict s.image.failAt 0 0 s
  else if !sourceOpen s.image.fromStore s then imageDone 6 0xFFFFFF 0 0 s
  else
    let ops := (imageOps s.image.bytes).getD []
    let out := imageRun ecc ops ⟨[], s, 0, 0⟩
    let s1 := out.1.state
    match out.2 with
    | none => imageDone 0 0xFFFFFF out.1.applied out.1.clamped s1
    | some (off, r) =>
      let s2 := if r = 6 then setMFault 3 21 31 0x68 0 false s1 else s1
      imageDone r off out.1.applied out.1.clamped s2

/-- IMAGE_LOAD_END. -/
def execImageLoadEnd (ecc : Option Nat) (s : State) : Host.Outcome State Fault Refusal := live (imageLoadEndEffect ecc) s

end Sys2Proof.Machine
end

