-- ==== Sys2Proof/Machine/Windows.lean ====
section
/-! DEFINITION. The register windows (chapters 2 and 3): every register of M and of T0 to T3 as it reads, what reading it
does, and what writing it does. -/

set_option Elab.async false

namespace Sys2Proof.Machine

/-! ### Which channel and group an offset names -/

/-- The channel that shows at +0x29 to +0x31 of window w; none while T_STATUS.CHAN_V is 0 (R94). -/
def selChan (s : State) (w : Nat) : Option Nat :=
  if w = 0 then some (win s 0).xferCh
  else match tenantPair s (w - 1) with
    | some p => some (8 + 2 * p + (win s w).xferCh % 2)
    | none => none

/-- Window w owns channel c (R88, R396). -/
def ownsChan (s : State) (w c : Nat) : Bool :=
  match chanOwner s c with
  | .mgmt => w == 0
  | .tenant t => w == t + 1
  | .pairing => false

/-- The anchored group and word of an offset: 0 XFER_SRC, 1 XFER_DST, 2 CANOPY_BASE, 3 M_PERF (Table 2.4). -/
def groupAt (w off : Nat) : Option (Nat × Nat) :=
  if 0x29 ≤ off ∧ off ≤ 0x2B then some (0, off - 0x29)
  else if 0x2C ≤ off ∧ off ≤ 0x2E then some (1, off - 0x2C)
  else if 0x35 ≤ off ∧ off ≤ 0x37 then some (2, off - 0x35)
  else if w = 0 ∧ 0x25 ≤ off ∧ off ≤ 0x26 then some (3, off - 0x25)
  else none

/-- The counter that M_PERF_SEL selects (Table 3.14). -/
def perfValue (s : State) : Nat :=
  if s.mgmt.perfSel = 0 then s.time.fixed
  else if s.mgmt.perfSel ≤ 8 then tget s.perf.cnt (s.mgmt.perfSel - 1) 0 else 0

/-- The current value of a group; none where it is unmapped. -/
def groupValue (s : State) (w g : Nat) : Option Nat :=
  match g with
  | 0 => (selChan s w).map fun c => (chan s c).src
  | 1 => (selChan s w).map fun c => (chan s c).dst
  | 2 => some (win s w).canopyBase
  | _ => some (perfValue s)

/-- A write to a group is not ignored: the window owns the channel and neither it nor the Canopy operation is busy; M_PERF
is read only (R58, R77, R88). -/
def groupOpen (s : State) (w g : Nat) : Bool :=
  match g with
  | 2 => !(win s w).canopyBusy
  | 3 => false
  | _ => match selChan s w with
    | some c => ownsChan s w c && !chanBusy s c
    | none => false

/-- The shadows of a group on a path (R56): path 0 is the control bus, 1 BAR0. -/
def shadow (s : State) (w path g : Nat) : Shadow := tget (win s w).shadows (4 * path + g) {}

/-- s with the shadows of a group on a path changed. -/
def modShadow (w path g : Nat) (f : Shadow → Shadow) (s : State) : State :=
  modWin w (fun x => { x with shadows := tmod x.shadows (4 * path + g) {} f }) s

/-! ### Reading a register -/

/-- Seconds, nanoseconds and fraction as W0 to W3 (Table 3.14). -/
def timeWords (dev : Nat) : Word × Word × Word × Word :=
  let ns := dev / 65536 % 1000000000
  let sec := dev / 65536 / 1000000000
  (word (dev % 65536 + ns % 256 * 65536), word (ns / 256), word sec, word (sec / 2 ^ 24))

/-- The time W0 to W3 hold, in 2^-16 ns; none for nanoseconds of 1,000,000,000 or more (R306). -/
def wordsTime (x : Win) : Option Nat :=
  let ns := bits x.w0.toNat 16 8 + 256 * bits x.w1.toNat 0 22
  if ns ≥ 1000000000 then none
  else some (((x.w2.toNat + x.w3.toNat * 2 ^ 24) * 1000000000 + ns) * 65536 + bits x.w0.toNat 0 16)

/-- M_STATUS (Table 3.4). -/
def mStatus (s : State) : Nat :=
  flag (tReady s 0) 8 + flag (tReady s 1) 9 + flag (tReady s 2) 10 + flag (tReady s 3) 11 + flag s.safety.safe 7
    + pstate s * 32 + s.pair.role * 4 + flag (degraded s) 1 + flag s.start.ready 0

/-- T_STATUS of tenant t (Table 3.24). -/
def tStatus (s : State) (t : Nat) : Nat :=
  (match tenantPair s t with
    | some p => p * 256 + 128
    | none => 0)
    + flag (ten s t).stopped 6 + flag ((ten s t).fault != 0) 5 + s.pair.role * 4 + flag (degraded s) 1
    + flag (tReady s t) 0

/-- M_TENANT_STAT of tenant t (Table 3.18). -/
def tenantStat (s : State) (t : Nat) : Nat :=
  let x := ten s t
  x.lost * 64 + flag (x.fault.getLsbD 0) 5 + flag (link s t).perst 4 + flag (linkUp s t) 3 + flag (x.fault != 0) 2
    + flag (x.inReset || tenantHeld s t) 1 + flag (tReady s t) 0

/-- M_SAFETY_STAT (Table 3.20). -/
def safetyStat (s : State) : Nat :=
  let x := s.safety
  flag x.lifeAlarm 6 + flag x.fttiMiss 4 + flag x.testFail 3 + flag x.safe 2 + flag x.scPass 1 + flag x.scDone 0

/-- M_IRQ_CFG or T_IRQ_CFG (Table 3.12). -/
def irqCfg (s : State) (w : Nat) : Nat :=
  flag (sources.any fun n => bitOf (srcRow s w n) 7) 3
    + flag (sources.any fun n => bitOf (srcRow s w n) 23 && bitOf (srcRow s w n) 6) 2
    + flag (win s w).msiEn 1 + flag (win s w).pinEn 0

/-- M_LOCK_OP or T_LOCK_OP (Table 3.13). -/
def lockStat (s : State) (w : Nat) : Nat :=
  let k := (win s w).lockSel
  let l := lock s k
  flag ((win s w).lastOk.getLsbD k) 7 + flag l.broken 6 + flag (l.owner.isSome && l.owner != some w) 5
    + flag (l.owner == some w) 4

/-- M_CANOPY_STAT or T_CANOPY_STAT (Table 3.17). -/
def canopyStat (s : State) (w : Nat) : Nat :=
  let x := win s w
  x.canopyErr * 16 + flag x.canopyOverrun 3 + flag x.canopyError 2 + flag x.canopyDone 1 + flag x.canopyBusy 0

/-- The registers that M and T windows share (R89). -/
def peekCommon (w off : Nat) (s : State) : Nat :=
  let x := win s w
  match off with
  | 0x00 => 0x5A3224
  | 0x01 => 0x010000
  | 0x08 => x.paramId.toNat
  | 0x09 => x.paramData.toNat
  | 0x0A => opStat s x.pstat
  | 0x0C => x.tblId
  | 0x0D => x.tblRow.toNat
  | 0x0E => x.tblWord
  | 0x0F => (tblDataRead s w).toNat
  | 0x10 => opStat s x.tstat
  | 0x14 => claimValue s w 3
  | 0x16 => irqCfg s w
  | 0x18 => x.lockSel
  | 0x19 => lockStat s w
  | 0x1C => x.w0.toNat
  | 0x1D => x.w1.toNat
  | 0x1E => x.w2.toNat
  | 0x1F => x.w3.toNat
  | 0x20 => flag x.timeValid 9 + flag x.timeBusy 8
  | 0x28 => if (selChan s w).isSome then x.xferCh else 0
  | 0x2F => ((selChan s w).map fun c => (chan s c).count).getD 0
  | 0x30 => ((selChan s w).map fun c => ctlRead s c).getD 0
  | 0x31 => ((selChan s w).map fun c => chanStat s c).getD 0
  | 0x38 => x.canopyLen.toNat
  | 0x39 => canopyStat s w
  | _ => 0

/-- A register of window Tt; a word of an anchored group is that of the current value (R95). -/
def peekT (t off : Nat) (s : State) : Nat :=
  match groupAt (t + 1) off with
  | some (g, k) => (wordOf ((groupValue s (t + 1) g).getD 0) k).toNat
  | none =>
    let x := ten s t
    match off with
    | 0x02 => tStatus s t
    | 0x03 => flag x.selfReset 1 + flag x.engineEn 0
    | 0x04 => x.lost * 2 ^ 20 + x.fault.toNat
    | 0x05 => x.detail.toNat
    | 0x42 => x.ringSel
    | 0x43 => ((selRing s t).map fun r => ringCtl s t r).getD 0
    | 0x44 => ((selRing s t).map fun r => ringStat s t r).getD 0
    | _ => peekCommon (t + 1) off s

/-- A register of the M window (Table 3.2). -/
def peekM (off : Nat) (s : State) : Nat :=
  match groupAt 0 off with
  | some (g, k) => (wordOf ((groupValue s 0 g).getD 0) k).toNat
  | none =>
    let t := s.mgmt.selTenant
    match off with
    | 0x02 => mStatus s
    | 0x03 => flag s.mgmt.trim 3 + flag s.mgmt.sleep 2 + flag s.mgmt.mgmtReset 1
    | 0x04 => s.mgmt.fault.toNat
    | 0x05 => s.mgmt.detail.toNat
    | 0x06 => s.mgmt.scratch.toNat
    | 0x24 => s.mgmt.perfSel
    | 0x3C => s.mgmt.selOffset * 256 + t
    | 0x3D => flag (ten s t).reset 1 + flag (ten s t).enable 0
    | 0x3E => tenantStat s t
    | 0x3F => peekT t s.mgmt.selOffset s
    | 0x45 => pairStat s
    | 0x48 => safetyStat s
    | 0x4D => storeStat s
    | 0x50 => s.image.result * 512 + flag s.image.done 8 + flag s.image.fromStore 1 + flag s.image.load 0
    | _ => peekCommon 0 off s

/-- A register of window w as it stands. -/
def peek (w off : Nat) (s : State) : Word := word (if w = 0 then peekM off s else peekT (w - 1) off s)

/-- Window w answers an access as its registers say, not as R72 does before READY and R575 for a held tenant. -/
def winOpen (s : State) (w : Nat) : Bool :=
  s.start.ready && (w == 0 || !((ten s (w - 1)).inReset && tenantHeld s (w - 1)))

/-- A register that reads before READY (R72). -/
def earlyRead (w off : Nat) : Bool := off ≤ 2 || (w == 0 && off == 6)

/-- The value a read of window w returns on a path: an anchor gives the current value, the other words of its group the
path's read shadow (R57). -/
def readValue (w path off : Nat) (s : State) : Word :=
  if !winOpen s w && !earlyRead w off then 0
  else match groupAt w off with
    | some (g, k) =>
      if (groupValue s w g).isNone then 0
      else if k = 0 then peek w off s else wordOf (shadow s w path g).rd k
    | none => if off = 0x14 then word (claimValue s w (BitVec.ofNat 2 (2 ^ path))) else peek w off s

/-- What a read does: an anchor latches its group (R57), M_CLAIM claims, M_TBL_DATA advances M_TBL_WORD. ecc says that
the interrupt controller's memory was found in error (memory 0x080 + w). -/
def readEffect (w path off : Nat) (ecc : Bool) (s : State) : State :=
  if !winOpen s w then s
  else match groupAt w off with
    | some (g, k) => match groupValue s w g with
      | some v => if k = 0 then modShadow w path g (fun x => { x with rd := v }) s else s
      | none => s
    | none =>
      if off = 0x14 then claimEffect w path (if ecc then eccIrq w (0x080 + w) 0 s else s)
      else if off = 0x0F then tblAdvance w s
      else s

/-! ### Writing a register -/

/-- What a command carries beside the word it writes: what the medium shows, the image's host read, whether the memory it
reads was found in error, the reserved area's codewords included, and whether the copy of the non-volatile record that it
writes fails its test. -/
structure Extra where
  disc : Discovery := .absent
  host : HostRead := .ur
  ecc : Bool := false
  areaBad : Bool := false
  cause : Option Nat := none
  nvBad : Bool := false
  deriving DecidableEq, Repr

/-- A write to a word of an anchored group (R58, R60): a non-anchor word goes into the write shadow; the anchor commits it
with the shadow. -/
def groupWrite (w path g k : Nat) (d : Word) (s : State) : State :=
  if !groupOpen s w g then s
  else if k ≠ 0 then
    modShadow w path g (fun x => { x with wr := putBits x.wr (24 * k) (if k = 2 then 16 else 24) d.toNat }) s
  else
    let v := (shadow s w path g).wr / 2 ^ 24 * 2 ^ 24 + d.toNat
    match g, selChan s w with
    | 0, some c => modChan c (fun x => { x with src := v }) s
    | 1, some c => modChan c (fun x => { x with dst := v }) s
    | 2, _ => modWin w (fun x => { x with canopyBase := v }) s
    | _, _ => s

/-- OP 1 of a parameter port finds an uncorrectable error in the item: its consequence, and M_PARAM_DATA is a free value
(assumption 5) whose reserved bits are 0 (R3). -/
def paramReadHit (w : Nat) (s : State) : State :=
  let id := (win s w).paramId.toNat
  if (paramInfo id).isNone ∨ !mayRead w id then paramReadOp w s
  else
    let s1 := paramReadOp w (eccParam id s)
    drawn (modWin w (fun x => { x with paramData := itemWord id (freeNat s1) }) s1)

/-- The tables whose consequence of an uncorrectable error leaves a row's content undefined (Table 18.2). -/
def rowLost (table : Nat) : Bool := table == 0x01 || table == 0x06 || table == 0x08 || table == 0x0D || table == 0x0F

/-- OP 1 of a table port finds an uncorrectable error in the row; where its content is undefined the buffer is free but
for the reserved bits of the row, which are 0 (R3). -/
def tableReadHit (w : Nat) (s : State) : State :=
  match tableAddress s w with
  | .inl res => tableBusy w res s
  | .inr (table, inst, r, t) =>
    if w ≠ 0 ∧ !tenantReadsTable table then tableBusy w 2 s
    else
      let s1 := tableReadOp w (eccRow table inst r s)
      if rowLost table then
        let bs := freeBytes s1 (3 * t.words)
        drawn (modWin w (fun x => { x with
          buf := (List.range t.words).map fun i => word (leNat (slice bs (3 * i) 3) &&& rowReads table r i) }) s1)
      else s1

/-- A write of M_PARAM_STAT or T_PARAM_STAT. -/
def paramPort_ (w v : Nat) (ecc : Bool) (s : State) : State :=
  if ecc && bits v 0 2 == 1 && !portBusy s (win s w).pstat then
    paramReadHit w (if bitOf v 7 then modWin w (fun x => { x with pstat := { x.pstat with overrun := false } }) s else s)
  else paramStatWrite w v s

/-- A write of M_TBL_CMD or T_TBL_CMD. -/
def tablePort (w v : Nat) (ecc : Bool) (s : State) : State :=
  if ecc && bits v 0 2 == 1 && !portBusy s (win s w).tstat then
    tableReadHit w (if bitOf v 7 then modWin w (fun x => { x with tstat := { x.tstat with overrun := false } }) s else s)
  else tblCmdWrite w v s

/-- W0 to W3 of window w hold a time. -/
def loadTime (w dev : Nat) (valid : Bool) (s : State) : State :=
  let (a, b, c, d) := timeWords dev
  modWin w (fun x => { x with w0 := a, w1 := b, w2 := c, w3 := d, timeValid := valid, timeBusy := true }) s

/-- OP of M_TIME_CMD or T_TIME_CMD (R305, R306): a T window has OP 1 to 4 only (R90). -/
def timeOp (w op : Nat) (s : State) : State :=
  let x := win s w
  let busy := modWin w (fun x => { x with timeBusy := true })
  if op = 1 then loadTime w s.time.dev true s
  else if 2 ≤ op ∧ op ≤ 4 then
    let e := op - 2
    let s1 := loadTime w (tget s.time.cap e (0, 0)).1 (x.capNew.getLsbD e) s
    modWin w (fun x => { x with capNew := x.capNew &&& ~~~BitVec.ofNat 3 (2 ^ e) }) s1
  else if w = 0 ∧ 8 ≤ op ∧ op ≤ 10 then
    match wordsTime x with
    | none => busy s
    | some v =>
      busy (timeChange (if op = 8 then v else if op = 9 then s.time.dev + v else s.time.dev - v) s)
  else s

/-- A write of M_LOCK_OP or T_LOCK_OP; ecc: an uncorrectable error in the lock states (memory 0x088). -/
def lockWrite (w op : Nat) (ecc : Bool) (s : State) : State :=
  lockOp w (win s w).lockSel op (if ecc then eccMark 0x088 0 0 true s else s)

/-- A write to a register that M and T windows share. -/
def writeCommon (x : Extra) (w off : Nat) (d : Word) (s : State) : State :=
  let v := d.toNat
  let y := win s w
  match off with
  | 0x08 => if portBusy s y.pstat then s else modWin w (fun x => { x with paramId := d }) s
  | 0x09 => if portBusy s y.pstat then s else modWin w (fun x => { x with paramData := d }) s
  | 0x0A => paramPort_ w v x.ecc s
  | 0x0C => modWin w (fun x => { x with tblId := v % 65536 }) s
  | 0x0D => modWin w (fun x => { x with tblRow := d }) s
  | 0x0E => if portBusy s y.tstat then s else modWin w (fun x => { x with tblWord := v % 256 }) s
  | 0x0F => tblDataWrite w d s
  | 0x10 => tablePort w v x.ecc s
  | 0x15 => completeEffect w (bits v 0 6) s
  | 0x16 => modWin w (fun x => { x with pinEn := bitOf v 0, msiEn := w != 0 && bitOf v 1 }) s
  | 0x18 => modWin w (fun x => { x with lockSel := v % 16 }) s
  | 0x19 => lockWrite w (bits v 0 2) x.ecc s
  | 0x20 => timeOp w (bits v 0 4) (if x.ecc then eccMark 0x08A 1 0 true s else s)
  | 0x28 => if (selChan s w).isSome then modWin w (fun x => { x with xferCh := if w = 0 then v % 16 else v % 2 }) s else s
  | 0x2F => match selChan s w with
    | some c => if ownsChan s w c && !chanBusy s c then modChan c (fun x => { x with count := v }) s else s
    | none => s
  | 0x30 => match selChan s w with
    | some c => if ownsChan s w c then ctlWrite c v s else s
    | none => s
  | 0x31 => match selChan s w with
    | some c => if ownsChan s w c then chanStatWrite c v s else s
    | none => s
  | 0x34 => canopyOp w (if w = 0 then bits v 4 2 else w - 1) (bits v 0 3) (bitOf v 3) s
  | 0x38 => if y.canopyBusy then s else modWin w (fun x => { x with canopyLen := d }) s
  | 0x39 => modWin w (fun x => { x with
      canopyOverrun := x.canopyOverrun && !bitOf v 3, canopyError := x.canopyError && !bitOf v 2,
      canopyDone := x.canopyDone && !bitOf v 1 }) s
  | _ => s

/-- A write to a register of window Tt. -/
def writeT (x : Extra) (t off : Nat) (d : Word) (s : State) : State :=
  let v := d.toNat
  match off with
  | 0x03 =>
    let s1 := engineWrite t (bitOf v 0) s
    if bits v 16 8 = 0xC3 ∧ bitOf v 1 then tenantResetStart t (modTen t (fun x => { x with selfReset := true }) s1) else s1
  | 0x04 => faultClear t (bits v 0 10) x.cause s
  | 0x40 => txBell t d s
  | 0x41 => rxBell t d s
  | 0x42 => modTen t (fun x => { x with ringSel := v % 256 }) s
  | 0x43 => match selRing s t with
    | some r => ringCtlWrite t r v s
    | none => s
  | 0x44 => match selRing s t with
    | some r => if bitOf v 17 then modRing t r (fun x => { x with flushDone := false }) s else s
    | none => s
  | 0x1C | 0x1D | 0x1E | 0x1F => s
  | _ => writeCommon x (t + 1) off d s

/-- DEV_RESET with its KEY (Table 3.6, R568). -/
def devResetSet (v : Nat) : Bool := bits v 16 8 == 0xC3 && bitOf v 0

/-- A write of M_CONTROL (Table 3.6, R85): TRIM needs no KEY; a device reset comes alone; a keyed SLEEP that R516 bars makes
the whole write nothing. -/
def controlWrite (x : Extra) (v : Nat) (s : State) : State :=
  if devResetSet v then internalReset s
  else if bits v 16 8 = 0xC3 ∧ bitOf v 2 ∧ sleepBarred s then s
  else
    let s1 := trimWrite (bitOf v 3) s
    if bits v 16 8 ≠ 0xC3 then s1
    else
      let s2 := if bitOf v 1 then mgmtResetStart s1 else s1
      if bitOf v 2 then sleepEntry (!x.nvBad) s2 else s2

/-- ENABLE of tenant t written 0: it is held in tenant reset (R158). -/
def tenantDisable (t : Nat) (s : State) : State :=
  tenantResetStart t { modTen t (fun x => { x with enable := false }) s with
    start := { s.start with early := s.start.early &&& ~~~BitVec.ofNat 4 (2 ^ t) } }

/-- ENABLE of tenant t written 1: it leaves a reset that ENABLE or the start-up window held and nothing else holds (R158,
R572). -/
def tenantEnable (t : Nat) (s : State) : State :=
  let s1 := modTen t (fun x => { x with enable := true }) s
  let s2 := if s.start.window then
      { s1 with start := { s1.start with early := s1.start.early ||| BitVec.ofNat 4 (2 ^ t) } } else s1
  if tenantHeld s t && !tenantHeld s2 t then tenantResetEnd t s2 else s2

/-- A write of M_TENANT_CTL for tenant t (Table 3.18). -/
def tenantCtlWrite (t v : Nat) (s : State) : State :=
  let s1 := if bitOf v 0 then tenantEnable t s else tenantDisable t s
  let s2 := if bitOf v 1 then tenantResetStart t (modTen t (fun x => { x with reset := true }) s1) else s1
  if bitOf v 2 then tenantFault t 9 0 false 0 0 0 0 s2 else s2

/-- A write to a register of the M window. -/
def writeM (x : Extra) (off : Nat) (d : Word) (s : State) : State :=
  let v := d.toNat
  let t := s.mgmt.selTenant
  match off with
  | 0x03 => controlWrite x v s
  | 0x04 => { s with mgmt := { s.mgmt with fault := s.mgmt.fault &&& ~~~BitVec.ofNat 12 v } }
  | 0x06 => { s with mgmt := { s.mgmt with scratch := d } }
  | 0x1C => if (win s 0).timeBusy then s else modWin 0 (fun x => { x with w0 := d }) s
  | 0x1D => if (win s 0).timeBusy then s else modWin 0 (fun x => { x with w1 := word (v % 2 ^ 22) }) s
  | 0x1E => if (win s 0).timeBusy then s else modWin 0 (fun x => { x with w2 := d }) s
  | 0x1F => if (win s 0).timeBusy then s else modWin 0 (fun x => { x with w3 := d }) s
  | 0x24 => { s with mgmt := { s.mgmt with perfSel := v % 16 } }
  | 0x3C => { s with mgmt := { s.mgmt with selOffset := bits v 8 8, selTenant := v % 4 } }
  | 0x3D => tenantCtlWrite t v s
  | 0x44 => pairCommand (bits v 0 3) s
  | 0x45 => if bitOf v 7 then modPair (fun x => { x with alarm := false }) s else s
  | 0x48 => modSafety (fun x => { x with
      lifeAlarm := x.lifeAlarm && !bitOf v 6, fttiMiss := x.fttiMiss && !bitOf v 4,
      testFail := x.testFail && !bitOf v 3 }) s
  | 0x49 => safetyCommand v (if x.ecc then eccMark 0x089 24 0 true s else s)
  | 0x4C => storeCommand (bits v 0 4) (bits v 4 6) (bits v 16 8) x.disc s
  | 0x4D => modStore (fun x => { x with
      overrun := x.overrun && !bitOf v 11, error := x.error && !bitOf v 2, done := x.done && !bitOf v 1 }) s
  | 0x50 =>
    let s1 := { s with image := { s.image with done := s.image.done && !bitOf v 8, fromStore := bitOf v 1 } }
    if bitOf v 0 then imageStart (bitOf v 1) x.host x.areaBad s1 else s1
  | _ => writeCommon x 0 off d s

/-- A write of word d to an offset of window w on a path. Before READY only M_SCRATCH is written (R72); asleep, DEV_RESET
acts as well (R519). -/
def regWrite (x : Extra) (w path off : Nat) (d : Word) (s : State) : State :=
  if !winOpen s w then
    if w = 0 ∧ off = 6 then { s with mgmt := { s.mgmt with scratch := d } }
    else if w = 0 ∧ off = 3 ∧ s.power.asleep ∧ devResetSet d.toNat then internalReset s
    else s
  else match groupAt w off with
    | some (g, k) => groupWrite w path g k d s
    | none => if w = 0 then writeM x off d s else writeT x (w - 1) off d s

end Sys2Proof.Machine
end

