-- ==== Sys2Proof/Machine/Bus.lean ====
section
/-! DEFINITION. The control bus's handshake and its events (chapter 2), requests to BAR0 (R98 to R103), and the meanings of
the commands that read or write one register. -/

set_option Elab.async false

namespace Sys2Proof.Machine

/-! ### The control bus -/

/-- A strobe without a grant (R51). -/
def jam (s : State) : State := setMFault 2 0 31 0 0 false s

/-- An access is refused with CB_ERR_N; after READY it is counted, recorded and reported (R41, R43). -/
def refuse (m cause : Nat) (read : Bool) (addr : Nat) (s : State) : State :=
  let s1 := modBus (fun b => { b with ack := some (true, s.clk) }) s
  if s.start.ready then
    raise 0 7 (setPw (0x020004 + 256 * m) (cause * 2 ^ 22 + flag read 8 + addr) (bumpParam (0x020002 + 256 * m) 1 s1))
  else s1

/-- An access is acknowledged with CB_ACK_N; on a read the device drives the word and its parity (R40). -/
def acknowledge (data : Option Word) (s : State) : State :=
  modBus (fun b => { b with ack := some (false, s.clk), dataOut := data.map fun v => (v, parOf v) }) s

/-- The parity check that an access fails: 1 address, 2 write data, 0 none (R39, R43). -/
def parityCause (read : Bool) (addr : BitVec 8) (apar : Bool) (data : Word) (par : BitVec 3) : Nat :=
  if apar != aparOf addr read then 1 else if !read && par != parOf data then 2 else 0

/-- What a read that finds an uncorrectable error in the counter M_PERF_SEL selects does to it before it is read (R470). -/
def counterHit (m off : Nat) (ecc : Bool) (s : State) : State := 
  if ecc && m == 0 && off == 0x25 && winOpen s 0 then eccCounter s else s

/-- One access on the control bus, up to its acknowledge: the grant selects the window (R34). -/
def cbAccess (x : Extra) (read : Bool) (addr : BitVec 8) (apar : Bool) (data : Word) (par : BitVec 3) (s : State) :
    State :=
  if !busLive s then s
  else match s.bus.grant with
    | none => jam s
    | some m =>
      let cause := parityCause read addr apar data par
      if s.bus.ack.isSome then s
      else if cause ≠ 0 then refuse m cause read addr.toNat s
      else if read then
        let s1 := counterHit m addr.toNat x.ecc s
        readEffect m 0 addr.toNat x.ecc (acknowledge (some (readValue m 0 addr.toNat s1)) s1)
      else regWrite x m 0 addr.toNat data (acknowledge none s)

/-- CB_REQUEST: master m asserts its request (R44 to R46). -/
def cbRequestEffect (m : Nat) (s : State) : State :=
  let over1 := match s.bus.offAt.find? (fun e => e.1 == m) with
    | some (_, off) => decide (s.clk ≥ off + us 1)
    | none => false
  arbitrate (modBus (fun b => { b with
    req := b.req ||| BitVec.ofNat 5 (2 ^ m), offAt := b.offAt.filter (fun e => e.1 != m),
    ignored := if over1 then b.ignored &&& ~~~BitVec.ofNat 5 (2 ^ m) else b.ignored }) s)

/-- CB_REQUEST. -/
def execCbRequest (m : Fin 5) (s : State) : Host.Outcome State Fault Refusal := live (cbRequestEffect m) s

/-- CB_REQUEST_RELEASE: master m deasserts its request; its grant ends once no handshake is in progress (R46). -/
def cbRequestReleaseEffect (m : Nat) (s : State) : State :=
  let s1 := modBus (fun b => { b with
    req := b.req &&& ~~~BitVec.ofNat 5 (2 ^ m),
    offAt := if b.ignored.getLsbD m && b.req.getLsbD m then tput b.offAt m s.clk else b.offAt }) s
  if s1.bus.grant = some m ∧ s1.bus.ack.isNone then dropGrant s1 else s1

/-- CB_REQUEST_RELEASE. -/
def execCbRequestRelease (m : Fin 5) (s : State) : Host.Outcome State Fault Refusal := live (cbRequestReleaseEffect m) s

/-- TENURE_LIMIT: the tenure reaches its limit; a handshake in progress completes first (R47). -/
def tenureLimitEffect (s : State) : State :=
  match s.bus.grant with
  | none => s
  | some m =>
    let s1 := waitUntil (s.bus.grantAt + us s.bus.limit) s
    if s1.bus.ack.isNone then revoke m false s1
    else if s1.bus.ending = .disable then s1
    else modBus (fun b => { b with ending := .revoke }) s1

/-- TENURE_LIMIT. -/
def execTenureLimit (s : State) : Host.Outcome State Fault Refusal := live tenureLimitEffect s

/-- HELD_STROBE: the strobe outlasts the acknowledge by 1 µs (R48). -/
def heldStrobeEffect (s : State) : State :=
  match s.bus.grant, s.bus.ack with
  | some m, some (_, at0) => revoke m true (waitUntil (at0 + us 1) s)
  | _, _ => s

/-- HELD_STROBE. -/
def execHeldStrobe (s : State) : Host.Outcome State Fault Refusal := live heldStrobeEffect s

/-- CB_REQ_HOLDOFF_END: a revoked master's request has stayed deasserted for 1 µs (R49). -/
def cbReqHoldoffEndEffect (m : Nat) (s : State) : State :=
  match s.bus.offAt.find? (fun e => e.1 == m) with
  | none => s
  | some (_, off) =>
    arbitrate (modBus (fun b => { b with
      ignored := b.ignored &&& ~~~BitVec.ofNat 5 (2 ^ m), offAt := b.offAt.filter (fun e => e.1 != m) })
      (waitUntil (off + us 1) s))

/-- CB_REQ_HOLDOFF_END. -/
def execCbReqHoldoffEnd (m : Fin 5) (s : State) : Host.Outcome State Fault Refusal := live (cbReqHoldoffEndEffect m) s

/-- CB_JAM: a strobe while no grant is asserted (R51). -/
def cbJamEffect (s : State) : State := if busLive s && s.bus.grant.isNone then jam s else s

/-- CB_JAM. -/
def execCbJam (s : State) : Host.Outcome State Fault Refusal := live cbJamEffect s

/-- CB_STROBE_DEASSERT: the handshake ends, and with it a tenure that is over: a strobe held for more than 1 µs, a limit
reached, CB_ENABLE at 0, or a request withdrawn (R38, R47, R48, R50, R599). -/
def cbStrobeDeassertEffect (s : State) : State :=
  match s.bus.grant, s.bus.ack with
  | some m, some (_, at0) =>
    if s.clk > at0 + us 1 then revoke m true s
    else match s.bus.ending with
      | .revoke => revoke m false s
      | .disable => dropGrant s
      | .none =>
        if s.bus.req.getLsbD m then modBus (fun b => { b with ack := none, dataOut := none }) s else dropGrant s
  | _, _ => s

/-- CB_STROBE_DEASSERT. -/
def execCbStrobeDeassert (s : State) : Host.Outcome State Fault Refusal := live cbStrobeDeassertEffect s

/-! ### BAR0 -/

/-- The order in which the words first to first + n - 1 of one request are written: ascending, but the anchor of a group
the request wholly covers comes last in its group (R102). -/
def bar0Order (first n : Nat) : List Nat :=
  let covered := fun (a : Nat) => decide (first ≤ a) && decide (a + 3 ≤ first + n)
  ((List.range n).map (first + ·)).flatMap fun w =>
    if (w = 0x29 ∨ w = 0x2C ∨ w = 0x35) ∧ covered w then []
    else if (w = 0x2B ∨ w = 0x2E ∨ w = 0x37) ∧ covered (w - 2) then [w, w - 2]
    else [w]

/-- A read of the words from w: the dwords it returns and the state after it (R99, R100). -/
def bar0Read (ecc : Bool) (t : Nat) : Nat → Nat → State → List Dword × State
  | 0, _, s => ([], s)
  | n + 1, w, s =>
    if w > 255 then
      let r := bar0Read ecc t n (w + 1) s
      (0 :: r.1, r.2)
    else
      let v := readValue (t + 1) 1 w s
      let r := bar0Read ecc t n (w + 1) (readEffect (t + 1) 1 w ecc s)
      (BitVec.ofNat 32 v.toNat :: r.1, r.2)

/-- A dword written to word w: bits 23:0, with byte enables 0b1111 or 0b0111 (R99, R101). -/
def bar0Word (x : Extra) (t w : Nat) (d : Dword) (be : BitVec 4) (s : State) : State :=
  if w > 255 ∨ ¬(be = 15 ∨ be = 7) then s else regWrite x (t + 1) 1 w (word d.toNat) s

/-- A request to BAR0 of host link t: Unsupported Request while Memory Space Enable is 0 (R146). -/
def bar0Access (x : Extra) (t : Nat) (read : Bool) (first : Nat) (ds : List (Dword × BitVec 4)) (s : State) : State :=
  if !linkUp s t then s
  else if !(link s t).mse then modLink t (fun l => { l with bar0 := none }) s
  else if read then
    let r := bar0Read x.ecc t ds.length first s
    modLink t (fun l => { l with bar0 := some r.1 }) r.2
  else forEach (bar0Order first ds.length) (fun w s =>
    let e := ds.getD (w - first) (0, 0)
    bar0Word x t w e.1 e.2 s) s

/-! ### One access to one register -/

/-- Who may make an access. -/
inductive Reach where
  | any | mgmt | tenant
  deriving DecidableEq, Repr

/-- The window an access reaches: the grant's on the control bus, Tt through BAR0 (R34, R98). -/
def pathWin (s : State) (p : Path) : Nat :=
  match p with
  | .cb _ _ => s.bus.grant.getD 0
  | .bar0 t _ => t + 1

/-- A register the access cannot be meant for: it lies in windows of the other kind. -/
def offReach (s : State) (k : Reach) (p : Path) : Bool :=
  match k, p with
  | .any, _ => false
  | .mgmt, .cb _ _ => s.bus.grant.isSome && s.bus.grant != some 0
  | .mgmt, .bar0 _ _ => true
  | .tenant, .cb _ _ => s.bus.grant == some 0
  | .tenant, .bar0 _ _ => false

/-- One word access at an offset on a path. -/
def wordAccess (x : Extra) (k : Reach) (p : Path) (read : Bool) (off : Nat) (d : Word) (s : State) : State :=
  if offReach s k p then s
  else match p with
    | .cb apar par => cbAccess x read (BitVec.ofNat 8 off) apar d par s
    | .bar0 t be => bar0Access x t read off [(BitVec.ofNat 32 d.toNat, be)] s

/-- A read. -/
def readAt (x : Extra) (k : Reach) (p : Path) (off : Nat) (s : State) : State := wordAccess x k p true off 0 s

/-- A write of a number. -/
def writeAt (x : Extra) (k : Reach) (p : Path) (off v : Nat) (s : State) : State :=
  wordAccess x k p false off (word v) s

/-- A write of a register's present value with the bits of a mask set and others cleared. -/
def rewriteAt (x : Extra) (k : Reach) (p : Path) (off set clear : Nat) (s : State) : State :=
  let v := (peek (pathWin s p) off s).toNat
  writeAt x k p off ((v ||| set) - (v &&& clear)) s

/-- A write that only the management master makes. -/
def mgmtWrite (x : Extra) (q : CbPar) (off v : Nat) (s : State) : State := writeAt x .mgmt (.cb q.apar q.par) off v s

/-- The anchor's offset of a group (Table 3.2). -/
def groupOff : Group → Nat
  | .xferSrc => 0x29
  | .xferDst => 0x2C
  | .canopyBase => 0x35
  | .perf => 0x25

/-- REGISTER_WRITE: an access of any kind to a window (R63). -/
def registerAccess (a : Access) (s : State) : State :=
  match a with
  | .cb read addr apar data par => cbAccess {} read addr apar data par s
  | .bar0 t read first ds => bar0Access {} t read first ds s

/-- REGISTER_WRITE. -/
def execRegisterWrite (a : Access) (s : State) : Host.Outcome State Fault Refusal := live (registerAccess a) s

/-- ANCHOR_READ (R57); an error that it finds in a counter is R470's. -/
def execAnchorRead (p : Path) (r : GroupRead) (s : State) : Host.Outcome State Fault Refusal :=
  live (readAt { ecc := r.ecc } .any p (groupOff r.group)) s

/-- ANCHOR_WRITE (R58). -/
def execAnchorWrite (p : Path) (g : Group) (d : Word) (s : State) : Host.Outcome State Fault Refusal :=
  live (writeAt {} .any p (groupOff g) d.toNat) s

/-- NON_ANCHOR_WRITE (R58): the middle word of the group, or its high word. -/
def execNonAnchorWrite (p : Path) (g : Group) (high : Bool) (d : Word) (s : State) : Host.Outcome State Fault Refusal :=
  live (writeAt {} .any p (groupOff g + if high then 2 else 1) d.toNat) s

/-- TBL_DATA_ACCESS (R113). -/
def execTblDataAccess (p : Path) (read : Bool) (d : Word) (s : State) : Host.Outcome State Fault Refusal :=
  live (if read then readAt {} .any p 0x0F else writeAt {} .any p 0x0F d.toNat) s

/-- PARAM_READ (R110). -/
def execParamRead (p : Path) (ecc : Bool) (s : State) : Host.Outcome State Fault Refusal :=
  live (writeAt { ecc := ecc } .any p 0x0A 1) s

/-- PARAM_WRITE (R111). -/
def execParamWrite (p : Path) (s : State) : Host.Outcome State Fault Refusal := live (writeAt {} .any p 0x0A 2) s

/-- PARAM_RESERVED_OP (R598). -/
def execParamReservedOp (p : Path) (s : State) : Host.Outcome State Fault Refusal := live (writeAt {} .any p 0x0A 3) s

/-- TABLE_ROW_READ (R113). -/
def execTableRowRead (p : Path) (ecc : Bool) (s : State) : Host.Outcome State Fault Refusal :=
  live (writeAt { ecc := ecc } .any p 0x10 1) s

/-- TABLE_ROW_WRITE (R113, R121). -/
def execTableRowWrite (p : Path) (s : State) : Host.Outcome State Fault Refusal := live (writeAt {} .any p 0x10 2) s

/-- TABLE_ROW_ZERO (R113). -/
def execTableRowZero (p : Path) (s : State) : Host.Outcome State Fault Refusal := live (writeAt {} .any p 0x10 3) s

/-- CLAIM (R452). -/
def execClaim (p : Path) (ecc : Bool) (s : State) : Host.Outcome State Fault Refusal :=
  live (readAt { ecc := ecc } .any p 0x14) s

/-- COMPLETE (R454). -/
def execCompleteSource (p : Path) (n : BitVec 6) (s : State) : Host.Outcome State Fault Refusal :=
  live (writeAt {} .any p 0x15 n.toNat) s

/-- ACQUIRE (R159). -/
def execLockAcquire (p : Path) (ecc : Bool) (s : State) : Host.Outcome State Fault Refusal :=
  live (writeAt { ecc := ecc } .any p 0x19 1) s

/-- RELEASE (R159). -/
def execLockRelease (p : Path) (s : State) : Host.Outcome State Fault Refusal := live (writeAt {} .any p 0x19 2) s

/-- CLEAR_BROKEN (R159). -/
def execClearBroken (p : Path) (s : State) : Host.Outcome State Fault Refusal := live (writeAt {} .any p 0x19 3) s

/-- CAPTURE_NOW (R305). -/
def execCaptureNow (p : Path) (ecc : Bool) (s : State) : Host.Outcome State Fault Refusal :=
  live (writeAt { ecc := ecc } .any p 0x20 1) s

/-- LAST_EVT_IN0 (R305). -/
def execLastEvtIn0 (p : Path) (s : State) : Host.Outcome State Fault Refusal := live (writeAt {} .any p 0x20 2) s

/-- LAST_EVT_IN1 (R305). -/
def execLastEvtIn1 (p : Path) (s : State) : Host.Outcome State Fault Refusal := live (writeAt {} .any p 0x20 3) s

/-- LAST_PPS_IN (R305). -/
def execLastPpsIn (p : Path) (s : State) : Host.Outcome State Fault Refusal := live (writeAt {} .any p 0x20 4) s

/-- TIME_SET (R306). -/
def execTimeSet (q : CbPar) (s : State) : Host.Outcome State Fault Refusal := live (mgmtWrite {} q 0x20 8) s

/-- STEP_FORWARD (R306). -/
def execStepForward (q : CbPar) (s : State) : Host.Outcome State Fault Refusal := live (mgmtWrite {} q 0x20 9) s

/-- STEP_BACK (R306). -/
def execStepBack (q : CbPar) (s : State) : Host.Outcome State Fault Refusal := live (mgmtWrite {} q 0x20 10) s

/-- TIME_CMD_END: BUSY clears (R305). -/
def timeCmdEndEffect (w : Nat) (s : State) : State := modWin w (fun x => { x with timeBusy := false }) s

/-- TIME_CMD_END. -/
def execTimeCmdEnd (w : Fin 5) (s : State) : Host.Outcome State Fault Refusal := live (timeCmdEndEffect w) s

/-! ### M_CONTROL, M_TENANT_CTL and the M window's command registers -/

/-- A keyed write of M_CONTROL with one more bit, its TRIM as it stands. -/
def controlSet (x : Extra) (q : CbPar) (bit : Nat) (s : State) : State :=
  mgmtWrite x q 0x03 (0xC30000 + bit + flag s.mgmt.trim 3) s

/-- DEV_RESET (R85, R568). -/
def execDevReset (q : CbPar) (s : State) : Host.Outcome State Fault Refusal := live (controlSet {} q 1) s

/-- MGMT_RESET (R163). -/
def execMgmtReset (q : CbPar) (s : State) : Host.Outcome State Fault Refusal := live (controlSet {} q 2) s

/-- SLEEP (R516, R517); the record written at the entry passes its test or not (R524, R542). -/
def execDepotSleep (w : SleepWrite) (s : State) : Host.Outcome State Fault Refusal :=
  live (controlSet { nvBad := !w.nvGood } w.par 4) s

/-- TRIM_ENTRY (R514). -/
def execTrimEntry (q : CbPar) (s : State) : Host.Outcome State Fault Refusal := live (mgmtWrite {} q 0x03 8) s

/-- TRIM_EXIT (R515). -/
def execTrimExit (q : CbPar) (s : State) : Host.Outcome State Fault Refusal := live (mgmtWrite {} q 0x03 0) s

/-- A write of M_TENANT_CTL that keeps the selected tenant's ENABLE and sets one more bit. -/
def tenantSet (q : CbPar) (bit : Nat) (s : State) : State :=
  mgmtWrite {} q 0x3D (bit + flag (ten s s.mgmt.selTenant).enable 0) s

/-- FORCE_FAULT (R145). -/
def execForceFault (q : CbPar) (s : State) : Host.Outcome State Fault Refusal := live (tenantSet q 4) s

/-- TENANT_RESET (R155). -/
def execTenantReset (q : CbPar) (s : State) : Host.Outcome State Fault Refusal := live (tenantSet q 2) s

/-- TENANT_HOLD (R158). -/
def execTenantHold (q : CbPar) (s : State) : Host.Outcome State Fault Refusal := live (mgmtWrite {} q 0x3D 0) s

/-- TENANT_RELEASE (R572). -/
def execTenantRelease (q : CbPar) (s : State) : Host.Outcome State Fault Refusal := live (mgmtWrite {} q 0x3D 1) s

/-- JOIN (R481). -/
def execJoinPair (q : CbPar) (s : State) : Host.Outcome State Fault Refusal := live (mgmtWrite {} q 0x44 1) s

/-- PLANNED_SWITCHOVER (R502). -/
def execPlannedSwitchover (q : CbPar) (s : State) : Host.Outcome State Fault Refusal := live (mgmtWrite {} q 0x44 2) s

/-- LEAVE_TO_SOLO (R503). -/
def execLeaveToSolo (q : CbPar) (s : State) : Host.Outcome State Fault Refusal := live (mgmtWrite {} q 0x44 3) s

/-- CLEAR_ALARM (R474). -/
def execClearAlarm (q : CbPar) (s : State) : Host.Outcome State Fault Refusal := live (mgmtWrite {} q 0x44 4) s

/-- SERVICE_WATCHDOG (R547). -/
def execServiceWatchdog (q : CbPar) (ecc : Bool) (s : State) : Host.Outcome State Fault Refusal :=
  live (mgmtWrite { ecc := ecc } q 0x49 1) s

/-- ENTER_SAFE_STATE (R548). -/
def execEnterSafeState (q : CbPar) (s : State) : Host.Outcome State Fault Refusal := live (mgmtWrite {} q 0x49 0x3C0002) s

/-- FORMAT (R372). -/
def execStoreFormat (q : CbPar) (d : Discovery) (s : State) : Host.Outcome State Fault Refusal :=
  live (mgmtWrite { disc := d } q 0x4C 0x5C0001) s

/-- ADOPT (R373). -/
def execStoreAdopt (q : CbPar) (d : Discovery) (s : State) : Host.Outcome State Fault Refusal :=
  live (mgmtWrite { disc := d } q 0x4C 0x5C0002) s

/-- EVENT_LOCK (R348). -/
def execEventLock (q : CbPar) (k : Fin 64) (s : State) : Host.Outcome State Fault Refusal :=
  live (mgmtWrite {} q 0x4C (3 + 16 * k)) s

/-- STREAM_ONLINE (R356). -/
def execStreamOnline (q : CbPar) (k : Fin 64) (s : State) : Host.Outcome State Fault Refusal :=
  live (mgmtWrite {} q 0x4C (4 + 16 * k)) s

/-- STREAM_OFFLINE (R356). -/
def execStreamOffline (q : CbPar) (k : Fin 64) (s : State) : Host.Outcome State Fault Refusal :=
  live (mgmtWrite {} q 0x4C (5 + 16 * k)) s

/-- SUSPEND (R356). -/
def execStoreSuspend (q : CbPar) (s : State) : Host.Outcome State Fault Refusal := live (mgmtWrite {} q 0x4C 6) s

/-- RESUME (R356). -/
def execStoreResume (q : CbPar) (d : Discovery) (s : State) : Host.Outcome State Fault Refusal :=
  live (mgmtWrite { disc := d } q 0x4C 7) s

/-- LOAD (R124). -/
def execImageLoad (q : CbPar) (fromStore : Bool) (r : ImageRead) (s : State) : Host.Outcome State Fault Refusal :=
  live (mgmtWrite { host := r.host, areaBad := r.areaBad } q 0x50 (1 + flag fromStore 1)) s

/-! ### Transfer channels and the Canopy -/

/-- XFER_START (R400). -/
def execXferStart (p : Path) (ctl : Word) (s : State) : Host.Outcome State Fault Refusal :=
  live (writeAt {} .any p 0x30 (ctl.toNat ||| 1)) s

/-- XFER_PAUSE (R410). -/
def execXferPause (p : Path) (s : State) : Host.Outcome State Fault Refusal := live (rewriteAt {} .any p 0x30 2 0) s

/-- XFER_RESUME (R410). -/
def execXferResume (p : Path) (s : State) : Host.Outcome State Fault Refusal := live (rewriteAt {} .any p 0x30 0 2) s

/-- XFER_ABORT (R411). -/
def execXferAbort (p : Path) (s : State) : Host.Outcome State Fault Refusal := live (rewriteAt {} .any p 0x30 4 0) s

/-- CANOPY_CLEAN (R430). -/
def execCanopyClean (p : Path) (t : Fin 4) (all : Bool) (s : State) : Host.Outcome State Fault Refusal :=
  live (writeAt {} .any p 0x34 (1 + flag all 3 + 16 * t)) s

/-- CANOPY_INVALIDATE (R430). -/
def execCanopyInvalidate (p : Path) (t : Fin 4) (all : Bool) (s : State) : Host.Outcome State Fault Refusal :=
  live (writeAt {} .any p 0x34 (2 + flag all 3 + 16 * t)) s

/-- CANOPY_CLEAN_AND_INVALIDATE (R430). -/
def execCanopyCleanAndInvalidate (p : Path) (t : Fin 4) (all : Bool) (s : State) : Host.Outcome State Fault Refusal :=
  live (writeAt {} .any p 0x34 (3 + flag all 3 + 16 * t)) s

/-! ### The T windows -/

/-- T_TENANT_RESET (R155): a keyed write of T_CONTROL, its ENGINE_EN as it stands. -/
def execTTenantReset (p : Path) (s : State) : Host.Outcome State Fault Refusal :=
  live (rewriteAt {} .tenant p 0x03 0xC30002 0) s

/-- T_FAULT_CLEAR (R150). -/
def execTFaultClear (p : Path) (m : FaultMask) (s : State) : Host.Outcome State Fault Refusal :=
  live (writeAt { cause := m.cause.map (·.val + 1) } .tenant p 0x04 m.mask.toNat) s

/-- ENGINE_ENABLE (R150). -/
def execEngineEnable (p : Path) (on : Bool) (s : State) : Host.Outcome State Fault Refusal :=
  live (writeAt {} .tenant p 0x03 (flag on 0)) s

/-- T_TXBELL (R178). -/
def execTTxbell (p : Path) (d : Word) (s : State) : Host.Outcome State Fault Refusal :=
  live (writeAt {} .tenant p 0x40 d.toNat) s

/-- T_RXBELL (R178). -/
def execTRxbell (p : Path) (d : Word) (s : State) : Host.Outcome State Fault Refusal :=
  live (writeAt {} .tenant p 0x41 d.toNat) s

/-- RING_ENABLE (R205). -/
def execRingEnable (p : Path) (s : State) : Host.Outcome State Fault Refusal := live (rewriteAt {} .tenant p 0x43 1 0) s

/-- RING_DISABLE (R204). -/
def execRingDisable (p : Path) (s : State) : Host.Outcome State Fault Refusal := live (rewriteAt {} .tenant p 0x43 0 1) s

/-- FLUSH (R202). -/
def execFlushRing (p : Path) (s : State) : Host.Outcome State Fault Refusal := live (rewriteAt {} .tenant p 0x43 2 0) s

/-- RING_STOP (R201). -/
def execRingStop (p : Path) (s : State) : Host.Outcome State Fault Refusal := live (rewriteAt {} .tenant p 0x43 4 0) s

/-- RING_RESUME (R201). -/
def execRingResume (p : Path) (s : State) : Host.Outcome State Fault Refusal := live (rewriteAt {} .tenant p 0x43 0 4) s

end Sys2Proof.Machine
end

