-- ==== Sys2Proof/Machine/HostLinks.lean ====
section
/-! DEFINITION. The host links' own events (R98 to R103, R146, R152 to R155, R461, R576) and the ends of Canopy maintenance
(R431, R437). -/

set_option Elab.async false

namespace Sys2Proof.Machine

/-! ### Canopy maintenance -/

/-- CANOPY_OP_END: the operation at the front of a partition's queue ends, once no doomed fill is in flight (R431,
R432). -/
def canopyOpEndEffect (t : Nat) (r : HostRead) (s : State) : State :=
  match maintQueue s t with
  | [] => s
  | m :: _ =>
    if !m.started || doomedFills s t then s
    else if !m.wrote then maintEnd t 0 s
    else if !canIssue s t then maintEnd t 2 s
    else match r with
      | .data _ => maintEnd t 0 s
      | .ur => maintEnd t 2 s
      | .ca => maintEnd t 2 s

/-- CANOPY_OP_END. -/
def execCanopyOpEnd (t : Fin 4) (r : HostRead) (s : State) : Host.Outcome State Fault Refusal :=
  live (canopyOpEndEffect t r) s

/-- CANOPY_CLOSING_READ_TIMEOUT (R431). -/
def canopyClosingReadTimeoutEffect (t : Nat) (s : State) : State :=
  match maintQueue s t with
  | [] => s
  | m :: _ =>
    if !m.started || !m.wrote || doomedFills s t then s
    else maintEnd t 2 (perfAdd (0x0A0004 + 256 * t) 1 (waitUntil (m.since + cplTimeout s t) s))

/-- CANOPY_CLOSING_READ_TIMEOUT. -/
def execCanopyClosingReadTimeout (t : Fin 4) (s : State) : Host.Outcome State Fault Refusal :=
  live (canopyClosingReadTimeoutEffect t) s

/-- SCRATCH_WAY_CONVERSION_END (R437). -/
def execScratchWayConversionEnd (s : State) : Host.Outcome State Fault Refusal :=
  live (onlyIf (!fenced s 18 && !s.power.asleep) convertWay) s

/-! ### Fault record pushes -/

/-- FAULT_RECORD_PUSH_END: the closing read of a push ends (R152, R153). -/
def faultRecordPushEndEffect (t : Nat) (r : HostRead) (s : State) : State :=
  match (ten s t).frPush, r with
  | some _, .data _ => pushGood t s
  | some _, .ur => pushFailEnter t s
  | some _, .ca => pushFailEnter t s
  | none, _ => s

/-- FAULT_RECORD_PUSH_END. -/
def execFaultRecordPushEnd (t : Fin 4) (r : HostRead) (s : State) : Host.Outcome State Fault Refusal :=
  live (faultRecordPushEndEffect t r) s

/-- FAULT_PUSH_CPL_TIMEOUT: the closing read reaches CPL_TIMEOUT (R153). -/
def faultPushCplTimeoutEffect (t : Nat) (s : State) : State :=
  match (ten s t).frPush with
  | none => s
  | some (_, since) => pushFailEnter t (perfAdd (0x0A0004 + 256 * t) 1 (waitUntil (since + cplTimeout s t) s))

/-- FAULT_PUSH_CPL_TIMEOUT. -/
def execFaultPushCplTimeout (t : Fin 4) (s : State) : Host.Outcome State Fault Refusal :=
  live (faultPushCplTimeoutEffect t) s

/-! ### Resets of a link (R146, R155) -/

/-- Host link t is kept in Detect: by PERST_N, a fence, DEPOT_SLEEP or a device reset. -/
def linkBarred (s : State) (t : Nat) : Bool :=
  (link s t).perst || fenced s (12 + t) || s.power.asleep || !running s

/-- The sources of a link that leaves L0 and L1, or comes back to them (Tables 15.2 and 15.3). -/
def linkMoved (t : Nat) (s : State) : State := raise 0 (3 + t) (raise (t + 1) 3 s)

/-- A reset takes the link down: its Command register and MSI capability are clear; no LINK_DOWN fault follows (R146). -/
def linkTaken (t : Nat) (s : State) : State :=
  let was := linkUp s t
  let s1 := linkReset t s
  if was then linkMoved t s1 else s1

/-- PERST_N_ASSERT: the tenant reset begins and is held (R155, R158). -/
def perstNAssertEffect (t : Nat) (s : State) : State :=
  if (link s t).perst then s
  else
    let s1 := linkTaken t s
    let s2 := raise 0 (3 + t) (modLink t (fun l => { l with perst := true }) s1)
    tenantResetStart t (modTen t (fun x => { x with linkHold := false }) s2)

/-- PERST_N_ASSERT. -/
def execPerstNAssert (t : Fin 4) (s : State) : Host.Outcome State Fault Refusal := live (perstNAssertEffect t) s

/-- PERST_N_DEASSERT: the held reset may complete and the link may train (R158, R576). -/
def perstNDeassertEffect (t : Nat) (s : State) : State :=
  if (link s t).perst then raise 0 (3 + t) (modLink t (fun l => { l with perst := false }) s) else s

/-- PERST_N_DEASSERT. -/
def execPerstNDeassert (t : Fin 4) (s : State) : Host.Outcome State Fault Refusal := live (perstNDeassertEffect t) s

/-- HOT_RESET: a tenant reset that is held until the link has come back (R146). -/
def hotResetEffect (t : Nat) (s : State) : State :=
  if !linkUp s t then s
  else tenantResetStart t (modTen t (fun x => { x with linkHold := true }) (linkTaken t s))

/-- HOT_RESET. -/
def execHotReset (t : Fin 4) (s : State) : Host.Outcome State Fault Refusal := live (hotResetEffect t) s

/-- FUNCTION_LEVEL_RESET: a tenant reset; the link stays up with its Command register and MSI capability clear (R146). -/
def functionLevelResetEffect (t : Nat) (s : State) : State :=
  if !linkUp s t then s
  else tenantResetStart t (modLink t (fun l => { l with bme := false, mse := false, command := 0, msiEn := false }) s)

/-- FUNCTION_LEVEL_RESET. -/
def execFunctionLevelReset (t : Fin 4) (s : State) : Host.Outcome State Fault Refusal :=
  live (functionLevelResetEffect t) s

/-! ### The Command register and the link's state -/

/-- Cause LINK_DOWN, while any ring of the tenant is enabled (Table 5.2). -/
def linkDownCause (t : Nat) (s : State) : State :=
  if (ten s t).rings.any fun e => e.2.enable then tenantFault t 7 0 false 0 0 0 0 s else s

/-- The maintenance operation in progress on a partition that waits for its closing read ends with ERR 2. -/
def maintCut (t : Nat) (s : State) : State :=
  match maintQueue s t with
  | m :: _ => if m.started && m.wrote then maintEnd t 2 s else s
  | [] => s

/-- Bus Master Enable of link t becomes 0 (R146): the push in flight fails (R153), extended flow lookups end as misses. -/
def busMasterOff (t : Nat) (s : State) : State :=
  if !(link s t).bme then s
  else
    let s1 := modLink t (fun l => { l with bme := false }) s
    lookupsMiss t (maintCut t (linkChannels t (linkDownCause t (pushFailEnter t s1))))

/-- BUS_MASTER_ENABLE_CLEAR. -/
def execBusMasterEnableClear (t : Fin 4) (s : State) : Host.Outcome State Fault Refusal := live (busMasterOff t) s

/-- Bus Master Enable of link t becomes 1. -/
def busMasterOn (t : Nat) (s : State) : State :=
  if (link s t).bme then s else linkServe t (modLink t (fun l => { l with bme := true }) s)

/-- HOST_LINK_STATE_CHANGE (R146, R461): a link that leaves L0 and L1 raises source 3, and LINK_DOWN while a ring is
enabled; one that returns raises source 3 and ends the hold of a hot reset. -/
def hostLinkStateChangeEffect (t : Nat) (st : LinkState) (s : State) : State :=
  if linkBarred s t || (link s t).state == st then s
  else
    let was := linkUp s t
    let s1 := modLink t (fun l => { l with state := st }) s
    let now := linkUp s1 t
    if was == now then s1
    else if now then
      linkServe t (modTen t (fun x => { x with linkHold := false }) (linkMoved t s1))
    else linkDownCause t (pushFailEnter t (linkMoved t s1))

/-- HOST_LINK_STATE_CHANGE. -/
def execHostLinkStateChange (t : Fin 4) (st : LinkState) (s : State) : Host.Outcome State Fault Refusal :=
  live (hostLinkStateChangeEffect t st) s

/-- LINK_TRAINING_START (R576). -/
def linkTrainingStartEffect (t : Nat) (s : State) : State :=
  if !linkBarred s t && (link s t).state == .detect then modLink t (fun l => { l with state := .training }) s else s

/-- LINK_TRAINING_START. -/
def execLinkTrainingStart (t : Fin 4) (s : State) : Host.Outcome State Fault Refusal := live (linkTrainingStartEffect t) s

/-- A configuration read completes with a dword. PRESUMED (assumption 54): the PCI Express places of the fields that the
rules name, bit 28 of Device Capabilities for Function Level Reset and bits 2 and 1 of Command for Bus Master Enable and
Memory Space Enable; every other bit the spec leaves out is free. -/
def cfgRead (t : Nat) (r : CfgReg) (s : State) : State :=
  let any := freeNat s % 2 ^ 32
  let l := link s t
  let v := match r with
    | .deviceCapabilities => putBits any 28 1 1
    | .command => putBits any 0 16 (l.command.toNat + flag l.bme 2 + flag l.mse 1)
    | .other => any
  modLink t (fun l => { l with cfg := some (BitVec.ofNat 32 v) }) (drawn s)

/-- CONFIGURATION_REQUEST on a trained link: Retry Status until READY, then its effect on the Command register or the MSI
capability (R146, R458, R576). -/
def configurationRequestEffect (t : Nat) (c : CfgRequest) (s : State) : State :=
  if !linkUp s t then s
  else if !s.start.ready then modLink t (fun l => { l with crs := true }) s
  else
    let s1 := modLink t (fun l => { l with crs := false }) s
    match c with
    | .read r => cfgRead t r s1
    | .command bme mse rest =>
      let s2 := modLink t (fun l => { l with mse := mse, command := rest &&& ~~~6 }) s1
      if bme then busMasterOn t s2 else busMasterOff t s2
    | .msi en addr data => modLink t (fun l => { l with msiEn := en, msiAddr := addr, msiData := data }) s1

/-- CONFIGURATION_REQUEST. -/
def execConfigurationRequest (t : Fin 4) (c : CfgRequest) (s : State) : Host.Outcome State Fault Refusal :=
  live (configurationRequestEffect t c) s

/-! ### Requests to BAR0 that have no effect, and logged errors -/

/-- BAR0_UNSUPPORTED_REQUEST (R103). -/
def bar0UnsupportedRequestEffect (t : Nat) (s : State) : State :=
  if linkUp s t then modLink t (fun l => { l with bar0 := none }) s else s

/-- BAR0_UNSUPPORTED_REQUEST: the three kinds of request end alike. -/
def execBar0UnsupportedRequest (t : Fin 4) (_k : UrKind) (s : State) : Host.Outcome State Fault Refusal :=
  live (bar0UnsupportedRequestEffect t) s

/-- An error logged through AER raises tenant source 3 (Table 15.3). -/
def aerLog (t : Nat) (s : State) : State := raise (t + 1) 3 (modLink t (fun l => { l with aer := l.aer + 1 }) s)

/-- BAR0_POISONED_WRITE: no effect on the window (R101). -/
def execBar0PoisonedWrite (t : Fin 4) (s : State) : Host.Outcome State Fault Refusal :=
  live (onlyIf (linkUp s t) (aerLog t)) s

/-- The link replays the requests of some rings, or of none any more: a replay is an error logged through AER, and counts
in the link's replays (R212, R461, Table 15.5). -/
def linkReplay (t : Nat) (rings : List (Fin 132)) (s : State) : State :=
  let s1 := modLink t (fun l => { l with replaying := rings.map (·.val) }) s
  if rings.isEmpty then s1 else perfAdd (0x0A0003 + 256 * t) 1 s1

/-- HOST_LINK_ERROR, with the rings whose requests the link replays from then on (assumption 53). -/
def execHostLinkError (e : LinkError) (s : State) : Host.Outcome State Fault Refusal :=
  live (onlyIf (!linkBarred s e.link) (fun s => linkReplay e.link e.replay (aerLog e.link s))) s

end Sys2Proof.Machine
end

