-- ==== Sys2Proof/Machine/Dispatch.lean ====
section
/-! DEFINITION. The effect of each command on everything but the queue: one arm per row of spec/opcode_table.json. -/

namespace Sys2Proof.Machine

/-- The meaning of a command. -/
def exec (i : Instr) (s : State) : Host.Outcome State Fault Refusal :=
  match i with
  | .cbRequest a => Sys2Proof.Machine.execCbRequest a s
  | .cbRequestRelease a => Sys2Proof.Machine.execCbRequestRelease a s
  | .tenureLimit => Sys2Proof.Machine.execTenureLimit s
  | .heldStrobe => Sys2Proof.Machine.execHeldStrobe s
  | .cbReqHoldoffEnd a => Sys2Proof.Machine.execCbReqHoldoffEnd a s
  | .cbJam => Sys2Proof.Machine.execCbJam s
  | .registerWrite a => Sys2Proof.Machine.execRegisterWrite a s
  | .anchorRead a b => Sys2Proof.Machine.execAnchorRead a b s
  | .anchorWrite a b c => Sys2Proof.Machine.execAnchorWrite a b c s
  | .nonAnchorWrite a b c d => Sys2Proof.Machine.execNonAnchorWrite a b c d s
  | .tblDataAccess a b c => Sys2Proof.Machine.execTblDataAccess a b c s
  | .paramRead a b => Sys2Proof.Machine.execParamRead a b s
  | .paramWrite a => Sys2Proof.Machine.execParamWrite a s
  | .paramReservedOp a => Sys2Proof.Machine.execParamReservedOp a s
  | .paramOpEnd a => Sys2Proof.Machine.execParamOpEnd a s
  | .tableRowRead a b => Sys2Proof.Machine.execTableRowRead a b s
  | .tableRowWrite a => Sys2Proof.Machine.execTableRowWrite a s
  | .tableRowZero a => Sys2Proof.Machine.execTableRowZero a s
  | .tableOpEnd a => Sys2Proof.Machine.execTableOpEnd a s
  | .claim a b => Sys2Proof.Machine.execClaim a b s
  | .completeSource a b => Sys2Proof.Machine.execCompleteSource a b s
  | .devReset a => Sys2Proof.Machine.execDevReset a s
  | .mgmtReset a => Sys2Proof.Machine.execMgmtReset a s
  | .mgmtResetEnd => Sys2Proof.Machine.execMgmtResetEnd s
  | .trimEntry a => Sys2Proof.Machine.execTrimEntry a s
  | .trimExit a => Sys2Proof.Machine.execTrimExit a s
  | .depotSleep a => Sys2Proof.Machine.execDepotSleep a s
  | .lockAcquire a b => Sys2Proof.Machine.execLockAcquire a b s
  | .lockRelease a => Sys2Proof.Machine.execLockRelease a s
  | .clearBroken a => Sys2Proof.Machine.execClearBroken a s
  | .captureNow a b => Sys2Proof.Machine.execCaptureNow a b s
  | .lastEvtIn0 a => Sys2Proof.Machine.execLastEvtIn0 a s
  | .lastEvtIn1 a => Sys2Proof.Machine.execLastEvtIn1 a s
  | .lastPpsIn a => Sys2Proof.Machine.execLastPpsIn a s
  | .timeSet a => Sys2Proof.Machine.execTimeSet a s
  | .stepForward a => Sys2Proof.Machine.execStepForward a s
  | .stepBack a => Sys2Proof.Machine.execStepBack a s
  | .timeCmdEnd a => Sys2Proof.Machine.execTimeCmdEnd a s
  | .xferStart a b => Sys2Proof.Machine.execXferStart a b s
  | .xferPause a => Sys2Proof.Machine.execXferPause a s
  | .xferDrainEnd a => Sys2Proof.Machine.execXferDrainEnd a s
  | .xferResume a => Sys2Proof.Machine.execXferResume a s
  | .xferAbort a => Sys2Proof.Machine.execXferAbort a s
  | .xferPacedBurst a b => Sys2Proof.Machine.execXferPacedBurst a b s
  | .xferReadEnd a b c => Sys2Proof.Machine.execXferReadEnd a b c s
  | .xferReadTimeout a => Sys2Proof.Machine.execXferReadTimeout a s
  | .xferChannelEnd a => Sys2Proof.Machine.execXferChannelEnd a s
  | .canopyClean a b c => Sys2Proof.Machine.execCanopyClean a b c s
  | .canopyInvalidate a b c => Sys2Proof.Machine.execCanopyInvalidate a b c s
  | .canopyCleanAndInvalidate a b c => Sys2Proof.Machine.execCanopyCleanAndInvalidate a b c s
  | .canopyOpEnd a b => Sys2Proof.Machine.execCanopyOpEnd a b s
  | .canopyFillEnd a b c => Sys2Proof.Machine.execCanopyFillEnd a b c s
  | .scratchWayConversionEnd => Sys2Proof.Machine.execScratchWayConversionEnd s
  | .forceFault a => Sys2Proof.Machine.execForceFault a s
  | .tenantReset a => Sys2Proof.Machine.execTenantReset a s
  | .tenantHold a => Sys2Proof.Machine.execTenantHold a s
  | .tenantRelease a => Sys2Proof.Machine.execTenantRelease a s
  | .tTenantReset a => Sys2Proof.Machine.execTTenantReset a s
  | .tenantResetEnd a => Sys2Proof.Machine.execTenantResetEnd a s
  | .tFaultClear a b => Sys2Proof.Machine.execTFaultClear a b s
  | .engineEnable a b => Sys2Proof.Machine.execEngineEnable a b s
  | .joinPair a => Sys2Proof.Machine.execJoinPair a s
  | .plannedSwitchover a => Sys2Proof.Machine.execPlannedSwitchover a s
  | .leaveToSolo a => Sys2Proof.Machine.execLeaveToSolo a s
  | .clearAlarm a => Sys2Proof.Machine.execClearAlarm a s
  | .serviceWatchdog a b => Sys2Proof.Machine.execServiceWatchdog a b s
  | .enterSafeState a => Sys2Proof.Machine.execEnterSafeState a s
  | .storeFormat a b => Sys2Proof.Machine.execStoreFormat a b s
  | .storeAdopt a b => Sys2Proof.Machine.execStoreAdopt a b s
  | .eventLock a b => Sys2Proof.Machine.execEventLock a b s
  | .streamOnline a b => Sys2Proof.Machine.execStreamOnline a b s
  | .streamOffline a b => Sys2Proof.Machine.execStreamOffline a b s
  | .storeSuspend a => Sys2Proof.Machine.execStoreSuspend a s
  | .storeResume a b => Sys2Proof.Machine.execStoreResume a b s
  | .storeCommandEnd a => Sys2Proof.Machine.execStoreCommandEnd a s
  | .imageLoad a b c => Sys2Proof.Machine.execImageLoad a b c s
  | .imageLoadEnd a => Sys2Proof.Machine.execImageLoadEnd a s
  | .tTxbell a b => Sys2Proof.Machine.execTTxbell a b s
  | .tRxbell a b => Sys2Proof.Machine.execTRxbell a b s
  | .ringEnable a => Sys2Proof.Machine.execRingEnable a s
  | .ringDisable a => Sys2Proof.Machine.execRingDisable a s
  | .flushRing a => Sys2Proof.Machine.execFlushRing a s
  | .flushComplete a b => Sys2Proof.Machine.execFlushComplete a b s
  | .ringStop a => Sys2Proof.Machine.execRingStop a s
  | .ringResume a => Sys2Proof.Machine.execRingResume a s
  | .descriptorReadEnd a b c => Sys2Proof.Machine.execDescriptorReadEnd a b c s
  | .descriptorReadTimeout a b => Sys2Proof.Machine.execDescriptorReadTimeout a b s
  | .ownReread a b => Sys2Proof.Machine.execOwnReread a b s
  | .fetchTimeout a b => Sys2Proof.Machine.execFetchTimeout a b s
  | .txSchedule a b => Sys2Proof.Machine.execTxSchedule a b s
  | .txBufferReadEnd a b c => Sys2Proof.Machine.execTxBufferReadEnd a b c s
  | .txBufferReadTimeout a => Sys2Proof.Machine.execTxBufferReadTimeout a s
  | .txGladeAdmission a b c => Sys2Proof.Machine.execTxGladeAdmission a b c s
  | .writeBackHoldExpiry a b => Sys2Proof.Machine.execWriteBackHoldExpiry a b s
  | .rxDelivery a b c => Sys2Proof.Machine.execRxDelivery a b c s
  | .faultRecordPushEnd a b => Sys2Proof.Machine.execFaultRecordPushEnd a b s
  | .perstNAssert a => Sys2Proof.Machine.execPerstNAssert a s
  | .perstNDeassert a => Sys2Proof.Machine.execPerstNDeassert a s
  | .hotReset a => Sys2Proof.Machine.execHotReset a s
  | .functionLevelReset a => Sys2Proof.Machine.execFunctionLevelReset a s
  | .busMasterEnableClear a => Sys2Proof.Machine.execBusMasterEnableClear a s
  | .hostLinkStateChange a b => Sys2Proof.Machine.execHostLinkStateChange a b s
  | .linkTrainingStart a => Sys2Proof.Machine.execLinkTrainingStart a s
  | .configurationRequest a b => Sys2Proof.Machine.execConfigurationRequest a b s
  | .bar0UnsupportedRequest a b => Sys2Proof.Machine.execBar0UnsupportedRequest a b s
  | .bar0PoisonedWrite a => Sys2Proof.Machine.execBar0PoisonedWrite a s
  | .frameReceive a b => Sys2Proof.Machine.execFrameReceive a b s
  | .pauseExpiry a b => Sys2Proof.Machine.execPauseExpiry a b s
  | .macControlSend a => Sys2Proof.Machine.execMacControlSend a s
  | .pfcRefresh a => Sys2Proof.Machine.execPfcRefresh a s
  | .linkUp a => Sys2Proof.Machine.execLinkUp a s
  | .linkDown a => Sys2Proof.Machine.execLinkDown a s
  | .laneSignalLoss a => Sys2Proof.Machine.execLaneSignalLoss a s
  | .mdioPoll a b => Sys2Proof.Machine.execMdioPoll a b s
  | .thicketResolve a => Sys2Proof.Machine.execThicketResolve a s
  | .extFlowReadEnd a => Sys2Proof.Machine.execExtFlowReadEnd a s
  | .knownAnswerProbe a => Sys2Proof.Machine.execKnownAnswerProbe a s
  | .egressCopy a b => Sys2Proof.Machine.execEgressCopy a b s
  | .egressLaunch a b => Sys2Proof.Machine.execEgressLaunch a b s
  | .txFrameEnd a => Sys2Proof.Machine.execTxFrameEnd a s
  | .witnessBeacon a => Sys2Proof.Machine.execWitnessBeacon a s
  | .gateChange a b => Sys2Proof.Machine.execGateChange a b s
  | .gateSwap a => Sys2Proof.Machine.execGateSwap a s
  | .ppsOutPulse => Sys2Proof.Machine.execPpsOutPulse s
  | .ppsOutEnd => Sys2Proof.Machine.execPpsOutEnd s
  | .ppsInCapture a => Sys2Proof.Machine.execPpsInCapture a s
  | .evtInCapture a b => Sys2Proof.Machine.execEvtInCapture a b s
  | .timebasePllLock => Sys2Proof.Machine.execTimebasePllLock s
  | .pllLockLoss => Sys2Proof.Machine.execPllLockLoss s
  | .fixedCycleCounterWrap => Sys2Proof.Machine.execFixedCycleCounterWrap s
  | .programmableCounterWrap a => Sys2Proof.Machine.execProgrammableCounterWrap a s
  | .bandwidthWindowEnd => Sys2Proof.Machine.execBandwidthWindowEnd s
  | .presentation a => Sys2Proof.Machine.execPresentation a s
  | .pageBuild a b => Sys2Proof.Machine.execPageBuild a b s
  | .recordWaitExpiry a => Sys2Proof.Machine.execRecordWaitExpiry a s
  | .pageProgram => Sys2Proof.Machine.execPageProgram s
  | .pageProgramEnd a b => Sys2Proof.Machine.execPageProgramEnd a b s
  | .storeTrigEdge a => Sys2Proof.Machine.execStoreTrigEdge a s
  | .lockWindowEnd a => Sys2Proof.Machine.execLockWindowEnd a s
  | .holdExpiry a => Sys2Proof.Machine.execHoldExpiry a s
  | .streamWriteWatchdog a => Sys2Proof.Machine.execStreamWriteWatchdog a s
  | .mediumMount a => Sys2Proof.Machine.execMediumMount a s
  | .presencePoll a => Sys2Proof.Machine.execPresencePoll a s
  | .powerUpScan a b c => Sys2Proof.Machine.execPowerUpScan a b c s
  | .coppiceRefresh a b => Sys2Proof.Machine.execCoppiceRefresh a b s
  | .wearLevellingMove a => Sys2Proof.Machine.execWearLevellingMove a s
  | .ageDay => Sys2Proof.Machine.execAgeDay s
  | .targetBusyTimeout a => Sys2Proof.Machine.execTargetBusyTimeout a s
  | .rideLinkUp => Sys2Proof.Machine.execRideLinkUp s
  | .rideLinkDown => Sys2Proof.Machine.execRideLinkDown s
  | .helloFrame a => Sys2Proof.Machine.execHelloFrame a s
  | .heartbeatFrame a => Sys2Proof.Machine.execHeartbeatFrame a s
  | .dataFrame a b => Sys2Proof.Machine.execDataFrame a b s
  | .commitFrame a => Sys2Proof.Machine.execCommitFrame a s
  | .ackFrame a => Sys2Proof.Machine.execAckFrame a s
  | .nakFrame a => Sys2Proof.Machine.execNakFrame a s
  | .switchRequest a => Sys2Proof.Machine.execSwitchRequest a s
  | .switchDone a => Sys2Proof.Machine.execSwitchDone a s
  | .leaveFrame a => Sys2Proof.Machine.execLeaveFrame a s
  | .retransmissionTimeout => Sys2Proof.Machine.execRetransmissionTimeout s
  | .helloSend => Sys2Proof.Machine.execHelloSend s
  | .heartbeatSend => Sys2Proof.Machine.execHeartbeatSend s
  | .heartbeatLoss => Sys2Proof.Machine.execHeartbeatLoss s
  | .witnessWindowExpiry => Sys2Proof.Machine.execWitnessWindowExpiry s
  | .partitionTimeout => Sys2Proof.Machine.execPartitionTimeout s
  | .epochBoundary => Sys2Proof.Machine.execEpochBoundary s
  | .epochTimeout => Sys2Proof.Machine.execEpochTimeout s
  | .switchoverTimeout => Sys2Proof.Machine.execSwitchoverTimeout s
  | .droopTrip a b => Sys2Proof.Machine.execDroopTrip a b s
  | .droopClear a b => Sys2Proof.Machine.execDroopClear a b s
  | .stretchBudgetWindowEnd => Sys2Proof.Machine.execStretchBudgetWindowEnd s
  | .detectorDisagreement a => Sys2Proof.Machine.execDetectorDisagreement a s
  | .thermalSample a => Sys2Proof.Machine.execThermalSample a s
  | .odometerSecond => Sys2Proof.Machine.execOdometerSecond s
  | .hourlyMeasurement a b => Sys2Proof.Machine.execHourlyMeasurement a b s
  | .selfCheckEnd a => Sys2Proof.Machine.execSelfCheckEnd a s
  | .memoryInitialisationEnd => Sys2Proof.Machine.execMemoryInitialisationEnd s
  | .periodicTest a b c => Sys2Proof.Machine.execPeriodicTest a b c s
  | .safetyWatchdogExpiry => Sys2Proof.Machine.execSafetyWatchdogExpiry s
  | .handshakeTimeout a b => Sys2Proof.Machine.execHandshakeTimeout a b s
  | .keepAlive a => Sys2Proof.Machine.execKeepAlive a s
  | .safetyReset => Sys2Proof.Machine.execSafetyReset s
  | .powerOn => Sys2Proof.Machine.execPowerOn s
  | .resetNAssert a => Sys2Proof.Machine.execResetNAssert a s
  | .resetNRelease a => Sys2Proof.Machine.execResetNRelease a s
  | .internalResetRelease a => Sys2Proof.Machine.execInternalResetRelease a s
  | .pllLockTimeout => Sys2Proof.Machine.execPllLockTimeout s
  | .startupWindowClose => Sys2Proof.Machine.execStartupWindowClose s
  | .cbStrobeDeassert => Sys2Proof.Machine.execCbStrobeDeassert s
  | .laneLockAcquired a => Sys2Proof.Machine.execLaneLockAcquired a s
  | .inBandLinkChange a b c d => Sys2Proof.Machine.execInBandLinkChange a b c d s
  | .blockEraseEnd a b => Sys2Proof.Machine.execBlockEraseEnd a b s
  | .phaseSlewDecrement => Sys2Proof.Machine.execPhaseSlewDecrement s
  | .supplyLoss => Sys2Proof.Machine.execSupplyLoss s
  | .discardedRideFrame a => Sys2Proof.Machine.execDiscardedRideFrame a s
  | .partnerBeaconLoss => Sys2Proof.Machine.execPartnerBeaconLoss s
  | .faultPushCplTimeout a => Sys2Proof.Machine.execFaultPushCplTimeout a s
  | .canopyClosingReadTimeout a => Sys2Proof.Machine.execCanopyClosingReadTimeout a s
  | .recoveringOnset a b => Sys2Proof.Machine.execRecoveringOnset a b s
  | .tapInstructionLoad a b => Sys2Proof.Machine.execTapInstructionLoad a b s
  | .hostLinkError a => Sys2Proof.Machine.execHostLinkError a s
  | .poweredTimeJournal => Sys2Proof.Machine.execPoweredTimeJournal s

end Sys2Proof.Machine
end

