-- ==== Sys2Proof/Machine/Step.lean ====
section
/-! DEFINITION. One step of the block: the command at the front of the queue, or one timebase tick. -/

set_option Elab.async false

namespace Sys2Proof.Machine

/-- One step: the oldest waiting command takes effect; with none waiting a timebase tick of 2 ns passes (assumption 4). -/
def step (s : State) : Host.Outcome State Fault Refusal :=
  match s.pending with
  | [] => .next (wait 1 s)
  | c :: rest => exec c { s with pending := rest }

/-- s with a command at the front of its queue. -/
def State.push (c : Instr) (s : State) : State := { s with pending := c :: s.pending }

/-- s with the command that a word spells at the front of its queue; s where the word spells none. -/
def State.withFetchWord (s : State) (nbits w : Nat) : State :=
  match decodeTableWord nbits w with
  | some c => State.push c s
  | none => s

end Sys2Proof.Machine
end

