-- ==== Sys2Proof/Frame.lean ====
section
/-! DEFINITION. The parts of State by name, and what it is for a part to be unchanged: the vocabulary of frames. -/

set_option Elab.async false

namespace Sys2Proof.Machine

/-- The parts of State. -/
inductive Field where
  | pending | clk | free | bus | wins | mgmt | image | params | tables | locks | tenants | links | frames
  | nextFrame | ports | lanes | mdio | thicket | time | perf | chans | lastChan | canopy | scratch | fences
  | store | safety | pair | power | start | droop | tap | bsr
  deriving DecidableEq, Repr

/-- A part of State is the same in s and in t. -/
abbrev Field.same (s t : State) : Field → Prop
  | .pending => t.pending = s.pending
  | .clk => t.clk = s.clk
  | .free => t.free = s.free
  | .bus => t.bus = s.bus
  | .wins => t.wins = s.wins
  | .mgmt => t.mgmt = s.mgmt
  | .image => t.image = s.image
  | .params => t.params = s.params
  | .tables => t.tables = s.tables
  | .locks => t.locks = s.locks
  | .tenants => t.tenants = s.tenants
  | .links => t.links = s.links
  | .frames => t.frames = s.frames
  | .nextFrame => t.nextFrame = s.nextFrame
  | .ports => t.ports = s.ports
  | .lanes => t.lanes = s.lanes
  | .mdio => t.mdio = s.mdio
  | .thicket => t.thicket = s.thicket
  | .time => t.time = s.time
  | .perf => t.perf = s.perf
  | .chans => t.chans = s.chans
  | .lastChan => t.lastChan = s.lastChan
  | .canopy => t.canopy = s.canopy
  | .scratch => t.scratch = s.scratch
  | .fences => t.fences = s.fences
  | .store => t.store = s.store
  | .safety => t.safety = s.safety
  | .pair => t.pair = s.pair
  | .power => t.power = s.power
  | .start => t.start = s.start
  | .droop => t.droop = s.droop
  | .tap => t.tap = s.tap
  | .bsr => t.bsr = s.bsr

/-- From s to t nothing changes outside the listed parts. -/
def Keeps (l : List Field) (s t : State) : Prop := ∀ f, f ∉ l → f.same s t

end Sys2Proof.Machine
end

