-- ==== Sys2Proof/Machine/Pins.lean ====
section
/-! DEFINITION. The output pins as functions of the state (chapter 20). While a TAP instruction other than BYPASS is
loaded the outputs follow the boundary-scan register instead (R585). -/

set_option Elab.async false

namespace Sys2Proof.Machine

/-- An output of the functional device: its function's level while no TAP instruction is loaded, and nothing this model
knows while one is, when the boundary-scan register drives it (R585). -/
def driven {α : Type} (s : State) (v : α) : Option α := if s.tap then none else some v

/-- CB_GNT_N[m] is low (R45). -/
def cbGntLow (s : State) (m : Nat) : Option Bool := driven s (s.bus.grant == some m)

/-- CB_ACK_N is low (R38). -/
def cbAckLow (s : State) : Option Bool := driven s (match s.bus.ack with | some (err, _) => !err | none => false)

/-- CB_ERR_N is low (R41). -/
def cbErrLow (s : State) : Option Bool := driven s (match s.bus.ack with | some (err, _) => err | none => false)

/-- IRQ_M_N or IRQ_T_N[t] of window w is low: the window presents and its pin is enabled (R457). -/
def irqLow (s : State) (w : Nat) : Option Bool := driven s ((win s w).presenting && (win s w).pinEn)

/-- FAULT_N is low (R551, R569). -/
def faultNLow (s : State) : Option Bool := driven s (faultLow s)

/-- Master k drives MDC[k] and MDIO[k], which are at high impedance otherwise (R265, R273). -/
def mdioDriven (s : State) (k : Nat) : Option Bool := driven s (bitOf (mdioStat s k) 0)

/-- WAKE_N is low (R520). -/
def wakeNLow (s : State) : Option Bool := driven s s.power.wakeN

/-- PPS_OUT is high (R312). -/
def ppsOutHigh (s : State) : Option Bool := driven s s.time.ppsOut.isSome

/-- The bytes of every frame the Ride transmitter has sent, oldest first (R476). -/
def rideLane (s : State) : Option (List (List Byte)) := driven s (s.pair.sent.map rideBytes)

/-- ST_WP_N is low: with RESET_N low, without a mounted medium that may be written, asleep and in the safe state
(R582). -/
def stWpLow (s : State) : Option Bool :=
  driven s (s.start.resetLow || decide (s.store.medium ∈ [0, 4, 6]) || s.power.asleep || s.safety.safe)

end Sys2Proof.Machine
end

