-- ==== Sys2Proof/Safety.lean ====
section
/-! DEFINITION. What the statements call a sound state, and an access that the device performs. -/

set_option Elab.async false

namespace Sys2Proof.Machine

/-- A sound state: the scratch ways and the reserved image area are in canonical form, the role is one of the codes of
Table 3.5, and the bus is granted to one of the five masters or to none (R44). -/
structure Sound (s : State) : Prop where
  scratch : Memory.wf 0 s.scratch = true
  area : Memory.wf 0xFF s.store.area = true
  role : s.pair.role ≤ 3
  grant : ∀ m, s.bus.grant = some m → m < 5

/-! ### An access that the device performs -/

/-- The number of a path in a window's shadows and claims: 0 the control bus, 1 BAR0 (R56, R453). -/
def pathNo : Path → Nat
  | .cb _ _ => 0
  | .bar0 _ _ => 1

/-- The parity bits of a control-bus access hold (R39): the address with CB_RW, and on a write the data. -/
def parityGood (read : Bool) (off : Nat) (d : Word) (apar : Bool) (par : BitVec 3) : Prop :=
  apar = aparOf (BitVec.ofNat 8 off) read ∧ (read = true ∨ par = parOf d)

/-- The device performs a word access on this path: on the control bus it is live, a master of the kind the register needs
holds the grant, no handshake is in progress and the parity is good (R34 to R41); through BAR0 the link is up, Memory Space
Enable is 1, and a write enables bytes 0 to 2 of the dword (R98 to R101, R146). -/
def Admitted (s : State) (k : Reach) (p : Path) (read : Bool) (off : Nat) (d : Word) : Prop :=
  match p with
  | .cb apar par => busLive s = true ∧ s.bus.ack = none ∧ parityGood read off d apar par
      ∧ ∃ m, s.bus.grant = some m ∧ (k = .mgmt → m = 0) ∧ (k = .tenant → m ≠ 0)
  | .bar0 t be => k ≠ .mgmt ∧ linkUp s t = true ∧ (link s t).mse = true ∧ (read = true ∨ be = 15 ∨ be = 7)

/-- The management master's word write is performed: Admitted on the control bus for master 0. -/
def AdmittedM (s : State) (q : CbPar) (off : Nat) (d : Word) : Prop :=
  busLive s = true ∧ s.bus.ack = none ∧ parityGood false off d q.apar q.par ∧ s.bus.grant = some 0

/-- The state a performed write acts on: the control bus asserts CB_ACK_N first (R35, R40). -/
def written (p : Path) (s : State) : State :=
  match p with
  | .cb _ _ => acknowledge none s
  | .bar0 _ _ => s

/-- No TAP instruction is loaded (R585), and the device performs the write of v at an offset of a window that answers as
its registers say (R72, R575). -/
def Performs (s : State) (k : Reach) (p : Path) (off v : Nat) : Prop :=
  s.tap = false ∧ Admitted s k p false off (word v) ∧ winOpen s (pathWin s p) = true

/-- The same of a write by the management master (R34, R72). -/
def PerformsM (s : State) (q : CbPar) (off v : Nat) : Prop :=
  s.tap = false ∧ AdmittedM s q off (word v) ∧ s.start.ready = true

/-- The same of a read. -/
def PerformsRead (s : State) (p : Path) (off : Nat) : Prop :=
  s.tap = false ∧ Admitted s .any p true off 0 ∧ winOpen s (pathWin s p) = true

/-- What a performed read of a word returns: on the control bus the device drives it with its parity and asserts CB_ACK_N
(R35, R40); through BAR0 the completion carries it as a dword (R99). -/
def returned (p : Path) (v : Word) (s : State) : State :=
  match p with
  | .cb _ _ => acknowledge (some v) s
  | .bar0 t _ => modLink t (fun l => { l with bar0 := some [BitVec.ofNat 32 v.toNat] }) s

/-! ### What each command may change -/

/-- Every part but the queue. -/
def everyPart : List Field :=
  [.clk, .free, .bus, .wins, .mgmt, .image, .params, .tables, .locks, .tenants, .links, .frames, .nextFrame,
   .ports, .lanes, .mdio, .thicket, .time, .perf, .chans, .lastChan, .canopy, .scratch, .fences, .store,
   .safety, .pair, .power, .start, .droop, .tap, .bsr]

/-- The parts of State that a command may change, by the registers and effects its rule names. -/
def footprint : Instr → List Field
  | .cbRequest _ | .cbRequestRelease _ =>
    [.bus]
  | .tenureLimit | .heldStrobe =>
    [.clk, .bus, .mgmt, .params, .tables, .locks, .tenants, .links, .frames, .ports, .time, .perf, .chans,
     .canopy, .safety, .droop]
  | .cbReqHoldoffEnd _ =>
    [.clk, .bus, .params, .tables, .tenants, .ports, .time, .perf, .droop]
  | .cbJam =>
    [.mgmt, .tables, .safety]
  | .registerWrite _ | .devReset _ | .mgmtReset _ | .trimEntry _ | .trimExit _ | .depotSleep _ | .safetyReset
  | .resetNAssert _ | .supplyLoss =>
    everyPart
  | .anchorRead _ _ | .tblDataAccess _ _ _ | .claim _ _ | .lockAcquire _ _ | .lockRelease _ | .clearBroken _ =>
    [.free, .bus, .wins, .mgmt, .params, .tables, .locks, .tenants, .links, .frames, .ports, .perf, .chans,
     .canopy, .store, .safety, .start]
  | .captureNow _ _ | .lastEvtIn0 _ | .lastEvtIn1 _ | .lastPpsIn _ | .timeSet _ | .stepForward _ | .stepBack _ =>
    [.free, .bus, .wins, .mgmt, .params, .tables, .locks, .tenants, .links, .frames, .ports, .time, .perf,
     .chans, .canopy, .store, .safety, .start]
  | .anchorWrite _ _ _ | .nonAnchorWrite _ _ _ _ =>
    [.bus, .wins, .mgmt, .params, .tables, .links, .chans, .safety]
  | .paramRead _ _ | .paramWrite _ | .paramReservedOp _ =>
    [.free, .bus, .wins, .mgmt, .params, .tables, .locks, .tenants, .links, .frames, .ports, .lanes,
     .thicket, .time, .perf, .chans, .lastChan, .canopy, .scratch, .fences, .store, .safety, .pair, .start]
  | .paramOpEnd _ | .xferChannelEnd _ | .commitFrame _ =>
    [.bus, .wins, .mgmt, .params, .tables, .locks, .tenants, .links, .frames, .ports, .lanes, .thicket,
     .time, .perf, .chans, .lastChan, .canopy, .scratch, .fences, .store, .safety, .pair]
  | .tableOpEnd _ | .timeCmdEnd _ =>
    [.wins]
  | .tableRowRead _ _ | .tableRowWrite _ | .tableRowZero _ =>
    [.free, .bus, .wins, .mgmt, .params, .tables, .locks, .tenants, .links, .frames, .ports, .thicket, .perf,
     .chans, .canopy, .store, .safety, .pair, .start]
  | .completeSource _ _ =>
    [.bus, .mgmt, .params, .tables, .links, .safety]
  | .mgmtResetEnd =>
    [.mgmt]
  | .xferStart _ _ | .xferPause _ | .xferResume _ | .xferAbort _ =>
    [.bus, .mgmt, .params, .tables, .links, .perf, .chans, .safety]
  | .xferDrainEnd _ =>
    [.chans]
  | .xferPacedBurst _ _ =>
    [.free, .mgmt, .params, .tables, .locks, .tenants, .links, .frames, .ports, .perf, .chans, .lastChan,
     .canopy, .scratch, .store, .safety, .pair]
  | .xferReadEnd _ _ _ =>
    [.free, .mgmt, .params, .tables, .links, .perf, .chans, .scratch, .store, .safety]
  | .xferReadTimeout _ =>
    [.clk, .params, .tables, .tenants, .ports, .time, .perf, .chans, .droop]
  | .canopyClean _ _ _ | .canopyInvalidate _ _ _ | .canopyCleanAndInvalidate _ _ _ =>
    [.bus, .wins, .mgmt, .params, .tables, .links, .perf, .canopy, .safety]
  | .canopyOpEnd _ _ =>
    [.wins, .tables, .links, .perf, .canopy]
  | .canopyFillEnd _ _ _ | .pageBuild _ _ | .handshakeTimeout _ _ =>
    [.free, .mgmt, .params, .tables, .locks, .tenants, .links, .frames, .ports, .perf, .chans, .canopy,
     .store, .safety, .start]
  | .txSchedule _ _ | .txBufferReadEnd _ _ _ =>
    [.free, .mgmt, .params, .tables, .locks, .tenants, .links, .frames, .ports, .perf, .chans, .lastChan,
     .canopy, .store, .safety, .start]
  | .gateChange _ _ | .safetyWatchdogExpiry | .recordWaitExpiry _ =>
    [.clk, .free, .mgmt, .params, .tables, .locks, .tenants, .links, .frames, .ports, .time, .perf, .chans,
     .canopy, .store, .safety, .start, .droop]
  | .pllLockLoss =>
    [.free, .mgmt, .params, .tables, .locks, .tenants, .links, .frames, .ports, .time, .perf, .chans,
     .canopy, .store, .safety, .start]
  | .scratchWayConversionEnd =>
    [.tables, .links, .perf, .canopy, .scratch]
  | .forceFault _ | .tenantReset _ | .tenantHold _ | .tenantRelease _ =>
    [.bus, .wins, .mgmt, .params, .tables, .locks, .tenants, .links, .frames, .ports, .perf, .chans, .canopy,
     .safety, .start]
  | .tTenantReset _ | .engineEnable _ _ | .tTxbell _ _ | .tRxbell _ _ | .ringEnable _ | .ringDisable _
  | .flushRing _ | .ringStop _ | .ringResume _ =>
    [.bus, .mgmt, .params, .tables, .locks, .tenants, .links, .frames, .ports, .perf, .chans, .lastChan,
     .canopy, .safety]
  | .cbStrobeDeassert | .tFaultClear _ _ =>
    [.bus, .mgmt, .params, .tables, .locks, .tenants, .links, .frames, .ports, .perf, .chans, .canopy, .safety]
  | .tenantResetEnd _ =>
    [.wins, .params, .tables, .tenants, .frames, .ports, .perf, .chans, .canopy, .safety]
  | .joinPair _ | .plannedSwitchover _ | .leaveToSolo _ | .clearAlarm _ =>
    [.bus, .mgmt, .params, .tables, .locks, .tenants, .links, .frames, .ports, .perf, .chans, .lastChan,
     .canopy, .safety, .pair]
  | .serviceWatchdog _ _ | .enterSafeState _ =>
    [.free, .bus, .mgmt, .params, .tables, .locks, .tenants, .links, .frames, .ports, .perf, .chans, .canopy,
     .store, .safety, .start]
  | .storeFormat _ _ | .storeAdopt _ _ | .eventLock _ _ | .streamOnline _ _ | .streamOffline _ _
  | .storeSuspend _ | .storeResume _ _ =>
    [.free, .bus, .mgmt, .params, .tables, .frames, .ports, .perf, .canopy, .store, .safety]
  | .storeCommandEnd _ =>
    [.params, .tables, .perf, .canopy, .store]
  | .imageLoad _ _ _ =>
    [.bus, .wins, .mgmt, .image, .params, .tables, .tenants, .frames, .ports, .perf, .chans, .canopy, .store,
     .safety, .start]
  | .imageLoadEnd _ =>
    [.bus, .wins, .mgmt, .image, .params, .tables, .locks, .tenants, .links, .frames, .ports, .lanes,
     .thicket, .time, .perf, .chans, .lastChan, .canopy, .scratch, .fences, .store, .safety, .pair, .start]
  | .flushComplete _ _ =>
    [.tables, .tenants, .links, .perf, .canopy]
  | .descriptorReadEnd _ _ _ | .hostLinkStateChange _ _ =>
    [.tables, .locks, .tenants, .links, .frames, .ports, .perf, .chans, .lastChan, .canopy, .safety]
  | .faultRecordPushEnd _ _ | .perstNAssert _ | .hotReset _ | .functionLevelReset _ =>
    [.tables, .locks, .tenants, .links, .frames, .ports, .perf, .chans, .canopy, .safety]
  | .descriptorReadTimeout _ _ | .ownReread _ _ | .writeBackHoldExpiry _ _ =>
    [.clk, .params, .tables, .locks, .tenants, .links, .frames, .ports, .time, .perf, .chans, .lastChan,
     .canopy, .safety, .droop]
  | .fetchTimeout _ _ | .txBufferReadTimeout _ | .faultPushCplTimeout _ =>
    [.clk, .params, .tables, .locks, .tenants, .links, .frames, .ports, .time, .perf, .chans, .canopy,
     .safety, .droop]
  | .txGladeAdmission _ _ _ =>
    [.free, .mgmt, .params, .tables, .locks, .tenants, .links, .frames, .nextFrame, .ports, .perf, .chans,
     .canopy, .store, .safety, .start]
  | .rxDelivery _ _ _ =>
    [.free, .mgmt, .tables, .locks, .tenants, .links, .frames, .ports, .perf, .chans, .lastChan, .canopy,
     .safety]
  | .perstNDeassert _ | .bar0PoisonedWrite _ =>
    [.tables, .links]
  | .hostLinkError _ =>
    [.tables, .links, .perf]
  | .busMasterEnableClear _ =>
    [.free, .wins, .params, .tables, .locks, .tenants, .links, .frames, .nextFrame, .ports, .thicket, .perf,
     .chans, .canopy, .store, .safety]
  | .configurationRequest _ _ =>
    [.free, .wins, .params, .tables, .locks, .tenants, .links, .frames, .nextFrame, .ports, .thicket, .perf,
     .chans, .lastChan, .canopy, .store, .safety]
  | .linkTrainingStart _ | .bar0UnsupportedRequest _ _ =>
    [.links]
  | .frameReceive _ _ =>
    [.mgmt, .params, .tables, .ports, .perf, .pair, .power, .start]
  | .pauseExpiry _ _ | .pfcRefresh _ | .gateSwap _ | .ppsOutPulse | .ppsOutEnd | .fixedCycleCounterWrap
  | .programmableCounterWrap _ | .bandwidthWindowEnd | .stretchBudgetWindowEnd | .phaseSlewDecrement
  | .recoveringOnset _ _ | .macControlSend _ =>
    [.clk, .params, .tables, .tenants, .ports, .time, .perf, .droop]
  | .linkUp _ =>
    [.clk, .mgmt, .params, .tables, .tenants, .ports, .time, .perf, .power, .start, .droop]
  | .linkDown _ | .inBandLinkChange _ _ _ _ =>
    [.tables, .tenants, .links, .frames, .ports, .perf, .canopy]
  | .laneSignalLoss _ =>
    [.tables, .tenants, .links, .frames, .ports, .lanes, .perf, .canopy]
  | .mdioPoll _ _ =>
    [.clk, .params, .tables, .tenants, .links, .frames, .ports, .mdio, .time, .perf, .canopy, .droop]
  | .thicketResolve _ =>
    [.free, .mgmt, .params, .tables, .locks, .tenants, .links, .frames, .nextFrame, .ports, .thicket, .perf,
     .chans, .canopy, .store, .safety, .start]
  | .extFlowReadEnd _ =>
    [.clk, .free, .mgmt, .params, .tables, .tenants, .links, .frames, .nextFrame, .ports, .thicket, .time,
     .perf, .canopy, .store, .safety, .droop]
  | .knownAnswerProbe _ | .detectorDisagreement _ =>
    [.free, .wins, .mgmt, .params, .tables, .locks, .tenants, .links, .frames, .ports, .lanes, .thicket,
     .perf, .chans, .lastChan, .canopy, .scratch, .store, .safety, .pair, .start]
  | .periodicTest _ _ _ =>
    [.clk, .free, .wins, .mgmt, .params, .tables, .locks, .tenants, .links, .frames, .ports, .lanes,
     .thicket, .time, .perf, .chans, .lastChan, .canopy, .scratch, .store, .safety, .pair, .start, .droop]
  | .egressCopy _ _ =>
    [.free, .mgmt, .tables, .tenants, .links, .frames, .ports, .perf, .canopy, .safety]
  | .egressLaunch _ _ =>
    [.clk, .free, .mgmt, .params, .tables, .tenants, .links, .ports, .time, .perf, .canopy, .safety, .droop]
  | .txFrameEnd _ =>
    [.clk, .mgmt, .params, .tables, .locks, .tenants, .links, .frames, .ports, .time, .perf, .chans,
     .lastChan, .canopy, .safety, .pair, .power, .start, .droop]
  | .witnessBeacon _ | .helloSend | .heartbeatSend | .partnerBeaconLoss =>
    [.clk, .params, .tables, .tenants, .ports, .time, .perf, .pair, .droop]
  | .ppsInCapture _ =>
    [.wins, .tables, .time]
  | .evtInCapture _ _ =>
    [.wins, .mgmt, .params, .tables, .time, .power, .start]
  | .timebasePllLock =>
    [.time, .power]
  | .presentation _ =>
    [.clk, .wins, .params, .tables, .tenants, .links, .ports, .time, .perf, .droop]
  | .pageProgram =>
    [.store]
  | .pageProgramEnd _ _ =>
    [.params, .tables, .perf, .store]
  | .storeTrigEdge _ =>
    [.tables, .store]
  | .lockWindowEnd _ | .holdExpiry _ | .ageDay =>
    [.clk, .params, .tables, .tenants, .ports, .time, .perf, .store, .droop]
  | .poweredTimeJournal =>
    [.clk, .free, .params, .tables, .tenants, .ports, .time, .perf, .store, .droop]
  | .streamWriteWatchdog _ =>
    [.clk, .mgmt, .params, .tables, .tenants, .frames, .ports, .time, .perf, .canopy, .store, .safety, .droop]
  | .targetBusyTimeout _ =>
    [.mgmt, .params, .tables, .frames, .ports, .canopy, .store, .safety]
  | .mediumMount _ =>
    [.params, .tables, .canopy, .store, .power]
  | .presencePoll _ =>
    [.clk, .params, .tables, .tenants, .ports, .time, .perf, .canopy, .store, .droop]
  | .powerUpScan _ _ _ | .coppiceRefresh _ _ =>
    [.params, .tables, .perf, .store, .safety]
  | .wearLevellingMove _ =>
    [.clk, .params, .tables, .tenants, .ports, .time, .perf, .store, .safety, .droop]
  | .rideLinkUp | .discardedRideFrame _ =>
    [.pair]
  | .ackFrame _ =>
    [.chans, .pair]
  | .rideLinkDown | .nakFrame _ =>
    [.params, .tables, .chans, .pair]
  | .helloFrame _ | .switchDone _ =>
    [.tables, .chans, .pair]
  | .heartbeatFrame _ =>
    [.params, .tables, .ports, .time, .chans, .pair]
  | .dataFrame _ _ =>
    [.mgmt, .params, .tables, .locks, .tenants, .links, .frames, .ports, .perf, .chans, .lastChan, .canopy,
     .safety, .pair]
  | .switchRequest _ =>
    [.params, .tables, .locks, .tenants, .links, .frames, .ports, .perf, .chans, .lastChan, .canopy, .safety,
     .pair]
  | .leaveFrame _ =>
    [.tables, .locks, .tenants, .links, .frames, .ports, .perf, .chans, .lastChan, .canopy, .safety, .pair]
  | .retransmissionTimeout | .epochTimeout =>
    [.clk, .params, .tables, .tenants, .ports, .time, .perf, .chans, .pair, .droop]
  | .witnessWindowExpiry | .partitionTimeout | .heartbeatLoss | .switchoverTimeout =>
    [.clk, .params, .tables, .locks, .tenants, .links, .frames, .ports, .time, .perf, .chans, .lastChan,
     .canopy, .safety, .pair, .droop]
  | .epochBoundary =>
    [.clk, .params, .tables, .tenants, .ports, .time, .perf, .chans, .scratch, .pair, .droop]
  | .droopTrip _ _ | .droopClear _ _ =>
    [.droop]
  | .thermalSample _ =>
    [.clk, .free, .mgmt, .params, .tables, .locks, .tenants, .links, .frames, .ports, .time, .perf, .chans,
     .canopy, .store, .safety, .power, .start, .droop]
  | .odometerSecond =>
    [.clk, .params, .tables, .tenants, .ports, .time, .perf, .power, .droop]
  | .hourlyMeasurement _ _ =>
    [.clk, .mgmt, .params, .tables, .tenants, .ports, .time, .perf, .safety, .power, .droop]
  | .selfCheckEnd _ =>
    [.free, .wins, .mgmt, .params, .tables, .locks, .tenants, .links, .frames, .ports, .lanes, .thicket,
     .perf, .chans, .lastChan, .canopy, .scratch, .store, .safety, .pair, .power, .start]
  | .memoryInitialisationEnd =>
    [.wins, .params, .tables, .tenants, .links, .frames, .ports, .lanes, .perf, .chans, .canopy, .store,
     .safety, .power, .start]
  | .keepAlive _ =>
    []
  | .powerOn =>
    [.clk, .power, .start]
  | .resetNRelease _ =>
    [.bus, .mgmt, .params, .tables, .safety, .power, .start]
  | .internalResetRelease _ =>
    [.clk, .bus, .params, .tables, .tenants, .ports, .time, .perf, .safety, .power, .start, .droop]
  | .pllLockTimeout =>
    [.clk, .free, .wins, .mgmt, .params, .tables, .locks, .tenants, .links, .frames, .ports, .lanes, .time,
     .perf, .chans, .canopy, .store, .safety, .power, .start, .droop]
  | .startupWindowClose =>
    [.clk, .wins, .params, .tables, .tenants, .frames, .ports, .time, .perf, .chans, .canopy, .store,
     .safety, .start, .droop]
  | .laneLockAcquired _ =>
    [.free, .params, .tables, .tenants, .links, .frames, .ports, .lanes, .perf, .canopy]
  | .blockEraseEnd _ _ =>
    [.params, .tables, .store]
  | .canopyClosingReadTimeout _ =>
    [.clk, .wins, .params, .tables, .tenants, .links, .ports, .time, .perf, .canopy, .droop]
  | .tapInstructionLoad _ _ =>
    [.tap, .bsr]

end Sys2Proof.Machine
end

