-- ==== Sys2Proof/Certificates/Slice0/Obligations.lean ====
section
/-! DEFINITION. The statements for the provers. Each docstring ends with the rules of the spec its clauses rest on. -/

set_option Elab.async false

set_option autoImplicit false

open Sys2Proof Sys2Proof.Machine

/-! ### The control bus (chapter 2) -/

/-- An idle bus goes to a requesting master: with CB_ARB_MODE 0 the first in round robin after the one last granted,
which is master 4 until the first grant; with CB_ARB_MODE 1 management first, and then the tenants in round robin
after the tenant last granted, from master 1 when none has been. (On R45, R46.) -/
def Obligations.ArbitrationFollowsTheRoundRobin : Prop :=
  (∀ (s : State) (j : Nat), s.bus.lastGrant ≤ 4 → s.bus.lastTenant ≤ 4 → nextMaster s = some j →
    j ≤ 4 ∧ wants s j = true
    ∧ (bitOf (pn s 0x0200F0) 0 = false →
        ∀ i, i < (j + 4 + 4 * s.bus.lastGrant) % 5 → wants s ((s.bus.lastGrant + 1 + i) % 5) = false)
    ∧ (bitOf (pn s 0x0200F0) 0 = true → (wants s 0 = true → j = 0)
        ∧ (wants s 0 = false →
            1 ≤ j ∧ ∀ i, i < (j + 3 + 3 * s.bus.lastTenant) % 4 → wants s ((s.bus.lastTenant + i) % 4 + 1) = false))
    ∧ (s.bus.grant = none → s.bus.ack = none → busLive s = true →
        (arbitrate s).bus.grant = some j ∧ (arbitrate s).bus.lastGrant = j
        ∧ (arbitrate s).bus.lastTenant = if j = 0 then s.bus.lastTenant else j))
  ∧ (∀ s : State, nextMaster s = none → ∀ m, m < 5 → wants s m = false)
  ∧ (∀ s : State, (internalReset s).bus.lastGrant = 4 ∧ (internalReset s).bus.lastTenant = 0
      ∧ (pinReset s).bus.lastGrant = 4 ∧ (pinReset s).bus.lastTenant = 0)

/-- CB_REQUEST records the request, ends a holdoff of 1 µs, and arbitrates the bus; an idle bus goes to the selected
master with the limit then in force; CB_REQUEST_RELEASE ends the tenure where no handshake is in progress. (On R44
to R46, R49, R69.) -/
def Obligations.RequestsTakeAndLeaveTheBus : Prop :=
  (∀ (s : State) (m : Fin 5), s.tap = false → s.bus.offAt.find? (fun e => e.1 == m.val) = none →
    exec (.cbRequest m) s = .next (arbitrate { s with bus := { s.bus with
      req := s.bus.req ||| BitVec.ofNat 5 (2 ^ m.val), offAt := s.bus.offAt.filter (fun e => e.1 != m.val) } }))
  ∧ (∀ (s : State) (m : Fin 5) (off : Nat), s.tap = false → s.bus.offAt.find? (fun e => e.1 == m.val) = some (m.val, off) →
    exec (.cbRequest m) s = .next (arbitrate { s with bus := { s.bus with
      req := s.bus.req ||| BitVec.ofNat 5 (2 ^ m.val), offAt := s.bus.offAt.filter (fun e => e.1 != m.val),
      ignored := if off + us 1 ≤ s.clk then s.bus.ignored &&& ~~~BitVec.ofNat 5 (2 ^ m.val) else s.bus.ignored } }))
  ∧ (∀ s : State, s.bus.grant ≠ none ∨ s.bus.ack ≠ none ∨ busLive s = false ∨ nextMaster s = none → arbitrate s = s)
  ∧ (∀ (s : State) (j : Nat), s.bus.grant = none → s.bus.ack = none → busLive s = true → nextMaster s = some j →
    arbitrate s = { s with bus := { s.bus with
      grant := some j, lastGrant := j, lastTenant := if j = 0 then s.bus.lastTenant else j, grantAt := s.clk,
      limit := pn s (0x020000 + 256 * j), ending := .none } })
  ∧ (∀ (s u : State) (m : Fin 5), s.tap = false →
    u = { s with bus := { s.bus with
      req := s.bus.req &&& ~~~BitVec.ofNat 5 (2 ^ m.val),
      offAt := if s.bus.ignored.getLsbD m && s.bus.req.getLsbD m then tput s.bus.offAt m s.clk else s.bus.offAt } } →
    (s.bus.grant ≠ some m.val ∨ s.bus.ack ≠ none → exec (.cbRequestRelease m) s = .next u)
    ∧ (s.bus.grant = some m.val → s.bus.ack = none → exec (.cbRequestRelease m) s = .next (arbitrate { u with
        bus := { u.bus with grant := none, ack := none, dataOut := none, ending := .none } })))

/-- How tenures and handshakes end: at the limit, on a held strobe, and when the strobe deasserts; the holdoff's end;
and the strobe without a grant. An event comes once its time has passed. A revocation takes the grant away and has
the master's request ignored; of master 0 it counts in TENURE_REVOKED and sets M_FAULT.TENURE. (On R38, R47, R48,
R49, R51, R599, R49, R50.) -/
def Obligations.TenuresEndAndRevocationsReport : Prop :=
  ((∀ (s : State) (m : Nat), s.tap = false → s.bus.grant = some m → s.bus.grantAt + us s.bus.limit ≤ s.clk →
    (s.bus.ack = none → exec .tenureLimit s = .next (revoke m false s))
    ∧ (s.bus.ack ≠ none → s.bus.ending ≠ .disable →
        exec .tenureLimit s = .next { s with bus := { s.bus with ending := .revoke } }))
  ∧ (∀ (s : State) (m since : Nat) (e : Bool), s.tap = false → s.bus.grant = some m → s.bus.ack = some (e, since) →
    since + us 1 ≤ s.clk → exec .heldStrobe s = .next (revoke m true s))
  ∧ (∀ (s : State) (m : Fin 5) (off : Nat), s.tap = false → s.bus.offAt.find? (fun e => e.1 == m.val) = some (m.val, off) →
    off + us 1 ≤ s.clk → exec (.cbReqHoldoffEnd m) s = .next (arbitrate { s with bus := { s.bus with
      ignored := s.bus.ignored &&& ~~~BitVec.ofNat 5 (2 ^ m.val), offAt := s.bus.offAt.filter (fun e => e.1 != m.val) } }))
  ∧ (∀ s : State, s.tap = false → busLive s = true → s.bus.grant = none →
    exec .cbJam s = .next (setMFault 2 0 31 0 0 false s))
  ∧ (∀ (s : State) (m since : Nat) (e : Bool), s.tap = false → s.bus.grant = some m → s.bus.ack = some (e, since) →
    s.clk ≤ since + us 1 →
    (s.bus.ending = .none → s.bus.req.getLsbD m = true →
      exec .cbStrobeDeassert s = .next { s with bus := { s.bus with ack := none, dataOut := none } })
    ∧ (s.bus.ending = .revoke → exec .cbStrobeDeassert s = .next (revoke m false s))
    ∧ (s.bus.ending = .disable ∨ s.bus.ending = .none ∧ s.bus.req.getLsbD m = false →
      exec .cbStrobeDeassert s = .next (arbitrate { s with
        bus := { s.bus with grant := none, ack := none, dataOut := none, ending := .none } }))))
  ∧ (∀ (s : State) (m : Nat) (h : Bool), m < 5 →
    (revoke m h s).bus.grant ≠ some m
    ∧ (revoke m h s).bus.ignored = s.bus.ignored ||| BitVec.ofNat 5 (2 ^ m)
    ∧ (revoke m h s).bus.ack = none ∧ (revoke m h s).bus.dataOut = none
    ∧ (m = 0 → (revoke m h s).mgmt.fault = s.mgmt.fault ||| 2
        ∧ pn (revoke m h s) 0x020003 = min (pn s 0x020003 + 1) 0xFFFFFF)
    ∧ (m ≠ 0 → (revoke m h s).mgmt = s.mgmt))

/-! ### Register windows (chapter 3) -/

/-- A plain access: M_SCRATCH holds what is written and drives it when read; a write of a read-only register is
acknowledged and changes nothing; bad parity is refused with CB_ERR_N, and after READY counted, recorded and
reported; BAR0 answers Unsupported Request while Memory Space Enable is 0. (On R35, R39 to R43, R63, R146.) -/
def Obligations.PlainAccessesActAsTheirClassStates : Prop :=
  (∀ (s : State) (apar : Bool) (d : Word) (par : BitVec 3), s.tap = false → busLive s = true → s.bus.ack = none →
    s.bus.grant = some 0 →
    (parityGood false 6 d apar par → exec (.registerWrite (.cb false 6 apar d par)) s =
      .next { s with bus := { s.bus with ack := some (false, s.clk), dataOut := none }, mgmt := { s.mgmt with scratch := d } })
    ∧ (parityGood true 6 d apar par → exec (.registerWrite (.cb true 6 apar d par)) s =
      .next { s with bus := { s.bus with ack := some (false, s.clk), dataOut := some (s.mgmt.scratch, parOf s.mgmt.scratch) } })
    ∧ (∀ off, off < 3 → parityGood false off d apar par →
        exec (.registerWrite (.cb false (BitVec.ofNat 8 off) apar d par)) s =
          .next { s with bus := { s.bus with ack := some (false, s.clk), dataOut := none } }))
  ∧ (∀ (s : State) (m : Nat) (read : Bool) (addr : BitVec 8) (apar : Bool) (d : Word) (par : BitVec 3), s.tap = false →
    busLive s = true → s.bus.ack = none → s.bus.grant = some m → apar ≠ aparOf addr read →
    (s.start.ready = false → exec (.registerWrite (.cb read addr apar d par)) s =
      .next { s with bus := { s.bus with ack := some (true, s.clk) } })
    ∧ (s.start.ready = true → exec (.registerWrite (.cb read addr apar d par)) s =
      .next (raise 0 7 (setPw (0x020004 + 256 * m) (2 ^ 22 + flag read 8 + addr.toNat)
        (bumpParam (0x020002 + 256 * m) 1 { s with bus := { s.bus with ack := some (true, s.clk) } })))))
  ∧ (∀ (s : State) (t : Fin 4) (read : Bool) (first : Nat) (ds : List (Dword × BitVec 4)), s.tap = false →
    linkUp s t = true → (link s t).mse = false →
    exec (.registerWrite (.bar0 t read first ds)) s = .next (modLink t (fun l => { l with bar0 := none }) s))

/-- A read of an anchor returns its bits 23:0 and latches the whole value in the path's read shadow; a write of another
word of the group goes only into the path's write shadow; a write of the anchor commits both at once. A programmable
counter that a read finds in error restarts from 0 with M_FAULT.ECC_UNCORR; the fixed one leads to the safe state. (On
R57, R58, R60, R470.) -/
def Obligations.AnchoredGroupsReadAndCommitWhole : Prop :=
  (∀ (s : State) (p : Path) (g : Group) (ecc : Bool) (k v : Nat), PerformsRead s p (groupOff g) → ecc = false ∨ g ≠ .perf →
    groupAt (pathWin s p) (groupOff g) = some (k, 0) → groupValue s (pathWin s p) k = some v →
    exec (.anchorRead p ⟨g, ecc⟩) s =
      .next (modShadow (pathWin s p) (pathNo p) k (fun x => { x with rd := v }) (returned p (wordOf v 0) s)))
  ∧ (∀ (s : State) (apar : Bool) (par : BitVec 3), PerformsRead s (.cb apar par) 0x25 → s.bus.grant = some 0 → s.start.ready = true →
    (∀ n, s.mgmt.perfSel = n + 1 → n < 8 → ∃ t, exec (.anchorRead (.cb apar par) ⟨.perf, true⟩) s = .next t
      ∧ tget t.perf.cnt n 0 = 0 ∧ t.mgmt.fault.getLsbD 3 = true ∧ t.safety.safe = s.safety.safe)
    ∧ (s.mgmt.perfSel = 0 → ∃ t, exec (.anchorRead (.cb apar par) ⟨.perf, true⟩) s = .next t
      ∧ t.mgmt.fault.getLsbD 3 = true ∧ t.safety.safe = true))
  ∧ (∀ (s : State) (p : Path) (g : Group) (k : Nat) (high : Bool) (d : Word),
    Performs s .any p (groupOff g + if high then 2 else 1) d.toNat → k < 3 →
    groupAt (pathWin s p) (groupOff g) = some (k, 0) → groupOpen s (pathWin s p) k = true →
    exec (.nonAnchorWrite p g high d) s = .next (modShadow (pathWin s p) (pathNo p) k (fun x => { x with
      wr := putBits x.wr (if high then 48 else 24) (if high then 16 else 24) d.toNat }) (written p s)))
  ∧ (∀ (s : State) (p : Path) (d : Word) (v c : Nat), Performs s .any p 0x29 d.toNat → selChan s (pathWin s p) = some c →
    groupOpen s (pathWin s p) 0 = true → v = (shadow s (pathWin s p) (pathNo p) 0).wr / 2 ^ 24 * 2 ^ 24 + d.toNat →
    exec (.anchorWrite p .xferSrc d) s = .next (modChan c (fun x => { x with src := v }) (written p s)))
  ∧ (∀ (s : State) (p : Path) (d : Word) (v c : Nat), Performs s .any p 0x2C d.toNat → selChan s (pathWin s p) = some c →
    groupOpen s (pathWin s p) 1 = true → v = (shadow s (pathWin s p) (pathNo p) 1).wr / 2 ^ 24 * 2 ^ 24 + d.toNat →
    exec (.anchorWrite p .xferDst d) s = .next (modChan c (fun x => { x with dst := v }) (written p s)))
  ∧ (∀ (s : State) (p : Path) (d : Word) (v : Nat), Performs s .any p 0x35 d.toNat →
    (win s (pathWin s p)).canopyBusy = false → v = (shadow s (pathWin s p) (pathNo p) 2).wr / 2 ^ 24 * 2 ^ 24 + d.toNat →
    exec (.anchorWrite p .canopyBase d) s =
      .next (modWin (pathWin s p) (fun x => { x with canopyBase := v }) (written p s)))

/-- M_TBL_DATA and T_TBL_DATA: an access reads or writes the buffer word that M_TBL_WORD names and advances M_TBL_WORD,
with wrap at the row length and after word 63. Table ports: OP 1 loads the addressed row into the row buffer; OP 2
writes the first L buffer words after the guard and the value checks; OP 3 writes zeros; a row outside the table
ends with 4, and a table that is not there with 3. (On R77, R113, R113, R119, R121.) -/
def Obligations.TablePortsMoveWordsAndRows : Prop :=
  ((∀ (s : State) (p : Path) (d : Word), PerformsRead s p 0x0F → portBusy s (win s (pathWin s p)).tstat = false →
    exec (.tblDataAccess p true d) s = .next (modWin (pathWin s p) (fun x => { x with
        tblWord := if x.tblWord + 1 = bufLen s (pathWin s p) ∨ x.tblWord + 1 > 63 then 0 else x.tblWord + 1 })
      (returned p (tblDataRead s (pathWin s p)) s)))
  ∧ (∀ (s : State) (p : Path) (d : Word), Performs s .any p 0x0F d.toNat →
    portBusy s (win s (pathWin s p)).tstat = false → (win s (pathWin s p)).tblWord < 64 →
    ∃ t, exec (.tblDataAccess p false d) s = .next t
      ∧ (win t (pathWin s p)).buf.getD (win s (pathWin s p)).tblWord 0 = d
      ∧ (∀ k, k ≠ (win s (pathWin s p)).tblWord →
          (win t (pathWin s p)).buf.getD k 0 = (win s (pathWin s p)).buf.getD k 0)
      ∧ ((win s (pathWin s p)).tblWord + 1 < bufLen s (pathWin s p) → (win s (pathWin s p)).tblWord < 63 →
          (win t (pathWin s p)).tblWord = (win s (pathWin s p)).tblWord + 1)
      ∧ ((win s (pathWin s p)).tblWord + 1 = bufLen s (pathWin s p) → (win t (pathWin s p)).tblWord = 0)))
  ∧ ((∀ (s : State) (p : Path) (w table inst r : Nat) (d : Table), Performs s .any p 0x10 1 → w = pathWin s p →
    portBusy s (win s w).tstat = false → tableAddress s w = .inr (table, inst, r, d) →
    w = 0 ∨ tenantReadsTable table = true → exec (.tableRowRead p false) s =
      .next (tableBusy w 0 (modWin w (fun x => { x with
        buf := (List.range d.words).map fun i => (tableRead s table inst r).getD i 0 })
          (if table = 0x0F then drawn (written p s) else written p s))))
  ∧ (∀ (s : State) (p : Path) (w table inst r : Nat) (d : Table), Performs s .any p 0x10 2 → w = pathWin s p →
    portBusy s (win s w).tstat = false → tableAddress s w = .inr (table, inst, r, d) →
    ∀ res u, (res, u) = rowPut (w == 0 || tenantWritesTable table) 2 table inst r d.words
        ((win s w).buf.take d.words) (written p s) →
      exec (.tableRowWrite p) s = .next (tableBusy w res u))
  ∧ (∀ (s : State) (p : Path) (w table inst r : Nat) (d : Table), Performs s .any p 0x10 3 → w = pathWin s p →
    portBusy s (win s w).tstat = false → tableAddress s w = .inr (table, inst, r, d) →
    ∀ res u, (res, u) = rowPut (w == 0 || tenantWritesTable table) 3 table inst r d.words
        ((win s w).buf.take d.words) (written p s) →
      exec (.tableRowZero p) s = .next (tableBusy w res u))
  ∧ (∀ (s : State) (w : Nat), tableInfo (bits (win s w).tblId 0 8) (blockTableRows s) = none →
    tableAddress s w = .inl 3)
  ∧ (∀ (s : State) (w : Nat) (d : Table), tableInfo (bits (win s w).tblId 0 8) (blockTableRows s) = some d →
    d.rows ≤ (win s w).tblRow.toNat → tableAddress s w = .inl 4)
  ∧ (∀ (s : State) (op table inst r len : Nat) (ws : List Word), op = 2 ∨ op = 3 →
    rowPut false op table inst r len ws s = (2, s)
    ∧ (rowGuard s op table inst r = true → rowPut true op table inst r len ws s = (2, s))
    ∧ (s.safety.safe = false → mirrorBarred s = false → (table = 2 ∨ table = 3 ∨ table = 7 ∨ table = 9) →
      (rowPut true op table inst r len ws s).1 = 0
      ∧ rowAt (rowPut true op table inst r len ws s).2 table inst r
          = (List.range len).map (fun i => if op = 3 then 0 else word ((ws.getD i 0).toNat &&& rowMask table r i))
      ∧ ∀ a b c, rowKey a b c ≠ rowKey table inst r →
          rowAt (rowPut true op table inst r len ws s).2 a b c = rowAt s a b c)))

/-! ### Parameter and table ports (chapter 4) -/

/-- OP 1 of a parameter port: an item of one word is read; an anchor read returns bits 23:0 and latches the whole value,
from which the other items are then read; an unknown ID ends with RESULT 3 and a missing right with 2. OP 3 changes
nothing and ends with 4. At the operation's end RESULT is shown and BUSY clears; a write that changes owners of channels
first waits for them to end, and is then stored. (On R107, R110, R397, R598.) -/
def Obligations.ParameterReadsLatchWideValues : Prop :=
  (∀ (s : State) (p : Path) (w id : Nat), Performs s .any p 0x0A 1 → w = pathWin s p →
    portBusy s (win s w).pstat = false → id = (win s w).paramId.toNat →
    (paramInfo id = none → exec (.paramRead p false) s = .next (paramBusy w 3 (written p s)))
    ∧ (∀ i, paramInfo id = some i → mayRead w id = false →
        exec (.paramRead p false) s = .next (paramBusy w 2 (written p s)))
    ∧ (∀ i, paramInfo id = some i → mayRead w id = true → i.words ≤ 1 → exec (.paramRead p false) s =
        .next (paramBusy w 0 (modWin w (fun x => { x with paramData := word (liveWord s id) }) (written p s))))
    ∧ (∀ i, paramInfo id = some i → mayRead w id = true → 1 < i.words → id = i.anchor → exec (.paramRead p false) s =
        .next (paramBusy w 0 (modWin w (fun x => { x with
          paramData := word (liveWhole s i), latch := some (id, liveWhole s i) }) (written p s))))
    ∧ (∀ i v, paramInfo id = some i → mayRead w id = true → 1 < i.words → id ≠ i.anchor →
        (win s w).latch = some (i.anchor, v) → exec (.paramRead p false) s =
        .next (paramBusy w 0 (modWin w (fun x => { x with paramData := wordOf v (id - i.anchor) }) (written p s)))))
  ∧ (∀ (s : State) (p : Path) (w : Nat), Performs s .any p 0x0A 3 → w = pathWin s p →
    portBusy s (win s w).pstat = false → exec (.paramReservedOp p) s = .next (paramBusy w 4 (written p s)))
  ∧ (∀ (s : State) (w : Fin 5), s.tap = false → (win s w).pstat.busy = true → w.val ≠ 0 ∨ s.mgmt.handover = none →
    ∃ t, exec (.paramOpEnd w) s = .next t ∧ (win t w).pstat.busy = false
      ∧ (win t w).pstat.result = (win s w).pstat.ends ∧ (win t w).pstat.overrun = (win s w).pstat.overrun)
  ∧ (∀ (s : State) (id v : Nat), s.tap = false → s.mgmt.handover = some (id, v) →
    (((movedChannels s id v).any fun c => (chan s c).busy) = true → exec (.paramOpEnd 0) s = .next s)
    ∧ (((movedChannels s id v).any fun c => (chan s c).busy) = false → ∀ i, paramInfo id = some i →
      exec (.paramOpEnd 0) s = .next (modWin 0 (fun x => if x.pstat.busy then
          { x with pstat := { x.pstat with result := x.pstat.ends, busy := false } } else x)
        (commitValue i v { s with mgmt := { s.mgmt with handover := none } }))))
  ∧ (∀ (s : State) (w : Fin 5), s.tap = false → (win s w).tstat.busy = true →
    ∃ t, exec (.tableOpEnd w) s = .next t ∧ (win t w).tstat.busy = false
      ∧ (win t w).tstat.result = (win s w).tstat.ends ∧ (win t w).tstat.overrun = (win s w).tstat.overrun)

/-- OP 2 of a parameter port: an unknown ID ends with 3; a read-only item, a missing right and the device safe state end
with 2, and so do all items of a gate list while its SWAP is 1; a non-anchor item goes only into the write shadow; an
anchor commits the shadow with M_PARAM_DATA, and a clamped value is read back. The items of blocks 0x20 to 0x22 with one
word hold what is written, masked. (On R107, R111, R118, R320.) -/
def Obligations.ParameterWritesCommitOnTheAnchor : Prop :=
  (∀ (s : State) (p : Path) (w id : Nat), Performs s .any p 0x0A 2 → w = pathWin s p →
    portBusy s (win s w).pstat = false → id = (win s w).paramId.toNat →
    (paramInfo id = none → ∃ t, exec (.paramWrite p) s = .next t ∧ (win t w).pstat.ends = 3
      ∧ (win t w).pstat.busy = true ∧ t.params = s.params)
    ∧ (∀ i, paramInfo id = some i →
      i.rw = false ∨ mayWrite s w id = false ∨ s.safety.safe = true ∨ itemGuard s id = true →
      ∃ t, exec (.paramWrite p) s = .next t ∧ (win t w).pstat.ends = 2 ∧ (win t w).pstat.busy = true
        ∧ t.params = s.params)
    ∧ (∀ i, paramInfo id = some i → i.rw = true → mayWrite s w id = true → s.safety.safe = false →
      mirrorBarred s = false → itemGuard s id = false → id ≠ i.anchor →
      ∃ t, exec (.paramWrite p) s = .next t ∧ (win t w).pstat.ends = 0 ∧ (win t w).pstat.busy = true
        ∧ (win t w).staged = tput (win s w).staged id (win s w).paramData ∧ t.params = s.params)
    ∧ (∀ i r u, paramInfo id = some i → i.rw = true → mayWrite s w id = true → s.safety.safe = false →
      mirrorBarred s = false → id = i.anchor → i.words = 1 →
      (r, u) = paramCommit i (win s w).paramData.toNat (written p s) → exec (.paramWrite p) s =
        .next (paramBusy w r (modWin w (fun x => { x with
          staged := (win s w).staged, paramData := if r = 1 then word (liveWord u id) else x.paramData }) u))))
  ∧ (∀ (s : State) (id v m : Nat),
    (id, m) ∈ [(0x200000, 0x77), (0x200005, 0x8003FF), (0x200006, 0xFFFFFF), (0x210000, 1), (0x210001, 0xFFFFFF),
      (0x210002, 1), (0x220000, 0xF)] → v < 2 ^ 24 →
    ∀ i, paramInfo id = some i → (paramCommit i v s).1 = 0 ∧ pn (paramCommit i v s).2 id = v &&& m
      ∧ ∀ k, k ≠ id → pn (paramCommit i v s).2 k = pn s k)
  ∧ (∀ (s : State) (i : Param) (v : Nat),
    (paramGuard s i.anchor v = true → paramCommit i v s = (2, s))
    ∧ (paramGuard s i.anchor v = false → paramForbidden s i.anchor v = true ∨ fitValue i.fit v = none →
        paramCommit i v s = (4, s)))

/-- A raise of an enabled source makes it pending and counts, and leaves a disabled source as it is; a claim returns the
lowest enabled pending source that is not active, with its COUNT, and makes it active; a completion clears ACTIVE,
and in REPEND mode raises again while the condition holds. (On R448, R449, R452 to R454, R471.) -/
def Obligations.SourcesAreRaisedClaimedAndCompleted : Prop :=
  (∀ (s : State) (w n : Nat), w < 256 → n < 65536 →
    (bitOf (srcRow s w n) 23 = false → raise w n s = s)
    ∧ (bitOf (srcRow s w n) 23 = true → srcRow s w n < 2 ^ 24 → bits (srcRow s w n) 0 4 < 15 →
        bitOf (srcRow (raise w n s) w n) 6 = true
        ∧ bits (srcRow (raise w n s) w n) 0 4 = bits (srcRow s w n) 0 4 + 1)
    ∧ (bitOf (srcRow s w n) 23 = true → srcRow s w n < 2 ^ 24 → bits (srcRow s w n) 0 4 = 15 →
        bitOf (srcRow (raise w n s) w n) 6 = true ∧ bitOf (srcRow (raise w n s) w n) 5 = true
        ∧ bits (srcRow (raise w n s) w n) 0 4 = 15)
    ∧ ∀ k, k < 65536 → k ≠ n → srcRow (raise w n s) w k = srcRow s w k)
  ∧ (∀ (s : State) (p : Path) (w n : Nat), PerformsRead s p 0x14 → w = pathWin s p → claimable s w = some n →
    srcRow s w n < 2 ^ 24 →
    ∃ t, exec (.claim p false) s = .next t
      ∧ bitOf (srcRow t w n) 7 = true ∧ bitOf (srcRow t w n) 6 = false ∧ bits (srcRow t w n) 0 4 = 0
      ∧ (∀ k, k < 65536 → k ≠ n → srcRow t w k = srcRow s w k)
      ∧ (win t w).sinceClaim.getLsbD (pathNo p) = false
      ∧ (match p with
        | .cb _ _ => t.bus.dataOut = some (word (bits (srcRow s w n) 0 4 * 256 + n), parOf (word (bits (srcRow s w n) 0 4 * 256 + n)))
        | .bar0 k _ => (link t k).bar0 = some [BitVec.ofNat 32 (word (bits (srcRow s w n) 0 4 * 256 + n)).toNat]))
  ∧ (∀ (s : State) (w n : Nat), claimable s w = some n ↔
    n ∈ sources ∧ (bitOf (srcRow s w n) 23 && bitOf (srcRow s w n) 6 && !bitOf (srcRow s w n) 7) = true
      ∧ ∀ k ∈ sources, k < n → (bitOf (srcRow s w k) 23 && bitOf (srcRow s w k) 6 && !bitOf (srcRow s w k) 7) = false)
  ∧ (∀ (s : State) (p : Path) (w : Nat) (n : BitVec 6), Performs s .any p 0x15 n.toNat → w = pathWin s p →
    1 ≤ n.toNat → n.toNat ≤ 62 → bitOf (srcRow s w n.toNat) 7 = true →
    (cond s w n.toNat = false ∨ bitOf (srcRow s w n.toNat) 23 = false ∨ bitOf (srcRow s w n.toNat) 22 = false →
      exec (.completeSource p n) s =
        .next (putSrc w n.toNat (putBits (srcRow s w n.toNat) 7 1 0) (written p s)))
    ∧ (cond s w n.toNat = true → bitOf (srcRow s w n.toNat) 23 = true → bitOf (srcRow s w n.toNat) 22 = true →
      exec (.completeSource p n) s =
        .next (raise w n.toNat (putSrc w n.toNat (putBits (srcRow s w n.toNat) 7 1 0) (written p s)))))

/-! ### M_CONTROL, locks and time commands -/

/-- DEV_RESET with its KEY resets the device: everything but the queue, the model's clock, the levels at its inputs, the
OTP key, the cartridge's journal and the items that outlive a reset is as at reset; the reset is held from this instant.
MGMT_RESET with its KEY: the M window and every channel of management are as at reset, every lock it holds is free and
BROKEN; M_SCRATCH, M_FAULT and its detail stay; a parameter write that waits for channels waits no longer; MGMT_RESET
reads 1 until the reset's end. That the journal outlives a reset is the model's choice (assumption 65). (On R85, R562, R568, R76, R163.) -/
def Obligations.DeviceAndManagementResetsActAsStated : Prop :=
  ((∀ (s : State) (q : CbPar), PerformsM s q 0x03 (0xC30001 + flag s.mgmt.trim 3) →
    exec (.devReset q) s = .next (internalReset (acknowledge none s)))
  ∧ (∀ (s : State) (since : Nat), s.safety.resetFrom = some since → since + ms 100 ≤ s.clk →
    exec .safetyReset s = .next (internalReset s))
  ∧ ∀ s : State,
    (internalReset s).start.ready = false ∧ (internalReset s).start.internal = some s.clk
    ∧ (internalReset s).pending = s.pending ∧ (internalReset s).clk = s.clk
    ∧ (internalReset s).bus = { req := s.bus.req } ∧ (internalReset s).wins = [] ∧ (internalReset s).mgmt = {}
    ∧ (internalReset s).image = {} ∧ (internalReset s).tables = [] ∧ (internalReset s).locks = []
    ∧ (internalReset s).tenants = [] ∧ (internalReset s).frames = [] ∧ (internalReset s).ports = []
    ∧ (internalReset s).time = {} ∧ (internalReset s).chans = [] ∧ (internalReset s).canopy = {}
    ∧ (internalReset s).scratch = [] ∧ (internalReset s).fences = 0 ∧ (internalReset s).safety = {}
    ∧ (internalReset s).pair = {} ∧ (internalReset s).tap = false
    ∧ (internalReset s).store
        = { otpKey := s.store.otpKey, otpLock := s.store.otpLock, journal := (recordTime s).store.journal }
    ∧ (∀ id, keptParam id = true → pn (internalReset s) id = pn s id)
    ∧ (∀ id, keptParam id = false → pn (internalReset s) id = (paramReset id).toNat)
    ∧ (∀ t, (link (internalReset s) t).perst = (link s t).perst))
  ∧ ((∀ (s : State) (q : CbPar), PerformsM s q 0x03 (0xC30002 + flag s.mgmt.trim 3) → s.mgmt.mgmtReset = false →
    ∃ t, exec (.mgmtReset q) s = .next t ∧ t.mgmt.mgmtReset = true ∧ win t 0 = {}
      ∧ t.mgmt.scratch = s.mgmt.scratch ∧ t.mgmt.fault = s.mgmt.fault ∧ t.mgmt.detail = s.mgmt.detail
      ∧ t.mgmt.trim = s.mgmt.trim ∧ t.mgmt.selTenant = 0 ∧ t.mgmt.perfSel = 0 ∧ t.mgmt.handover = none ∧ t.image = {}
      ∧ (s.mgmt.handover = none →
          (∀ c, c < 16 → chanOwner s c = .mgmt → chan t c = {})
          ∧ (∀ k, k < 16 → (lock s k).owner = some 0 → (lock t k).owner = none ∧ (lock t k).broken = true)
          ∧ ∀ k, (lock s k).owner ≠ some 0 → lock t k = lock s k)
      ∧ (∀ n, 1 ≤ n → n ≤ 62 → bitOf (srcRow t 0 n) 5 = false ∧ bitOf (srcRow t 0 n) 6 = false
          ∧ bitOf (srcRow t 0 n) 7 = false ∧ bits (srcRow t 0 n) 0 4 = 0))
  ∧ (∀ s : State, s.tap = false →
    exec .mgmtResetEnd s = .next { s with mgmt := { s.mgmt with mgmtReset := false } }))

/-- TRIM powers down the lanes of TRIM_QUADS and restarts them; SLEEP with its KEY, where nothing forbids it, clears
READY, resets every tenant and host link, empties the Glade and the scratch ways, and writes the non-volatile record,
which tests checker 44. (On R514 to R517, R524.) -/
def Obligations.TrimAndSleepPowerDown : Prop :=
  (∀ (s : State) (q : CbPar), PerformsM s q 0x03 8 → s.mgmt.trim = false →
    ∃ t, exec (.trimEntry q) s = .next t ∧ t.mgmt.trim = true
      ∧ ∀ l, l < 8 → bitOf (pn s 0x80FF02) l = true → (lane t l).down = true)
  ∧ (∀ (s : State) (q : CbPar), PerformsM s q 0x03 0 → s.mgmt.trim = true → s.power.asleep = false →
    ∃ t, exec (.trimExit q) s = .next t ∧ t.mgmt.trim = false ∧ ∀ l, l < 8 → (lane t l).down = false)
  ∧ (∀ (s : State) (q : CbPar), PerformsM s q 0x03 (0xC30004 + flag s.mgmt.trim 3) → sleepBarred s = false →
    s.power.asleep = false →
    ∀ good, ∃ t, exec (.depotSleep ⟨q, good⟩) s = .next t ∧ t.power.asleep = true ∧ t.mgmt.sleep = true ∧ t.start.ready = false
      ∧ t.power.sleepAt = s.clk ∧ t.power.nvNew = nvRecord s ∧ t.power.nvOld = s.power.nvNew ∧ t.frames = [] ∧ t.scratch = []
      ∧ t.safety.dog = none ∧ (good = false → t.mgmt.fault.getLsbD 5 = true ∧ t.safety.testFail = true)
      ∧ ∀ k, k < 4 → (ten t k).inReset = true ∧ (link t k).state = .detect ∧ (link t k).bme = false)
  ∧ (∀ (s : State) (q : CbPar), PerformsM s q 0x03 (0xC30004 + flag s.mgmt.trim 3) → sleepBarred s = true →
    ∀ good, exec (.depotSleep ⟨q, good⟩) s = .next (acknowledge none s))

/-- ACQUIRE takes a free lock, or records the window as waiting; RELEASE frees and CLEAR_BROKEN clears BROKEN, for the
owner alone; LAST_OK says which. (On R159 to R162.) -/
def Obligations.LocksAreHeldByOneWindow : Prop :=
  (∀ (s : State) (p : Path) (w k : Nat), Performs s .any p 0x19 1 → w = pathWin s p → k = (win s w).lockSel → k < 16 → w < 5 →
    ((lock s k).owner = some w ∨ (lock s k).owner = none ∧ (w = 0 ∨ (ten s (w - 1)).fault = 0) →
      ∃ t, exec (.lockAcquire p false) s = .next t ∧ (lock t k).owner = some w ∧ (win t w).lastOk.getLsbD k = true
        ∧ (lock t k).waiting.getLsbD w = false ∧ (lock t k).broken = (lock s k).broken)
    ∧ ((∃ v, (lock s k).owner = some v ∧ v ≠ w) ∨ (lock s k).owner = none ∧ w ≠ 0 ∧ (ten s (w - 1)).fault ≠ 0 →
      ∃ t, exec (.lockAcquire p false) s = .next t ∧ (lock t k).owner = (lock s k).owner ∧ (win t w).lastOk.getLsbD k = false
        ∧ (lock t k).waiting.getLsbD w = true ∧ (lock t k).broken = (lock s k).broken))
  ∧ (∀ (s : State) (p : Path) (w k : Nat), Performs s .any p 0x19 2 → w = pathWin s p → k = (win s w).lockSel → k < 16 →
    ((lock s k).owner = some w → ∃ t, exec (.lockRelease p) s = .next t
        ∧ lock t k = { lock s k with owner := none } ∧ (win t w).lastOk.getLsbD k = true)
    ∧ ((lock s k).owner ≠ some w → ∃ t, exec (.lockRelease p) s = .next t ∧ t.locks = s.locks
        ∧ (win t w).lastOk.getLsbD k = false))
  ∧ (∀ (s : State) (p : Path) (w k : Nat), Performs s .any p 0x19 3 → w = pathWin s p → k = (win s w).lockSel → k < 16 →
    ((lock s k).owner = some w → ∃ t, exec (.clearBroken p) s = .next t
        ∧ lock t k = { lock s k with broken := false } ∧ (win t w).lastOk.getLsbD k = true)
    ∧ ((lock s k).owner ≠ some w → ∃ t, exec (.clearBroken p) s = .next t ∧ t.locks = s.locks
        ∧ (win t w).lastOk.getLsbD k = false))

/-- The time commands: OP 1 loads W0 to W3 with the device time, OP 2 to 4 with a capture, VALID once per window; OP 8
sets, 9 adds and 10 subtracts down to 0; nanoseconds of 1,000,000,000 or more change nothing. (On R305, R306.) -/
def Obligations.TimeCommandsLoadAndSetTheTime : Prop :=
  (∀ (s : State) (p : Path), Performs s .any p 0x20 1 →
    exec (.captureNow p false) s = .next (modWin (pathWin s p) (fun x => { x with
      w0 := (timeWords s.time.dev).1, w1 := (timeWords s.time.dev).2.1, w2 := (timeWords s.time.dev).2.2.1,
      w3 := (timeWords s.time.dev).2.2.2, timeValid := true, timeBusy := true }) (written p s)))
  ∧ (∀ (s : State) (p : Path) (c : Instr) (e : Nat), e < 3 → c = [Instr.lastEvtIn0 p, .lastEvtIn1 p, .lastPpsIn p].getD e c →
    Performs s .any p 0x20 (2 + e) →
    ∃ t, exec c s = .next t
      ∧ ((win t (pathWin s p)).w0, (win t (pathWin s p)).w1, (win t (pathWin s p)).w2, (win t (pathWin s p)).w3)
          = timeWords (tget s.time.cap e (0, 0)).1
      ∧ (win t (pathWin s p)).timeValid = (win s (pathWin s p)).capNew.getLsbD e
      ∧ (win t (pathWin s p)).timeBusy = true
      ∧ (win t (pathWin s p)).capNew = (win s (pathWin s p)).capNew &&& ~~~BitVec.ofNat 3 (2 ^ e))
  ∧ (∀ (s : State) (q : CbPar) (v : Nat), wordsTime (win s 0) = some v →
    (PerformsM s q 0x20 8 → ∃ t, exec (.timeSet q) s = .next t
      ∧ t.time.dev = v % (2 ^ 48 * 65536000000000) ∧ (win t 0).timeBusy = true)
    ∧ (PerformsM s q 0x20 9 → ∃ t, exec (.stepForward q) s = .next t
      ∧ t.time.dev = (s.time.dev + v) % (2 ^ 48 * 65536000000000) ∧ (win t 0).timeBusy = true)
    ∧ (PerformsM s q 0x20 10 → ∃ t, exec (.stepBack q) s = .next t
      ∧ t.time.dev = (s.time.dev - v) % (2 ^ 48 * 65536000000000) ∧ (win t 0).timeBusy = true))
  ∧ (∀ (s : State) (q : CbPar), wordsTime (win s 0) = none → PerformsM s q 0x20 8 →
    exec (.timeSet q) s = .next (modWin 0 (fun x => { x with timeBusy := true }) (acknowledge none s)))
  ∧ (∀ (s : State) (w : Fin 5), s.tap = false →
    exec (.timeCmdEnd w) s = .next (modWin w (fun x => { x with timeBusy := false }) s))

/-- The channel commands through M_XFER_CTL and T_XFER_CTL, by the owner of the selected channel: START runs the start
checks, PAUSE stops new reads, clearing it resumes, and ABORT ends the channel once the reads it has outstanding are back
and its host writes are closed. (On R400, R408, R410, R411.) -/
def Obligations.ChannelCommandsFollowTheStartChecks : Prop :=
  (∀ (s : State) (p : Path) (ctl : Word) (c : Nat), Performs s .any p 0x30 (ctl.toNat ||| 1) →
    selChan s (pathWin s p) = some c → ownsChan s (pathWin s p) c = true → chanBusy s c = false →
    exec (.xferStart p ctl) s =
      .next (startChan c (modChan c (fun x => { x with ctl := ctlStore (ctl.toNat ||| 1) }) (written p s))))
  ∧ (∀ (s u : State) (c : Nat), u = modChan c (fun x => { x with
        busy := true, ctl := putBits x.ctl 0 1 1, elem := 0, err := 0, paused := false, piece := none, pieces := [],
        dst0 := x.dst, reads := [], toRead := 0, bursts := [], wrote := false, moved := false, ending := none,
        yielded := s.image.load, edge := (x.src, x.dst, x.count, 0), mark := (x.src, x.dst, x.count, 0) }) s →
    (fenced s 19 = true ∨ s.safety.safe = true → startChan c s = endChan c 9 u)
    ∧ (fenced s 19 = false → s.safety.safe = false →
      (startError u c = 0 → startChan c s = u)
      ∧ (startError u c ≠ 0 → startChan c s = endChan c (startError u c) u)))
  ∧ (∀ (s : State) (c : Nat),
    ((chan s c).count = 0 → startError s c = 7)
    ∧ ((chan s c).count ≠ 0 → spaceOpen s c (srcSpace (chan s c)) = false ∨ spaceOpen s c (dstSpace (chan s c)) = false →
        startError s c = 6)
    ∧ ((chan s c).count ≠ 0 → srcSpace (chan s c) = 0 → dstSpace (chan s c) = 0 → spaceOpen s c 0 = true →
        (chan s c).src % 16 ≠ 0 ∨ (chan s c).dst % 16 ≠ 0 → startError s c = 1))
  ∧ (∀ (s : State) (p : Path) (c v : Nat), selChan s (pathWin s p) = some c → ownsChan s (pathWin s p) c = true →
    (chan s c).busy = true → v = (peek (pathWin s p) 0x30 s).toNat → v = (chan s c).ctl →
    bitOf v 2 = false →
    (Performs s .any p 0x30 (v ||| 2) → chanPause (chan s c) = false →
      exec (.xferPause p) s = .next (pauseChan c (written p s)))
    ∧ (Performs s .any p 0x30 (v - (v &&& 2)) → chanPause (chan s c) = true →
      exec (.xferResume p) s = .next (resumeChan c (written p s)))
    ∧ (Performs s .any p 0x30 (v ||| 4) → (chan s c).ending = none →
      ∃ t, exec (.xferAbort p) s = .next t
        ∧ ((chan s c).reads = [] → (chan s c).wrote = false →
            (chan t c).busy = false ∧ (chan t c).err = 9 ∧ (chan t c).done = true)
        ∧ ((chan s c).reads = [] → (chan s c).wrote = true → canIssue s (chanHost s c) = true →
            (chan t c).busy = true ∧ (chan t c).ending = some 9 ∧ (chan t c).reads = [(.closing, s.clk)])
        ∧ ((chan s c).reads ≠ [] → (chan t c).busy = true ∧ (chan t c).ending = some 9
            ∧ (chan t c).reads = (chan s c).reads ∧ (chan t c).toRead = 0)))
  ∧ (∀ (s : State) (c : Nat), (chan s c).reads ≠ [] ∨ ((chan s c).wrote = false ∧ (chan s c).ending = none) →
    chan (pauseChan c s) c = { chan (modChan c cutBurst s) c with ctl := putBits (chan s c).ctl 1 1 1 })
  ∧ (∀ (s : State) (c : Nat),
    chan (resumeChan c s) c = { chan s c with ctl := putBits (chan s c).ctl 1 1 0, paused := false })

/-- How a running channel goes on when the read engine serves it: an element read, a data read within its share and its
4 KiB, a paced burst once its line is asserted; how its reads end, in error or in data, its closing read, a drained
channel's pause, and the end with DONE and the codes of Table 13.5. (On R398, R402, R403, R405, R406, R408 to R412, R414.) -/
def Obligations.RunningChannelsAdvanceAndEnd : Prop :=
  (∀ (s : State) (c : Fin 16) (io : BurstIo), s.tap = false → (c.val = 6 ∨ c.val = 7 → pairEnabled s = false) →
    mayIssue s c io.dreq = true → chosen s c = true → srcSpace (chan s c) = 0 → canIssue s (chanHost s c) = true →
    io.hit ≠ .buffer →
    (needsLine (chan s c) = false → wantsElem (chan s c) = true → (chan s c).elem < 4096 →
      ∃ t, exec (.xferPacedBurst c io) s = .next t ∧ (chan t c).reads = [(.elem, s.clk)]
        ∧ (chan t c).src = (chan s c).src ∧ (chan t c).busy = true ∧ t.lastChan = c)
    ∧ (∀ n, needsLine (chan s c) = false → wantsElem (chan s c) = false →
      n = min (min (requestBytes (chan s c)) 512) (4096 - (nextData (chan s c)).1 % 4096) →
      ∃ t, exec (.xferPacedBurst c io) s = .next t ∧ (chan t c).reads = (chan s c).reads ++ [(.data n, s.clk)]
        ∧ 0 < n ∧ ahead (chan t c) ≤ 16384 ∧ (chan t c).src = (chan s c).src ∧ (chan t c).dst = (chan s c).dst
        ∧ (chan t c).count = (chan s c).count ∧ t.lastChan = c)
    ∧ (∀ n, needsLine (chan s c) = true → chanSg (chan s c) = false → (chan s c).piece = none →
      n = min (min (nextBurst (chan s c)) 512) (4096 - ((chan s c).src + ahead (chan s c)) % 4096) →
      lineAsserted s c io.dreq = true
      ∧ ∃ t, exec (.xferPacedBurst c io) s = .next t ∧ (chan t c).reads = (chan s c).reads ++ [(.data n, s.clk)]
        ∧ (chan t c).bursts = (chan s c).bursts ++ [nextBurst (chan s c)] ∧ (chan t c).toRead = nextBurst (chan s c) - n))
  ∧ (∀ (s : State) (c : Fin 16) (io : BurstIo), s.tap = false → (c.val = 6 ∨ c.val = 7 → pairEnabled s = false) →
    needsLine (chan s c) = true → lineAsserted s c io.dreq = false → exec (.xferPacedBurst c io) s = .next s)
  ∧ (∀ (s : State) (c : Fin 16) (a : Nat) (bytes : List Byte), s.tap = false → (chan s c).reads = [(.elem, a)] →
    (chan s c).busy = true → (chan s c).wrote = false → (chan s c).ending = none → leNat (bytes.take 8) % 16 ≠ 0 →
    ∃ t, exec (.xferReadEnd c (.data bytes) false) s = .next t ∧ (chan t c).busy = false ∧ (chan t c).err = 1
      ∧ (chan t c).done = true ∧ (chan t c).error = true)
  ∧ (∀ (s u : State) (c : Fin 16) (what : ChanRead) (a : Nat) (rest : List (ChanRead × Nat)) (r : HostRead),
    s.tap = false → (chan s c).reads = (what, a) :: rest → r = .ur ∨ r = .ca →
    u = modChan c (fun x => { x with reads := rest }) s →
    (what ≠ .closing → exec (.xferReadEnd c r false) s = .next (endWith c 5 u))
    ∧ (what = .closing → exec (.xferReadEnd c r false) s = .next (endChan c ((chan s c).ending.getD 5) u)))
  ∧ (∀ (s : State) (c : Fin 16) (a : Nat) (b : List Byte), s.tap = false → (chan s c).reads = [(.closing, a)] →
    (∀ e, (chan s c).ending = some e → (chan s c).busy = true →
      ∃ t, exec (.xferReadEnd c (.data b) false) s = .next t ∧ (chan t c).busy = false ∧ (chan t c).done = true
        ∧ (chan t c).err = e)
    ∧ ((chan s c).ending = none →
      exec (.xferReadEnd c (.data b) false) s =
        .next (chanMark c false (modChan c (fun x => { x with reads := [], wrote := false }) s))))
  ∧ (∀ (s : State) (c : Fin 16) (what : ChanRead) (a : Nat), s.tap = false → (chan s c).reads = [(what, a)] →
    (chan s c).busy = true → what = .closing ∨ (chan s c).wrote = false →
    a + cplTimeout s (chanHost s c) ≤ s.clk →
    ∃ t, exec (.xferReadTimeout c) s = .next t ∧ (chan t c).busy = false ∧ (chan t c).reads = [] ∧ (chan t c).done = true
      ∧ (chan t c).err = (chan s c).ending.getD 4)
  ∧ (∀ (s : State) (c : Fin 16), s.tap = false → (chan s c).busy = true → chanPause (chan s c) = true →
    (chan s c).moved = false → (chan s c).reads = [] → (chan s c).wrote = false → (chan s c).piece = none →
    (chan s c).ending = none →
    exec (.xferDrainEnd c) s = .next (modChan c (fun x => { x with paused := true }) s))
  ∧ (∀ (s : State) (c : Fin 16) (ecc : Bool), s.tap = false → (chan s c).busy = true → (chan s c).moved = true →
    (chan s c).reads = [] → (chan s c).wrote = false → (chan s c).ending = none →
    (c.val = 6 ∨ c.val = 7 → pairEnabled s = false) →
    exec (.xferChannelEnd ⟨c, ecc⟩) s = .next (endChan c 0 s))
  ∧ (∀ (s : State) (c e : Nat), (chan (endChan c e s) c).busy = false ∧ (chan (endChan c e s) c).done = true
    ∧ (chan (endChan c e s) c).err = e ∧ (chan (endChan c e s) c).error = ((chan s c).error || decide (e ≠ 0))
    ∧ (e = 0 → (chan (endChan c e s) c).src = (chan s c).src ∧ (chan (endChan c e s) c).count = (chan s c).count)
    ∧ (e ≠ 0 → (chan (endChan c e s) c).src = (chan s c).mark.1 ∧ (chan (endChan c e s) c).count = (chan s c).mark.2.2.1)
    ∧ ∀ d, d ≠ c → chan (endChan c e s) d = chan s d)

/-- A maintenance OP of a window whose Canopy is idle and in service joins the partition's queue with the base, length
and ALL it names; with LEN 0 and no ALL it ends at once; while BUSY it sets OVERRUN. (On R430 to R434, R445.) -/
def Obligations.MaintenanceJoinsThePartitionQueue : Prop :=
  (∀ (s : State) (p : Path) (t : Fin 4) (all : Bool) (c : Instr) (op w u : Nat), w = pathWin s p →
    1 ≤ op → op ≤ 3 →
    c = [Instr.canopyClean p t all, .canopyInvalidate p t all, .canopyCleanAndInvalidate p t all].getD (op - 1) c →
    Performs s .any p 0x34 (op + flag all 3 + 16 * t) → u = (if w = 0 then t.val else w - 1) →
    ((win s w).canopyBusy = true →
      exec c s = .next (modWin w (fun x => { x with canopyOverrun := true }) (written p s)))
    ∧ ((win s w).canopyBusy = false → fenced s 18 = true → exec c s =
        .next (maintDone w 1 (modWin w (fun x => { x with canopyErr := 0 }) (written p s))))
    ∧ ((win s w).canopyBusy = false → fenced s 18 = false → all = false → (win s w).canopyLen = 0 → exec c s =
        .next (maintDone w 0 (modWin w (fun x => { x with canopyErr := 0 }) (written p s))))
    ∧ ((win s w).canopyBusy = false → fenced s 18 = false → all = true ∨ (win s w).canopyLen ≠ 0 →
      ∃ t', exec c s = .next t' ∧ (win t' w).canopyBusy = true ∧ (win t' w).canopyErr = 0
        ∧ ∃ m, (maintQueue t' u).getLast? = some m ∧ m.win = w ∧ m.op = op ∧ m.all = all
          ∧ m.base = (win s w).canopyBase / 64 * 64 ∧ m.len = (win s w).canopyLen.toNat))
  ∧ (∀ (s : State) (w e : Nat), (win (maintDone w e s) w).canopyBusy = false ∧ (win (maintDone w e s) w).canopyDone = true
    ∧ (win (maintDone w e s) w).canopyErr = e
    ∧ (win (maintDone w e s) w).canopyError = ((win s w).canopyError || decide (e ≠ 0)))

/-- The Canopy's own ends: an operation's closing read or its timeout, the oldest fill that is not a demand read's, and
the conversion of a way, which joins SCRATCH_STAT with zeros. (On R425, R426, R431, R432, R437, R444.) -/
def Obligations.CanopyWorkCompletes : Prop :=
  (∀ (s : State) (t : Fin 4) (m : Maint) (rest : List Maint) (r : HostRead), s.tap = false →
    maintQueue s t = m :: rest → m.started = true → doomedFills s t = false →
    (m.wrote = false → exec (.canopyOpEnd t r) s = .next (maintEnd t 0 s))
    ∧ (m.wrote = true → canIssue s t = true → exec (.canopyOpEnd t (.data [])) s = .next (maintEnd t 0 s)
        ∧ exec (.canopyOpEnd t .ur) s = .next (maintEnd t 2 s) ∧ exec (.canopyOpEnd t .ca) s = .next (maintEnd t 2 s))
    ∧ (m.wrote = true → m.since + cplTimeout s t ≤ s.clk →
        exec (.canopyClosingReadTimeout t) s = .next (maintEnd t 2 (perfAdd (0x0A0004 + 256 * t) 1 s))))
  ∧ (∀ (s : State) (t e : Nat) (m : Maint) (rest : List Maint), maintQueue s t = m :: rest →
    maintEnd t e s = maintStart t (maintDone m.win e (setQueue t rest s)))
  ∧ (∀ (s : State) (t : Fin 4) (f : Fill) (rest : List Fill) (bytes : List Byte), s.tap = false →
    bytes.length = 256 → s.canopy.fills = f :: rest → f.t = t → (∀ who, f.who ≠ .demand who) →
    ∀ u serve, u = { s with canopy := { s.canopy with fills := rest } } →
    serve = (fun v : State => forEach ((ten v t).rings.filter fun e => isRx e.1 && e.2.entries != [])
      (fun (r, _) s => drain t r false s) v) →
    exec (.canopyFillEnd t (.data bytes) none) s = .next (serve (fillDone f bytes u))
    ∧ exec (.canopyFillEnd t .ur none) s = .next (serve u))
  ∧ (∀ s : State, s.tap = false → fenced s 18 = false → s.power.asleep = false → s.canopy.ways < pn s 0x510000 →
    ∃ t, exec .scratchWayConversionEnd s = .next t ∧ t.canopy.ways = s.canopy.ways + 1
      ∧ (∀ e ∈ t.canopy.lines, e.1 % 16 ≠ 15 - s.canopy.ways)
      ∧ ∀ a, cellRead 0 t.scratch a = if a / 65536 = s.canopy.ways then 0 else cellRead 0 s.scratch a)

/-! ### Tenants (chapter 5) -/

/-- Management's commands on the selected tenant: FORCE_FAULT enters tenant fault, RESET starts a tenant reset, ENABLE 0
holds it in reset, and ENABLE 1 releases a reset that nothing else holds. (On R145, R147, R148, R155, R158, R572.) -/
def Obligations.ManagementCommandsATenant : Prop :=
  (∀ (s : State) (q : CbPar) (k : Nat), k = s.mgmt.selTenant → (ten s k).enable = true → (ten s k).fault = 0 →
    PerformsM s q 0x3D 5 →
    ∃ t, exec (.forceFault q) s = .next t ∧ (ten t k).fault.getLsbD 9 = true ∧ (ten t k).detail = word (9 * 2 ^ 19)
      ∧ (ten t k).engineEn = false ∧ (∀ e ∈ (ten t k).rings, e.2.enable = false)
      ∧ (∀ l, l < 16 → (lock s l).owner = some (k + 1) → (lock t l).owner = none ∧ (lock t l).broken = true)
      ∧ (∀ l, (lock s l).owner ≠ some (k + 1) → lock t l = lock s l))
  ∧ (∀ (s : State) (q : CbPar) (k : Nat), k = s.mgmt.selTenant → (ten s k).enable = true → (ten s k).inReset = false →
    PerformsM s q 0x3D 3 →
    ∃ t, exec (.tenantReset q) s = .next t ∧ (ten t k).inReset = true ∧ (ten t k).reset = true
      ∧ (ten t k).stepped = false ∧ (ten t k).engineEn = false ∧ (ten t k).staging = [] ∧ (ten t k).enable = true
      ∧ (∀ l, l < 16 → (lock s l).owner = some (k + 1) → (lock t l).owner = none ∧ (lock t l).broken = true))
  ∧ (∀ (s : State) (q : CbPar) (k : Nat), k = s.mgmt.selTenant → PerformsM s q 0x3D 0 →
    ∃ t, exec (.tenantHold q) s = .next t ∧ (ten t k).enable = false ∧ (ten t k).inReset = true ∧ tenantHeld t k = true)
  ∧ (∀ (s : State) (q : CbPar) (k : Nat), k = s.mgmt.selTenant → k < 4 → (ten s k).enable = false → (ten s k).inReset = true →
    (link s k).perst = false → (ten s k).linkHold = false → fenced s (12 + k) = false → s.safety.safe = false →
    PerformsM s q 0x3D 1 →
    ∃ t, exec (.tenantRelease q) s = .next t ∧ (ten t k).enable = true ∧ (ten t k).inReset = false
      ∧ (ten t k).reset = false ∧ tReady t k = true)

/-- A tenant's own commands and the end of its reset: TENANT_RESET with its KEY starts the reset; the end returns the
window, the rings and the engine to their reset state, unless the reset is held, and a push it cuts short is lost;
T_FAULT bits written 1 clear causes, and a cause that arises in the cycle that clears FAULT_RING_LOST is lost; ENGINE_EN
cannot be set while T_FAULT is not 0, and clearing it drops the prefetch. (On R92, R150, R153, R155, R156, R188.) -/
def Obligations.TenantsResetAndRecover : Prop :=
  (∀ (s : State) (p : Path) (k v : Nat), pathWin s p = k + 1 → v = (peek (k + 1) 0x03 s).toNat ||| 0xC30002 →
    Performs s .tenant p 0x03 v → (ten s k).inReset = false →
    ∃ t, exec (.tTenantReset p) s = .next t ∧ (ten t k).inReset = true ∧ (ten t k).selfReset = true
      ∧ (ten t k).engineEn = false ∧ (ten t k).staging = [])
  ∧ (∀ (s : State) (k : Fin 4), s.tap = false → (ten s k).inReset = true → (ten s k).stepped = false →
    tenantHeld s k = false →
    ∃ t, exec (.tenantResetEnd k) s = .next t ∧ (ten t k).inReset = false ∧ (ten t k).reset = false
      ∧ (ten t k).selfReset = false ∧ (ten t k).engineEn = false ∧ (ten t k).rings = [] ∧ (ten t k).staging = []
      ∧ (ten t k).ringSel = 0 ∧ (ten t k).stopped = decide ((ten t k).fault ≠ 0)
      ∧ ((ten s k).frPush = none → (ten t k).fault = (ten s k).fault ∧ (ten t k).detail = (ten s k).detail)
      ∧ (∀ r since, (ten s k).frPush = some (r, since) →
          (ten t k).fault = (ten s k).fault ||| 1 ∧ (ten t k).detail = r.detail)
      ∧ win t (k + 1) = {}
      ∧ ∀ r, r < 65536 → rowAt t 0x01 k r = [] ∧ rowAt t 0x0B k r = [] ∧ rowAt t 0x0D k r = [])
  ∧ (∀ (s : State) (k : Fin 4), s.tap = false → (ten s k).inReset = true → (ten s k).stepped = true →
    tenantHeld s k = true → exec (.tenantResetEnd k) s = .next s)
  ∧ (∀ (s : State) (p : Path) (k : Nat) (d : Word), pathWin s p = k + 1 → Performs s .tenant p 0x04 d.toNat →
    ∃ t, exec (.tFaultClear p ⟨d, none⟩) s = .next t
      ∧ (ten t k).fault = (ten s k).fault &&& ~~~BitVec.ofNat 10 (bits d.toNat 0 10)
      ∧ (bitOf d.toNat 0 = true → (ten t k).lost = 0)
      ∧ (bitOf d.toNat 0 = false → (ten t k).lost = (ten s k).lost)
      ∧ ((ten t k).fault = 0 → (ten t k).stopped = false)
      ∧ ((ten t k).fault ≠ 0 → (ten t k).stopped = (ten s k).stopped)
      ∧ (ten t k).detail = (ten s k).detail ∧ (ten t k).rings = (ten s k).rings)
  ∧ (∀ (s : State) (p : Path) (k : Nat) (d : Word) (c : Fin 9), pathWin s p = k + 1 → Performs s .tenant p 0x04 d.toNat →
    (ten s k).fault.getLsbD 0 = true → bitOf d.toNat 0 = true →
    ∃ t, exec (.tFaultClear p ⟨d, some c⟩) s = .next t ∧ (ten t k).fault.getLsbD 0 = true ∧ (ten t k).lost = 1
      ∧ (ten t k).fault.getLsbD (c.val + 1) = true)
  ∧ (∀ (s : State) (p : Path) (k : Nat), pathWin s p = k + 1 →
    (Performs s .tenant p 0x03 1 → (ten s k).fault ≠ 0 → exec (.engineEnable p true) s = .next (written p s))
    ∧ (Performs s .tenant p 0x03 1 → (ten s k).fault = 0 → exec (.engineEnable p true) s =
        .next (forEach (ten s k).rings (fun (r, _) s => serve k r s) (modTen k (fun x => { x with engineEn := true }) (written p s))))
    ∧ (Performs s .tenant p 0x03 0 → ∃ t, exec (.engineEnable p false) s = .next t ∧ (ten t k).engineEn = false
        ∧ (ten t k).fault = (ten s k).fault ∧ ∀ e ∈ (ten t k).rings, e.2.preDue = none))

/-- A fault cause sets its bit and counts in SEQ; the first that enters tenant fault stops the engine, the rings and the
locks; the fault ring's push ends well and moves on, or fails and sets FAULT_RING_LOST. (On R147, R149, R151 to
R154.) -/
def Obligations.FaultRecordsArePushedInOrder : Prop :=
  (∀ (s : State) (k : Fin 4) (r : FaultRec) (since : Nat), s.tap = false → (ten s k).frPush = some (r, since) →
    (∀ b, (ten s k).frWait = [] → (ten s k).frRestart = false →
      ∃ t, exec (.faultRecordPushEnd k (.data b)) s = .next t ∧ (ten t k).frPush = none
        ∧ (ten t k).frIndex = (if (ten s k).frIndex + 1 ≥ 2 ^ pn s (0x030006 + 256 * k) then 0 else (ten s k).frIndex + 1)
        ∧ (ten t k).frPhase = (if (ten s k).frIndex + 1 ≥ 2 ^ pn s (0x030006 + 256 * k) then !(ten s k).frPhase
            else (ten s k).frPhase)
        ∧ (ten t k).fault = (ten s k).fault)
    ∧ exec (.faultRecordPushEnd k .ur) s = .next (pushFailEnter k s)
    ∧ exec (.faultRecordPushEnd k .ca) s = .next (pushFailEnter k s)
    ∧ (since + cplTimeout s k ≤ s.clk →
        exec (.faultPushCplTimeout k) s = .next (pushFailEnter k (perfAdd (0x0A0004 + 256 * k) 1 s))))
  ∧ (∀ (s : State) (k since : Nat) (r : FaultRec), (ten s k).frPush = some (r, since) → (ten s k).fault ≠ 0 →
    (ten (pushFailEnter k s) k).fault = (ten s k).fault ||| 1 ∧ (ten (pushFailEnter k s) k).detail = r.detail
    ∧ (ten (pushFailEnter k s) k).lost = min ((ten s k).lost + (ten s k).frWait.length) 15
    ∧ ((ten s k).frRestart = true → (ten (pushFailEnter k s) k).frIndex = 0 ∧ (ten (pushFailEnter k s) k).frPhase = true)
    ∧ (ten (pushFailEnter k s) k).frPush = none ∧ (ten (pushFailEnter k s) k).frWait = [])
  ∧ (∀ (s : State) (k bit ringNo cpl a0 a1 info : Nat) (rx : Bool), 1 ≤ bit → bit < 10 →
    (ten s k).fault.getLsbD 0 = true →
    (ten (tenantFault k bit ringNo rx cpl a0 a1 info s) k).fault = (ten s k).fault ||| BitVec.ofNat 10 (2 ^ bit)
    ∧ (ten (tenantFault k bit ringNo rx cpl a0 a1 info s) k).frSeq = ((ten s k).frSeq + 1) % 16
    ∧ (ten (tenantFault k bit ringNo rx cpl a0 a1 info s) k).lost = min ((ten s k).lost + 1) 15
    ∧ (ten (tenantFault k bit ringNo rx cpl a0 a1 info s) k).detail = (ten s k).detail
    ∧ (ten (tenantFault k bit ringNo rx cpl a0 a1 info s) k).rings = (ten s k).rings)

/-- A doorbell of a ring that is not enabled, or flushes, and one that would move the tail back, count in
IGNORED_DOORBELLS; one that would pass the ring's N slots is DOORBELL_OVERRUN; an accepted one moves the tail and
has the next slots fetched. T_RINGCTL: ENABLE loads head and tail from START_INDEX and START_LAP, clearing it or
FLUSH starts a flush, STOP ends fetching, clearing STOP resumes; a flush ends with the tail at the head and
FLUSH_DONE. (On R93, R178, R188, R201 to R205.) -/
def Obligations.DoorbellsAndRingControlActOnRings : Prop :=
  ((∀ (s : State) (p : Path) (d : Word) (k r : Nat), pathWin s p = k + 1 → Performs s .tenant p 0x40 d.toNat →
    r = bits d.toNat 17 7 →
    (67 < r → exec (.tTxbell p d) s = .next (written p s))
    ∧ (r ≤ 67 → exec (.tTxbell p d) s = .next (doorbell k r d (written p s))))
  ∧ (∀ (s : State) (p : Path) (d : Word) (k r : Nat), pathWin s p = k + 1 → Performs s .tenant p 0x41 d.toNat →
    r = bits d.toNat 17 7 →
    (63 < r → exec (.tRxbell p d) s = .next (written p s))
    ∧ (r ≤ 63 → exec (.tRxbell p d) s = .next (doorbell k (68 + r) d (written p s))))
  ∧ (∀ (s : State) (k r n tail dNew dOld : Nat) (d : Word), n = ringN s k r →
    tail = (bits d.toNat 16 1 * n + bits d.toNat 0 16) % (2 * n) → dNew = dist n (ring s k r).head tail →
    dOld = dist n (ring s k r).head (ring s k r).tail →
    ((ring s k r).enable = false ∨ (ring s k r).flush = true → doorbell k r d s = countRing k r 3 1 s)
    ∧ ((ring s k r).enable = true → (ring s k r).flush = false → n < dNew → doorbell k r d s =
        tenantFault k 1 (if isRx r then r - 68 else r) (isRx r) 0 d.toNat
          ((ring s k r).head / n * 65536 + (ring s k r).head % n) 0 s)
    ∧ ((ring s k r).enable = true → (ring s k r).flush = false → dNew ≤ n → dNew < dOld →
        doorbell k r d s = countRing k r 3 1 s)
    ∧ ((ring s k r).enable = true → (ring s k r).flush = false → dNew ≤ n → dNew = dOld → doorbell k r d s = s)
    ∧ ((ring s k r).enable = true → (ring s k r).flush = false → dNew ≤ n → dOld < dNew → (ring s k r).prefetch ≤ n - dNew →
        (ring s k r).prefetch ≠ 0 → doorbell k r d s = serve k r (modRing k r (fun x => { x with
          tail := tail, slots := x.slots.filter (fun y => decide (dist n x.head y.pos < dNew)),
          preDue := some (tail, x.prefetch) }) s))))
  ∧ ((∀ (s : State) (p : Path) (k r : Nat), pathWin s p = k + 1 → selRing s k = some r → (ring s k r).flushBit = false →
    (ring s k r).prefetch ≤ 32 →
    (Performs s .tenant p 0x43 (ringCtl s k r ||| 1) → (ring s k r).enable = false → (ring s k r).flush = false →
      (ten s k).fault = 0 → 3 ≤ bits (rowWord s 0x01 k r 3) 0 5 →
      ∃ t, exec (.ringEnable p) s = .next t ∧ (ring t k r).enable = true ∧ (ring t k r).stopped = (ring s k r).stop
        ∧ (ring t k r).head = (bits (rowWord s 0x01 k r 5) 16 1 * ringN s k r + bits (rowWord s 0x01 k r 5) 0 16)
            % (2 * ringN s k r)
        ∧ (ring t k r).tail = (ring t k r).head ∧ (ring t k r).entries = [] ∧ (ring t k r).slots = [])
    ∧ (Performs s .tenant p 0x43 (ringCtl s k r - (ringCtl s k r &&& 1)) → (ring s k r).enable = true →
      (ring s k r).flush = false →
      ∃ t, exec (.ringDisable p) s = .next t ∧ (ring t k r).enable = false ∧ (ring t k r).flush = true
        ∧ (ring t k r).slots = [] ∧ (ring t k r).refs = [])
    ∧ (Performs s .tenant p 0x43 (ringCtl s k r ||| 2) → (ring s k r).flush = false →
      ∃ t, exec (.flushRing p) s = .next t ∧ (ring t k r).flush = true ∧ (ring t k r).flushBit = true
        ∧ (ring t k r).enable = (ring s k r).enable ∧ (ring t k r).slots = [] ∧ (ring t k r).refs = [])
    ∧ (Performs s .tenant p 0x43 (ringCtl s k r ||| 4) → (ring s k r).stop = false → (ring s k r).enable = true →
      (ring s k r).entries = [] →
      ∃ t, exec (.ringStop p) s = .next t ∧ (ring t k r).stop = true ∧ (ring t k r).stopped = true
        ∧ (ring t k r).slots = [] ∧ (ring t k r).enable = true)
    ∧ (Performs s .tenant p 0x43 (ringCtl s k r - (ringCtl s k r &&& 4)) → (ring s k r).stop = true →
      (ring s k r).enable = true → (ring s k r).slots = [] → (ring s k r).entries = [] → exec (.ringResume p) s = .next (serve k r (modRing k r (fun x => { x with
        prefetch := x.prefetch, stop := false, stopped := false }) (written p s)))))
  ∧ (∀ (s : State) (k : Fin 4) (r : Fin 132), s.tap = false → (ring s k r).flush = true → (ring s k r).entries = [] →
    ∃ t, exec (.flushComplete k r) s = .next t ∧ (ring t k r).flush = false ∧ (ring t k r).flushBit = false
      ∧ (ring t k r).flushDone = true ∧ (ring t k r).tail = (ring s k r).head ∧ (ring t k r).head = (ring s k r).head))

/-! ### Host links -/

/-- A ring's reads and waits: a completion brings its slots to the ring or, with UR or CA before the tail, is cause
CPL_ERROR; a timeout reissues the read before the tail and drops it beyond; a slot that was not owned is read again;
the fetch clock's end is FETCH_TIMEOUT; a held write-back is sent. (On R182 to R187, R192, R210 to R212.) -/
def Obligations.RingReadsCompleteOrTimeOut : Prop :=
  (∀ (s : State) (k : Fin 4) (r : Fin 132) (d : DescRead) (u : State) (a no : Nat), s.tap = false → (ring s k r).read = some d →
    u = recoverFix k r (replayEnd k r (modRing k r (fun x => { x with read := none }) s)) → a = slotAddr s k r d.pos →
    no = (if isRx r then r.val - 68 else r.val) →
    (∀ h host lo, readOutcome s k r h = .data host → lo = dist (ringN s k r) (ring s k r).head d.pos →
      ∃ got v, (got, v) = readServe k a (16 * d.count) r host u
      ∧ exec (.descriptorReadEnd k r h) s = .next (serve k r (modRing k r (fun x => { x with
          slots := x.slots.filter (fun y => decide (dist (ringN s k r) (ring s k r).head y.pos < lo))
            ++ (List.range d.count).map (fun i => ⟨adv (ringN s k r) d.pos i, dwordsOf 4 (got.drop (16 * i)),
              (ring s k r).nextRead, d.beyond, nowNs s, if i = 0 then d.cycles else 0⟩)
            ++ x.slots.filter (fun y => decide (lo + d.count ≤ dist (ringN s k r) (ring s k r).head y.pos)),
          nextRead := x.nextRead + 1 }) v)))
    ∧ (∀ h cpl, (readOutcome s k r h = .ur ∧ cpl = 1) ∨ (readOutcome s k r h = .ca ∧ cpl = 4) →
      (d.beyond = false → exec (.descriptorReadEnd k r h) s =
        .next (tenantFault k 4 no (isRx r) cpl (a % 2 ^ 32) (a / 2 ^ 32) 0 (voidCycles k d.cycles (readDrop k r u))))
      ∧ (d.beyond = true → exec (.descriptorReadEnd k r h) s =
        .next (serve k r (countRing k r 3 1 (voidCycles k d.cycles (readDrop k r u))))))
    ∧ (d.since + cplTimeout s k ≤ s.clk → readWaits s k r = true → d.beyond = false → ∃ t, exec (.descriptorReadTimeout k r) s = .next t
      ∧ (ring t k r).read = some { d with since := s.clk, reissued := true, cycles := d.cycles + 1 } ∧ (ring t k r).recovering = true
      ∧ (ring t k r).slots = (ring s k r).slots ∧ t.clk = s.clk)
    ∧ (∀ since, oldestRead s k r = some since → since + us 100 ≤ s.clk →
      exec (.recoveringOnset k r) s = .next (modRing k r (fun x => { x with recovering := true }) s)))
  ∧ (∀ (s : State) (k : Fin 4) (r : Fin 132) (since : Nat), s.tap = false →
    ((ring s k r).ownWait = some since → since + us 1 ≤ s.clk →
      exec (.ownReread k r) s = .next (serve k r (modRing k r (fun x => { x with ownWait := none }) s)))
    ∧ (∀ u, u = clockFix k r s → (ring u k r).clockAt = some since →
      since + (us (pn s (0x030008 + 256 * k)) - (ring u k r).clockHeld) ≤ s.clk →
      exec (.fetchTimeout k r) s = .next (tenantFault k 2 (if isRx r then r.val - 68 else r.val) (isRx r) 0
        (slotAddr s k r (ring s k r).head % 2 ^ 32) (slotAddr s k r (ring s k r).head / 2 ^ 32) 0 u))
    ∧ ((ring s k r).heldAt = some since → since + us 1 ≤ s.clk →
      exec (.writeBackHoldExpiry k r) s = .next (serve k r (drain k r true s))))

/-- Transmission: a strict ring that is eligible comes first; a barred frame and one whose launch lies too far ahead end
at once; the last buffer completes the frame in staging; a failed buffer read is a fault; admission writes the
tagged frame to the Glade and queues it. (On R142, R195 to R200, R211, R218 to R221, R223.) -/
def Obligations.TransmitFramesAreGatheredAndAdmitted : Prop :=
  (∀ (s u : State) (k : Fin 4), s.tap = false → u = txCatchUp k s → (∀ f ∈ (ten u k).staging, f.complete = true) →
    stagingUse u k ≤ 9244 →
    (∀ r, [64, 65, 66, 67].find? (fun r => eligible u k r) = some r → exec (.txSchedule k false) s = .next (takeFrame k r u))
    ∧ (∀ r r' v, [64, 65, 66, 67].find? (fun r => eligible u k r) = none → r < 64 → eligible u k r = true →
        drr k 1400 u = (some r', v) → exec (.txSchedule k false) s = .next (takeFrame k r' v))
    ∧ ((∀ r, r < 68 → eligible u k r = false) → exec (.txSchedule k false) s = .next u))
  ∧ (∀ (s : State) (k r : Nat) (e : Entry), nextEntry (ring s k r) = some e →
    (bitOf (pwide s (0x030009 + 256 * k) 2) (txPort s k r e) = false →
      takeFrame k r s = serve k r (finishTx k r e.pos .barred 0 none s))
    ∧ (∀ l, bitOf (pwide s (0x030009 + 256 * k) 2) (txPort s k r e) = true → launchOf e = some l →
      e.proNs + 1000000000 < l → takeFrame k r s = serve k r (finishTx k r e.pos .launchRange 0 none s))
    ∧ (bitOf (pwide s (0x030009 + 256 * k) 2) (txPort s k r e) = true →
      (∀ l, launchOf e = some l → l ≤ e.proNs + 1000000000) →
      takeFrame k r s = readBuffer k (modTen k (fun x => { x with
        staging := x.staging ++ [⟨r, e.pos, txBuffers e, [], false, s.clk⟩] })
        (entrySteps k r e.pos 1 (fun x => { x with stage := .gathering }) (drrPay k r (txLen e) s)))))
  ∧ (∀ (s : State) (k : Fin 4) (f : TxStage) (a : Addr) (n : Nat) (rest : List (Addr × Nat)), s.tap = false →
    (ten s k).staging.find? (fun f => !f.complete) = some f → f.bufs = (a, n) :: rest →
    ∀ u, u = replayEnd k f.ring s →
    (∀ h cpl, (readOutcome s k 200 h = .ur ∧ cpl = 1) ∨ (readOutcome s k 200 h = .ca ∧ cpl = 4) →
      exec (.txBufferReadEnd k h false) s =
        .next (tenantFault k 4 f.ring false cpl (a.toNat % 2 ^ 32) (a.toNat / 2 ^ 32) 0 (readDrop k 200 u)))
    ∧ (f.readAt + cplTimeout s k ≤ s.clk → readWaits s k 200 = true → exec (.txBufferReadTimeout k) s =
        .next (tenantFault k 3 f.ring false 0 (a.toNat % 2 ^ 32) (a.toNat / 2 ^ 32) 0
          (readDrop k 200 (perfAdd (0x0A0004 + 256 * k) 1 s))))
    ∧ (∀ h host e, readOutcome s k 200 h = .data host → rest = [] → (ring s k f.ring).entries = [e] → e.pos = f.pos → prologue e = none →
      ∃ t, exec (.txBufferReadEnd k h false) s = .next t
        ∧ { f with bufs := [], bytes := f.bytes ++ (readServe k a.toNat n 200 host u).1, complete := true } ∈ (ten t k).staging))
  ∧ (∀ (s : State) (k : Fin 4) (r : Fin 132) (f : TxStage) (e : Entry), s.tap = false →
    (ten s k).staging.find? (fun f => f.ring == r.val && f.complete) = some f →
    (ring s k r).entries.find? (fun e => e.stage == .staged) = some e →
    (fenced s 8 = true ∨ admits s (some k) (cellsFor (tagLen (txTag s k r e))) = false → exec (.txGladeAdmission k r false) s = .next s)
    ∧ (fenced s 8 = false → admits s (some k) (cellsFor (tagLen (txTag s k r e))) = true → portOpen s (txPort s k r e) = true →
      ∃ t, exec (.txGladeAdmission k r false) s = .next t ∧ t.nextFrame = s.nextFrame + 1
        ∧ (frame t s.nextFrame).bytes = padded f.bytes ∧ (frame t s.nextFrame).tag = txTag s k r e
        ∧ (frame t s.nextFrame).charge = some k ∧ (frame t s.nextFrame).refs = 1
        ∧ (∀ g ∈ (ten t k).staging, g.ring ≠ r)
        ∧ ∃ i, queueOf t (txPort s k r e) (txClass s k r e)
              = queueOf s (txPort s k r e) (txClass s k r e) ++ [i] ∧ i.frame = s.nextFrame))

/-- An RX reference goes into the next usable entry, without FCS unless asked for; with none it is discarded and counted
in DISCARDS; a frame found in error is discarded and counted in RX_ECC. (On R30, R200, R228.) -/
def Obligations.ReceivedFramesAreDelivered : Prop :=
  ∀ (s : State) (k : Fin 4) (r : Fin 64) (ring0 id : Nat) (rest : List Nat), s.tap = false → ring0 = 68 + r.val →
    (ring s k ring0).refs = id :: rest →
    (∀ u, u = modRing k ring0 (fun x => { x with refs := rest }) s →
      ((ring s k ring0).enable = false ∨ (ring s k ring0).stop = true ∨ (ring s k ring0).flush = true
          ∨ (ten s k).engineEn = false ∨ frameService s = false ∨ nextEntry (ring s k ring0) = none →
        exec (.rxDelivery k r .none) s = .next (countRing k ring0 2 1 (release id u)))
      ∧ exec (.rxDelivery k r .glade) s = .next (release id (countRxEcc id (cellError id u)))
      ∧ (∀ e addr out v, frameService s = true → (ring s k ring0).enable = true → (ring s k ring0).stop = false →
        (ring s k ring0).flush = false → (ten s k).engineEn = true → nextEntry (ring s k ring0) = some e →
        bitOf (entryDw0 e) 22 = false → bitOf (entryDw0 e) 21 = false →
        tagLen (frame s id).tag - 4 ≤ bits (entryDw e 0 1) 0 16 → addr = entryDw e 0 2 + entryDw e 0 3 * 2 ^ 32 →
        out = (frame s id).bytes.take (tagLen (frame s id).tag - 4) →
        v = entrySteps k ring0 e.pos (1 + (out.length + 63) / 64) (fun y => { y with
          stage := .done,
          wb := bytesOf (setAt (e.slots.getD 0 []) 0 (BitVec.ofNat 32 (putBits (entryDw0 e) 31 1 0)))
            ++ rxSlot (frame s id) false false,
          useful := true }) (devWrite k addr out u) →
        exec (.rxDelivery k r .none) s = .next (serve k ring0 (release id
          (countRing k ring0 1 (tagLen (frame s id).tag) (countRing k ring0 0 1 v))))))

/-- Host links: PERST_N, hot reset and function-level reset begin a tenant reset; PERST_N and the link's fall clear what
they hold; the Command register and the MSI capability follow configuration requests, which a read shows; Bus Master
Enable cleared ends the channels of the link; requests without effect answer Unsupported Request, errors are logged and
the link's replays follow them. (On R98, R101, R103, R146, R155, R158, R212, R458, R461, R576.) -/
def Obligations.HostLinkEventsResetAndConfigure : Prop :=
  (∀ (s : State) (k : Fin 4), s.tap = false → (link s k).perst = false →
    ∃ t, exec (.perstNAssert k) s = .next t ∧ (link t k).perst = true ∧ (link t k).state = .detect
      ∧ (link t k).bme = false ∧ (link t k).mse = false ∧ (link t k).msiEn = false ∧ (ten t k).inReset = true
      ∧ tenantHeld t k = true)
  ∧ (∀ (s : State) (k : Fin 4), s.tap = false → (link s k).perst = true →
    exec (.perstNDeassert k) s = .next (raise 0 (3 + k) (modLink k (fun l => { l with perst := false }) s)))
  ∧ (∀ (s : State) (k : Fin 4), s.tap = false → linkUp s k = true →
    (∃ t, exec (.hotReset k) s = .next t ∧ (link t k).state = .detect ∧ (link t k).bme = false ∧ (link t k).mse = false
      ∧ (ten t k).inReset = true ∧ (ten t k).linkHold = true)
    ∧ (∃ t, exec (.functionLevelReset k) s = .next t ∧ (link t k).state = (link s k).state ∧ (link t k).bme = false
      ∧ (link t k).mse = false ∧ (link t k).msiEn = false ∧ (ten t k).inReset = true
      ∧ (ten t k).linkHold = (ten s k).linkHold)
    ∧ (∀ kind, exec (.bar0UnsupportedRequest k kind) s = .next (modLink k (fun l => { l with bar0 := none }) s))
    ∧ exec (.bar0PoisonedWrite k) s = .next (raise (k + 1) 3 (modLink k (fun l => { l with aer := l.aer + 1 }) s)))
  ∧ (∀ (s : State) (k : Fin 4), s.tap = false → linkUp s k = true →
    (s.start.ready = false → ∀ c, exec (.configurationRequest k c) s = .next (modLink k (fun l => { l with crs := true }) s))
    ∧ (s.start.ready = true → ∀ r, ∃ t d, exec (.configurationRequest k (.read r)) s = .next t ∧ (link t k).crs = false
        ∧ (link t k).cfg = some d ∧ (link t k).state = (link s k).state ∧ (r = .deviceCapabilities → d.getLsbD 28 = true)
        ∧ (r = .command → (link s k).command &&& 6 = 0 → d.getLsbD 2 = (link s k).bme ∧ d.getLsbD 1 = (link s k).mse))
    ∧ (s.start.ready = true → ∀ en a d, exec (.configurationRequest k (.msi en a d)) s =
        .next (modLink k (fun l => { l with msiEn := en, msiAddr := a, msiData := d })
          (modLink k (fun l => { l with crs := false }) s)))
    ∧ (s.start.ready = true → ∀ bme mse rest, ∃ t, exec (.configurationRequest k (.command bme mse rest)) s = .next t
        ∧ (link t k).command = rest &&& ~~~6 ∧ (link t k).bme = bme ∧ (link t k).mse = mse ∧ (link t k).crs = false))
  ∧ (∀ (s : State) (k : Fin 4), s.tap = false → (link s k).bme = true → (∀ e ∈ (ten s k).rings, e.2.enable = false) →
    (ten s k).frPush = none →
    ∃ t, exec (.busMasterEnableClear k) s = .next t ∧ (link t k).bme = false ∧ (link t k).state = (link s k).state
      ∧ (ten t k).fault = (ten s k).fault
      ∧ ∀ c, c < 16 → (chan s c).busy = true → chanHost s c = k → srcSpace (chan s c) = 0 ∨ dstSpace (chan s c) = 0 →
          (chan s c).ending = none →
          ((chan s c).reads = [] → (chan t c).busy = false ∧ (chan t c).err = 4)
          ∧ ((chan s c).reads ≠ [] → (chan t c).busy = true ∧ (chan t c).ending = some 4))
  ∧ (∀ (s : State) (k : Fin 4), s.tap = false → linkBarred s k = false →
    ((link s k).state = .detect →
      exec (.linkTrainingStart k) s = .next (modLink k (fun l => { l with state := .training }) s))
    ∧ (∀ rings, exec (.hostLinkError ⟨k, rings⟩) s =
        .next (linkReplay k rings (raise (k + 1) 3 (modLink k (fun l => { l with aer := l.aer + 1 }) s))))
    ∧ (∀ st, st = .l0 ∨ st = .l1 → linkUp s k = true → ∃ t, exec (.hostLinkStateChange k st) s = .next t
        ∧ (link t k).state = st)
    ∧ (∀ st, st ≠ .l0 → st ≠ .l1 → linkUp s k = true → (∀ e ∈ (ten s k).rings, e.2.enable = false) →
      (ten s k).frPush = none →
      exec (.hostLinkStateChange k st) s =
        .next (raise 0 (3 + k) (raise (k + 1) 3 (modLink k (fun l => { l with state := st }) s))))
    ∧ (∀ st, st = .l0 ∨ st = .l1 → linkUp s k = false → exec (.hostLinkStateChange k st) s =
        .next (linkServe k (modTen k (fun x => { x with linkHold := false })
          (raise 0 (3 + k) (raise (k + 1) 3 (modLink k (fun l => { l with state := st }) s)))))))

/-! ### Ports, lanes, MDIO -/

/-- A port's link rises once its conditions have held for 1 ms and falls when one fails; loss of signal or lock takes
the links of a lane; in-band words and MDIO polls feed the conditions. (On R29, R241 to R244, R263, R264, R271.) -/
def Obligations.PortLinksFollowTheirConditions : Prop :=
  (∀ (s : State) (p : Fin 32), s.tap = false →
    (∀ since, (port s p).qualAt = some since → since + ms 1 ≤ s.clk → s.power.asleep = false →
      exec (.linkUp p) s = .next (raise 0 13 (modPort p
        (fun x => { x with link := true, speed := runSpeed s p, qualAt := none }) s)))
    ∧ ((port s p).link = true →
      ∃ t, exec (.linkDown p) s = .next t ∧ (port t p).link = false ∧ (port t p).wire = none ∧ (port t p).held = none
        ∧ (∀ c, queueOf t p c = []) ∧ (port t p).stage = []))
  ∧ (∀ (s : State) (q : Fin 8), s.tap = false →
    (∃ t, exec (.laneSignalLoss q) s = .next t ∧ (lane t q).signal = false ∧ (lane t q).lock = false
      ∧ ∀ i, i < 4 → loopback s (4 * q + i) ≠ 1 → (port t (4 * q + i)).link = false)
    ∧ (pn s (0x110000 + 256 * q) ≠ 0 → (lane s q).down = false → fenced s q = false →
      ∃ t, exec (.laneLockAcquired q) s = .next t ∧ (lane t q).signal = true ∧ (lane t q).lock = true))
  ∧ (∀ (s : State) (p : Fin 32) (up half : Bool) (speed : Fin 6), s.tap = false →
    ∃ u t, u = modPort p (fun x => { x with inLink := up, inSpeed := speed, inHalf := half }) s
      ∧ exec (.inBandLinkChange p up speed half) s = .next t
      ∧ (port t p).inLink = up ∧ (port t p).inSpeed = speed ∧ (port t p).inHalf = half
      ∧ (linkCond u p = false → (port t p).link = false ∧ (port t p).qualAt = none)
      ∧ (linkCond u p = true → (port t p).link = (port s p).link)
      ∧ (linkCond u p = true → (port s p).link = false → (port s p).qualAt = none → (port t p).qualAt = some s.clk))
  ∧ (∀ (s : State) (k : Fin 2) (p : Fin 32), s.tap = false →
    (∀ i, i < 32 → (polled s i && bits (pn s (0x10000D + 256 * i)) 5 1 == k) = (i == p.val)) →
    (∀ v : BitVec 16, v ≠ 0xFFFF → ∃ t, exec (.mdioPoll k (.value v)) s = .next t ∧ (port t p).mdioUp = v.getLsbD 2
      ∧ (tget t.mdio k {}).noResp = false)
    ∧ (∀ a, a = .noTurnaround ∨ a = .value 0xFFFF → ∃ t, exec (.mdioPoll k a) s = .next t ∧ (port t p).mdioUp = false
      ∧ (tget t.mdio k {}).noResp = true ∧ (loopback s p ≠ 1 → (port t p).link = false))
    ∧ (∀ a, ∃ t, exec (.mdioPoll k a) s = .next t ∧ mdioStat s k % 2 = 1 ∧ mdioStat t k % 2 = 1))
  ∧ (∀ (s : State) (k : Fin 2) (a : MdioAnswer), s.tap = false → mdioPorts s k = [] →
    ∃ t, exec (.mdioPoll k a) s = .next t ∧ mdioStat t k % 2 = 0 ∧ ∀ p, (port t p).link = (port s p).link)

/-- A frame that ends at a port whose link is up meets the checks of Table 8.3 in order: the first that fails counts and
discards it; a MAC control frame is consumed; a frame without room is counted in RX_NO_BUF; a frame that passes
enters the RX stage. (On R245, R246, R250, R267.) -/
def Obligations.ReceivedFramesMeetTheChecksInOrder : Prop :=
  ∀ (s : State) (p : Fin 32) (f : RxFrame) (len maxF : Nat), s.tap = false → (port s p).link = true →
    loopback s p = 0 → fenced s (p.val / 4) = false → s.power.asleep = false → s.safety.safe = false →
    beaconPort s p = false → len = f.bytes.length → maxF = pn s (0x100003 + 256 * p) →
    (f.preempt = true → f.preemptError = true → exec (.frameReceive p f) s = .next (countPort p 15 1 s))
    ∧ ((f.preempt && f.preemptError) = false → f.codeError.any (fun k => decide (k ≤ maxF)) = true →
      exec (.frameReceive p f) s = .next (countPort p 6 1 s))
    ∧ ((f.preempt && f.preemptError) = false → f.codeError.any (fun k => decide (k ≤ maxF)) = false →
      (len < 64 → fcsGood f.bytes = true → exec (.frameReceive p f) s = .next (countPort p 3 1 s))
      ∧ (len < 64 → fcsGood f.bytes = false → exec (.frameReceive p f) s = .next (countPort p 4 1 s))
      ∧ (64 ≤ len → maxF < len → exec (.frameReceive p f) s = .next (countPort p 5 1 s))
      ∧ (64 ≤ len → len ≤ maxF → fcsGood f.bytes = false →
          exec (.frameReceive p f) s = .next (countPort p 2 1 s))
      ∧ (64 ≤ len → len ≤ maxF → fcsGood f.bytes = true →
        (be16 f.bytes 12 = 0x8808 →
          exec (.frameReceive p f) s = .next (bwCount p false len (macControlReceive p f.bytes s)))
        ∧ (be16 f.bytes 12 ≠ 0x8808 → stageFull s p f = true →
          exec (.frameReceive p f) s = .next (countPort p 10 1 s))
        ∧ (be16 f.bytes 12 ≠ 0x8808 → stageFull s p f = false →
          exec (.frameReceive p f) s = .next (modPort p
            (fun x => { x with rx := x.rx ++ [⟨f.bytes, ingressTime s p f, f.preempt, s.clk⟩] }) (acceptCount p len s)))))

/-- Received pause quanta are counted and obeyed as FLOW_CFG says, and expire; a control frame that is due leaves when
the wire is idle; while XOFF lasts it falls due again. (On R250, R251, R254, R255, R257.) -/
def Obligations.FlowControlPausesAndAnnounces : Prop :=
  (∀ (s : State) (p : Fin 32) (bs : List Byte),
    (be16 bs 14 = 1 → bitOf (pn s (0x100004 + 256 * p)) 1 = false → macControlReceive p bs s = countPort p 7 1 s)
    ∧ (be16 bs 14 = 1 → bitOf (pn s (0x100004 + 256 * p)) 1 = true → 0 < be16 bs 16 →
      (8, s.clk + quantaTicks (port s p).speed (be16 bs 16)) ∈ (port (macControlReceive p bs s) p).paused)
    ∧ (be16 bs 14 = 1 → bitOf (pn s (0x100004 + 256 * p)) 1 = true → be16 bs 16 = 0 →
      ∀ e ∈ (port (macControlReceive p bs s) p).paused, e.1 ≠ 8)
    ∧ (be16 bs 14 ≠ 1 → be16 bs 14 ≠ 0x0101 → macControlReceive p bs s = countPort p 9 1 s))
  ∧ (∀ (s : State) (p : Fin 32) (c : Fin 8), s.tap = false → (∀ e ∈ (port s p).paused, e.2 ≤ s.clk) →
    ∃ t, exec (.pauseExpiry p c) s = .next t ∧ t.clk = s.clk
      ∧ ∀ e, e ∈ (port t p).paused ↔ e ∈ (port s p).paused ∧ e.1 ≠ c ∧ e.1 ≠ 8)
  ∧ (∀ (s : State) (p : Fin 32), s.tap = false → (port s p).ctlDue ≠ [] → (port s p).wire = none → (port s p).link = true →
    s.safety.safe = false → disturbsLaunch s p = false → loopback s p = 0 → (port s p).freeAt ≤ s.clk →
    ∃ t, exec (.macControlSend p) s = .next t
      ∧ (port t p).sent = (port s p).sent ++ [controlFrame s p ((port s p).ctlDue.any fun e => e.1 == 8)]
      ∧ (port t p).freeAt = s.clk
          + byteTicks (port s p).speed (8 + (controlFrame s p ((port s p).ctlDue.any fun e => e.1 == 8)).length)
          + byteTicks (port s p).speed 12
      ∧ ((∃ d ∈ (port s p).ctlDue, d.1 = 8) → ∀ e, e ∈ (port t p).ctlDue ↔ e ∈ (port s p).ctlDue ∧ e.1 ≠ 8)
      ∧ ((∀ d ∈ (port s p).ctlDue, d.1 ≠ 8) → ∀ e, e ∈ (port t p).ctlDue ↔ e ∈ (port s p).ctlDue ∧ 8 < e.1))
  ∧ (∀ (s : State) (p : Fin 32) (c : Nat) (x : Xoff), s.tap = false → (port s p).xoff = [(c, x)] →
    x.sentAt + quantaTicks (port s p).speed 32768 ≤ s.clk →
    exec (.pfcRefresh p) s = .next (modPort p (fun x => { x with ctlDue := tput x.ctlDue c 0xFFFF }) s))

/-! ### The Thicket, egress and gates -/

/-- The winning rule matches the frame, and no matching stored rule has a lower PRIORITY, or the same PRIORITY and a
lower row number; with no winner no stored rule matches. Its actions alone are resolved, and tag word 1 of the frame
carries RULE_HIT 1 and its row number. (On R282.) -/
def Obligations.TheWinningRuleHasTheLowestPriority : Prop :=
  (∀ (s : State) (p vid : Nat) (q : Parsed) (flags : Nat) (bs : List Byte),
    (storedRows s 0x04 0).Pairwise (· < ·) →
    (∀ r, winningRule s p vid q flags bs = some r →
      r ∈ storedRows s 0x04 0 ∧ ruleMatches s r p vid q flags bs = true
      ∧ ∀ x ∈ storedRows s 0x04 0, ruleMatches s x p vid q flags bs = true →
          bits (rowWord s 0x04 0 r 0) 0 8 < bits (rowWord s 0x04 0 x 0) 0 8
            ∨ (bits (rowWord s 0x04 0 r 0) 0 8 = bits (rowWord s 0x04 0 x 0) 0 8 ∧ r ≤ x))
    ∧ (winningRule s p vid q flags bs = none ↔ ∀ x ∈ storedRows s 0x04 0, ruleMatches s x p vid q flags bs = false))
  ∧ (∀ (s : State) (p r : Nat) (item : RxItem), ruleOf s p item = some r → (actionsOf s (some r)).ext = false →
    lookUp p item s = resolveActions p item (some r) (actionsOf s (some r)) s)
  ∧ (∀ (s : State) (p r t k : Nat) (item : RxItem), r < 2 ^ 11 → actionsOf s (some r) = { deliver := some (t, k) } →
    admits s (some t) (cellsFor item.bytes.length) = true →
    (((frame (resolveActions p item (some r) (actionsOf s (some r)) s) s.nextFrame).tag.getD 1 0).toNat % 2 ^ 12 = 2 ^ 11 + r)
    ∧ (frame (resolveActions p item (some r) (actionsOf s (some r)) s) s.nextFrame).bytes = item.bytes)

/-- The Thicket takes the oldest complete frame of the next port: a frame found in error is counted in RX_ECC; one that
a filter refuses, or that comes while the unit is on standby or safe, in RX_FILTERED; one without a surviving action
in RX_RULE_DROP; one that DEFAULT_ACTION delivers enters the Glade and its ring. (On R274, R275, R288, R299, Table
9.1.) -/
def Obligations.TheThicketTreatsFramesInOrder : Prop :=
  ∀ (s : State) (p : Nat) (item : RxItem) (rest : List RxItem) (q : Parsed) (u : State), s.tap = false →
    frameLost s = false → s.power.asleep = false → s.thicket.waiting.length < 4 →
    thicketNext s = some p → (port s p).rx = item :: rest → q = parse item.bytes →
    u = { modPort p (rxTake item s.clk rest) s with thicket := { s.thicket with last := p } } →
    exec (.thicketResolve .rxStage) s = .next (countPort p 14 1 (setMFault 3 (2 + p / 4) 31 (0x20 + p) 0 false u))
    ∧ exec (.thicketResolve .thicketStaging) s = .next (countPort p 14 1 (setMFault 3 10 31 0x48 0 false u))
    ∧ (s.pair.role = 2 ∨ s.pair.role = 3 ∨ s.safety.safe = true →
        exec (.thicketResolve .none) s = .next (countPort p 11 1 u))
    ∧ (s.pair.role < 2 → s.safety.safe = false →
      ((addressOk s p item.bytes && vlanOk s p (q.vid (pn s (0x100008 + 256 * p)))) = false →
        exec (.thicketResolve .none) s = .next (countPort p 11 1 u))
      ∧ ((addressOk s p item.bytes && vlanOk s p (q.vid (pn s (0x100008 + 256 * p)))) = true →
        exec (.thicketResolve .none) s = .next (lookUp p item u)
        ∧ (ruleOf s p item = none →
          (bitOf (pn s 0x200005) 0 = false → bitOf (pn s 0x200005) 9 = false →
            exec (.thicketResolve .none) s = .next (countPort p 12 1 (perfAdd 0x050001 1 u)))
          ∧ (∀ t k, bitOf (pn s 0x200005) 0 = true → bitOf (pn s 0x200005) 9 = false → t = bits (pn s 0x200005) 1 2 →
            k = bits (pn s 0x200005) 3 6 → admits s (some t) (cellsFor item.bytes.length) = true →
            ∃ v, exec (.thicketResolve .none) s = .next v ∧ v.nextFrame = s.nextFrame + 1
              ∧ (frame v s.nextFrame).bytes = item.bytes ∧ (frame v s.nextFrame).refs = 1
              ∧ (frame v s.nextFrame).charge = some t
              ∧ (ring v t (68 + k)).refs = (ring s t (68 + k)).refs ++ [s.nextFrame]
              ∧ (port v p).rx = rest))))

/-- A lookup that needs the host is resolved when the read of its port's frame ends: UR, CA and the timeout are misses that
raise source 14; data is served through the Canopy and a hit applies; a reset of the tenant abandons the read, and the
frame takes the actions of the rule that wins then; an uncorrectable error discards it; with frame service lost it stays.
Without a usable unit there is no host read. (On R156, R284, R290 to R292, R299; that the frame is matched again when it
is resolved is assumption 58.) -/
def Obligations.ExtendedFlowLookupsEnd : Prop :=
  (∀ (s u : State) (p : Fin 32) (f : TFrame) (t : Nat), s.tap = false → frameLost s = false →
    s.thicket.waiting.find? (fun f => f.port == p.val) = some f → u = leaveWaiting p s → t = f.tenant →
    (∀ r, exec (.extFlowReadEnd ⟨p, r, true⟩) s =
      .next (countPort p 14 1 (setMFault 3 10 31 0x48 0 false (readDrop t (lookupWho p) u))))
    ∧ ((ten s t).resets ≠ f.resets → ∀ r, exec (.extFlowReadEnd ⟨p, r, false⟩) s = .next (settleFrame p f.item none u))
    ∧ ((ten s t).resets = f.resets → (∀ r, r = .ur ∨ r = .ca → exec (.extFlowReadEnd ⟨p, .done r, false⟩) s =
      .next (settleFrame p f.item none (raise 0 14 (readDrop t (lookupWho p) u))))
    ∧ (f.readAt + cplTimeout s t ≤ s.clk → exec (.extFlowReadEnd ⟨p, .timeout, false⟩) s =
      .next (settleFrame p f.item none (raise 0 14 (readDrop t (lookupWho p) (perfAdd (0x0A0004 + 256 * t) 1 u)))))
    ∧ (∀ host bytes v, (bytes, v) = readServe t f.addr 64 (lookupWho p) host u →
      exec (.extFlowReadEnd ⟨p, .done (.data host), false⟩) s = .next (settleFrame p f.item (some (t, bytes)) v))))
  ∧ (∀ (s : State) (p : Fin 32) (r : ExtRead) (ecc : Bool), s.tap = false → frameLost s = true →
    exec (.extFlowReadEnd ⟨p, r, ecc⟩) s = .next s)
  ∧ (∀ (s : State) (p : Nat) (item : RxItem), (actionsOf s (ruleOf s p item)).ext = true →
    bitOf (pn s 0x200000) 0 = true → (parse item.bytes).udp = true →
    (fenced s 18 = true ∨ (ten s (flowTenant s)).inReset = true ∨ canIssue s (flowTenant s) = false →
      lookUp p item s = settleFrame p item none (perfAdd 0x050002 1 s)))
  ∧ (∀ (s : State) (p t : Nat) (item : RxItem) (bytes : List Byte) (row : Option Nat), row = ruleOf s p item →
    settleFrame p item none s = resolveActions p item row (actionsOf s row) s
    ∧ ((actionsOf s row).ext = true → settleFrame p item (some (t, bytes)) s =
        resolveActions p item row (flowApply t (parse item.bytes) item.bytes bytes (actionsOf s row)) s))
  ∧ (∀ (t : Nat) (q : Parsed) (bs row : List Byte) (a : Actions),
    (flowHit q bs row = none → flowApply t q bs row a = a)
    ∧ (∀ d x k, flowHit q bs row = some d → a.deliver = some (x, k) → x ≠ t → flowApply t q bs row a = a)
    ∧ (flowHit q bs row = some false → (∀ x k, a.deliver = some (x, k) → x = t) →
        (flowApply t q bs row a).deliver = none)
    ∧ (flowHit q bs row = some true → (∀ x k, a.deliver = some (x, k) → x = t) →
        (flowApply t q bs row a).deliver = some (t, bits (leNat (slice row 40 4)) 16 6)))

/-- Egress: the due head of the highest class goes to a free stage slot with its tag, a relayed frame's SRC_KIND now 2, or
is missed when its launch time has passed; the eligible staged frame of the highest class starts once the wire has been
idle, within G of its time; a preempted frame resumes when no other goes first; the last bit ends a frame, and 12 byte
times of idle follow; a witness beacon leaves every 1 ms. (On R10, R224, R247, R308, R321 to R324, R326, R496; that the
beacon occupies the wire until TX_FRAME_END is assumption 61.) -/
def Obligations.EgressCopiesStartsAndEndsFrames : Prop :=
  (∀ (s : State) (p : Fin 32) (c : Nat) (i : EgItem) (rest : List EgItem), s.tap = false → s.pair.role < 2 →
    (port s p).stage.length < 2 →
    ([7, 6, 5, 4, 3, 2, 1, 0].find? fun c => match queueOf s p c with
      | i :: _ => due s p c i
      | [] => false) = some c → queueOf s p c = i :: rest →
    ((∀ l, i.launch = some l → s.time.dev ≤ l * 65536) → ∃ t, exec (.egressCopy p .none) s = .next t
      ∧ (port t p).stage = (port s p).stage ++ [{
          cls := c, origin := i.origin, launch := i.launch, supplied := i.supplied, bytes := (frame s i.frame).bytes,
          tag := egressTag i.origin (frame s i.frame).tag }]
      ∧ queueOf t p c = rest)
    ∧ (∀ l, i.launch = some l → l * 65536 < s.time.dev → exec (.egressCopy p .none) s =
        .next (finishOrigin i.origin .launchMissed 0 none (release i.frame (setClassQueue p c rest s)))))
  ∧ (∀ (s : State) (p : Fin 32), s.tap = false → 2 ≤ (port s p).stage.length ∨ 2 ≤ s.pair.role →
    exec (.egressCopy p .none) s = .next s)
  ∧ (∀ (w0 : Word) (tag : List Word), (egressTag .relay (w0 :: tag)).drop 1 = tag
    ∧ bits ((egressTag .relay (w0 :: tag)).getD 0 0).toNat 21 3 = 2
    ∧ ((egressTag .relay (w0 :: tag)).getD 0 0).toNat % 2 ^ 21 = w0.toNat % 2 ^ 21)
  ∧ (∀ (s u : State) (p : Fin 32), s.tap = false → (port s p).wire = none → (port s p).link = true →
    s.safety.safe = false → s.pair.role < 2 → u = waitUntil (port s p).freeAt s →
    (∀ f, pickStaged u p = some f → ∃ t w, exec (.egressLaunch p .none) s = .next t ∧ (port t p).wire = some w
      ∧ (port t p).stage = (port s p).stage.erase f ∧ w.cls = f.cls ∧ w.origin = f.origin ∧ w.bytes = f.bytes
      ∧ w.clkAt = u.clk ∧ w.speed = (port s p).speed ∧ u.clk * 131072 ≤ w.startAt
      ∧ w.startAt < u.clk * 131072 + startGrain (port s p).speed)
    ∧ ((port s p).freeAt ≤ s.clk → pickStaged s p = none → (port s p).held = none →
      ((∀ f ∈ (port s p).stage, launched s f = true) → exec (.egressLaunch p .none) s = .next s)
      ∧ (∀ f l v, (port s p).stage = [f] → f.launch = some l → launched s f = false → v = waitDev (l * 65536) s →
        pickStaged v p = some f → ∃ t w, exec (.egressLaunch p .none) s = .next t ∧ (port t p).wire = some w
          ∧ (port t p).stage = [] ∧ w.bytes = f.bytes ∧ w.clkAt = v.clk
          ∧ v.clk * 131072 - (v.time.dev - l * 65536) ≤ w.startAt
          ∧ w.startAt < v.clk * 131072 - (v.time.dev - l * 65536) + startGrain (port s p).speed))
    ∧ (∀ h, (port s p).freeAt ≤ s.clk → pickStaged s p = none → (port s p).held = some h → gateOpen s p h.cls = true →
      (port s p).gate.hold = false → ∃ t, exec (.egressLaunch p .none) s = .next t
        ∧ (port t p).wire = some { h with clkAt := s.clk } ∧ (port t p).held = none
        ∧ (port t p).stage = (port s p).stage))
  ∧ (∀ (s : State) (p : Fin 32) (f : Staged), s.tap = false → (port s p).wire = some f → (port s p).held = none →
    loopback s p = 0 → wireEnd f ≤ s.clk →
    ∃ t, exec (.txFrameEnd p) s = .next t ∧ (port t p).wire = none
      ∧ (port t p).sent = (port s p).sent ++ [oneStep f (egressTime s f)] ∧ t.clk = s.clk
      ∧ (port t p).freeAt = s.clk + byteTicks f.speed 12)
  ∧ (∀ (s : State) (p : Fin 32), s.tap = false → s.pair.role ≠ 0 → beaconPort s p = true → (port s p).link = true →
    s.safety.safe = false → pairingLost s = false → tget s.pair.beaconSent p 0 + ms 1 ≤ s.clk → (port s p).wire = none →
    (port s p).freeAt ≤ s.clk → disturbsLaunch s p = false →
    ∃ t w, exec (.witnessBeacon p) s = .next t ∧ (port t p).wire = some w ∧ w.bytes = beaconFrame s p
      ∧ w.clkAt = s.clk ∧ tget t.pair.beacons p 0 = (tget s.pair.beacons p 0 + 1) % 2 ^ 32 ∧ tget t.pair.beaconSent p 0 = s.clk)

/-- Gates: at its start an entry takes effect and its OP sets or releases hold; at the change time the pending list
becomes the active one with its admin values and SWAP clears. (On R317 to R319, R326.) -/
def Obligations.GateListsRunAndSwap : Prop :=
  (∀ (s : State) (p : Fin 32), s.tap = false → (port s p).gate.enable = false → exec (.gateChange p false) s = .next s)
  ∧ (∀ (s : State) (p : Fin 32) (next : Nat) (u : State) (pos : Nat) (g : Gate), s.tap = false →
    (port s p).gate.enable = true →
    next = (match cyclePos s p (nowNs s) with
      | none => (port s p).gate.base
      | some pos => nowNs s - pos + (entryOf s p (port s p).gate.active (port s p).gate.len (port s p).gate.cycle pos).2) →
    u = waitDev (next * 65536) s → cyclePos u p (nowNs u) = some pos → g = (port u p).gate →
    ∃ t op, exec (.gateChange p false) s = .next t ∧ t.clk = u.clk
      ∧ op = (gateEntry u p g.active (entryOf u p g.active g.len g.cycle pos).1).2.1
      ∧ (op = 1 → (port t p).gate.hold = true) ∧ (op = 2 → (port t p).gate.hold = false)
      ∧ (op ≠ 1 → op ≠ 2 → (port t p).gate.hold = g.hold))
  ∧ (∀ (s : State) (p : Fin 32) (c : Nat), s.tap = false → (port s p).gate.swapAt = some c → c * 65536 ≤ s.time.dev →
    ∃ t, exec (.gateSwap p) s = .next t ∧ (port t p).gate.swapAt = none
      ∧ (port t p).gate.active = 1 - (port s p).gate.active ∧ (port t p).gate.base = adminBase s p
      ∧ (port t p).gate.len = pn s (0x310001 + 256 * p)
      ∧ (port t p).gate.cycle = pwide s (0x310002 + 256 * p) 2 ∧ (port t p).gate.enable = (port s p).gate.enable)
  ∧ (∀ (s : State) (p : Fin 32), s.tap = false → (port s p).gate.swapAt = none →
    exec (.gateSwap p) s = .next s)

/-! ### Time, counters and presentation -/

/-- PPS_OUT rises where a second boundary was reached by counting and falls after its width; a selected edge of PPS_IN
or EVT_IN is captured with the device time, and short or close edges are ignored. At lock the device time and the
fixed cycle counter start at 0; loss of lock sets M_FAULT.TIMEBASE and leads to the device safe state. (On R312,
R314, R328, R329, R548.) -/
def Obligations.PulsesAreCapturedAndTheTimebaseLocks : Prop :=
  ((∀ s : State, s.tap = false → s.time.ppsDue = true → s.power.asleep = false → s.time.lost = false →
    bitOf (pn s 0x300003) 0 = true →
    ∃ t, exec .ppsOutPulse s = .next t ∧ t.time.ppsDue = false ∧ t.clk = s.clk
      ∧ t.time.ppsOut = some ((s.time.fixed + us (bits (pn s 0x300003) 8 16)) % 2 ^ 48))
  ∧ (∀ s : State, s.tap = false → bitOf (pn s 0x300003) 0 = false → s.time.ppsDue = false →
    exec .ppsOutPulse s = .next s)
  ∧ (∀ s : State, s.tap = false → s.time.ppsOut = some s.time.fixed → s.time.fixed < 2 ^ 48 →
    exec .ppsOutEnd s = .next { s with time := { s.time with ppsOut := none } })
  ∧ (∀ (s : State) (e : Edge), s.tap = false →
    (bitOf (pn s 0x300004) 0 = false ∨ bitOf (pn s 0x300004) 1 ≠ e.falling ∨ e.widthNs < 20 →
      exec (.ppsInCapture e) s = .next s)
    ∧ (bitOf (pn s 0x300004) 0 = true → bitOf (pn s 0x300004) 1 = e.falling → 20 ≤ e.widthNs → s.time.pll = true →
      (∀ d at0, s.time.cap.find? (fun c => c.1 == 2) = some (2, d, at0) → s.clk ≤ at0 + us 1 →
        exec (.ppsInCapture e) s = .next s)
      ∧ (s.time.cap.find? (fun c => c.1 == 2) = none → ∃ t, exec (.ppsInCapture e) s = .next t
          ∧ tget t.time.cap 2 (0, 0) = (s.time.dev, s.clk) ∧ ∀ w, w < 5 → (win t w).capNew.getLsbD 2 = true)))
  ∧ (∀ (s : State) (i : Fin 2) (e : Edge), s.tap = false →
    (bitOf (bits (pn s 0x300005) (2 * i) 2) (if e.falling then 1 else 0) = false ∨ e.widthNs < 20 →
      exec (.evtInCapture i e) s = .next s)
    ∧ (bitOf (bits (pn s 0x300005) (2 * i) 2) (if e.falling then 1 else 0) = true → 20 ≤ e.widthNs →
      s.time.pll = true → s.power.asleep = false → s.time.cap.find? (fun c => c.1 == i.val) = none →
      ∃ t, exec (.evtInCapture i e) s = .next t ∧ tget t.time.cap i (0, 0) = (s.time.dev, s.clk)
        ∧ ∀ w, w < 5 → (win t w).capNew.getLsbD i = true)))
  ∧ ((∀ s : State, s.tap = false → s.time.pll = false → s.start.pllFailed = false → running s = true →
    exec .timebasePllLock s = .next { s with
      time := { s.time with pll := true, dev := 0, rem := 0, fixed := 0, segs := [] }, power := { s.power with lockedAt := s.clk } })
  ∧ (∀ s : State, s.tap = false → s.time.pll = true ∨ s.start.pllFailed = true → exec .timebasePllLock s = .next s)
  ∧ (∀ s : State, s.tap = false → s.time.pll = true → s.time.lost = false →
    ∃ t, exec .pllLockLoss s = .next t ∧ t.time.lost = true ∧ t.safety.safe = true ∧ t.mgmt.fault.getLsbD 6 = true))

/-- Time passes tick by tick: the fixed cycle counter wraps and raises source 23, a counter of ticks wraps and raises
its source, and the slew falls by 1 for each 500 slewed ticks. (On R302, R303, R463, R465.) -/
def Obligations.CountersRunAndWrap : Prop :=
  (∀ (s : State) (n : Nat), s.time.pll = true → 0 < n →
    (wait n s).clk = s.clk + n ∧ (wait n s).time.fixed = (s.time.fixed + n) % 2 ^ 48)
  ∧ (∀ s : State, s.tap = false → s.time.pll = true → s.time.fixed < 2 ^ 48 →
    ∃ t, exec .fixedCycleCounterWrap s = .next t ∧ t.time.fixed = 0 ∧ t.clk = s.clk + (2 ^ 48 - s.time.fixed))
  ∧ (∀ (s : State) (i : Fin 8), s.tap = false → s.time.pll = true → pn s (0x610000 + i) = 0x010001 →
    tget s.perf.cnt i 0 < 2 ^ 48 →
    ∃ t, exec (.programmableCounterWrap i) s = .next t ∧ tget t.perf.cnt i 0 = 0
      ∧ t.clk = s.clk + (2 ^ 48 - tget s.perf.cnt i 0))
  ∧ (∀ s : State, s.tap = false → s.time.pll = true → phaseSlew s ≠ 0 → s.time.slewAcc < 500 →
    ∃ t, exec .phaseSlewDecrement s = .next t ∧ t.clk = s.clk + (500 - s.time.slewAcc)
      ∧ (phaseSlew t).natAbs = (phaseSlew s).natAbs - 1 ∧ (0 < phaseSlew s → 0 ≤ phaseSlew t)
      ∧ (phaseSlew s < 0 → phaseSlew t ≤ 0))
  ∧ (∀ (s : State) (start : Nat), s.tap = false → s.perf.bwAt = some start → start + pwide s 0x610008 2 ≤ s.clk →
    exec .bandwidthWindowEnd s = .next (raise 0 32 { s with perf := { s.perf with
      bwBytes := s.perf.bwSum, bwSum := 0, bwAt := some (start + pwide s 0x610008 2) } }))

/-- A window that may present does so once MIN_GAP has passed since it last began; a tenant window with MSI enabled
sends one MSI. (On R456 to R458.) -/
def Obligations.WindowsPresentTheirSources : Prop :=
  ∀ (s : State) (w : Fin 5), s.tap = false →
    (presentable s w = false ∨ (win s w).presenting = true → exec (.presentation w) s = .next s)
    ∧ (presentable s w = true → (win s w).presenting = false →
      (∀ at0, (win s w).presentAt = some at0 → at0 + us (pn s (0x600000 + 256 * w.val)) ≤ s.clk) →
      ∃ u t, u = modWin w (fun x => { x with presenting := true, sinceClaim := 3, presentAt := some s.clk }) s
        ∧ exec (.presentation w) s = .next t
        ∧ (w = 0 ∨ (win s w).msiEn = false ∨ (link s (w - 1)).msiEn = false → t = u)
        ∧ (w ≠ 0 → (win s w).msiEn = true → (link s (w - 1)).msiEn = true →
            t = post (w - 1) (link s (w - 1)).msiAddr.toNat (leBytes 4 (link s (w - 1)).msiData.toNat) u))

/-! ### Functional safety and self-test -/

/-- OP 1 arms or restarts the watchdog, whose end leads to the device safe state, as OP 2 and a handshake timeout do;
entering it stops channels, resets tenants and asserts FAULT_N; a keep-alive changes nothing. (On R19, R547 to R550,
R600.) -/
def Obligations.TheSafeStateIsEnteredOnItsCauses : Prop :=
  (∀ (s : State) (q : CbPar), PerformsM s q 0x49 1 →
    (s.safety.safe = false → s.power.asleep = false → exec (.serviceWatchdog q false) s = .next
      (modSafety (fun x => { x with dog := some (s.time.fixed, pn s 0x900003) }) (acknowledge none s)))
    ∧ (s.safety.safe = true ∨ s.power.asleep = true →
      exec (.serviceWatchdog q false) s = .next (acknowledge none s)))
  ∧ (∀ (s : State) (q : CbPar), PerformsM s q 0x49 0x3C0002 → s.safety.safe = false →
    ∃ t, exec (.enterSafeState q) s = .next t ∧ t.safety.safe = true ∧ t.start.faultN = true ∧ t.safety.dog = none
      ∧ (∀ k, k < 4 → (ten t k).inReset = true) ∧ (∀ c, c < 16 → (chan t c).busy = false)
      ∧ (∀ c, c < 16 → (chan s c).busy = true → (chan t c).err = 9)
      ∧ ∀ p, p < 32 → (port t p).wire = none ∧ (port t p).held = none)
  ∧ (∀ (s : State) (since period : Nat), s.tap = false → s.safety.dog = some (since, period) →
    ms period ≤ (s.time.fixed + 2 ^ 48 - since) % 2 ^ 48 → s.safety.safe = false →
    ∃ t, exec .safetyWatchdogExpiry s = .next t ∧ t.mgmt.fault.getLsbD 7 = true ∧ t.safety.safe = true
      ∧ t.safety.dog = none)
  ∧ (∀ s : State, s.tap = false → s.safety.dog = none → exec .safetyWatchdogExpiry s = .next s)
  ∧ (∀ (s : State) (a b : Fin 25), s.tap = false → running s = true → s.time.pll = true → handshakes s a = true →
    handshakes s b = true → a ≠ b →
    ∃ t, exec (.handshakeTimeout a b) s = .next t ∧ t.mgmt.fault.getLsbD 0 = true ∧ t.safety.safe = true
      ∧ (s.safety.safe = false → a = 0 ∨ b = 0 → t.safety.resetFrom = some s.clk)
      ∧ (s.mgmt.fault = 0 → t.mgmt.detail = word (a.val * 2 ^ 14 + b.val * 2 ^ 9)))
  ∧ (∀ (s : State) (i : Fin 25), s.tap = false → exec (.keepAlive i) s = .next s)

/-- A checker is tested once in a half-period. A test that passes ends a run of misses, and so does one that finds a cell in error, which it counts or strikes;
one that fails sets M_FAULT.PERIODIC_TEST and TEST_FAIL and fences the unit or enters the device safe state; the
second miss in a row is a failure; a disagreeing detector pair fails checker 40, a failed probe checker 22; the
self-check reports every failed checker, and READY sets once it and memory initialisation have ended. (On R298, R533, R539
to R545, R570.) -/
def Obligations.ChecksReactAsTheirTableSays : Prop :=
  (∀ (s : State) (c : Fin 48) (i : Fin 25), s.tap = false → testSkipped s c i = true →
    ∀ e, exec (.periodicTest c i e) s = .next s)
  ∧ (∀ (s : State) (c : Fin 48) (i : Fin 25), s.tap = false → testSkipped s c i = false →
    (∃ t, exec (.periodicTest c i .pass) s = .next t ∧ tget t.safety.misses c 0 = 0 ∧ t.mgmt.fault = s.mgmt.fault
      ∧ (s.clk < halfEnd s → (c.val, i.val) ∈ s.safety.tested → halfEnd s ≤ t.clk))
    ∧ exec (.periodicTest c i .corrected) s = .next (perfAdd 0x040004 1 (setMisses c 0 (testTurn c i s)))
    ∧ (∀ cell, exec (.periodicTest c i (.struck cell)) s = .next (testStrike cell (setMisses c 0 (testTurn c i s))))
    ∧ (∃ t, exec (.periodicTest c i .fail) s = .next t ∧ t.mgmt.fault.getLsbD 5 = true ∧ t.safety.testFail = true
      ∧ (checkerSafe c i = true → t.safety.safe = true)
      ∧ (checkerSafe c i = false → word (pn t 0xA00001) = word (pn s 0xA00001 ||| checkerFence c i)))
    ∧ (tget s.safety.misses c 0 = 0 → ∃ t, exec (.periodicTest c i .miss) s = .next t ∧ t.safety.fttiMiss = true
      ∧ tget t.safety.misses c 0 = 1 ∧ t.mgmt.fault = s.mgmt.fault)
    ∧ (1 ≤ tget s.safety.misses c 0 → ∃ t, exec (.periodicTest c i .miss) s = .next t ∧ t.safety.fttiMiss = true
      ∧ t.mgmt.fault.getLsbD 5 = true ∧ t.safety.testFail = true))
  ∧ (∀ (s : State) (i : Fin 25), s.tap = false → i ≠ 1 → allFenced s (islandFence i) = false →
    ∃ t, exec (.detectorDisagreement i) s = .next t ∧ t.mgmt.fault.getLsbD 5 = true ∧ t.safety.testFail = true
      ∧ (i = 0 ∨ i = 24 → t.safety.safe = true)
      ∧ (i ≠ 0 → i ≠ 24 → word (pn t 0xA00001) = word (pn s 0xA00001 ||| islandFence i)))
  ∧ (∀ s : State, s.tap = false → testSkipped s 22 0 = false →
    exec (.knownAnswerProbe true) s = .next (setPw 0x200007 1 s)
    ∧ ∃ t, exec (.knownAnswerProbe false) s = .next t ∧ pn t 0x200007 = 0 ∧ t.mgmt.fault.getLsbD 5 = true
      ∧ bitOf (pn t 0xA00001) 16 = true)
  ∧ (∀ s : State, s.tap = false → s.start.checked = false → s.start.pllFailed = false → s.time.pll = true →
    running s = true →
    (∃ t, exec (.selfCheckEnd []) s = .next t ∧ t.safety.scDone = true ∧ t.safety.scPass = true
      ∧ pwide t 0x900001 2 = 0 ∧ pn t 0xA00001 = 0 ∧ t.start.checked = true ∧ t.mgmt.fault = s.mgmt.fault
      ∧ (s.start.memInit = true → t.start.ready = true))
    ∧ (∀ c i, ∃ t, exec (.selfCheckEnd [(c, i)]) s = .next t ∧ t.safety.scDone = true ∧ t.safety.scPass = false
      ∧ pwide t 0x900001 2 = 2 ^ c.val ∧ t.mgmt.fault.getLsbD 4 = true
      ∧ (checkerSafe c i = true → t.safety.safe = true ∧ t.start.faultN = true)
      ∧ (s.start.memInit = true → t.start.ready = true)))
  ∧ (∀ s : State, s.tap = false → running s = true → s.start.ready = false → s.power.waking = false →
    exec .memoryInitialisationEnd s = .next { s with start := (if s.start.checked || s.start.pllFailed
      then { s.start with memInit := true, ready := true, readyAt := s.clk } else { s.start with memInit := true }) })

/-- Power-up, the resets and their releases, the PLL's failure, the start-up window's close, and the loading of a TAP
instruction. (On R164, R524, R562, R565, R567 to R572, R578, R585.) -/
def Obligations.ResetsAndStartUp : Prop :=
  (∀ s : State, s.start.powered = false → ∃ t, exec .powerOn s = .next t ∧ t.start.powered = true
    ∧ t.start.resetLow = true ∧ t.power.acc = 0 ∧ t.power.accLoad = true ∧ t.power.nvNew = s.power.nvNew
    ∧ t.power.nvOld = s.power.nvOld ∧ faultLow t = true)
  ∧ (∀ s : State, s.start.powered = true → exec .powerOn s = .next s)
  ∧ (∀ (s : State) (n : Nat), n < 1000 → exec (.resetNAssert n) s = .next s)
  ∧ (∀ (s : State) (n : Nat), 1000 ≤ n → n < 10000 → s.start.powered = true → s.start.resetLow = false →
    ∃ t, exec (.resetNAssert n) s = .next t ∧ (t = pinReset (drawn s) ∨ t = drawn s))
  ∧ (∀ (s : State) (n : Nat), 10000 ≤ n → s.start.powered = true → s.start.resetLow = false →
    ∃ t, exec (.resetNAssert n) s = .next t ∧ t.start.resetLow = true ∧ t.start.ready = false ∧ t.wins = [] ∧ t.tenants = []
      ∧ t.tables = [] ∧ t.mgmt = {} ∧ t.fences = 0 ∧ t.tap = false ∧ t.time = {} ∧ faultLow t = true
      ∧ t.store.otpKey = s.store.otpKey ∧ t.power.acc = s.power.acc
      ∧ ∀ id, pw t id = if keptParam id then pw s id else pw State.reset id)
  ∧ (∀ s : State, s.start.powered = true → s.start.resetLow = true →
    (∀ nv n wrote, (nv = .newer ∧ n = s.power.nvNew) ∨ (nv = .older ∧ n = s.power.nvOld) →
      ∃ t, exec (.resetNRelease ⟨nv, wrote⟩) s = .next t ∧ t.start.resetLow = false ∧ t.start.releasedAt = s.clk
        ∧ t.power.acc = (if s.power.accLoad then s.power.acc + n.acc else s.power.acc) ∧ t.power.accLoad = false
        ∧ pw t 0x010006 = word (stick 24 n.cycles.toNat 1) ∧ pw t 0x810000 = n.life
        ∧ (∀ m, m < 12 → pw t (0x810002 + 256 * m) = n.shifts.getD m 0)
        ∧ t.power.nvNew = nvRecord t ∧ t.power.nvOld = n
        ∧ (wrote = false → t.mgmt.fault.getLsbD 5 = true ∧ t.safety.testFail = true))
    ∧ (∀ wrote, ∃ t, exec (.resetNRelease ⟨.neither, wrote⟩) s = .next t ∧ t.start.resetLow = false ∧ t.power.lost = true
      ∧ pn t 0x010006 = 0xFFFFFF ∧ pn t 0x810000 = 0xFFFFFF ∧ t.safety.lifeAlarm = true
      ∧ (∀ m, m < 12 → pn t (0x810002 + 256 * m) = 0xFFFFFF) ∧ t.power.acc = 0 ∧ t.power.nvNew = nvRecord t))
  ∧ (∀ (s : State) (since : Nat) (nv : NvRead), s.start.internal = some since → since + us 10 ≤ s.clk →
    ∃ t, exec (.internalResetRelease nv) s = .next t ∧ t.start.internal = none ∧ t.start.releasedAt = s.clk
      ∧ (nv = .newer → pw t 0x010006 = s.power.nvNew.cycles ∧ pw t 0x810000 = s.power.nvNew.life))
  ∧ (∀ s : State, ∃ t, exec .supplyLoss s = .next t ∧ t.start.powered = false ∧ t.store.otpKey = s.store.otpKey
    ∧ t.power.nvNew = s.power.nvNew ∧ t.power.nvOld = s.power.nvOld ∧ t.wins = [] ∧ t.frames = [] ∧ t.scratch = [])
  ∧ (∀ s : State, s.tap = false → s.time.pll = false → s.start.pllFailed = false → running s = true →
    s.start.releasedAt + ms 5 ≤ s.clk →
    ∃ t, exec .pllLockTimeout s = .next t ∧ t.start.pllFailed = true ∧ t.safety.safe = true
      ∧ t.mgmt.fault.getLsbD 6 = true ∧ t.safety.scDone = s.safety.scDone
      ∧ (s.start.memInit = true → t.start.ready = true))
  ∧ (∀ s : State, s.tap = false → s.start.ready = true → s.start.window = true → s.start.readyAt + ms 100 ≤ s.clk →
    ∃ t, exec .startupWindowClose s = .next t ∧ t.start.window = false
      ∧ (s.safety.safe = false → t.store.mountDue = true)
      ∧ (∀ k, k < 4 → s.safety.safe = false → (ten s k).inReset = true → tenantHeld s k = true →
          tenantHeld { s with start := { s.start with window := false } } k = false → (ten t k).inReset = false))
  ∧ (∀ (s : State) (i : TapInstr) (bits : List Bool), exec (.tapInstructionLoad i bits) s =
      .next { s with tap := true, bsr := bits })

/-- Droop detectors set the island's period, the timebase island's never; the stretched time of each window is judged;
TJ holds the highest reading, raises its source, and shuts down after 10 hot samples; powered seconds accumulate;
the hourly measurement updates LIFE_USED. (On R507, R509, R510, R512, R525 to R531, R535.) -/
def Obligations.DroopHeatAndAgeAreMeasured : Prop :=
  (∀ (s : State) (i : Fin 25), s.tap = false → i ≠ 1 →
    (∃ t, exec (.droopTrip i true) s = .next t ∧ droopPeriod (tget t.droop i {}) = 2)
    ∧ (∃ t, exec (.droopTrip i false) s = .next t
        ∧ droopPeriod (tget t.droop i {}) = if (tget s.droop i {}).high then 2 else 1)
    ∧ (∃ t, exec (.droopClear i true) s = .next t
        ∧ droopPeriod (tget t.droop i {}) = if (tget s.droop i {}).low then 1 else 0)
    ∧ (∃ t, exec (.droopClear i false) s = .next t
        ∧ droopPeriod (tget t.droop i {}) = if (tget s.droop i {}).high then 2 else 0))
  ∧ (∀ (s : State) (high : Bool), s.tap = false → exec (.droopTrip 1 high) s = .next s
    ∧ exec (.droopClear 1 high) s = .next s)
  ∧ (∀ (s : State) (i : Nat) (d : Droop) (room : Nat), s.tap = false → s.time.pll = true → s.droop = [(i, d)] →
    room = 500000 - s.time.fixed % 500000 → s.time.fixed + room < 2 ^ 48 →
    ∃ t, exec .stretchBudgetWindowEnd s = .next t ∧ t.clk = s.clk + room ∧ t.time.fixed % 500000 = 0
      ∧ (tget t.droop i {}).ticks = 0
      ∧ pw t (0x800002 + 256 * i) = pw (if 500 * pn s (0x800001 + 256 * i) < d.ticks + (if droopPeriod d = 0 then 0 else room)
          then bumpParam (0x800002 + 256 * i) 1 s else s) (0x800002 + 256 * i))
  ∧ (∀ (s : State) (rs : List Int) (tj : Int), s.tap = false → s.start.powered = true → rs.length = 8 →
    s.power.sampleAt + ms 1 ≤ s.clk → tj ∈ rs → (∀ r ∈ rs, r ≤ tj) →
    ∃ t, exec (.thermalSample rs) s = .next t ∧ pn t 0x80FF00 = ofInt 24 tj ∧ t.power.sampleAt = s.clk
      ∧ t.power.hot = (if 120 < tj then s.power.hot + 1 else 0)
      ∧ (toInt 24 (pn s 0x80FF01) ≤ tj → t.power.armed = false)
      ∧ (tj ≤ toInt 24 (pn s 0x80FF01) - 3 → t.power.armed = true)
      ∧ (120 < tj → 9 ≤ s.power.hot → t.mgmt.fault.getLsbD 9 = true ∧ t.safety.safe = true)
      ∧ (tj ≤ 120 → t.mgmt.fault = s.mgmt.fault ∧ t.safety.safe = s.safety.safe))
  ∧ (∀ s : State, s.tap = false → s.start.powered = true → (s.power.seconds + 1) * 500000000 ≤ s.clk →
    0 < s.power.tjCount →
    exec .odometerSecond s = .next (modPower (fun x => { x with
      seconds := x.seconds + 1, acc := x.acc + Config.accelFactor s.power.tjSum s.power.tjCount, tjSum := 0, tjCount := 0 }) s))
  ∧ (∀ (s : State) (rs : List MonReading) (a : Nat), s.tap = false → s.time.pll = true → s.power.lost = false →
    s.power.lockedAt + (s.power.hours + 1) * 1800000000000 ≤ s.clk → rs.length = 12 →
    secondShift (rs.map monShift) = some a →
    ∃ t, exec (.hourlyMeasurement rs true) s = .next t ∧ t.power.hours = s.power.hours + 1 ∧ t.power.nvNew = nvRecord t
      ∧ pn t 0x810000 = min 0xFFFFFF (max (pn s 0x810000) (max (thermalLife s.power.acc) (agingLife a)))
      ∧ (∀ m v, (rs.map monShift)[m]? = some v → pn t (0x810002 + 256 * m) = v)
      ∧ (pn s 0x810001 ≤ pn t 0x810000 → t.safety.lifeAlarm = true) ∧ t.mgmt.fault = s.mgmt.fault)

/-- A load with channel 0 running ends with RESULT 7; otherwise it holds the running channels, and its end clears LOAD,
sets DONE, writes RESULT and, unless RESULT is 0, M_FAULT.IMAGE; a good load closes the start-up window. (On R124 to
R132.) -/
def Obligations.ImagesLoadAndEnd : Prop :=
  (∀ (s : State) (q : CbPar) (r : HostRead) (fromStore areaBad : Bool), PerformsM s q 0x50 (1 + flag fromStore 1) →
    s.image.load = false → s.safety.safe = false →
    ((chan s 0).busy = true → ∃ t, exec (.imageLoad q fromStore ⟨r, areaBad⟩) s = .next t ∧ t.image.load = false
      ∧ t.image.done = true ∧ t.image.result = 7 ∧ t.mgmt.fault.getLsbD 8 = true)
    ∧ ((chan s 0).busy = false → ∃ t, exec (.imageLoad q fromStore ⟨r, areaBad⟩) s = .next t ∧ t.image.load = true
      ∧ t.image.fromStore = fromStore ∧ t.mgmt.fault = s.mgmt.fault
      ∧ (∀ c, c < 16 → (chan s c).busy = true → (chan t c).busy = true → (chan t c).yielded = true)
      ∧ (fenced s 19 = true ∨ (fromStore = false ∧ r = .ur) ∨ (fromStore = true ∧ areaBad = true) →
          t.image.verdict = 6)))
  ∧ (∀ s : State, s.tap = false → s.image.load = false ∨ undrained s = true → exec (.imageLoadEnd none) s = .next s)
  ∧ (∀ s : State, s.tap = false → s.image.load = true → undrained s = false →
    (s.image.verdict ≠ 0 → ∃ t, exec (.imageLoadEnd none) s = .next t ∧ t.image.load = false ∧ t.image.done = true
      ∧ t.image.result = s.image.verdict ∧ t.mgmt.fault.getLsbD 8 = true ∧ pw t 0x010005 = word s.image.failAt
      ∧ pn t 0x010003 = 0 ∧ t.start.window = s.start.window)
    ∧ (s.image.verdict = 0 → ∃ t, exec (.imageLoadEnd none) s = .next t ∧ t.image.load = false ∧ t.image.done = true)
    ∧ (s.image.verdict = 0 → sourceOpen s.image.fromStore s = false → ∃ t, exec (.imageLoadEnd none) s = .next t
      ∧ t.image.result = 6 ∧ t.mgmt.fault.getLsbD 8 = true ∧ t.start.window = s.start.window)
    ∧ (s.image.verdict = 0 → sourceOpen s.image.fromStore s = true → imageOps s.image.bytes = some [] → ∃ t, exec (.imageLoadEnd none) s = .next t
      ∧ t.image.result = 0 ∧ t.start.window = false ∧ pn t 0x010003 = 0 ∧ pn t 0x010005 = 0xFFFFFF))

/-! ### The Journey Store -/

/-- A store command whose condition holds starts; one whose condition fails ends at once with ERROR and its ERR; a
command written while one runs only sets OVERRUN. (On R356, R372, R373, Tables 11.5 and 11.6.) -/
def Obligations.StoreCommandsStartUnderTheirConditions : Prop :=
  ∀ (s w : State) (q : CbPar), w = acknowledge none s → fenced s 17 = false →
    (∀ d, PerformsM s q 0x4C 0x5C0001 → s.store.cmd = none →
      (s.store.medium ≠ 0 → s.store.medium ≠ 3 →
        (acceptCart d = none → ∃ t, exec (.storeFormat q d) s = .next t ∧ t.store.medium = 6 ∧ t.store.err = 8
          ∧ t.store.error = true ∧ t.store.done = true ∧ t.store.cmd = none)
        ∧ (∀ c g, acceptCart d = some (c, g) → ∃ t, exec (.storeFormat q d) s = .next t ∧ t.store.cmd = some (1, 0, d)
          ∧ t.store.geometry = some g ∧ (∀ k, (stream t k).state = 0) ∧ pn t 0x410002 = g.pageSize))
      ∧ (s.store.medium = 0 ∨ s.store.medium = 3 → exec (.storeFormat q d) s = .next (storeDone 2 w)))
    ∧ (∀ d, PerformsM s q 0x4C 0x5C0002 → s.store.cmd = none →
      (s.store.medium = 2 → exec (.storeAdopt q d) s = .next (modStore (fun x => { x with cmd := some (2, 0, d) }) w))
      ∧ (s.store.medium ≠ 2 → exec (.storeAdopt q d) s = .next (storeDone 2 w)))
    ∧ (∀ k : Fin 64, PerformsM s q 0x4C (3 + 16 * k) → s.store.cmd = none →
      (s.store.medium = 3 → exec (.eventLock q k) s = .next (storeDone
        (if (lockTrigger k 3 0 (nowNs s) w).2 = 1 then 4 else 0) (lockTrigger k 3 0 (nowNs s) w).1))
      ∧ (s.store.medium ≠ 3 → exec (.eventLock q k) s = .next (storeDone 2 w)))
    ∧ (∀ k : Fin 64, PerformsM s q 0x4C (4 + 16 * k) → s.store.cmd = none → s.store.medium = 3 →
      (keyState s = 3 → ∃ t, exec (.streamOnline q k) s = .next t
        ∧ (s.store.beyond = false → (stream s k).state ≠ 3 →
            (stream t k).state = if (stream s k).state = 0 then 1 else (stream s k).state)
        ∧ (s.store.beyond = true → overCap s = true → (stream s k).state = 0 → (stream s k).window = none →
            (stream t k).state = 3)
        ∧ t.store.cmd = some (4, k.val, .absent))
      ∧ (keyState s ≠ 3 → exec (.streamOnline q k) s = .next (storeDone 3 w)))
    ∧ (∀ k : Fin 64, PerformsM s q 0x4C (5 + 16 * k) → s.store.cmd = none → s.store.medium = 3 ∨ s.store.medium = 4 →
      ∃ t, exec (.streamOffline q k) s = .next t ∧ (stream t k).state = 0 ∧ t.store.cmd = some (5, k.val, .absent))
    ∧ (PerformsM s q 0x4C 6 → s.store.cmd = none →
      (s.store.medium = 3 → ∃ t, exec (.storeSuspend q) s = .next t ∧ t.store.cmd = some (6, 0, .absent))
      ∧ (s.store.medium ≠ 3 → exec (.storeSuspend q) s = .next (storeDone 2 w)))
    ∧ (∀ d, PerformsM s q 0x4C 7 → s.store.cmd = none →
      (s.store.medium = 4 → exec (.storeResume q d) s = .next (modStore (fun x => { x with cmd := some (7, 0, d) }) w))
      ∧ (s.store.medium ≠ 4 → exec (.storeResume q d) s = .next (storeDone 2 w)))
    ∧ (PerformsM s q 0x4C 6 → s.store.cmd.isSome = true →
      exec (.storeSuspend q) s = .next (modStore (fun x => { x with overrun := true }) w))

/-- A store command ends: offline and suspend with every page programmed, suspend in MEDIUM 4; a format on a good
cartridge with an empty medium labelled with UID and FORMATS one higher, or with MEDIUM 1 and its ERR where no layout
fits; an adopt with the label rewritten; a resume with what the mount finds; a failure with its ERR. (On R356, R361,
R366, R369, R370, R372, R373, Table 12.4.) -/
def Obligations.StoreCommandsEnd : Prop :=
  (∀ s : State, s.tap = false → s.store.cmd = none → ∀ o, exec (.storeCommandEnd o) s = .next s)
  ∧ (∀ (s : State) (k : Nat) (d : Discovery) (o : StoreOutcome), s.tap = false →
    (s.store.cmd = some (4, k, d) → exec (.storeCommandEnd o) s = .next (storeDone 0 s))
    ∧ (s.store.cmd = some (5, k, d) → ∃ t, exec (.storeCommandEnd o) s = .next t ∧ t.store.cmd = none ∧ t.store.done = true
      ∧ t.store.err = 0 ∧ ∀ p ∈ t.store.pages, p.stream ≠ k)
    ∧ (s.store.cmd = some (6, k, d) → ∃ t, exec (.storeCommandEnd o) s = .next t ∧ t.store.cmd = none ∧ t.store.done = true
      ∧ t.store.err = 0 ∧ t.store.pages = [] ∧ t.store.medium = 4))
  ∧ (∀ (s : State) (k : Nat) (d : Discovery) (o : StoreOutcome), s.tap = false →
    (s.store.cmd = some (1, k, d) → acceptCart d = none → ∃ t, exec (.storeCommandEnd o) s = .next t
      ∧ t.store.medium = 6 ∧ t.store.err = 8 ∧ t.store.error = true ∧ t.store.done = true ∧ t.store.cmd = none)
    ∧ (s.store.cmd = some (7, k, d) → targetsOf d = 0 → ∃ t, exec (.storeCommandEnd o) s = .next t
      ∧ t.store.medium = 0 ∧ t.store.done = true ∧ t.store.err = 0)
    ∧ (s.store.cmd = some (7, k, d) → targetsOf d ≠ 0 → acceptCart d = none → ∃ t, exec (.storeCommandEnd o) s = .next t
      ∧ t.store.medium = 6 ∧ t.store.done = true ∧ t.store.err = 8 ∧ t.store.error = true))
  ∧ (∀ (s : State) (k : Nat) (d : Discovery) (o : StoreOutcome) (c : Cartridge) (g : Geometry) (l : Option Label)
      (bs : List BlockState), s.tap = false → s.store.cmd = some (1, k, d) → acceptCart d = some (c, g) →
    l = chooseLabel (uniqueIdOf c) c.labels →
    bs = unmapBeyond (mappedBlocks s g) (formatErase s g (l.map fun m => loadJournal g c m s) c o.eraseFails) →
    (∀ z, formatLayout g bs o.labelFails = .ok z → ∃ t m, exec (.storeCommandEnd o) s = .next t ∧ t.store.segs = []
      ∧ t.store.blocks = formatTable bs z ∧ t.store.err = 0 ∧ t.store.done = true
      ∧ (t.store.medium = 3 ∨ t.store.medium = 5) ∧ t.store.label = some m ∧ ownLabel m = true ∧ m.reserve = z.reserve
      ∧ m.formats = (match l with
          | some l => (l.formats + 1) % 65536
          | none => 1))
    ∧ (∀ e, formatLayout g bs o.labelFails = .error e → ∃ t, exec (.storeCommandEnd o) s = .next t
      ∧ t.store.medium = 1 ∧ t.store.err = e ∧ t.store.done = true ∧ t.store.segs = []))
  ∧ (∀ (s : State) (k : Nat) (d : Discovery) (o : StoreOutcome), s.tap = false → s.store.cmd = some (2, k, d) →
    (acceptCart d = none → exec (.storeCommandEnd o) s = .next (storeDone 10 s))
    ∧ (∀ c g, acceptCart d = some (c, g) →
      (chooseLabel (uniqueIdOf c) c.labels = none → exec (.storeCommandEnd o) s = .next (storeDone 10 s))
      ∧ (∀ l, chooseLabel (uniqueIdOf c) c.labels = some l → o.labelFails = [] →
        ∃ t m, exec (.storeCommandEnd o) s = .next t ∧ t.store.label = some m ∧ ownLabel m = true
          ∧ m.formats = (l.formats + 1) % 65536 ∧ m.reserve = l.reserve ∧ m.cartId = l.cartId
          ∧ (t.store.medium = 3 ∨ t.store.medium = 5) ∧ t.store.segs.length = c.segments.length ∧ t.store.done = true
          ∧ t.store.err = 0)))

/-- Waiting records are built into the open segment, and a page is filled when the oldest has waited 10 ms; the page of
the lowest PRIORITY is programmed; a program that fails moves the segment to a free block and retires the old one;
the write watchdog stops the store. (On R334, R335, R339, R360, R380.) -/
def Obligations.RecordsAreBuiltAndProgrammed : Prop :=
  (∀ (s : State) (k : Fin 64) (id since : Nat) (g : Segment) (r : List Byte) (ts : Nat), s.tap = false →
    s.store.medium = 3 → (stream s k).state ≠ 3 → fenced s 17 = false → (stream s k).wait = [.frame id since] → openSeg s k = some g →
    (r, ts) = itemRecord s (.frame id since) g.records → g.data.length + r.length ≤ imageLen s → 0 < pageSize s →
    (pageSize s ≤ pageFill s k + waitingBytes s k → ∃ t h, exec (.pageBuild k .none) s = .next t ∧ openSeg t k = some h
      ∧ h.seq = g.seq ∧ h.data = g.data ++ r ∧ h.records = g.records + 1 ∧ h.lastTs = secNs ts ∧ (stream t k).wait = []
      ∧ s.store.pages.length < t.store.pages.length)
    ∧ (pageFill s k + waitingBytes s k < pageSize s → storeRefs s < 8192 → exec (.pageBuild k .none) s = .next s)
    ∧ (since + ms 10 ≤ s.clk → pageFill s k + r.length < pageSize s → g.data.length % 4 = 0 → pageSize s % 4 = 0 →
      ∃ t h, exec (.recordWaitExpiry ⟨k, .none⟩) s = .next t ∧ openSeg t k = some h ∧ h.records = g.records + 1
        ∧ h.data.take (g.data.length + r.length) = g.data ++ r ∧ h.data.length % pageSize s = 0 ∧ (stream t k).wait = []))
  ∧ (∀ (s : State) (k : Fin 64), s.tap = false →
    (oldestWait s k = none → exec (.recordWaitExpiry ⟨k, .none⟩) s = .next s)
    ∧ (s.store.medium ≠ 3 → exec (.pageBuild k .none) s = .next s))
  ∧ (∀ s : State, s.tap = false → s.store.medium = 3 → fenced s 17 = false →
    (∀ p, nextPage s = some p → exec .pageProgram s = .next (nandIssue
        ((pageBlock s p).toList.map fun b => .pageProgram b p.index) (modStore (fun x => { x with
          pages := x.pages.map fun q => if q = p then { q with issued := true } else q }) s))
      ∧ p ∈ s.store.pages ∧ p.issued = false
      ∧ ∀ q ∈ s.store.pages, q.issued = false → pagePriority s p ≤ pagePriority s q)
    ∧ ((∀ q ∈ s.store.pages, q.issued = true) → exec .pageProgram s = .next s))
  ∧ (∀ (s : State) (p : Page), s.store.medium = 5 → nextPage s = some p →
    p ∈ s.store.pages ∧ p.issued = false ∧ p.index + 1 = pagesPer s)
  ∧ (∀ (s : State) (k : Fin 64) (p : Page), s.tap = false →
    s.store.pages.find? (fun p => p.stream == k.val && p.issued) = some p →
    exec (.pageProgramEnd k false) s = .next (dogRestart k (pageDone p s))
    ∧ (∀ g b, s.store.segs.find? (fun g => g.stream == p.stream && g.seq == p.seq) = some g → storeHeld s = false →
      s.store.medium = 3 → leastWorn s = some b → g.block < s.store.blocks.length → g.block ≠ b →
      ∃ t, exec (.pageProgramEnd k true) s = .next t ∧ (block t g.block).state = 5
        ∧ (t.store.medium = 3 → { p with issued := false } ∈ t.store.pages
          ∧ ∃ h, t.store.segs.find? (fun g => g.stream == p.stream && g.seq == p.seq) = some h ∧ h.block = b)))
  ∧ (∀ (s : State) (k : Fin 64) (since : Nat), s.tap = false → (stream s k).dogAt = some since → (stream s k).state ≠ 0 →
    s.store.medium = 3 → unwritten s k = true → since + ms (pn s 0x400002) ≤ s.clk →
    ∃ t, exec (.streamWriteWatchdog k) s = .next t ∧ t.store.medium = 6 ∧ t.store.pages = []
      ∧ t.mgmt.fault.getLsbD 10 = true ∧ ∀ j, ∀ w ∈ (stream t j).wait, w.isFrame = false)

/-- A lock opens a window unless CAP_POLICY 0 and the cap forbid it, and protects what the window covers; a trigger during a
window moves its end; STORE_TRIG locks the streams that ask for it, whatever the medium; at the window's end its segments
begin their hold; and the end of the earliest hold of a stream takes the protection of exactly the segments that began it.
(On R348 to R351.) -/
def Obligations.EventLocksProtectAndExpire : Prop :=
  (∀ (s : State) (k trig row now a b : Nat), (stream s k).window = some (a, b) →
    (lockTrigger k trig row now s).2 = 3 ∧ (stream (lockTrigger k trig row now s).1 k).window
      = some (a, max b (now + rowField s k 2 0 12 * 1000000000)))
  ∧ (∀ (s : State) (k trig row now : Nat), (stream s k).window = none → rowField s k 0 20 1 = 0 → mayProtect s = false →
    (lockTrigger k trig row now s).2 = 1 ∧ (lockTrigger k trig row now s).1.store.segs = s.store.segs)
  ∧ (∀ (s : State) (k trig row now : Nat), (stream s k).window = none → (stream s k).state = 1 → held s k = [] →
    mayProtect s = true ∨ rowField s k 0 20 1 = 1 →
    (lockTrigger k trig row now s).2 = 0 ∧ (stream (lockTrigger k trig row now s).1 k).window
      = some (now - rowField s k 2 12 12 * 1000000000, now + rowField s k 2 0 12 * 1000000000))
  ∧ (∀ (s : State) (k trig row now : Nat), (stream s k).window = none → (stream s k).state = 1 →
    rowField s k 0 20 1 = 1 → ((held s k).map (·.seq)).Nodup →
    ∀ g ∈ held s k, g.closed = false ∨
        now - rowField s k 2 12 12 * 1000000000 ≤ g.lastTs.1 * 1000000000 + g.lastTs.2 →
      ∃ h ∈ held (lockTrigger k trig row now s).1 k, h.seq = g.seq ∧ h.data = g.data ∧ h.prot = true ∧ h.holdAt = none)
  ∧ (∀ (s : State) (k : Fin 2), s.tap = false →
    (fenced s 17 = true → exec (.storeTrigEdge k) s = .next s)
    ∧ (fenced s 17 = false →
      exec (.storeTrigEdge k) s = .next (forAll 64 (fun i s =>
        if rowField s i 1 (22 + k) 1 = 1 then (lockTrigger i k 0 (nowNs s) s).1 else s) s)
      ∧ ((∀ j, j < 64 → rowField s j 1 (22 + k) 1 ≠ 1) → exec (.storeTrigEdge k) s = .next s)
      ∧ (∀ i, i < 64 → (∀ j, j < 64 → (rowField s j 1 (22 + k) 1 = 1 ↔ j = i)) →
          exec (.storeTrigEdge k) s = .next (lockTrigger i k 0 (nowNs s) s).1)))
  ∧ (∀ (s : State) (k : Fin 64), s.tap = false →
    ((stream s k).window = none → exec (.lockWindowEnd k) s = .next s)
    ∧ (∀ a b, (stream s k).window = some (a, b) → ∃ t, exec (.lockWindowEnd k) s = .next t
      ∧ (stream t k).window = none ∧ t.clk = (waitDev (b * 65536) s).clk
      ∧ (∀ g ∈ held t k, g.prot = true → g.holdAt.isSome = true)
      ∧ ∀ g ∈ held s k, g.prot = true →
          ∃ h ∈ held t k, h.seq = g.seq ∧ h.prot = true ∧ h.holdAt = some (g.holdAt.getD (poweredSec t : Int))))
  ∧ (∀ (s : State) (k : Fin 64) (days : Nat), s.tap = false → days = rowField s k 3 0 16 →
    (days = 0 ∨ (∀ g ∈ held s k, g.prot = true → g.holdAt = none) → exec (.holdExpiry k) s = .next s)
    ∧ (∀ e : Int, days ≠ 0 → (∃ g ∈ held s k, g.prot = true ∧ g.holdAt = some e) →
      (∀ g ∈ held s k, g.prot = true → ∀ x, g.holdAt = some x → e ≤ x) →
      ∃ t, exec (.holdExpiry k) s = .next t ∧ t.clk = max s.clk (poweredAt s (e + (days : Int) * 86400).toNat)
        ∧ t.store.segs = s.store.segs.map fun g =>
            if g.stream = k.val ∧ g.prot = true ∧ g.holdAt = some e then { g with prot := false, holdAt := none } else g))

/-- A mount that is due ends as the cartridge allows; the presence poll sees a cartridge come and go; the scan reads the
first, middle and last page of each block in turn and updates MAX_CORR; a target that stays busy stops the store. (On
R366, R368 to R370, R373, R386, R393.) -/
def Obligations.TheMediumIsMountedAndWatched : Prop :=
  (∀ (s : State) (d : Discovery), s.tap = false → s.store.mountDue = false → exec (.mediumMount d) s = .next s)
  ∧ (∀ (s : State) (d : Discovery), s.tap = false → s.store.mountDue = true → fenced s 17 = false → s.safety.safe = false →
    s.power.asleep = false → s.power.resume = false →
    (targetsOf d = 0 → ∃ t, exec (.mediumMount d) s = .next t ∧ t.store.medium = 0 ∧ t.store.mountDue = false)
    ∧ (targetsOf d ≠ 0 → acceptCart d = none →
      ∃ t, exec (.mediumMount d) s = .next t ∧ t.store.medium = 6 ∧ t.store.err = 8 ∧ t.store.segs = [])
    ∧ (∀ c g, acceptCart d = some (c, g) →
      (chooseLabel (uniqueIdOf c) c.labels = none → ∃ t, exec (.mediumMount d) s = .next t ∧ t.store.medium = 1
        ∧ pn t 0x410002 = g.pageSize ∧ pn t 0x410003 = g.pages)
      ∧ (∀ m, chooseLabel (uniqueIdOf c) c.labels = some m →
        (ownLabel m = false → ∃ t, exec (.mediumMount d) s = .next t ∧ t.store.medium = 2 ∧ t.store.label = some m)
        ∧ (ownLabel m = true → ∃ t, exec (.mediumMount d) s = .next t
          ∧ t.store.label = some m ∧ t.store.segs.length = c.segments.length ∧ t.store.pages = [] ∧ pn t 0x420002 = 1
          ∧ t.store.medium = if healthOf t = 10000 then 5 else 3))))
  ∧ (∀ (s : State) (sig : Bool), s.tap = false → s.store.medium = 3 ∨ s.store.medium = 4 ∨ s.start.window = true →
    exec (.presencePoll sig) s = .next s)
  ∧ (∀ s : State, s.tap = false → fenced s 17 = false → s.start.window = false →
    s.power.asleep = false → s.store.pollAt + ms 1000 ≤ s.clk →
    (s.store.medium = 0 → ∃ t, exec (.presencePoll true) s = .next t ∧ t.store.mountDue = true ∧ t.store.medium = 0)
    ∧ (s.store.medium = 1 ∨ s.store.medium = 2 ∨ s.store.medium = 5 ∨ s.store.medium = 6 →
      ∃ t, exec (.presencePoll false) s = .next t ∧ t.store.medium = 0 ∧ t.store.segs = [] ∧ t.store.blocks = []))
  ∧ (∀ (s : State) (x y z : PageRead), s.tap = false → storeReads s = true → bitOf (pn s 0x420002) 0 = true →
    (scanBlock s s.store.scanAt = none → exec (.powerUpScan x y z) s = .next (setPw 0x420002 2 s))
    ∧ (∀ b ps u got, scanBlock s s.store.scanAt = some b → ps = programmedPages s b →
      (u, got) = readPages ([ps.head?, ps[ps.length / 2]?, ps.getLast?].filterMap (Option.map fun i => (b, i))) [x, y, z] s →
      ∃ t, exec (.powerUpScan x y z) s = .next t ∧ t.store.scanAt = b + 1 ∧ t.store.blocks = u.store.blocks
        ∧ (block s b).maxCorr ≤ (block t b).maxCorr ∧ (b ∈ t.store.uncorr ∨ got.isSome = true)
        ∧ pn t 0x420002 = if (scanBlock u (b + 1)).isNone then 2 else pn s 0x420002))
  ∧ (∀ (s : State) (k : Fin 4), s.tap = false →
    (targetInUse s k = true →
      ∃ t, exec (.targetBusyTimeout k) s = .next t ∧ t.store.medium = 6 ∧ t.mgmt.fault.getLsbD 10 = true)
    ∧ (targetInUse s k = false → exec (.targetBusyTimeout k) s = .next s))

/-- A block that wants a refresh moves to the least worn free block and a cold segment to the most worn one, unless a
codeword is uncorrectable or a program fails, which retires the destination; an erase frees its block or retires it, and
leaves a block of the system area there; powered days age the blocks, and each hour AGE and the powered time are
journalled. (On R344, R371, R380, R383 to R385, R394.) -/
def Obligations.BlocksAreCaredFor : Prop :=
  (∀ (s : State) (b : Nat) (rs : List PageRead) (failed : Bool), s.tap = false →
    (storeReads s = false ∨ wantsRefresh s b = false ∨ mayRefresh s b = false ∨ leastWorn s = none →
      exec (.coppiceRefresh b ⟨rs, failed⟩) s = .next s)
    ∧ (∀ f ps u got, storeReads s = true → wantsRefresh s b = true → mayRefresh s b = true → leastWorn s = some f →
      ps = programmedPages s b → (u, got) = readPages (ps.map fun i => (b, i)) rs s →
      ∃ t, exec (.coppiceRefresh b ⟨rs, failed⟩) s = .next t ∧ match got with
        | none => t = badBlock b u ∧ b ∈ u.store.uncorr ∧ u.store.segs = s.store.segs
        | some _ =>
          if failed = true then t = retire f 5 (nandIssue (ps.map fun i => .pageProgram f i) u)
          else pw t 0x420003 = word (stick 24 (pn s 0x420003) 1)
            ∧ (t.store.medium = s.store.medium →
              (∀ g ∈ s.store.segs, g.block = b → ∃ h ∈ t.store.segs, h.block = f ∧ h.stream = g.stream ∧ h.seq = g.seq
                ∧ h.data = g.data ∧ h.prot = g.prot)
              ∧ ∀ h ∈ t.store.segs, h.block = b → b = f)))
  ∧ (∀ (s : State) (a b : Nat) (rs : List PageRead) (failed : Bool) (ps : List Nat) (u : State) (got : Option (List Byte)),
    s.tap = false → s.store.medium = 3 → storeReads s = true → coldest s = some a → mostWorn s = some b →
    s.store.lastMove = none → (block s a).eraseCount + max 50 (pn s 0x410005 / 20) < (block s b).eraseCount →
    ps = programmedPages s a → (u, got) = readPages (ps.map fun i => (a, i)) rs s →
    exec (.wearLevellingMove ⟨rs, failed⟩) s = .next (match got with
      | none => badBlock a u
      | some _ =>
        if failed then retire b 5 (nandIssue (ps.map fun i => .pageProgram b i) u)
        else modStore (fun x => { x with lastMove := some s.clk })
          (moveBlock a b (nandIssue (ps.map fun i => .pageProgram b i) u))))
  ∧ (∀ (s : State) (b : Nat), s.tap = false →
    (b ∉ s.store.erasing → ∀ x, exec (.blockEraseEnd b x) s = .next s)
    ∧ (b ∈ s.store.erasing → b < s.store.blocks.length →
      (∃ t, exec (.blockEraseEnd b false) s = .next t ∧ b ∉ t.store.erasing
        ∧ (block t b).state = if (systemList s).contains b then (block s b).state else 0)
      ∧ (∃ t, exec (.blockEraseEnd b true) s = .next t ∧ (block t b).state = 5 ∧ b ∉ t.store.erasing)))
  ∧ (∀ s : State, s.tap = false →
    (s.store.blocks = [] → exec .ageDay s = .next s)
    ∧ (s.power.asleep = true → exec .ageDay s = .next s)
    ∧ (s.store.blocks ≠ [] → s.power.asleep = false → poweredAt s ((s.store.days + 1) * 86400) ≤ s.clk →
      exec .ageDay s = .next (modStore (fun x => { x with
        days := x.days + 1,
        blocks := x.blocks.map fun b => if b.state = 1 ∨ b.state = 2 then { b with age := min 4095 (b.age + 1) } else b })
        s)))
  ∧ (∀ s : State, s.tap = false →
    (storeReads s = false → exec .poweredTimeJournal s = .next s)
    ∧ (storeReads s = true → s.store.blocks ≠ [] → poweredAt s ((s.store.hours + 1) * 3600) ≤ s.clk →
      exec .poweredTimeJournal s =
        .next (journalWrite (recordTime (modStore (fun x => { x with hours := x.hours + 1 }) s)))
      ∧ ∀ j, s.store.journal = some j → ∃ t m, exec .poweredTimeJournal s = .next t ∧ t.store.journal = some m
        ∧ m.powered = poweredSec s ∧ m.label = j.label ∧ m.system.length = j.system.length))

/-! ### Pairing -/

/-- M_PAIR_CMD: join starts or alarms without scratch ways, a planned switchover starts where the pair is in step,
leaving ends in SOLO unless the partner heartbeat bars an ACTIVE, and clear alarm clears ALARM. A switchover request
hands the role over once the FINAL image is committed; SWITCH done makes the old active standby; without it the
switchover ends with ALARM; LEAVE leaves an ACTIVE in service, alone, without ALARM. (On R439, R474, R481, R502,
R503, R502, R503.) -/
def Obligations.PairingCommandsAndSwitchoversAct : Prop :=
  ((∀ (s w : State) (q : CbPar), w = acknowledge none s → PerformsM s q 0x44 1 →
    (s.pair.role = 0 → pairEnabled s = true → pairingLost s = false → 2 ≤ s.canopy.pairWays.length → s.pair.link = false →
      exec (.joinPair q) s = .next (modPair (fun x => { x with started := true, helloSent := s.clk }) w))
    ∧ (s.pair.role = 0 → pairEnabled s = true → pairingLost s = false → s.canopy.pairWays.length < 2 →
      exec (.joinPair q) s = .next (pairAlarm w))
    ∧ (s.pair.role ≠ 0 ∨ pairEnabled s = false → exec (.joinPair q) s = .next w))
  ∧ (∀ (s w : State) (q : CbPar), w = acknowledge none s → PerformsM s q 0x44 2 →
    (s.pair.role = 1 → s.pair.partnerRole = 2 → s.pair.synced = true → s.pair.heartbeat = true → s.pair.mirroring = true →
      s.pair.switching = 0 → exec (.plannedSwitchover q) s = .next (modPair (fun x => { x with switching := 1 }) w))
    ∧ (s.pair.role ≠ 1 ∨ s.pair.partnerRole ≠ 2 ∨ s.pair.synced = false ∨ s.pair.heartbeat = false →
      exec (.plannedSwitchover q) s = .next w))
  ∧ (∀ (s w : State) (q : CbPar), w = acknowledge none s → PerformsM s q 0x44 3 →
    (s.pair.role = 0 ∨ leaveBarred s = true → exec (.leaveToSolo q) s = .next w)
    ∧ (s.pair.role = 2 ∨ s.pair.role = 3 → ∃ t, exec (.leaveToSolo q) s = .next t ∧ t.pair.role = 0 ∧ t.pair.started = false
      ∧ (∀ p, p < 32 → bitOf (pn t (0x100000 + 256 * p)) 0 = false)
      ∧ ∀ p, p < 32 → bitOf (pn s (0x100000 + 256 * p)) 0 = true → (port t p).link = false)
    ∧ (s.pair.role = 1 → s.pair.heartbeat = false → s.pair.switching = 0 → ∃ t, exec (.leaveToSolo q) s = .next t ∧ t.pair.role = 0
      ∧ ∀ p, (port t p).link = (port s p).link))
  ∧ (∀ (s w : State) (q : CbPar), w = acknowledge none s → PerformsM s q 0x44 4 →
    exec (.clearAlarm q) s = .next (modPair (fun x => { x with alarm := false }) w)))
  ∧ ((∀ (s : State) (f : RideFrame), s.tap = false → rideOpen s = true → rideLegal 7 f = true → s.pair.waiting = [] →
    f.hdr.seq.toNat = s.pair.ack →
    (byteAt f.payload 0 = 1 → s.pair.role = 2 → s.pair.inEpoch = none → bitOf (imageFlags s.pair.image) 2 = true →
      ∃ t, exec (.switchRequest f) s = .next t ∧ t.pair.role = 1 ∧ t.pair.mirroring = true
        ∧ pw t 0x700005 = pw s 0x700005)
    ∧ (byteAt f.payload 0 = 1 → s.pair.role = 2 → s.pair.inEpoch.isSome = true ∨ bitOf (imageFlags s.pair.image) 2 = false →
      ∃ t, exec (.switchRequest f) s = .next t ∧ t.pair.role = 2 ∧ t.pair.switchAsked = true)
    ∧ (byteAt f.payload 0 = 2 → s.pair.role = 1 → s.pair.switching = 2 →
      ∃ t, exec (.switchDone f) s = .next t ∧ t.pair.role = 2 ∧ t.pair.mirroring = false ∧ t.pair.switching = 0
        ∧ t.pair.synced = false))
  ∧ (∀ s : State, s.tap = false →
    (s.pair.switching ≠ 2 → exec .switchoverTimeout s = .next s)
    ∧ (s.pair.switching = 2 → s.pair.switchAt + us (pn s 0x700003) ≤ s.clk → ∃ t, exec .switchoverTimeout s = .next t
      ∧ t.pair.switching = 0 ∧ t.pair.alarm = true ∧ t.pair.role = s.pair.role))
  ∧ (∀ (s : State) (f : RideFrame), s.tap = false → rideOpen s = true → rideLegal 8 f = true → s.pair.waiting = [] →
    f.hdr.seq.toNat = s.pair.ack →
    ∃ t, exec (.leaveFrame f) s = .next t ∧ t.pair.role = s.pair.role ∧ t.pair.alarm = s.pair.alarm
      ∧ t.pair.credit = (s.pair.credit + 1) % 65536
      ∧ (s.pair.role = 1 → t.pair.mirroring = false ∧ t.pair.left = true ∧ t.pair.out = [])))

/-- A discarded frame, one of illegal LEN and a gap draw one NAK, a repeated sequenced frame an ACK; ACK retires what it
covers and lets waiting frames leave; a NAK and the retransmission timeout resend in order all that is left, or take the
link down when a frame's budget is spent; with the link closed no frame acts. (On R476 to R480.) -/
def Obligations.RideFramesAreKeptInSequence : Prop :=
  (∀ (s : State) (f : RideFrame), s.tap = false →
    (rideOpen s = false → (∀ bytes, exec (.discardedRideFrame bytes) s = .next s) ∧ exec .retransmissionTimeout s = .next s)
    ∧ (rideOpen s = true → ∀ bytes, exec (.discardedRideFrame bytes) s = .next (if rideGood bytes then s else rideNak s))
    ∧ (f.hdr.len < 65536 → f.payload.length = f.hdr.len → rideGood (rideBytes f) = rideLegal f.hdr.type.toNat f)
    ∧ (∀ ty c, (ty, c) ∈ [(3, Instr.dataFrame f false), (3, .dataFrame f true), (4, .commitFrame ⟨f, false⟩),
        (4, .commitFrame ⟨f, true⟩), (7, .switchRequest f), (7, .switchDone f), (8, .leaveFrame f)] →
      (rideOpen s = false → exec c s = .next s)
      ∧ (rideOpen s = true → rideLegal ty f = false → exec c s = .next (rideNak s))
      ∧ (rideOpen s = true → rideLegal ty f = true → f.hdr.seq.toNat ≠ s.pair.ack →
        exec c s = .next (if above 65536 f.hdr.seq.toNat s.pair.ack then rideNak s else rideSend 5 [] s)))
    ∧ (∀ ty c, (ty, c) ∈ [(1, Instr.helloFrame f), (2, .heartbeatFrame f), (5, .ackFrame f), (6, .nakFrame f)] →
      (rideOpen s = false → exec c s = .next s)
      ∧ (rideOpen s = true → rideLegal ty f = false → exec c s = .next (rideNak s)))
    ∧ (rideOpen s = true → s.pair.naked = true → rideNak s = s)
    ∧ (rideOpen s = true → s.pair.naked = false → ∃ h, (rideNak s).pair.sent = s.pair.sent ++ [h] ∧ h.hdr.type = 6
      ∧ h.hdr.ack = BitVec.ofNat 16 s.pair.ack ∧ (rideNak s).pair.naked = true)
    ∧ (rideOpen s = true → ∃ h, (rideSend 5 [] s).pair.sent = s.pair.sent ++ [h] ∧ h.hdr.type = 5 ∧ h.payload = []
      ∧ h.hdr.ack = BitVec.ofNat 16 s.pair.ack ∧ h.hdr.credit = BitVec.ofNat 16 s.pair.credit))
  ∧ (∀ (s u : State) (f : RideFrame), s.tap = false → rideOpen s = true → u = rideFields f s →
    (rideLegal 5 f = true → exec (.ackFrame f) s = .next u)
    ∧ (u.pair.partnerCredit = f.hdr.credit.toNat ∧ u.pair.partnerRole = f.hdr.role.toNat
      ∧ u.pair.partnerPrio = f.hdr.priority.toNat ∧ u.pair.ack = s.pair.ack ∧ u.pair.link = s.pair.link
      ∧ ∃ new, u.pair.unacked
            = s.pair.unacked.filter (fun o => !below 65536 o.frame.hdr.seq.toNat f.hdr.ack.toNat) ++ new
        ∧ u.pair.sent = s.pair.sent ++ new.map (·.frame) ∧ u.pair.waiting = s.pair.waiting.drop new.length
        ∧ ∀ o ∈ new, o.count = 1 ∧ o.first = s.clk)
    ∧ (rideLegal 6 f = true → (∀ o ∈ u.pair.unacked, o.count < 5 ∧ s.clk ≤ o.first + us 500) →
      ∃ t, exec (.nakFrame f) s = .next t ∧ t.pair.link = s.pair.link
        ∧ t.pair.unacked = u.pair.unacked.map (fun o => { o with last := s.clk, count := o.count + 1 })
        ∧ t.pair.sent.length = u.pair.sent.length + u.pair.unacked.length
        ∧ ((t.pair.sent.drop u.pair.sent.length).map fun g => (g.hdr.type, g.hdr.seq, g.payload))
            = u.pair.unacked.map fun o => (o.frame.hdr.type, o.frame.hdr.seq, o.frame.payload))
    ∧ (rideLegal 6 f = true → (∃ o ∈ u.pair.unacked, 5 ≤ o.count ∨ o.first + us 500 < s.clk) →
      exec (.nakFrame f) s = .next (rideDown u)))
  ∧ (∀ s : State, s.tap = false → s.pair.unacked = [] → exec .retransmissionTimeout s = .next s)
  ∧ (∀ (s u : State) (o : RideOut) (rest : List RideOut), s.tap = false → rideOpen s = true →
    s.pair.unacked = o :: rest → u = waitUntil (o.last + us 100) s →
    ((∀ x ∈ o :: rest, x.count < 5 ∧ u.clk ≤ x.first + us 500) → ∃ t, exec .retransmissionTimeout s = .next t
      ∧ t.pair.unacked = (o :: rest).map (fun x => { x with last := u.clk, count := x.count + 1 })
      ∧ t.pair.link = s.pair.link ∧ t.pair.sent.length = s.pair.sent.length + rest.length + 1
      ∧ ((t.pair.sent.drop s.pair.sent.length).map fun g => (g.hdr.type, g.hdr.seq, g.payload))
          = (o :: rest).map fun o => (o.frame.hdr.type, o.frame.hdr.seq, o.frame.payload))
    ∧ ((∃ x ∈ o :: rest, 5 ≤ x.count ∨ x.first + us 500 < u.clk) →
      exec .retransmissionTimeout s = .next (rideDown u)))
  ∧ (∀ s : State, s.pair.link = true →
    (rideDown s).pair.link = false ∧ (rideDown s).pair.unacked = [] ∧ (rideDown s).pair.waiting = [])

/-- A new session begins with HELLO, which repeats until one has come; its exchange resolves the roles, with ALARM where
both served or the versions differ; the link's fall ends the session and the epoch in progress. (On R475, R481,
R482.) -/
def Obligations.PairsJoinAndResolveRoles : Prop :=
  (∀ s : State, s.tap = false →
    (s.pair.link = false → pairEnabled s = true → s.pair.started = true → pairingLost s = false → s.safety.safe = false →
      ∃ t h, exec .rideLinkUp s = .next t ∧ t.pair.link = true ∧ t.pair.hello = false ∧ t.pair.seq = 0 ∧ t.pair.ack = 0
        ∧ t.pair.unacked = [] ∧ t.pair.sent = s.pair.sent ++ [h] ∧ h.hdr.type = 1 ∧ h.payload = helloPayload s)
    ∧ (s.pair.link = true ∨ pairEnabled s = false → exec .rideLinkUp s = .next s)
    ∧ (s.pair.link = true → ∃ t, exec .rideLinkDown s = .next t ∧ t.pair.link = false ∧ t.pair.hello = false
      ∧ t.pair.unacked = [] ∧ t.pair.waiting = [] ∧ t.pair.inEpoch = none
      ∧ (s.pair.inEpoch.isSome = true → t.pair.resync = true ∧ pw t 0x700004 = word (stick 24 (pn s 0x700004) 1)))
    ∧ (s.pair.link = false → exec .rideLinkDown s = .next s)
    ∧ (rideOpen s = true → s.pair.hello = false → s.pair.started = true → s.pair.helloSent + us 100 ≤ s.clk →
      ∃ t h, exec .helloSend s = .next t ∧ t.pair.sent = s.pair.sent ++ [h] ∧ h.hdr.type = 1 ∧ h.payload = helloPayload s
        ∧ t.pair.helloSent = s.clk)
    ∧ (s.pair.hello = true → exec .helloSend s = .next s))
  ∧ (∀ (s : State) (f : RideFrame) (serving start : Bool) (uid : Nat), s.tap = false → rideOpen s = true →
    rideLegal 1 f = true → s.pair.waiting = [] → s.pair.hello = false → s.pair.started = true →
    uid = leNat (f.payload.take 6) → start = bitOf (byteAt f.payload 9) 0 → serving = bitOf (byteAt f.payload 9) 1 →
    (slice f.payload 7 2 ≠ [0, 1] → ∃ t, exec (.helloFrame f) s = .next t ∧ t.pair.role = s.pair.role
      ∧ t.pair.alarm = true)
    ∧ (slice f.payload 7 2 = [0, 1] → ∃ t, exec (.helloFrame f) s = .next t ∧ t.pair.hello = true ∧ t.pair.uid = uid
      ∧ (winsOver s serving start f.hdr.priority.toNat uid = true → t.pair.role = 1 ∧ t.pair.mirroring = true
          ∧ (serving = true → s.pair.role = 1 → t.pair.alarm = true))
      ∧ (winsOver s serving start f.hdr.priority.toNat uid = false → s.pair.role = 0 →
          t.pair.role = 2 ∧ t.pair.synced = false ∧ t.pair.alarm = s.pair.alarm)
      ∧ (winsOver s serving start f.hdr.priority.toNat uid = false → s.pair.role = 1 →
          t.pair.role = 2 ∧ t.pair.alarm = true)))

/-- Heartbeats go out every 100 µs and mark the partner present; a standby steers its time by them; their loss opens the
witness window of a standby and alarms an ACTIVE; at the window's end and the partition's a synced standby takes
over, and another becomes SOLO with ALARM. (On R492, R493, R495, R497 to R499, Table 16.1.) -/
def Obligations.HeartbeatsAndTakeovers : Prop :=
  (∀ s : State, s.tap = false →
    (s.pair.role = 0 ∨ rideOpen s = false → exec .heartbeatSend s = .next s)
    ∧ (s.pair.role ≠ 0 → rideOpen s = true → s.pair.heartSent + us 100 ≤ s.clk → ∃ t h, exec .heartbeatSend s = .next t
      ∧ t.pair.sent = s.pair.sent ++ [h] ∧ h.hdr.type = 2 ∧ h.hdr.len = 36 ∧ h.payload.take 12 = timeField s.time.dev
      ∧ t.pair.heartSent = s.clk))
  ∧ (∀ (s : State) (f : RideFrame) (x : Int), s.tap = false → rideOpen s = true → rideLegal 2 f = true → s.pair.waiting = [] →
    (∃ t, exec (.heartbeatFrame f) s = .next t ∧ t.pair.heartbeat = true ∧ t.pair.heartAt = s.clk
      ∧ (s.pair.role = 3 → t.pair.role = 2) ∧ (s.pair.role ≠ 3 → t.pair.role = s.pair.role)
      ∧ (s.pair.role = 1 → s.pair.heartbeat = false → t.pair.mirroring = true))
    ∧ (x = ((s.time.dev : Int) - fieldTime f.payload
          - ((fieldTime (f.payload.drop 24) : Int) - fieldTime (f.payload.drop 12))) / 2 →
      s.pair.role = 2 → f.hdr.role = 1 → fieldTime (f.payload.drop 12) ≠ 0 → ∃ t, exec (.heartbeatFrame f) s = .next t
        ∧ (x.natAbs < 65536000 → pn t 0x300002 = ofInt 24 (-(x / 65536)) ∧ t.time.dev = s.time.dev)
        ∧ (65536000 ≤ x.natAbs → t.time.dev = ((s.time.dev : Int) - x).toNat % (2 ^ 48 * 65536000000000))))
  ∧ (∀ s : State, s.tap = false →
    (s.pair.heartbeat = false → exec .heartbeatLoss s = .next s)
    ∧ (s.pair.heartbeat = true → s.pair.heartAt + ms 3 ≤ s.clk → ∃ t, exec .heartbeatLoss s = .next t
      ∧ t.pair.heartbeat = false ∧ t.pair.role = s.pair.role
      ∧ (s.pair.role = 2 → t.pair.witness = some s.clk)
      ∧ (s.pair.role = 1 → t.pair.mirroring = false ∧ t.pair.alarm = (s.pair.alarm || !s.pair.left)))
    ∧ (s.pair.beaconAt + ms 5 ≤ s.clk → exec .partnerBeaconLoss s = .next (if s.pair.beacon
      then modPair (fun x => { x with beacon := false }) s else s)))
  ∧ (∀ (s : State) (since : Nat), s.tap = false → s.pair.witness = some since → since + ms 5 ≤ s.clk → s.pair.role = 2 →
    ∃ t, exec .witnessWindowExpiry s = .next t
      ∧ (s.pair.synced = true → t.pair.role = 1 ∧ pw t 0x700005 = word (stick 24 (pn s 0x700005) 1)
          ∧ t.pair.alarm = s.pair.alarm)
      ∧ (s.pair.synced = false → t.pair.role = 0 ∧ t.pair.alarm = true))
  ∧ (∀ s : State, s.tap = false → s.pair.witness = none → exec .witnessWindowExpiry s = .next s)
  ∧ (∀ s : State, s.tap = false → s.pair.role ≠ 3 → exec .partitionTimeout s = .next s)
  ∧ (∀ s : State, s.tap = false → s.pair.role = 3 → s.pair.roleAt + ms 5 ≤ s.clk → s.pair.heartAt + ms 5 ≤ s.clk →
    s.pair.beaconAt + ms 5 ≤ s.clk →
    ∃ t, exec .partitionTimeout s = .next t
      ∧ (s.pair.synced = true → t.pair.role = 1 ∧ pw t 0x700005 = word (stick 24 (pn s 0x700005) 1))
      ∧ (s.pair.synced = false → t.pair.role = 0 ∧ t.pair.alarm = true))

/-- An ACTIVE counts every boundary, and stages an image while it mirrors and a way is free; channel 6 sends it as DATA and
ends with COMMIT; a standby opens the epoch of the first DATA, commits it when LEN, CRC and channel 7 agree, and
else discards it; the frames of the next epoch wait while one with its COMMIT ends. (On R483 to R490.) -/
def Obligations.EpochsAreSentAndCommitted : Prop :=
  (∀ s : State, s.tap = false →
    (s.pair.role ≠ 1 → exec .epochBoundary s = .next s)
    ∧ (s.pair.role = 1 → pairingLost s = false → s.safety.safe = false → s.pair.boundaryAt + ms 1 ≤ s.clk →
      (stagingWay s = none ∨ s.pair.mirroring = false ∨ rideOpen s = false → exec .epochBoundary s = .next (modPair (fun x => { x with
        boundaryAt := x.boundaryAt + ms 1, epoch := (x.epoch + 1) % 2 ^ 32 }) s))
      ∧ (∀ k, stagingWay s = some k → s.pair.mirroring = true → rideOpen s = true → ∃ t o, exec .epochBoundary s = .next t
        ∧ t.pair.epoch = (s.pair.epoch + 1) % 2 ^ 32 ∧ t.pair.out = s.pair.out ++ [o] ∧ o.epoch = t.pair.epoch ∧ o.way = k
        ∧ t.pair.journal = [])))
  ∧ (∀ (s : State) (n : Nat) (io : BurstIo), s.tap = false → pairEnabled s = true → io.hit = .none → chosen s 6 = true →
    (chan s 6).busy = true → (chan s 6).moved = false → (chan s 6).ending = none → (chan s 6).yielded = false → rideCredit s = true → s.pair.waiting = [] → s.pair.out ≠ [] →
    n = min 4096 (16 * (chan s 6).count) →
    ∃ t h, exec (.xferPacedBurst 6 io) s = .next t ∧ t.pair.sent = s.pair.sent ++ [h] ∧ h.hdr.type = 3
      ∧ h.payload.drop 8 = cellsRead 0 s.scratch (chan s 6).src n ∧ t.pair.seq = (s.pair.seq + 1) % 65536
      ∧ (chan t 6).src = (chan s 6).src + n ∧ (chan t 6).count = (chan s 6).count - n / 16)
  ∧ (∀ (s : State) (o : EpochOut) (ecc : Bool), s.tap = false → pairEnabled s = true → (chan s 6).busy = true → (chan s 6).moved = true →
    s.pair.out = [o] → s.pair.waiting = [] → s.pair.unacked = [] → bitOf o.flags 2 = false → rideCredit s = true →
    ∃ t h, exec (.xferChannelEnd ⟨6, ecc⟩) s = .next t ∧ (chan t 6).busy = false ∧ (chan t 6).done = true ∧ t.pair.out = []
      ∧ t.pair.sent = s.pair.sent ++ [h] ∧ h.hdr.type = 4
      ∧ h.payload = leBytes 4 o.len ++ leBytes 4 (crc32 (cellsRead 0 s.scratch (65536 * o.way) o.len)))
  ∧ (∀ (s : State) (f : RideFrame) (bs : List Byte), s.tap = false → rideOpen s = true → rideLegal 3 f = true →
    s.pair.waiting = [] → f.hdr.seq.toNat = s.pair.ack → bs = f.payload.drop 8 →
    (s.pair.role < 2 → ∃ t, exec (.dataFrame f false) s = .next t ∧ t.pair.credit = (s.pair.credit + 1) % 65536
      ∧ t.pair.ack = (s.pair.ack + 1) % 65536 ∧ t.pair.buffers = s.pair.buffers)
    ∧ (standbyRole s = true → s.pair.inEpoch = none → s.pair.image = [] → 2 ≤ s.canopy.pairWays.length → s.pair.buffers = [] →
      leNat (f.payload.take 4) = 0 → byteAt bs 0 = 0x45 → 800 ≤ leNat (slice bs 8 4) → leNat (slice bs 8 4) ≤ 65536 →
      leNat (slice bs 8 4) % 16 = 0 →
      ∃ t e, exec (.dataFrame f false) s = .next t ∧ t.pair.inEpoch = some e ∧ e.epoch = f.hdr.epoch.toNat
        ∧ e.len = leNat (slice bs 8 4) ∧ e.bank = 0 ∧ e.commit = none ∧ e.since = s.clk
        ∧ t.pair.buffers = [.data f.hdr.epoch.toNat 0 s.clk bs] ∧ t.pair.ack = (s.pair.ack + 1) % 65536)
    ∧ (standbyRole s = true → epochClosing s = true → inProgress s f.hdr.epoch.toNat = false → s.pair.buffers = [] →
      ∃ t, exec (.dataFrame f false) s = .next t ∧ t.pair.inEpoch = s.pair.inEpoch ∧ t.pair.credit = s.pair.credit
        ∧ t.pair.buffers = [.data f.hdr.epoch.toNat (leNat (f.payload.take 4)) s.clk bs]
        ∧ t.pair.ack = (s.pair.ack + 1) % 65536))
  ∧ (∀ (s : State) (f : RideFrame) (e : EpochIn) (image : List Byte), s.tap = false → rideOpen s = true →
    rideLegal 4 f = true → s.pair.waiting = [] → f.hdr.seq.toNat = s.pair.ack → s.pair.inEpoch = some e →
    e.epoch = f.hdr.epoch.toNat → (chan s 7).busy = false → s.pair.switchAsked = false →
    image = cellsRead 0 s.scratch (65536 * s.canopy.pairWays.getD e.bank 0) e.len →
    (leNat (f.payload.take 4) = e.len → (chan s 7).done = true → (chan s 7).err = 0 →
      leNat (slice f.payload 4 4) = crc32 image → leNat (slice image 12 2) = 0 →
      ∃ t, exec (.commitFrame ⟨f, false⟩) s = .next t ∧ (s.pair.buffers = [] → t.pair.inEpoch = none) ∧ t.pair.image = image
        ∧ t.pair.bank = e.bank ∧ t.pair.epoch = e.epoch ∧ (bitOf (imageFlags image) 1 = true → bitOf (imageFlags image) 3 = false →
            t.pair.synced = true))
    ∧ (leNat (slice f.payload 4 4) ≠ crc32 image → ∃ t, exec (.commitFrame ⟨f, false⟩) s = .next t ∧ t.pair.image = s.pair.image
      ∧ (s.pair.buffers = [] → t.pair.inEpoch = none ∧ t.pair.resync = true
        ∧ pw t 0x700004 = word (stick 24 (pn s 0x700004) 1)))
    ∧ (∃ t, exec (.commitFrame ⟨f, true⟩) s = .next t ∧ t.pair.role = 0 ∧ t.pair.alarm = true
      ∧ t.mgmt.fault.getLsbD 11 = true))
  ∧ (∀ (s : State) (e : EpochIn), s.tap = false → s.pair.inEpoch = some e →
    (e.commit.isSome = true → exec .epochTimeout s = .next s)
    ∧ (e.commit = none → e.since + us (pn s 0x700003) ≤ s.clk → ∃ t, exec .epochTimeout s = .next t
      ∧ t.pair.image = s.pair.image ∧ (s.pair.buffers = [] → t.pair.inEpoch = none ∧ t.pair.resync = true
        ∧ pw t 0x700004 = word (stick 24 (pn s 0x700004) 1))))

/-! ### The block as a whole -/

/-- The model's own step (assumptions 4 and 6). One step runs the command at the front of the queue on the state with
the rest of the queue; with none waiting one timebase tick passes. -/
def Obligations.StepRunsTheFrontCommand : Prop :=
  (∀ (s : State) (c : Instr) (rest : List Instr), s.pending = c :: rest → step s = exec c { s with pending := rest })
  ∧ (∀ s : State, s.pending = [] → step s = .next (wait 1 s))

/-- Every register of the M window but the two that show a selected tenant has its reset value. (On Chapter 3, Table
3.2.) -/
def Obligations.ResetGivesTheRegistersOfTheMWindow : Prop :=
  ∀ off, off < 256 → off ≠ 0x3E → off ≠ 0x3F →
    peek 0 off State.reset = if off = 0x00 then 0x5A3224 else if off = 0x01 then 0x010000 else if off = 0x3D then 1 else 0

/-- The reset state is sound: its memories are in canonical form, its role is SOLO and no master holds the bus. -/
def Obligations.TheResetStateIsSound : Prop :=
  Sound State.reset

/-- Every step keeps a state sound: the scratch ways and the reserved image area keep the canonical form, the role stays
one of its codes, and the bus stays with at most one of the five masters. (On R44, R388, Table 3.5.) -/
def Obligations.EveryStepKeepsTheStateSound : Prop :=
  ∀ s t : State, Sound s → step s = .next t → Sound t

/-- KEY_STATE is permanent: no step takes the record key away, changes it, or opens its lock. (On R346, R347.) -/
def Obligations.TheRecordKeyIsPermanent : Prop :=
  ∀ s t : State, step s = .next t →
    (∀ k, s.store.otpKey = some k → t.store.otpKey = some k) ∧ (s.store.otpLock = true → t.store.otpLock = true)

/-- The frame of every command: it changes no part of State outside its footprint, and never the queue. -/
def Obligations.CommandsKeepWhatTheirFootprintLeavesOut : Prop :=
  ∀ (c : Instr) (s t : State), exec c s = .next t → Keeps (footprint c) s t ∧ t.pending = s.pending

/-- While a TAP instruction other than BYPASS is loaded every command but the resets, the supplies and the TAP stops; a
pin reset ends it. That the model stops there is its own choice (assumption 7). (On R585.) -/
def Obligations.ATapInstructionStopsTheCommands : Prop :=
  ∀ s : State, s.tap = true →
    (∀ c : Instr, (∀ n, c ≠ .resetNAssert n) → (∀ b, c ≠ .resetNRelease b) → (∀ b, c ≠ .internalResetRelease b) →
      c ≠ .supplyLoss → c ≠ .powerOn → c ≠ .safetyReset → (∀ i b, c ≠ .tapInstructionLoad i b) →
      exec c s = .fault .boundaryScan)
    ∧ (∀ n, 10000 ≤ n → s.start.powered = true → s.start.resetLow = false →
      ∃ t, exec (.resetNAssert n) s = .next t ∧ t.tap = false)

/-- Data that arrives for a channel goes to its destination alone: of the scratch ways only the bytes from DST on
change, and the registers advance by what was moved; host data leaves the scratch ways as they are. (On R403, R405,
Table 13.2.) -/
def Obligations.ChannelDataGoesToItsDestinationAlone : Prop :=
  ∀ (s : State) (c : Fin 16) (n a0 : Nat) (bytes : List Byte), s.tap = false → (chan s c).reads = [(.data n, a0)] →
    bytes.length = n → (chan s c).ending = none → (chan s c).piece = none → (chan s c).pieces = [] →
    (chan s c).moved = false → n / 16 < (chan s c).count → chanPause (chan s c) = false → (chan s c).yielded = false →
    (chan s c).busy = true → Memory.wf 0 s.scratch = true →
    (dstSpace (chan s c) = 2 → scratchOpen s c (chan s c).dst n = true →
      ∃ t, exec (.xferReadEnd c (.data bytes) false) s = .next t
        ∧ (∀ a, cellRead 0 t.scratch a = if (chan s c).dst ≤ a ∧ a < (chan s c).dst + n then bytes.getD (a - (chan s c).dst) 0
            else cellRead 0 s.scratch a)
        ∧ (chan t c).dst = ((chan s c).dst + n) % 2 ^ 64 ∧ (chan t c).src = ((chan s c).src + n) % 2 ^ 64
        ∧ (chan t c).count = (chan s c).count - n / 16 ∧ (chan t c).busy = true ∧ (chan t c).reads = []
        ∧ ∀ d, d ≠ c.val → chan t d = chan s d)
    ∧ (dstSpace (chan s c) = 0 → canIssue s (chanHost s c) = true →
      ∃ t, exec (.xferReadEnd c (.data bytes) false) s = .next t ∧ t.scratch = s.scratch ∧ t.store.area = s.store.area
        ∧ (chan t c).dst = ((chan s c).dst + n) % 2 ^ 64 ∧ (chan t c).count = (chan s c).count - n / 16
        ∧ (chan t c).wrote = true)
end

