-- ==== Sys2Proof/Laws/Evolve.lean ====
section
/-! SUPPORT. The memory operations keep the canonical form; the relation Evolves, which every operation keeps: a frame, and the
promises that hold across commands. -/

set_option Elab.async false

namespace Sys2Proof.Machine

/-! ### Canonical memories -/

theorem risesFrom_mono {lo lo' : Nat} (h : lo' ≤ lo) (m : List Host.Cell) (hm : risesFrom lo m = true) :
    risesFrom lo' m = true := by
  cases m with
  | nil => rfl
  | cons c rest =>
    simp only [risesFrom, Bool.and_eq_true, decide_eq_true_eq] at hm ⊢
    exact ⟨by omega, hm.2⟩

theorem risesFrom_tput {lo : Nat} (m : List Host.Cell) (a : Nat) (v : Byte) (hlo : lo ≤ a)
    (hm : risesFrom lo m = true) : risesFrom lo (tput m a v) = true := by
  induction m generalizing lo with
  | nil => simp [tput, risesFrom, hlo]
  | cons c rest ih =>
    obtain ⟨b, w⟩ := c
    simp only [risesFrom, Bool.and_eq_true, decide_eq_true_eq] at hm
    unfold tput
    split
    · next h => subst h; simp [risesFrom, hm]
    · split
      · simp only [risesFrom, Bool.and_eq_true, decide_eq_true_eq]
        exact ⟨hlo, by omega, hm.2⟩
      · simp only [risesFrom, Bool.and_eq_true, decide_eq_true_eq]
        exact ⟨hm.1, ih (by omega) hm.2⟩

theorem risesFrom_cellDrop {lo : Nat} (m : List Host.Cell) (a : Nat) (hm : risesFrom lo m = true) :
    risesFrom lo (cellDrop m a) = true := by
  induction m generalizing lo with
  | nil => rfl
  | cons c rest ih =>
    obtain ⟨b, w⟩ := c
    simp only [risesFrom, Bool.and_eq_true, decide_eq_true_eq] at hm
    unfold cellDrop
    split
    · exact risesFrom_mono (by omega) rest hm.2
    · simp only [risesFrom, Bool.and_eq_true, decide_eq_true_eq]
      exact ⟨hm.1, ih hm.2⟩

theorem risesFrom_filter {lo : Nat} (m : List Host.Cell) (p : Host.Cell → Bool) (hm : risesFrom lo m = true) :
    risesFrom lo (m.filter p) = true := by
  induction m generalizing lo with
  | nil => rfl
  | cons c rest ih =>
    simp only [risesFrom, Bool.and_eq_true, decide_eq_true_eq] at hm
    rw [List.filter_cons]
    split
    · simp only [risesFrom, Bool.and_eq_true, decide_eq_true_eq]
      exact ⟨hm.1, ih hm.2⟩
    · exact ih (risesFrom_mono (by omega) rest hm.2)

theorem mem_tput {α : Type} (m : Tab α) (a : Nat) (v : α) (c : Nat × α) (h : c ∈ tput m a v) : c = (a, v) ∨ c ∈ m := by
  induction m with
  | nil => simp [tput] at h; exact Or.inl h
  | cons d rest ih =>
    obtain ⟨b, w⟩ := d
    unfold tput at h
    split at h
    · simp only [List.mem_cons] at h ⊢; tauto
    · split at h
      · simp only [List.mem_cons] at h ⊢; tauto
      · simp only [List.mem_cons] at h ⊢
        rcases h with h | h
        · exact Or.inr (Or.inl h)
        · rcases ih h with h | h <;> tauto

theorem mem_cellDrop (m : List Host.Cell) (a : Nat) (c : Host.Cell) (h : c ∈ cellDrop m a) : c ∈ m := by
  induction m with
  | nil => simp [cellDrop] at h
  | cons d rest ih =>
    unfold cellDrop at h
    split at h
    · exact List.mem_cons_of_mem _ h
    · simp only [List.mem_cons] at h ⊢
      rcases h with h | h
      · exact Or.inl h
      · exact Or.inr (ih h)

/-- A memory is canonical when its addresses rise and no cell holds the unlisted value. -/
theorem Memory.wf_iff (d : Byte) (m : List Host.Cell) :
    Memory.wf d m = true ↔ risesFrom 0 m = true ∧ ∀ c ∈ m, c.2 ≠ d := by
  simp [Memory.wf]

/-- The empty memory is canonical. -/
@[simp] theorem Memory.wf_nil (d : Byte) : Memory.wf d [] = true := rfl

/-- Writing one byte keeps the canonical form. -/
theorem Memory.wf_cellWrite (d : Byte) (m : List Host.Cell) (a : Nat) (v : Byte) (h : Memory.wf d m = true) :
    Memory.wf d (cellWrite d m a v) = true := by
  rw [Memory.wf_iff] at h ⊢
  unfold cellWrite
  split
  · exact ⟨risesFrom_cellDrop m a h.1, fun c hc => h.2 c (mem_cellDrop m a c hc)⟩
  · next hv =>
    refine ⟨risesFrom_tput m a v (Nat.zero_le a) h.1, fun c hc => ?_⟩
    rcases mem_tput m a v c hc with rfl | hc
    · exact hv
    · exact h.2 c hc

/-- Writing bytes keeps the canonical form. -/
theorem Memory.wf_cellsWrite (d : Byte) (bs : List Byte) (m : List Host.Cell) (a : Nat) (h : Memory.wf d m = true) :
    Memory.wf d (cellsWrite d m a bs) = true := by
  induction bs generalizing m a with
  | nil => exact h
  | cons v vs ih => exact ih _ _ (Memory.wf_cellWrite d m a v h)

/-- Dropping cells keeps the canonical form. -/
theorem Memory.wf_filter (d : Byte) (m : List Host.Cell) (p : Host.Cell → Bool) (h : Memory.wf d m = true) :
    Memory.wf d (m.filter p) = true := by
  rw [Memory.wf_iff] at h ⊢
  exact ⟨risesFrom_filter m p h.1, fun c hc => h.2 c (List.mem_of_mem_filter hc)⟩

/-- In a rising family the entry at a lower number than all listed is the default. -/
theorem tget_below {α : Type} (m : Tab α) (a : Nat) (d : α) (h : ∀ e ∈ m, e.1 ≠ a) : tget m a d = d := by
  induction m with
  | nil => rfl
  | cons e rest ih =>
    obtain ⟨b, w⟩ := e
    unfold tget
    rw [if_neg (h (b, w) List.mem_cons_self)]
    exact ih fun e he => h e (List.mem_cons_of_mem _ he)

/-- What is put at a number is read there. -/
@[simp] theorem tget_tput_same {α : Type} (m : Tab α) (a : Nat) (v d : α) : tget (tput m a v) a d = v := by
  induction m with
  | nil => simp [tput, tget]
  | cons e rest ih =>
    obtain ⟨b, w⟩ := e
    unfold tput
    split
    · next h => simp [tget]
    · split
      · simp [tget]
      · next h _ => simp [tget, h, ih]

/-- What is put at one number leaves the others. -/
theorem tget_tput_ne {α : Type} (m : Tab α) (a b : Nat) (v d : α) (h : b ≠ a) : tget (tput m a v) b d = tget m b d := by
  induction m with
  | nil => simp [tput, tget, Ne.symm h]
  | cons e rest ih =>
    obtain ⟨c, w⟩ := e
    unfold tput
    split
    · next hc => subst hc; simp [tget, Ne.symm h]
    · split
      · simp [tget, Ne.symm h]
      · simp [tget, ih]

/-- A changed entry is read changed. -/
@[simp] theorem tget_tmod_same {α : Type} (m : Tab α) (a : Nat) (d : α) (f : α → α) :
    tget (tmod m a d f) a d = f (tget m a d) := tget_tput_same _ _ _ _

/-- A changed entry leaves the others. -/
theorem tget_tmod_ne {α : Type} (m : Tab α) (a b : Nat) (d : α) (f : α → α) (h : b ≠ a) :
    tget (tmod m a d f) b d = tget m b d := tget_tput_ne _ _ _ _ _ h

theorem tget_eq_of_rises (m : List Host.Cell) (lo a : Nat) (d : Byte) (h : risesFrom lo m = true) (ha : a < lo) :
    tget m a d = d := by
  refine tget_below m a d fun e he => ?_
  induction m generalizing lo with
  | nil => cases he
  | cons c rest ih =>
    simp only [risesFrom, Bool.and_eq_true, decide_eq_true_eq] at h
    rcases List.mem_cons.1 he with rfl | he
    · omega
    · exact ih (c.1 + 1) h.2 (by omega) he

theorem tget_cellDrop_same (m : List Host.Cell) (lo a : Nat) (d : Byte) (h : risesFrom lo m = true) :
    tget (cellDrop m a) a d = d := by
  induction m generalizing lo with
  | nil => rfl
  | cons c rest ih =>
    obtain ⟨b, w⟩ := c
    simp only [risesFrom, Bool.and_eq_true, decide_eq_true_eq] at h
    unfold cellDrop
    split
    · next hb => subst hb; exact tget_eq_of_rises rest (b + 1) b d h.2 (by omega)
    · next hb => simp [tget, hb, ih (b + 1) h.2]

theorem tget_cellDrop_ne (m : List Host.Cell) (a b : Nat) (d : Byte) (hab : b ≠ a) :
    tget (cellDrop m a) b d = tget m b d := by
  induction m with
  | nil => rfl
  | cons c rest ih =>
    obtain ⟨e, w⟩ := c
    unfold cellDrop
    split
    · next he => subst he; simp [tget, Ne.symm hab]
    · simp [tget, ih]

/-- A byte written to a canonical memory is read back. -/
theorem cellRead_cellWrite_same (d : Byte) (m : List Host.Cell) (a : Nat) (v : Byte) (h : Memory.wf d m = true) :
    cellRead d (cellWrite d m a v) a = v := by
  rw [Memory.wf_iff] at h
  unfold cellRead cellWrite
  split
  · next hv => subst hv; exact tget_cellDrop_same m 0 a v h.1
  · exact tget_tput_same m a v d

/-- A byte written leaves every other byte. -/
theorem cellRead_cellWrite_ne (d : Byte) (m : List Host.Cell) (a b : Nat) (v : Byte) (h : b ≠ a) :
    cellRead d (cellWrite d m a v) b = cellRead d m b := by
  unfold cellRead cellWrite
  split
  · exact tget_cellDrop_ne m a b d h
  · exact tget_tput_ne m a b v d h

/-- Bytes written leave every byte outside them. -/
theorem cellRead_cellsWrite_outside (d : Byte) (bs : List Byte) (m : List Host.Cell) (a b : Nat)
    (h : b < a ∨ a + bs.length ≤ b) : cellRead d (cellsWrite d m a bs) b = cellRead d m b := by
  induction bs generalizing m a with
  | nil => rfl
  | cons v vs ih =>
    simp only [List.length_cons] at h
    rw [cellsWrite, ih _ _ (by omega), cellRead_cellWrite_ne d m a b v (by omega)]

/-- Bytes written to a canonical memory are read back. -/
theorem cellRead_cellsWrite_inside (d : Byte) (bs : List Byte) (m : List Host.Cell) (a i : Nat)
    (h : Memory.wf d m = true) (hi : i < bs.length) : cellRead d (cellsWrite d m a bs) (a + i) = bs[i] := by
  induction bs generalizing m a i with
  | nil => simp at hi
  | cons v vs ih =>
    rw [cellsWrite]
    cases i with
    | zero =>
      exact (cellRead_cellsWrite_outside d vs _ (a + 1) a (Or.inl (by omega))).trans (cellRead_cellWrite_same d m a v h)
    | succ i =>
      have := ih (cellWrite d m a v) (a + 1) i (Memory.wf_cellWrite d m a v h) (by simpa using hi)
      simpa [Nat.add_assoc, Nat.add_comm 1 i] using this

/-! ### The relation -/

/-- A set of parts as a bit mask. -/
abbrev Field.bit : Field → Nat
  | .pending => 0
  | .clk => 1
  | .free => 2
  | .bus => 3
  | .wins => 4
  | .mgmt => 5
  | .image => 6
  | .params => 7
  | .tables => 8
  | .locks => 9
  | .tenants => 10
  | .links => 11
  | .frames => 12
  | .nextFrame => 13
  | .ports => 14
  | .lanes => 15
  | .mdio => 16
  | .thicket => 17
  | .time => 18
  | .perf => 19
  | .chans => 20
  | .lastChan => 21
  | .canopy => 22
  | .scratch => 23
  | .fences => 24
  | .store => 25
  | .safety => 26
  | .pair => 27
  | .power => 28
  | .start => 29
  | .droop => 30
  | .tap => 31
  | .bsr => 32

/-- The mask of a list of parts. -/
def mask : List Field → Nat
  | [] => 0
  | f :: l => 2 ^ f.bit ||| mask l

/-- One mask lies within another. -/
abbrev Within (a b : Nat) : Prop := a &&& b = a

theorem Within.trans {a b c : Nat} (h : Within a b) (k : Within b c) : Within a c := by
  unfold Within at *
  rw [← h, Nat.and_assoc, k]

theorem Within.of {a b c : Nat} (k : Within b c) (h : Within a b) : Within a c := h.trans k

theorem Within.bit {a b i : Nat} (h : Within a b) (k : a.testBit i = true) : b.testBit i = true := by
  unfold Within at h
  rw [← h, Nat.testBit_and] at k
  simp_all

/-- What is the same twice over is the same. -/
theorem Field.same_trans {s u t : State} {f : Field} (h : f.same s u) (k : f.same u t) : f.same s t := by
  cases f <;> exact Eq.trans k h

/-- A part of State is unchanged unless the mask has its bit. -/
abbrev Spares (m : Nat) (s t : State) (f : Field) : Prop := m.testBit f.bit = true ∨ f.same s t

/-- What every operation with a footprint within a mask does, from s to t: the queue stays, each part outside the mask
stays, the canonical memories stay canonical, the record key and its lock stay once set, the role stays a code of Table
3.5, and the grant stays one of the five masters'. -/
structure Evolves (m : Nat) (s t : State) : Prop where
  pending : t.pending = s.pending
  frame : ∀ f, Spares m s t f
  wf_scratch : Memory.wf 0 s.scratch = true → Memory.wf 0 t.scratch = true
  wf_area : Memory.wf 0xFF s.store.area = true → Memory.wf 0xFF t.store.area = true
  key : ∀ k, s.store.otpKey = some k → t.store.otpKey = some k
  lock : s.store.otpLock = true → t.store.otpLock = true
  role : s.pair.role ≤ 3 → t.pair.role ≤ 3
  grant : (∀ m, s.bus.grant = some m → m < 5) → ∀ m, t.bus.grant = some m → m < 5

variable {m : Nat} {s u t : State}

theorem Evolves.refl (s : State) : Evolves m s s :=
  ⟨rfl, fun f => .inr (by cases f <;> rfl), id, id, fun _ h => h, id, id, id⟩

theorem Evolves.trans (h : Evolves m s u) (k : Evolves m u t) : Evolves m s t where
  pending := k.pending.trans h.pending
  frame f := (h.frame f).elim .inl fun x => (k.frame f).imp_right (Field.same_trans x)
  wf_scratch x := k.wf_scratch (h.wf_scratch x)
  wf_area x := k.wf_area (h.wf_area x)
  key x hx := k.key x (h.key x hx)
  lock x := k.lock (h.lock x)
  role x := k.role (h.role x)
  grant x := k.grant (h.grant x)

/-- A record update evolves when every part outside the mask is the old one and the promises hold of the parts that bear
them. -/
theorem Evolves.mk' (h : Evolves m s u) {clk free bus wins mgmt image params tables locks tenants links frames nextFrame ports
    lanes mdio thicket time perf chans lastChan canopy scratch fences store safety pair power start droop tap bsr}
    (hf : ∀ f, Spares m u ⟨u.pending, clk, free, bus, wins, mgmt, image, params, tables, locks, tenants, links, frames, nextFrame,
        ports, lanes, mdio, thicket, time, perf, chans, lastChan, canopy, scratch, fences, store, safety, pair, power, start,
        droop, tap, bsr⟩ f := by
      intro f
      cases f <;> first | exact Or.inr rfl | exact Or.inl (Within.bit (by assumption) (by decide)))
    (hs : Memory.wf 0 u.scratch = true → Memory.wf 0 scratch = true := by exact fun h => h)
    (ha : Memory.wf 0xFF u.store.area = true → Memory.wf 0xFF store.area = true := by exact fun h => h)
    (hk : ∀ k, u.store.otpKey = some k → store.otpKey = some k := by exact fun _ h => h)
    (hl : u.store.otpLock = true → store.otpLock = true := by exact fun h => h)
    (hr : u.pair.role ≤ 3 → pair.role ≤ 3 := by exact fun h => h)
    (hg : (∀ m, u.bus.grant = some m → m < 5) → ∀ m, bus.grant = some m → m < 5 := by exact fun h => h) :
    Evolves m s ⟨u.pending, clk, free, bus, wins, mgmt, image, params, tables, locks, tenants, links, frames, nextFrame,
      ports, lanes, mdio, thicket, time, perf, chans, lastChan, canopy, scratch, fences, store, safety, pair, power, start,
      droop, tap, bsr⟩ :=
  h.trans ⟨rfl, hf, hs, ha, hk, hl, hr, hg⟩

theorem Evolves.ite {c : Prop} [Decidable c] (h : Evolves m s u) (k : Evolves m s t) : Evolves m s (if c then u else t) := by
  split
  · exact h
  · exact k

theorem Evolves.ite_snd {α : Type} {c : Prop} [Decidable c] {p q : α × State} (h : Evolves m s p.2) (k : Evolves m s q.2) :
    Evolves m s (if c then p else q).2 := by
  split
  · exact h
  · exact k

theorem Evolves.ite_fst {α : Type} {c : Prop} [Decidable c] {p q : State × α} (h : Evolves m s p.1) (k : Evolves m s q.1) :
    Evolves m s (if c then p else q).1 := by
  split
  · exact h
  · exact k

theorem Evolves.ite_third {α β : Type} {c : Prop} [Decidable c] {p q : α × β × State} (h : Evolves m s p.2.2)
    (k : Evolves m s q.2.2) : Evolves m s (if c then p else q).2.2 := by
  split
  · exact h
  · exact k

theorem Evolves.snd {α : Type} {p : α × State} {a : α} (e : p = (a, t)) (h : Evolves m s p.2) : Evolves m s t := by
  rw [e] at h; exact h

theorem Evolves.third {α β : Type} {p : α × β × State} {a : α} {b : β} (e : p = (a, b, t)) (h : Evolves m s p.2.2) :
    Evolves m s t := by
  rw [e] at h; exact h

theorem Evolves.fst {α : Type} {p : State × α} {a : α} (e : p = (t, a)) (h : Evolves m s p.1) : Evolves m s t := by
  rw [e] at h; exact h

theorem Evolves.foldl {α : Type} (l : List α) (f : State → α → State) (hf : ∀ x v, Evolves m s v → Evolves m s (f v x))
    (h : Evolves m s u) : Evolves m s (l.foldl f u) := by
  induction l generalizing u with
  | nil => exact h
  | cons x xs ih => exact ih (hf x u h)

theorem Evolves.foldl_fst {α β : Type} (l : List β) (f : State × α → β → State × α)
    (hf : ∀ x p, Evolves m s p.1 → Evolves m s (f p x).1) {p : State × α} (h : Evolves m s p.1) :
    Evolves m s (l.foldl f p).1 := by
  induction l generalizing p with
  | nil => exact h
  | cons x xs ih => exact ih (hf x p h)

theorem forEach_ev {α : Type} (l : List α) (f : α → State → State) (hf : ∀ x v, Evolves m s v → Evolves m s (f x v))
    (h : Evolves m s u) : Evolves m s (forEach l f u) := Evolves.foldl l _ hf h

theorem forAll_ev (n : Nat) (f : Nat → State → State) (hf : ∀ x v, Evolves m s v → Evolves m s (f x v))
    (h : Evolves m s u) : Evolves m s (forAll n f u) := Evolves.foldl _ _ hf h

theorem onlyIf_ev (c : Bool) (f : State → State) (hf : ∀ v, Evolves m s v → Evolves m s (f v)) (h : Evolves m s u) :
    Evolves m s (onlyIf c f u) := by
  unfold onlyIf
  split
  · exact hf u h
  · exact h

/-! ### One part changed -/

theorem Evolves.set_clk {x} (hb : m.testBit 1 = true) (h : Evolves m s u) : Evolves m s { u with clk := x } :=
  h.mk' (fun f => by cases f <;> first | exact .inr rfl | exact .inl hb)

theorem Evolves.set_free {x} (hb : m.testBit 2 = true) (h : Evolves m s u) : Evolves m s { u with free := x } :=
  h.mk' (fun f => by cases f <;> first | exact .inr rfl | exact .inl hb)

theorem Evolves.set_wins {x} (hb : m.testBit 4 = true) (h : Evolves m s u) : Evolves m s { u with wins := x } :=
  h.mk' (fun f => by cases f <;> first | exact .inr rfl | exact .inl hb)

theorem Evolves.set_mgmt {x} (hb : m.testBit 5 = true) (h : Evolves m s u) : Evolves m s { u with mgmt := x } :=
  h.mk' (fun f => by cases f <;> first | exact .inr rfl | exact .inl hb)

theorem Evolves.set_image {x} (hb : m.testBit 6 = true) (h : Evolves m s u) : Evolves m s { u with image := x } :=
  h.mk' (fun f => by cases f <;> first | exact .inr rfl | exact .inl hb)

theorem Evolves.set_params {x} (hb : m.testBit 7 = true) (h : Evolves m s u) : Evolves m s { u with params := x } :=
  h.mk' (fun f => by cases f <;> first | exact .inr rfl | exact .inl hb)

theorem Evolves.set_tables {x} (hb : m.testBit 8 = true) (h : Evolves m s u) : Evolves m s { u with tables := x } :=
  h.mk' (fun f => by cases f <;> first | exact .inr rfl | exact .inl hb)

theorem Evolves.set_locks {x} (hb : m.testBit 9 = true) (h : Evolves m s u) : Evolves m s { u with locks := x } :=
  h.mk' (fun f => by cases f <;> first | exact .inr rfl | exact .inl hb)

theorem Evolves.set_tenants {x} (hb : m.testBit 10 = true) (h : Evolves m s u) : Evolves m s { u with tenants := x } :=
  h.mk' (fun f => by cases f <;> first | exact .inr rfl | exact .inl hb)

theorem Evolves.set_links {x} (hb : m.testBit 11 = true) (h : Evolves m s u) : Evolves m s { u with links := x } :=
  h.mk' (fun f => by cases f <;> first | exact .inr rfl | exact .inl hb)

theorem Evolves.set_frames {x} (hb : m.testBit 12 = true) (h : Evolves m s u) : Evolves m s { u with frames := x } :=
  h.mk' (fun f => by cases f <;> first | exact .inr rfl | exact .inl hb)

theorem Evolves.set_nextFrame {x} (hb : m.testBit 13 = true) (h : Evolves m s u) : Evolves m s { u with nextFrame := x } :=
  h.mk' (fun f => by cases f <;> first | exact .inr rfl | exact .inl hb)

theorem Evolves.set_ports {x} (hb : m.testBit 14 = true) (h : Evolves m s u) : Evolves m s { u with ports := x } :=
  h.mk' (fun f => by cases f <;> first | exact .inr rfl | exact .inl hb)

theorem Evolves.set_lanes {x} (hb : m.testBit 15 = true) (h : Evolves m s u) : Evolves m s { u with lanes := x } :=
  h.mk' (fun f => by cases f <;> first | exact .inr rfl | exact .inl hb)

theorem Evolves.set_mdio {x} (hb : m.testBit 16 = true) (h : Evolves m s u) : Evolves m s { u with mdio := x } :=
  h.mk' (fun f => by cases f <;> first | exact .inr rfl | exact .inl hb)

theorem Evolves.set_thicket {x} (hb : m.testBit 17 = true) (h : Evolves m s u) : Evolves m s { u with thicket := x } :=
  h.mk' (fun f => by cases f <;> first | exact .inr rfl | exact .inl hb)

theorem Evolves.set_time {x} (hb : m.testBit 18 = true) (h : Evolves m s u) : Evolves m s { u with time := x } :=
  h.mk' (fun f => by cases f <;> first | exact .inr rfl | exact .inl hb)

theorem Evolves.set_perf {x} (hb : m.testBit 19 = true) (h : Evolves m s u) : Evolves m s { u with perf := x } :=
  h.mk' (fun f => by cases f <;> first | exact .inr rfl | exact .inl hb)

theorem Evolves.set_chans {x} (hb : m.testBit 20 = true) (h : Evolves m s u) : Evolves m s { u with chans := x } :=
  h.mk' (fun f => by cases f <;> first | exact .inr rfl | exact .inl hb)

theorem Evolves.set_lastChan {x} (hb : m.testBit 21 = true) (h : Evolves m s u) : Evolves m s { u with lastChan := x } :=
  h.mk' (fun f => by cases f <;> first | exact .inr rfl | exact .inl hb)

theorem Evolves.set_canopy {x} (hb : m.testBit 22 = true) (h : Evolves m s u) : Evolves m s { u with canopy := x } :=
  h.mk' (fun f => by cases f <;> first | exact .inr rfl | exact .inl hb)

theorem Evolves.set_fences {x} (hb : m.testBit 24 = true) (h : Evolves m s u) : Evolves m s { u with fences := x } :=
  h.mk' (fun f => by cases f <;> first | exact .inr rfl | exact .inl hb)

theorem Evolves.set_safety {x} (hb : m.testBit 26 = true) (h : Evolves m s u) : Evolves m s { u with safety := x } :=
  h.mk' (fun f => by cases f <;> first | exact .inr rfl | exact .inl hb)

theorem Evolves.set_power {x} (hb : m.testBit 28 = true) (h : Evolves m s u) : Evolves m s { u with power := x } :=
  h.mk' (fun f => by cases f <;> first | exact .inr rfl | exact .inl hb)

theorem Evolves.set_start {x} (hb : m.testBit 29 = true) (h : Evolves m s u) : Evolves m s { u with start := x } :=
  h.mk' (fun f => by cases f <;> first | exact .inr rfl | exact .inl hb)

theorem Evolves.set_droop {x} (hb : m.testBit 30 = true) (h : Evolves m s u) : Evolves m s { u with droop := x } :=
  h.mk' (fun f => by cases f <;> first | exact .inr rfl | exact .inl hb)

theorem Evolves.set_tap {x} (hb : m.testBit 31 = true) (h : Evolves m s u) : Evolves m s { u with tap := x } :=
  h.mk' (fun f => by cases f <;> first | exact .inr rfl | exact .inl hb)

theorem Evolves.set_bsr {x} (hb : m.testBit 32 = true) (h : Evolves m s u) : Evolves m s { u with bsr := x } :=
  h.mk' (fun f => by cases f <;> first | exact .inr rfl | exact .inl hb)

theorem Evolves.set_scratch {x} (hb : m.testBit 23 = true) (hx : Memory.wf 0 u.scratch = true → Memory.wf 0 x = true)
    (h : Evolves m s u) : Evolves m s { u with scratch := x } :=
  h.mk' (fun f => by cases f <;> first | exact .inr rfl | exact .inl hb) (hs := hx)

/-- The store changed, its memory kept canonical, its key and lock kept. -/
theorem Evolves.set_store {x} (hb : m.testBit 25 = true) (ha : Memory.wf 0xFF u.store.area = true → Memory.wf 0xFF x.area = true)
    (hk : ∀ k, u.store.otpKey = some k → x.otpKey = some k) (hl : u.store.otpLock = true → x.otpLock = true)
    (h : Evolves m s u) : Evolves m s { u with store := x } :=
  h.mk' (fun f => by cases f <;> first | exact .inr rfl | exact .inl hb) (ha := ha) (hk := hk) (hl := hl)

theorem Evolves.store (f : Store → Store) (hb : m.testBit 25 = true)
    (hf : ∀ x, (f x).area = x.area ∧ (f x).otpKey = x.otpKey ∧ (f x).otpLock = x.otpLock)
    (h : Evolves m s u) : Evolves m s { u with store := f u.store } := by
  obtain ⟨ha, hk, hl⟩ := hf u.store
  exact h.set_store hb (by rw [ha]; exact id) (by rw [hk]; exact fun _ h => h) (by rw [hl]; exact id)

theorem Evolves.pair (f : Pair → Pair) (hb : m.testBit 27 = true) (hf : ∀ x, x.role ≤ 3 → (f x).role ≤ 3)
    (h : Evolves m s u) : Evolves m s { u with pair := f u.pair } :=
  h.mk' (fun f => by cases f <;> first | exact .inr rfl | exact .inl hb) (hr := hf u.pair)

theorem Evolves.bus (f : Bus → Bus) (hb : m.testBit 3 = true)
    (hf : ∀ x, (∀ m, x.grant = some m → m < 5) → ∀ m, (f x).grant = some m → m < 5) (h : Evolves m s u) :
    Evolves m s { u with bus := f u.bus } :=
  h.mk' (fun f => by cases f <;> first | exact .inr rfl | exact .inl hb) (hg := hf u.bus)

/-- A larger mask allows more. -/
theorem Evolves.mono {k : Nat} (hk : Within m k) (h : Evolves m s t) : Evolves k s t :=
  { h with frame := fun f => (h.frame f).imp_left hk.bit }

theorem mask_bit {l : List Field} {f : Field} (h : (mask l).testBit f.bit = true) : f ∈ l := by
  induction l with
  | nil => simp [mask] at h
  | cons g l ih =>
    rw [mask, Nat.testBit_or, Bool.or_eq_true] at h
    rcases h with h | h
    · rw [Nat.testBit_two_pow, decide_eq_true_eq] at h
      have : g = f := by
        cases g <;> cases f <;> first | rfl | (simp [Field.bit] at h)
      exact this ▸ List.mem_cons_self
    · exact List.mem_cons_of_mem _ (ih h)

/-- What evolves within the mask of a list keeps every part outside the list. -/
theorem Evolves.keeps {l : List Field} (h : Evolves (mask l) s t) : Keeps l s t :=
  fun f hf => (h.frame f).resolve_left fun k => hf (mask_bit k)

end Sys2Proof.Machine
end

