-- ==== Sys2Proof/Laws/State.lean ====
section
/-! SUPPORT. Field by field, what each named update of State reads as afterwards; reading a member of a family after an
update of it or of another member. -/

set_option Elab.async false

namespace Sys2Proof.Machine

variable (s : State)

/-! ### drawn -/

@[simp] theorem drawn_pending : (drawn s).pending = s.pending := rfl
@[simp] theorem drawn_clk : (drawn s).clk = s.clk := rfl
@[simp] theorem drawn_bus : (drawn s).bus = s.bus := rfl
@[simp] theorem drawn_wins : (drawn s).wins = s.wins := rfl
@[simp] theorem drawn_mgmt : (drawn s).mgmt = s.mgmt := rfl
@[simp] theorem drawn_image : (drawn s).image = s.image := rfl
@[simp] theorem drawn_params : (drawn s).params = s.params := rfl
@[simp] theorem drawn_tables : (drawn s).tables = s.tables := rfl
@[simp] theorem drawn_locks : (drawn s).locks = s.locks := rfl
@[simp] theorem drawn_tenants : (drawn s).tenants = s.tenants := rfl
@[simp] theorem drawn_links : (drawn s).links = s.links := rfl
@[simp] theorem drawn_frames : (drawn s).frames = s.frames := rfl
@[simp] theorem drawn_nextFrame : (drawn s).nextFrame = s.nextFrame := rfl
@[simp] theorem drawn_ports : (drawn s).ports = s.ports := rfl
@[simp] theorem drawn_lanes : (drawn s).lanes = s.lanes := rfl
@[simp] theorem drawn_mdio : (drawn s).mdio = s.mdio := rfl
@[simp] theorem drawn_thicket : (drawn s).thicket = s.thicket := rfl
@[simp] theorem drawn_time : (drawn s).time = s.time := rfl
@[simp] theorem drawn_perf : (drawn s).perf = s.perf := rfl
@[simp] theorem drawn_chans : (drawn s).chans = s.chans := rfl
@[simp] theorem drawn_lastChan : (drawn s).lastChan = s.lastChan := rfl
@[simp] theorem drawn_canopy : (drawn s).canopy = s.canopy := rfl
@[simp] theorem drawn_scratch : (drawn s).scratch = s.scratch := rfl
@[simp] theorem drawn_fences : (drawn s).fences = s.fences := rfl
@[simp] theorem drawn_store : (drawn s).store = s.store := rfl
@[simp] theorem drawn_safety : (drawn s).safety = s.safety := rfl
@[simp] theorem drawn_pair : (drawn s).pair = s.pair := rfl
@[simp] theorem drawn_power : (drawn s).power = s.power := rfl
@[simp] theorem drawn_start : (drawn s).start = s.start := rfl
@[simp] theorem drawn_droop : (drawn s).droop = s.droop := rfl
@[simp] theorem drawn_tap : (drawn s).tap = s.tap := rfl
@[simp] theorem drawn_bsr : (drawn s).bsr = s.bsr := rfl

/-! ### modWin -/

@[simp] theorem modWin_pending (w : Nat) (f : Win → Win) : (modWin w f s).pending = s.pending := rfl
@[simp] theorem modWin_clk (w : Nat) (f : Win → Win) : (modWin w f s).clk = s.clk := rfl
@[simp] theorem modWin_free (w : Nat) (f : Win → Win) : (modWin w f s).free = s.free := rfl
@[simp] theorem modWin_bus (w : Nat) (f : Win → Win) : (modWin w f s).bus = s.bus := rfl
@[simp] theorem modWin_mgmt (w : Nat) (f : Win → Win) : (modWin w f s).mgmt = s.mgmt := rfl
@[simp] theorem modWin_image (w : Nat) (f : Win → Win) : (modWin w f s).image = s.image := rfl
@[simp] theorem modWin_params (w : Nat) (f : Win → Win) : (modWin w f s).params = s.params := rfl
@[simp] theorem modWin_tables (w : Nat) (f : Win → Win) : (modWin w f s).tables = s.tables := rfl
@[simp] theorem modWin_locks (w : Nat) (f : Win → Win) : (modWin w f s).locks = s.locks := rfl
@[simp] theorem modWin_tenants (w : Nat) (f : Win → Win) : (modWin w f s).tenants = s.tenants := rfl
@[simp] theorem modWin_links (w : Nat) (f : Win → Win) : (modWin w f s).links = s.links := rfl
@[simp] theorem modWin_frames (w : Nat) (f : Win → Win) : (modWin w f s).frames = s.frames := rfl
@[simp] theorem modWin_nextFrame (w : Nat) (f : Win → Win) : (modWin w f s).nextFrame = s.nextFrame := rfl
@[simp] theorem modWin_ports (w : Nat) (f : Win → Win) : (modWin w f s).ports = s.ports := rfl
@[simp] theorem modWin_lanes (w : Nat) (f : Win → Win) : (modWin w f s).lanes = s.lanes := rfl
@[simp] theorem modWin_mdio (w : Nat) (f : Win → Win) : (modWin w f s).mdio = s.mdio := rfl
@[simp] theorem modWin_thicket (w : Nat) (f : Win → Win) : (modWin w f s).thicket = s.thicket := rfl
@[simp] theorem modWin_time (w : Nat) (f : Win → Win) : (modWin w f s).time = s.time := rfl
@[simp] theorem modWin_perf (w : Nat) (f : Win → Win) : (modWin w f s).perf = s.perf := rfl
@[simp] theorem modWin_chans (w : Nat) (f : Win → Win) : (modWin w f s).chans = s.chans := rfl
@[simp] theorem modWin_lastChan (w : Nat) (f : Win → Win) : (modWin w f s).lastChan = s.lastChan := rfl
@[simp] theorem modWin_canopy (w : Nat) (f : Win → Win) : (modWin w f s).canopy = s.canopy := rfl
@[simp] theorem modWin_scratch (w : Nat) (f : Win → Win) : (modWin w f s).scratch = s.scratch := rfl
@[simp] theorem modWin_fences (w : Nat) (f : Win → Win) : (modWin w f s).fences = s.fences := rfl
@[simp] theorem modWin_store (w : Nat) (f : Win → Win) : (modWin w f s).store = s.store := rfl
@[simp] theorem modWin_safety (w : Nat) (f : Win → Win) : (modWin w f s).safety = s.safety := rfl
@[simp] theorem modWin_pair (w : Nat) (f : Win → Win) : (modWin w f s).pair = s.pair := rfl
@[simp] theorem modWin_power (w : Nat) (f : Win → Win) : (modWin w f s).power = s.power := rfl
@[simp] theorem modWin_start (w : Nat) (f : Win → Win) : (modWin w f s).start = s.start := rfl
@[simp] theorem modWin_droop (w : Nat) (f : Win → Win) : (modWin w f s).droop = s.droop := rfl
@[simp] theorem modWin_tap (w : Nat) (f : Win → Win) : (modWin w f s).tap = s.tap := rfl
@[simp] theorem modWin_bsr (w : Nat) (f : Win → Win) : (modWin w f s).bsr = s.bsr := rfl

/-! ### modTen -/

@[simp] theorem modTen_pending (t : Nat) (f : Tenant → Tenant) : (modTen t f s).pending = s.pending := rfl
@[simp] theorem modTen_clk (t : Nat) (f : Tenant → Tenant) : (modTen t f s).clk = s.clk := rfl
@[simp] theorem modTen_free (t : Nat) (f : Tenant → Tenant) : (modTen t f s).free = s.free := rfl
@[simp] theorem modTen_bus (t : Nat) (f : Tenant → Tenant) : (modTen t f s).bus = s.bus := rfl
@[simp] theorem modTen_wins (t : Nat) (f : Tenant → Tenant) : (modTen t f s).wins = s.wins := rfl
@[simp] theorem modTen_mgmt (t : Nat) (f : Tenant → Tenant) : (modTen t f s).mgmt = s.mgmt := rfl
@[simp] theorem modTen_image (t : Nat) (f : Tenant → Tenant) : (modTen t f s).image = s.image := rfl
@[simp] theorem modTen_params (t : Nat) (f : Tenant → Tenant) : (modTen t f s).params = s.params := rfl
@[simp] theorem modTen_tables (t : Nat) (f : Tenant → Tenant) : (modTen t f s).tables = s.tables := rfl
@[simp] theorem modTen_locks (t : Nat) (f : Tenant → Tenant) : (modTen t f s).locks = s.locks := rfl
@[simp] theorem modTen_links (t : Nat) (f : Tenant → Tenant) : (modTen t f s).links = s.links := rfl
@[simp] theorem modTen_frames (t : Nat) (f : Tenant → Tenant) : (modTen t f s).frames = s.frames := rfl
@[simp] theorem modTen_nextFrame (t : Nat) (f : Tenant → Tenant) : (modTen t f s).nextFrame = s.nextFrame := rfl
@[simp] theorem modTen_ports (t : Nat) (f : Tenant → Tenant) : (modTen t f s).ports = s.ports := rfl
@[simp] theorem modTen_lanes (t : Nat) (f : Tenant → Tenant) : (modTen t f s).lanes = s.lanes := rfl
@[simp] theorem modTen_mdio (t : Nat) (f : Tenant → Tenant) : (modTen t f s).mdio = s.mdio := rfl
@[simp] theorem modTen_thicket (t : Nat) (f : Tenant → Tenant) : (modTen t f s).thicket = s.thicket := rfl
@[simp] theorem modTen_time (t : Nat) (f : Tenant → Tenant) : (modTen t f s).time = s.time := rfl
@[simp] theorem modTen_perf (t : Nat) (f : Tenant → Tenant) : (modTen t f s).perf = s.perf := rfl
@[simp] theorem modTen_chans (t : Nat) (f : Tenant → Tenant) : (modTen t f s).chans = s.chans := rfl
@[simp] theorem modTen_lastChan (t : Nat) (f : Tenant → Tenant) : (modTen t f s).lastChan = s.lastChan := rfl
@[simp] theorem modTen_canopy (t : Nat) (f : Tenant → Tenant) : (modTen t f s).canopy = s.canopy := rfl
@[simp] theorem modTen_scratch (t : Nat) (f : Tenant → Tenant) : (modTen t f s).scratch = s.scratch := rfl
@[simp] theorem modTen_fences (t : Nat) (f : Tenant → Tenant) : (modTen t f s).fences = s.fences := rfl
@[simp] theorem modTen_store (t : Nat) (f : Tenant → Tenant) : (modTen t f s).store = s.store := rfl
@[simp] theorem modTen_safety (t : Nat) (f : Tenant → Tenant) : (modTen t f s).safety = s.safety := rfl
@[simp] theorem modTen_pair (t : Nat) (f : Tenant → Tenant) : (modTen t f s).pair = s.pair := rfl
@[simp] theorem modTen_power (t : Nat) (f : Tenant → Tenant) : (modTen t f s).power = s.power := rfl
@[simp] theorem modTen_start (t : Nat) (f : Tenant → Tenant) : (modTen t f s).start = s.start := rfl
@[simp] theorem modTen_droop (t : Nat) (f : Tenant → Tenant) : (modTen t f s).droop = s.droop := rfl
@[simp] theorem modTen_tap (t : Nat) (f : Tenant → Tenant) : (modTen t f s).tap = s.tap := rfl
@[simp] theorem modTen_bsr (t : Nat) (f : Tenant → Tenant) : (modTen t f s).bsr = s.bsr := rfl

/-! ### modLink -/

@[simp] theorem modLink_pending (t : Nat) (f : Link → Link) : (modLink t f s).pending = s.pending := rfl
@[simp] theorem modLink_clk (t : Nat) (f : Link → Link) : (modLink t f s).clk = s.clk := rfl
@[simp] theorem modLink_free (t : Nat) (f : Link → Link) : (modLink t f s).free = s.free := rfl
@[simp] theorem modLink_bus (t : Nat) (f : Link → Link) : (modLink t f s).bus = s.bus := rfl
@[simp] theorem modLink_wins (t : Nat) (f : Link → Link) : (modLink t f s).wins = s.wins := rfl
@[simp] theorem modLink_mgmt (t : Nat) (f : Link → Link) : (modLink t f s).mgmt = s.mgmt := rfl
@[simp] theorem modLink_image (t : Nat) (f : Link → Link) : (modLink t f s).image = s.image := rfl
@[simp] theorem modLink_params (t : Nat) (f : Link → Link) : (modLink t f s).params = s.params := rfl
@[simp] theorem modLink_tables (t : Nat) (f : Link → Link) : (modLink t f s).tables = s.tables := rfl
@[simp] theorem modLink_locks (t : Nat) (f : Link → Link) : (modLink t f s).locks = s.locks := rfl
@[simp] theorem modLink_tenants (t : Nat) (f : Link → Link) : (modLink t f s).tenants = s.tenants := rfl
@[simp] theorem modLink_frames (t : Nat) (f : Link → Link) : (modLink t f s).frames = s.frames := rfl
@[simp] theorem modLink_nextFrame (t : Nat) (f : Link → Link) : (modLink t f s).nextFrame = s.nextFrame := rfl
@[simp] theorem modLink_ports (t : Nat) (f : Link → Link) : (modLink t f s).ports = s.ports := rfl
@[simp] theorem modLink_lanes (t : Nat) (f : Link → Link) : (modLink t f s).lanes = s.lanes := rfl
@[simp] theorem modLink_mdio (t : Nat) (f : Link → Link) : (modLink t f s).mdio = s.mdio := rfl
@[simp] theorem modLink_thicket (t : Nat) (f : Link → Link) : (modLink t f s).thicket = s.thicket := rfl
@[simp] theorem modLink_time (t : Nat) (f : Link → Link) : (modLink t f s).time = s.time := rfl
@[simp] theorem modLink_perf (t : Nat) (f : Link → Link) : (modLink t f s).perf = s.perf := rfl
@[simp] theorem modLink_chans (t : Nat) (f : Link → Link) : (modLink t f s).chans = s.chans := rfl
@[simp] theorem modLink_lastChan (t : Nat) (f : Link → Link) : (modLink t f s).lastChan = s.lastChan := rfl
@[simp] theorem modLink_canopy (t : Nat) (f : Link → Link) : (modLink t f s).canopy = s.canopy := rfl
@[simp] theorem modLink_scratch (t : Nat) (f : Link → Link) : (modLink t f s).scratch = s.scratch := rfl
@[simp] theorem modLink_fences (t : Nat) (f : Link → Link) : (modLink t f s).fences = s.fences := rfl
@[simp] theorem modLink_store (t : Nat) (f : Link → Link) : (modLink t f s).store = s.store := rfl
@[simp] theorem modLink_safety (t : Nat) (f : Link → Link) : (modLink t f s).safety = s.safety := rfl
@[simp] theorem modLink_pair (t : Nat) (f : Link → Link) : (modLink t f s).pair = s.pair := rfl
@[simp] theorem modLink_power (t : Nat) (f : Link → Link) : (modLink t f s).power = s.power := rfl
@[simp] theorem modLink_start (t : Nat) (f : Link → Link) : (modLink t f s).start = s.start := rfl
@[simp] theorem modLink_droop (t : Nat) (f : Link → Link) : (modLink t f s).droop = s.droop := rfl
@[simp] theorem modLink_tap (t : Nat) (f : Link → Link) : (modLink t f s).tap = s.tap := rfl
@[simp] theorem modLink_bsr (t : Nat) (f : Link → Link) : (modLink t f s).bsr = s.bsr := rfl

/-! ### modPort -/

@[simp] theorem modPort_pending (p : Nat) (f : Port → Port) : (modPort p f s).pending = s.pending := rfl
@[simp] theorem modPort_clk (p : Nat) (f : Port → Port) : (modPort p f s).clk = s.clk := rfl
@[simp] theorem modPort_free (p : Nat) (f : Port → Port) : (modPort p f s).free = s.free := rfl
@[simp] theorem modPort_bus (p : Nat) (f : Port → Port) : (modPort p f s).bus = s.bus := rfl
@[simp] theorem modPort_wins (p : Nat) (f : Port → Port) : (modPort p f s).wins = s.wins := rfl
@[simp] theorem modPort_mgmt (p : Nat) (f : Port → Port) : (modPort p f s).mgmt = s.mgmt := rfl
@[simp] theorem modPort_image (p : Nat) (f : Port → Port) : (modPort p f s).image = s.image := rfl
@[simp] theorem modPort_params (p : Nat) (f : Port → Port) : (modPort p f s).params = s.params := rfl
@[simp] theorem modPort_tables (p : Nat) (f : Port → Port) : (modPort p f s).tables = s.tables := rfl
@[simp] theorem modPort_locks (p : Nat) (f : Port → Port) : (modPort p f s).locks = s.locks := rfl
@[simp] theorem modPort_tenants (p : Nat) (f : Port → Port) : (modPort p f s).tenants = s.tenants := rfl
@[simp] theorem modPort_links (p : Nat) (f : Port → Port) : (modPort p f s).links = s.links := rfl
@[simp] theorem modPort_frames (p : Nat) (f : Port → Port) : (modPort p f s).frames = s.frames := rfl
@[simp] theorem modPort_nextFrame (p : Nat) (f : Port → Port) : (modPort p f s).nextFrame = s.nextFrame := rfl
@[simp] theorem modPort_lanes (p : Nat) (f : Port → Port) : (modPort p f s).lanes = s.lanes := rfl
@[simp] theorem modPort_mdio (p : Nat) (f : Port → Port) : (modPort p f s).mdio = s.mdio := rfl
@[simp] theorem modPort_thicket (p : Nat) (f : Port → Port) : (modPort p f s).thicket = s.thicket := rfl
@[simp] theorem modPort_time (p : Nat) (f : Port → Port) : (modPort p f s).time = s.time := rfl
@[simp] theorem modPort_perf (p : Nat) (f : Port → Port) : (modPort p f s).perf = s.perf := rfl
@[simp] theorem modPort_chans (p : Nat) (f : Port → Port) : (modPort p f s).chans = s.chans := rfl
@[simp] theorem modPort_lastChan (p : Nat) (f : Port → Port) : (modPort p f s).lastChan = s.lastChan := rfl
@[simp] theorem modPort_canopy (p : Nat) (f : Port → Port) : (modPort p f s).canopy = s.canopy := rfl
@[simp] theorem modPort_scratch (p : Nat) (f : Port → Port) : (modPort p f s).scratch = s.scratch := rfl
@[simp] theorem modPort_fences (p : Nat) (f : Port → Port) : (modPort p f s).fences = s.fences := rfl
@[simp] theorem modPort_store (p : Nat) (f : Port → Port) : (modPort p f s).store = s.store := rfl
@[simp] theorem modPort_safety (p : Nat) (f : Port → Port) : (modPort p f s).safety = s.safety := rfl
@[simp] theorem modPort_pair (p : Nat) (f : Port → Port) : (modPort p f s).pair = s.pair := rfl
@[simp] theorem modPort_power (p : Nat) (f : Port → Port) : (modPort p f s).power = s.power := rfl
@[simp] theorem modPort_start (p : Nat) (f : Port → Port) : (modPort p f s).start = s.start := rfl
@[simp] theorem modPort_droop (p : Nat) (f : Port → Port) : (modPort p f s).droop = s.droop := rfl
@[simp] theorem modPort_tap (p : Nat) (f : Port → Port) : (modPort p f s).tap = s.tap := rfl
@[simp] theorem modPort_bsr (p : Nat) (f : Port → Port) : (modPort p f s).bsr = s.bsr := rfl

/-! ### modLane -/

@[simp] theorem modLane_pending (q : Nat) (f : Lane → Lane) : (modLane q f s).pending = s.pending := rfl
@[simp] theorem modLane_clk (q : Nat) (f : Lane → Lane) : (modLane q f s).clk = s.clk := rfl
@[simp] theorem modLane_free (q : Nat) (f : Lane → Lane) : (modLane q f s).free = s.free := rfl
@[simp] theorem modLane_bus (q : Nat) (f : Lane → Lane) : (modLane q f s).bus = s.bus := rfl
@[simp] theorem modLane_wins (q : Nat) (f : Lane → Lane) : (modLane q f s).wins = s.wins := rfl
@[simp] theorem modLane_mgmt (q : Nat) (f : Lane → Lane) : (modLane q f s).mgmt = s.mgmt := rfl
@[simp] theorem modLane_image (q : Nat) (f : Lane → Lane) : (modLane q f s).image = s.image := rfl
@[simp] theorem modLane_params (q : Nat) (f : Lane → Lane) : (modLane q f s).params = s.params := rfl
@[simp] theorem modLane_tables (q : Nat) (f : Lane → Lane) : (modLane q f s).tables = s.tables := rfl
@[simp] theorem modLane_locks (q : Nat) (f : Lane → Lane) : (modLane q f s).locks = s.locks := rfl
@[simp] theorem modLane_tenants (q : Nat) (f : Lane → Lane) : (modLane q f s).tenants = s.tenants := rfl
@[simp] theorem modLane_links (q : Nat) (f : Lane → Lane) : (modLane q f s).links = s.links := rfl
@[simp] theorem modLane_frames (q : Nat) (f : Lane → Lane) : (modLane q f s).frames = s.frames := rfl
@[simp] theorem modLane_nextFrame (q : Nat) (f : Lane → Lane) : (modLane q f s).nextFrame = s.nextFrame := rfl
@[simp] theorem modLane_ports (q : Nat) (f : Lane → Lane) : (modLane q f s).ports = s.ports := rfl
@[simp] theorem modLane_mdio (q : Nat) (f : Lane → Lane) : (modLane q f s).mdio = s.mdio := rfl
@[simp] theorem modLane_thicket (q : Nat) (f : Lane → Lane) : (modLane q f s).thicket = s.thicket := rfl
@[simp] theorem modLane_time (q : Nat) (f : Lane → Lane) : (modLane q f s).time = s.time := rfl
@[simp] theorem modLane_perf (q : Nat) (f : Lane → Lane) : (modLane q f s).perf = s.perf := rfl
@[simp] theorem modLane_chans (q : Nat) (f : Lane → Lane) : (modLane q f s).chans = s.chans := rfl
@[simp] theorem modLane_lastChan (q : Nat) (f : Lane → Lane) : (modLane q f s).lastChan = s.lastChan := rfl
@[simp] theorem modLane_canopy (q : Nat) (f : Lane → Lane) : (modLane q f s).canopy = s.canopy := rfl
@[simp] theorem modLane_scratch (q : Nat) (f : Lane → Lane) : (modLane q f s).scratch = s.scratch := rfl
@[simp] theorem modLane_fences (q : Nat) (f : Lane → Lane) : (modLane q f s).fences = s.fences := rfl
@[simp] theorem modLane_store (q : Nat) (f : Lane → Lane) : (modLane q f s).store = s.store := rfl
@[simp] theorem modLane_safety (q : Nat) (f : Lane → Lane) : (modLane q f s).safety = s.safety := rfl
@[simp] theorem modLane_pair (q : Nat) (f : Lane → Lane) : (modLane q f s).pair = s.pair := rfl
@[simp] theorem modLane_power (q : Nat) (f : Lane → Lane) : (modLane q f s).power = s.power := rfl
@[simp] theorem modLane_start (q : Nat) (f : Lane → Lane) : (modLane q f s).start = s.start := rfl
@[simp] theorem modLane_droop (q : Nat) (f : Lane → Lane) : (modLane q f s).droop = s.droop := rfl
@[simp] theorem modLane_tap (q : Nat) (f : Lane → Lane) : (modLane q f s).tap = s.tap := rfl
@[simp] theorem modLane_bsr (q : Nat) (f : Lane → Lane) : (modLane q f s).bsr = s.bsr := rfl

/-! ### modChan -/

@[simp] theorem modChan_pending (c : Nat) (f : Chan → Chan) : (modChan c f s).pending = s.pending := rfl
@[simp] theorem modChan_clk (c : Nat) (f : Chan → Chan) : (modChan c f s).clk = s.clk := rfl
@[simp] theorem modChan_free (c : Nat) (f : Chan → Chan) : (modChan c f s).free = s.free := rfl
@[simp] theorem modChan_bus (c : Nat) (f : Chan → Chan) : (modChan c f s).bus = s.bus := rfl
@[simp] theorem modChan_wins (c : Nat) (f : Chan → Chan) : (modChan c f s).wins = s.wins := rfl
@[simp] theorem modChan_mgmt (c : Nat) (f : Chan → Chan) : (modChan c f s).mgmt = s.mgmt := rfl
@[simp] theorem modChan_image (c : Nat) (f : Chan → Chan) : (modChan c f s).image = s.image := rfl
@[simp] theorem modChan_params (c : Nat) (f : Chan → Chan) : (modChan c f s).params = s.params := rfl
@[simp] theorem modChan_tables (c : Nat) (f : Chan → Chan) : (modChan c f s).tables = s.tables := rfl
@[simp] theorem modChan_locks (c : Nat) (f : Chan → Chan) : (modChan c f s).locks = s.locks := rfl
@[simp] theorem modChan_tenants (c : Nat) (f : Chan → Chan) : (modChan c f s).tenants = s.tenants := rfl
@[simp] theorem modChan_links (c : Nat) (f : Chan → Chan) : (modChan c f s).links = s.links := rfl
@[simp] theorem modChan_frames (c : Nat) (f : Chan → Chan) : (modChan c f s).frames = s.frames := rfl
@[simp] theorem modChan_nextFrame (c : Nat) (f : Chan → Chan) : (modChan c f s).nextFrame = s.nextFrame := rfl
@[simp] theorem modChan_ports (c : Nat) (f : Chan → Chan) : (modChan c f s).ports = s.ports := rfl
@[simp] theorem modChan_lanes (c : Nat) (f : Chan → Chan) : (modChan c f s).lanes = s.lanes := rfl
@[simp] theorem modChan_mdio (c : Nat) (f : Chan → Chan) : (modChan c f s).mdio = s.mdio := rfl
@[simp] theorem modChan_thicket (c : Nat) (f : Chan → Chan) : (modChan c f s).thicket = s.thicket := rfl
@[simp] theorem modChan_time (c : Nat) (f : Chan → Chan) : (modChan c f s).time = s.time := rfl
@[simp] theorem modChan_perf (c : Nat) (f : Chan → Chan) : (modChan c f s).perf = s.perf := rfl
@[simp] theorem modChan_lastChan (c : Nat) (f : Chan → Chan) : (modChan c f s).lastChan = s.lastChan := rfl
@[simp] theorem modChan_canopy (c : Nat) (f : Chan → Chan) : (modChan c f s).canopy = s.canopy := rfl
@[simp] theorem modChan_scratch (c : Nat) (f : Chan → Chan) : (modChan c f s).scratch = s.scratch := rfl
@[simp] theorem modChan_fences (c : Nat) (f : Chan → Chan) : (modChan c f s).fences = s.fences := rfl
@[simp] theorem modChan_store (c : Nat) (f : Chan → Chan) : (modChan c f s).store = s.store := rfl
@[simp] theorem modChan_safety (c : Nat) (f : Chan → Chan) : (modChan c f s).safety = s.safety := rfl
@[simp] theorem modChan_pair (c : Nat) (f : Chan → Chan) : (modChan c f s).pair = s.pair := rfl
@[simp] theorem modChan_power (c : Nat) (f : Chan → Chan) : (modChan c f s).power = s.power := rfl
@[simp] theorem modChan_start (c : Nat) (f : Chan → Chan) : (modChan c f s).start = s.start := rfl
@[simp] theorem modChan_droop (c : Nat) (f : Chan → Chan) : (modChan c f s).droop = s.droop := rfl
@[simp] theorem modChan_tap (c : Nat) (f : Chan → Chan) : (modChan c f s).tap = s.tap := rfl
@[simp] theorem modChan_bsr (c : Nat) (f : Chan → Chan) : (modChan c f s).bsr = s.bsr := rfl

/-! ### modLock -/

@[simp] theorem modLock_pending (k : Nat) (f : Lock → Lock) : (modLock k f s).pending = s.pending := rfl
@[simp] theorem modLock_clk (k : Nat) (f : Lock → Lock) : (modLock k f s).clk = s.clk := rfl
@[simp] theorem modLock_free (k : Nat) (f : Lock → Lock) : (modLock k f s).free = s.free := rfl
@[simp] theorem modLock_bus (k : Nat) (f : Lock → Lock) : (modLock k f s).bus = s.bus := rfl
@[simp] theorem modLock_wins (k : Nat) (f : Lock → Lock) : (modLock k f s).wins = s.wins := rfl
@[simp] theorem modLock_mgmt (k : Nat) (f : Lock → Lock) : (modLock k f s).mgmt = s.mgmt := rfl
@[simp] theorem modLock_image (k : Nat) (f : Lock → Lock) : (modLock k f s).image = s.image := rfl
@[simp] theorem modLock_params (k : Nat) (f : Lock → Lock) : (modLock k f s).params = s.params := rfl
@[simp] theorem modLock_tables (k : Nat) (f : Lock → Lock) : (modLock k f s).tables = s.tables := rfl
@[simp] theorem modLock_tenants (k : Nat) (f : Lock → Lock) : (modLock k f s).tenants = s.tenants := rfl
@[simp] theorem modLock_links (k : Nat) (f : Lock → Lock) : (modLock k f s).links = s.links := rfl
@[simp] theorem modLock_frames (k : Nat) (f : Lock → Lock) : (modLock k f s).frames = s.frames := rfl
@[simp] theorem modLock_nextFrame (k : Nat) (f : Lock → Lock) : (modLock k f s).nextFrame = s.nextFrame := rfl
@[simp] theorem modLock_ports (k : Nat) (f : Lock → Lock) : (modLock k f s).ports = s.ports := rfl
@[simp] theorem modLock_lanes (k : Nat) (f : Lock → Lock) : (modLock k f s).lanes = s.lanes := rfl
@[simp] theorem modLock_mdio (k : Nat) (f : Lock → Lock) : (modLock k f s).mdio = s.mdio := rfl
@[simp] theorem modLock_thicket (k : Nat) (f : Lock → Lock) : (modLock k f s).thicket = s.thicket := rfl
@[simp] theorem modLock_time (k : Nat) (f : Lock → Lock) : (modLock k f s).time = s.time := rfl
@[simp] theorem modLock_perf (k : Nat) (f : Lock → Lock) : (modLock k f s).perf = s.perf := rfl
@[simp] theorem modLock_chans (k : Nat) (f : Lock → Lock) : (modLock k f s).chans = s.chans := rfl
@[simp] theorem modLock_lastChan (k : Nat) (f : Lock → Lock) : (modLock k f s).lastChan = s.lastChan := rfl
@[simp] theorem modLock_canopy (k : Nat) (f : Lock → Lock) : (modLock k f s).canopy = s.canopy := rfl
@[simp] theorem modLock_scratch (k : Nat) (f : Lock → Lock) : (modLock k f s).scratch = s.scratch := rfl
@[simp] theorem modLock_fences (k : Nat) (f : Lock → Lock) : (modLock k f s).fences = s.fences := rfl
@[simp] theorem modLock_store (k : Nat) (f : Lock → Lock) : (modLock k f s).store = s.store := rfl
@[simp] theorem modLock_safety (k : Nat) (f : Lock → Lock) : (modLock k f s).safety = s.safety := rfl
@[simp] theorem modLock_pair (k : Nat) (f : Lock → Lock) : (modLock k f s).pair = s.pair := rfl
@[simp] theorem modLock_power (k : Nat) (f : Lock → Lock) : (modLock k f s).power = s.power := rfl
@[simp] theorem modLock_start (k : Nat) (f : Lock → Lock) : (modLock k f s).start = s.start := rfl
@[simp] theorem modLock_droop (k : Nat) (f : Lock → Lock) : (modLock k f s).droop = s.droop := rfl
@[simp] theorem modLock_tap (k : Nat) (f : Lock → Lock) : (modLock k f s).tap = s.tap := rfl
@[simp] theorem modLock_bsr (k : Nat) (f : Lock → Lock) : (modLock k f s).bsr = s.bsr := rfl

/-! ### putRow -/

@[simp] theorem putRow_pending (a i r : Nat) (ws : List Word) : (putRow a i r ws s).pending = s.pending := rfl
@[simp] theorem putRow_clk (a i r : Nat) (ws : List Word) : (putRow a i r ws s).clk = s.clk := rfl
@[simp] theorem putRow_free (a i r : Nat) (ws : List Word) : (putRow a i r ws s).free = s.free := rfl
@[simp] theorem putRow_bus (a i r : Nat) (ws : List Word) : (putRow a i r ws s).bus = s.bus := rfl
@[simp] theorem putRow_wins (a i r : Nat) (ws : List Word) : (putRow a i r ws s).wins = s.wins := rfl
@[simp] theorem putRow_mgmt (a i r : Nat) (ws : List Word) : (putRow a i r ws s).mgmt = s.mgmt := rfl
@[simp] theorem putRow_image (a i r : Nat) (ws : List Word) : (putRow a i r ws s).image = s.image := rfl
@[simp] theorem putRow_params (a i r : Nat) (ws : List Word) : (putRow a i r ws s).params = s.params := rfl
@[simp] theorem putRow_locks (a i r : Nat) (ws : List Word) : (putRow a i r ws s).locks = s.locks := rfl
@[simp] theorem putRow_tenants (a i r : Nat) (ws : List Word) : (putRow a i r ws s).tenants = s.tenants := rfl
@[simp] theorem putRow_links (a i r : Nat) (ws : List Word) : (putRow a i r ws s).links = s.links := rfl
@[simp] theorem putRow_frames (a i r : Nat) (ws : List Word) : (putRow a i r ws s).frames = s.frames := rfl
@[simp] theorem putRow_nextFrame (a i r : Nat) (ws : List Word) : (putRow a i r ws s).nextFrame = s.nextFrame := rfl
@[simp] theorem putRow_ports (a i r : Nat) (ws : List Word) : (putRow a i r ws s).ports = s.ports := rfl
@[simp] theorem putRow_lanes (a i r : Nat) (ws : List Word) : (putRow a i r ws s).lanes = s.lanes := rfl
@[simp] theorem putRow_mdio (a i r : Nat) (ws : List Word) : (putRow a i r ws s).mdio = s.mdio := rfl
@[simp] theorem putRow_thicket (a i r : Nat) (ws : List Word) : (putRow a i r ws s).thicket = s.thicket := rfl
@[simp] theorem putRow_time (a i r : Nat) (ws : List Word) : (putRow a i r ws s).time = s.time := rfl
@[simp] theorem putRow_perf (a i r : Nat) (ws : List Word) : (putRow a i r ws s).perf = s.perf := rfl
@[simp] theorem putRow_chans (a i r : Nat) (ws : List Word) : (putRow a i r ws s).chans = s.chans := rfl
@[simp] theorem putRow_lastChan (a i r : Nat) (ws : List Word) : (putRow a i r ws s).lastChan = s.lastChan := rfl
@[simp] theorem putRow_canopy (a i r : Nat) (ws : List Word) : (putRow a i r ws s).canopy = s.canopy := rfl
@[simp] theorem putRow_scratch (a i r : Nat) (ws : List Word) : (putRow a i r ws s).scratch = s.scratch := rfl
@[simp] theorem putRow_fences (a i r : Nat) (ws : List Word) : (putRow a i r ws s).fences = s.fences := rfl
@[simp] theorem putRow_store (a i r : Nat) (ws : List Word) : (putRow a i r ws s).store = s.store := rfl
@[simp] theorem putRow_safety (a i r : Nat) (ws : List Word) : (putRow a i r ws s).safety = s.safety := rfl
@[simp] theorem putRow_pair (a i r : Nat) (ws : List Word) : (putRow a i r ws s).pair = s.pair := rfl
@[simp] theorem putRow_power (a i r : Nat) (ws : List Word) : (putRow a i r ws s).power = s.power := rfl
@[simp] theorem putRow_start (a i r : Nat) (ws : List Word) : (putRow a i r ws s).start = s.start := rfl
@[simp] theorem putRow_droop (a i r : Nat) (ws : List Word) : (putRow a i r ws s).droop = s.droop := rfl
@[simp] theorem putRow_tap (a i r : Nat) (ws : List Word) : (putRow a i r ws s).tap = s.tap := rfl
@[simp] theorem putRow_bsr (a i r : Nat) (ws : List Word) : (putRow a i r ws s).bsr = s.bsr := rfl

/-! ### setPw -/

@[simp] theorem setPw_pending (id v : Nat) : (setPw id v s).pending = s.pending := rfl
@[simp] theorem setPw_clk (id v : Nat) : (setPw id v s).clk = s.clk := rfl
@[simp] theorem setPw_free (id v : Nat) : (setPw id v s).free = s.free := rfl
@[simp] theorem setPw_bus (id v : Nat) : (setPw id v s).bus = s.bus := rfl
@[simp] theorem setPw_wins (id v : Nat) : (setPw id v s).wins = s.wins := rfl
@[simp] theorem setPw_mgmt (id v : Nat) : (setPw id v s).mgmt = s.mgmt := rfl
@[simp] theorem setPw_image (id v : Nat) : (setPw id v s).image = s.image := rfl
@[simp] theorem setPw_tables (id v : Nat) : (setPw id v s).tables = s.tables := rfl
@[simp] theorem setPw_locks (id v : Nat) : (setPw id v s).locks = s.locks := rfl
@[simp] theorem setPw_tenants (id v : Nat) : (setPw id v s).tenants = s.tenants := rfl
@[simp] theorem setPw_links (id v : Nat) : (setPw id v s).links = s.links := rfl
@[simp] theorem setPw_frames (id v : Nat) : (setPw id v s).frames = s.frames := rfl
@[simp] theorem setPw_nextFrame (id v : Nat) : (setPw id v s).nextFrame = s.nextFrame := rfl
@[simp] theorem setPw_ports (id v : Nat) : (setPw id v s).ports = s.ports := rfl
@[simp] theorem setPw_lanes (id v : Nat) : (setPw id v s).lanes = s.lanes := rfl
@[simp] theorem setPw_mdio (id v : Nat) : (setPw id v s).mdio = s.mdio := rfl
@[simp] theorem setPw_thicket (id v : Nat) : (setPw id v s).thicket = s.thicket := rfl
@[simp] theorem setPw_time (id v : Nat) : (setPw id v s).time = s.time := rfl
@[simp] theorem setPw_perf (id v : Nat) : (setPw id v s).perf = s.perf := rfl
@[simp] theorem setPw_chans (id v : Nat) : (setPw id v s).chans = s.chans := rfl
@[simp] theorem setPw_lastChan (id v : Nat) : (setPw id v s).lastChan = s.lastChan := rfl
@[simp] theorem setPw_canopy (id v : Nat) : (setPw id v s).canopy = s.canopy := rfl
@[simp] theorem setPw_scratch (id v : Nat) : (setPw id v s).scratch = s.scratch := rfl
@[simp] theorem setPw_fences (id v : Nat) : (setPw id v s).fences = s.fences := rfl
@[simp] theorem setPw_store (id v : Nat) : (setPw id v s).store = s.store := rfl
@[simp] theorem setPw_safety (id v : Nat) : (setPw id v s).safety = s.safety := rfl
@[simp] theorem setPw_pair (id v : Nat) : (setPw id v s).pair = s.pair := rfl
@[simp] theorem setPw_power (id v : Nat) : (setPw id v s).power = s.power := rfl
@[simp] theorem setPw_start (id v : Nat) : (setPw id v s).start = s.start := rfl
@[simp] theorem setPw_droop (id v : Nat) : (setPw id v s).droop = s.droop := rfl
@[simp] theorem setPw_tap (id v : Nat) : (setPw id v s).tap = s.tap := rfl
@[simp] theorem setPw_bsr (id v : Nat) : (setPw id v s).bsr = s.bsr := rfl

/-! ### modStore -/

@[simp] theorem modStore_pending (f : Store → Store) : (modStore f s).pending = s.pending := rfl
@[simp] theorem modStore_clk (f : Store → Store) : (modStore f s).clk = s.clk := rfl
@[simp] theorem modStore_free (f : Store → Store) : (modStore f s).free = s.free := rfl
@[simp] theorem modStore_bus (f : Store → Store) : (modStore f s).bus = s.bus := rfl
@[simp] theorem modStore_wins (f : Store → Store) : (modStore f s).wins = s.wins := rfl
@[simp] theorem modStore_mgmt (f : Store → Store) : (modStore f s).mgmt = s.mgmt := rfl
@[simp] theorem modStore_image (f : Store → Store) : (modStore f s).image = s.image := rfl
@[simp] theorem modStore_params (f : Store → Store) : (modStore f s).params = s.params := rfl
@[simp] theorem modStore_tables (f : Store → Store) : (modStore f s).tables = s.tables := rfl
@[simp] theorem modStore_locks (f : Store → Store) : (modStore f s).locks = s.locks := rfl
@[simp] theorem modStore_tenants (f : Store → Store) : (modStore f s).tenants = s.tenants := rfl
@[simp] theorem modStore_links (f : Store → Store) : (modStore f s).links = s.links := rfl
@[simp] theorem modStore_frames (f : Store → Store) : (modStore f s).frames = s.frames := rfl
@[simp] theorem modStore_nextFrame (f : Store → Store) : (modStore f s).nextFrame = s.nextFrame := rfl
@[simp] theorem modStore_ports (f : Store → Store) : (modStore f s).ports = s.ports := rfl
@[simp] theorem modStore_lanes (f : Store → Store) : (modStore f s).lanes = s.lanes := rfl
@[simp] theorem modStore_mdio (f : Store → Store) : (modStore f s).mdio = s.mdio := rfl
@[simp] theorem modStore_thicket (f : Store → Store) : (modStore f s).thicket = s.thicket := rfl
@[simp] theorem modStore_time (f : Store → Store) : (modStore f s).time = s.time := rfl
@[simp] theorem modStore_perf (f : Store → Store) : (modStore f s).perf = s.perf := rfl
@[simp] theorem modStore_chans (f : Store → Store) : (modStore f s).chans = s.chans := rfl
@[simp] theorem modStore_lastChan (f : Store → Store) : (modStore f s).lastChan = s.lastChan := rfl
@[simp] theorem modStore_canopy (f : Store → Store) : (modStore f s).canopy = s.canopy := rfl
@[simp] theorem modStore_scratch (f : Store → Store) : (modStore f s).scratch = s.scratch := rfl
@[simp] theorem modStore_fences (f : Store → Store) : (modStore f s).fences = s.fences := rfl
@[simp] theorem modStore_safety (f : Store → Store) : (modStore f s).safety = s.safety := rfl
@[simp] theorem modStore_pair (f : Store → Store) : (modStore f s).pair = s.pair := rfl
@[simp] theorem modStore_power (f : Store → Store) : (modStore f s).power = s.power := rfl
@[simp] theorem modStore_start (f : Store → Store) : (modStore f s).start = s.start := rfl
@[simp] theorem modStore_droop (f : Store → Store) : (modStore f s).droop = s.droop := rfl
@[simp] theorem modStore_tap (f : Store → Store) : (modStore f s).tap = s.tap := rfl
@[simp] theorem modStore_bsr (f : Store → Store) : (modStore f s).bsr = s.bsr := rfl

/-! ### modPair -/

@[simp] theorem modPair_pending (f : Pair → Pair) : (modPair f s).pending = s.pending := rfl
@[simp] theorem modPair_clk (f : Pair → Pair) : (modPair f s).clk = s.clk := rfl
@[simp] theorem modPair_free (f : Pair → Pair) : (modPair f s).free = s.free := rfl
@[simp] theorem modPair_bus (f : Pair → Pair) : (modPair f s).bus = s.bus := rfl
@[simp] theorem modPair_wins (f : Pair → Pair) : (modPair f s).wins = s.wins := rfl
@[simp] theorem modPair_mgmt (f : Pair → Pair) : (modPair f s).mgmt = s.mgmt := rfl
@[simp] theorem modPair_image (f : Pair → Pair) : (modPair f s).image = s.image := rfl
@[simp] theorem modPair_params (f : Pair → Pair) : (modPair f s).params = s.params := rfl
@[simp] theorem modPair_tables (f : Pair → Pair) : (modPair f s).tables = s.tables := rfl
@[simp] theorem modPair_locks (f : Pair → Pair) : (modPair f s).locks = s.locks := rfl
@[simp] theorem modPair_tenants (f : Pair → Pair) : (modPair f s).tenants = s.tenants := rfl
@[simp] theorem modPair_links (f : Pair → Pair) : (modPair f s).links = s.links := rfl
@[simp] theorem modPair_frames (f : Pair → Pair) : (modPair f s).frames = s.frames := rfl
@[simp] theorem modPair_nextFrame (f : Pair → Pair) : (modPair f s).nextFrame = s.nextFrame := rfl
@[simp] theorem modPair_ports (f : Pair → Pair) : (modPair f s).ports = s.ports := rfl
@[simp] theorem modPair_lanes (f : Pair → Pair) : (modPair f s).lanes = s.lanes := rfl
@[simp] theorem modPair_mdio (f : Pair → Pair) : (modPair f s).mdio = s.mdio := rfl
@[simp] theorem modPair_thicket (f : Pair → Pair) : (modPair f s).thicket = s.thicket := rfl
@[simp] theorem modPair_time (f : Pair → Pair) : (modPair f s).time = s.time := rfl
@[simp] theorem modPair_perf (f : Pair → Pair) : (modPair f s).perf = s.perf := rfl
@[simp] theorem modPair_chans (f : Pair → Pair) : (modPair f s).chans = s.chans := rfl
@[simp] theorem modPair_lastChan (f : Pair → Pair) : (modPair f s).lastChan = s.lastChan := rfl
@[simp] theorem modPair_canopy (f : Pair → Pair) : (modPair f s).canopy = s.canopy := rfl
@[simp] theorem modPair_scratch (f : Pair → Pair) : (modPair f s).scratch = s.scratch := rfl
@[simp] theorem modPair_fences (f : Pair → Pair) : (modPair f s).fences = s.fences := rfl
@[simp] theorem modPair_store (f : Pair → Pair) : (modPair f s).store = s.store := rfl
@[simp] theorem modPair_safety (f : Pair → Pair) : (modPair f s).safety = s.safety := rfl
@[simp] theorem modPair_power (f : Pair → Pair) : (modPair f s).power = s.power := rfl
@[simp] theorem modPair_start (f : Pair → Pair) : (modPair f s).start = s.start := rfl
@[simp] theorem modPair_droop (f : Pair → Pair) : (modPair f s).droop = s.droop := rfl
@[simp] theorem modPair_tap (f : Pair → Pair) : (modPair f s).tap = s.tap := rfl
@[simp] theorem modPair_bsr (f : Pair → Pair) : (modPair f s).bsr = s.bsr := rfl

/-! ### modSafety -/

@[simp] theorem modSafety_pending (f : Safety → Safety) : (modSafety f s).pending = s.pending := rfl
@[simp] theorem modSafety_clk (f : Safety → Safety) : (modSafety f s).clk = s.clk := rfl
@[simp] theorem modSafety_free (f : Safety → Safety) : (modSafety f s).free = s.free := rfl
@[simp] theorem modSafety_bus (f : Safety → Safety) : (modSafety f s).bus = s.bus := rfl
@[simp] theorem modSafety_wins (f : Safety → Safety) : (modSafety f s).wins = s.wins := rfl
@[simp] theorem modSafety_mgmt (f : Safety → Safety) : (modSafety f s).mgmt = s.mgmt := rfl
@[simp] theorem modSafety_image (f : Safety → Safety) : (modSafety f s).image = s.image := rfl
@[simp] theorem modSafety_params (f : Safety → Safety) : (modSafety f s).params = s.params := rfl
@[simp] theorem modSafety_tables (f : Safety → Safety) : (modSafety f s).tables = s.tables := rfl
@[simp] theorem modSafety_locks (f : Safety → Safety) : (modSafety f s).locks = s.locks := rfl
@[simp] theorem modSafety_tenants (f : Safety → Safety) : (modSafety f s).tenants = s.tenants := rfl
@[simp] theorem modSafety_links (f : Safety → Safety) : (modSafety f s).links = s.links := rfl
@[simp] theorem modSafety_frames (f : Safety → Safety) : (modSafety f s).frames = s.frames := rfl
@[simp] theorem modSafety_nextFrame (f : Safety → Safety) : (modSafety f s).nextFrame = s.nextFrame := rfl
@[simp] theorem modSafety_ports (f : Safety → Safety) : (modSafety f s).ports = s.ports := rfl
@[simp] theorem modSafety_lanes (f : Safety → Safety) : (modSafety f s).lanes = s.lanes := rfl
@[simp] theorem modSafety_mdio (f : Safety → Safety) : (modSafety f s).mdio = s.mdio := rfl
@[simp] theorem modSafety_thicket (f : Safety → Safety) : (modSafety f s).thicket = s.thicket := rfl
@[simp] theorem modSafety_time (f : Safety → Safety) : (modSafety f s).time = s.time := rfl
@[simp] theorem modSafety_perf (f : Safety → Safety) : (modSafety f s).perf = s.perf := rfl
@[simp] theorem modSafety_chans (f : Safety → Safety) : (modSafety f s).chans = s.chans := rfl
@[simp] theorem modSafety_lastChan (f : Safety → Safety) : (modSafety f s).lastChan = s.lastChan := rfl
@[simp] theorem modSafety_canopy (f : Safety → Safety) : (modSafety f s).canopy = s.canopy := rfl
@[simp] theorem modSafety_scratch (f : Safety → Safety) : (modSafety f s).scratch = s.scratch := rfl
@[simp] theorem modSafety_fences (f : Safety → Safety) : (modSafety f s).fences = s.fences := rfl
@[simp] theorem modSafety_store (f : Safety → Safety) : (modSafety f s).store = s.store := rfl
@[simp] theorem modSafety_pair (f : Safety → Safety) : (modSafety f s).pair = s.pair := rfl
@[simp] theorem modSafety_power (f : Safety → Safety) : (modSafety f s).power = s.power := rfl
@[simp] theorem modSafety_start (f : Safety → Safety) : (modSafety f s).start = s.start := rfl
@[simp] theorem modSafety_droop (f : Safety → Safety) : (modSafety f s).droop = s.droop := rfl
@[simp] theorem modSafety_tap (f : Safety → Safety) : (modSafety f s).tap = s.tap := rfl
@[simp] theorem modSafety_bsr (f : Safety → Safety) : (modSafety f s).bsr = s.bsr := rfl

/-! ### modPower -/

@[simp] theorem modPower_pending (f : Power → Power) : (modPower f s).pending = s.pending := rfl
@[simp] theorem modPower_clk (f : Power → Power) : (modPower f s).clk = s.clk := rfl
@[simp] theorem modPower_free (f : Power → Power) : (modPower f s).free = s.free := rfl
@[simp] theorem modPower_bus (f : Power → Power) : (modPower f s).bus = s.bus := rfl
@[simp] theorem modPower_wins (f : Power → Power) : (modPower f s).wins = s.wins := rfl
@[simp] theorem modPower_mgmt (f : Power → Power) : (modPower f s).mgmt = s.mgmt := rfl
@[simp] theorem modPower_image (f : Power → Power) : (modPower f s).image = s.image := rfl
@[simp] theorem modPower_params (f : Power → Power) : (modPower f s).params = s.params := rfl
@[simp] theorem modPower_tables (f : Power → Power) : (modPower f s).tables = s.tables := rfl
@[simp] theorem modPower_locks (f : Power → Power) : (modPower f s).locks = s.locks := rfl
@[simp] theorem modPower_tenants (f : Power → Power) : (modPower f s).tenants = s.tenants := rfl
@[simp] theorem modPower_links (f : Power → Power) : (modPower f s).links = s.links := rfl
@[simp] theorem modPower_frames (f : Power → Power) : (modPower f s).frames = s.frames := rfl
@[simp] theorem modPower_nextFrame (f : Power → Power) : (modPower f s).nextFrame = s.nextFrame := rfl
@[simp] theorem modPower_ports (f : Power → Power) : (modPower f s).ports = s.ports := rfl
@[simp] theorem modPower_lanes (f : Power → Power) : (modPower f s).lanes = s.lanes := rfl
@[simp] theorem modPower_mdio (f : Power → Power) : (modPower f s).mdio = s.mdio := rfl
@[simp] theorem modPower_thicket (f : Power → Power) : (modPower f s).thicket = s.thicket := rfl
@[simp] theorem modPower_time (f : Power → Power) : (modPower f s).time = s.time := rfl
@[simp] theorem modPower_perf (f : Power → Power) : (modPower f s).perf = s.perf := rfl
@[simp] theorem modPower_chans (f : Power → Power) : (modPower f s).chans = s.chans := rfl
@[simp] theorem modPower_lastChan (f : Power → Power) : (modPower f s).lastChan = s.lastChan := rfl
@[simp] theorem modPower_canopy (f : Power → Power) : (modPower f s).canopy = s.canopy := rfl
@[simp] theorem modPower_scratch (f : Power → Power) : (modPower f s).scratch = s.scratch := rfl
@[simp] theorem modPower_fences (f : Power → Power) : (modPower f s).fences = s.fences := rfl
@[simp] theorem modPower_store (f : Power → Power) : (modPower f s).store = s.store := rfl
@[simp] theorem modPower_safety (f : Power → Power) : (modPower f s).safety = s.safety := rfl
@[simp] theorem modPower_pair (f : Power → Power) : (modPower f s).pair = s.pair := rfl
@[simp] theorem modPower_start (f : Power → Power) : (modPower f s).start = s.start := rfl
@[simp] theorem modPower_droop (f : Power → Power) : (modPower f s).droop = s.droop := rfl
@[simp] theorem modPower_tap (f : Power → Power) : (modPower f s).tap = s.tap := rfl
@[simp] theorem modPower_bsr (f : Power → Power) : (modPower f s).bsr = s.bsr := rfl

/-! ### modBus -/

@[simp] theorem modBus_pending (f : Bus → Bus) : (modBus f s).pending = s.pending := rfl
@[simp] theorem modBus_clk (f : Bus → Bus) : (modBus f s).clk = s.clk := rfl
@[simp] theorem modBus_free (f : Bus → Bus) : (modBus f s).free = s.free := rfl
@[simp] theorem modBus_wins (f : Bus → Bus) : (modBus f s).wins = s.wins := rfl
@[simp] theorem modBus_mgmt (f : Bus → Bus) : (modBus f s).mgmt = s.mgmt := rfl
@[simp] theorem modBus_image (f : Bus → Bus) : (modBus f s).image = s.image := rfl
@[simp] theorem modBus_params (f : Bus → Bus) : (modBus f s).params = s.params := rfl
@[simp] theorem modBus_tables (f : Bus → Bus) : (modBus f s).tables = s.tables := rfl
@[simp] theorem modBus_locks (f : Bus → Bus) : (modBus f s).locks = s.locks := rfl
@[simp] theorem modBus_tenants (f : Bus → Bus) : (modBus f s).tenants = s.tenants := rfl
@[simp] theorem modBus_links (f : Bus → Bus) : (modBus f s).links = s.links := rfl
@[simp] theorem modBus_frames (f : Bus → Bus) : (modBus f s).frames = s.frames := rfl
@[simp] theorem modBus_nextFrame (f : Bus → Bus) : (modBus f s).nextFrame = s.nextFrame := rfl
@[simp] theorem modBus_ports (f : Bus → Bus) : (modBus f s).ports = s.ports := rfl
@[simp] theorem modBus_lanes (f : Bus → Bus) : (modBus f s).lanes = s.lanes := rfl
@[simp] theorem modBus_mdio (f : Bus → Bus) : (modBus f s).mdio = s.mdio := rfl
@[simp] theorem modBus_thicket (f : Bus → Bus) : (modBus f s).thicket = s.thicket := rfl
@[simp] theorem modBus_time (f : Bus → Bus) : (modBus f s).time = s.time := rfl
@[simp] theorem modBus_perf (f : Bus → Bus) : (modBus f s).perf = s.perf := rfl
@[simp] theorem modBus_chans (f : Bus → Bus) : (modBus f s).chans = s.chans := rfl
@[simp] theorem modBus_lastChan (f : Bus → Bus) : (modBus f s).lastChan = s.lastChan := rfl
@[simp] theorem modBus_canopy (f : Bus → Bus) : (modBus f s).canopy = s.canopy := rfl
@[simp] theorem modBus_scratch (f : Bus → Bus) : (modBus f s).scratch = s.scratch := rfl
@[simp] theorem modBus_fences (f : Bus → Bus) : (modBus f s).fences = s.fences := rfl
@[simp] theorem modBus_store (f : Bus → Bus) : (modBus f s).store = s.store := rfl
@[simp] theorem modBus_safety (f : Bus → Bus) : (modBus f s).safety = s.safety := rfl
@[simp] theorem modBus_pair (f : Bus → Bus) : (modBus f s).pair = s.pair := rfl
@[simp] theorem modBus_power (f : Bus → Bus) : (modBus f s).power = s.power := rfl
@[simp] theorem modBus_start (f : Bus → Bus) : (modBus f s).start = s.start := rfl
@[simp] theorem modBus_droop (f : Bus → Bus) : (modBus f s).droop = s.droop := rfl
@[simp] theorem modBus_tap (f : Bus → Bus) : (modBus f s).tap = s.tap := rfl
@[simp] theorem modBus_bsr (f : Bus → Bus) : (modBus f s).bsr = s.bsr := rfl

/-! ### State.push -/

@[simp] theorem push_clk (c : Instr) : (State.push c s).clk = s.clk := rfl
@[simp] theorem push_free (c : Instr) : (State.push c s).free = s.free := rfl
@[simp] theorem push_bus (c : Instr) : (State.push c s).bus = s.bus := rfl
@[simp] theorem push_wins (c : Instr) : (State.push c s).wins = s.wins := rfl
@[simp] theorem push_mgmt (c : Instr) : (State.push c s).mgmt = s.mgmt := rfl
@[simp] theorem push_image (c : Instr) : (State.push c s).image = s.image := rfl
@[simp] theorem push_params (c : Instr) : (State.push c s).params = s.params := rfl
@[simp] theorem push_tables (c : Instr) : (State.push c s).tables = s.tables := rfl
@[simp] theorem push_locks (c : Instr) : (State.push c s).locks = s.locks := rfl
@[simp] theorem push_tenants (c : Instr) : (State.push c s).tenants = s.tenants := rfl
@[simp] theorem push_links (c : Instr) : (State.push c s).links = s.links := rfl
@[simp] theorem push_frames (c : Instr) : (State.push c s).frames = s.frames := rfl
@[simp] theorem push_nextFrame (c : Instr) : (State.push c s).nextFrame = s.nextFrame := rfl
@[simp] theorem push_ports (c : Instr) : (State.push c s).ports = s.ports := rfl
@[simp] theorem push_lanes (c : Instr) : (State.push c s).lanes = s.lanes := rfl
@[simp] theorem push_mdio (c : Instr) : (State.push c s).mdio = s.mdio := rfl
@[simp] theorem push_thicket (c : Instr) : (State.push c s).thicket = s.thicket := rfl
@[simp] theorem push_time (c : Instr) : (State.push c s).time = s.time := rfl
@[simp] theorem push_perf (c : Instr) : (State.push c s).perf = s.perf := rfl
@[simp] theorem push_chans (c : Instr) : (State.push c s).chans = s.chans := rfl
@[simp] theorem push_lastChan (c : Instr) : (State.push c s).lastChan = s.lastChan := rfl
@[simp] theorem push_canopy (c : Instr) : (State.push c s).canopy = s.canopy := rfl
@[simp] theorem push_scratch (c : Instr) : (State.push c s).scratch = s.scratch := rfl
@[simp] theorem push_fences (c : Instr) : (State.push c s).fences = s.fences := rfl
@[simp] theorem push_store (c : Instr) : (State.push c s).store = s.store := rfl
@[simp] theorem push_safety (c : Instr) : (State.push c s).safety = s.safety := rfl
@[simp] theorem push_pair (c : Instr) : (State.push c s).pair = s.pair := rfl
@[simp] theorem push_power (c : Instr) : (State.push c s).power = s.power := rfl
@[simp] theorem push_start (c : Instr) : (State.push c s).start = s.start := rfl
@[simp] theorem push_droop (c : Instr) : (State.push c s).droop = s.droop := rfl
@[simp] theorem push_tap (c : Instr) : (State.push c s).tap = s.tap := rfl
@[simp] theorem push_bsr (c : Instr) : (State.push c s).bsr = s.bsr := rfl

@[simp] theorem win_modWin_same (w : Nat) (f : Win → Win) : win (modWin w f s) w = f (win s w) := tget_tmod_same _ _ _ _
theorem win_modWin_ne (w j : Nat) (f : Win → Win) (h : j ≠ w) : win (modWin w f s) j = win s j := tget_tmod_ne _ _ _ _ _ h

@[simp] theorem ten_modTen_same (t : Nat) (f : Tenant → Tenant) : ten (modTen t f s) t = f (ten s t) := tget_tmod_same _ _ _ _
theorem ten_modTen_ne (t j : Nat) (f : Tenant → Tenant) (h : j ≠ t) : ten (modTen t f s) j = ten s j := tget_tmod_ne _ _ _ _ _ h

@[simp] theorem link_modLink_same (t : Nat) (f : Link → Link) : link (modLink t f s) t = f (link s t) := tget_tmod_same _ _ _ _
theorem link_modLink_ne (t j : Nat) (f : Link → Link) (h : j ≠ t) : link (modLink t f s) j = link s j := tget_tmod_ne _ _ _ _ _ h

@[simp] theorem port_modPort_same (p : Nat) (f : Port → Port) : port (modPort p f s) p = f (port s p) := tget_tmod_same _ _ _ _
theorem port_modPort_ne (p j : Nat) (f : Port → Port) (h : j ≠ p) : port (modPort p f s) j = port s j := tget_tmod_ne _ _ _ _ _ h

@[simp] theorem lane_modLane_same (q : Nat) (f : Lane → Lane) : lane (modLane q f s) q = f (lane s q) := tget_tmod_same _ _ _ _
theorem lane_modLane_ne (q j : Nat) (f : Lane → Lane) (h : j ≠ q) : lane (modLane q f s) j = lane s j := tget_tmod_ne _ _ _ _ _ h

@[simp] theorem chan_modChan_same (c : Nat) (f : Chan → Chan) : chan (modChan c f s) c = f (chan s c) := tget_tmod_same _ _ _ _
theorem chan_modChan_ne (c j : Nat) (f : Chan → Chan) (h : j ≠ c) : chan (modChan c f s) j = chan s j := tget_tmod_ne _ _ _ _ _ h

@[simp] theorem lock_modLock_same (k : Nat) (f : Lock → Lock) : lock (modLock k f s) k = f (lock s k) := tget_tmod_same _ _ _ _
theorem lock_modLock_ne (k j : Nat) (f : Lock → Lock) (h : j ≠ k) : lock (modLock k f s) j = lock s j := tget_tmod_ne _ _ _ _ _ h

@[simp] theorem modStore_store (f : Store → Store) : (modStore f s).store = f s.store := rfl
@[simp] theorem modPair_pair (f : Pair → Pair) : (modPair f s).pair = f s.pair := rfl
@[simp] theorem modSafety_safety (f : Safety → Safety) : (modSafety f s).safety = f s.safety := rfl
@[simp] theorem modPower_power (f : Power → Power) : (modPower f s).power = f s.power := rfl
@[simp] theorem modBus_bus (f : Bus → Bus) : (modBus f s).bus = f s.bus := rfl
@[simp] theorem drawn_free : (drawn s).free = s.free + 1 := rfl
@[simp] theorem push_pending (c : Instr) : (State.push c s).pending = c :: s.pending := rfl

/-- A stored row is read back. -/
@[simp] theorem rowAt_putRow_same (a i r : Nat) (ws : List Word) : rowAt (putRow a i r ws s) a i r = ws := by
  simp [rowAt, putRow]

/-- Storing a row leaves every row with another key. -/
theorem rowAt_putRow_ne (a i r b j q : Nat) (ws : List Word) (h : rowKey b j q ≠ rowKey a i r) :
    rowAt (putRow a i r ws s) b j q = rowAt s b j q := tget_tput_ne _ _ _ _ _ h

/-! ### The bus and the registers of a family seen through an update of another -/

@[simp] theorem win_drawn (k : Nat) : win (drawn s) k = win s k := rfl
@[simp] theorem ten_drawn (k : Nat) : ten (drawn s) k = ten s k := rfl
@[simp] theorem link_drawn (k : Nat) : link (drawn s) k = link s k := rfl
@[simp] theorem port_drawn (k : Nat) : port (drawn s) k = port s k := rfl
@[simp] theorem lane_drawn (k : Nat) : lane (drawn s) k = lane s k := rfl
@[simp] theorem chan_drawn (k : Nat) : chan (drawn s) k = chan s k := rfl
@[simp] theorem lock_drawn (k : Nat) : lock (drawn s) k = lock s k := rfl
@[simp] theorem ten_modWin (w : Nat) (f : Win → Win) (k : Nat) : ten (modWin w f s) k = ten s k := rfl
@[simp] theorem link_modWin (w : Nat) (f : Win → Win) (k : Nat) : link (modWin w f s) k = link s k := rfl
@[simp] theorem port_modWin (w : Nat) (f : Win → Win) (k : Nat) : port (modWin w f s) k = port s k := rfl
@[simp] theorem lane_modWin (w : Nat) (f : Win → Win) (k : Nat) : lane (modWin w f s) k = lane s k := rfl
@[simp] theorem chan_modWin (w : Nat) (f : Win → Win) (k : Nat) : chan (modWin w f s) k = chan s k := rfl
@[simp] theorem lock_modWin (w : Nat) (f : Win → Win) (k : Nat) : lock (modWin w f s) k = lock s k := rfl
@[simp] theorem win_modTen (t : Nat) (f : Tenant → Tenant) (k : Nat) : win (modTen t f s) k = win s k := rfl
@[simp] theorem link_modTen (t : Nat) (f : Tenant → Tenant) (k : Nat) : link (modTen t f s) k = link s k := rfl
@[simp] theorem port_modTen (t : Nat) (f : Tenant → Tenant) (k : Nat) : port (modTen t f s) k = port s k := rfl
@[simp] theorem lane_modTen (t : Nat) (f : Tenant → Tenant) (k : Nat) : lane (modTen t f s) k = lane s k := rfl
@[simp] theorem chan_modTen (t : Nat) (f : Tenant → Tenant) (k : Nat) : chan (modTen t f s) k = chan s k := rfl
@[simp] theorem lock_modTen (t : Nat) (f : Tenant → Tenant) (k : Nat) : lock (modTen t f s) k = lock s k := rfl
@[simp] theorem win_modLink (t : Nat) (f : Link → Link) (k : Nat) : win (modLink t f s) k = win s k := rfl
@[simp] theorem ten_modLink (t : Nat) (f : Link → Link) (k : Nat) : ten (modLink t f s) k = ten s k := rfl
@[simp] theorem port_modLink (t : Nat) (f : Link → Link) (k : Nat) : port (modLink t f s) k = port s k := rfl
@[simp] theorem lane_modLink (t : Nat) (f : Link → Link) (k : Nat) : lane (modLink t f s) k = lane s k := rfl
@[simp] theorem chan_modLink (t : Nat) (f : Link → Link) (k : Nat) : chan (modLink t f s) k = chan s k := rfl
@[simp] theorem lock_modLink (t : Nat) (f : Link → Link) (k : Nat) : lock (modLink t f s) k = lock s k := rfl
@[simp] theorem win_modPort (p : Nat) (f : Port → Port) (k : Nat) : win (modPort p f s) k = win s k := rfl
@[simp] theorem ten_modPort (p : Nat) (f : Port → Port) (k : Nat) : ten (modPort p f s) k = ten s k := rfl
@[simp] theorem link_modPort (p : Nat) (f : Port → Port) (k : Nat) : link (modPort p f s) k = link s k := rfl
@[simp] theorem lane_modPort (p : Nat) (f : Port → Port) (k : Nat) : lane (modPort p f s) k = lane s k := rfl
@[simp] theorem chan_modPort (p : Nat) (f : Port → Port) (k : Nat) : chan (modPort p f s) k = chan s k := rfl
@[simp] theorem lock_modPort (p : Nat) (f : Port → Port) (k : Nat) : lock (modPort p f s) k = lock s k := rfl
@[simp] theorem win_modLane (q : Nat) (f : Lane → Lane) (k : Nat) : win (modLane q f s) k = win s k := rfl
@[simp] theorem ten_modLane (q : Nat) (f : Lane → Lane) (k : Nat) : ten (modLane q f s) k = ten s k := rfl
@[simp] theorem link_modLane (q : Nat) (f : Lane → Lane) (k : Nat) : link (modLane q f s) k = link s k := rfl
@[simp] theorem port_modLane (q : Nat) (f : Lane → Lane) (k : Nat) : port (modLane q f s) k = port s k := rfl
@[simp] theorem chan_modLane (q : Nat) (f : Lane → Lane) (k : Nat) : chan (modLane q f s) k = chan s k := rfl
@[simp] theorem lock_modLane (q : Nat) (f : Lane → Lane) (k : Nat) : lock (modLane q f s) k = lock s k := rfl
@[simp] theorem win_modChan (c : Nat) (f : Chan → Chan) (k : Nat) : win (modChan c f s) k = win s k := rfl
@[simp] theorem ten_modChan (c : Nat) (f : Chan → Chan) (k : Nat) : ten (modChan c f s) k = ten s k := rfl
@[simp] theorem link_modChan (c : Nat) (f : Chan → Chan) (k : Nat) : link (modChan c f s) k = link s k := rfl
@[simp] theorem port_modChan (c : Nat) (f : Chan → Chan) (k : Nat) : port (modChan c f s) k = port s k := rfl
@[simp] theorem lane_modChan (c : Nat) (f : Chan → Chan) (k : Nat) : lane (modChan c f s) k = lane s k := rfl
@[simp] theorem lock_modChan (c : Nat) (f : Chan → Chan) (k : Nat) : lock (modChan c f s) k = lock s k := rfl
@[simp] theorem win_modLock (k : Nat) (f : Lock → Lock) (j : Nat) : win (modLock k f s) j = win s j := rfl
@[simp] theorem ten_modLock (k : Nat) (f : Lock → Lock) (j : Nat) : ten (modLock k f s) j = ten s j := rfl
@[simp] theorem link_modLock (k : Nat) (f : Lock → Lock) (j : Nat) : link (modLock k f s) j = link s j := rfl
@[simp] theorem port_modLock (k : Nat) (f : Lock → Lock) (j : Nat) : port (modLock k f s) j = port s j := rfl
@[simp] theorem lane_modLock (k : Nat) (f : Lock → Lock) (j : Nat) : lane (modLock k f s) j = lane s j := rfl
@[simp] theorem chan_modLock (k : Nat) (f : Lock → Lock) (j : Nat) : chan (modLock k f s) j = chan s j := rfl
@[simp] theorem win_putRow (a i r : Nat) (ws : List Word) (k : Nat) : win (putRow a i r ws s) k = win s k := rfl
@[simp] theorem ten_putRow (a i r : Nat) (ws : List Word) (k : Nat) : ten (putRow a i r ws s) k = ten s k := rfl
@[simp] theorem link_putRow (a i r : Nat) (ws : List Word) (k : Nat) : link (putRow a i r ws s) k = link s k := rfl
@[simp] theorem port_putRow (a i r : Nat) (ws : List Word) (k : Nat) : port (putRow a i r ws s) k = port s k := rfl
@[simp] theorem lane_putRow (a i r : Nat) (ws : List Word) (k : Nat) : lane (putRow a i r ws s) k = lane s k := rfl
@[simp] theorem chan_putRow (a i r : Nat) (ws : List Word) (k : Nat) : chan (putRow a i r ws s) k = chan s k := rfl
@[simp] theorem lock_putRow (a i r : Nat) (ws : List Word) (k : Nat) : lock (putRow a i r ws s) k = lock s k := rfl
@[simp] theorem win_setPw (id v : Nat) (k : Nat) : win (setPw id v s) k = win s k := rfl
@[simp] theorem ten_setPw (id v : Nat) (k : Nat) : ten (setPw id v s) k = ten s k := rfl
@[simp] theorem link_setPw (id v : Nat) (k : Nat) : link (setPw id v s) k = link s k := rfl
@[simp] theorem port_setPw (id v : Nat) (k : Nat) : port (setPw id v s) k = port s k := rfl
@[simp] theorem lane_setPw (id v : Nat) (k : Nat) : lane (setPw id v s) k = lane s k := rfl
@[simp] theorem chan_setPw (id v : Nat) (k : Nat) : chan (setPw id v s) k = chan s k := rfl
@[simp] theorem lock_setPw (id v : Nat) (k : Nat) : lock (setPw id v s) k = lock s k := rfl
@[simp] theorem win_modStore (f : Store → Store) (k : Nat) : win (modStore f s) k = win s k := rfl
@[simp] theorem ten_modStore (f : Store → Store) (k : Nat) : ten (modStore f s) k = ten s k := rfl
@[simp] theorem link_modStore (f : Store → Store) (k : Nat) : link (modStore f s) k = link s k := rfl
@[simp] theorem port_modStore (f : Store → Store) (k : Nat) : port (modStore f s) k = port s k := rfl
@[simp] theorem lane_modStore (f : Store → Store) (k : Nat) : lane (modStore f s) k = lane s k := rfl
@[simp] theorem chan_modStore (f : Store → Store) (k : Nat) : chan (modStore f s) k = chan s k := rfl
@[simp] theorem lock_modStore (f : Store → Store) (k : Nat) : lock (modStore f s) k = lock s k := rfl
@[simp] theorem win_modPair (f : Pair → Pair) (k : Nat) : win (modPair f s) k = win s k := rfl
@[simp] theorem ten_modPair (f : Pair → Pair) (k : Nat) : ten (modPair f s) k = ten s k := rfl
@[simp] theorem link_modPair (f : Pair → Pair) (k : Nat) : link (modPair f s) k = link s k := rfl
@[simp] theorem port_modPair (f : Pair → Pair) (k : Nat) : port (modPair f s) k = port s k := rfl
@[simp] theorem lane_modPair (f : Pair → Pair) (k : Nat) : lane (modPair f s) k = lane s k := rfl
@[simp] theorem chan_modPair (f : Pair → Pair) (k : Nat) : chan (modPair f s) k = chan s k := rfl
@[simp] theorem lock_modPair (f : Pair → Pair) (k : Nat) : lock (modPair f s) k = lock s k := rfl
@[simp] theorem win_modSafety (f : Safety → Safety) (k : Nat) : win (modSafety f s) k = win s k := rfl
@[simp] theorem ten_modSafety (f : Safety → Safety) (k : Nat) : ten (modSafety f s) k = ten s k := rfl
@[simp] theorem link_modSafety (f : Safety → Safety) (k : Nat) : link (modSafety f s) k = link s k := rfl
@[simp] theorem port_modSafety (f : Safety → Safety) (k : Nat) : port (modSafety f s) k = port s k := rfl
@[simp] theorem lane_modSafety (f : Safety → Safety) (k : Nat) : lane (modSafety f s) k = lane s k := rfl
@[simp] theorem chan_modSafety (f : Safety → Safety) (k : Nat) : chan (modSafety f s) k = chan s k := rfl
@[simp] theorem lock_modSafety (f : Safety → Safety) (k : Nat) : lock (modSafety f s) k = lock s k := rfl
@[simp] theorem win_modPower (f : Power → Power) (k : Nat) : win (modPower f s) k = win s k := rfl
@[simp] theorem ten_modPower (f : Power → Power) (k : Nat) : ten (modPower f s) k = ten s k := rfl
@[simp] theorem link_modPower (f : Power → Power) (k : Nat) : link (modPower f s) k = link s k := rfl
@[simp] theorem port_modPower (f : Power → Power) (k : Nat) : port (modPower f s) k = port s k := rfl
@[simp] theorem lane_modPower (f : Power → Power) (k : Nat) : lane (modPower f s) k = lane s k := rfl
@[simp] theorem chan_modPower (f : Power → Power) (k : Nat) : chan (modPower f s) k = chan s k := rfl
@[simp] theorem lock_modPower (f : Power → Power) (k : Nat) : lock (modPower f s) k = lock s k := rfl
@[simp] theorem win_modBus (f : Bus → Bus) (k : Nat) : win (modBus f s) k = win s k := rfl
@[simp] theorem ten_modBus (f : Bus → Bus) (k : Nat) : ten (modBus f s) k = ten s k := rfl
@[simp] theorem link_modBus (f : Bus → Bus) (k : Nat) : link (modBus f s) k = link s k := rfl
@[simp] theorem port_modBus (f : Bus → Bus) (k : Nat) : port (modBus f s) k = port s k := rfl
@[simp] theorem lane_modBus (f : Bus → Bus) (k : Nat) : lane (modBus f s) k = lane s k := rfl
@[simp] theorem chan_modBus (f : Bus → Bus) (k : Nat) : chan (modBus f s) k = chan s k := rfl
@[simp] theorem lock_modBus (f : Bus → Bus) (k : Nat) : lock (modBus f s) k = lock s k := rfl
@[simp] theorem win_State.push (c : Instr) (k : Nat) : win (State.push c s) k = win s k := rfl
@[simp] theorem ten_State.push (c : Instr) (k : Nat) : ten (State.push c s) k = ten s k := rfl
@[simp] theorem link_State.push (c : Instr) (k : Nat) : link (State.push c s) k = link s k := rfl
@[simp] theorem port_State.push (c : Instr) (k : Nat) : port (State.push c s) k = port s k := rfl
@[simp] theorem lane_State.push (c : Instr) (k : Nat) : lane (State.push c s) k = lane s k := rfl
@[simp] theorem chan_State.push (c : Instr) (k : Nat) : chan (State.push c s) k = chan s k := rfl
@[simp] theorem lock_State.push (c : Instr) (k : Nat) : lock (State.push c s) k = lock s k := rfl

/-! ### The meaning form -/

/-- A live command with no TAP instruction loaded ends in its effect. -/
@[simp] theorem live_next (f : State → State) (h : s.tap = false) : live f s = .next (f s) := by simp [live, h]

/-- A live command answers a next state only with no TAP instruction loaded, and then its effect. -/
theorem live_eq_next {f : State → State} {s t : State} (h : live f s = .next t) : s.tap = false ∧ t = f s := by
  unfold live at h
  split at h
  · cases h
  · next hs => cases h; exact ⟨by simpa using hs, rfl⟩

end Sys2Proof.Machine
end

