-- ==== Sys2Proof/Laws/Access.lean ====
section
/-! SUPPORT. What one performed register access is: the write of its register on the acknowledged state, or the read. -/

set_option Elab.async false

namespace Sys2Proof.Machine

variable {s : State}

/-- With good parity no cause of a refusal is found. -/
theorem parityCause_good {read : Bool} {off : Nat} {d : Word} {apar : Bool} {par : BitVec 3}
    (h : parityGood read off d apar par) : parityCause read (BitVec.ofNat 8 off) apar d par = 0 := by
  obtain ⟨h1, h2⟩ := h
  unfold parityCause
  rw [if_neg (by simp [h1])]
  rcases h2 with h2 | h2
  · simp [h2]
  · simp [h2]

/-- An offset of a window as the control bus carries it. -/
theorem off_toNat {off : Nat} (h : off < 256) : (BitVec.ofNat 8 off).toNat = off := by
  simp [BitVec.toNat_ofNat]; omega

/-- A request of one dword writes its word. -/
theorem bar0Order_one (off : Nat) : bar0Order off 1 = [off] := by
  simp only [bar0Order, List.range_one, List.map_cons, List.map_nil, List.flatMap_cons, List.flatMap_nil,
    List.append_nil]
  rw [if_neg, if_neg]
  · simp
  · simp; omega
  · simp

/-- A performed write writes its register. -/
theorem writeAt_admitted {x : Extra} {k : Reach} {p : Path} {off v : Nat} (ho : off < 256)
    (h : Admitted s k p false off (word v)) :
    writeAt x k p off v s = regWrite x (pathWin s p) (pathNo p) off (word v) (written p s) := by
  unfold writeAt wordAccess
  cases p with
  | cb apar par =>
    obtain ⟨hl, ha, hp, m, hg, h0, h1⟩ := h
    have hr : offReach s k (.cb apar par) = false := by
      cases k <;> simp [offReach, hg]
      · exact h0 rfl
      · exact h1 rfl
    simp [hr, cbAccess, hl, hg, ha, parityCause_good hp, pathWin, pathNo, written, off_toNat ho]
  | bar0 t be =>
    obtain ⟨hk, hl, hm, hb⟩ := h
    have hr : offReach s k (.bar0 t be) = false := by
      cases k <;> simp [offReach]
      exact hk rfl
    have hw : word (BitVec.ofNat 32 (word v).toNat).toNat = word v := by
      apply BitVec.eq_of_toNat_eq
      simp only [word, BitVec.toNat_ofNat]
      omega
    have hb' : ¬(off > 255 ∨ ¬(be = 15 ∨ be = 7)) := by
      rintro (h | h)
      · omega
      · exact h (hb.resolve_left Bool.false_ne_true)
    simp only [hr, bar0Access, hl, hm, List.length_cons, List.length_nil, Nat.zero_add, bar0Order_one, forEach, List.foldl_cons, List.foldl_nil,
      bar0Word, Nat.sub_self, List.getD_cons_zero, if_neg hb', hw, pathWin, pathNo, written]
    rfl

/-- A read of another register leaves the counters as they are. -/
theorem counterHit_other {m off : Nat} {ecc : Bool} (h : off ≠ 0x25) : counterHit m off ecc s = s := by
  simp [counterHit, h]

/-- A read that finds no error leaves the counters as they are. -/
@[simp] theorem counterHit_false {m off : Nat} : counterHit m off false s = s := rfl

/-- A performed read returns the register's value and does what the read does. -/
theorem readAt_cb {x : Extra} {k : Reach} {apar : Bool} {par : BitVec 3} {off : Nat} (ho : off < 256)
    (h : Admitted s k (.cb apar par) true off 0) :
    readAt x k (.cb apar par) off s = readEffect (s.bus.grant.getD 0) 0 off x.ecc
      (acknowledge (some (readValue (s.bus.grant.getD 0) 0 off (counterHit (s.bus.grant.getD 0) off x.ecc s)))
        (counterHit (s.bus.grant.getD 0) off x.ecc s)) := by
  unfold readAt wordAccess
  obtain ⟨hl, ha, hp, m, hg, h0, h1⟩ := h
  have hr : offReach s k (.cb apar par) = false := by
    cases k <;> simp [offReach, hg]
    · exact h0 rfl
    · exact h1 rfl
  have hc := parityCause_good hp
  simp only [BitVec.ofNat_eq_ofNat] at hc
  simp [hr, cbAccess, hl, hg, ha, hc, off_toNat ho]

theorem readAt_bar0 {x : Extra} {k : Reach} {t : Fin 4} {be : BitVec 4} {off : Nat} (ho : off < 256)
    (h : Admitted s k (.bar0 t be) true off 0) :
    readAt x k (.bar0 t be) off s = modLink t (fun l => { l with
        bar0 := some [BitVec.ofNat 32 (readValue (t + 1) 1 off s).toNat] }) (readEffect (t + 1) 1 off x.ecc s) := by
  obtain ⟨hk, hl, hm, -⟩ := h
  have hr : offReach s k (.bar0 t be) = false := by
    cases k <;> simp [offReach]
    exact hk rfl
  unfold readAt wordAccess
  have : ¬ off > 255 := by omega
  simp [hr, bar0Access, hl, hm, bar0Read, this]

/-- Management's performed write. -/
theorem mgmtWrite_admitted {x : Extra} {q : CbPar} {off v : Nat} (ho : off < 256) (h : AdmittedM s q off (word v)) :
    mgmtWrite x q off v s = regWrite x 0 0 off (word v) (acknowledge none s) := by
  obtain ⟨hl, ha, hp, hg⟩ := h
  have : Admitted s .mgmt (.cb q.apar q.par) false off (word v) :=
    ⟨hl, ha, hp, 0, hg, fun _ => rfl, fun h => nomatch h⟩
  unfold mgmtWrite
  rw [writeAt_admitted ho this]
  simp [pathWin, hg, pathNo, written]

end Sys2Proof.Machine
end

