-- ==== Sys2Proof/Laws/EvolveOps.lean ====
section
/-! SUPPORT. What every operation of Machine/Ops.lean may change, and the promises it keeps (Evolves). -/

set_option Elab.async false

set_option linter.unusedTactic false
set_option linter.unreachableTactic false

namespace Sys2Proof.Machine

theorem drawn_ev {m : Nat} {z0 : State} {s : State} (hm : Within 0x4 m) (hev : Evolves m z0 s) :
    Evolves m z0 (drawn s) := by
  unfold drawn
  repeat' first
    | intro _ | with_reducible assumption | with_reducible apply Evolves.ite | split | (dsimp only; split)
    | with_reducible refine Evolves.set_free (hm.bit (by decide)) ?_

theorem modWin_ev {m : Nat} {z0 : State} {w : Nat} {f : Win → Win} {s : State} (hm : Within 0x10 m)
    (hev : Evolves m z0 s) :
    Evolves m z0 (modWin w f s) := by
  unfold modWin
  repeat' first
    | intro _ | with_reducible assumption | with_reducible apply Evolves.ite | split | (dsimp only; split)
    | with_reducible refine Evolves.set_wins (hm.bit (by decide)) ?_

theorem modTen_ev {m : Nat} {z0 : State} {t : Nat} {f : Tenant → Tenant} {s : State} (hm : Within 0x400 m)
    (hev : Evolves m z0 s) :
    Evolves m z0 (modTen t f s) := by
  unfold modTen
  repeat' first
    | intro _ | with_reducible assumption | with_reducible apply Evolves.ite | split | (dsimp only; split)
    | with_reducible refine Evolves.set_tenants (hm.bit (by decide)) ?_

theorem modLink_ev {m : Nat} {z0 : State} {t : Nat} {f : Link → Link} {s : State} (hm : Within 0x800 m)
    (hev : Evolves m z0 s) :
    Evolves m z0 (modLink t f s) := by
  unfold modLink
  repeat' first
    | intro _ | with_reducible assumption | with_reducible apply Evolves.ite | split | (dsimp only; split)
    | with_reducible refine Evolves.set_links (hm.bit (by decide)) ?_

theorem modRing_ev {m : Nat} {z0 : State} {t r : Nat} {f : Ring → Ring} {s : State} (hm : Within 0x400 m)
    (hev : Evolves m z0 s) :
    Evolves m z0 (modRing t r f s) := by
  unfold modRing
  repeat' first
    | intro _ | with_reducible assumption | with_reducible apply Evolves.ite
    | with_reducible apply modTen_ev (hm.of (by decide)) | split | (dsimp only; split)

theorem modPort_ev {m : Nat} {z0 : State} {p : Nat} {f : Port → Port} {s : State} (hm : Within 0x4000 m)
    (hev : Evolves m z0 s) :
    Evolves m z0 (modPort p f s) := by
  unfold modPort
  repeat' first
    | intro _ | with_reducible assumption | with_reducible apply Evolves.ite | split | (dsimp only; split)
    | with_reducible refine Evolves.set_ports (hm.bit (by decide)) ?_

theorem modLane_ev {m : Nat} {z0 : State} {q : Nat} {f : Lane → Lane} {s : State} (hm : Within 0x8000 m)
    (hev : Evolves m z0 s) :
    Evolves m z0 (modLane q f s) := by
  unfold modLane
  repeat' first
    | intro _ | with_reducible assumption | with_reducible apply Evolves.ite | split | (dsimp only; split)
    | with_reducible refine Evolves.set_lanes (hm.bit (by decide)) ?_

theorem modChan_ev {m : Nat} {z0 : State} {c : Nat} {f : Chan → Chan} {s : State} (hm : Within 0x100000 m)
    (hev : Evolves m z0 s) :
    Evolves m z0 (modChan c f s) := by
  unfold modChan
  repeat' first
    | intro _ | with_reducible assumption | with_reducible apply Evolves.ite | split | (dsimp only; split)
    | with_reducible refine Evolves.set_chans (hm.bit (by decide)) ?_

theorem modLock_ev {m : Nat} {z0 : State} {k : Nat} {f : Lock → Lock} {s : State} (hm : Within 0x200 m)
    (hev : Evolves m z0 s) :
    Evolves m z0 (modLock k f s) := by
  unfold modLock
  repeat' first
    | intro _ | with_reducible assumption | with_reducible apply Evolves.ite | split | (dsimp only; split)
    | with_reducible refine Evolves.set_locks (hm.bit (by decide)) ?_

theorem putRow_ev {m : Nat} {z0 : State} {table inst row : Nat} {ws : List Word} {s : State} (hm : Within 0x100 m)
    (hev : Evolves m z0 s) :
    Evolves m z0 (putRow table inst row ws s) := by
  unfold putRow
  repeat' first
    | intro _ | with_reducible assumption | with_reducible apply Evolves.ite | split | (dsimp only; split)
    | with_reducible refine Evolves.set_tables (hm.bit (by decide)) ?_

theorem putRowWord_ev {m : Nat} {z0 : State} {table inst row n i v : Nat} {s : State} (hm : Within 0x100 m)
    (hev : Evolves m z0 s) :
    Evolves m z0 (putRowWord table inst row n i v s) := by
  unfold putRowWord
  repeat' first
    | intro _ | with_reducible assumption | with_reducible apply Evolves.ite
    | with_reducible apply putRow_ev (hm.of (by decide)) | split | (dsimp only; split)

theorem clearTable_ev {m : Nat} {z0 : State} {table inst : Nat} {s : State} (hm : Within 0x100 m)
    (hev : Evolves m z0 s) :
    Evolves m z0 (clearTable table inst s) := by
  unfold clearTable
  repeat' first
    | intro _ | with_reducible assumption | with_reducible apply Evolves.ite | split | (dsimp only; split)
    | with_reducible refine Evolves.set_tables (hm.bit (by decide)) ?_

end Sys2Proof.Machine
end

