-- ==== Sys2Proof/Laws/EvolveCatalogue.lean ====
section
/-! SUPPORT. What every operation of Machine/Catalogue.lean may change, and the promises it keeps (Evolves). -/

set_option Elab.async false

set_option linter.unusedTactic false
set_option linter.unreachableTactic false

namespace Sys2Proof.Machine

theorem setPw_ev {m : Nat} {z0 : State} {id v : Nat} {s : State} (hm : Within 0x80 m) (hev : Evolves m z0 s) :
    Evolves m z0 (setPw id v s) := by
  unfold setPw
  repeat' first
    | intro _ | with_reducible assumption | with_reducible apply Evolves.ite | split | (dsimp only; split)
    | with_reducible refine Evolves.set_params (hm.bit (by decide)) ?_

theorem setWide_ev {m : Nat} {z0 : State} {anchor n v : Nat} {s : State} (hm : Within 0x80 m) (hev : Evolves m z0 s) :
    Evolves m z0 (setWide anchor n v s) := by
  unfold setWide
  repeat' first
    | intro _ | with_reducible assumption | with_reducible apply Evolves.ite
    | with_reducible apply setPw_ev (hm.of (by decide)) | with_reducible apply Evolves.foldl | split
    | (dsimp only; split)

theorem bumpParam_ev {m : Nat} {z0 : State} {id n : Nat} {s : State} (hm : Within 0x80 m) (hev : Evolves m z0 s) :
    Evolves m z0 (bumpParam id n s) := by
  unfold bumpParam
  repeat' first
    | intro _ | with_reducible assumption | with_reducible apply Evolves.ite
    | with_reducible apply setPw_ev (hm.of (by decide)) | split | (dsimp only; split)

end Sys2Proof.Machine
end

