-- ==== Sys2Proof/Laws/EvolveIrq.lean ====
section
/-! SUPPORT. What every operation of Machine/Irq.lean may change, and the promises it keeps (Evolves). -/

set_option Elab.async false

set_option linter.unusedTactic false
set_option linter.unreachableTactic false

namespace Sys2Proof.Machine

theorem putSrc_ev {m : Nat} {z0 : State} {w n v : Nat} {s : State} (hm : Within 0x100 m) (hev : Evolves m z0 s) :
    Evolves m z0 (putSrc w n v s) := by
  unfold putSrc
  repeat' first
    | intro _ | with_reducible assumption | with_reducible apply Evolves.ite
    | with_reducible apply putRow_ev (hm.of (by decide)) | split | (dsimp only; split)

theorem raise_ev {m : Nat} {z0 : State} {w n : Nat} {s : State} (hm : Within 0x100 m) (hev : Evolves m z0 s) :
    Evolves m z0 (raise w n s) := by
  unfold raise
  repeat' first
    | intro _ | with_reducible assumption | with_reducible apply Evolves.ite
    | with_reducible apply putSrc_ev (hm.of (by decide)) | split | (dsimp only; split)

theorem raiseTenants_ev {m : Nat} {z0 : State} {n : Nat} {s : State} (hm : Within 0x100 m) (hev : Evolves m z0 s) :
    Evolves m z0 (raiseTenants n s) := by
  unfold raiseTenants
  repeat' first
    | intro _ | with_reducible assumption | with_reducible apply Evolves.ite
    | with_reducible apply raise_ev (hm.of (by decide)) | with_reducible apply forAll_ev | split | (dsimp only; split)

theorem settle_ev {m : Nat} {z0 : State} {w : Nat} {s : State} (hm : Within 0x10 m) (hev : Evolves m z0 s) :
    Evolves m z0 (settle w s) := by
  unfold settle
  repeat' first
    | intro _ | with_reducible assumption | with_reducible apply Evolves.ite
    | with_reducible apply modWin_ev (hm.of (by decide)) | split | (dsimp only; split)

theorem claimEffect_ev {m : Nat} {z0 : State} {w path : Nat} {s : State} (hm : Within 0x110 m)
    (hev : Evolves m z0 s) :
    Evolves m z0 (claimEffect w path s) := by
  unfold claimEffect
  repeat' first
    | intro _ | with_reducible assumption | with_reducible apply Evolves.ite
    | with_reducible apply modWin_ev (hm.of (by decide)) | with_reducible apply putSrc_ev (hm.of (by decide))
    | with_reducible apply settle_ev (hm.of (by decide)) | split | (dsimp only; split)

theorem completeEffect_ev {m : Nat} {z0 : State} {w n : Nat} {s : State} (hm : Within 0x100 m)
    (hev : Evolves m z0 s) :
    Evolves m z0 (completeEffect w n s) := by
  unfold completeEffect
  repeat' first
    | intro _ | with_reducible assumption | with_reducible apply Evolves.ite
    | with_reducible apply putSrc_ev (hm.of (by decide)) | with_reducible apply raise_ev (hm.of (by decide)) | split
    | (dsimp only; split)

theorem idleSources_ev {m : Nat} {z0 : State} {w : Nat} {s : State} (hm : Within 0x100 m) (hev : Evolves m z0 s) :
    Evolves m z0 (idleSources w s) := by
  unfold idleSources
  repeat' first
    | intro _ | with_reducible assumption | with_reducible apply Evolves.ite
    | with_reducible apply putSrc_ev (hm.of (by decide)) | with_reducible apply Evolves.foldl | split
    | (dsimp only; split)

theorem perfAdd_ev {m : Nat} {z0 : State} {code n : Nat} {s : State} (hm : Within 0x80100 m) (hev : Evolves m z0 s) :
    Evolves m z0 (perfAdd code n s) := by
  unfold perfAdd
  repeat' first
    | intro _ | with_reducible assumption | with_reducible apply Evolves.ite
    | with_reducible apply raise_ev (hm.of (by decide)) | with_reducible apply forAll_ev | split | (dsimp only; split)
    | with_reducible refine Evolves.set_perf (hm.bit (by decide)) ?_

theorem logFault_ev {m : Nat} {z0 : State} {kind cause tenant unit info addr : Nat} {safe : Bool} {s : State} (hm : Within 0x4000100 m)
    (hev : Evolves m z0 s) :
    Evolves m z0 (logFault kind cause tenant unit info addr safe s) := by
  unfold logFault
  repeat' first
    | intro _ | with_reducible assumption | with_reducible apply Evolves.ite
    | with_reducible apply putRow_ev (hm.of (by decide)) | split | (dsimp only; split)
    | with_reducible refine Evolves.set_safety (hm.bit (by decide)) ?_

theorem setMFault_ev {m : Nat} {z0 : State} {cause unitA unitB info addr : Nat} {safe : Bool} {s : State} (hm : Within 0x4000120 m)
    (hev : Evolves m z0 s) :
    Evolves m z0 (setMFault cause unitA unitB info addr safe s) := by
  unfold setMFault
  repeat' first
    | intro _ | with_reducible assumption | with_reducible apply Evolves.ite
    | with_reducible apply raise_ev (hm.of (by decide)) | with_reducible apply logFault_ev (hm.of (by decide)) | split
    | (dsimp only; split) | with_reducible refine Evolves.set_mgmt (hm.bit (by decide)) ?_

end Sys2Proof.Machine
end

