-- ==== Sys2Proof/Laws/EvolveTime.lean ====
section
/-! SUPPORT. What every operation of Machine/Time.lean may change, and the promises it keeps (Evolves). -/

set_option Elab.async false

set_option linter.unusedTactic false
set_option linter.unreachableTactic false

namespace Sys2Proof.Machine

theorem slewWritten_ev {m : Nat} {z0 : State} {old : Int} {s : State} (hm : Within 0x40000 m) (hev : Evolves m z0 s) :
    Evolves m z0 (slewWritten old s) := by
  unfold slewWritten
  repeat' first
    | intro _ | with_reducible assumption | with_reducible apply Evolves.ite | split | (dsimp only; split)
    | with_reducible refine Evolves.set_time (hm.bit (by decide)) ?_

theorem engineTicks_ev {m : Nat} {z0 : State} {n t : Nat} {s : State} (hm : Within 0x80500 m) (hev : Evolves m z0 s) :
    Evolves m z0 (engineTicks n t s) := by
  unfold engineTicks
  repeat' first
    | intro _ | with_reducible assumption | with_reducible apply Evolves.ite
    | with_reducible apply modTen_ev (hm.of (by decide)) | with_reducible apply perfAdd_ev (hm.of (by decide)) | split
    | (dsimp only; split)

theorem perfTicks_ev {m : Nat} {z0 : State} {n : Nat} {s : State} (hm : Within 0x80100 m) (hev : Evolves m z0 s) :
    Evolves m z0 (perfTicks n s) := by
  unfold perfTicks
  repeat' first
    | intro _ | with_reducible assumption | with_reducible apply Evolves.ite
    | with_reducible apply raise_ev (hm.of (by decide)) | with_reducible apply forAll_ev | split | (dsimp only; split)
    | with_reducible refine Evolves.set_perf (hm.bit (by decide)) ?_

theorem stretchOver_ev {m : Nat} {z0 : State} {i k : Nat} {s : State} (hm : Within 0x180 m) (hev : Evolves m z0 s) :
    Evolves m z0 (stretchOver i k s) := by
  unfold stretchOver
  repeat' first
    | intro _ | with_reducible assumption | with_reducible apply Evolves.ite
    | with_reducible apply bumpParam_ev (hm.of (by decide)) | with_reducible apply raise_ev (hm.of (by decide))
    | with_reducible apply forAll_ev | split | (dsimp only; split)

theorem stretchIsland_ev {m : Nat} {z0 : State} {f n i : Nat} {d : Droop} {s : State} (hm : Within 0x40000180 m)
    (hev : Evolves m z0 s) :
    Evolves m z0 (stretchIsland f n i d s) := by
  unfold stretchIsland
  repeat' first
    | intro _ | with_reducible assumption | with_reducible apply Evolves.ite
    | with_reducible apply stretchOver_ev (hm.of (by decide)) | split | (dsimp only; split)
    | with_reducible refine Evolves.set_droop (hm.bit (by decide)) ?_

theorem droopTicks_ev {m : Nat} {z0 : State} {f n : Nat} {s : State} (hm : Within 0x40000180 m)
    (hev : Evolves m z0 s) :
    Evolves m z0 (droopTicks f n s) := by
  unfold droopTicks
  repeat' first
    | intro _ | with_reducible assumption | with_reducible apply Evolves.ite
    | with_reducible apply stretchIsland_ev (hm.of (by decide)) | with_reducible apply forEach_ev | split
    | (dsimp only; split)

theorem segPush_ev {m : Nat} {z0 : State} {clk dev rem rate : Nat} {s : State} (hm : Within 0x40000 m)
    (hev : Evolves m z0 s) :
    Evolves m z0 (segPush clk dev rem rate s) := by
  unfold segPush
  repeat' first
    | intro _ | with_reducible assumption | with_reducible apply Evolves.ite | with_reducible apply Evolves.foldl
    | split | (dsimp only; split) | with_reducible refine Evolves.set_time (hm.bit (by decide)) ?_

theorem timeTicks_ev {m : Nat} {z0 : State} {n : Nat} {s0 : State} (hm : Within 0x40180 m) (hev : Evolves m z0 s0) :
    Evolves m z0 (timeTicks n s0) := by
  unfold timeTicks
  repeat' first
    | intro _ | with_reducible assumption | with_reducible apply Evolves.ite
    | with_reducible apply setPw_ev (hm.of (by decide)) | with_reducible apply raise_ev (hm.of (by decide))
    | with_reducible apply segPush_ev (hm.of (by decide)) | split | (dsimp only; split)
    | with_reducible refine Evolves.set_time (hm.bit (by decide)) ?_

theorem gateActivate_ev {m : Nat} {z0 : State} {p : Nat} {s : State} (hm : Within 0x4000 m) (hev : Evolves m z0 s) :
    Evolves m z0 (gateActivate p s) := by
  unfold gateActivate
  repeat' first
    | intro _ | with_reducible assumption | with_reducible apply Evolves.ite
    | with_reducible apply modPort_ev (hm.of (by decide)) | split | (dsimp only; split)

theorem gateSwapNow_ev {m : Nat} {z0 : State} {p : Nat} {s : State} (hm : Within 0x4100 m) (hev : Evolves m z0 s) :
    Evolves m z0 (gateSwapNow p s) := by
  unfold gateSwapNow
  repeat' first
    | intro _ | with_reducible assumption | with_reducible apply Evolves.ite
    | with_reducible apply raise_ev (hm.of (by decide)) | with_reducible apply gateActivate_ev (hm.of (by decide))
    | split | (dsimp only; split)

theorem gateCtlWrite_ev {m : Nat} {z0 : State} {p v : Nat} {s : State} (hm : Within 0x4000 m) (hev : Evolves m z0 s) :
    Evolves m z0 (gateCtlWrite p v s) := by
  unfold gateCtlWrite
  repeat' first
    | intro _ | with_reducible assumption | with_reducible apply Evolves.ite
    | with_reducible apply modPort_ev (hm.of (by decide)) | with_reducible apply gateActivate_ev (hm.of (by decide))
    | split | (dsimp only; split)

theorem gateCatchUp_ev {m : Nat} {z0 : State} {s : State} (hm : Within 0x4100 m) (hev : Evolves m z0 s) :
    Evolves m z0 (gateCatchUp s) := by
  unfold gateCatchUp
  repeat' first
    | intro _ | with_reducible assumption | with_reducible apply Evolves.ite
    | with_reducible apply gateSwapNow_ev (hm.of (by decide)) | with_reducible apply forAll_ev | split
    | (dsimp only; split)

theorem wait_ev {m : Nat} {z0 : State} {n : Nat} {s : State} (hm : Within 0x400c4582 m) (hev : Evolves m z0 s) :
    Evolves m z0 (wait n s) := by
  unfold wait
  repeat' first
    | intro _ | with_reducible assumption | with_reducible apply Evolves.ite
    | with_reducible apply engineTicks_ev (hm.of (by decide)) | with_reducible apply perfTicks_ev (hm.of (by decide))
    | with_reducible apply droopTicks_ev (hm.of (by decide)) | with_reducible apply timeTicks_ev (hm.of (by decide))
    | with_reducible apply gateCatchUp_ev (hm.of (by decide)) | with_reducible apply forAll_ev | split
    | (dsimp only; split) | with_reducible refine Evolves.set_clk (hm.bit (by decide)) ?_

theorem waitUntil_ev {m : Nat} {z0 : State} {at0 : Nat} {s : State} (hm : Within 0x400c4582 m)
    (hev : Evolves m z0 s) :
    Evolves m z0 (waitUntil at0 s) := by
  unfold waitUntil
  repeat' first
    | intro _ | with_reducible assumption | with_reducible apply Evolves.ite
    | with_reducible apply wait_ev (hm.of (by decide)) | split | (dsimp only; split)

theorem waitDev_ev {m : Nat} {z0 : State} {target : Nat} {s : State} (hm : Within 0x400c4582 m)
    (hev : Evolves m z0 s) :
    Evolves m z0 (waitDev target s) := by
  unfold waitDev
  repeat' first
    | intro _ | with_reducible assumption | with_reducible apply Evolves.ite
    | with_reducible apply wait_ev (hm.of (by decide)) | split | (dsimp only; split)

theorem setTime_ev {m : Nat} {z0 : State} {dev : Nat} {s : State} (hm : Within 0x44100 m) (hev : Evolves m z0 s) :
    Evolves m z0 (setTime dev s) := by
  unfold setTime
  repeat' first
    | intro _ | with_reducible assumption | with_reducible apply Evolves.ite
    | with_reducible apply raise_ev (hm.of (by decide)) | with_reducible apply raiseTenants_ev (hm.of (by decide))
    | with_reducible apply gateCatchUp_ev (hm.of (by decide)) | split | (dsimp only; split)
    | with_reducible refine Evolves.set_time (hm.bit (by decide)) ?_

end Sys2Proof.Machine
end

