-- ==== Sys2Proof/Laws/EvolveCanopy.lean ====
section
/-! SUPPORT. What every operation of Machine/Canopy.lean may change, and the promises it keeps (Evolves). -/

set_option Elab.async false

set_option linter.unusedTactic false
set_option linter.unreachableTactic false

namespace Sys2Proof.Machine

theorem post_ev {m : Nat} {z0 : State} {t addr : Nat} {bytes : List Byte} {s : State} (hm : Within 0x80900 m)
    (hev : Evolves m z0 s) :
    Evolves m z0 (post t addr bytes s) := by
  unfold post
  repeat' first
    | intro _ | with_reducible assumption | with_reducible apply Evolves.ite
    | with_reducible apply modLink_ev (hm.of (by decide)) | with_reducible apply perfAdd_ev (hm.of (by decide))
    | split | (dsimp only; split)

theorem plruTouch_ev {m : Nat} {z0 : State} {set way : Nat} {s : State} (hm : Within 0x400000 m)
    (hev : Evolves m z0 s) :
    Evolves m z0 (plruTouch set way s) := by
  unfold plruTouch
  repeat' first
    | intro _ | with_reducible assumption | with_reducible apply Evolves.ite | split | (dsimp only; split)
    | with_reducible refine Evolves.set_canopy (hm.bit (by decide)) ?_

theorem writeBackLine_ev {m : Nat} {z0 : State} {t : Nat} {l : Line} {mask : BitVec 4} {s : State} (hm : Within 0x80900 m)
    (hev : Evolves m z0 s) :
    Evolves m z0 (writeBackLine t l mask s) := by
  unfold writeBackLine
  repeat' first
    | intro _ | with_reducible assumption | with_reducible apply Evolves.ite
    | with_reducible apply perfAdd_ev (hm.of (by decide)) | with_reducible apply post_ev (hm.of (by decide))
    | with_reducible apply forAll_ev | split | (dsimp only; split)

theorem putLine_ev {m : Nat} {z0 : State} {key : Nat} {l : Line} {s : State} (hm : Within 0x400000 m)
    (hev : Evolves m z0 s) :
    Evolves m z0 (putLine key l s) := by
  unfold putLine
  repeat' first
    | intro _ | with_reducible assumption | with_reducible apply Evolves.ite | split | (dsimp only; split)
    | with_reducible refine Evolves.set_canopy (hm.bit (by decide)) ?_

theorem evict_ev {m : Nat} {z0 : State} {t key : Nat} {s : State} (hm : Within 0x480900 m) (hev : Evolves m z0 s) :
    Evolves m z0 (evict t key s) := by
  unfold evict
  repeat' first
    | intro _ | with_reducible assumption | with_reducible apply Evolves.ite
    | with_reducible apply writeBackLine_ev (hm.of (by decide)) | with_reducible apply putLine_ev (hm.of (by decide))
    | split | (dsimp only; split)

theorem takeWay_ev {m : Nat} {z0 : State} {t base : Nat} {s : State} (hm : Within 0x480900 m) (hev : Evolves m z0 s) :
    Evolves m z0 (takeWay t base s).2 := by
  unfold takeWay
  repeat' first
    | intro _ | with_reducible assumption | with_reducible apply Evolves.ite | with_reducible apply Evolves.ite_snd
    | with_reducible apply evict_ev (hm.of (by decide)) | split | (dsimp only; split)

theorem touchLine_ev {m : Nat} {z0 : State} {t a w : Nat} {f : Line → Line} {s : State} (hm : Within 0x480900 m)
    (hev : Evolves m z0 s) :
    Evolves m z0 (touchLine t a w f s) := by
  unfold touchLine
  repeat' first
    | intro _ | with_reducible assumption | with_reducible apply Evolves.ite
    | with_reducible apply plruTouch_ev (hm.of (by decide)) | with_reducible apply putLine_ev (hm.of (by decide))
    | with_reducible apply evict_ev (hm.of (by decide)) | with_reducible apply takeWay_ev (hm.of (by decide)) | split
    | (dsimp only; split) | refine Evolves.snd (by assumption) ?_

theorem setFills_ev {m : Nat} {z0 : State} {fs : List Fill} {s : State} (hm : Within 0x400000 m)
    (hev : Evolves m z0 s) :
    Evolves m z0 (setFills fs s) := by
  unfold setFills
  repeat' first
    | intro _ | with_reducible assumption | with_reducible apply Evolves.ite | split | (dsimp only; split)
    | with_reducible refine Evolves.set_canopy (hm.bit (by decide)) ?_

theorem streamReset_ev {m : Nat} {z0 : State} {t w : Nat} {s : State} (hm : Within 0x400000 m)
    (hev : Evolves m z0 s) :
    Evolves m z0 (streamReset t w s) := by
  unfold streamReset
  repeat' first
    | intro _ | with_reducible assumption | with_reducible apply Evolves.ite | split | (dsimp only; split)
    | with_reducible refine Evolves.set_canopy (hm.bit (by decide)) ?_

theorem startFill_ev {m : Nat} {z0 : State} {t base : Nat} {secs : BitVec 4} {who : FillFor} {w : Nat} {s : State} (hm : Within 0x480900 m)
    (hev : Evolves m z0 s) :
    Evolves m z0 (startFill t base secs who w s) := by
  unfold startFill
  repeat' first
    | intro _ | with_reducible assumption | with_reducible apply Evolves.ite
    | with_reducible apply takeWay_ev (hm.of (by decide)) | split | (dsimp only; split)
    | refine Evolves.snd (by assumption) ?_ | with_reducible refine Evolves.set_canopy (hm.bit (by decide)) ?_

theorem readLine_ev {m : Nat} {z0 : State} {t who : Nat} {l : Nat × Nat × Nat} {s : State} (hm : Within 0x480900 m)
    (hev : Evolves m z0 s) :
    Evolves m z0 (readLine t who l s) := by
  unfold readLine
  repeat' first
    | intro _ | with_reducible assumption | with_reducible apply Evolves.ite
    | with_reducible apply perfAdd_ev (hm.of (by decide)) | with_reducible apply plruTouch_ev (hm.of (by decide))
    | with_reducible apply streamReset_ev (hm.of (by decide)) | with_reducible apply startFill_ev (hm.of (by decide))
    | split | (dsimp only; split)

theorem prefetchNext_ev {m : Nat} {z0 : State} {t : Nat} {l : Nat × Nat × Nat} {s : State} (hm : Within 0x480900 m)
    (hev : Evolves m z0 s) :
    Evolves m z0 (prefetchNext t l s) := by
  unfold prefetchNext
  repeat' first
    | intro _ | with_reducible assumption | with_reducible apply Evolves.ite
    | with_reducible apply perfAdd_ev (hm.of (by decide)) | with_reducible apply startFill_ev (hm.of (by decide))
    | split | (dsimp only; split)

theorem creadEnd_ev {m : Nat} {z0 : State} {t who : Nat} {s : State} (hm : Within 0x400000 m) (hev : Evolves m z0 s) :
    Evolves m z0 (creadEnd t who s) := by
  unfold creadEnd
  repeat' first
    | intro _ | with_reducible assumption | with_reducible apply Evolves.ite | split | (dsimp only; split)
    | with_reducible refine Evolves.set_canopy (hm.bit (by decide)) ?_

theorem readIssue_ev {m : Nat} {z0 : State} {t a n who : Nat} {s : State} (hm : Within 0x480900 m)
    (hev : Evolves m z0 s) :
    Evolves m z0 (readIssue t a n who s) := by
  unfold readIssue
  repeat' first
    | intro _ | with_reducible assumption | with_reducible apply Evolves.ite
    | with_reducible apply perfAdd_ev (hm.of (by decide)) | with_reducible apply readLine_ev (hm.of (by decide))
    | with_reducible apply prefetchNext_ev (hm.of (by decide)) | with_reducible apply creadEnd_ev (hm.of (by decide))
    | with_reducible apply forEach_ev | split | (dsimp only; split)
    | with_reducible refine Evolves.set_canopy (hm.bit (by decide)) ?_

theorem install_ev {m : Nat} {z0 : State} {f : Fill} {data : List Byte} {s : State} (hm : Within 0x480900 m)
    (hev : Evolves m z0 s) :
    Evolves m z0 (install f data s) := by
  unfold install
  repeat' first
    | intro _ | with_reducible assumption | with_reducible apply Evolves.ite
    | with_reducible apply touchLine_ev (hm.of (by decide)) | split | (dsimp only; split)

theorem readServe_ev {m : Nat} {z0 : State} {t a n who : Nat} {host : List Byte} {s : State} (hm : Within 0x480900 m)
    (hev : Evolves m z0 s) :
    Evolves m z0 (readServe t a n who host s).2 := by
  unfold readServe
  repeat' first
    | intro _ | with_reducible assumption | with_reducible apply Evolves.ite | with_reducible apply Evolves.ite_snd
    | with_reducible apply setFills_ev (hm.of (by decide)) | with_reducible apply creadEnd_ev (hm.of (by decide))
    | with_reducible apply install_ev (hm.of (by decide)) | with_reducible apply forEach_ev
    | with_reducible apply Evolves.foldl | split | (dsimp only; split)

theorem readDrop_ev {m : Nat} {z0 : State} {t who : Nat} {s : State} (hm : Within 0x400000 m) (hev : Evolves m z0 s) :
    Evolves m z0 (readDrop t who s) := by
  unfold readDrop
  repeat' first
    | intro _ | with_reducible assumption | with_reducible apply Evolves.ite
    | with_reducible apply setFills_ev (hm.of (by decide)) | with_reducible apply creadEnd_ev (hm.of (by decide))
    | split | (dsimp only; split)

theorem hitTouch_ev {m : Nat} {z0 : State} {hit : Option (Nat × Line)} {s : State} (hm : Within 0x400000 m)
    (hev : Evolves m z0 s) :
    Evolves m z0 (hitTouch hit s) := by
  unfold hitTouch
  repeat' first
    | intro _ | with_reducible assumption | with_reducible apply Evolves.ite
    | with_reducible apply plruTouch_ev (hm.of (by decide)) | split | (dsimp only; split)

theorem writeLine_ev {m : Nat} {z0 : State} {t a : Nat} {bytes : List Byte} {s : State} (hm : Within 0x480900 m)
    (hev : Evolves m z0 s) :
    Evolves m z0 (writeLine t a bytes s) := by
  unfold writeLine
  repeat' first
    | intro _ | with_reducible assumption | with_reducible apply Evolves.ite
    | with_reducible apply perfAdd_ev (hm.of (by decide)) | with_reducible apply post_ev (hm.of (by decide))
    | with_reducible apply putLine_ev (hm.of (by decide)) | with_reducible apply touchLine_ev (hm.of (by decide))
    | with_reducible apply startFill_ev (hm.of (by decide)) | with_reducible apply hitTouch_ev (hm.of (by decide))
    | with_reducible apply forAll_ev | split | (dsimp only; split)
    | with_reducible refine Evolves.set_canopy (hm.bit (by decide)) ?_

theorem cleanRange_ev {m : Nat} {z0 : State} {t a n : Nat} {s : State} (hm : Within 0x480900 m)
    (hev : Evolves m z0 s) :
    Evolves m z0 (cleanRange t a n s) := by
  unfold cleanRange
  repeat' first
    | intro _ | with_reducible assumption | with_reducible apply Evolves.ite
    | with_reducible apply writeBackLine_ev (hm.of (by decide)) | with_reducible apply putLine_ev (hm.of (by decide))
    | with_reducible apply forEach_ev | split | (dsimp only; split)

theorem fillDone_ev {m : Nat} {z0 : State} {f : Fill} {data : List Byte} {s : State} (hm : Within 0x480900 m)
    (hev : Evolves m z0 s) :
    Evolves m z0 (fillDone f data s) := by
  unfold fillDone
  repeat' first
    | intro _ | with_reducible assumption | with_reducible apply Evolves.ite
    | with_reducible apply post_ev (hm.of (by decide)) | with_reducible apply touchLine_ev (hm.of (by decide))
    | with_reducible apply install_ev (hm.of (by decide)) | with_reducible apply cleanRange_ev (hm.of (by decide))
    | split | (dsimp only; split)

theorem devWrite_ev {m : Nat} {z0 : State} {t a : Nat} {bytes : List Byte} {s : State} (hm : Within 0x480900 m)
    (hev : Evolves m z0 s) :
    Evolves m z0 (devWrite t a bytes s) := by
  unfold devWrite
  repeat' first
    | intro _ | with_reducible assumption | with_reducible apply Evolves.ite
    | with_reducible apply setFills_ev (hm.of (by decide)) | with_reducible apply writeLine_ev (hm.of (by decide))
    | with_reducible apply forEach_ev | split | (dsimp only; split)

theorem entryWrite_ev {m : Nat} {z0 : State} {t a : Nat} {bytes : List Byte} {s : State} (hm : Within 0x480900 m)
    (hev : Evolves m z0 s) :
    Evolves m z0 (entryWrite t a bytes s) := by
  unfold entryWrite
  repeat' first
    | intro _ | with_reducible assumption | with_reducible apply Evolves.ite
    | with_reducible apply post_ev (hm.of (by decide)) | with_reducible apply devWrite_ev (hm.of (by decide)) | split
    | (dsimp only; split)

theorem maintRun_ev {m : Nat} {z0 : State} {t : Nat} {m' : Maint} {s : State} (hm : Within 0x480900 m)
    (hev : Evolves m z0 s) :
    Evolves m z0 (maintRun t m' s).1 := by
  unfold maintRun
  repeat' first
    | intro _ | with_reducible assumption | with_reducible apply Evolves.ite | with_reducible apply Evolves.ite_fst
    | with_reducible apply writeBackLine_ev (hm.of (by decide)) | with_reducible apply putLine_ev (hm.of (by decide))
    | with_reducible apply setFills_ev (hm.of (by decide)) | with_reducible apply forEach_ev | split
    | (dsimp only; split)

theorem setQueue_ev {m : Nat} {z0 : State} {t : Nat} {q : List Maint} {s : State} (hm : Within 0x400000 m)
    (hev : Evolves m z0 s) :
    Evolves m z0 (setQueue t q s) := by
  unfold setQueue
  repeat' first
    | intro _ | with_reducible assumption | with_reducible apply Evolves.ite | split | (dsimp only; split)
    | with_reducible refine Evolves.set_canopy (hm.bit (by decide)) ?_

theorem maintStart_ev {m : Nat} {z0 : State} {t : Nat} {s : State} (hm : Within 0x480900 m) (hev : Evolves m z0 s) :
    Evolves m z0 (maintStart t s) := by
  unfold maintStart
  repeat' first
    | intro _ | with_reducible assumption | with_reducible apply Evolves.ite
    | with_reducible apply perfAdd_ev (hm.of (by decide)) | with_reducible apply maintRun_ev (hm.of (by decide))
    | with_reducible apply setQueue_ev (hm.of (by decide)) | split | (dsimp only; split)
    | refine Evolves.fst (by assumption) ?_

theorem maintDone_ev {m : Nat} {z0 : State} {w err : Nat} {s : State} (hm : Within 0x110 m) (hev : Evolves m z0 s) :
    Evolves m z0 (maintDone w err s) := by
  unfold maintDone
  repeat' first
    | intro _ | with_reducible assumption | with_reducible apply Evolves.ite
    | with_reducible apply modWin_ev (hm.of (by decide)) | with_reducible apply raise_ev (hm.of (by decide)) | split
    | (dsimp only; split)

theorem maintEnd_ev {m : Nat} {z0 : State} {t err : Nat} {s : State} (hm : Within 0x480910 m) (hev : Evolves m z0 s) :
    Evolves m z0 (maintEnd t err s) := by
  unfold maintEnd
  repeat' first
    | intro _ | with_reducible assumption | with_reducible apply Evolves.ite
    | with_reducible apply setQueue_ev (hm.of (by decide)) | with_reducible apply maintStart_ev (hm.of (by decide))
    | with_reducible apply maintDone_ev (hm.of (by decide)) | split | (dsimp only; split)

theorem canopyOp_ev {m : Nat} {z0 : State} {w t op : Nat} {all : Bool} {s : State} (hm : Within 0x480910 m)
    (hev : Evolves m z0 s) :
    Evolves m z0 (canopyOp w t op all s) := by
  unfold canopyOp
  repeat' first
    | intro _ | with_reducible assumption | with_reducible apply Evolves.ite
    | with_reducible apply modWin_ev (hm.of (by decide)) | with_reducible apply setQueue_ev (hm.of (by decide))
    | with_reducible apply maintStart_ev (hm.of (by decide)) | with_reducible apply maintDone_ev (hm.of (by decide))
    | split | (dsimp only; split)

theorem windowRewritten_ev {m : Nat} {z0 : State} {t w : Nat} {s : State} (hm : Within 0x400000 m)
    (hev : Evolves m z0 s) :
    Evolves m z0 (windowRewritten t w s) := by
  unfold windowRewritten
  repeat' first
    | intro _ | with_reducible assumption | with_reducible apply Evolves.ite | split | (dsimp only; split)
    | with_reducible refine Evolves.set_canopy (hm.bit (by decide)) ?_

theorem partitionReset_ev {m : Nat} {z0 : State} {t : Nat} {s : State} (hm : Within 0x400110 m)
    (hev : Evolves m z0 s) :
    Evolves m z0 (partitionReset t s) := by
  unfold partitionReset
  repeat' first
    | intro _ | with_reducible assumption | with_reducible apply Evolves.ite
    | with_reducible apply setQueue_ev (hm.of (by decide)) | with_reducible apply maintDone_ev (hm.of (by decide))
    | split | (dsimp only; split) | with_reducible refine Evolves.set_canopy (hm.bit (by decide)) ?_

theorem convertWay_ev {m : Nat} {z0 : State} {s : State} (hm : Within 0xc80900 m) (hev : Evolves m z0 s) :
    Evolves m z0 (convertWay s) := by
  unfold convertWay
  repeat' first
    | intro _ | with_reducible assumption | with_reducible apply Evolves.ite
    | with_reducible apply writeBackLine_ev (hm.of (by decide)) | with_reducible apply forEach_ev | split
    | (dsimp only; split) | with_reducible refine Evolves.set_canopy (hm.bit (by decide)) ?_
    | with_reducible refine Evolves.mk' ?_ (hs := (fun _ => rfl))
    | with_reducible refine Evolves.mk' ?_ (hs := (fun h => Memory.wf_filter _ _ _ h))
    | with_reducible refine Evolves.mk' ?_ (hs := (fun h => Memory.wf_cellsWrite _ _ _ _ h))

theorem returnWays_ev {m : Nat} {z0 : State} {n : Nat} {s : State} (hm : Within 0xc00000 m) (hev : Evolves m z0 s) :
    Evolves m z0 (returnWays n s) := by
  unfold returnWays
  repeat' first
    | intro _ | with_reducible assumption | with_reducible apply Evolves.ite | split | (dsimp only; split)
    | with_reducible refine Evolves.set_canopy (hm.bit (by decide)) ?_
    | with_reducible refine Evolves.mk' ?_ (hs := (fun _ => rfl))
    | with_reducible refine Evolves.mk' ?_ (hs := (fun h => Memory.wf_filter _ _ _ h))
    | with_reducible refine Evolves.mk' ?_ (hs := (fun h => Memory.wf_cellsWrite _ _ _ _ h))

end Sys2Proof.Machine
end

