-- ==== Sys2Proof/Laws/EvolveGlade.lean ====
section
/-! SUPPORT. What every operation of Machine/Glade.lean may change, and the promises it keeps (Evolves). -/

set_option Elab.async false

set_option linter.unusedTactic false
set_option linter.unreachableTactic false

namespace Sys2Proof.Machine

theorem countPort_ev {m : Nat} {z0 : State} {p i n : Nat} {s : State} (hm : Within 0x100 m) (hev : Evolves m z0 s) :
    Evolves m z0 (countPort p i n s) := by
  unfold countPort
  repeat' first
    | intro _ | with_reducible assumption | with_reducible apply Evolves.ite
    | with_reducible apply putRow_ev (hm.of (by decide)) | with_reducible apply raise_ev (hm.of (by decide)) | split
    | (dsimp only; split)

theorem countRing_ev {m : Nat} {z0 : State} {t r i n : Nat} {s : State} (hm : Within 0x100 m) (hev : Evolves m z0 s) :
    Evolves m z0 (countRing t r i n s) := by
  unfold countRing
  repeat' first
    | intro _ | with_reducible assumption | with_reducible apply Evolves.ite
    | with_reducible apply putRow_ev (hm.of (by decide)) | with_reducible apply raise_ev (hm.of (by decide)) | split
    | (dsimp only; split)

theorem peak_ev {m : Nat} {z0 : State} {s : State} (hm : Within 0x80 m) (hev : Evolves m z0 s) :
    Evolves m z0 (peak s) := by
  unfold peak
  repeat' first
    | intro _ | with_reducible assumption | with_reducible apply Evolves.ite
    | with_reducible apply setPw_ev (hm.of (by decide)) | with_reducible apply forAll_ev | split | (dsimp only; split)

theorem takeIn_ev {m : Nat} {z0 : State} {f : GFrame} {s : State} (hm : Within 0x83184 m) (hev : Evolves m z0 s) :
    Evolves m z0 (takeIn f s) := by
  unfold takeIn
  repeat' first
    | intro _ | with_reducible assumption | with_reducible apply Evolves.ite
    | with_reducible apply perfAdd_ev (hm.of (by decide)) | with_reducible apply peak_ev (hm.of (by decide)) | split
    | (dsimp only; split) | with_reducible refine Evolves.set_free (hm.bit (by decide)) ?_
    | with_reducible refine Evolves.set_frames (hm.bit (by decide)) ?_
    | with_reducible refine Evolves.set_nextFrame (hm.bit (by decide)) ?_ | with_reducible refine Evolves.mk' ?_

theorem xoffEnter_ev {m : Nat} {z0 : State} {p c : Nat} {refused : Option (Option Nat)} {s : State} (hm : Within 0x4000 m)
    (hev : Evolves m z0 s) :
    Evolves m z0 (xoffEnter p c refused s) := by
  unfold xoffEnter
  repeat' first
    | intro _ | with_reducible assumption | with_reducible apply Evolves.ite
    | with_reducible apply modPort_ev (hm.of (by decide)) | split | (dsimp only; split)

theorem xoffJudge_ev {m : Nat} {z0 : State} {p c : Nat} {refused : Option (Option Nat)} {s : State} (hm : Within 0x4000 m)
    (hev : Evolves m z0 s) :
    Evolves m z0 (xoffJudge p c refused s) := by
  unfold xoffJudge
  repeat' first
    | intro _ | with_reducible assumption | with_reducible apply Evolves.ite
    | with_reducible apply xoffEnter_ev (hm.of (by decide)) | with_reducible apply forEach_ev | split
    | (dsimp only; split)

theorem xoffLeave_ev {m : Nat} {z0 : State} {p : Nat} {s : State} (hm : Within 0x4000 m) (hev : Evolves m z0 s) :
    Evolves m z0 (xoffLeave p s) := by
  unfold xoffLeave
  repeat' first
    | intro _ | with_reducible assumption | with_reducible apply Evolves.ite
    | with_reducible apply modPort_ev (hm.of (by decide)) | with_reducible apply forEach_ev | split
    | (dsimp only; split)

theorem xoffReview_ev {m : Nat} {z0 : State} {s : State} (hm : Within 0x4000 m) (hev : Evolves m z0 s) :
    Evolves m z0 (xoffReview s) := by
  unfold xoffReview
  repeat' first
    | intro _ | with_reducible assumption | with_reducible apply Evolves.ite
    | with_reducible apply xoffLeave_ev (hm.of (by decide)) | with_reducible apply forEach_ev | split
    | (dsimp only; split)

theorem release_ev {m : Nat} {z0 : State} {id : Nat} {s : State} (hm : Within 0x5000 m) (hev : Evolves m z0 s) :
    Evolves m z0 (release id s) := by
  unfold release
  repeat' first
    | intro _ | with_reducible assumption | with_reducible apply Evolves.ite
    | with_reducible apply xoffReview_ev (hm.of (by decide)) | split | (dsimp only; split)
    | with_reducible refine Evolves.set_frames (hm.bit (by decide)) ?_

theorem setClassQueue_ev {m : Nat} {z0 : State} {p c : Nat} {q : List EgItem} {s : State} (hm : Within 0x4000 m)
    (hev : Evolves m z0 s) :
    Evolves m z0 (setClassQueue p c q s) := by
  unfold setClassQueue
  repeat' first
    | intro _ | with_reducible assumption | with_reducible apply Evolves.ite
    | with_reducible apply modPort_ev (hm.of (by decide)) | split | (dsimp only; split)

theorem enqueue_ev {m : Nat} {z0 : State} {p c : Nat} {i : EgItem} {s : State} (hm : Within 0x4000 m)
    (hev : Evolves m z0 s) :
    Evolves m z0 (enqueue p c i s) := by
  unfold enqueue
  repeat' first
    | intro _ | with_reducible assumption | with_reducible apply Evolves.ite
    | with_reducible apply setClassQueue_ev (hm.of (by decide)) | split | (dsimp only; split)

theorem dropItems_ev {m : Nat} {z0 : State} {test : EgItem → Bool} {s : State} (hm : Within 0x5000 m)
    (hev : Evolves m z0 s) :
    Evolves m z0 (dropItems test s) := by
  unfold dropItems
  repeat' first
    | intro _ | with_reducible assumption | with_reducible apply Evolves.ite
    | with_reducible apply release_ev (hm.of (by decide)) | with_reducible apply forEach_ev | split
    | (dsimp only; split) | with_reducible refine Evolves.set_ports (hm.bit (by decide)) ?_

end Sys2Proof.Machine
end

