-- ==== Sys2Proof/Laws/EvolveRings.lean ====
section
/-! SUPPORT. What every operation of Machine/Rings.lean may change, and the promises it keeps (Evolves). -/

set_option Elab.async false

set_option linter.unusedTactic false
set_option linter.unreachableTactic false

namespace Sys2Proof.Machine

theorem modEntry_ev {m : Nat} {z0 : State} {t r pos : Nat} {f : Entry → Entry} {s : State} (hm : Within 0x400 m)
    (hev : Evolves m z0 s) :
    Evolves m z0 (modEntry t r pos f s) := by
  unfold modEntry
  repeat' first
    | intro _ | with_reducible assumption | with_reducible apply Evolves.ite
    | with_reducible apply modRing_ev (hm.of (by decide)) | split | (dsimp only; split)

theorem engineSteps_ev {m : Nat} {z0 : State} {t k : Nat} {s : State} (hm : Within 0x80500 m) (hev : Evolves m z0 s) :
    Evolves m z0 (engineSteps t k s) := by
  unfold engineSteps
  repeat' first
    | intro _ | with_reducible assumption | with_reducible apply Evolves.ite
    | with_reducible apply modTen_ev (hm.of (by decide)) | with_reducible apply perfAdd_ev (hm.of (by decide)) | split
    | (dsimp only; split)

theorem entrySteps_ev {m : Nat} {z0 : State} {t r pos k : Nat} {f : Entry → Entry} {s : State} (hm : Within 0x80500 m)
    (hev : Evolves m z0 s) :
    Evolves m z0 (entrySteps t r pos k f s) := by
  unfold entrySteps
  repeat' first
    | intro _ | with_reducible assumption | with_reducible apply Evolves.ite
    | with_reducible apply modEntry_ev (hm.of (by decide)) | with_reducible apply engineSteps_ev (hm.of (by decide))
    | split | (dsimp only; split)

theorem voidCycles_ev {m : Nat} {z0 : State} {t k : Nat} {s : State} (hm : Within 0x80100 m) (hev : Evolves m z0 s) :
    Evolves m z0 (voidCycles t k s) := by
  unfold voidCycles
  repeat' first
    | intro _ | with_reducible assumption | with_reducible apply Evolves.ite
    | with_reducible apply perfAdd_ev (hm.of (by decide)) | split | (dsimp only; split)

theorem keepSlots_ev {m : Nat} {z0 : State} {t r : Nat} {test : Slot → Bool} {s : State} (hm : Within 0x80500 m)
    (hev : Evolves m z0 s) :
    Evolves m z0 (keepSlots t r test s) := by
  unfold keepSlots
  repeat' first
    | intro _ | with_reducible assumption | with_reducible apply Evolves.ite
    | with_reducible apply modRing_ev (hm.of (by decide)) | with_reducible apply voidCycles_ev (hm.of (by decide))
    | split | (dsimp only; split)

theorem ledger_ev {m : Nat} {z0 : State} {t : Nat} {e : Entry} {s : State} (hm : Within 0x80100 m)
    (hev : Evolves m z0 s) :
    Evolves m z0 (ledger t e s) := by
  unfold ledger
  repeat' first
    | intro _ | with_reducible assumption | with_reducible apply Evolves.ite
    | with_reducible apply perfAdd_ev (hm.of (by decide)) | split | (dsimp only; split)

theorem handOver_ev {m : Nat} {z0 : State} {t r : Nat} {g : List Entry} {s : State} (hm : Within 0x480d00 m)
    (hev : Evolves m z0 s) :
    Evolves m z0 (handOver t r g s) := by
  unfold handOver
  repeat' first
    | intro _ | with_reducible assumption | with_reducible apply Evolves.ite
    | with_reducible apply modRing_ev (hm.of (by decide)) | with_reducible apply raise_ev (hm.of (by decide))
    | with_reducible apply cleanRange_ev (hm.of (by decide)) | with_reducible apply entryWrite_ev (hm.of (by decide))
    | with_reducible apply ledger_ev (hm.of (by decide)) | with_reducible apply forEach_ev | split
    | (dsimp only; split)

theorem drainLoop_ev {m : Nat} {z0 : State} {t r : Nat} {force : Bool} {n : Nat} {s : State} (hm : Within 0x480d00 m) (hev : Evolves m z0 s) :
    Evolves m z0 (drainLoop t r force n s) := by
  induction n generalizing s with
  | zero => exact hev
  | succ n ih =>
    unfold drainLoop
    repeat' first
      | intro _ | with_reducible assumption | with_reducible apply Evolves.ite | with_reducible apply ih
      | with_reducible apply modRing_ev (hm.of (by decide)) | with_reducible apply handOver_ev (hm.of (by decide))
      | split | (dsimp only; split)

theorem clockFix_ev {m : Nat} {z0 : State} {t r : Nat} {s : State} (hm : Within 0x400 m) (hev : Evolves m z0 s) :
    Evolves m z0 (clockFix t r s) := by
  unfold clockFix
  repeat' first
    | intro _ | with_reducible assumption | with_reducible apply Evolves.ite
    | with_reducible apply modRing_ev (hm.of (by decide)) | split | (dsimp only; split)

theorem stopCheck_ev {m : Nat} {z0 : State} {t r : Nat} {s : State} (hm : Within 0x400 m) (hev : Evolves m z0 s) :
    Evolves m z0 (stopCheck t r s) := by
  unfold stopCheck
  repeat' first
    | intro _ | with_reducible assumption | with_reducible apply Evolves.ite
    | with_reducible apply modRing_ev (hm.of (by decide)) | split | (dsimp only; split)

theorem drain_ev {m : Nat} {z0 : State} {t r : Nat} {force : Bool} {s : State} (hm : Within 0x480d00 m)
    (hev : Evolves m z0 s) :
    Evolves m z0 (drain t r force s) := by
  unfold drain
  repeat' first
    | intro _ | with_reducible assumption | with_reducible apply Evolves.ite
    | with_reducible apply drainLoop_ev (hm.of (by decide)) | with_reducible apply clockFix_ev (hm.of (by decide))
    | with_reducible apply stopCheck_ev (hm.of (by decide)) | split | (dsimp only; split)

theorem finishTx_ev {m : Nat} {z0 : State} {t r pos : Nat} {st : TxStatus} {len : Nat} {ts : Option Nat} {s : State} (hm : Within 0x480d00 m)
    (hev : Evolves m z0 s) :
    Evolves m z0 (finishTx t r pos st len ts s) := by
  unfold finishTx
  repeat' first
    | intro _ | with_reducible assumption | with_reducible apply Evolves.ite
    | with_reducible apply countRing_ev (hm.of (by decide)) | with_reducible apply entrySteps_ev (hm.of (by decide))
    | with_reducible apply drain_ev (hm.of (by decide)) | split | (dsimp only; split)

theorem finishOrigin_ev {m : Nat} {z0 : State} {o : Origin} {st : TxStatus} {len : Nat} {ts : Option Nat} {s : State} (hm : Within 0x480d00 m)
    (hev : Evolves m z0 s) :
    Evolves m z0 (finishOrigin o st len ts s) := by
  unfold finishOrigin
  repeat' first
    | intro _ | with_reducible assumption | with_reducible apply Evolves.ite
    | with_reducible apply finishTx_ev (hm.of (by decide)) | split | (dsimp only; split)

theorem recoverFix_ev {m : Nat} {z0 : State} {t : Nat} {r : Nat} {s : State} (hm : Within 0x400 m)
    (hev : Evolves m z0 s) : Evolves m z0 (recoverFix t r s) := by
  unfold recoverFix
  with_reducible apply modRing_ev (hm.of (by decide))
  assumption

theorem dropFetched_ev {m : Nat} {z0 : State} {t r : Nat} {s : State} (hm : Within 0x480500 m)
    (hev : Evolves m z0 s) :
    Evolves m z0 (dropFetched t r s) := by
  unfold dropFetched
  repeat' first
    | intro _ | with_reducible assumption | with_reducible apply Evolves.ite
    | with_reducible apply modRing_ev (hm.of (by decide)) | with_reducible apply readDrop_ev (hm.of (by decide))
    | with_reducible apply voidCycles_ev (hm.of (by decide)) | with_reducible apply recoverFix_ev (hm.of (by decide))
    | split | (dsimp only; split)

theorem dropPrefetched_ev {m : Nat} {z0 : State} {t r : Nat} {s : State} (hm : Within 0x480500 m)
    (hev : Evolves m z0 s) :
    Evolves m z0 (dropPrefetched t r s) := by
  unfold dropPrefetched
  repeat' first
    | intro _ | with_reducible assumption | with_reducible apply Evolves.ite
    | with_reducible apply modRing_ev (hm.of (by decide)) | with_reducible apply readDrop_ev (hm.of (by decide))
    | with_reducible apply voidCycles_ev (hm.of (by decide)) | with_reducible apply keepSlots_ev (hm.of (by decide))
    | with_reducible apply recoverFix_ev (hm.of (by decide)) | split | (dsimp only; split)

theorem dropQueued_ev {m : Nat} {z0 : State} {t r : Nat} {st : TxStatus} {s : State} (hm : Within 0x485d00 m)
    (hev : Evolves m z0 s) :
    Evolves m z0 (dropQueued t r st s) := by
  unfold dropQueued
  repeat' first
    | intro _ | with_reducible assumption | with_reducible apply Evolves.ite
    | with_reducible apply dropItems_ev (hm.of (by decide)) | with_reducible apply finishOrigin_ev (hm.of (by decide))
    | with_reducible apply forEach_ev | split | (dsimp only; split)

theorem dropRefs_ev {m : Nat} {z0 : State} {t r : Nat} {s : State} (hm : Within 0x5500 m) (hev : Evolves m z0 s) :
    Evolves m z0 (dropRefs t r s) := by
  unfold dropRefs
  repeat' first
    | intro _ | with_reducible assumption | with_reducible apply Evolves.ite
    | with_reducible apply modRing_ev (hm.of (by decide)) | with_reducible apply countRing_ev (hm.of (by decide))
    | with_reducible apply release_ev (hm.of (by decide)) | with_reducible apply forEach_ev | split
    | (dsimp only; split)

theorem flushStart_ev {m : Nat} {z0 : State} {t r : Nat} {s : State} (hm : Within 0x485d00 m) (hev : Evolves m z0 s) :
    Evolves m z0 (flushStart t r s) := by
  unfold flushStart
  repeat' first
    | intro _ | with_reducible assumption | with_reducible apply Evolves.ite
    | with_reducible apply modTen_ev (hm.of (by decide)) | with_reducible apply modRing_ev (hm.of (by decide))
    | with_reducible apply readDrop_ev (hm.of (by decide)) | with_reducible apply drain_ev (hm.of (by decide))
    | with_reducible apply finishTx_ev (hm.of (by decide)) | with_reducible apply recoverFix_ev (hm.of (by decide))
    | with_reducible apply dropFetched_ev (hm.of (by decide)) | with_reducible apply dropQueued_ev (hm.of (by decide))
    | with_reducible apply dropRefs_ev (hm.of (by decide)) | with_reducible apply forEach_ev | split
    | (dsimp only; split)

theorem flushEnd_ev {m : Nat} {z0 : State} {t r : Nat} {s : State} (hm : Within 0x480d00 m) (hev : Evolves m z0 s) :
    Evolves m z0 (flushEnd t r s) := by
  unfold flushEnd
  repeat' first
    | intro _ | with_reducible assumption | with_reducible apply Evolves.ite
    | with_reducible apply modRing_ev (hm.of (by decide)) | with_reducible apply clockFix_ev (hm.of (by decide))
    | with_reducible apply stopCheck_ev (hm.of (by decide)) | with_reducible apply drain_ev (hm.of (by decide))
    | split | (dsimp only; split)

theorem flushNow_ev {m : Nat} {z0 : State} {t r : Nat} {s : State} (hm : Within 0x485d00 m) (hev : Evolves m z0 s) :
    Evolves m z0 (flushNow t r s) := by
  unfold flushNow
  repeat' first
    | intro _ | with_reducible assumption | with_reducible apply Evolves.ite
    | with_reducible apply flushStart_ev (hm.of (by decide)) | with_reducible apply flushEnd_ev (hm.of (by decide))
    | split | (dsimp only; split)

theorem ringAbandon_ev {m : Nat} {z0 : State} {t r : Nat} {s : State} (hm : Within 0x485500 m)
    (hev : Evolves m z0 s) :
    Evolves m z0 (ringAbandon t r s) := by
  unfold ringAbandon
  repeat' first
    | intro _ | with_reducible assumption | with_reducible apply Evolves.ite
    | with_reducible apply modTen_ev (hm.of (by decide)) | with_reducible apply modRing_ev (hm.of (by decide))
    | with_reducible apply readDrop_ev (hm.of (by decide)) | with_reducible apply countRing_ev (hm.of (by decide))
    | with_reducible apply dropItems_ev (hm.of (by decide)) | with_reducible apply voidCycles_ev (hm.of (by decide))
    | with_reducible apply dropFetched_ev (hm.of (by decide)) | with_reducible apply dropRefs_ev (hm.of (by decide))
    | split | (dsimp only; split)

end Sys2Proof.Machine
end

