-- ==== Sys2Proof/Laws/EvolveChannels.lean ====
section
/-! SUPPORT. What every operation of Machine/Channels.lean may change, and the promises it keeps (Evolves). -/

set_option Elab.async false

set_option linter.unusedTactic false
set_option linter.unreachableTactic false

namespace Sys2Proof.Machine

theorem endChan_ev {m : Nat} {z0 : State} {c err : Nat} {s : State} (hm : Within 0x100100 m) (hev : Evolves m z0 s) :
    Evolves m z0 (endChan c err s) := by
  unfold endChan
  repeat' first
    | intro _ | with_reducible assumption | with_reducible apply Evolves.ite
    | with_reducible apply modChan_ev (hm.of (by decide)) | with_reducible apply raise_ev (hm.of (by decide)) | split
    | (dsimp only; split)

theorem abortChan_ev {m : Nat} {z0 : State} {c : Nat} {s : State} (hm : Within 0x100100 m) (hev : Evolves m z0 s) :
    Evolves m z0 (abortChan c s) := by
  unfold abortChan
  repeat' first
    | intro _ | with_reducible assumption | with_reducible apply Evolves.ite
    | with_reducible apply endChan_ev (hm.of (by decide)) | split | (dsimp only; split)

theorem abortPair_ev {m : Nat} {z0 : State} {t : Nat} {s : State} (hm : Within 0x100100 m) (hev : Evolves m z0 s) :
    Evolves m z0 (abortPair t s) := by
  unfold abortPair
  repeat' first
    | intro _ | with_reducible assumption | with_reducible apply Evolves.ite
    | with_reducible apply abortChan_ev (hm.of (by decide)) | split | (dsimp only; split)

theorem chanMark_ev {m : Nat} {z0 : State} {c : Nat} {whole : Bool} {s : State} (hm : Within 0x100000 m)
    (hev : Evolves m z0 s) :
    Evolves m z0 (chanMark c whole s) := by
  unfold chanMark
  repeat' first
    | intro _ | with_reducible assumption | with_reducible apply Evolves.ite
    | with_reducible apply modChan_ev (hm.of (by decide)) | split | (dsimp only; split)

theorem chanSettle_ev {m : Nat} {z0 : State} {c : Nat} {s : State} (hm : Within 0x180100 m) (hev : Evolves m z0 s) :
    Evolves m z0 (chanSettle c s) := by
  unfold chanSettle
  repeat' first
    | intro _ | with_reducible assumption | with_reducible apply Evolves.ite
    | with_reducible apply modChan_ev (hm.of (by decide)) | with_reducible apply perfAdd_ev (hm.of (by decide))
    | with_reducible apply endChan_ev (hm.of (by decide)) | split | (dsimp only; split)

theorem endWith_ev {m : Nat} {z0 : State} {c err : Nat} {s : State} (hm : Within 0x180100 m) (hev : Evolves m z0 s) :
    Evolves m z0 (endWith c err s) := by
  unfold endWith
  repeat' first
    | intro _ | with_reducible assumption | with_reducible apply Evolves.ite
    | with_reducible apply modChan_ev (hm.of (by decide)) | with_reducible apply chanSettle_ev (hm.of (by decide))
    | split | (dsimp only; split)

theorem abortReq_ev {m : Nat} {z0 : State} {c : Nat} {s : State} (hm : Within 0x180100 m) (hev : Evolves m z0 s) :
    Evolves m z0 (abortReq c s) := by
  unfold abortReq
  repeat' first
    | intro _ | with_reducible assumption | with_reducible apply Evolves.ite
    | with_reducible apply endWith_ev (hm.of (by decide)) | split | (dsimp only; split)

theorem faultPair_ev {m : Nat} {z0 : State} {t : Nat} {s : State} (hm : Within 0x180100 m) (hev : Evolves m z0 s) :
    Evolves m z0 (faultPair t s) := by
  unfold faultPair
  repeat' first
    | intro _ | with_reducible assumption | with_reducible apply Evolves.ite
    | with_reducible apply abortReq_ev (hm.of (by decide)) | split | (dsimp only; split)

theorem issueRead_ev {m : Nat} {z0 : State} {c : Nat} {r : ChanRead} {s : State} (hm : Within 0x380900 m)
    (hev : Evolves m z0 s) :
    Evolves m z0 (issueRead c r s) := by
  unfold issueRead
  repeat' first
    | intro _ | with_reducible assumption | with_reducible apply Evolves.ite
    | with_reducible apply modLink_ev (hm.of (by decide)) | with_reducible apply modChan_ev (hm.of (by decide))
    | with_reducible apply perfAdd_ev (hm.of (by decide)) | with_reducible apply endWith_ev (hm.of (by decide))
    | split | (dsimp only; split) | with_reducible refine Evolves.set_lastChan (hm.bit (by decide)) ?_

theorem countBurst_ev {m : Nat} {z0 : State} {c : Nat} {s : State} (hm : Within 0x80100 m) (hev : Evolves m z0 s) :
    Evolves m z0 (countBurst c s) := by
  unfold countBurst
  repeat' first
    | intro _ | with_reducible assumption | with_reducible apply Evolves.ite
    | with_reducible apply perfAdd_ev (hm.of (by decide)) | split | (dsimp only; split)

theorem hostRequest_ev {m : Nat} {z0 : State} {c : Nat} {s : State} (hm : Within 0x380900 m) (hev : Evolves m z0 s) :
    Evolves m z0 (hostRequest c s) := by
  unfold hostRequest
  repeat' first
    | intro _ | with_reducible assumption | with_reducible apply Evolves.ite
    | with_reducible apply modChan_ev (hm.of (by decide)) | with_reducible apply endWith_ev (hm.of (by decide))
    | with_reducible apply issueRead_ev (hm.of (by decide)) | with_reducible apply countBurst_ev (hm.of (by decide))
    | split | (dsimp only; split)

theorem ringTurn_ev {m : Nat} {z0 : State} {t n : Nat} {s : State} (hm : Within 0x380900 m) (hev : Evolves m z0 s) :
    Evolves m z0 (ringTurn t n s) := by
  induction n generalizing s with
  | zero => exact hev
  | succ n ih =>
    unfold ringTurn
    repeat' first
      | intro _ | with_reducible assumption | with_reducible apply Evolves.ite | with_reducible apply ih
      | with_reducible apply modLink_ev (hm.of (by decide)) | with_reducible apply hostRequest_ev (hm.of (by decide))
      | split | (dsimp only; split)

end Sys2Proof.Machine
end

