-- ==== Sys2Proof/Laws/EvolveTenancy.lean ====
section
/-! SUPPORT. What every operation of Machine/Tenancy.lean may change, and the promises it keeps (Evolves). -/

set_option Elab.async false

set_option linter.unusedTactic false
set_option linter.unreachableTactic false

namespace Sys2Proof.Machine

theorem breakLocks_ev {m : Nat} {z0 : State} {w : Nat} {s : State} (hm : Within 0x300 m) (hev : Evolves m z0 s) :
    Evolves m z0 (breakLocks w s) := by
  unfold breakLocks
  repeat' first
    | intro _ | with_reducible assumption | with_reducible apply Evolves.ite
    | with_reducible apply modLock_ev (hm.of (by decide)) | with_reducible apply raise_ev (hm.of (by decide))
    | with_reducible apply forAll_ev | split | (dsimp only; split)

theorem lockOp_ev {m : Nat} {z0 : State} {w k op : Nat} {s : State} (hm : Within 0x210 m) (hev : Evolves m z0 s) :
    Evolves m z0 (lockOp w k op s) := by
  unfold lockOp
  repeat' first
    | intro _ | with_reducible assumption | with_reducible apply Evolves.ite
    | with_reducible apply modWin_ev (hm.of (by decide)) | with_reducible apply modLock_ev (hm.of (by decide)) | split
    | (dsimp only; split)

theorem frRestart_ev {m : Nat} {z0 : State} {t : Nat} {s : State} (hm : Within 0x400 m) (hev : Evolves m z0 s) :
    Evolves m z0 (frRestart t s) := by
  unfold frRestart
  repeat' first
    | intro _ | with_reducible assumption | with_reducible apply Evolves.ite
    | with_reducible apply modTen_ev (hm.of (by decide)) | split | (dsimp only; split)

theorem frSettle_ev {m : Nat} {z0 : State} {t : Nat} {s : State} (hm : Within 0x400 m) (hev : Evolves m z0 s) :
    Evolves m z0 (frSettle t s) := by
  unfold frSettle
  repeat' first
    | intro _ | with_reducible assumption | with_reducible apply Evolves.ite
    | with_reducible apply frRestart_ev (hm.of (by decide)) | split | (dsimp only; split)

theorem pushFail_ev {m : Nat} {z0 : State} {t : Nat} {r : FaultRec} {s : State} (hm : Within 0x4000500 m)
    (hev : Evolves m z0 s) :
    Evolves m z0 (pushFail t r s) := by
  unfold pushFail
  repeat' first
    | intro _ | with_reducible assumption | with_reducible apply Evolves.ite
    | with_reducible apply modTen_ev (hm.of (by decide)) | with_reducible apply raise_ev (hm.of (by decide))
    | with_reducible apply logFault_ev (hm.of (by decide)) | with_reducible apply frSettle_ev (hm.of (by decide))
    | split | (dsimp only; split)

theorem pushStart_ev {m : Nat} {z0 : State} {t : Nat} {r : FaultRec} {s : State} (hm : Within 0x4080d00 m)
    (hev : Evolves m z0 s) :
    Evolves m z0 (pushStart t r s) := by
  unfold pushStart
  repeat' first
    | intro _ | with_reducible assumption | with_reducible apply Evolves.ite
    | with_reducible apply modTen_ev (hm.of (by decide)) | with_reducible apply perfAdd_ev (hm.of (by decide))
    | with_reducible apply post_ev (hm.of (by decide)) | with_reducible apply pushFail_ev (hm.of (by decide)) | split
    | (dsimp only; split)

theorem stoppedCheck_ev {m : Nat} {z0 : State} {t : Nat} {s : State} (hm : Within 0x400 m) (hev : Evolves m z0 s) :
    Evolves m z0 (stoppedCheck t s) := by
  unfold stoppedCheck
  repeat' first
    | intro _ | with_reducible assumption | with_reducible apply Evolves.ite
    | with_reducible apply modTen_ev (hm.of (by decide)) | split | (dsimp only; split)

theorem faultActions_ev {m : Nat} {z0 : State} {t : Nat} {s : State} (hm : Within 0x585f00 m) (hev : Evolves m z0 s) :
    Evolves m z0 (faultActions t s) := by
  unfold faultActions
  repeat' first
    | intro _ | with_reducible assumption | with_reducible apply Evolves.ite
    | with_reducible apply modTen_ev (hm.of (by decide)) | with_reducible apply flushNow_ev (hm.of (by decide))
    | with_reducible apply faultPair_ev (hm.of (by decide)) | with_reducible apply breakLocks_ev (hm.of (by decide))
    | with_reducible apply stoppedCheck_ev (hm.of (by decide)) | with_reducible apply forAll_ev | split
    | (dsimp only; split)

theorem tenantFault_ev {m : Nat} {z0 : State} {t bit ringNo : Nat} {rx : Bool} {cpl arg0 arg1 info : Nat} {s : State} (hm : Within 0x4585f00 m)
    (hev : Evolves m z0 s) :
    Evolves m z0 (tenantFault t bit ringNo rx cpl arg0 arg1 info s) := by
  unfold tenantFault
  repeat' first
    | intro _ | with_reducible assumption | with_reducible apply Evolves.ite
    | with_reducible apply modTen_ev (hm.of (by decide)) | with_reducible apply raise_ev (hm.of (by decide))
    | with_reducible apply logFault_ev (hm.of (by decide)) | with_reducible apply pushStart_ev (hm.of (by decide))
    | with_reducible apply faultActions_ev (hm.of (by decide)) | split | (dsimp only; split)

theorem pushFailEnter_ev {m : Nat} {z0 : State} {t : Nat} {s : State} (hm : Within 0x4585f00 m)
    (hev : Evolves m z0 s) :
    Evolves m z0 (pushFailEnter t s) := by
  unfold pushFailEnter
  repeat' first
    | intro _ | with_reducible assumption | with_reducible apply Evolves.ite
    | with_reducible apply pushFail_ev (hm.of (by decide)) | with_reducible apply faultActions_ev (hm.of (by decide))
    | split | (dsimp only; split)

theorem pushGood_ev {m : Nat} {z0 : State} {t : Nat} {s : State} (hm : Within 0x4585f00 m) (hev : Evolves m z0 s) :
    Evolves m z0 (pushGood t s) := by
  unfold pushGood
  repeat' first
    | intro _ | with_reducible assumption | with_reducible apply Evolves.ite
    | with_reducible apply modTen_ev (hm.of (by decide)) | with_reducible apply frSettle_ev (hm.of (by decide))
    | with_reducible apply pushStart_ev (hm.of (by decide)) | with_reducible apply faultActions_ev (hm.of (by decide))
    | split | (dsimp only; split)

theorem faultClear_ev {m : Nat} {z0 : State} {t mask : Nat} {cause : Option Nat} {s : State} (hm : Within 0x4585f00 m)
    (hev : Evolves m z0 s) :
    Evolves m z0 (faultClear t mask cause s) := by
  unfold faultClear
  repeat' first
    | intro _ | with_reducible assumption | with_reducible apply Evolves.ite
    | with_reducible apply modTen_ev (hm.of (by decide)) | with_reducible apply tenantFault_ev (hm.of (by decide))
    | split | (dsimp only; split)

theorem pushAbandon_ev {m : Nat} {z0 : State} {t : Nat} {s : State} (hm : Within 0x4000500 m) (hev : Evolves m z0 s) :
    Evolves m z0 (pushAbandon t s) := by
  unfold pushAbandon
  repeat' first
    | intro _ | with_reducible assumption | with_reducible apply Evolves.ite
    | with_reducible apply pushFail_ev (hm.of (by decide)) | split | (dsimp only; split)

theorem orphanFrames_ev {m : Nat} {z0 : State} {t : Nat} {s : State} (hm : Within 0x4000 m) (hev : Evolves m z0 s) :
    Evolves m z0 (orphanFrames t s) := by
  unfold orphanFrames
  repeat' first
    | intro _ | with_reducible assumption | with_reducible apply Evolves.ite | split | (dsimp only; split)
    | with_reducible refine Evolves.set_ports (hm.bit (by decide)) ?_

theorem tenantResetStart_ev {m : Nat} {z0 : State} {t : Nat} {s : State} (hm : Within 0x4585700 m)
    (hev : Evolves m z0 s) :
    Evolves m z0 (tenantResetStart t s) := by
  unfold tenantResetStart
  repeat' first
    | intro _ | with_reducible assumption | with_reducible apply Evolves.ite
    | with_reducible apply modTen_ev (hm.of (by decide)) | with_reducible apply ringAbandon_ev (hm.of (by decide))
    | with_reducible apply abortPair_ev (hm.of (by decide)) | with_reducible apply breakLocks_ev (hm.of (by decide))
    | with_reducible apply pushAbandon_ev (hm.of (by decide))
    | with_reducible apply orphanFrames_ev (hm.of (by decide)) | with_reducible apply forEach_ev | split
    | (dsimp only; split)

theorem windowReset_ev {m : Nat} {z0 : State} {w : Nat} {s : State} (hm : Within 0x10 m) (hev : Evolves m z0 s) :
    Evolves m z0 (windowReset w s) := by
  unfold windowReset
  repeat' first
    | intro _ | with_reducible assumption | with_reducible apply Evolves.ite
    | with_reducible apply modWin_ev (hm.of (by decide)) | split | (dsimp only; split)

theorem tenantParams_ev {m : Nat} {z0 : State} {t : Nat} {s : State} (hm : Within 0x80 m) (hev : Evolves m z0 s) :
    Evolves m z0 (tenantParams t s) := by
  unfold tenantParams
  repeat' first
    | intro _ | with_reducible assumption | with_reducible apply Evolves.ite
    | with_reducible apply peak_ev (hm.of (by decide)) | split | (dsimp only; split)
    | with_reducible refine Evolves.set_params (hm.bit (by decide)) ?_

theorem tenantResetSteps_ev {m : Nat} {z0 : State} {t : Nat} {s : State} (hm : Within 0x4585590 m)
    (hev : Evolves m z0 s) :
    Evolves m z0 (tenantResetSteps t s) := by
  unfold tenantResetSteps
  repeat' first
    | intro _ | with_reducible assumption | with_reducible apply Evolves.ite
    | with_reducible apply modTen_ev (hm.of (by decide)) | with_reducible apply modChan_ev (hm.of (by decide))
    | with_reducible apply clearTable_ev (hm.of (by decide))
    | with_reducible apply partitionReset_ev (hm.of (by decide))
    | with_reducible apply ringAbandon_ev (hm.of (by decide))
    | with_reducible apply pushAbandon_ev (hm.of (by decide))
    | with_reducible apply windowReset_ev (hm.of (by decide))
    | with_reducible apply tenantParams_ev (hm.of (by decide)) | with_reducible apply forEach_ev | split
    | (dsimp only; split)

theorem tenantResetEnd_ev {m : Nat} {z0 : State} {t : Nat} {s : State} (hm : Within 0x4585590 m)
    (hev : Evolves m z0 s) :
    Evolves m z0 (tenantResetEnd t s) := by
  unfold tenantResetEnd
  repeat' first
    | intro _ | with_reducible assumption | with_reducible apply Evolves.ite
    | with_reducible apply modTen_ev (hm.of (by decide)) | with_reducible apply raise_ev (hm.of (by decide))
    | with_reducible apply tenantResetSteps_ev (hm.of (by decide)) | split | (dsimp only; split)

end Sys2Proof.Machine
end

