-- ==== Sys2Proof/Laws/EvolveRingEngine.lean ====
section
/-! SUPPORT. What every operation of Machine/RingEngine.lean may change, and the promises it keeps (Evolves). -/

set_option Elab.async false

set_option linter.unusedTactic false
set_option linter.unreachableTactic false

namespace Sys2Proof.Machine

theorem ringRead_ev {m : Nat} {z0 : State} {t a n who : Nat} {s : State} (hm : Within 0x780900 m)
    (hev : Evolves m z0 s) :
    Evolves m z0 (ringRead t a n who s) := by
  unfold ringRead
  repeat' first
    | intro _ | with_reducible assumption | with_reducible apply Evolves.ite
    | with_reducible apply readIssue_ev (hm.of (by decide)) | with_reducible apply ringTurn_ev (hm.of (by decide))
    | split | (dsimp only; split)

theorem fetchNext_ev {m : Nat} {z0 : State} {t r : Nat} {s : State} (hm : Within 0x780d00 m) (hev : Evolves m z0 s) :
    Evolves m z0 (fetchNext t r s) := by
  unfold fetchNext
  repeat' first
    | intro _ | with_reducible assumption | with_reducible apply Evolves.ite
    | with_reducible apply modRing_ev (hm.of (by decide)) | with_reducible apply engineSteps_ev (hm.of (by decide))
    | with_reducible apply ringRead_ev (hm.of (by decide)) | split | (dsimp only; split)

theorem dropSlots_ev {m : Nat} {z0 : State} {t r n lo hi : Nat} {s : State} (hm : Within 0x80500 m)
    (hev : Evolves m z0 s) :
    Evolves m z0 (dropSlots t r n lo hi s) := by
  unfold dropSlots
  repeat' first
    | intro _ | with_reducible assumption | with_reducible apply Evolves.ite
    | with_reducible apply keepSlots_ev (hm.of (by decide)) | split | (dsimp only; split)

theorem ownZero_ev {m : Nat} {z0 : State} {t r : Nat} {s : State} (hm : Within 0x80500 m) (hev : Evolves m z0 s) :
    Evolves m z0 (ownZero t r s) := by
  unfold ownZero
  repeat' first
    | intro _ | with_reducible assumption | with_reducible apply Evolves.ite
    | with_reducible apply modRing_ev (hm.of (by decide)) | with_reducible apply countRing_ev (hm.of (by decide))
    | with_reducible apply keepSlots_ev (hm.of (by decide)) | split | (dsimp only; split)

theorem takeEntry_ev {m : Nat} {z0 : State} {t r n off : Nat} {e : Entry} {s : State} (hm : Within 0x80500 m)
    (hev : Evolves m z0 s) :
    Evolves m z0 (takeEntry t r n off e s) := by
  unfold takeEntry
  repeat' first
    | intro _ | with_reducible assumption | with_reducible apply Evolves.ite
    | with_reducible apply modRing_ev (hm.of (by decide)) | with_reducible apply engineSteps_ev (hm.of (by decide))
    | split | (dsimp only; split)

/-- The state a parsing step leaves. -/
abbrev ParseStep.left : ParseStep → State
  | .stop s => s
  | .more s => s

theorem ParseStep.stop_ev {m : Nat} {z0 u : State} (h : Evolves m z0 u) : Evolves m z0 (ParseStep.stop u).left := h

theorem ParseStep.left_ite {m : Nat} {z0 : State} {c : Prop} [Decidable c] {p q : ParseStep} (h : Evolves m z0 p.left)
    (k : Evolves m z0 q.left) : Evolves m z0 (if c then p else q).left := by
  by_cases hc : c
  · rw [if_pos hc]; exact h
  · rw [if_neg hc]; exact k

theorem parseOne_ev {m : Nat} {z0 : State} {t r : Nat} {s : State} (hm : Within 0x4585f00 m) (hev : Evolves m z0 s) :
    Evolves m z0 (parseOne t r s).left := by
  unfold parseOne
  dsimp only
  repeat' first
    | with_reducible assumption | with_reducible apply ParseStep.left_ite | with_reducible apply Evolves.ite
    | with_reducible apply modRing_ev (hm.of (by decide)) | with_reducible apply countRing_ev (hm.of (by decide))
    | with_reducible apply tenantFault_ev (hm.of (by decide)) | with_reducible apply dropSlots_ev (hm.of (by decide))
    | with_reducible apply ownZero_ev (hm.of (by decide)) | with_reducible apply takeEntry_ev (hm.of (by decide))
    | split | apply ParseStep.stop_ev

theorem parseLoop_ev {m : Nat} {z0 : State} {t r n : Nat} {s : State} (hm : Within 0x4585f00 m) (hev : Evolves m z0 s) : Evolves m z0 (parseLoop t r n s) := by
  induction n generalizing s with
  | zero => exact hev
  | succ n ih =>
    unfold parseLoop
    have hp := parseOne_ev (hm.of (by decide)) (t := t) (r := r) hev
    split <;> rename_i he <;> rw [he] at hp
    · exact hp
    · exact ih hp

theorem serve_ev {m : Nat} {z0 : State} {t r : Nat} {s : State} (hm : Within 0x4785f00 m) (hev : Evolves m z0 s) :
    Evolves m z0 (serve t r s) := by
  unfold serve
  repeat' first
    | intro _ | with_reducible assumption | with_reducible apply Evolves.ite
    | with_reducible apply drain_ev (hm.of (by decide)) | with_reducible apply fetchNext_ev (hm.of (by decide))
    | with_reducible apply parseLoop_ev (hm.of (by decide)) | split | (dsimp only; split)

theorem linkServe_ev {m : Nat} {z0 : State} {t : Nat} {s : State} (hm : Within 0x4785f00 m) (hev : Evolves m z0 s) :
    Evolves m z0 (linkServe t s) := by
  unfold linkServe
  repeat' first
    | intro _ | with_reducible assumption | with_reducible apply Evolves.ite
    | with_reducible apply serve_ev (hm.of (by decide)) | with_reducible apply forEach_ev | split
    | (dsimp only; split)

theorem serviceBegin_ev {m : Nat} {z0 : State} {s : State} (hm : Within 0x4785f00 m) (hev : Evolves m z0 s) :
    Evolves m z0 (serviceBegin s) := by
  unfold serviceBegin
  repeat' first
    | intro _ | with_reducible assumption | with_reducible apply Evolves.ite
    | with_reducible apply linkServe_ev (hm.of (by decide)) | with_reducible apply forAll_ev | split
    | (dsimp only; split)

theorem doorbell_ev {m : Nat} {z0 : State} {t r : Nat} {d : Word} {s : State} (hm : Within 0x4785f00 m)
    (hev : Evolves m z0 s) :
    Evolves m z0 (doorbell t r d s) := by
  unfold doorbell
  repeat' first
    | intro _ | with_reducible assumption | with_reducible apply Evolves.ite
    | with_reducible apply modRing_ev (hm.of (by decide)) | with_reducible apply countRing_ev (hm.of (by decide))
    | with_reducible apply keepSlots_ev (hm.of (by decide)) | with_reducible apply tenantFault_ev (hm.of (by decide))
    | with_reducible apply serve_ev (hm.of (by decide)) | split | (dsimp only; split)

theorem txBell_ev {m : Nat} {z0 : State} {t : Nat} {d : Word} {s : State} (hm : Within 0x4785f00 m)
    (hev : Evolves m z0 s) :
    Evolves m z0 (txBell t d s) := by
  unfold txBell
  repeat' first
    | intro _ | with_reducible assumption | with_reducible apply Evolves.ite
    | with_reducible apply doorbell_ev (hm.of (by decide)) | split | (dsimp only; split)

theorem rxBell_ev {m : Nat} {z0 : State} {t : Nat} {d : Word} {s : State} (hm : Within 0x4785f00 m)
    (hev : Evolves m z0 s) :
    Evolves m z0 (rxBell t d s) := by
  unfold rxBell
  repeat' first
    | intro _ | with_reducible assumption | with_reducible apply Evolves.ite
    | with_reducible apply doorbell_ev (hm.of (by decide)) | split | (dsimp only; split)

theorem ringEnable_ev {m : Nat} {z0 : State} {t r : Nat} {s : State} (hm : Within 0x400 m) (hev : Evolves m z0 s) :
    Evolves m z0 (ringEnable t r s) := by
  unfold ringEnable
  repeat' first
    | intro _ | with_reducible assumption | with_reducible apply Evolves.ite
    | with_reducible apply modRing_ev (hm.of (by decide)) | with_reducible apply stopCheck_ev (hm.of (by decide))
    | split | (dsimp only; split)

theorem ringDisable_ev {m : Nat} {z0 : State} {t r : Nat} {s : State} (hm : Within 0x485d00 m)
    (hev : Evolves m z0 s) :
    Evolves m z0 (ringDisable t r s) := by
  unfold ringDisable
  repeat' first
    | intro _ | with_reducible assumption | with_reducible apply Evolves.ite
    | with_reducible apply modRing_ev (hm.of (by decide)) | with_reducible apply flushStart_ev (hm.of (by decide))
    | split | (dsimp only; split)

theorem ringFlush_ev {m : Nat} {z0 : State} {t r : Nat} {s : State} (hm : Within 0x485d00 m) (hev : Evolves m z0 s) :
    Evolves m z0 (ringFlush t r s) := by
  unfold ringFlush
  repeat' first
    | intro _ | with_reducible assumption | with_reducible apply Evolves.ite
    | with_reducible apply modRing_ev (hm.of (by decide)) | with_reducible apply flushStart_ev (hm.of (by decide))
    | split | (dsimp only; split)

theorem ringStop_ev {m : Nat} {z0 : State} {t r : Nat} {s : State} (hm : Within 0x480d00 m) (hev : Evolves m z0 s) :
    Evolves m z0 (ringStop t r s) := by
  unfold ringStop
  repeat' first
    | intro _ | with_reducible assumption | with_reducible apply Evolves.ite
    | with_reducible apply modRing_ev (hm.of (by decide)) | with_reducible apply drain_ev (hm.of (by decide))
    | with_reducible apply dropFetched_ev (hm.of (by decide)) | split | (dsimp only; split)

theorem ringResume_ev {m : Nat} {z0 : State} {t r : Nat} {s : State} (hm : Within 0x4785f00 m)
    (hev : Evolves m z0 s) :
    Evolves m z0 (ringResume t r s) := by
  unfold ringResume
  repeat' first
    | intro _ | with_reducible assumption | with_reducible apply Evolves.ite
    | with_reducible apply modRing_ev (hm.of (by decide)) | with_reducible apply serve_ev (hm.of (by decide)) | split
    | (dsimp only; split)

theorem ringCtlWrite_ev {m : Nat} {z0 : State} {t r v : Nat} {s : State} (hm : Within 0x4785f00 m)
    (hev : Evolves m z0 s) :
    Evolves m z0 (ringCtlWrite t r v s) := by
  unfold ringCtlWrite
  repeat' first
    | intro _ | with_reducible assumption | with_reducible apply Evolves.ite
    | with_reducible apply modRing_ev (hm.of (by decide)) | with_reducible apply ringEnable_ev (hm.of (by decide))
    | with_reducible apply ringDisable_ev (hm.of (by decide)) | with_reducible apply ringFlush_ev (hm.of (by decide))
    | with_reducible apply ringStop_ev (hm.of (by decide)) | with_reducible apply ringResume_ev (hm.of (by decide))
    | split | (dsimp only; split)

theorem engineWrite_ev {m : Nat} {z0 : State} {t : Nat} {on : Bool} {s : State} (hm : Within 0x4785f00 m)
    (hev : Evolves m z0 s) :
    Evolves m z0 (engineWrite t on s) := by
  unfold engineWrite
  repeat' first
    | intro _ | with_reducible assumption | with_reducible apply Evolves.ite
    | with_reducible apply modTen_ev (hm.of (by decide)) | with_reducible apply clockFix_ev (hm.of (by decide))
    | with_reducible apply dropPrefetched_ev (hm.of (by decide)) | with_reducible apply serve_ev (hm.of (by decide))
    | with_reducible apply forEach_ev | split | (dsimp only; split)

theorem drr_ev {m : Nat} {z0 : State} {t n : Nat} {s : State} (hm : Within 0x400 m) (hev : Evolves m z0 s) :
    Evolves m z0 ((drr t n s).2) := by
  induction n generalizing s with
  | zero => exact hev
  | succ n ih =>
    unfold drr
    repeat' first
      | intro _ | with_reducible assumption | with_reducible apply Evolves.ite | with_reducible apply Evolves.ite_snd
      | with_reducible apply Evolves.ite_third | with_reducible apply ih
      | with_reducible apply modTen_ev (hm.of (by decide)) | with_reducible apply modRing_ev (hm.of (by decide))
      | split | (dsimp only; split)

theorem drrPay_ev {m : Nat} {z0 : State} {t r len : Nat} {s : State} (hm : Within 0x400 m) (hev : Evolves m z0 s) :
    Evolves m z0 (drrPay t r len s) := by
  unfold drrPay
  repeat' first
    | intro _ | with_reducible assumption | with_reducible apply Evolves.ite
    | with_reducible apply modTen_ev (hm.of (by decide)) | with_reducible apply modRing_ev (hm.of (by decide)) | split
    | (dsimp only; split)

theorem chooseRing_ev {m : Nat} {z0 : State} {t : Nat} {s : State} (hm : Within 0x400 m) (hev : Evolves m z0 s) :
    Evolves m z0 (chooseRing t s).2 := by
  unfold chooseRing
  repeat' first
    | intro _ | with_reducible assumption | with_reducible apply Evolves.ite | with_reducible apply Evolves.ite_snd
    | with_reducible apply drr_ev (hm.of (by decide)) | split | (dsimp only; split)
    | refine Evolves.snd (by assumption) ?_

theorem readBuffer_ev {m : Nat} {z0 : State} {t : Nat} {s : State} (hm : Within 0x780d00 m) (hev : Evolves m z0 s) :
    Evolves m z0 (readBuffer t s) := by
  unfold readBuffer
  repeat' first
    | intro _ | with_reducible assumption | with_reducible apply Evolves.ite
    | with_reducible apply modTen_ev (hm.of (by decide)) | with_reducible apply ringRead_ev (hm.of (by decide))
    | split | (dsimp only; split)

theorem takeFrame_ev {m : Nat} {z0 : State} {t r : Nat} {s : State} (hm : Within 0x4785f00 m) (hev : Evolves m z0 s) :
    Evolves m z0 (takeFrame t r s) := by
  unfold takeFrame
  repeat' first
    | intro _ | with_reducible assumption | with_reducible apply Evolves.ite
    | with_reducible apply modTen_ev (hm.of (by decide)) | with_reducible apply entrySteps_ev (hm.of (by decide))
    | with_reducible apply finishTx_ev (hm.of (by decide)) | with_reducible apply serve_ev (hm.of (by decide))
    | with_reducible apply drrPay_ev (hm.of (by decide)) | with_reducible apply readBuffer_ev (hm.of (by decide))
    | split | (dsimp only; split)

theorem txCatchUp_ev {m : Nat} {z0 : State} {t : Nat} {s : State} (hm : Within 0x4785f00 m) (hev : Evolves m z0 s) :
    Evolves m z0 (txCatchUp t s) := by
  unfold txCatchUp
  repeat' first
    | intro _ | with_reducible assumption | with_reducible apply Evolves.ite
    | with_reducible apply serve_ev (hm.of (by decide)) | with_reducible apply forEach_ev | split
    | (dsimp only; split)

theorem txScheduleEffect_ev {m : Nat} {z0 : State} {t : Nat} {s : State} (hm : Within 0x4785f00 m)
    (hev : Evolves m z0 s) :
    Evolves m z0 (txScheduleEffect t s) := by
  unfold txScheduleEffect
  repeat' first
    | intro _ | with_reducible assumption | with_reducible apply Evolves.ite
    | with_reducible apply chooseRing_ev (hm.of (by decide)) | with_reducible apply takeFrame_ev (hm.of (by decide))
    | with_reducible apply txCatchUp_ev (hm.of (by decide)) | split | (dsimp only; split)
    | refine Evolves.snd (by assumption) ?_

theorem buildBytes_ev {m : Nat} {z0 : State} {e : Entry} {bytes : List Byte} {s : State} (hm : Within 0x4 m)
    (hev : Evolves m z0 s) :
    Evolves m z0 (buildBytes e bytes s).2 := by
  unfold buildBytes
  repeat' first
    | intro _ | with_reducible assumption | with_reducible apply Evolves.ite | with_reducible apply Evolves.ite_snd
    | with_reducible apply drawn_ev (hm.of (by decide)) | split | (dsimp only; split)

theorem replayEnd_ev {m : Nat} {z0 : State} {t r : Nat} {s : State} (hm : Within 0x800 m) (hev : Evolves m z0 s) :
    Evolves m z0 (replayEnd t r s) := by
  unfold replayEnd
  repeat' first
    | intro _ | with_reducible assumption | with_reducible apply Evolves.ite
    | with_reducible apply modLink_ev (hm.of (by decide)) | split | (dsimp only; split)

theorem txBufferReadEndEffect_ev {m : Nat} {z0 : State} {t : Nat} {r : HostRead} {s : State} (hm : Within 0x4785f04 m)
    (hev : Evolves m z0 s) :
    Evolves m z0 (txBufferReadEndEffect t r s) := by
  unfold txBufferReadEndEffect
  repeat' first
    | intro _ | with_reducible assumption | with_reducible apply Evolves.ite
    | with_reducible apply modTen_ev (hm.of (by decide)) | with_reducible apply readServe_ev (hm.of (by decide))
    | with_reducible apply readDrop_ev (hm.of (by decide)) | with_reducible apply entrySteps_ev (hm.of (by decide))
    | with_reducible apply recoverFix_ev (hm.of (by decide)) | with_reducible apply tenantFault_ev (hm.of (by decide))
    | with_reducible apply readBuffer_ev (hm.of (by decide)) | with_reducible apply buildBytes_ev (hm.of (by decide))
    | with_reducible apply replayEnd_ev (hm.of (by decide)) | split | (dsimp only; split)
    | refine Evolves.snd (by assumption) ?_

theorem txBufferReadTimeoutEffect_ev {m : Nat} {z0 : State} {t : Nat} {s : State} (hm : Within 0x445c5f82 m)
    (hev : Evolves m z0 s) :
    Evolves m z0 (txBufferReadTimeoutEffect t s) := by
  unfold txBufferReadTimeoutEffect
  repeat' first
    | intro _ | with_reducible assumption | with_reducible apply Evolves.ite
    | with_reducible apply perfAdd_ev (hm.of (by decide)) | with_reducible apply waitUntil_ev (hm.of (by decide))
    | with_reducible apply readDrop_ev (hm.of (by decide)) | with_reducible apply tenantFault_ev (hm.of (by decide))
    | split | (dsimp only; split)

theorem txGladeAdmissionEffect_ev {m : Nat} {z0 : State} {t r : Nat} {s : State} (hm : Within 0x487d84 m)
    (hev : Evolves m z0 s) :
    Evolves m z0 (txGladeAdmissionEffect t r s) := by
  unfold txGladeAdmissionEffect
  repeat' first
    | intro _ | with_reducible assumption | with_reducible apply Evolves.ite
    | with_reducible apply modTen_ev (hm.of (by decide)) | with_reducible apply countPort_ev (hm.of (by decide))
    | with_reducible apply takeIn_ev (hm.of (by decide)) | with_reducible apply release_ev (hm.of (by decide))
    | with_reducible apply enqueue_ev (hm.of (by decide)) | with_reducible apply entrySteps_ev (hm.of (by decide))
    | with_reducible apply finishTx_ev (hm.of (by decide)) | split | (dsimp only; split)

theorem cellError_ev {m : Nat} {z0 : State} {id : Nat} {s : State} (hm : Within 0x4000124 m) (hev : Evolves m z0 s) :
    Evolves m z0 (cellError id s) := by
  unfold cellError
  repeat' first
    | intro _ | with_reducible assumption | with_reducible apply Evolves.ite
    | with_reducible apply drawn_ev (hm.of (by decide)) | with_reducible apply setMFault_ev (hm.of (by decide))
    | split | (dsimp only; split)

theorem cellsCorrected_ev {m : Nat} {z0 : State} {ecc : EccHit} {s : State} (hm : Within 0x80100 m)
    (hev : Evolves m z0 s) :
    Evolves m z0 (cellsCorrected ecc s) := by
  unfold cellsCorrected
  repeat' first
    | intro _ | with_reducible assumption | with_reducible apply Evolves.ite
    | with_reducible apply perfAdd_ev (hm.of (by decide)) | split | (dsimp only; split)

theorem countRxEcc_ev {m : Nat} {z0 : State} {id : Nat} {s : State} (hm : Within 0x100 m) (hev : Evolves m z0 s) :
    Evolves m z0 (countRxEcc id s) := by
  unfold countRxEcc
  repeat' first
    | intro _ | with_reducible assumption | with_reducible apply Evolves.ite
    | with_reducible apply countPort_ev (hm.of (by decide)) | split | (dsimp only; split)

theorem rxDeliveryEffect_ev {m : Nat} {z0 : State} {t k : Nat} {ecc : EccHit} {s : State} (hm : Within 0x4785f24 m)
    (hev : Evolves m z0 s) :
    Evolves m z0 (rxDeliveryEffect t k ecc s) := by
  unfold rxDeliveryEffect
  repeat' first
    | intro _ | with_reducible assumption | with_reducible apply Evolves.ite
    | with_reducible apply modRing_ev (hm.of (by decide)) | with_reducible apply devWrite_ev (hm.of (by decide))
    | with_reducible apply countRing_ev (hm.of (by decide)) | with_reducible apply release_ev (hm.of (by decide))
    | with_reducible apply entrySteps_ev (hm.of (by decide)) | with_reducible apply serve_ev (hm.of (by decide))
    | with_reducible apply cellError_ev (hm.of (by decide))
    | with_reducible apply cellsCorrected_ev (hm.of (by decide))
    | with_reducible apply countRxEcc_ev (hm.of (by decide)) | split | (dsimp only; split)

theorem descriptorReadEndEffect_ev {m : Nat} {z0 : State} {t r : Nat} {h : HostRead} {s : State} (hm : Within 0x4785f00 m)
    (hev : Evolves m z0 s) :
    Evolves m z0 (descriptorReadEndEffect t r h s) := by
  unfold descriptorReadEndEffect
  repeat' first
    | intro _ | with_reducible assumption | with_reducible apply Evolves.ite
    | with_reducible apply modRing_ev (hm.of (by decide)) | with_reducible apply readServe_ev (hm.of (by decide))
    | with_reducible apply readDrop_ev (hm.of (by decide)) | with_reducible apply countRing_ev (hm.of (by decide))
    | with_reducible apply voidCycles_ev (hm.of (by decide)) | with_reducible apply recoverFix_ev (hm.of (by decide))
    | with_reducible apply tenantFault_ev (hm.of (by decide)) | with_reducible apply serve_ev (hm.of (by decide))
    | with_reducible apply replayEnd_ev (hm.of (by decide)) | split | (dsimp only; split)
    | refine Evolves.snd (by assumption) ?_

theorem descriptorReadTimeoutEffect_ev {m : Nat} {z0 : State} {t r : Nat} {s : State} (hm : Within 0x447c5f82 m)
    (hev : Evolves m z0 s) :
    Evolves m z0 (descriptorReadTimeoutEffect t r s) := by
  unfold descriptorReadTimeoutEffect
  repeat' first
    | intro _ | with_reducible assumption | with_reducible apply Evolves.ite
    | with_reducible apply modRing_ev (hm.of (by decide)) | with_reducible apply perfAdd_ev (hm.of (by decide))
    | with_reducible apply waitUntil_ev (hm.of (by decide)) | with_reducible apply readDrop_ev (hm.of (by decide))
    | with_reducible apply countRing_ev (hm.of (by decide)) | with_reducible apply engineSteps_ev (hm.of (by decide))
    | with_reducible apply voidCycles_ev (hm.of (by decide)) | with_reducible apply recoverFix_ev (hm.of (by decide))
    | with_reducible apply ringTurn_ev (hm.of (by decide)) | with_reducible apply serve_ev (hm.of (by decide)) | split
    | (dsimp only; split)

theorem ownRereadEffect_ev {m : Nat} {z0 : State} {t r : Nat} {s : State} (hm : Within 0x447c5f82 m)
    (hev : Evolves m z0 s) :
    Evolves m z0 (ownRereadEffect t r s) := by
  unfold ownRereadEffect
  repeat' first
    | intro _ | with_reducible assumption | with_reducible apply Evolves.ite
    | with_reducible apply modRing_ev (hm.of (by decide)) | with_reducible apply waitUntil_ev (hm.of (by decide))
    | with_reducible apply serve_ev (hm.of (by decide)) | split | (dsimp only; split)

theorem fetchTimeoutEffect_ev {m : Nat} {z0 : State} {t r : Nat} {s : State} (hm : Within 0x445c5f82 m)
    (hev : Evolves m z0 s) :
    Evolves m z0 (fetchTimeoutEffect t r s) := by
  unfold fetchTimeoutEffect
  repeat' first
    | intro _ | with_reducible assumption | with_reducible apply Evolves.ite
    | with_reducible apply waitUntil_ev (hm.of (by decide)) | with_reducible apply clockFix_ev (hm.of (by decide))
    | with_reducible apply tenantFault_ev (hm.of (by decide)) | split | (dsimp only; split)

theorem recoveringOnsetEffect_ev {m : Nat} {z0 : State} {t r : Nat} {s : State} (hm : Within 0x400c4582 m)
    (hev : Evolves m z0 s) :
    Evolves m z0 (recoveringOnsetEffect t r s) := by
  unfold recoveringOnsetEffect
  repeat' first
    | intro _ | with_reducible assumption | with_reducible apply Evolves.ite
    | with_reducible apply modRing_ev (hm.of (by decide)) | with_reducible apply waitUntil_ev (hm.of (by decide))
    | split | (dsimp only; split)

theorem writeBackHoldExpiryEffect_ev {m : Nat} {z0 : State} {t r : Nat} {s : State} (hm : Within 0x447c5f82 m)
    (hev : Evolves m z0 s) :
    Evolves m z0 (writeBackHoldExpiryEffect t r s) := by
  unfold writeBackHoldExpiryEffect
  repeat' first
    | intro _ | with_reducible assumption | with_reducible apply Evolves.ite
    | with_reducible apply waitUntil_ev (hm.of (by decide)) | with_reducible apply drain_ev (hm.of (by decide))
    | with_reducible apply serve_ev (hm.of (by decide)) | split | (dsimp only; split)

theorem flushCompleteEffect_ev {m : Nat} {z0 : State} {t r : Nat} {s : State} (hm : Within 0x480d00 m)
    (hev : Evolves m z0 s) :
    Evolves m z0 (flushCompleteEffect t r s) := by
  unfold flushCompleteEffect
  repeat' first
    | intro _ | with_reducible assumption | with_reducible apply Evolves.ite
    | with_reducible apply flushEnd_ev (hm.of (by decide)) | with_reducible apply stoppedCheck_ev (hm.of (by decide))
    | split | (dsimp only; split)

end Sys2Proof.Machine
end

