-- ==== Sys2Proof/Laws/EvolvePorts.lean ====
section
/-! SUPPORT. What every operation of Machine/Ports.lean may change, and the promises it keeps (Evolves). -/

set_option Elab.async false

set_option linter.unusedTactic false
set_option linter.unreachableTactic false

namespace Sys2Proof.Machine

theorem endStaged_ev {m : Nat} {z0 : State} {f : Staged} {st : TxStatus} {s : State} (hm : Within 0x480d00 m)
    (hev : Evolves m z0 s) :
    Evolves m z0 (endStaged f st s) := by
  unfold endStaged
  repeat' first
    | intro _ | with_reducible assumption | with_reducible apply Evolves.ite
    | with_reducible apply finishOrigin_ev (hm.of (by decide)) | split | (dsimp only; split)

theorem clearEgress_ev {m : Nat} {z0 : State} {p : Nat} {st : TxStatus} {s : State} (hm : Within 0x485d00 m)
    (hev : Evolves m z0 s) :
    Evolves m z0 (clearEgress p st s) := by
  unfold clearEgress
  repeat' first
    | intro _ | with_reducible assumption | with_reducible apply Evolves.ite
    | with_reducible apply modPort_ev (hm.of (by decide)) | with_reducible apply countPort_ev (hm.of (by decide))
    | with_reducible apply release_ev (hm.of (by decide)) | with_reducible apply finishOrigin_ev (hm.of (by decide))
    | with_reducible apply endStaged_ev (hm.of (by decide)) | with_reducible apply forEach_ev | split
    | (dsimp only; split)

theorem cutWire_ev {m : Nat} {z0 : State} {p : Nat} {s : State} (hm : Within 0x484d00 m) (hev : Evolves m z0 s) :
    Evolves m z0 (cutWire p s) := by
  unfold cutWire
  repeat' first
    | intro _ | with_reducible assumption | with_reducible apply Evolves.ite
    | with_reducible apply modPort_ev (hm.of (by decide)) | with_reducible apply countPort_ev (hm.of (by decide))
    | with_reducible apply endStaged_ev (hm.of (by decide)) | with_reducible apply forEach_ev | split
    | (dsimp only; split)

theorem linkDrop_ev {m : Nat} {z0 : State} {p : Nat} {cut : Bool} {s : State} (hm : Within 0x485d00 m)
    (hev : Evolves m z0 s) :
    Evolves m z0 (linkDrop p cut s) := by
  unfold linkDrop
  repeat' first
    | intro _ | with_reducible assumption | with_reducible apply Evolves.ite
    | with_reducible apply modPort_ev (hm.of (by decide)) | with_reducible apply raise_ev (hm.of (by decide))
    | with_reducible apply countPort_ev (hm.of (by decide)) | with_reducible apply clearEgress_ev (hm.of (by decide))
    | with_reducible apply cutWire_ev (hm.of (by decide)) | split | (dsimp only; split)

theorem linkReview_ev {m : Nat} {z0 : State} {p : Nat} {s : State} (hm : Within 0x485d00 m) (hev : Evolves m z0 s) :
    Evolves m z0 (linkReview p s) := by
  unfold linkReview
  repeat' first
    | intro _ | with_reducible assumption | with_reducible apply Evolves.ite
    | with_reducible apply modPort_ev (hm.of (by decide)) | with_reducible apply linkDrop_ev (hm.of (by decide))
    | split | (dsimp only; split)

theorem laneReview_ev {m : Nat} {z0 : State} {q : Nat} {s : State} (hm : Within 0x485d00 m) (hev : Evolves m z0 s) :
    Evolves m z0 (laneReview q s) := by
  unfold laneReview
  repeat' first
    | intro _ | with_reducible assumption | with_reducible apply Evolves.ite
    | with_reducible apply linkReview_ev (hm.of (by decide)) | with_reducible apply forAll_ev | split
    | (dsimp only; split)

theorem bwCount_ev {m : Nat} {z0 : State} {p : Nat} {tx : Bool} {len : Nat} {s : State} (hm : Within 0x80000 m)
    (hev : Evolves m z0 s) :
    Evolves m z0 (bwCount p tx len s) := by
  unfold bwCount
  repeat' first
    | intro _ | with_reducible assumption | with_reducible apply Evolves.ite | split | (dsimp only; split)
    | with_reducible refine Evolves.set_perf (hm.bit (by decide)) ?_

theorem pauseFor_ev {m : Nat} {z0 : State} {p c quanta : Nat} {s : State} (hm : Within 0x4000 m)
    (hev : Evolves m z0 s) :
    Evolves m z0 (pauseFor p c quanta s) := by
  unfold pauseFor
  repeat' first
    | intro _ | with_reducible assumption | with_reducible apply Evolves.ite
    | with_reducible apply modPort_ev (hm.of (by decide)) | split | (dsimp only; split)

theorem macControlReceive_ev {m : Nat} {z0 : State} {p : Nat} {bs : List Byte} {s : State} (hm : Within 0x4100 m)
    (hev : Evolves m z0 s) :
    Evolves m z0 (macControlReceive p bs s) := by
  unfold macControlReceive
  repeat' first
    | intro _ | with_reducible assumption | with_reducible apply Evolves.ite
    | with_reducible apply countPort_ev (hm.of (by decide)) | with_reducible apply pauseFor_ev (hm.of (by decide))
    | with_reducible apply forAll_ev | split | (dsimp only; split)

theorem acceptCount_ev {m : Nat} {z0 : State} {p len : Nat} {s : State} (hm : Within 0x80100 m)
    (hev : Evolves m z0 s) :
    Evolves m z0 (acceptCount p len s) := by
  unfold acceptCount
  repeat' first
    | intro _ | with_reducible assumption | with_reducible apply Evolves.ite
    | with_reducible apply perfAdd_ev (hm.of (by decide)) | with_reducible apply countPort_ev (hm.of (by decide))
    | with_reducible apply bwCount_ev (hm.of (by decide)) | split | (dsimp only; split)

theorem stageFrame_ev {m : Nat} {z0 : State} {p : Nat} {f : RxFrame} {s : State} (hm : Within 0x84100 m)
    (hev : Evolves m z0 s) :
    Evolves m z0 (stageFrame p f s) := by
  unfold stageFrame
  repeat' first
    | intro _ | with_reducible assumption | with_reducible apply Evolves.ite
    | with_reducible apply modPort_ev (hm.of (by decide)) | with_reducible apply acceptCount_ev (hm.of (by decide))
    | split | (dsimp only; split)

theorem filterFrame_ev {m : Nat} {z0 : State} {p len : Nat} {s : State} (hm : Within 0x80100 m)
    (hev : Evolves m z0 s) :
    Evolves m z0 (filterFrame p len s) := by
  unfold filterFrame
  repeat' first
    | intro _ | with_reducible assumption | with_reducible apply Evolves.ite
    | with_reducible apply countPort_ev (hm.of (by decide)) | with_reducible apply acceptCount_ev (hm.of (by decide))
    | split | (dsimp only; split)

theorem receiveChecks_ev {m : Nat} {z0 : State} {p : Nat} {f : RxFrame} {enter : State → State} {s : State} (hm : Within 0x84100 m) (h_enter : ∀ v, Evolves m z0 v → Evolves m z0 (enter v))
    (hev : Evolves m z0 s) : Evolves m z0 (receiveChecks p f enter s) := by
  unfold receiveChecks
  repeat' first
    | intro _ | with_reducible assumption | with_reducible apply Evolves.ite | apply h_enter
    | with_reducible apply countPort_ev (hm.of (by decide)) | with_reducible apply bwCount_ev (hm.of (by decide))
    | with_reducible apply macControlReceive_ev (hm.of (by decide)) | split | (dsimp only; split)

theorem macReceive_ev {m : Nat} {z0 : State} {p : Nat} {f : RxFrame} {s : State} (hm : Within 0x84100 m)
    (hev : Evolves m z0 s) :
    Evolves m z0 (macReceive p f s) := by
  unfold macReceive
  repeat' first
    | intro _ | with_reducible assumption | with_reducible apply Evolves.ite
    | with_reducible apply stageFrame_ev (hm.of (by decide)) | with_reducible apply filterFrame_ev (hm.of (by decide))
    | with_reducible apply receiveChecks_ev (hm.of (by decide)) | split | (dsimp only; split)

theorem leaves_ev {m : Nat} {z0 : State} {p : Nat} {bytes : List Byte} {s : State} (hm : Within 0x400c4582 m)
    (hev : Evolves m z0 s) :
    Evolves m z0 (leaves p bytes s) := by
  unfold leaves
  repeat' first
    | intro _ | with_reducible assumption | with_reducible apply Evolves.ite
    | with_reducible apply modPort_ev (hm.of (by decide)) | with_reducible apply waitUntil_ev (hm.of (by decide))
    | with_reducible apply macReceive_ev (hm.of (by decide)) | split | (dsimp only; split)

theorem macControlSendEffect_ev {m : Nat} {z0 : State} {p : Nat} {s0 : State} (hm : Within 0x400c4582 m)
    (hev : Evolves m z0 s0) :
    Evolves m z0 (macControlSendEffect p s0) := by
  unfold macControlSendEffect
  repeat' first
    | intro _ | with_reducible assumption | with_reducible apply Evolves.ite
    | with_reducible apply modPort_ev (hm.of (by decide)) | with_reducible apply waitUntil_ev (hm.of (by decide))
    | with_reducible apply countPort_ev (hm.of (by decide)) | with_reducible apply bwCount_ev (hm.of (by decide))
    | with_reducible apply leaves_ev (hm.of (by decide)) | split | (dsimp only; split)

theorem pfcRefreshEffect_ev {m : Nat} {z0 : State} {p : Nat} {s : State} (hm : Within 0x400c4582 m)
    (hev : Evolves m z0 s) :
    Evolves m z0 (pfcRefreshEffect p s) := by
  unfold pfcRefreshEffect
  repeat' first
    | intro _ | with_reducible assumption | with_reducible apply Evolves.ite
    | with_reducible apply modPort_ev (hm.of (by decide)) | with_reducible apply waitUntil_ev (hm.of (by decide))
    | with_reducible apply forEach_ev | with_reducible apply Evolves.foldl | split | (dsimp only; split)

theorem egressCopyEffect_ev {m : Nat} {z0 : State} {p : Nat} {ecc : EccHit} {s : State} (hm : Within 0x4485d24 m)
    (hev : Evolves m z0 s) :
    Evolves m z0 (egressCopyEffect p ecc s) := by
  unfold egressCopyEffect
  repeat' first
    | intro _ | with_reducible assumption | with_reducible apply Evolves.ite
    | with_reducible apply modPort_ev (hm.of (by decide)) | with_reducible apply release_ev (hm.of (by decide))
    | with_reducible apply setClassQueue_ev (hm.of (by decide)) | with_reducible apply modEntry_ev (hm.of (by decide))
    | with_reducible apply finishOrigin_ev (hm.of (by decide)) | with_reducible apply cellError_ev (hm.of (by decide))
    | with_reducible apply cellsCorrected_ev (hm.of (by decide))
    | with_reducible apply countRxEcc_ev (hm.of (by decide)) | split | (dsimp only; split)

theorem startFrame_ev {m : Nat} {z0 : State} {p : Nat} {f : Staged} {base : Nat} {s : State} (hm : Within 0x4404 m)
    (hev : Evolves m z0 s) :
    Evolves m z0 (startFrame p f base s) := by
  unfold startFrame
  repeat' first
    | intro _ | with_reducible assumption | with_reducible apply Evolves.ite
    | with_reducible apply drawn_ev (hm.of (by decide)) | with_reducible apply modPort_ev (hm.of (by decide))
    | with_reducible apply modEntry_ev (hm.of (by decide)) | split | (dsimp only; split)

theorem readStaged_ev {m : Nat} {z0 : State} {p : Nat} {f : Staged} {base : Nat} {ecc : EccHit} {s : State} (hm : Within 0x4484d24 m)
    (hev : Evolves m z0 s) :
    Evolves m z0 (readStaged p f base ecc s) := by
  unfold readStaged
  repeat' first
    | intro _ | with_reducible assumption | with_reducible apply Evolves.ite
    | with_reducible apply modPort_ev (hm.of (by decide)) | with_reducible apply setMFault_ev (hm.of (by decide))
    | with_reducible apply countPort_ev (hm.of (by decide)) | with_reducible apply endStaged_ev (hm.of (by decide))
    | with_reducible apply startFrame_ev (hm.of (by decide)) | split | (dsimp only; split)

theorem cutFrame_ev {m : Nat} {z0 : State} {p : Nat} {s : State} (hm : Within 0x4000 m) (hev : Evolves m z0 s) :
    Evolves m z0 (cutFrame p s) := by
  unfold cutFrame
  repeat' first
    | intro _ | with_reducible assumption | with_reducible apply Evolves.ite
    | with_reducible apply modPort_ev (hm.of (by decide)) | split | (dsimp only; split)

theorem resumeHeld_ev {m : Nat} {z0 : State} {p : Nat} {s : State} (hm : Within 0x4000 m) (hev : Evolves m z0 s) :
    Evolves m z0 (resumeHeld p s) := by
  unfold resumeHeld
  repeat' first
    | intro _ | with_reducible assumption | with_reducible apply Evolves.ite
    | with_reducible apply modPort_ev (hm.of (by decide)) | split | (dsimp only; split)

theorem preemptWire_ev {m : Nat} {z0 : State} {p : Nat} {s : State} (hm : Within 0x4000 m) (hev : Evolves m z0 s) :
    Evolves m z0 (preemptWire p s) := by
  unfold preemptWire
  repeat' first
    | intro _ | with_reducible assumption | with_reducible apply Evolves.ite
    | with_reducible apply cutFrame_ev (hm.of (by decide)) | split | (dsimp only; split)

theorem launchIdle_ev {m : Nat} {z0 : State} {p : Nat} {ecc : EccHit} {s0 : State} (hm : Within 0x444c4da6 m)
    (hev : Evolves m z0 s0) :
    Evolves m z0 (launchIdle p ecc s0) := by
  unfold launchIdle
  repeat' first
    | intro _ | with_reducible assumption | with_reducible apply Evolves.ite
    | with_reducible apply waitUntil_ev (hm.of (by decide)) | with_reducible apply waitDev_ev (hm.of (by decide))
    | with_reducible apply readStaged_ev (hm.of (by decide)) | with_reducible apply resumeHeld_ev (hm.of (by decide))
    | with_reducible apply Evolves.foldl | split | (dsimp only; split)

theorem egressLaunchEffect_ev {m : Nat} {z0 : State} {p : Nat} {ecc : EccHit} {s : State} (hm : Within 0x444c4da6 m)
    (hev : Evolves m z0 s) :
    Evolves m z0 (egressLaunchEffect p ecc s) := by
  unfold egressLaunchEffect
  repeat' first
    | intro _ | with_reducible assumption | with_reducible apply Evolves.ite
    | with_reducible apply waitDev_ev (hm.of (by decide)) | with_reducible apply cutFrame_ev (hm.of (by decide))
    | with_reducible apply launchIdle_ev (hm.of (by decide)) | with_reducible apply Evolves.foldl | split
    | (dsimp only; split)

theorem txEnd_ev {m : Nat} {z0 : State} {p : Nat} {s : State} (hm : Within 0x447c5f82 m) (hev : Evolves m z0 s) :
    Evolves m z0 (txEnd p s) := by
  unfold txEnd
  repeat' first
    | intro _ | with_reducible assumption | with_reducible apply Evolves.ite
    | with_reducible apply modPort_ev (hm.of (by decide)) | with_reducible apply perfAdd_ev (hm.of (by decide))
    | with_reducible apply waitUntil_ev (hm.of (by decide)) | with_reducible apply countPort_ev (hm.of (by decide))
    | with_reducible apply finishOrigin_ev (hm.of (by decide)) | with_reducible apply serve_ev (hm.of (by decide))
    | with_reducible apply bwCount_ev (hm.of (by decide)) | with_reducible apply resumeHeld_ev (hm.of (by decide))
    | split | (dsimp only; split)

theorem pauseExpiryEffect_ev {m : Nat} {z0 : State} {p c : Nat} {s : State} (hm : Within 0x400c4582 m)
    (hev : Evolves m z0 s) :
    Evolves m z0 (pauseExpiryEffect p c s) := by
  unfold pauseExpiryEffect
  repeat' first
    | intro _ | with_reducible assumption | with_reducible apply Evolves.ite
    | with_reducible apply modPort_ev (hm.of (by decide)) | with_reducible apply waitUntil_ev (hm.of (by decide))
    | with_reducible apply forEach_ev | split | (dsimp only; split)

theorem linkDownEffect_ev {m : Nat} {z0 : State} {p : Nat} {s : State} (hm : Within 0x485d00 m)
    (hev : Evolves m z0 s) :
    Evolves m z0 (linkDownEffect p s) := by
  unfold linkDownEffect
  repeat' first
    | intro _ | with_reducible assumption | with_reducible apply Evolves.ite
    | with_reducible apply modPort_ev (hm.of (by decide)) | with_reducible apply linkDrop_ev (hm.of (by decide))
    | with_reducible apply linkReview_ev (hm.of (by decide)) | split | (dsimp only; split)

theorem laneSignalLossEffect_ev {m : Nat} {z0 : State} {q : Nat} {s : State} (hm : Within 0x48dd00 m)
    (hev : Evolves m z0 s) :
    Evolves m z0 (laneSignalLossEffect q s) := by
  unfold laneSignalLossEffect
  repeat' first
    | intro _ | with_reducible assumption | with_reducible apply Evolves.ite
    | with_reducible apply modLane_ev (hm.of (by decide)) | with_reducible apply laneReview_ev (hm.of (by decide))
    | split | (dsimp only; split)

theorem laneLockAcquiredEffect_ev {m : Nat} {z0 : State} {q : Nat} {s : State} (hm : Within 0x48dd84 m)
    (hev : Evolves m z0 s) :
    Evolves m z0 (laneLockAcquiredEffect q s) := by
  unfold laneLockAcquiredEffect
  repeat' first
    | intro _ | with_reducible assumption | with_reducible apply Evolves.ite
    | with_reducible apply drawn_ev (hm.of (by decide)) | with_reducible apply modLane_ev (hm.of (by decide))
    | with_reducible apply setPw_ev (hm.of (by decide)) | with_reducible apply laneReview_ev (hm.of (by decide))
    | split | (dsimp only; split)

theorem inBandLinkChangeEffect_ev {m : Nat} {z0 : State} {p : Nat} {up : Bool} {speed : Nat} {half : Bool} {s : State} (hm : Within 0x485d00 m)
    (hev : Evolves m z0 s) :
    Evolves m z0 (inBandLinkChangeEffect p up speed half s) := by
  unfold inBandLinkChangeEffect
  repeat' first
    | intro _ | with_reducible assumption | with_reducible apply Evolves.ite
    | with_reducible apply modPort_ev (hm.of (by decide)) | with_reducible apply linkReview_ev (hm.of (by decide))
    | split | (dsimp only; split)

theorem mdioPollEffect_ev {m : Nat} {z0 : State} {k : Nat} {a : MdioAnswer} {s0 : State} (hm : Within 0x404d5d82 m)
    (hev : Evolves m z0 s0) :
    Evolves m z0 (mdioPollEffect k a s0) := by
  unfold mdioPollEffect
  repeat' first
    | intro _ | with_reducible assumption | with_reducible apply Evolves.ite
    | with_reducible apply modPort_ev (hm.of (by decide)) | with_reducible apply wait_ev (hm.of (by decide))
    | with_reducible apply linkReview_ev (hm.of (by decide)) | split | (dsimp only; split)
    | with_reducible refine Evolves.set_mdio (hm.bit (by decide)) ?_

theorem gateReview_ev {m : Nat} {z0 : State} {p : Nat} {s : State} (hm : Within 0x4000 m) (hev : Evolves m z0 s) :
    Evolves m z0 (gateReview p s) := by
  unfold gateReview
  repeat' first
    | intro _ | with_reducible assumption | with_reducible apply Evolves.ite
    | with_reducible apply resumeHeld_ev (hm.of (by decide)) | with_reducible apply preemptWire_ev (hm.of (by decide))
    | split | (dsimp only; split)

theorem entryBegins_ev {m : Nat} {z0 : State} {p : Nat} {s : State} (hm : Within 0x4000 m) (hev : Evolves m z0 s) :
    Evolves m z0 (entryBegins p s) := by
  unfold entryBegins
  repeat' first
    | intro _ | with_reducible assumption | with_reducible apply Evolves.ite
    | with_reducible apply modPort_ev (hm.of (by decide)) | with_reducible apply gateReview_ev (hm.of (by decide))
    | split | (dsimp only; split)

theorem gateWrite_ev {m : Nat} {z0 : State} {p v : Nat} {s : State} (hm : Within 0x4000 m) (hev : Evolves m z0 s) :
    Evolves m z0 (gateWrite p v s) := by
  unfold gateWrite
  repeat' first
    | intro _ | with_reducible assumption | with_reducible apply Evolves.ite
    | with_reducible apply gateCtlWrite_ev (hm.of (by decide))
    | with_reducible apply entryBegins_ev (hm.of (by decide)) | split | (dsimp only; split)

theorem timeChange_ev {m : Nat} {z0 : State} {dev : Nat} {s : State} (hm : Within 0x44100 m) (hev : Evolves m z0 s) :
    Evolves m z0 (timeChange dev s) := by
  unfold timeChange
  repeat' first
    | intro _ | with_reducible assumption | with_reducible apply Evolves.ite
    | with_reducible apply setTime_ev (hm.of (by decide)) | with_reducible apply entryBegins_ev (hm.of (by decide))
    | with_reducible apply forAll_ev | split | (dsimp only; split)

theorem gateChangeEffect_ev {m : Nat} {z0 : State} {p : Nat} {s : State} (hm : Within 0x400c4582 m)
    (hev : Evolves m z0 s) :
    Evolves m z0 (gateChangeEffect p s) := by
  unfold gateChangeEffect
  repeat' first
    | intro _ | with_reducible assumption | with_reducible apply Evolves.ite
    | with_reducible apply waitDev_ev (hm.of (by decide)) | with_reducible apply entryBegins_ev (hm.of (by decide))
    | split | (dsimp only; split)

theorem gateSwapEffect_ev {m : Nat} {z0 : State} {p : Nat} {s : State} (hm : Within 0x400c4582 m)
    (hev : Evolves m z0 s) :
    Evolves m z0 (gateSwapEffect p s) := by
  unfold gateSwapEffect
  repeat' first
    | intro _ | with_reducible assumption | with_reducible apply Evolves.ite
    | with_reducible apply gateCatchUp_ev (hm.of (by decide)) | with_reducible apply waitDev_ev (hm.of (by decide))
    | with_reducible apply entryBegins_ev (hm.of (by decide)) | split | (dsimp only; split)

end Sys2Proof.Machine
end

