-- ==== Sys2Proof/Laws/EvolveStore.lean ====
section
/-! SUPPORT. What every operation of Machine/Store.lean may change, and the promises it keeps (Evolves). -/

set_option Elab.async false

set_option linter.unusedTactic false
set_option linter.unreachableTactic false

namespace Sys2Proof.Machine

theorem modStore_ev {m : Nat} {z0 : State} {f : Store → Store} {s : State} (hm : Within 0x2000000 m)
    (hf : ∀ x, (f x).area = x.area ∧ (f x).otpKey = x.otpKey ∧ (f x).otpLock = x.otpLock) (h : Evolves m z0 s) :
    Evolves m z0 (modStore f s) := Evolves.store f (hm.bit (by decide)) hf h

theorem modStream_ev {m : Nat} {z0 : State} {k : Nat} {f : Stream → Stream} {s : State} (hm : Within 0x2000000 m)
    (hev : Evolves m z0 s) :
    Evolves m z0 (modStream k f s) := by
  unfold modStream
  repeat' first
    | intro _ | with_reducible assumption | with_reducible apply Evolves.ite
    | with_reducible refine modStore_ev (hm.of (by decide)) (fun _ => ⟨rfl, rfl, rfl⟩) ?_
    | with_reducible refine modStore_ev (hm.of (by decide)) (fun _ => by split <;> exact ⟨rfl, rfl, rfl⟩) ?_ | split
    | (dsimp only; split)

theorem modSeg_ev {m : Nat} {z0 : State} {k q : Nat} {f : Segment → Segment} {s : State} (hm : Within 0x2000000 m)
    (hev : Evolves m z0 s) :
    Evolves m z0 (modSeg k q f s) := by
  unfold modSeg
  repeat' first
    | intro _ | with_reducible assumption | with_reducible apply Evolves.ite
    | with_reducible refine modStore_ev (hm.of (by decide)) (fun _ => ⟨rfl, rfl, rfl⟩) ?_
    | with_reducible refine modStore_ev (hm.of (by decide)) (fun _ => by split <;> exact ⟨rfl, rfl, rfl⟩) ?_ | split
    | (dsimp only; split)

theorem ageBlocks_ev {m : Nat} {z0 : State} {n : Nat} {s : State} (hm : Within 0x2000000 m) (hev : Evolves m z0 s) :
    Evolves m z0 (ageBlocks n s) := by
  unfold ageBlocks
  repeat' first
    | intro _ | with_reducible assumption | with_reducible apply Evolves.ite
    | with_reducible refine modStore_ev (hm.of (by decide)) (fun _ => ⟨rfl, rfl, rfl⟩) ?_
    | with_reducible refine modStore_ev (hm.of (by decide)) (fun _ => by split <;> exact ⟨rfl, rfl, rfl⟩) ?_ | split
    | (dsimp only; split)

theorem ageCatchUp_ev {m : Nat} {z0 : State} {s : State} (hm : Within 0x2000000 m) (hev : Evolves m z0 s) :
    Evolves m z0 (ageCatchUp s) := by
  unfold ageCatchUp
  repeat' first
    | intro _ | with_reducible assumption | with_reducible apply Evolves.ite
    | with_reducible apply ageBlocks_ev (hm.of (by decide)) | split | (dsimp only; split)

theorem nandIssue_ev {m : Nat} {z0 : State} {cs : List NandCmd} {s : State} (hm : Within 0x2000000 m)
    (hev : Evolves m z0 s) :
    Evolves m z0 (nandIssue cs s) := by
  unfold nandIssue
  repeat' first
    | intro _ | with_reducible assumption | with_reducible apply Evolves.ite
    | with_reducible refine modStore_ev (hm.of (by decide)) (fun _ => ⟨rfl, rfl, rfl⟩) ?_
    | with_reducible refine modStore_ev (hm.of (by decide)) (fun _ => by split <;> exact ⟨rfl, rfl, rfl⟩) ?_ | split
    | (dsimp only; split)

theorem dropRecord_ev {m : Nat} {z0 : State} {k cause : Nat} {s : State} (hm : Within 0x2000100 m)
    (hev : Evolves m z0 s) :
    Evolves m z0 (dropRecord k cause s) := by
  unfold dropRecord
  repeat' first
    | intro _ | with_reducible assumption | with_reducible apply Evolves.ite
    | with_reducible apply putRowWord_ev (hm.of (by decide)) | with_reducible apply modStream_ev (hm.of (by decide))
    | split | (dsimp only; split)

theorem closeGap_ev {m : Nat} {z0 : State} {k : Nat} {s : State} (hm : Within 0x2000000 m) (hev : Evolves m z0 s) :
    Evolves m z0 (closeGap k s) := by
  unfold closeGap
  repeat' first
    | intro _ | with_reducible assumption | with_reducible apply Evolves.ite
    | with_reducible apply modStream_ev (hm.of (by decide)) | split | (dsimp only; split)

theorem dropWaiting_ev {m : Nat} {z0 : State} {k : Nat} {cause : Option Nat} {s : State} (hm : Within 0x2005100 m)
    (hev : Evolves m z0 s) :
    Evolves m z0 (dropWaiting k cause s) := by
  unfold dropWaiting
  repeat' first
    | intro _ | with_reducible assumption | with_reducible apply Evolves.ite
    | with_reducible apply release_ev (hm.of (by decide)) | with_reducible apply modStream_ev (hm.of (by decide))
    | with_reducible apply dropRecord_ev (hm.of (by decide)) | with_reducible apply forEach_ev | split
    | (dsimp only; split)

theorem recordPay_ev {m : Nat} {z0 : State} {k len : Nat} {s : State} (hm : Within 0x2000000 m)
    (hev : Evolves m z0 s) :
    Evolves m z0 (recordPay k len s) := by
  unfold recordPay
  repeat' first
    | intro _ | with_reducible assumption | with_reducible apply Evolves.ite
    | with_reducible apply modStream_ev (hm.of (by decide)) | split | (dsimp only; split)

theorem recordFrame_ev {m : Nat} {z0 : State} {k id : Nat} {s : State} (hm : Within 0x2000000 m)
    (hev : Evolves m z0 s) :
    Evolves m z0 (recordFrame k id s) := by
  unfold recordFrame
  repeat' first
    | intro _ | with_reducible assumption | with_reducible apply Evolves.ite
    | with_reducible apply modStream_ev (hm.of (by decide)) | with_reducible apply closeGap_ev (hm.of (by decide))
    | split | (dsimp only; split)

theorem modBlock_ev {m : Nat} {z0 : State} {b : Nat} {f : BlockState → BlockState} {s : State} (hm : Within 0x2000000 m)
    (hev : Evolves m z0 s) :
    Evolves m z0 (modBlock b f s) := by
  unfold modBlock
  repeat' first
    | intro _ | with_reducible assumption | with_reducible apply Evolves.ite
    | with_reducible refine modStore_ev (hm.of (by decide)) (fun _ => ⟨rfl, rfl, rfl⟩) ?_
    | with_reducible refine modStore_ev (hm.of (by decide)) (fun _ => by split <;> exact ⟨rfl, rfl, rfl⟩) ?_ | split
    | (dsimp only; split)

theorem modJournal_ev {m : Nat} {z0 : State} {f : Journal → Journal} {s : State} (hm : Within 0x2000000 m)
    (hev : Evolves m z0 s) :
    Evolves m z0 (modJournal f s) := by
  unfold modJournal
  repeat' first
    | intro _ | with_reducible assumption | with_reducible apply Evolves.ite
    | with_reducible refine modStore_ev (hm.of (by decide)) (fun _ => ⟨rfl, rfl, rfl⟩) ?_
    | with_reducible refine modStore_ev (hm.of (by decide)) (fun _ => by split <;> exact ⟨rfl, rfl, rfl⟩) ?_ | split
    | (dsimp only; split)

theorem closeSeg_ev {m : Nat} {z0 : State} {k : Nat} {s : State} (hm : Within 0x2000000 m) (hev : Evolves m z0 s) :
    Evolves m z0 (closeSeg k s) := by
  unfold closeSeg
  repeat' first
    | intro _ | with_reducible assumption | with_reducible apply Evolves.ite
    | with_reducible apply modStream_ev (hm.of (by decide)) | with_reducible apply modSeg_ev (hm.of (by decide))
    | with_reducible refine modStore_ev (hm.of (by decide)) (fun _ => ⟨rfl, rfl, rfl⟩) ?_
    | with_reducible refine modStore_ev (hm.of (by decide)) (fun _ => by split <;> exact ⟨rfl, rfl, rfl⟩) ?_ | split
    | (dsimp only; split)

theorem closeShort_ev {m : Nat} {z0 : State} {g : Segment} {s : State} (hm : Within 0x2000000 m)
    (hev : Evolves m z0 s) :
    Evolves m z0 (closeShort g s) := by
  unfold closeShort
  repeat' first
    | intro _ | with_reducible assumption | with_reducible apply Evolves.ite
    | with_reducible apply modStream_ev (hm.of (by decide)) | with_reducible apply modSeg_ev (hm.of (by decide))
    | with_reducible refine modStore_ev (hm.of (by decide)) (fun _ => ⟨rfl, rfl, rfl⟩) ?_
    | with_reducible refine modStore_ev (hm.of (by decide)) (fun _ => by split <;> exact ⟨rfl, rfl, rfl⟩) ?_
    | with_reducible apply Evolves.foldl | split | (dsimp only; split)

theorem wornOut_ev {m : Nat} {z0 : State} {s : State} (hm : Within 0x2000000 m) (hev : Evolves m z0 s) :
    Evolves m z0 (wornOut s) := by
  unfold wornOut
  repeat' first
    | intro _ | with_reducible assumption | with_reducible apply Evolves.ite
    | with_reducible apply closeShort_ev (hm.of (by decide)) | with_reducible apply forEach_ev
    | with_reducible refine modStore_ev (hm.of (by decide)) (fun _ => ⟨rfl, rfl, rfl⟩) ?_
    | with_reducible refine modStore_ev (hm.of (by decide)) (fun _ => by split <;> exact ⟨rfl, rfl, rfl⟩) ?_ | split
    | (dsimp only; split)

theorem putHealth_ev {m : Nat} {z0 : State} {s : State} (hm : Within 0x180 m) (hev : Evolves m z0 s) :
    Evolves m z0 (putHealth s) := by
  unfold putHealth
  repeat' first
    | intro _ | with_reducible assumption | with_reducible apply Evolves.ite
    | with_reducible apply setPw_ev (hm.of (by decide)) | with_reducible apply raise_ev (hm.of (by decide)) | split
    | (dsimp only; split)

theorem judgeHealth_ev {m : Nat} {z0 : State} {s : State} (hm : Within 0x2000180 m) (hev : Evolves m z0 s) :
    Evolves m z0 (judgeHealth s) := by
  unfold judgeHealth
  repeat' first
    | intro _ | with_reducible assumption | with_reducible apply Evolves.ite
    | with_reducible apply wornOut_ev (hm.of (by decide)) | with_reducible apply putHealth_ev (hm.of (by decide))
    | split | (dsimp only; split)

theorem capReview_ev {m : Nat} {z0 : State} {s : State} (hm : Within 0x2000100 m) (hev : Evolves m z0 s) :
    Evolves m z0 (capReview s) := by
  unfold capReview
  repeat' first
    | intro _ | with_reducible assumption | with_reducible apply Evolves.ite
    | with_reducible apply raise_ev (hm.of (by decide))
    | with_reducible refine modStore_ev (hm.of (by decide)) (fun _ => ⟨rfl, rfl, rfl⟩) ?_
    | with_reducible refine modStore_ev (hm.of (by decide)) (fun _ => by split <;> exact ⟨rfl, rfl, rfl⟩) ?_ | split
    | (dsimp only; split)

theorem retire_ev {m : Nat} {z0 : State} {b st : Nat} {s : State} (hm : Within 0x2000180 m) (hev : Evolves m z0 s) :
    Evolves m z0 (retire b st s) := by
  unfold retire
  repeat' first
    | intro _ | with_reducible assumption | with_reducible apply Evolves.ite
    | with_reducible apply modBlock_ev (hm.of (by decide)) | with_reducible apply modJournal_ev (hm.of (by decide))
    | with_reducible apply judgeHealth_ev (hm.of (by decide)) | with_reducible apply capReview_ev (hm.of (by decide))
    | split | (dsimp only; split)

theorem eraseIssue_ev {m : Nat} {z0 : State} {b : Nat} {s : State} (hm : Within 0x2000180 m) (hev : Evolves m z0 s) :
    Evolves m z0 (eraseIssue b s) := by
  unfold eraseIssue
  repeat' first
    | intro _ | with_reducible assumption | with_reducible apply Evolves.ite
    | with_reducible apply nandIssue_ev (hm.of (by decide)) | with_reducible apply modBlock_ev (hm.of (by decide))
    | with_reducible apply judgeHealth_ev (hm.of (by decide)) | with_reducible apply retire_ev (hm.of (by decide))
    | with_reducible refine modStore_ev (hm.of (by decide)) (fun _ => ⟨rfl, rfl, rfl⟩) ?_
    | with_reducible refine modStore_ev (hm.of (by decide)) (fun _ => by split <;> exact ⟨rfl, rfl, rfl⟩) ?_ | split
    | (dsimp only; split)

theorem replaceSystem_ev {m : Nat} {z0 : State} {b st : Nat} {s : State} (hm : Within 0x2000180 m)
    (hev : Evolves m z0 s) :
    Evolves m z0 (replaceSystem b st s).1 := by
  unfold replaceSystem
  repeat' first
    | intro _ | with_reducible assumption | with_reducible apply Evolves.ite | with_reducible apply Evolves.ite_fst
    | with_reducible apply modBlock_ev (hm.of (by decide)) | with_reducible apply modJournal_ev (hm.of (by decide))
    | with_reducible apply retire_ev (hm.of (by decide)) | split | (dsimp only; split)

theorem eraseSystem_ev {m : Nat} {z0 : State} {b : Nat} {s : State} (hm : Within 0x2000180 m) (hev : Evolves m z0 s) :
    Evolves m z0 (eraseSystem b s).1 := by
  unfold eraseSystem
  repeat' first
    | intro _ | with_reducible assumption | with_reducible apply Evolves.ite | with_reducible apply Evolves.ite_fst
    | with_reducible apply eraseIssue_ev (hm.of (by decide))
    | with_reducible apply replaceSystem_ev (hm.of (by decide)) | split | (dsimp only; split)
    | refine Evolves.fst (by assumption) ?_

theorem dropSeg_ev {m : Nat} {z0 : State} {g : Segment} {s : State} (hm : Within 0x2000180 m) (hev : Evolves m z0 s) :
    Evolves m z0 (dropSeg g s) := by
  unfold dropSeg
  repeat' first
    | intro _ | with_reducible assumption | with_reducible apply Evolves.ite
    | with_reducible apply eraseIssue_ev (hm.of (by decide))
    | with_reducible refine modStore_ev (hm.of (by decide)) (fun _ => ⟨rfl, rfl, rfl⟩) ?_
    | with_reducible refine modStore_ev (hm.of (by decide)) (fun _ => by split <;> exact ⟨rfl, rfl, rfl⟩) ?_ | split
    | (dsimp only; split)

theorem stopStream_ev {m : Nat} {z0 : State} {k : Nat} {s : State} (hm : Within 0x2005100 m) (hev : Evolves m z0 s) :
    Evolves m z0 (stopStream k s) := by
  unfold stopStream
  repeat' first
    | intro _ | with_reducible assumption | with_reducible apply Evolves.ite
    | with_reducible apply modStream_ev (hm.of (by decide)) | with_reducible apply dropWaiting_ev (hm.of (by decide))
    | split | (dsimp only; split)

theorem queueMarker_ev {m : Nat} {z0 : State} {k trig outcome row start stop : Nat} {s : State} (hm : Within 0x2000000 m)
    (hev : Evolves m z0 s) :
    Evolves m z0 (queueMarker k trig outcome row start stop s) := by
  unfold queueMarker
  repeat' first
    | intro _ | with_reducible assumption | with_reducible apply Evolves.ite
    | with_reducible apply modStream_ev (hm.of (by decide)) | with_reducible apply closeGap_ev (hm.of (by decide))
    | split | (dsimp only; split)

theorem curtail_ev {m : Nat} {z0 : State} {k : Nat} {s : State} (hm : Within 0x2000100 m) (hev : Evolves m z0 s) :
    Evolves m z0 (curtail k s) := by
  unfold curtail
  repeat' first
    | intro _ | with_reducible assumption | with_reducible apply Evolves.ite
    | with_reducible apply raise_ev (hm.of (by decide)) | with_reducible apply modStream_ev (hm.of (by decide))
    | with_reducible apply queueMarker_ev (hm.of (by decide))
    | with_reducible refine modStore_ev (hm.of (by decide)) (fun _ => ⟨rfl, rfl, rfl⟩) ?_
    | with_reducible refine modStore_ev (hm.of (by decide)) (fun _ => by split <;> exact ⟨rfl, rfl, rfl⟩) ?_ | split
    | (dsimp only; split)

theorem protectSeg_ev {m : Nat} {z0 : State} {k q : Nat} {s : State} (hm : Within 0x2000100 m)
    (hev : Evolves m z0 s) :
    Evolves m z0 (protectSeg k q s).1 := by
  unfold protectSeg
  repeat' first
    | intro _ | with_reducible assumption | with_reducible apply Evolves.ite | with_reducible apply Evolves.ite_fst
    | with_reducible apply modSeg_ev (hm.of (by decide)) | with_reducible apply capReview_ev (hm.of (by decide))
    | with_reducible refine modStore_ev (hm.of (by decide)) (fun _ => ⟨rfl, rfl, rfl⟩) ?_
    | with_reducible refine modStore_ev (hm.of (by decide)) (fun _ => by split <;> exact ⟨rfl, rfl, rfl⟩) ?_ | split
    | (dsimp only; split)

theorem protectAll_ev {m : Nat} {z0 : State} {k : Nat} {l : List Nat} {s : State} (hm : Within 0x2000100 m) (hev : Evolves m z0 s) :
    Evolves m z0 (protectAll k l s) := by
  induction l generalizing s with
  | nil => exact hev
  | cons q qs ih =>
    unfold protectAll
    repeat' first
      | intro _ | with_reducible assumption | with_reducible apply Evolves.ite | with_reducible apply ih
      | with_reducible apply curtail_ev (hm.of (by decide)) | with_reducible apply protectSeg_ev (hm.of (by decide))
      | refine Evolves.fst (by assumption) ?_ | split | (dsimp only; split)

theorem lockTrigger_ev {m : Nat} {z0 : State} {k trig row t : Nat} {s : State} (hm : Within 0x2000100 m) (hev : Evolves m z0 s) :
    Evolves m z0 (lockTrigger k trig row t s).1 := by
  unfold lockTrigger
  extract_lets x start stop s1 s2 covered s3 s4 s5
  split
  · exact queueMarker_ev (hm.of (by decide)) (modStream_ev (hm.of (by decide)) hev)
  · split
    · exact raise_ev (hm.of (by decide)) (queueMarker_ev (hm.of (by decide)) hev)
    · have h3 : Evolves m z0 s3 := protectAll_ev (hm.of (by decide)) (putRowWord_ev (hm.of (by decide)) (modStream_ev (hm.of (by decide)) hev))
      have h4 : Evolves m z0 s4 := Evolves.ite (queueMarker_ev (hm.of (by decide)) h3) h3
      have h5 : Evolves m z0 s5 := Evolves.ite (modStore_ev (hm.of (by decide)) (fun _ => ⟨rfl, rfl, rfl⟩) (modStream_ev (hm.of (by decide)) h4)) h4
      exact capReview_ev (hm.of (by decide)) h5

theorem openIn_ev {m : Nat} {z0 : State} {k b : Nat} {s : State} (hm : Within 0x2000100 m) (hev : Evolves m z0 s) :
    Evolves m z0 (openIn k b s) := by
  unfold openIn
  repeat' first
    | intro _ | with_reducible assumption | with_reducible apply Evolves.ite
    | with_reducible apply modStream_ev (hm.of (by decide)) | with_reducible apply modBlock_ev (hm.of (by decide))
    | with_reducible apply modJournal_ev (hm.of (by decide)) | with_reducible apply curtail_ev (hm.of (by decide))
    | with_reducible apply protectSeg_ev (hm.of (by decide))
    | with_reducible refine modStore_ev (hm.of (by decide)) (fun _ => ⟨rfl, rfl, rfl⟩) ?_
    | with_reducible refine modStore_ev (hm.of (by decide)) (fun _ => by split <;> exact ⟨rfl, rfl, rfl⟩) ?_ | split
    | (dsimp only; split) | refine Evolves.fst (by assumption) ?_

theorem needSeg_ev {m : Nat} {z0 : State} {k : Nat} {s : State} (hm : Within 0x2005180 m) (hev : Evolves m z0 s) : Evolves m z0 (needSeg k s).1 := by
  unfold needSeg
  extract_lets x limit full
  refine Evolves.ite_fst (raise_ev (hm.of (by decide)) (stopStream_ev (hm.of (by decide)) hev)) (Evolves.ite_fst ?_ (Evolves.ite_fst hev
    (Evolves.ite_fst (stopStream_ev (hm.of (by decide)) hev) ?_)))
  · split
    · exact openIn_ev (hm.of (by decide)) hev
    · exact hev
  · split
    · exact Evolves.ite_fst hev (stopStream_ev (hm.of (by decide)) hev)
    · extract_lets s1
      have h1 : Evolves m z0 s1 := dropSeg_ev (hm.of (by decide)) hev
      split
      · exact Evolves.ite_fst (openIn_ev (hm.of (by decide)) h1) h1
      · exact h1

theorem buildItem_ev {m : Nat} {z0 : State} {k : Nat} {ecc : EccHit} {s0 : State} (hm : Within 0x60851a4 m)
    (hev : Evolves m z0 s0) :
    Evolves m z0 (buildItem k ecc s0).1 := by
  unfold buildItem
  repeat' first
    | intro _ | with_reducible assumption | with_reducible apply Evolves.ite | with_reducible apply Evolves.ite_fst
    | with_reducible apply perfAdd_ev (hm.of (by decide)) | with_reducible apply release_ev (hm.of (by decide))
    | with_reducible apply cellError_ev (hm.of (by decide))
    | with_reducible apply cellsCorrected_ev (hm.of (by decide))
    | with_reducible apply countRxEcc_ev (hm.of (by decide)) | with_reducible apply modStream_ev (hm.of (by decide))
    | with_reducible apply modSeg_ev (hm.of (by decide)) | with_reducible apply closeGap_ev (hm.of (by decide))
    | with_reducible apply closeSeg_ev (hm.of (by decide)) | with_reducible apply needSeg_ev (hm.of (by decide))
    | with_reducible refine modStore_ev (hm.of (by decide)) (fun _ => ⟨rfl, rfl, rfl⟩) ?_
    | with_reducible refine modStore_ev (hm.of (by decide)) (fun _ => by split <;> exact ⟨rfl, rfl, rfl⟩) ?_ | split
    | (dsimp only; split) | refine Evolves.fst (by assumption) ?_

theorem buildLoop_ev {m : Nat} {z0 : State} {k : Nat} {all : Bool} {ecc : EccHit} {n : Nat} {s : State} (hm : Within 0x60851a4 m) (hev : Evolves m z0 s) :
    Evolves m z0 (buildLoop k all ecc n s) := by
  induction n generalizing s ecc with
  | zero => exact hev
  | succ n ih =>
    unfold buildLoop
    repeat' first
      | intro _ | with_reducible assumption | with_reducible apply Evolves.ite | with_reducible apply ih
      | with_reducible apply buildItem_ev (hm.of (by decide)) | refine Evolves.fst (by assumption) ?_ | split
      | (dsimp only; split)

theorem buildAll_ev {m : Nat} {z0 : State} {k : Nat} {s : State} (hm : Within 0x60851a4 m) (hev : Evolves m z0 s) :
    Evolves m z0 (buildAll k s) := by
  unfold buildAll
  repeat' first
    | intro _ | with_reducible assumption | with_reducible apply Evolves.ite
    | with_reducible apply buildLoop_ev (hm.of (by decide)) | split | (dsimp only; split)

theorem fillPage_ev {m : Nat} {z0 : State} {k : Nat} {s : State} (hm : Within 0x2000000 m) (hev : Evolves m z0 s) :
    Evolves m z0 (fillPage k s) := by
  unfold fillPage
  repeat' first
    | intro _ | with_reducible assumption | with_reducible apply Evolves.ite
    | with_reducible apply modSeg_ev (hm.of (by decide))
    | with_reducible refine modStore_ev (hm.of (by decide)) (fun _ => ⟨rfl, rfl, rfl⟩) ?_
    | with_reducible refine modStore_ev (hm.of (by decide)) (fun _ => by split <;> exact ⟨rfl, rfl, rfl⟩) ?_ | split
    | (dsimp only; split)

theorem pageBuildEffect_ev {m : Nat} {z0 : State} {k : Nat} {ecc : EccHit} {s : State} (hm : Within 0x60851a4 m)
    (hev : Evolves m z0 s) :
    Evolves m z0 (pageBuildEffect k ecc s) := by
  unfold pageBuildEffect
  repeat' first
    | intro _ | with_reducible assumption | with_reducible apply Evolves.ite
    | with_reducible apply buildLoop_ev (hm.of (by decide)) | with_reducible apply fillPage_ev (hm.of (by decide))
    | split | (dsimp only; split)

theorem recordWaitExpiryEffect_ev {m : Nat} {z0 : State} {k : Nat} {ecc : EccHit} {s : State} (hm : Within 0x460c55a6 m)
    (hev : Evolves m z0 s) :
    Evolves m z0 (recordWaitExpiryEffect k ecc s) := by
  unfold recordWaitExpiryEffect
  repeat' first
    | intro _ | with_reducible assumption | with_reducible apply Evolves.ite
    | with_reducible apply waitUntil_ev (hm.of (by decide)) | with_reducible apply buildLoop_ev (hm.of (by decide))
    | with_reducible apply fillPage_ev (hm.of (by decide)) | split | (dsimp only; split)

theorem pageProgramEffect_ev {m : Nat} {z0 : State} {s : State} (hm : Within 0x2000000 m) (hev : Evolves m z0 s) :
    Evolves m z0 (pageProgramEffect s) := by
  unfold pageProgramEffect
  repeat' first
    | intro _ | with_reducible assumption | with_reducible apply Evolves.ite
    | with_reducible apply nandIssue_ev (hm.of (by decide))
    | with_reducible refine modStore_ev (hm.of (by decide)) (fun _ => ⟨rfl, rfl, rfl⟩) ?_
    | with_reducible refine modStore_ev (hm.of (by decide)) (fun _ => by split <;> exact ⟨rfl, rfl, rfl⟩) ?_ | split
    | (dsimp only; split)

theorem pageDone_ev {m : Nat} {z0 : State} {p : Page} {s : State} (hm : Within 0x2080100 m) (hev : Evolves m z0 s) :
    Evolves m z0 (pageDone p s) := by
  unfold pageDone
  repeat' first
    | intro _ | with_reducible assumption | with_reducible apply Evolves.ite
    | with_reducible apply perfAdd_ev (hm.of (by decide)) | with_reducible apply modSeg_ev (hm.of (by decide))
    | with_reducible refine modStore_ev (hm.of (by decide)) (fun _ => ⟨rfl, rfl, rfl⟩) ?_
    | with_reducible refine modStore_ev (hm.of (by decide)) (fun _ => by split <;> exact ⟨rfl, rfl, rfl⟩) ?_ | split
    | (dsimp only; split)

theorem dogRestart_ev {m : Nat} {z0 : State} {k : Nat} {s : State} (hm : Within 0x2000000 m) (hev : Evolves m z0 s) :
    Evolves m z0 (dogRestart k s) := by
  unfold dogRestart
  repeat' first
    | intro _ | with_reducible assumption | with_reducible apply Evolves.ite
    | with_reducible apply modStream_ev (hm.of (by decide)) | split | (dsimp only; split)

theorem abandonPages_ev {m : Nat} {z0 : State} {g : Segment} {s : State} (hm : Within 0x2000000 m)
    (hev : Evolves m z0 s) :
    Evolves m z0 (abandonPages g s) := by
  unfold abandonPages
  repeat' first
    | intro _ | with_reducible assumption | with_reducible apply Evolves.ite
    | with_reducible apply modJournal_ev (hm.of (by decide))
    | with_reducible refine modStore_ev (hm.of (by decide)) (fun _ => ⟨rfl, rfl, rfl⟩) ?_
    | with_reducible refine modStore_ev (hm.of (by decide)) (fun _ => by split <;> exact ⟨rfl, rfl, rfl⟩) ?_ | split
    | (dsimp only; split)

theorem relocate_ev {m : Nat} {z0 : State} {p : Page} {s : State} (hm : Within 0x2000180 m) (hev : Evolves m z0 s) :
    Evolves m z0 (relocate p s) := by
  unfold relocate
  repeat' first
    | intro _ | with_reducible assumption | with_reducible apply Evolves.ite
    | with_reducible apply modSeg_ev (hm.of (by decide)) | with_reducible apply modBlock_ev (hm.of (by decide))
    | with_reducible apply retire_ev (hm.of (by decide)) | with_reducible apply dogRestart_ev (hm.of (by decide))
    | with_reducible apply abandonPages_ev (hm.of (by decide))
    | with_reducible refine modStore_ev (hm.of (by decide)) (fun _ => ⟨rfl, rfl, rfl⟩) ?_
    | with_reducible refine modStore_ev (hm.of (by decide)) (fun _ => by split <;> exact ⟨rfl, rfl, rfl⟩) ?_ | split
    | (dsimp only; split)

theorem pageProgramEndEffect_ev {m : Nat} {z0 : State} {k : Nat} {failed : Bool} {s : State} (hm : Within 0x2080180 m)
    (hev : Evolves m z0 s) :
    Evolves m z0 (pageProgramEndEffect k failed s) := by
  unfold pageProgramEndEffect
  repeat' first
    | intro _ | with_reducible assumption | with_reducible apply Evolves.ite
    | with_reducible apply pageDone_ev (hm.of (by decide)) | with_reducible apply dogRestart_ev (hm.of (by decide))
    | with_reducible apply relocate_ev (hm.of (by decide)) | split | (dsimp only; split)

theorem storeGone_ev {m : Nat} {z0 : State} {m' : Nat} {s : State} (hm : Within 0x2400080 m) (hev : Evolves m z0 s) :
    Evolves m z0 (storeGone m' s) := by
  unfold storeGone
  repeat' first
    | intro _ | with_reducible assumption | with_reducible apply Evolves.ite
    | with_reducible apply setPw_ev (hm.of (by decide))
    | with_reducible refine modStore_ev (hm.of (by decide)) (fun _ => ⟨rfl, rfl, rfl⟩) ?_
    | with_reducible refine modStore_ev (hm.of (by decide)) (fun _ => by split <;> exact ⟨rfl, rfl, rfl⟩) ?_ | split
    | (dsimp only; split) | with_reducible refine Evolves.set_canopy (hm.bit (by decide)) ?_

theorem discardRefs_ev {m : Nat} {z0 : State} {s : State} (hm : Within 0x2005100 m) (hev : Evolves m z0 s) :
    Evolves m z0 (discardRefs s) := by
  unfold discardRefs
  repeat' first
    | intro _ | with_reducible assumption | with_reducible apply Evolves.ite
    | with_reducible apply dropWaiting_ev (hm.of (by decide)) | with_reducible apply forEach_ev
    | with_reducible refine modStore_ev (hm.of (by decide)) (fun _ => ⟨rfl, rfl, rfl⟩) ?_
    | with_reducible refine modStore_ev (hm.of (by decide)) (fun _ => by split <;> exact ⟨rfl, rfl, rfl⟩) ?_ | split
    | (dsimp only; split)

theorem storeDone_ev {m : Nat} {z0 : State} {err : Nat} {s : State} (hm : Within 0x2000100 m) (hev : Evolves m z0 s) :
    Evolves m z0 (storeDone err s) := by
  unfold storeDone
  repeat' first
    | intro _ | with_reducible assumption | with_reducible apply Evolves.ite
    | with_reducible apply raise_ev (hm.of (by decide))
    | with_reducible refine modStore_ev (hm.of (by decide)) (fun _ => ⟨rfl, rfl, rfl⟩) ?_
    | with_reducible refine modStore_ev (hm.of (by decide)) (fun _ => by split <;> exact ⟨rfl, rfl, rfl⟩) ?_ | split
    | (dsimp only; split)

theorem storeCut_ev {m : Nat} {z0 : State} {s : State} (hm : Within 0x2000100 m) (hev : Evolves m z0 s) :
    Evolves m z0 (storeCut s) := by
  unfold storeCut
  repeat' first
    | intro _ | with_reducible assumption | with_reducible apply Evolves.ite
    | with_reducible apply storeDone_ev (hm.of (by decide)) | split | (dsimp only; split)

theorem storeFault_ev {m : Nat} {z0 : State} {s : State} (hm : Within 0x64051a0 m) (hev : Evolves m z0 s) :
    Evolves m z0 (storeFault s) := by
  unfold storeFault
  repeat' first
    | intro _ | with_reducible assumption | with_reducible apply Evolves.ite
    | with_reducible apply setMFault_ev (hm.of (by decide)) | with_reducible apply storeGone_ev (hm.of (by decide))
    | with_reducible apply discardRefs_ev (hm.of (by decide)) | with_reducible apply storeCut_ev (hm.of (by decide))
    | split | (dsimp only; split)

theorem streamWriteWatchdogEffect_ev {m : Nat} {z0 : State} {k : Nat} {s : State} (hm : Within 0x464c55a2 m)
    (hev : Evolves m z0 s) :
    Evolves m z0 (streamWriteWatchdogEffect k s) := by
  unfold streamWriteWatchdogEffect
  repeat' first
    | intro _ | with_reducible assumption | with_reducible apply Evolves.ite
    | with_reducible apply waitUntil_ev (hm.of (by decide)) | with_reducible apply storeFault_ev (hm.of (by decide))
    | split | (dsimp only; split)

theorem storeTrigEdgeEffect_ev {m : Nat} {z0 : State} {k : Nat} {s : State} (hm : Within 0x2000100 m)
    (hev : Evolves m z0 s) :
    Evolves m z0 (storeTrigEdgeEffect k s) := by
  unfold storeTrigEdgeEffect
  repeat' first
    | intro _ | with_reducible assumption | with_reducible apply Evolves.ite
    | with_reducible apply lockTrigger_ev (hm.of (by decide)) | with_reducible apply forAll_ev | split
    | (dsimp only; split) | refine Evolves.fst (by assumption) ?_

theorem lockWindowEndEffect_ev {m : Nat} {z0 : State} {k : Nat} {s : State} (hm : Within 0x420c4582 m)
    (hev : Evolves m z0 s) :
    Evolves m z0 (lockWindowEndEffect k s) := by
  unfold lockWindowEndEffect
  repeat' first
    | intro _ | with_reducible assumption | with_reducible apply Evolves.ite
    | with_reducible apply waitDev_ev (hm.of (by decide)) | with_reducible apply modStream_ev (hm.of (by decide))
    | with_reducible apply capReview_ev (hm.of (by decide))
    | with_reducible refine modStore_ev (hm.of (by decide)) (fun _ => ⟨rfl, rfl, rfl⟩) ?_
    | with_reducible refine modStore_ev (hm.of (by decide)) (fun _ => by split <;> exact ⟨rfl, rfl, rfl⟩) ?_ | split
    | (dsimp only; split)

theorem holdExpiryEffect_ev {m : Nat} {z0 : State} {k : Nat} {s : State} (hm : Within 0x420c4582 m)
    (hev : Evolves m z0 s) :
    Evolves m z0 (holdExpiryEffect k s) := by
  unfold holdExpiryEffect
  repeat' first
    | intro _ | with_reducible assumption | with_reducible apply Evolves.ite
    | with_reducible apply waitUntil_ev (hm.of (by decide)) | with_reducible apply capReview_ev (hm.of (by decide))
    | with_reducible refine modStore_ev (hm.of (by decide)) (fun _ => ⟨rfl, rfl, rfl⟩) ?_
    | with_reducible refine modStore_ev (hm.of (by decide)) (fun _ => by split <;> exact ⟨rfl, rfl, rfl⟩) ?_
    | with_reducible apply Evolves.foldl | split | (dsimp only; split)

theorem releaseStream_ev {m : Nat} {z0 : State} {k : Nat} {s : State} (hm : Within 0x2000100 m)
    (hev : Evolves m z0 s) :
    Evolves m z0 (releaseStream k s) := by
  unfold releaseStream
  repeat' first
    | intro _ | with_reducible assumption | with_reducible apply Evolves.ite
    | with_reducible apply capReview_ev (hm.of (by decide))
    | with_reducible refine modStore_ev (hm.of (by decide)) (fun _ => ⟨rfl, rfl, rfl⟩) ?_
    | with_reducible refine modStore_ev (hm.of (by decide)) (fun _ => by split <;> exact ⟨rfl, rfl, rfl⟩) ?_ | split
    | (dsimp only; split)

/-- The store changed with the reserved area emptied. -/
theorem modStore_empty_ev {m : Nat} {z0 : State} {f : Store → Store} {s : State} (hm : Within 0x2000000 m)
    (hf : ∀ x, (f x).area = [] ∧ (f x).otpKey = x.otpKey ∧ (f x).otpLock = x.otpLock) (h : Evolves m z0 s) :
    Evolves m z0 (modStore f s) := by
  obtain ⟨ha, hk, hl⟩ := hf s.store
  exact h.set_store (hm.bit (by decide)) (by rw [ha]; exact fun _ => rfl) (by rw [hk]; exact fun _ h => h) (by rw [hl]; exact id)

theorem eraseArea_ev {m : Nat} {z0 : State} {s : State} (hm : Within 0x2000180 m) (hev : Evolves m z0 s) :
    Evolves m z0 (eraseArea s).1 := by
  have h : Evolves m z0 (modStore (fun x => { x with area := [], areaNext := none }) s) :=
    modStore_empty_ev (hm.of (by decide)) (fun _ => ⟨rfl, rfl, rfl⟩) hev
  unfold eraseArea
  refine Evolves.foldl_fst _ _ (fun b p hp => ?_) (p := (_, true)) h
  obtain ⟨u, ok⟩ := p
  exact eraseSystem_ev (hm.of (by decide)) (b := b) hp

theorem areaWrite_ev {m : Nat} {z0 : State} {off : Nat} {bytes : List Byte} {failed : Bool} {s t : State}
    (hm : Within 0x2000180 m) (hev : Evolves m z0 s) (he : areaWrite off bytes failed s = some t) : Evolves m z0 t := by
  have put : ∀ u, Evolves m z0 u → Evolves m z0 (modStore (fun x => { x with
      area := cellsWrite 0xFF x.area off bytes, areaNext := some (off + bytes.length) }) u) := fun u h =>
    Evolves.set_store (hm.bit (by decide)) (fun h => Memory.wf_cellsWrite _ _ _ _ h) (fun _ h => h) id h
  unfold areaWrite at he
  split at he
  · cases he; exact put _ hev
  · split at he
    · cases he; exact put _ hev
    · split at he
      · next hr => cases he; exact put _ (Evolves.fst hr (replaceSystem_ev (hm.of (by decide)) hev))
      · cases he

theorem storeWrite_ev {m : Nat} {z0 : State} {a : Nat} {bytes : List Byte} {failed : Bool} {s t : State}
    (hm : Within 0x2000180 m) (hev : Evolves m z0 s) (he : storeWrite a bytes failed s = some t) : Evolves m z0 t := by
  unfold storeWrite at he
  extract_lets n at he
  split at he
  · cases he
  split at he
  · cases he; exact modStore_ev (hm.of (by decide)) (fun _ => ⟨rfl, rfl, rfl⟩) hev
  split at he
  · next hk =>
    cases he
    refine Evolves.set_store (hm.bit (by decide)) id (fun k h => ?_) id hev
    rw [h] at hk; simp at hk
  split at he
  · cases he
    exact Evolves.set_store (hm.bit (by decide)) id (fun _ h => h) (fun _ => rfl) hev
  split at he
  · split at he
    · split at he
      · next hr => exact areaWrite_ev (hm.of (by decide)) (Evolves.fst hr (eraseArea_ev (hm.of (by decide)) hev)) he
      · cases he
    · split at he
      · exact areaWrite_ev (hm.of (by decide)) hev he
      · cases he
  · cases he

end Sys2Proof.Machine
end

