-- ==== Sys2Proof/Laws/EvolveNand.lean ====
section
/-! SUPPORT. What every operation of Machine/Nand.lean may change, and the promises it keeps (Evolves). -/

set_option Elab.async false

set_option linter.unusedTactic false
set_option linter.unreachableTactic false

namespace Sys2Proof.Machine

theorem readPage_ev {m : Nat} {z0 : State} {b i : Nat} {r : PageRead} {s : State} (hm : Within 0x2080100 m)
    (hev : Evolves m z0 s) :
    Evolves m z0 (readPage b i r s).1 := by
  unfold readPage
  repeat' first
    | intro _ | with_reducible assumption | with_reducible apply Evolves.ite | with_reducible apply Evolves.ite_fst
    | with_reducible apply perfAdd_ev (hm.of (by decide)) | with_reducible apply nandIssue_ev (hm.of (by decide))
    | with_reducible apply modBlock_ev (hm.of (by decide))
    | with_reducible refine modStore_ev (hm.of (by decide)) (fun _ => ⟨rfl, rfl, rfl⟩) ?_
    | with_reducible refine modStore_ev (hm.of (by decide)) (fun _ => by split <;> exact ⟨rfl, rfl, rfl⟩) ?_ | split
    | (dsimp only; split)

theorem readPages_ev {m : Nat} {z0 : State} {l : List (Nat × Nat)} {l' : List PageRead} {s : State} (hm : Within 0x2080100 m)
    (hev : Evolves m z0 s) :
    Evolves m z0 (readPages l l' s).1 := by
  induction l generalizing l' s with
  | nil => exact hev
  | cons a l ih =>
    unfold readPages
    repeat' first
      | intro _ | with_reducible assumption | with_reducible apply Evolves.ite | with_reducible apply ih
      | with_reducible apply Evolves.ite_fst | with_reducible apply readPage_ev (hm.of (by decide)) | split
      | (dsimp only; split) | refine Evolves.fst (by assumption) ?_

theorem storeFetch_ev {m : Nat} {z0 : State} {a n : Nat} {rs : List PageRead} {s : State} (hm : Within 0x2080100 m)
    (hev : Evolves m z0 s) :
    Evolves m z0 (storeFetch a n rs s).1 := by
  unfold storeFetch
  repeat' first
    | intro _ | with_reducible assumption | with_reducible apply Evolves.ite | with_reducible apply Evolves.ite_fst
    | with_reducible apply readPages_ev (hm.of (by decide)) | split | (dsimp only; split)
    | refine Evolves.fst (by assumption) ?_

end Sys2Proof.Machine
end

