-- ==== Sys2Proof/Laws/EvolveMedium.lean ====
section
/-! SUPPORT. What every operation of Machine/Medium.lean may change, and the promises it keeps (Evolves). -/

set_option Elab.async false

set_option linter.unusedTactic false
set_option linter.unreachableTactic false

namespace Sys2Proof.Machine

theorem discover_ev {m : Nat} {z0 : State} {c : Cartridge} {g : Geometry} {format : Bool} {s : State} (hm : Within 0x2400080 m)
    (hev : Evolves m z0 s) :
    Evolves m z0 (discover c g format s) := by
  unfold discover
  repeat' first
    | intro _ | with_reducible assumption | with_reducible apply Evolves.ite
    | with_reducible apply setPw_ev (hm.of (by decide)) | with_reducible apply nandIssue_ev (hm.of (by decide))
    | with_reducible refine modStore_ev (hm.of (by decide)) (fun _ => ⟨rfl, rfl, rfl⟩) ?_
    | with_reducible refine modStore_ev (hm.of (by decide)) (fun _ => by split <;> exact ⟨rfl, rfl, rfl⟩) ?_ | split
    | (dsimp only; split) | with_reducible refine Evolves.set_canopy (hm.bit (by decide)) ?_

theorem clearMedium_ev {m : Nat} {z0 : State} {s : State} (hm : Within 0x2000000 m) (hev : Evolves m z0 s) :
    Evolves m z0 (clearMedium s) := by
  unfold clearMedium
  repeat' first
    | intro _ | with_reducible assumption | with_reducible apply Evolves.ite
    | with_reducible refine modStore_ev (hm.of (by decide)) (fun _ => ⟨rfl, rfl, rfl⟩) ?_
    | with_reducible refine modStore_ev (hm.of (by decide)) (fun _ => by split <;> exact ⟨rfl, rfl, rfl⟩) ?_ | split
    | (dsimp only; split)

theorem loadSegments_ev {m : Nat} {z0 : State} {fs : List FoundSegment} {fresh : List Nat} {s : State} (hm : Within 0x2000000 m)
    (hev : Evolves m z0 s) : Evolves m z0 (loadSegments fs fresh s) := by
  unfold loadSegments
  extract_lets segs
  refine forAll_ev _ _ (fun k v hv => ?_) (modStore_ev (hm.of (by decide)) (fun _ => ⟨rfl, rfl, rfl⟩) hev)
  split
  · exact hv
  · exact modStream_ev (hm.of (by decide)) hv

theorem powerFrom_ev {m : Nat} {z0 : State} {n : Nat} {s : State} (hm : Within 0x2000000 m) (hev : Evolves m z0 s) :
    Evolves m z0 (powerFrom n s) := by
  unfold powerFrom
  repeat' first
    | intro _ | with_reducible assumption | with_reducible apply Evolves.ite
    | with_reducible refine modStore_ev (hm.of (by decide)) (fun _ => ⟨rfl, rfl, rfl⟩) ?_
    | with_reducible refine modStore_ev (hm.of (by decide)) (fun _ => by split <;> exact ⟨rfl, rfl, rfl⟩) ?_ | split
    | (dsimp only; split)

theorem recordTime_ev {m : Nat} {z0 : State} {s : State} (hm : Within 0x2000000 m) (hev : Evolves m z0 s) :
    Evolves m z0 (recordTime s) := by
  unfold recordTime
  repeat' first
    | intro _ | with_reducible assumption | with_reducible apply Evolves.ite
    | with_reducible apply modJournal_ev (hm.of (by decide)) | split | (dsimp only; split)

theorem completeMount_ev {m : Nat} {z0 : State} {g : Geometry} {j : Journal} {c : Cartridge} {s : State} (hm : Within 0x2000180 m)
    (hev : Evolves m z0 s) : Evolves m z0 (completeMount g j c s) := by
  unfold completeMount
  extract_lets bs s1 s2
  have h1 : Evolves m z0 s1 := powerFrom_ev (hm.of (by decide))
    (Evolves.set_store (hm.bit (by decide)) (fun _ => Memory.wf_cellsWrite _ _ _ _ rfl) (fun _ h => h) (fun h => h) hev)
  have h2 : Evolves m z0 s2 := setPw_ev (hm.of (by decide)) (putHealth_ev (hm.of (by decide)) h1)
  exact capReview_ev (hm.of (by decide))
    (modStore_ev (hm.of (by decide)) (fun _ => ⟨rfl, rfl, rfl⟩) (loadSegments_ev (hm.of (by decide)) h2))

theorem mountFail_ev {m : Nat} {z0 : State} {err : Nat} {command : Bool} {s : State} (hm : Within 0x2400180 m)
    (hev : Evolves m z0 s) :
    Evolves m z0 (mountFail err command s) := by
  unfold mountFail
  repeat' first
    | intro _ | with_reducible assumption | with_reducible apply Evolves.ite
    | with_reducible apply raise_ev (hm.of (by decide)) | with_reducible apply storeGone_ev (hm.of (by decide))
    | with_reducible apply clearMedium_ev (hm.of (by decide))
    | with_reducible refine modStore_ev (hm.of (by decide)) (fun _ => ⟨rfl, rfl, rfl⟩) ?_
    | with_reducible refine modStore_ev (hm.of (by decide)) (fun _ => by split <;> exact ⟨rfl, rfl, rfl⟩) ?_ | split
    | (dsimp only; split)

theorem mountApply_ev {m : Nat} {z0 : State} {d : Discovery} {command : Bool} {s : State} (hm : Within 0x2400180 m)
    (hev : Evolves m z0 s) :
    Evolves m z0 (mountApply d command s) := by
  unfold mountApply
  repeat' first
    | intro _ | with_reducible assumption | with_reducible apply Evolves.ite
    | with_reducible apply setPw_ev (hm.of (by decide)) | with_reducible apply ageCatchUp_ev (hm.of (by decide))
    | with_reducible apply nandIssue_ev (hm.of (by decide)) | with_reducible apply storeGone_ev (hm.of (by decide))
    | with_reducible apply discover_ev (hm.of (by decide)) | with_reducible apply clearMedium_ev (hm.of (by decide))
    | with_reducible apply recordTime_ev (hm.of (by decide))
    | with_reducible apply completeMount_ev (hm.of (by decide))
    | with_reducible apply mountFail_ev (hm.of (by decide))
    | with_reducible refine modStore_ev (hm.of (by decide)) (fun _ => ⟨rfl, rfl, rfl⟩) ?_
    | with_reducible refine modStore_ev (hm.of (by decide)) (fun _ => by split <;> exact ⟨rfl, rfl, rfl⟩) ?_ | split
    | (dsimp only; split)

theorem streamsReturn_ev {m : Nat} {z0 : State} {former : Tab Stream} {s : State} (hm : Within 0x2000100 m)
    (hev : Evolves m z0 s) :
    Evolves m z0 (streamsReturn former s) := by
  unfold streamsReturn
  repeat' first
    | intro _ | with_reducible assumption | with_reducible apply Evolves.ite
    | with_reducible apply modStream_ev (hm.of (by decide)) | with_reducible apply capReview_ev (hm.of (by decide))
    | with_reducible apply forEach_ev | split | (dsimp only; split)

theorem mediumMountEffect_ev {m : Nat} {z0 : State} {d : Discovery} {s : State} (hm : Within 0x12400180 m)
    (hev : Evolves m z0 s) :
    Evolves m z0 (mediumMountEffect d s) := by
  unfold mediumMountEffect
  repeat' first
    | intro _ | with_reducible assumption | with_reducible apply Evolves.ite
    | with_reducible apply mountApply_ev (hm.of (by decide))
    | with_reducible apply streamsReturn_ev (hm.of (by decide)) | split | (dsimp only; split)
    | with_reducible refine Evolves.set_power (hm.bit (by decide)) ?_

theorem presencePollEffect_ev {m : Nat} {z0 : State} {signature : Bool} {s : State} (hm : Within 0x424c4582 m)
    (hev : Evolves m z0 s) :
    Evolves m z0 (presencePollEffect signature s) := by
  unfold presencePollEffect
  repeat' first
    | intro _ | with_reducible assumption | with_reducible apply Evolves.ite
    | with_reducible apply waitUntil_ev (hm.of (by decide)) | with_reducible apply nandIssue_ev (hm.of (by decide))
    | with_reducible apply storeGone_ev (hm.of (by decide)) | with_reducible apply storeCut_ev (hm.of (by decide))
    | with_reducible apply clearMedium_ev (hm.of (by decide))
    | with_reducible refine modStore_ev (hm.of (by decide)) (fun _ => ⟨rfl, rfl, rfl⟩) ?_
    | with_reducible refine modStore_ev (hm.of (by decide)) (fun _ => by split <;> exact ⟨rfl, rfl, rfl⟩) ?_ | split
    | (dsimp only; split)

theorem formatBegin_ev {m : Nat} {z0 : State} {d : Discovery} {s : State} (hm : Within 0x2400180 m)
    (hev : Evolves m z0 s) :
    Evolves m z0 (formatBegin d s) := by
  unfold formatBegin
  repeat' first
    | intro _ | with_reducible assumption | with_reducible apply Evolves.ite
    | with_reducible apply nandIssue_ev (hm.of (by decide)) | with_reducible apply storeDone_ev (hm.of (by decide))
    | with_reducible apply discover_ev (hm.of (by decide)) | with_reducible apply mountFail_ev (hm.of (by decide))
    | with_reducible refine modStore_ev (hm.of (by decide)) (fun _ => ⟨rfl, rfl, rfl⟩) ?_
    | with_reducible refine modStore_ev (hm.of (by decide)) (fun _ => by split <;> exact ⟨rfl, rfl, rfl⟩) ?_ | split
    | (dsimp only; split)

theorem formatApply_ev {m : Nat} {z0 : State} {d : Discovery} {o : StoreOutcome} {s : State} (hm : Within 0x2400180 m)
    (hev : Evolves m z0 s) :
    Evolves m z0 (formatApply d o s) := by
  unfold formatApply
  repeat' first
    | intro _ | with_reducible assumption | with_reducible apply Evolves.ite
    | with_reducible refine modStore_empty_ev (hm.of (by decide)) (fun _ => ⟨rfl, rfl, rfl⟩) ?_
    | with_reducible apply nandIssue_ev (hm.of (by decide)) | with_reducible apply putHealth_ev (hm.of (by decide))
    | with_reducible apply capReview_ev (hm.of (by decide)) | with_reducible apply storeDone_ev (hm.of (by decide))
    | with_reducible apply clearMedium_ev (hm.of (by decide)) | with_reducible apply powerFrom_ev (hm.of (by decide))
    | with_reducible apply mountFail_ev (hm.of (by decide))
    | with_reducible refine modStore_ev (hm.of (by decide)) (fun _ => ⟨rfl, rfl, rfl⟩) ?_
    | with_reducible refine modStore_ev (hm.of (by decide)) (fun _ => by split <;> exact ⟨rfl, rfl, rfl⟩) ?_ | split
    | (dsimp only; split)

theorem adoptApply_ev {m : Nat} {z0 : State} {d : Discovery} {o : StoreOutcome} {s : State} (hm : Within 0x2000180 m)
    (hev : Evolves m z0 s) :
    Evolves m z0 (adoptApply d o s) := by
  unfold adoptApply
  repeat' first
    | intro _ | with_reducible assumption | with_reducible apply Evolves.ite
    | with_reducible apply replaceSystem_ev (hm.of (by decide))
    | with_reducible apply storeDone_ev (hm.of (by decide))
    | with_reducible apply completeMount_ev (hm.of (by decide)) | with_reducible apply Evolves.foldl | split
    | (dsimp only; split) | refine Evolves.fst (by assumption) ?_
    | refine Evolves.foldl_fst _ _ (fun b p hp => by obtain ⟨u, ok⟩ := p; exact replaceSystem_ev (hm.of (by decide)) (b := b) hp) ?_

theorem settleStream_ev {m : Nat} {z0 : State} {k : Nat} {s : State} (hm : Within 0x60851a4 m)
    (hev : Evolves m z0 s) :
    Evolves m z0 (settleStream k s) := by
  unfold settleStream
  repeat' first
    | intro _ | with_reducible assumption | with_reducible apply Evolves.ite
    | with_reducible apply dropWaiting_ev (hm.of (by decide)) | with_reducible apply closeSeg_ev (hm.of (by decide))
    | with_reducible apply buildAll_ev (hm.of (by decide)) | split | (dsimp only; split)

theorem storeBegin_ev {m : Nat} {z0 : State} {op k : Nat} {d : Discovery} {s : State} (hm : Within 0x64851a4 m)
    (hev : Evolves m z0 s) :
    Evolves m z0 (storeBegin op k d s) := by
  unfold storeBegin
  repeat' first
    | intro _ | with_reducible assumption | with_reducible apply Evolves.ite
    | with_reducible apply modStream_ev (hm.of (by decide)) | with_reducible apply capReview_ev (hm.of (by decide))
    | with_reducible apply formatBegin_ev (hm.of (by decide))
    | with_reducible apply settleStream_ev (hm.of (by decide)) | with_reducible apply forEach_ev | split
    | (dsimp only; split)

theorem storeCommand_ev {m : Nat} {z0 : State} {op k key : Nat} {d : Discovery} {s : State} (hm : Within 0x64851a4 m)
    (hev : Evolves m z0 s) :
    Evolves m z0 (storeCommand op k key d s) := by
  unfold storeCommand
  repeat' first
    | intro _ | with_reducible assumption | with_reducible apply Evolves.ite
    | with_reducible apply lockTrigger_ev (hm.of (by decide)) | with_reducible apply storeDone_ev (hm.of (by decide))
    | with_reducible apply storeBegin_ev (hm.of (by decide))
    | with_reducible refine modStore_ev (hm.of (by decide)) (fun _ => ⟨rfl, rfl, rfl⟩) ?_
    | with_reducible refine modStore_ev (hm.of (by decide)) (fun _ => by split <;> exact ⟨rfl, rfl, rfl⟩) ?_ | split
    | (dsimp only; split) | refine Evolves.fst (by assumption) ?_

theorem flushPages_ev {m : Nat} {z0 : State} {want : Nat → Bool} {s : State} (hm : Within 0x2080100 m)
    (hev : Evolves m z0 s) :
    Evolves m z0 (flushPages want s) := by
  unfold flushPages
  repeat' first
    | intro _ | with_reducible assumption | with_reducible apply Evolves.ite
    | with_reducible apply pageDone_ev (hm.of (by decide)) | with_reducible apply dogRestart_ev (hm.of (by decide))
    | with_reducible apply forEach_ev | split | (dsimp only; split)

theorem suspended_ev {m : Nat} {z0 : State} {s : State} (hm : Within 0x2000080 m) (hev : Evolves m z0 s) :
    Evolves m z0 (suspended s) := by
  unfold suspended
  repeat' first
    | intro _ | with_reducible assumption | with_reducible apply Evolves.ite
    | with_reducible apply setPw_ev (hm.of (by decide)) | with_reducible apply recordTime_ev (hm.of (by decide))
    | with_reducible refine modStore_ev (hm.of (by decide)) (fun _ => ⟨rfl, rfl, rfl⟩) ?_
    | with_reducible refine modStore_ev (hm.of (by decide)) (fun _ => by split <;> exact ⟨rfl, rfl, rfl⟩) ?_ | split
    | (dsimp only; split)

theorem storeCommandEndEffect_ev {m : Nat} {z0 : State} {o : StoreOutcome} {s : State} (hm : Within 0x2480180 m)
    (hev : Evolves m z0 s) :
    Evolves m z0 (storeCommandEndEffect o s) := by
  unfold storeCommandEndEffect
  repeat' first
    | intro _ | with_reducible assumption | with_reducible apply Evolves.ite
    | with_reducible apply storeDone_ev (hm.of (by decide)) | with_reducible apply mountApply_ev (hm.of (by decide))
    | with_reducible apply streamsReturn_ev (hm.of (by decide))
    | with_reducible apply formatApply_ev (hm.of (by decide)) | with_reducible apply adoptApply_ev (hm.of (by decide))
    | with_reducible apply flushPages_ev (hm.of (by decide)) | with_reducible apply suspended_ev (hm.of (by decide))
    | split | (dsimp only; split)

theorem suspendNow_ev {m : Nat} {z0 : State} {s : State} (hm : Within 0x60851a4 m) (hev : Evolves m z0 s) :
    Evolves m z0 (suspendNow s) := by
  unfold suspendNow
  repeat' first
    | intro _ | with_reducible assumption | with_reducible apply Evolves.ite
    | with_reducible apply settleStream_ev (hm.of (by decide))
    | with_reducible apply flushPages_ev (hm.of (by decide)) | with_reducible apply suspended_ev (hm.of (by decide))
    | with_reducible apply forEach_ev
    | with_reducible refine modStore_ev (hm.of (by decide)) (fun _ => ⟨rfl, rfl, rfl⟩) ?_
    | with_reducible refine modStore_ev (hm.of (by decide)) (fun _ => by split <;> exact ⟨rfl, rfl, rfl⟩) ?_ | split
    | (dsimp only; split)

theorem badBlock_ev {m : Nat} {z0 : State} {b : Nat} {s : State} (hm : Within 0x4000100 m) (hev : Evolves m z0 s) :
    Evolves m z0 (badBlock b s) := by
  unfold badBlock
  repeat' first
    | intro _ | with_reducible assumption | with_reducible apply Evolves.ite
    | with_reducible apply raise_ev (hm.of (by decide)) | with_reducible apply logFault_ev (hm.of (by decide)) | split
    | (dsimp only; split)

theorem powerUpScanEffect_ev {m : Nat} {z0 : State} {rs : List PageRead} {s : State} (hm : Within 0x6080180 m)
    (hev : Evolves m z0 s) :
    Evolves m z0 (powerUpScanEffect rs s) := by
  unfold powerUpScanEffect
  repeat' first
    | intro _ | with_reducible assumption | with_reducible apply Evolves.ite
    | with_reducible apply setPw_ev (hm.of (by decide)) | with_reducible apply readPages_ev (hm.of (by decide))
    | with_reducible apply badBlock_ev (hm.of (by decide))
    | with_reducible refine modStore_ev (hm.of (by decide)) (fun _ => ⟨rfl, rfl, rfl⟩) ?_
    | with_reducible refine modStore_ev (hm.of (by decide)) (fun _ => by split <;> exact ⟨rfl, rfl, rfl⟩) ?_ | split
    | (dsimp only; split) | refine Evolves.fst (by assumption) ?_

theorem moveBlock_ev {m : Nat} {z0 : State} {a b : Nat} {s : State} (hm : Within 0x2000180 m) (hev : Evolves m z0 s) :
    Evolves m z0 (moveBlock a b s) := by
  unfold moveBlock
  repeat' first
    | intro _ | with_reducible assumption | with_reducible apply Evolves.ite
    | with_reducible apply modBlock_ev (hm.of (by decide)) | with_reducible apply modJournal_ev (hm.of (by decide))
    | with_reducible apply eraseIssue_ev (hm.of (by decide))
    | with_reducible refine modStore_ev (hm.of (by decide)) (fun _ => ⟨rfl, rfl, rfl⟩) ?_
    | with_reducible refine modStore_ev (hm.of (by decide)) (fun _ => by split <;> exact ⟨rfl, rfl, rfl⟩) ?_ | split
    | (dsimp only; split)

theorem copyBlock_ev {m : Nat} {z0 : State} {a b : Nat} {rs : List PageRead} {failed : Bool} {s : State} (hm : Within 0x6080180 m)
    (hev : Evolves m z0 s) :
    Evolves m z0 (copyBlock a b rs failed s).1 := by
  unfold copyBlock
  repeat' first
    | intro _ | with_reducible assumption | with_reducible apply Evolves.ite | with_reducible apply Evolves.ite_fst
    | with_reducible apply nandIssue_ev (hm.of (by decide)) | with_reducible apply retire_ev (hm.of (by decide))
    | with_reducible apply readPages_ev (hm.of (by decide)) | with_reducible apply badBlock_ev (hm.of (by decide))
    | with_reducible apply moveBlock_ev (hm.of (by decide)) | split | (dsimp only; split)
    | refine Evolves.fst (by assumption) ?_

theorem coppiceRefreshEffect_ev {m : Nat} {z0 : State} {b : Nat} {rs : List PageRead} {failed : Bool} {s : State} (hm : Within 0x6080180 m)
    (hev : Evolves m z0 s) :
    Evolves m z0 (coppiceRefreshEffect b rs failed s) := by
  unfold coppiceRefreshEffect
  repeat' first
    | intro _ | with_reducible assumption | with_reducible apply Evolves.ite
    | with_reducible apply bumpParam_ev (hm.of (by decide)) | with_reducible apply copyBlock_ev (hm.of (by decide))
    | split | (dsimp only; split) | refine Evolves.fst (by assumption) ?_

theorem wearLevellingMoveEffect_ev {m : Nat} {z0 : State} {rs : List PageRead} {failed : Bool} {s : State} (hm : Within 0x460c4582 m)
    (hev : Evolves m z0 s) :
    Evolves m z0 (wearLevellingMoveEffect rs failed s) := by
  unfold wearLevellingMoveEffect
  repeat' first
    | intro _ | with_reducible assumption | with_reducible apply Evolves.ite
    | with_reducible apply waitUntil_ev (hm.of (by decide)) | with_reducible apply copyBlock_ev (hm.of (by decide))
    | with_reducible refine modStore_ev (hm.of (by decide)) (fun _ => ⟨rfl, rfl, rfl⟩) ?_
    | with_reducible refine modStore_ev (hm.of (by decide)) (fun _ => by split <;> exact ⟨rfl, rfl, rfl⟩) ?_
    | with_reducible apply Evolves.foldl | split | (dsimp only; split) | refine Evolves.fst (by assumption) ?_

theorem ageDayEffect_ev {m : Nat} {z0 : State} {s : State} (hm : Within 0x420c4582 m) (hev : Evolves m z0 s) :
    Evolves m z0 (ageDayEffect s) := by
  unfold ageDayEffect
  repeat' first
    | intro _ | with_reducible assumption | with_reducible apply Evolves.ite
    | with_reducible apply waitUntil_ev (hm.of (by decide)) | with_reducible apply ageBlocks_ev (hm.of (by decide))
    | split | (dsimp only; split)

theorem targetBusyTimeoutEffect_ev {m : Nat} {z0 : State} {t : Nat} {s : State} (hm : Within 0x64051a0 m)
    (hev : Evolves m z0 s) :
    Evolves m z0 (targetBusyTimeoutEffect t s) := by
  unfold targetBusyTimeoutEffect
  repeat' first
    | intro _ | with_reducible assumption | with_reducible apply Evolves.ite
    | with_reducible apply storeFault_ev (hm.of (by decide)) | split | (dsimp only; split)

theorem blockEraseEndEffect_ev {m : Nat} {z0 : State} {b : Nat} {failed : Bool} {s : State} (hm : Within 0x2000180 m)
    (hev : Evolves m z0 s) :
    Evolves m z0 (blockEraseEndEffect b failed s) := by
  unfold blockEraseEndEffect
  repeat' first
    | intro _ | with_reducible assumption | with_reducible apply Evolves.ite
    | with_reducible apply modBlock_ev (hm.of (by decide)) | with_reducible apply capReview_ev (hm.of (by decide))
    | with_reducible apply retire_ev (hm.of (by decide)) | with_reducible apply replaceSystem_ev (hm.of (by decide))
    | with_reducible refine modStore_ev (hm.of (by decide)) (fun _ => ⟨rfl, rfl, rfl⟩) ?_
    | with_reducible refine modStore_ev (hm.of (by decide)) (fun _ => by split <;> exact ⟨rfl, rfl, rfl⟩) ?_ | split
    | (dsimp only; split) | refine Evolves.fst (by assumption) ?_

theorem journalWrite_ev {m : Nat} {z0 : State} {s : State} (hm : Within 0x2000184 m) (hev : Evolves m z0 s) :
    Evolves m z0 (journalWrite s) := by
  unfold journalWrite
  repeat' first
    | intro _ | with_reducible assumption | with_reducible apply Evolves.ite
    | with_reducible apply drawn_ev (hm.of (by decide)) | with_reducible apply replaceSystem_ev (hm.of (by decide))
    | split | (dsimp only; split) | refine Evolves.fst (by assumption) ?_

theorem poweredTimeJournalEffect_ev {m : Nat} {z0 : State} {s : State} (hm : Within 0x420c4586 m)
    (hev : Evolves m z0 s) :
    Evolves m z0 (poweredTimeJournalEffect s) := by
  unfold poweredTimeJournalEffect
  repeat' first
    | intro _ | with_reducible assumption | with_reducible apply Evolves.ite
    | with_reducible apply waitUntil_ev (hm.of (by decide)) | with_reducible apply recordTime_ev (hm.of (by decide))
    | with_reducible apply journalWrite_ev (hm.of (by decide))
    | with_reducible refine modStore_ev (hm.of (by decide)) (fun _ => ⟨rfl, rfl, rfl⟩) ?_
    | with_reducible refine modStore_ev (hm.of (by decide)) (fun _ => by split <;> exact ⟨rfl, rfl, rfl⟩) ?_ | split
    | (dsimp only; split)

end Sys2Proof.Machine
end

