-- ==== Sys2Proof/Laws/EvolveXfer.lean ====
section
/-! SUPPORT. What every operation of Machine/Xfer.lean may change, and the promises it keeps (Evolves). -/

set_option Elab.async false

set_option linter.unusedTactic false
set_option linter.unreachableTactic false

namespace Sys2Proof.Machine

theorem spaceRead_ev {m : Nat} {z0 : State} {c sp a n : Nat} {pages : List PageRead} {s : State} (hm : Within 0x2080104 m)
    (hev : Evolves m z0 s) :
    Evolves m z0 (spaceRead c sp a n pages s).1 := by
  unfold spaceRead
  repeat' first
    | intro _ | with_reducible assumption | with_reducible apply Evolves.ite | with_reducible apply Evolves.ite_fst
    | with_reducible apply drawn_ev (hm.of (by decide)) | with_reducible apply storeFetch_ev (hm.of (by decide))
    | split | (dsimp only; split) | refine Evolves.fst (by assumption) ?_

theorem postPieces_ev {m : Nat} {z0 : State} {t n a : Nat} {bytes : List Byte} {s : State} (hm : Within 0x80900 m) (hev : Evolves m z0 s) :
    Evolves m z0 (postPieces t n a bytes s) := by
  induction n generalizing s a bytes with
  | zero => exact hev
  | succ n ih =>
    unfold postPieces
    repeat' first
      | intro _ | with_reducible assumption | with_reducible apply Evolves.ite | with_reducible apply ih
      | with_reducible apply post_ev (hm.of (by decide)) | split | (dsimp only; split)

theorem spaceWrite_ev {m : Nat} {z0 : State} {c sp a : Nat} {bytes : List Byte} {failed : Bool} {s t : State}
    (hm : Within 0x2980980 m) (hev : Evolves m z0 s) (he : spaceWrite c sp a bytes failed s = some t) : Evolves m z0 t := by
  unfold spaceWrite at he
  split at he
  · cases he; exact modChan_ev (hm.of (by decide)) (postPieces_ev (hm.of (by decide)) hev)
  · split at he
    · cases he; exact hev
    · cases he
  · split at he
    · cases he
      exact Evolves.set_scratch (hm.bit (by decide)) (fun h => Memory.wf_cellsWrite _ _ _ _ h) hev
    · cases he
  · exact storeWrite_ev (hm.of (by decide)) hev he
  · cases he

theorem scratchFree_ev {m : Nat} {z0 : State} {lo hi : Nat} {s : State} (hm : Within 0x800004 m)
    (hev : Evolves m z0 s) :
    Evolves m z0 (scratchFree lo hi s) := by
  unfold scratchFree
  repeat' first
    | intro _ | with_reducible assumption | with_reducible apply Evolves.ite
    | with_reducible apply drawn_ev (hm.of (by decide)) | split | (dsimp only; split)
    | with_reducible refine Evolves.mk' ?_ (hs := (fun _ => rfl))
    | with_reducible refine Evolves.mk' ?_ (hs := (fun h => Memory.wf_filter _ _ _ h))
    | with_reducible refine Evolves.mk' ?_ (hs := (fun h => Memory.wf_cellsWrite _ _ _ _ h))

theorem overlapFree_ev {m : Nat} {z0 : State} {c a b : Nat} {s : State} (hm : Within 0x800004 m)
    (hev : Evolves m z0 s) :
    Evolves m z0 (overlapFree c a b s) := by
  unfold overlapFree
  repeat' first
    | intro _ | with_reducible assumption | with_reducible apply Evolves.ite
    | with_reducible apply scratchFree_ev (hm.of (by decide)) | with_reducible apply forEach_ev | split
    | (dsimp only; split)

theorem elemDone_ev {m : Nat} {z0 : State} {c next : Nat} {last : Bool} {s : State} (hm : Within 0x100000 m)
    (hev : Evolves m z0 s) :
    Evolves m z0 (elemDone c next last s) := by
  unfold elemDone
  repeat' first
    | intro _ | with_reducible assumption | with_reducible apply Evolves.ite
    | with_reducible apply modChan_ev (hm.of (by decide)) | with_reducible apply chanMark_ev (hm.of (by decide))
    | split | (dsimp only; split)

theorem takeElem_ev {m : Nat} {z0 : State} {c : Nat} {bytes : List Byte} {s : State} (hm : Within 0x980104 m)
    (hev : Evolves m z0 s) :
    Evolves m z0 (takeElem c bytes s) := by
  unfold takeElem
  repeat' first
    | intro _ | with_reducible assumption | with_reducible apply Evolves.ite
    | with_reducible apply modChan_ev (hm.of (by decide)) | with_reducible apply endWith_ev (hm.of (by decide))
    | with_reducible apply overlapFree_ev (hm.of (by decide)) | with_reducible apply elemDone_ev (hm.of (by decide))
    | split | (dsimp only; split)

theorem moveBytes_ev {m : Nat} {z0 : State} {c : Nat} {bytes : List Byte} {failed : Bool} {s : State} (hm : Within 0x2980984 m)
    (hev : Evolves m z0 s) :
    Evolves m z0 (moveBytes c bytes failed s) := by
  unfold moveBytes
  repeat' first
    | intro _ | with_reducible assumption | with_reducible apply Evolves.ite
    | with_reducible apply modChan_ev (hm.of (by decide)) | with_reducible apply perfAdd_ev (hm.of (by decide))
    | with_reducible apply chanMark_ev (hm.of (by decide)) | with_reducible apply endWith_ev (hm.of (by decide))
    | with_reducible apply overlapFree_ev (hm.of (by decide)) | with_reducible apply elemDone_ev (hm.of (by decide))
    | split | (dsimp only; split) | with_reducible refine spaceWrite_ev (hm.of (by decide)) ?_ (by assumption)

theorem chanEcc_ev {m : Nat} {z0 : State} {c : Nat} {hit : XferHit} {s : State} (hm : Within 0x4180120 m)
    (hev : Evolves m z0 s) :
    Evolves m z0 (chanEcc c hit s) := by
  unfold chanEcc
  repeat' first
    | intro _ | with_reducible assumption | with_reducible apply Evolves.ite
    | with_reducible apply setMFault_ev (hm.of (by decide)) | with_reducible apply endWith_ev (hm.of (by decide))
    | split | (dsimp only; split)

theorem oneRequest_ev {m : Nat} {z0 : State} {c : Nat} {io : BurstIo} {s : State} (hm : Within 0x6b809a4 m)
    (hev : Evolves m z0 s) :
    Evolves m z0 (oneRequest c io s) := by
  unfold oneRequest
  repeat' first
    | intro _ | with_reducible assumption | with_reducible apply Evolves.ite
    | with_reducible apply modChan_ev (hm.of (by decide)) | with_reducible apply chanSettle_ev (hm.of (by decide))
    | with_reducible apply endWith_ev (hm.of (by decide)) | with_reducible apply countBurst_ev (hm.of (by decide))
    | with_reducible apply hostRequest_ev (hm.of (by decide)) | with_reducible apply spaceRead_ev (hm.of (by decide))
    | with_reducible apply takeElem_ev (hm.of (by decide)) | with_reducible apply moveBytes_ev (hm.of (by decide))
    | with_reducible apply chanEcc_ev (hm.of (by decide)) | split | (dsimp only; split)
    | refine Evolves.fst (by assumption) ?_ | with_reducible refine Evolves.set_lastChan (hm.bit (by decide)) ?_

theorem xferReadEndEffect_ev {m : Nat} {z0 : State} {c : Nat} {r : HostRead} {ecc : Bool} {s : State} (hm : Within 0x69809a4 m)
    (hev : Evolves m z0 s) :
    Evolves m z0 (xferReadEndEffect c r ecc s) := by
  unfold xferReadEndEffect
  repeat' first
    | intro _ | with_reducible assumption | with_reducible apply Evolves.ite
    | with_reducible apply modChan_ev (hm.of (by decide)) | with_reducible apply endChan_ev (hm.of (by decide))
    | with_reducible apply chanMark_ev (hm.of (by decide)) | with_reducible apply chanSettle_ev (hm.of (by decide))
    | with_reducible apply endWith_ev (hm.of (by decide)) | with_reducible apply takeElem_ev (hm.of (by decide))
    | with_reducible apply moveBytes_ev (hm.of (by decide)) | with_reducible apply chanEcc_ev (hm.of (by decide))
    | split | (dsimp only; split)

theorem xferReadTimeoutEffect_ev {m : Nat} {z0 : State} {c : Nat} {s : State} (hm : Within 0x401c4582 m)
    (hev : Evolves m z0 s) :
    Evolves m z0 (xferReadTimeoutEffect c s) := by
  unfold xferReadTimeoutEffect
  repeat' first
    | intro _ | with_reducible assumption | with_reducible apply Evolves.ite
    | with_reducible apply modChan_ev (hm.of (by decide)) | with_reducible apply perfAdd_ev (hm.of (by decide))
    | with_reducible apply waitUntil_ev (hm.of (by decide)) | with_reducible apply endChan_ev (hm.of (by decide))
    | with_reducible apply endWith_ev (hm.of (by decide)) | split | (dsimp only; split)

theorem xferChannelEndEffect_ev {m : Nat} {z0 : State} {c : Nat} {s : State} (hm : Within 0x100100 m)
    (hev : Evolves m z0 s) :
    Evolves m z0 (xferChannelEndEffect c s) := by
  unfold xferChannelEndEffect
  repeat' first
    | intro _ | with_reducible assumption | with_reducible apply Evolves.ite
    | with_reducible apply endChan_ev (hm.of (by decide)) | split | (dsimp only; split)

theorem xferDrainEndEffect_ev {m : Nat} {z0 : State} {c : Nat} {s : State} (hm : Within 0x100000 m)
    (hev : Evolves m z0 s) :
    Evolves m z0 (xferDrainEndEffect c s) := by
  unfold xferDrainEndEffect
  repeat' first
    | intro _ | with_reducible assumption | with_reducible apply Evolves.ite
    | with_reducible apply modChan_ev (hm.of (by decide)) | split | (dsimp only; split)

theorem startChan_ev {m : Nat} {z0 : State} {c : Nat} {s : State} (hm : Within 0x100100 m) (hev : Evolves m z0 s) :
    Evolves m z0 (startChan c s) := by
  unfold startChan
  repeat' first
    | intro _ | with_reducible assumption | with_reducible apply Evolves.ite
    | with_reducible apply modChan_ev (hm.of (by decide)) | with_reducible apply endChan_ev (hm.of (by decide))
    | split | (dsimp only; split)

theorem putPause_ev {m : Nat} {z0 : State} {c : Nat} {on : Bool} {s : State} (hm : Within 0x100000 m)
    (hev : Evolves m z0 s) :
    Evolves m z0 (putPause c on s) := by
  unfold putPause
  repeat' first
    | intro _ | with_reducible assumption | with_reducible apply Evolves.ite
    | with_reducible apply modChan_ev (hm.of (by decide)) | split | (dsimp only; split)

theorem pauseChan_ev {m : Nat} {z0 : State} {c : Nat} {s : State} (hm : Within 0x180100 m) (hev : Evolves m z0 s) :
    Evolves m z0 (pauseChan c s) := by
  unfold pauseChan
  repeat' first
    | intro _ | with_reducible assumption | with_reducible apply Evolves.ite
    | with_reducible apply modChan_ev (hm.of (by decide)) | with_reducible apply chanSettle_ev (hm.of (by decide))
    | with_reducible apply putPause_ev (hm.of (by decide)) | split | (dsimp only; split)

theorem resumeChan_ev {m : Nat} {z0 : State} {c : Nat} {s : State} (hm : Within 0x100000 m) (hev : Evolves m z0 s) :
    Evolves m z0 (resumeChan c s) := by
  unfold resumeChan
  repeat' first
    | intro _ | with_reducible assumption | with_reducible apply Evolves.ite
    | with_reducible apply modChan_ev (hm.of (by decide)) | with_reducible apply putPause_ev (hm.of (by decide))
    | split | (dsimp only; split)

theorem ctlWrite_ev {m : Nat} {z0 : State} {c v : Nat} {s : State} (hm : Within 0x180100 m) (hev : Evolves m z0 s) :
    Evolves m z0 (ctlWrite c v s) := by
  unfold ctlWrite
  repeat' first
    | intro _ | with_reducible assumption | with_reducible apply Evolves.ite
    | with_reducible apply modChan_ev (hm.of (by decide)) | with_reducible apply abortReq_ev (hm.of (by decide))
    | with_reducible apply startChan_ev (hm.of (by decide)) | with_reducible apply putPause_ev (hm.of (by decide))
    | with_reducible apply pauseChan_ev (hm.of (by decide)) | with_reducible apply resumeChan_ev (hm.of (by decide))
    | split | (dsimp only; split)

theorem chanStatWrite_ev {m : Nat} {z0 : State} {c v : Nat} {s : State} (hm : Within 0x100000 m)
    (hev : Evolves m z0 s) :
    Evolves m z0 (chanStatWrite c v s) := by
  unfold chanStatWrite
  repeat' first
    | intro _ | with_reducible assumption | with_reducible apply Evolves.ite
    | with_reducible apply modChan_ev (hm.of (by decide)) | split | (dsimp only; split)

theorem linkChannels_ev {m : Nat} {z0 : State} {t : Nat} {s : State} (hm : Within 0x180100 m) (hev : Evolves m z0 s) :
    Evolves m z0 (linkChannels t s) := by
  unfold linkChannels
  repeat' first
    | intro _ | with_reducible assumption | with_reducible apply Evolves.ite
    | with_reducible apply endWith_ev (hm.of (by decide)) | with_reducible apply forAll_ev | split
    | (dsimp only; split)

end Sys2Proof.Machine
end

