-- ==== Sys2Proof/Laws/EvolveThicket.lean ====
section
/-! SUPPORT. What every operation of Machine/Thicket.lean may change, and the promises it keeps (Evolves). -/

set_option Elab.async false

set_option linter.unusedTactic false
set_option linter.unreachableTactic false

namespace Sys2Proof.Machine

theorem relayAsk_ev {m : Nat} {z0 : State} {j : Option Nat} {ingress len : Nat} {test : Bool} {s : State} (hm : Within 0x20080 m)
    (hev : Evolves m z0 s) :
    Evolves m z0 (relayAsk j ingress len test s).1 := by
  unfold relayAsk
  repeat' first
    | intro _ | with_reducible assumption | with_reducible apply Evolves.ite | with_reducible apply Evolves.ite_fst
    | with_reducible apply bumpParam_ev (hm.of (by decide)) | split | (dsimp only; split)
    | with_reducible refine Evolves.set_thicket (hm.bit (by decide)) ?_

theorem relayQueue_ev {m : Nat} {z0 : State} {j id len tc : Nat} {s : State} (hm : Within 0x5100 m)
    (hev : Evolves m z0 s) :
    Evolves m z0 (relayQueue j id len tc s) := by
  unfold relayQueue
  repeat' first
    | intro _ | with_reducible assumption | with_reducible apply Evolves.ite
    | with_reducible apply countPort_ev (hm.of (by decide)) | with_reducible apply release_ev (hm.of (by decide))
    | with_reducible apply enqueue_ev (hm.of (by decide)) | split | (dsimp only; split)

theorem resolveActions_ev {m : Nat} {z0 : State} {port : Nat} {item : RxItem} {row : Option Nat} {a : Actions} {s : State} (hm : Within 0x20a7584 m)
    (hev : Evolves m z0 s) :
    Evolves m z0 (resolveActions port item row a s) := by
  unfold resolveActions
  repeat' first
    | intro _ | with_reducible assumption | with_reducible apply Evolves.ite
    | with_reducible apply modRing_ev (hm.of (by decide)) | with_reducible apply perfAdd_ev (hm.of (by decide))
    | with_reducible apply countPort_ev (hm.of (by decide)) | with_reducible apply takeIn_ev (hm.of (by decide))
    | with_reducible apply xoffJudge_ev (hm.of (by decide)) | with_reducible apply dropRecord_ev (hm.of (by decide))
    | with_reducible apply recordPay_ev (hm.of (by decide)) | with_reducible apply recordFrame_ev (hm.of (by decide))
    | with_reducible apply lockTrigger_ev (hm.of (by decide)) | with_reducible apply relayAsk_ev (hm.of (by decide))
    | with_reducible apply relayQueue_ev (hm.of (by decide)) | split | (dsimp only; split)
    | refine Evolves.fst (by assumption) ?_

theorem settleFrame_ev {m : Nat} {z0 : State} {p : Nat} {item : RxItem} {hit : Option (Nat × List Byte)} {s : State} (hm : Within 0x20a7584 m)
    (hev : Evolves m z0 s) :
    Evolves m z0 (settleFrame p item hit s) := by
  unfold settleFrame
  repeat' first
    | intro _ | with_reducible assumption | with_reducible apply Evolves.ite
    | with_reducible apply resolveActions_ev (hm.of (by decide)) | split | (dsimp only; split)

theorem lookUp_ev {m : Nat} {z0 : State} {p : Nat} {item : RxItem} {s : State} (hm : Within 0x24a7d84 m)
    (hev : Evolves m z0 s) :
    Evolves m z0 (lookUp p item s) := by
  unfold lookUp
  repeat' first
    | intro _ | with_reducible assumption | with_reducible apply Evolves.ite
    | with_reducible apply bumpParam_ev (hm.of (by decide)) | with_reducible apply perfAdd_ev (hm.of (by decide))
    | with_reducible apply readIssue_ev (hm.of (by decide)) | with_reducible apply readServe_ev (hm.of (by decide))
    | with_reducible apply settleFrame_ev (hm.of (by decide)) | split | (dsimp only; split)
    | refine Evolves.snd (by assumption) ?_ | with_reducible refine Evolves.set_thicket (hm.bit (by decide)) ?_

theorem leaveWaiting_ev {m : Nat} {z0 : State} {p : Nat} {s : State} (hm : Within 0x20000 m) (hev : Evolves m z0 s) :
    Evolves m z0 (leaveWaiting p s) := by
  unfold leaveWaiting
  repeat' first
    | intro _ | with_reducible assumption | with_reducible apply Evolves.ite | split | (dsimp only; split)
    | with_reducible refine Evolves.set_thicket (hm.bit (by decide)) ?_

theorem extFlowReadEndEffect_ev {m : Nat} {z0 : State} {p : Nat} {r : ExtRead} {ecc : Bool} {s : State} (hm : Within 0x464e7da6 m)
    (hev : Evolves m z0 s) :
    Evolves m z0 (extFlowReadEndEffect p r ecc s) := by
  unfold extFlowReadEndEffect
  repeat' first
    | intro _ | with_reducible assumption | with_reducible apply Evolves.ite
    | with_reducible apply raise_ev (hm.of (by decide)) | with_reducible apply perfAdd_ev (hm.of (by decide))
    | with_reducible apply setMFault_ev (hm.of (by decide)) | with_reducible apply waitUntil_ev (hm.of (by decide))
    | with_reducible apply readServe_ev (hm.of (by decide)) | with_reducible apply readDrop_ev (hm.of (by decide))
    | with_reducible apply countPort_ev (hm.of (by decide)) | with_reducible apply settleFrame_ev (hm.of (by decide))
    | with_reducible apply leaveWaiting_ev (hm.of (by decide)) | split | (dsimp only; split)
    | refine Evolves.snd (by assumption) ?_

theorem lookupsMiss_ev {m : Nat} {z0 : State} {t : Nat} {s : State} (hm : Within 0x24a7584 m) (hev : Evolves m z0 s) :
    Evolves m z0 (lookupsMiss t s) := by
  unfold lookupsMiss
  repeat' first
    | intro _ | with_reducible assumption | with_reducible apply Evolves.ite
    | with_reducible apply readDrop_ev (hm.of (by decide)) | with_reducible apply settleFrame_ev (hm.of (by decide))
    | with_reducible apply leaveWaiting_ev (hm.of (by decide)) | with_reducible apply forEach_ev | split
    | (dsimp only; split)

theorem treatFrame_ev {m : Nat} {z0 : State} {p : Nat} {item : RxItem} {ecc : EccHit} {s : State} (hm : Within 0x64a7da4 m)
    (hev : Evolves m z0 s) :
    Evolves m z0 (treatFrame p item ecc s) := by
  unfold treatFrame
  repeat' first
    | intro _ | with_reducible assumption | with_reducible apply Evolves.ite
    | with_reducible apply setMFault_ev (hm.of (by decide)) | with_reducible apply countPort_ev (hm.of (by decide))
    | with_reducible apply lookUp_ev (hm.of (by decide)) | split | (dsimp only; split)

theorem thicketResolveEffect_ev {m : Nat} {z0 : State} {ecc : EccHit} {s : State} (hm : Within 0x64a7da4 m)
    (hev : Evolves m z0 s) :
    Evolves m z0 (thicketResolveEffect ecc s) := by
  unfold thicketResolveEffect
  repeat' first
    | intro _ | with_reducible assumption | with_reducible apply Evolves.ite
    | with_reducible apply modPort_ev (hm.of (by decide)) | with_reducible apply treatFrame_ev (hm.of (by decide))
    | split | (dsimp only; split) | with_reducible refine Evolves.set_thicket (hm.bit (by decide)) ?_

end Sys2Proof.Machine
end

