-- ==== Sys2Proof/Laws/EvolveRoles.lean ====
section
/-! SUPPORT. What every operation of Machine/Roles.lean may change, and the promises it keeps (Evolves). -/

set_option Elab.async false

set_option linter.unusedTactic false
set_option linter.unreachableTactic false

namespace Sys2Proof.Machine

theorem modPair_ev {m : Nat} {z0 : State} {f : Pair → Pair} {s : State} (hm : Within 0x8000000 m)
    (hf : ∀ x, x.role ≤ 3 → (f x).role ≤ 3) (h : Evolves m z0 s) : Evolves m z0 (modPair f s) :=
  Evolves.pair f (hm.bit (by decide)) hf h

theorem pairAlarm_ev {m : Nat} {z0 : State} {s : State} (hm : Within 0x8000100 m) (hev : Evolves m z0 s) :
    Evolves m z0 (pairAlarm s) := by
  unfold pairAlarm
  repeat' first
    | intro _ | with_reducible assumption | with_reducible apply Evolves.ite
    | with_reducible apply raise_ev (hm.of (by decide))
    | with_reducible refine modPair_ev (hm.of (by decide)) (fun _ h => h) ?_
    | with_reducible refine modPair_ev (hm.of (by decide)) (fun _ _ => by decide) ?_ | split | (dsimp only; split)

theorem setRole_ev {m : Nat} {z0 : State} {r : Nat} {s : State} (hm : Within 0x8000100 m) (hr : r ≤ 3) (hev : Evolves m z0 s) : Evolves m z0 (setRole r s) := by
  unfold setRole
  exact Evolves.ite hev (raise_ev (hm.of (by decide)) (modPair_ev (hm.of (by decide)) (fun _ _ => hr) hev))

theorem rideSend_ev {m : Nat} {z0 : State} {type : Nat} {payload : List Byte} {s : State} (hm : Within 0x8000000 m)
    (hev : Evolves m z0 s) :
    Evolves m z0 (rideSend type payload s) := by
  unfold rideSend
  repeat' first
    | intro _ | with_reducible assumption | with_reducible apply Evolves.ite
    | with_reducible refine modPair_ev (hm.of (by decide)) (fun _ h => h) ?_
    | with_reducible refine modPair_ev (hm.of (by decide)) (fun _ _ => by decide) ?_ | split | (dsimp only; split)

theorem rideAck_ev {m : Nat} {z0 : State} {s : State} (hm : Within 0x8000000 m) (hev : Evolves m z0 s) :
    Evolves m z0 (rideAck s) := by
  unfold rideAck
  repeat' first
    | intro _ | with_reducible assumption | with_reducible apply Evolves.ite
    | with_reducible apply rideSend_ev (hm.of (by decide)) | split | (dsimp only; split)

theorem rideTold_ev {m : Nat} {z0 : State} {before after : State} (hm : Within 0x8000000 m)
    (hev : Evolves m z0 after) :
    Evolves m z0 (rideTold before after) := by
  unfold rideTold
  repeat' first
    | intro _ | with_reducible assumption | with_reducible apply Evolves.ite
    | with_reducible apply rideAck_ev (hm.of (by decide)) | split | (dsimp only; split)

theorem rideNew_ev {m : Nat} {z0 : State} {type epoch : Nat} {payload : List Byte} {s : State} (hm : Within 0x8000000 m)
    (hev : Evolves m z0 s) :
    Evolves m z0 (rideNew type epoch payload s) := by
  unfold rideNew
  repeat' first
    | intro _ | with_reducible assumption | with_reducible apply Evolves.ite
    | with_reducible refine modPair_ev (hm.of (by decide)) (fun _ h => h) ?_
    | with_reducible refine modPair_ev (hm.of (by decide)) (fun _ _ => by decide) ?_ | split | (dsimp only; split)

theorem ridePump_ev {m : Nat} {z0 : State} {n : Nat} {s : State} (hm : Within 0x8000000 m) (hev : Evolves m z0 s) :
    Evolves m z0 (ridePump n s) := by
  induction n generalizing s with
  | zero => exact hev
  | succ n ih =>
    unfold ridePump
    repeat' first
      | intro _ | with_reducible assumption | with_reducible apply Evolves.ite | with_reducible apply ih
      | with_reducible refine modPair_ev (hm.of (by decide)) (fun _ h => h) ?_
      | with_reducible refine modPair_ev (hm.of (by decide)) (fun _ _ => by decide) ?_
      | with_reducible apply rideNew_ev (hm.of (by decide)) | split | (dsimp only; split)

theorem rideQueue_ev {m : Nat} {z0 : State} {type epoch : Nat} {payload : List Byte} {s : State} (hm : Within 0x8000000 m)
    (hev : Evolves m z0 s) :
    Evolves m z0 (rideQueue type epoch payload s) := by
  unfold rideQueue
  repeat' first
    | intro _ | with_reducible assumption | with_reducible apply Evolves.ite
    | with_reducible apply ridePump_ev (hm.of (by decide))
    | with_reducible refine modPair_ev (hm.of (by decide)) (fun _ h => h) ?_
    | with_reducible refine modPair_ev (hm.of (by decide)) (fun _ _ => by decide) ?_ | split | (dsimp only; split)

theorem rideResend_ev {m : Nat} {z0 : State} {test : RideOut → Bool} {s : State} (hm : Within 0x8000000 m)
    (hev : Evolves m z0 s) :
    Evolves m z0 (rideResend test s).1 := by
  unfold rideResend
  repeat' first
    | intro _ | with_reducible assumption | with_reducible apply Evolves.ite | with_reducible apply Evolves.ite_fst
    | with_reducible refine modPair_ev (hm.of (by decide)) (fun _ h => h) ?_
    | with_reducible refine modPair_ev (hm.of (by decide)) (fun _ _ => by decide) ?_ | split | (dsimp only; split)

theorem drainBuffers_ev {m : Nat} {z0 : State} {test : RideBuf → Bool} {s : State} (hm : Within 0x8000000 m)
    (hev : Evolves m z0 s) :
    Evolves m z0 (drainBuffers test s) := by
  unfold drainBuffers
  repeat' first
    | intro _ | with_reducible assumption | with_reducible apply Evolves.ite
    | with_reducible refine modPair_ev (hm.of (by decide)) (fun _ h => h) ?_
    | with_reducible refine modPair_ev (hm.of (by decide)) (fun _ _ => by decide) ?_ | split | (dsimp only; split)

theorem discardEpoch_ev {m : Nat} {z0 : State} {s : State} (hm : Within 0x8100180 m) (hev : Evolves m z0 s) :
    Evolves m z0 (discardEpoch s) := by
  unfold discardEpoch
  repeat' first
    | intro _ | with_reducible assumption | with_reducible apply Evolves.ite
    | with_reducible apply bumpParam_ev (hm.of (by decide)) | with_reducible apply abortChan_ev (hm.of (by decide))
    | with_reducible apply drainBuffers_ev (hm.of (by decide))
    | with_reducible refine modPair_ev (hm.of (by decide)) (fun _ h => h) ?_
    | with_reducible refine modPair_ev (hm.of (by decide)) (fun _ _ => by decide) ?_ | split | (dsimp only; split)

theorem discardEpochs_ev {m : Nat} {z0 : State} {s : State} (hm : Within 0x8100180 m) (hev : Evolves m z0 s) :
    Evolves m z0 (discardEpochs s) := by
  unfold discardEpochs
  repeat' first
    | intro _ | with_reducible assumption | with_reducible apply Evolves.ite
    | with_reducible apply drainBuffers_ev (hm.of (by decide))
    | with_reducible apply discardEpoch_ev (hm.of (by decide)) | split | (dsimp only; split)

theorem rideDown_ev {m : Nat} {z0 : State} {s : State} (hm : Within 0x8100180 m) (hev : Evolves m z0 s) :
    Evolves m z0 (rideDown s) := by
  unfold rideDown
  repeat' first
    | intro _ | with_reducible assumption | with_reducible apply Evolves.ite
    | with_reducible apply abortChan_ev (hm.of (by decide))
    | with_reducible apply discardEpochs_ev (hm.of (by decide))
    | with_reducible refine modPair_ev (hm.of (by decide)) (fun _ h => h) ?_
    | with_reducible refine modPair_ev (hm.of (by decide)) (fun _ _ => by decide) ?_ | split | (dsimp only; split)

theorem pairClaim_ev {m : Nat} {z0 : State} {s : State} (hm : Within 0x400000 m) (hev : Evolves m z0 s) :
    Evolves m z0 (pairClaim s) := by
  unfold pairClaim
  repeat' first
    | intro _ | with_reducible assumption | with_reducible apply Evolves.ite | split | (dsimp only; split)
    | with_reducible refine Evolves.set_canopy (hm.bit (by decide)) ?_

theorem pairRelease_ev {m : Nat} {z0 : State} {s : State} (hm : Within 0x400000 m) (hev : Evolves m z0 s) :
    Evolves m z0 (pairRelease s) := by
  unfold pairRelease
  repeat' first
    | intro _ | with_reducible assumption | with_reducible apply Evolves.ite | split | (dsimp only; split)
    | with_reducible refine Evolves.set_canopy (hm.bit (by decide)) ?_

theorem portOff_ev {m : Nat} {z0 : State} {p : Nat} {s : State} (hm : Within 0x485d80 m) (hev : Evolves m z0 s) :
    Evolves m z0 (portOff p s) := by
  unfold portOff
  repeat' first
    | intro _ | with_reducible assumption | with_reducible apply Evolves.ite
    | with_reducible apply modPort_ev (hm.of (by decide)) | with_reducible apply setPw_ev (hm.of (by decide))
    | with_reducible apply linkDrop_ev (hm.of (by decide)) | split | (dsimp only; split)

theorem enterSolo_ev {m : Nat} {z0 : State} {ports : Bool} {s : State} (hm : Within 0xc785f80 m)
    (hev : Evolves m z0 s) :
    Evolves m z0 (enterSolo ports s) := by
  unfold enterSolo
  repeat' first
    | intro _ | with_reducible assumption | with_reducible apply Evolves.ite
    | with_reducible apply abortChan_ev (hm.of (by decide)) | with_reducible apply serviceBegin_ev (hm.of (by decide))
    | with_reducible apply rideTold_ev (hm.of (by decide)) | with_reducible apply discardEpochs_ev (hm.of (by decide))
    | with_reducible apply portOff_ev (hm.of (by decide)) | with_reducible apply forAll_ev
    | with_reducible refine modPair_ev (hm.of (by decide)) (fun _ h => h) ?_
    | with_reducible refine modPair_ev (hm.of (by decide)) (fun _ _ => by decide) ?_
    | with_reducible refine setRole_ev (hm.of (by decide)) (by decide) ?_ | split | (dsimp only; split)

theorem leavePair_ev {m : Nat} {z0 : State} {s : State} (hm : Within 0xc785f80 m) (hev : Evolves m z0 s) :
    Evolves m z0 (leavePair s) := by
  unfold leavePair
  repeat' first
    | intro _ | with_reducible assumption | with_reducible apply Evolves.ite
    | with_reducible apply rideQueue_ev (hm.of (by decide)) | with_reducible apply enterSolo_ev (hm.of (by decide))
    | split | (dsimp only; split)

theorem pairFault_ev {m : Nat} {z0 : State} {s : State} (hm : Within 0xc785fa0 m) (hev : Evolves m z0 s) :
    Evolves m z0 (pairFault s) := by
  unfold pairFault
  repeat' first
    | intro _ | with_reducible assumption | with_reducible apply Evolves.ite
    | with_reducible apply setMFault_ev (hm.of (by decide)) | with_reducible apply pairAlarm_ev (hm.of (by decide))
    | with_reducible apply enterSolo_ev (hm.of (by decide)) | split | (dsimp only; split)

theorem pairEcc_ev {m : Nat} {z0 : State} {s : State} (hm : Within 0xc785fa0 m) (hev : Evolves m z0 s) :
    Evolves m z0 (pairEcc s) := by
  unfold pairEcc
  repeat' first
    | intro _ | with_reducible assumption | with_reducible apply Evolves.ite
    | with_reducible apply setMFault_ev (hm.of (by decide)) | with_reducible apply pairFault_ev (hm.of (by decide))
    | split | (dsimp only; split)

theorem journalAdd_ev {m : Nat} {z0 : State} {rs : List JRecord} {s : State} (hm : Within 0x8000000 m)
    (hev : Evolves m z0 s) :
    Evolves m z0 (journalAdd rs s) := by
  unfold journalAdd
  repeat' first
    | intro _ | with_reducible assumption | with_reducible apply Evolves.ite
    | with_reducible refine modPair_ev (hm.of (by decide)) (fun _ h => h) ?_
    | with_reducible refine modPair_ev (hm.of (by decide)) (fun _ _ => by decide) ?_ | split | (dsimp only; split)

end Sys2Proof.Machine
end

