-- ==== Sys2Proof/Laws/EvolveFences.lean ====
section
/-! SUPPORT. What every operation of Machine/Fences.lean may change, and the promises it keeps (Evolves). -/

set_option Elab.async false

set_option linter.unusedTactic false
set_option linter.unreachableTactic false

namespace Sys2Proof.Machine

theorem fenceQuad_ev {m : Nat} {z0 : State} {q : Nat} {s : State} (hm : Within 0x48dd00 m) (hev : Evolves m z0 s) :
    Evolves m z0 (fenceQuad q s) := by
  unfold fenceQuad
  repeat' first
    | intro _ | with_reducible assumption | with_reducible apply Evolves.ite
    | with_reducible apply modPort_ev (hm.of (by decide)) | with_reducible apply modLane_ev (hm.of (by decide))
    | with_reducible apply clearEgress_ev (hm.of (by decide)) | with_reducible apply cutWire_ev (hm.of (by decide))
    | with_reducible apply linkDrop_ev (hm.of (by decide)) | with_reducible apply forAll_ev | split
    | (dsimp only; split)

theorem discardFrame_ev {m : Nat} {z0 : State} {id : Nat} {s : State} (hm : Within 0x2485d00 m)
    (hev : Evolves m z0 s) :
    Evolves m z0 (discardFrame id s) := by
  unfold discardFrame
  repeat' first
    | intro _ | with_reducible assumption | with_reducible apply Evolves.ite
    | with_reducible apply countPort_ev (hm.of (by decide)) | with_reducible apply finishOrigin_ev (hm.of (by decide))
    | with_reducible apply forEach_ev | split | (dsimp only; split)
    | with_reducible refine Evolves.set_tenants (hm.bit (by decide)) ?_
    | with_reducible refine Evolves.set_frames (hm.bit (by decide)) ?_
    | with_reducible refine Evolves.set_ports (hm.bit (by decide)) ?_ | with_reducible refine Evolves.mk' ?_

theorem fenceBank_ev {m : Nat} {z0 : State} {b : Nat} {s : State} (hm : Within 0x2485d00 m) (hev : Evolves m z0 s) :
    Evolves m z0 (fenceBank b s) := by
  unfold fenceBank
  repeat' first
    | intro _ | with_reducible assumption | with_reducible apply Evolves.ite
    | with_reducible apply xoffReview_ev (hm.of (by decide))
    | with_reducible apply discardFrame_ev (hm.of (by decide)) | with_reducible apply forEach_ev | split
    | (dsimp only; split)

theorem fenceTenant_ev {m : Nat} {z0 : State} {t : Nat} {s : State} (hm : Within 0x4585f00 m) (hev : Evolves m z0 s) :
    Evolves m z0 (fenceTenant t s) := by
  unfold fenceTenant
  repeat' first
    | intro _ | with_reducible assumption | with_reducible apply Evolves.ite
    | with_reducible apply modLink_ev (hm.of (by decide))
    | with_reducible apply tenantResetStart_ev (hm.of (by decide)) | split | (dsimp only; split)

theorem fenceStore_ev {m : Nat} {z0 : State} {s : State} (hm : Within 0x2405180 m) (hev : Evolves m z0 s) :
    Evolves m z0 (fenceStore s) := by
  unfold fenceStore
  repeat' first
    | intro _ | with_reducible assumption | with_reducible apply Evolves.ite
    | with_reducible apply storeGone_ev (hm.of (by decide)) | with_reducible apply discardRefs_ev (hm.of (by decide))
    | with_reducible refine modStore_ev (hm.of (by decide)) (fun _ => ⟨rfl, rfl, rfl⟩) ?_
    | with_reducible refine modStore_ev (hm.of (by decide)) (fun _ => by split <;> exact ⟨rfl, rfl, rfl⟩) ?_ | split
    | (dsimp only; split)

theorem fenceCanopy_ev {m : Nat} {z0 : State} {s : State} (hm : Within 0xc00190 m) (hev : Evolves m z0 s) :
    Evolves m z0 (fenceCanopy s) := by
  unfold fenceCanopy
  repeat' first
    | intro _ | with_reducible assumption | with_reducible apply Evolves.ite
    | with_reducible apply setPw_ev (hm.of (by decide)) | with_reducible apply maintDone_ev (hm.of (by decide))
    | with_reducible apply forEach_ev | split | (dsimp only; split)
    | with_reducible refine Evolves.set_canopy (hm.bit (by decide)) ?_
    | with_reducible refine Evolves.mk' ?_ (hs := (fun _ => rfl))
    | with_reducible refine Evolves.mk' ?_ (hs := (fun h => Memory.wf_filter _ _ _ h))
    | with_reducible refine Evolves.mk' ?_ (hs := (fun h => Memory.wf_cellsWrite _ _ _ _ h))

theorem abortAll_ev {m : Nat} {z0 : State} {s : State} (hm : Within 0x100100 m) (hev : Evolves m z0 s) :
    Evolves m z0 (abortAll s) := by
  unfold abortAll
  repeat' first
    | intro _ | with_reducible assumption | with_reducible apply Evolves.ite
    | with_reducible apply abortChan_ev (hm.of (by decide)) | with_reducible apply forAll_ev | split
    | (dsimp only; split)

theorem fencePair_ev {m : Nat} {z0 : State} {s : State} (hm : Within 0xc785f80 m) (hev : Evolves m z0 s) :
    Evolves m z0 (fencePair s) := by
  unfold fencePair
  repeat' first
    | intro _ | with_reducible assumption | with_reducible apply Evolves.ite
    | with_reducible apply enterSolo_ev (hm.of (by decide))
    | with_reducible refine modPair_ev (hm.of (by decide)) (fun _ h => h) ?_
    | with_reducible refine modPair_ev (hm.of (by decide)) (fun _ _ => by decide) ?_ | split | (dsimp only; split)

theorem fenceUnit_ev {m : Nat} {z0 : State} {u : Nat} {s : State} (hm : Within 0xefadf90 m) (hev : Evolves m z0 s) :
    Evolves m z0 (fenceUnit u s) := by
  unfold fenceUnit
  repeat' first
    | intro _ | with_reducible assumption | with_reducible apply Evolves.ite
    | with_reducible apply fenceQuad_ev (hm.of (by decide)) | with_reducible apply fenceBank_ev (hm.of (by decide))
    | with_reducible apply fenceTenant_ev (hm.of (by decide)) | with_reducible apply fenceStore_ev (hm.of (by decide))
    | with_reducible apply fenceCanopy_ev (hm.of (by decide)) | with_reducible apply abortAll_ev (hm.of (by decide))
    | with_reducible apply fencePair_ev (hm.of (by decide)) | split | (dsimp only; split)
    | with_reducible refine Evolves.set_thicket (hm.bit (by decide)) ?_

theorem fenceNew_ev {m : Nat} {z0 : State} {m' : Nat} {was : Nat → Bool} {s : State} (hm : Within 0xefadf90 m)
    (hev : Evolves m z0 s) :
    Evolves m z0 (fenceNew m' was s) := by
  unfold fenceNew
  repeat' first
    | intro _ | with_reducible assumption | with_reducible apply Evolves.ite
    | with_reducible apply fenceUnit_ev (hm.of (by decide)) | with_reducible apply forAll_ev | split
    | (dsimp only; split)

theorem fenceMask_ev {m : Nat} {z0 : State} {m' : Nat} {s : State} (hm : Within 0xffadf90 m) (hev : Evolves m z0 s) :
    Evolves m z0 (fenceMask m' s) := by
  unfold fenceMask
  repeat' first
    | intro _ | with_reducible assumption | with_reducible apply Evolves.ite
    | with_reducible apply fenceNew_ev (hm.of (by decide)) | split | (dsimp only; split)
    | with_reducible refine Evolves.set_fences (hm.bit (by decide)) ?_

theorem fenceSelf_ev {m : Nat} {z0 : State} {m' : Nat} {s : State} (hm : Within 0xefadf90 m) (hev : Evolves m z0 s) :
    Evolves m z0 (fenceSelf m' s) := by
  unfold fenceSelf
  repeat' first
    | intro _ | with_reducible assumption | with_reducible apply Evolves.ite
    | with_reducible apply setPw_ev (hm.of (by decide)) | with_reducible apply fenceNew_ev (hm.of (by decide)) | split
    | (dsimp only; split)

theorem enterSafe_ev {m : Nat} {z0 : State} {s : State} (hm : Within 0x26585fa4 m) (hev : Evolves m z0 s) :
    Evolves m z0 (enterSafe s) := by
  unfold enterSafe
  repeat' first
    | intro _ | with_reducible assumption | with_reducible apply Evolves.ite
    | with_reducible apply tenantResetStart_ev (hm.of (by decide))
    | with_reducible apply cutWire_ev (hm.of (by decide)) | with_reducible apply suspendNow_ev (hm.of (by decide))
    | with_reducible apply abortAll_ev (hm.of (by decide)) | with_reducible apply forAll_ev | split
    | (dsimp only; split) | with_reducible refine Evolves.set_safety (hm.bit (by decide)) ?_
    | with_reducible refine Evolves.set_start (hm.bit (by decide)) ?_ | with_reducible refine Evolves.mk' ?_

theorem safeFault_ev {m : Nat} {z0 : State} {cause unitA unitB info addr : Nat} {s : State} (hm : Within 0x26585fa4 m)
    (hev : Evolves m z0 s) :
    Evolves m z0 (safeFault cause unitA unitB info addr s) := by
  unfold safeFault
  repeat' first
    | intro _ | with_reducible assumption | with_reducible apply Evolves.ite
    | with_reducible apply setMFault_ev (hm.of (by decide)) | with_reducible apply enterSafe_ev (hm.of (by decide))
    | split | (dsimp only; split)

theorem handshakeFault_ev {m : Nat} {z0 : State} {a b : Nat} {s : State} (hm : Within 0x26585fa4 m)
    (hev : Evolves m z0 s) :
    Evolves m z0 (handshakeFault a b s) := by
  unfold handshakeFault
  repeat' first
    | intro _ | with_reducible assumption | with_reducible apply Evolves.ite
    | with_reducible apply safeFault_ev (hm.of (by decide)) | split | (dsimp only; split)
    | with_reducible refine Evolves.set_safety (hm.bit (by decide)) ?_

end Sys2Proof.Machine
end

