-- ==== Sys2Proof/Laws/EvolveTenure.lean ====
section
/-! SUPPORT. What every operation of Machine/Tenure.lean may change, and the promises it keeps (Evolves). -/

set_option Elab.async false

set_option linter.unusedTactic false
set_option linter.unreachableTactic false

namespace Sys2Proof.Machine

theorem modBus_ev {m : Nat} {z0 : State} {f : Bus → Bus} {s : State} (hm : Within 0x8 m)
    (hf : ∀ x, (∀ m, x.grant = some m → m < 5) → ∀ m, (f x).grant = some m → m < 5) (h : Evolves m z0 s) :
    Evolves m z0 (modBus f s) := Evolves.bus f (hm.bit (by decide)) hf h

theorem nextMaster_lt {s : State} {m : Nat} (h : nextMaster s = some m) : m < 5 := by
  unfold nextMaster at h
  split at h
  · split at h
    · cases h; decide
    · have := List.mem_of_find?_eq_some h
      simp only [List.mem_map, List.mem_range] at this
      obtain ⟨i, _, rfl⟩ := this
      omega
  · have := List.mem_of_find?_eq_some h
    simp only [List.mem_map, List.mem_range] at this
    obtain ⟨i, _, rfl⟩ := this
    omega

theorem arbitrate_ev {m : Nat} {z0 : State} {s : State} (hm : Within 0x8 m) (hev : Evolves m z0 s) : Evolves m z0 (arbitrate s) := by
  unfold arbitrate
  refine Evolves.ite hev ?_
  split
  · exact hev
  · next k hn =>
    refine modBus_ev (hm.of (by decide)) (fun x _ k hk => ?_) hev
    cases hk
    exact nextMaster_lt hn

theorem dropGrant_ev {m : Nat} {z0 : State} {s : State} (hm : Within 0x8 m) (hev : Evolves m z0 s) :
    Evolves m z0 (dropGrant s) := by
  unfold dropGrant
  repeat' first
    | intro _ | with_reducible assumption | with_reducible apply Evolves.ite
    | with_reducible apply arbitrate_ev (hm.of (by decide))
    | with_reducible refine modBus_ev (hm.of (by decide)) (fun _ h => h) ?_
    | with_reducible refine modBus_ev (hm.of (by decide)) (fun _ _ _ h => nomatch h) ?_ | split | (dsimp only; split)

theorem revoke_ev {m : Nat} {z0 : State} {m' : Nat} {heldStrobe : Bool} {s : State} (hm : Within 0x4585fa8 m)
    (hev : Evolves m z0 s) :
    Evolves m z0 (revoke m' heldStrobe s) := by
  unfold revoke
  repeat' first
    | intro _ | with_reducible assumption | with_reducible apply Evolves.ite
    | with_reducible apply bumpParam_ev (hm.of (by decide)) | with_reducible apply setMFault_ev (hm.of (by decide))
    | with_reducible apply tenantFault_ev (hm.of (by decide)) | with_reducible apply dropGrant_ev (hm.of (by decide))
    | with_reducible refine modBus_ev (hm.of (by decide)) (fun _ h => h) ?_
    | with_reducible refine modBus_ev (hm.of (by decide)) (fun _ _ _ h => nomatch h) ?_ | split | (dsimp only; split)

theorem disableMaster_ev {m : Nat} {z0 : State} {m' : Nat} {s : State} (hm : Within 0x8 m) (hev : Evolves m z0 s) :
    Evolves m z0 (disableMaster m' s) := by
  unfold disableMaster
  repeat' first
    | intro _ | with_reducible assumption | with_reducible apply Evolves.ite
    | with_reducible apply dropGrant_ev (hm.of (by decide))
    | with_reducible refine modBus_ev (hm.of (by decide)) (fun _ h => h) ?_
    | with_reducible refine modBus_ev (hm.of (by decide)) (fun _ _ _ h => nomatch h) ?_ | split | (dsimp only; split)

end Sys2Proof.Machine
end

