-- ==== Sys2Proof/Laws/EvolveParams.lean ====
section
/-! SUPPORT. What every operation of Machine/Params.lean may change, and the promises it keeps (Evolves). -/

set_option Elab.async false

set_option linter.unusedTactic false
set_option linter.unreachableTactic false

namespace Sys2Proof.Machine

theorem trimApply_ev {m : Nat} {z0 : State} {s : State} (hm : Within 0x48dd00 m) (hev : Evolves m z0 s) :
    Evolves m z0 (trimApply s) := by
  unfold trimApply
  repeat' first
    | intro _ | with_reducible assumption | with_reducible apply Evolves.ite
    | with_reducible apply modLane_ev (hm.of (by decide)) | with_reducible apply laneReview_ev (hm.of (by decide))
    | with_reducible apply forAll_ev | split | (dsimp only; split)

theorem portParamEffect_ev {m : Nat} {z0 : State} {p item old : Nat} {s : State} (hm : Within 0x485d80 m)
    (hev : Evolves m z0 s) :
    Evolves m z0 (portParamEffect p item old s) := by
  unfold portParamEffect
  repeat' first
    | intro _ | with_reducible assumption | with_reducible apply Evolves.ite
    | with_reducible apply modPort_ev (hm.of (by decide)) | with_reducible apply setPw_ev (hm.of (by decide))
    | with_reducible apply xoffJudge_ev (hm.of (by decide)) | with_reducible apply xoffLeave_ev (hm.of (by decide))
    | with_reducible apply linkDrop_ev (hm.of (by decide)) | with_reducible apply linkReview_ev (hm.of (by decide))
    | with_reducible apply forAll_ev | split | (dsimp only; split)

theorem laneModeEffect_ev {m : Nat} {z0 : State} {q : Nat} {s : State} (hm : Within 0x48dd80 m)
    (hev : Evolves m z0 s) :
    Evolves m z0 (laneModeEffect q s) := by
  unfold laneModeEffect
  repeat' first
    | intro _ | with_reducible assumption | with_reducible apply Evolves.ite
    | with_reducible apply modLane_ev (hm.of (by decide)) | with_reducible apply setPw_ev (hm.of (by decide))
    | with_reducible apply laneReview_ev (hm.of (by decide)) | with_reducible apply forAll_ev | split
    | (dsimp only; split)

theorem pairCtlEffect_ev {m : Nat} {z0 : State} {old : Nat} {s : State} (hm : Within 0x400000 m)
    (hev : Evolves m z0 s) :
    Evolves m z0 (pairCtlEffect old s) := by
  unfold pairCtlEffect
  repeat' first
    | intro _ | with_reducible assumption | with_reducible apply Evolves.ite
    | with_reducible apply pairClaim_ev (hm.of (by decide)) | with_reducible apply pairRelease_ev (hm.of (by decide))
    | split | (dsimp only; split)

theorem perfSelect_ev {m : Nat} {z0 : State} {item : Nat} {s : State} (hm : Within 0x80400 m) (hev : Evolves m z0 s) :
    Evolves m z0 (perfSelect item s) := by
  unfold perfSelect
  repeat' first
    | intro _ | with_reducible assumption | with_reducible apply Evolves.ite
    | with_reducible apply modTen_ev (hm.of (by decide)) | with_reducible apply forAll_ev | split
    | (dsimp only; split) | with_reducible refine Evolves.set_perf (hm.bit (by decide)) ?_

theorem paramEffect_ev {m : Nat} {z0 : State} {id old : Nat} {s : State} (hm : Within 0xffedf98 m)
    (hev : Evolves m z0 s) :
    Evolves m z0 (paramEffect id old s) := by
  unfold paramEffect
  repeat' first
    | intro _ | with_reducible assumption | with_reducible apply Evolves.ite
    | with_reducible apply modTen_ev (hm.of (by decide)) | with_reducible apply setPw_ev (hm.of (by decide))
    | with_reducible apply slewWritten_ev (hm.of (by decide)) | with_reducible apply returnWays_ev (hm.of (by decide))
    | with_reducible apply xoffReview_ev (hm.of (by decide)) | with_reducible apply frRestart_ev (hm.of (by decide))
    | with_reducible apply laneReview_ev (hm.of (by decide)) | with_reducible apply judgeHealth_ev (hm.of (by decide))
    | with_reducible apply capReview_ev (hm.of (by decide)) | with_reducible apply fenceMask_ev (hm.of (by decide))
    | with_reducible apply arbitrate_ev (hm.of (by decide))
    | with_reducible apply disableMaster_ev (hm.of (by decide))
    | with_reducible apply trimApply_ev (hm.of (by decide))
    | with_reducible apply portParamEffect_ev (hm.of (by decide))
    | with_reducible apply laneModeEffect_ev (hm.of (by decide))
    | with_reducible apply pairCtlEffect_ev (hm.of (by decide))
    | with_reducible apply perfSelect_ev (hm.of (by decide)) | split | (dsimp only; split)
    | with_reducible refine Evolves.set_perf (hm.bit (by decide)) ?_

theorem settleBuckets_ev {m : Nat} {z0 : State} {t : Nat} {s : State} (hm : Within 0x400 m) (hev : Evolves m z0 s) :
    Evolves m z0 (settleBuckets t s) := by
  unfold settleBuckets
  repeat' first
    | intro _ | with_reducible assumption | with_reducible apply Evolves.ite
    | with_reducible apply modTen_ev (hm.of (by decide)) | with_reducible apply forAll_ev | split
    | (dsimp only; split)

theorem rollHalf_ev {m : Nat} {z0 : State} {s : State} (hm : Within 0x4000000 m) (hev : Evolves m z0 s) :
    Evolves m z0 (rollHalf s) := by
  unfold rollHalf
  repeat' first
    | intro _ | with_reducible assumption | with_reducible apply Evolves.ite | split | (dsimp only; split)
    | with_reducible refine Evolves.set_safety (hm.bit (by decide)) ?_

theorem paramBefore_ev {m : Nat} {z0 : State} {id v : Nat} {s : State} (hm : Within 0xc785f80 m)
    (hev : Evolves m z0 s) :
    Evolves m z0 (paramBefore id v s) := by
  unfold paramBefore
  repeat' first
    | intro _ | with_reducible assumption | with_reducible apply Evolves.ite
    | with_reducible apply abortChan_ev (hm.of (by decide)) | with_reducible apply abortReq_ev (hm.of (by decide))
    | with_reducible apply leavePair_ev (hm.of (by decide))
    | with_reducible apply settleBuckets_ev (hm.of (by decide)) | with_reducible apply rollHalf_ev (hm.of (by decide))
    | with_reducible apply forEach_ev | split | (dsimp only; split)

theorem commitValue_ev {m : Nat} {z0 : State} {p : Param} {y : Nat} {s : State} (hm : Within 0xffedf98 m)
    (hev : Evolves m z0 s) :
    Evolves m z0 (commitValue p y s) := by
  unfold commitValue
  repeat' first
    | intro _ | with_reducible assumption | with_reducible apply Evolves.ite
    | with_reducible apply setWide_ev (hm.of (by decide)) | with_reducible apply paramEffect_ev (hm.of (by decide))
    | split | (dsimp only; split)

theorem paramCommit_ev {m : Nat} {z0 : State} {p : Param} {v : Nat} {s : State} (hm : Within 0xffedfb8 m)
    (hev : Evolves m z0 s) :
    Evolves m z0 (paramCommit p v s).2 := by
  unfold paramCommit
  repeat' first
    | intro _ | with_reducible assumption | with_reducible apply Evolves.ite | with_reducible apply Evolves.ite_snd
    | with_reducible apply gateWrite_ev (hm.of (by decide)) | with_reducible apply journalAdd_ev (hm.of (by decide))
    | with_reducible apply paramBefore_ev (hm.of (by decide))
    | with_reducible apply commitValue_ev (hm.of (by decide)) | split | (dsimp only; split)
    | with_reducible refine Evolves.set_mgmt (hm.bit (by decide)) ?_

theorem paramPut_ev {m : Nat} {z0 : State} {may : Bool} {staged : List (Nat × Word)} {id : Nat} {v : Word} {s : State} (hm : Within 0xffedfb8 m)
    (hev : Evolves m z0 s) :
    Evolves m z0 (paramPut may staged id v s).2.2 := by
  unfold paramPut
  repeat' first
    | intro _ | with_reducible assumption | with_reducible apply Evolves.ite | with_reducible apply Evolves.ite_third
    | with_reducible apply paramCommit_ev (hm.of (by decide)) | split | (dsimp only; split)
    | refine Evolves.snd (by assumption) ?_

theorem paramBusy_ev {m : Nat} {z0 : State} {w result : Nat} {s : State} (hm : Within 0x10 m) (hev : Evolves m z0 s) :
    Evolves m z0 (paramBusy w result s) := by
  unfold paramBusy
  repeat' first
    | intro _ | with_reducible assumption | with_reducible apply Evolves.ite
    | with_reducible apply modWin_ev (hm.of (by decide)) | split | (dsimp only; split)

theorem paramReadOp_ev {m : Nat} {z0 : State} {w : Nat} {s : State} (hm : Within 0x10 m) (hev : Evolves m z0 s) :
    Evolves m z0 (paramReadOp w s) := by
  unfold paramReadOp
  repeat' first
    | intro _ | with_reducible assumption | with_reducible apply Evolves.ite
    | with_reducible apply modWin_ev (hm.of (by decide)) | with_reducible apply paramBusy_ev (hm.of (by decide))
    | split | (dsimp only; split)

theorem paramWriteOp_ev {m : Nat} {z0 : State} {w : Nat} {s : State} (hm : Within 0xffedfb8 m)
    (hev : Evolves m z0 s) :
    Evolves m z0 (paramWriteOp w s) := by
  unfold paramWriteOp
  repeat' first
    | intro _ | with_reducible assumption | with_reducible apply Evolves.ite
    | with_reducible apply modWin_ev (hm.of (by decide)) | with_reducible apply paramPut_ev (hm.of (by decide))
    | with_reducible apply paramBusy_ev (hm.of (by decide)) | split | (dsimp only; split)
    | refine Evolves.third (by assumption) ?_

theorem paramReservedOpAct_ev {m : Nat} {z0 : State} {w : Nat} {s : State} (hm : Within 0x10 m)
    (hev : Evolves m z0 s) :
    Evolves m z0 (paramReservedOpAct w s) := by
  unfold paramReservedOpAct
  repeat' first
    | intro _ | with_reducible assumption | with_reducible apply Evolves.ite
    | with_reducible apply paramBusy_ev (hm.of (by decide)) | split | (dsimp only; split)

theorem paramStatWrite_ev {m : Nat} {z0 : State} {w v : Nat} {s : State} (hm : Within 0xffedfb8 m)
    (hev : Evolves m z0 s) :
    Evolves m z0 (paramStatWrite w v s) := by
  unfold paramStatWrite
  repeat' first
    | intro _ | with_reducible assumption | with_reducible apply Evolves.ite
    | with_reducible apply modWin_ev (hm.of (by decide)) | with_reducible apply paramReadOp_ev (hm.of (by decide))
    | with_reducible apply paramWriteOp_ev (hm.of (by decide))
    | with_reducible apply paramReservedOpAct_ev (hm.of (by decide)) | split | (dsimp only; split)

theorem handOwner_ev {m : Nat} {z0 : State} {s : State} (hm : Within 0xffedfb8 m) (hev : Evolves m z0 s) :
    Evolves m z0 (handOwner s) := by
  unfold handOwner
  repeat' first
    | intro _ | with_reducible assumption | with_reducible apply Evolves.ite
    | with_reducible apply commitValue_ev (hm.of (by decide)) | split | (dsimp only; split)
    | with_reducible refine Evolves.set_mgmt (hm.bit (by decide)) ?_

theorem paramOpEndEffect_ev {m : Nat} {z0 : State} {w : Nat} {s0 : State} (hm : Within 0xffedfb8 m)
    (hev : Evolves m z0 s0) :
    Evolves m z0 (paramOpEndEffect w s0) := by
  unfold paramOpEndEffect
  repeat' first
    | intro _ | with_reducible assumption | with_reducible apply Evolves.ite
    | with_reducible apply modWin_ev (hm.of (by decide)) | with_reducible apply handOwner_ev (hm.of (by decide))
    | split | (dsimp only; split)

end Sys2Proof.Machine
end

