-- ==== Sys2Proof/Laws/EvolveTables.lean ====
section
/-! SUPPORT. What every operation of Machine/Tables.lean may change, and the promises it keeps (Evolves). -/

set_option Elab.async false

set_option linter.unusedTactic false
set_option linter.unreachableTactic false

namespace Sys2Proof.Machine

theorem rowEffect_ev {m : Nat} {z0 : State} {table inst r : Nat} {release : Bool} {s : State} (hm : Within 0x6420110 m)
    (hev : Evolves m z0 s) :
    Evolves m z0 (rowEffect table inst r release s) := by
  unfold rowEffect
  repeat' first
    | intro _ | with_reducible assumption | with_reducible apply Evolves.ite
    | with_reducible apply settle_ev (hm.of (by decide)) | with_reducible apply windowRewritten_ev (hm.of (by decide))
    | with_reducible apply modStream_ev (hm.of (by decide))
    | with_reducible apply releaseStream_ev (hm.of (by decide)) | split | (dsimp only; split)
    | with_reducible refine Evolves.set_thicket (hm.bit (by decide)) ?_
    | with_reducible refine Evolves.set_safety (hm.bit (by decide)) ?_ | with_reducible refine Evolves.mk' ?_

theorem rowPut_ev {m : Nat} {z0 : State} {may : Bool} {op table inst r len : Nat} {ws : List Word} {s : State} (hm : Within 0xe420110 m)
    (hev : Evolves m z0 s) :
    Evolves m z0 (rowPut may op table inst r len ws s).2 := by
  unfold rowPut
  repeat' first
    | intro _ | with_reducible assumption | with_reducible apply Evolves.ite | with_reducible apply Evolves.ite_snd
    | with_reducible apply putRow_ev (hm.of (by decide)) | with_reducible apply journalAdd_ev (hm.of (by decide))
    | with_reducible apply rowEffect_ev (hm.of (by decide)) | split | (dsimp only; split)

theorem tableBusy_ev {m : Nat} {z0 : State} {w result : Nat} {s : State} (hm : Within 0x10 m) (hev : Evolves m z0 s) :
    Evolves m z0 (tableBusy w result s) := by
  unfold tableBusy
  repeat' first
    | intro _ | with_reducible assumption | with_reducible apply Evolves.ite
    | with_reducible apply modWin_ev (hm.of (by decide)) | split | (dsimp only; split)

theorem tableReadOp_ev {m : Nat} {z0 : State} {w : Nat} {s : State} (hm : Within 0x14 m) (hev : Evolves m z0 s) :
    Evolves m z0 (tableReadOp w s) := by
  unfold tableReadOp
  repeat' first
    | intro _ | with_reducible assumption | with_reducible apply Evolves.ite
    | with_reducible apply drawn_ev (hm.of (by decide)) | with_reducible apply modWin_ev (hm.of (by decide))
    | with_reducible apply tableBusy_ev (hm.of (by decide)) | split | (dsimp only; split)

theorem tableWriteOp_ev {m : Nat} {z0 : State} {w op : Nat} {s : State} (hm : Within 0xe420110 m)
    (hev : Evolves m z0 s) :
    Evolves m z0 (tableWriteOp w op s) := by
  unfold tableWriteOp
  repeat' first
    | intro _ | with_reducible assumption | with_reducible apply Evolves.ite
    | with_reducible apply rowPut_ev (hm.of (by decide)) | with_reducible apply tableBusy_ev (hm.of (by decide))
    | split | (dsimp only; split) | refine Evolves.snd (by assumption) ?_

theorem tblCmdWrite_ev {m : Nat} {z0 : State} {w v : Nat} {s : State} (hm : Within 0xe420114 m)
    (hev : Evolves m z0 s) :
    Evolves m z0 (tblCmdWrite w v s) := by
  unfold tblCmdWrite
  repeat' first
    | intro _ | with_reducible assumption | with_reducible apply Evolves.ite
    | with_reducible apply modWin_ev (hm.of (by decide)) | with_reducible apply tableReadOp_ev (hm.of (by decide))
    | with_reducible apply tableWriteOp_ev (hm.of (by decide)) | split | (dsimp only; split)

theorem tblAdvance_ev {m : Nat} {z0 : State} {w : Nat} {s : State} (hm : Within 0x10 m) (hev : Evolves m z0 s) :
    Evolves m z0 (tblAdvance w s) := by
  unfold tblAdvance
  repeat' first
    | intro _ | with_reducible assumption | with_reducible apply Evolves.ite
    | with_reducible apply modWin_ev (hm.of (by decide)) | split | (dsimp only; split)

theorem tblDataWrite_ev {m : Nat} {z0 : State} {w : Nat} {d : Word} {s : State} (hm : Within 0x10 m)
    (hev : Evolves m z0 s) :
    Evolves m z0 (tblDataWrite w d s) := by
  unfold tblDataWrite
  repeat' first
    | intro _ | with_reducible assumption | with_reducible apply Evolves.ite
    | with_reducible apply modWin_ev (hm.of (by decide)) | with_reducible apply tblAdvance_ev (hm.of (by decide))
    | split | (dsimp only; split)

theorem tableOpEndEffect_ev {m : Nat} {z0 : State} {w : Nat} {s : State} (hm : Within 0x10 m) (hev : Evolves m z0 s) :
    Evolves m z0 (tableOpEndEffect w s) := by
  unfold tableOpEndEffect
  repeat' first
    | intro _ | with_reducible assumption | with_reducible apply Evolves.ite
    | with_reducible apply modWin_ev (hm.of (by decide)) | split | (dsimp only; split)

end Sys2Proof.Machine
end

