-- ==== Sys2Proof/Laws/EvolvePairing.lean ====
section
/-! SUPPORT. What every operation of Machine/Pairing.lean may change, and the promises it keeps (Evolves). -/

set_option Elab.async false

set_option linter.unusedTactic false
set_option linter.unreachableTactic false

namespace Sys2Proof.Machine

theorem rideNak_ev {m : Nat} {z0 : State} {s : State} (hm : Within 0x8000000 m) (hev : Evolves m z0 s) :
    Evolves m z0 (rideNak s) := by
  unfold rideNak
  repeat' first
    | intro _ | with_reducible assumption | with_reducible apply Evolves.ite
    | with_reducible apply rideSend_ev (hm.of (by decide))
    | with_reducible refine modPair_ev (hm.of (by decide)) (fun _ h => h) ?_
    | with_reducible refine modPair_ev (hm.of (by decide)) (fun _ _ => by decide) ?_ | split | (dsimp only; split)

theorem rideMark_ev {m : Nat} {z0 : State} {s : State} (hm : Within 0x100000 m) (hev : Evolves m z0 s) :
    Evolves m z0 (rideMark s) := by
  unfold rideMark
  repeat' first
    | intro _ | with_reducible assumption | with_reducible apply Evolves.ite
    | with_reducible apply modChan_ev (hm.of (by decide)) | with_reducible apply Evolves.foldl | split
    | (dsimp only; split)

theorem rideFields_ev {m : Nat} {z0 : State} {f : RideFrame} {s : State} (hm : Within 0x8100000 m)
    (hev : Evolves m z0 s) :
    Evolves m z0 (rideFields f s) := by
  unfold rideFields
  repeat' first
    | intro _ | with_reducible assumption | with_reducible apply Evolves.ite
    | with_reducible apply ridePump_ev (hm.of (by decide)) | with_reducible apply rideMark_ev (hm.of (by decide))
    | with_reducible refine modPair_ev (hm.of (by decide)) (fun _ h => h) ?_
    | with_reducible refine modPair_ev (hm.of (by decide)) (fun _ _ => by decide) ?_ | split | (dsimp only; split)

theorem rideGrant_ev {m : Nat} {z0 : State} {n : Nat} {s : State} (hm : Within 0x8000000 m) (hev : Evolves m z0 s) :
    Evolves m z0 (rideGrant n s) := by
  unfold rideGrant
  repeat' first
    | intro _ | with_reducible assumption | with_reducible apply Evolves.ite
    | with_reducible refine modPair_ev (hm.of (by decide)) (fun _ h => h) ?_
    | with_reducible refine modPair_ev (hm.of (by decide)) (fun _ _ => by decide) ?_ | split | (dsimp only; split)

theorem rideReceive_ev {m : Nat} {z0 : State} {type : Nat} {sequenced : Bool} {f : RideFrame} {act : State → State} {s : State} (hm : Within 0x8100000 m) (h_act : ∀ v, Evolves m z0 v → Evolves m z0 (act v))
    (hev : Evolves m z0 s) : Evolves m z0 (rideReceive type sequenced f act s) := by
  unfold rideReceive
  repeat' first
    | intro _ | with_reducible assumption | with_reducible apply Evolves.ite | apply h_act
    | with_reducible refine modPair_ev (hm.of (by decide)) (fun _ h => h) ?_
    | with_reducible refine modPair_ev (hm.of (by decide)) (fun _ _ => by decide) ?_
    | with_reducible apply rideSend_ev (hm.of (by decide)) | with_reducible apply rideNak_ev (hm.of (by decide))
    | with_reducible apply rideFields_ev (hm.of (by decide)) | with_reducible apply rideAck_ev (hm.of (by decide))
    | split | (dsimp only; split)

theorem programChan_ev {m : Nat} {z0 : State} {c src srcSp dst dstSp len : Nat} {s : State} (hm : Within 0x100100 m)
    (hev : Evolves m z0 s) :
    Evolves m z0 (programChan c src srcSp dst dstSp len s) := by
  unfold programChan
  repeat' first
    | intro _ | with_reducible assumption | with_reducible apply Evolves.ite
    | with_reducible apply modChan_ev (hm.of (by decide)) | with_reducible apply startChan_ev (hm.of (by decide))
    | split | (dsimp only; split)

theorem sendNext_ev {m : Nat} {z0 : State} {s : State} (hm : Within 0x100100 m) (hev : Evolves m z0 s) :
    Evolves m z0 (sendNext s) := by
  unfold sendNext
  repeat' first
    | intro _ | with_reducible assumption | with_reducible apply Evolves.ite
    | with_reducible apply programChan_ev (hm.of (by decide)) | split | (dsimp only; split)

theorem syncStart_ev {m : Nat} {z0 : State} {s : State} (hm : Within 0x8000000 m) (hev : Evolves m z0 s) :
    Evolves m z0 (syncStart s) := by
  unfold syncStart
  repeat' first
    | intro _ | with_reducible assumption | with_reducible apply Evolves.ite
    | with_reducible refine modPair_ev (hm.of (by decide)) (fun _ h => h) ?_
    | with_reducible refine modPair_ev (hm.of (by decide)) (fun _ _ => by decide) ?_ | split | (dsimp only; split)

theorem buildEpoch_ev {m : Nat} {z0 : State} {way : Nat} {s : State} (hm : Within 0x8900180 m) (hev : Evolves m z0 s) : Evolves m z0 (buildEpoch way s) := by
  have h0 : Evolves m z0 (if s.pair.resyncAsked then syncStart s else s) := Evolves.ite (syncStart_ev (hm.of (by decide)) hev) hev
  unfold buildEpoch
  extract_lets u room j overflow used final
  have hu : Evolves m z0 u := h0
  split
  extract_lets ends flags image s1 s2
  clear_value image flags room
  have h1 : Evolves m z0 s1 := modPair_ev (hm.of (by decide)) (fun _ h => h) hu
  have h2 : Evolves m z0 s2 :=
    Evolves.set_scratch (hm.bit (by decide)) (fun h => Memory.wf_cellsWrite _ _ _ _ h) h1
  exact sendNext_ev (hm.of (by decide)) (Evolves.ite (bumpParam_ev (hm.of (by decide)) h2) h2)

theorem epochBoundaryEffect_ev {m : Nat} {z0 : State} {s : State} (hm : Within 0x489c4582 m) (hev : Evolves m z0 s) :
    Evolves m z0 (epochBoundaryEffect s) := by
  unfold epochBoundaryEffect
  repeat' first
    | intro _ | with_reducible assumption | with_reducible apply Evolves.ite
    | with_reducible apply waitUntil_ev (hm.of (by decide)) | with_reducible apply buildEpoch_ev (hm.of (by decide))
    | with_reducible refine modPair_ev (hm.of (by decide)) (fun _ h => h) ?_
    | with_reducible refine modPair_ev (hm.of (by decide)) (fun _ _ => by decide) ?_ | split | (dsimp only; split)

theorem rideBurst_ev {m : Nat} {z0 : State} {hit : XferHit} {s : State} (hm : Within 0xc785fa0 m)
    (hev : Evolves m z0 s) :
    Evolves m z0 (rideBurst hit s) := by
  unfold rideBurst
  repeat' first
    | intro _ | with_reducible assumption | with_reducible apply Evolves.ite
    | with_reducible apply modChan_ev (hm.of (by decide)) | with_reducible apply perfAdd_ev (hm.of (by decide))
    | with_reducible apply setMFault_ev (hm.of (by decide)) | with_reducible apply chanEcc_ev (hm.of (by decide))
    | with_reducible apply rideQueue_ev (hm.of (by decide)) | with_reducible apply pairFault_ev (hm.of (by decide))
    | with_reducible apply rideMark_ev (hm.of (by decide)) | split | (dsimp only; split)
    | with_reducible refine Evolves.set_lastChan (hm.bit (by decide)) ?_

theorem applyRecord_ev {m : Nat} {z0 : State} {r : JRecord} {a : List (Nat × Word) × State} (hm : Within 0xffedfb8 m)
    (hev : Evolves m z0 a.2) : Evolves m z0 (applyRecord r a).2 := by
  have back : ∀ u : State, Evolves m (modPair (fun x => { x with role := 0 }) a.2) u →
      Evolves m z0 (modPair (fun x => { x with role := a.2.pair.role }) u) := fun u h =>
    hev.trans { h with
      frame := fun f => by cases f <;> first | exact Or.inl (hm.bit (by decide)) | exact h.frame _
      role := fun h => h }
  unfold applyRecord
  split
  · exact back _ (paramPut_ev (hm.of (by decide)) (Evolves.refl _))
  · split
    · exact hev
    · refine Evolves.ite_snd hev ?_
      exact back _ (rowPut_ev (hm.of (by decide)) (Evolves.refl _))

theorem applyJournal_ev {m : Nat} {z0 : State} {image : List Byte} {s : State} (hm : Within 0xffedfb8 m) (hev : Evolves m z0 s) :
    Evolves m z0 (applyJournal image s) := by
  have fold : ∀ (l : List JRecord) (a : List (Nat × Word) × State), Evolves m z0 a.2 →
      Evolves m z0 (l.foldl (fun a r => applyRecord r a) a).2 := by
    intro l
    induction l with
    | nil => exact fun _ h => h
    | cons r rs ih => exact fun a h => ih _ (applyRecord_ev (hm.of (by decide)) h)
  exact fold _ _ hev

theorem commitTry_ev {m : Nat} {z0 : State} {ecc : Bool} {s : State} (hm : Within 0xffedfb8 m)
    (hev : Evolves m z0 s) :
    Evolves m z0 (commitTry ecc s) := by
  unfold commitTry
  repeat' first
    | intro _ | with_reducible assumption | with_reducible apply Evolves.ite
    | with_reducible apply setMFault_ev (hm.of (by decide)) | with_reducible apply discardEpoch_ev (hm.of (by decide))
    | with_reducible apply pairFault_ev (hm.of (by decide)) | with_reducible apply applyJournal_ev (hm.of (by decide))
    | with_reducible refine modPair_ev (hm.of (by decide)) (fun _ h => h) ?_
    | with_reducible refine modPair_ev (hm.of (by decide)) (fun _ _ => by decide) ?_ | split | (dsimp only; split)

theorem epochOpen_ev {m : Nat} {z0 : State} {epoch came : Nat} {bytes : List Byte} {s : State} (hm : Within 0x8100180 m)
    (hev : Evolves m z0 s) :
    Evolves m z0 (epochOpen epoch came bytes s) := by
  unfold epochOpen
  repeat' first
    | intro _ | with_reducible assumption | with_reducible apply Evolves.ite
    | with_reducible apply bumpParam_ev (hm.of (by decide)) | with_reducible apply discardEpoch_ev (hm.of (by decide))
    | with_reducible apply programChan_ev (hm.of (by decide))
    | with_reducible refine modPair_ev (hm.of (by decide)) (fun _ h => h) ?_
    | with_reducible refine modPair_ev (hm.of (by decide)) (fun _ _ => by decide) ?_ | split | (dsimp only; split)

theorem takeCommit_ev {m : Nat} {z0 : State} {epoch : Nat} {s : State} (hm : Within 0x8000000 m)
    (hev : Evolves m z0 s) :
    Evolves m z0 (takeCommit epoch s) := by
  unfold takeCommit
  repeat' first
    | intro _ | with_reducible assumption | with_reducible apply Evolves.ite
    | with_reducible apply drainBuffers_ev (hm.of (by decide))
    | with_reducible refine modPair_ev (hm.of (by decide)) (fun _ h => h) ?_
    | with_reducible refine modPair_ev (hm.of (by decide)) (fun _ _ => by decide) ?_ | split | (dsimp only; split)

theorem dropBuffer_ev {m : Nat} {z0 : State} {s : State} (hm : Within 0x8000000 m) (hev : Evolves m z0 s) :
    Evolves m z0 (dropBuffer s) := by
  unfold dropBuffer
  repeat' first
    | intro _ | with_reducible assumption | with_reducible apply Evolves.ite
    | with_reducible apply rideGrant_ev (hm.of (by decide))
    | with_reducible refine modPair_ev (hm.of (by decide)) (fun _ h => h) ?_
    | with_reducible refine modPair_ev (hm.of (by decide)) (fun _ _ => by decide) ?_ | split | (dsimp only; split)

theorem rideSettle_ev {m : Nat} {z0 : State} {n : Nat} {s : State} (hm : Within 0x8100180 m) (hev : Evolves m z0 s) :
    Evolves m z0 (rideSettle n s) := by
  induction n generalizing s with
  | zero => exact hev
  | succ n ih =>
    unfold rideSettle
    repeat' first
      | intro _ | with_reducible assumption | with_reducible apply Evolves.ite | with_reducible apply ih
      | with_reducible apply epochOpen_ev (hm.of (by decide)) | with_reducible apply takeCommit_ev (hm.of (by decide))
      | with_reducible apply dropBuffer_ev (hm.of (by decide)) | split | (dsimp only; split)

theorem epochOver_ev {m : Nat} {z0 : State} {s : State} (hm : Within 0x8100180 m) (hev : Evolves m z0 s) :
    Evolves m z0 (epochOver s) := by
  unfold epochOver
  repeat' first
    | intro _ | with_reducible assumption | with_reducible apply Evolves.ite
    | with_reducible apply rideSettle_ev (hm.of (by decide)) | split | (dsimp only; split)

theorem bankBurst_ev {m : Nat} {z0 : State} {s : State} (hm : Within 0x8b80180 m) (hev : Evolves m z0 s) :
    Evolves m z0 (bankBurst s) := by
  unfold bankBurst
  repeat' first
    | intro _ | with_reducible assumption | with_reducible apply Evolves.ite
    | with_reducible apply modChan_ev (hm.of (by decide)) | with_reducible apply perfAdd_ev (hm.of (by decide))
    | with_reducible apply chanMark_ev (hm.of (by decide)) | with_reducible apply rideAck_ev (hm.of (by decide))
    | with_reducible apply discardEpoch_ev (hm.of (by decide)) | with_reducible apply rideGrant_ev (hm.of (by decide))
    | with_reducible apply epochOver_ev (hm.of (by decide))
    | with_reducible refine modPair_ev (hm.of (by decide)) (fun _ h => h) ?_
    | with_reducible refine modPair_ev (hm.of (by decide)) (fun _ _ => by decide) ?_ | split | (dsimp only; split)
    | with_reducible refine Evolves.set_lastChan (hm.bit (by decide)) ?_
    | with_reducible refine Evolves.mk' ?_ (hs := (fun _ => rfl))
    | with_reducible refine Evolves.mk' ?_ (hs := (fun h => Memory.wf_filter _ _ _ h))
    | with_reducible refine Evolves.mk' ?_ (hs := (fun h => Memory.wf_cellsWrite _ _ _ _ h))

theorem dataAct_ev {m : Nat} {z0 : State} {ecc : Bool} {f : RideFrame} {s : State} (hm : Within 0xc785fa0 m)
    (hev : Evolves m z0 s) :
    Evolves m z0 (dataAct ecc f s) := by
  unfold dataAct
  repeat' first
    | intro _ | with_reducible assumption | with_reducible apply Evolves.ite
    | with_reducible apply pairEcc_ev (hm.of (by decide)) | with_reducible apply rideGrant_ev (hm.of (by decide))
    | with_reducible apply epochOver_ev (hm.of (by decide))
    | with_reducible refine modPair_ev (hm.of (by decide)) (fun _ h => h) ?_
    | with_reducible refine modPair_ev (hm.of (by decide)) (fun _ _ => by decide) ?_ | split | (dsimp only; split)

theorem dataFrameEffect_ev {m : Nat} {z0 : State} {f : RideFrame} {ecc : Bool} {s : State} (hm : Within 0xc785fa0 m)
    (hev : Evolves m z0 s) :
    Evolves m z0 (dataFrameEffect f ecc s) := by
  unfold dataFrameEffect
  repeat' first
    | intro _ | with_reducible assumption | with_reducible apply Evolves.ite
    | with_reducible apply rideReceive_ev (hm.of (by decide)) | with_reducible apply dataAct_ev (hm.of (by decide))
    | split | (dsimp only; split)

theorem epochTimeoutEffect_ev {m : Nat} {z0 : State} {s : State} (hm : Within 0x481c4582 m) (hev : Evolves m z0 s) :
    Evolves m z0 (epochTimeoutEffect s) := by
  unfold epochTimeoutEffect
  repeat' first
    | intro _ | with_reducible assumption | with_reducible apply Evolves.ite
    | with_reducible apply waitUntil_ev (hm.of (by decide)) | with_reducible apply rideTold_ev (hm.of (by decide))
    | with_reducible apply discardEpoch_ev (hm.of (by decide)) | with_reducible apply epochOver_ev (hm.of (by decide))
    | split | (dsimp only; split)

theorem rideChannelEnd_ev {m : Nat} {z0 : State} {s : State} (hm : Within 0x8100100 m) (hev : Evolves m z0 s) :
    Evolves m z0 (rideChannelEnd s) := by
  unfold rideChannelEnd
  repeat' first
    | intro _ | with_reducible assumption | with_reducible apply Evolves.ite
    | with_reducible apply endChan_ev (hm.of (by decide)) | with_reducible apply rideQueue_ev (hm.of (by decide))
    | with_reducible apply sendNext_ev (hm.of (by decide))
    | with_reducible refine modPair_ev (hm.of (by decide)) (fun _ h => h) ?_
    | with_reducible refine modPair_ev (hm.of (by decide)) (fun _ _ => by decide) ?_ | split | (dsimp only; split)

theorem rideLinkUpEffect_ev {m : Nat} {z0 : State} {s : State} (hm : Within 0x8000000 m) (hev : Evolves m z0 s) :
    Evolves m z0 (rideLinkUpEffect s) := by
  unfold rideLinkUpEffect
  repeat' first
    | intro _ | with_reducible assumption | with_reducible apply Evolves.ite
    | with_reducible apply rideSend_ev (hm.of (by decide))
    | with_reducible refine modPair_ev (hm.of (by decide)) (fun _ h => h) ?_
    | with_reducible refine modPair_ev (hm.of (by decide)) (fun _ _ => by decide) ?_ | split | (dsimp only; split)

theorem helloSendEffect_ev {m : Nat} {z0 : State} {s : State} (hm : Within 0x480c4582 m) (hev : Evolves m z0 s) :
    Evolves m z0 (helloSendEffect s) := by
  unfold helloSendEffect
  repeat' first
    | intro _ | with_reducible assumption | with_reducible apply Evolves.ite
    | with_reducible apply waitUntil_ev (hm.of (by decide)) | with_reducible apply rideSend_ev (hm.of (by decide))
    | with_reducible refine modPair_ev (hm.of (by decide)) (fun _ h => h) ?_
    | with_reducible refine modPair_ev (hm.of (by decide)) (fun _ _ => by decide) ?_ | split | (dsimp only; split)

theorem becomeActive_ev {m : Nat} {z0 : State} {s : State} (hm : Within 0x8000100 m) (hev : Evolves m z0 s) :
    Evolves m z0 (becomeActive s) := by
  unfold becomeActive
  repeat' first
    | intro _ | with_reducible assumption | with_reducible apply Evolves.ite
    | with_reducible apply syncStart_ev (hm.of (by decide))
    | with_reducible refine modPair_ev (hm.of (by decide)) (fun _ h => h) ?_
    | with_reducible refine modPair_ev (hm.of (by decide)) (fun _ _ => by decide) ?_
    | with_reducible refine setRole_ev (hm.of (by decide)) (by decide) ?_ | split | (dsimp only; split)

theorem becomeStandby_ev {m : Nat} {z0 : State} {s : State} (hm : Within 0x8000100 m) (hev : Evolves m z0 s) :
    Evolves m z0 (becomeStandby s) := by
  unfold becomeStandby
  repeat' first
    | intro _ | with_reducible assumption | with_reducible apply Evolves.ite
    | with_reducible refine modPair_ev (hm.of (by decide)) (fun _ h => h) ?_
    | with_reducible refine modPair_ev (hm.of (by decide)) (fun _ _ => by decide) ?_
    | with_reducible refine setRole_ev (hm.of (by decide)) (by decide) ?_ | split | (dsimp only; split)

theorem yieldRole_ev {m : Nat} {z0 : State} {s : State} (hm : Within 0x8000100 m) (hev : Evolves m z0 s) :
    Evolves m z0 (yieldRole s) := by
  unfold yieldRole
  repeat' first
    | intro _ | with_reducible assumption | with_reducible apply Evolves.ite
    | with_reducible apply pairAlarm_ev (hm.of (by decide))
    | with_reducible apply becomeStandby_ev (hm.of (by decide))
    | with_reducible refine setRole_ev (hm.of (by decide)) (by decide) ?_ | split | (dsimp only; split)

theorem resolveRoles_ev {m : Nat} {z0 : State} {serving start : Bool} {prio uid : Nat} {s : State} (hm : Within 0x8000100 m)
    (hev : Evolves m z0 s) :
    Evolves m z0 (resolveRoles serving start prio uid s) := by
  unfold resolveRoles
  repeat' first
    | intro _ | with_reducible assumption | with_reducible apply Evolves.ite
    | with_reducible apply pairAlarm_ev (hm.of (by decide)) | with_reducible apply becomeActive_ev (hm.of (by decide))
    | with_reducible apply becomeStandby_ev (hm.of (by decide))
    | with_reducible apply yieldRole_ev (hm.of (by decide)) | split | (dsimp only; split)

theorem helloAct_ev {m : Nat} {z0 : State} {f : RideFrame} {s : State} (hm : Within 0x8000100 m)
    (hev : Evolves m z0 s) :
    Evolves m z0 (helloAct f s) := by
  unfold helloAct
  repeat' first
    | intro _ | with_reducible assumption | with_reducible apply Evolves.ite
    | with_reducible apply pairAlarm_ev (hm.of (by decide)) | with_reducible apply rideSend_ev (hm.of (by decide))
    | with_reducible apply rideAck_ev (hm.of (by decide)) | with_reducible apply resolveRoles_ev (hm.of (by decide))
    | with_reducible refine modPair_ev (hm.of (by decide)) (fun _ h => h) ?_
    | with_reducible refine modPair_ev (hm.of (by decide)) (fun _ _ => by decide) ?_ | split | (dsimp only; split)

theorem helloFrameEffect_ev {m : Nat} {z0 : State} {f : RideFrame} {s : State} (hm : Within 0x8100100 m)
    (hev : Evolves m z0 s) :
    Evolves m z0 (helloFrameEffect f s) := by
  unfold helloFrameEffect
  repeat' first
    | intro _ | with_reducible assumption | with_reducible apply Evolves.ite
    | with_reducible apply rideReceive_ev (hm.of (by decide)) | with_reducible apply helloAct_ev (hm.of (by decide))
    | split | (dsimp only; split)

theorem ackFrameEffect_ev {m : Nat} {z0 : State} {f : RideFrame} {s : State} (hm : Within 0x8100000 m) (hev : Evolves m z0 s) :
    Evolves m z0 (ackFrameEffect f s) := rideReceive_ev (hm.of (by decide)) (fun _ h => h) hev

theorem resendOr_ev {m : Nat} {z0 : State} {test : RideOut → Bool} {s : State} (hm : Within 0x8100180 m)
    (hev : Evolves m z0 s) :
    Evolves m z0 (resendOr test s) := by
  unfold resendOr
  repeat' first
    | intro _ | with_reducible assumption | with_reducible apply Evolves.ite
    | with_reducible apply rideResend_ev (hm.of (by decide)) | with_reducible apply rideDown_ev (hm.of (by decide))
    | split | (dsimp only; split) | refine Evolves.fst (by assumption) ?_

theorem nakFrameEffect_ev {m : Nat} {z0 : State} {f : RideFrame} {s : State} (hm : Within 0x8100180 m)
    (hev : Evolves m z0 s) :
    Evolves m z0 (nakFrameEffect f s) := by
  unfold nakFrameEffect
  repeat' first
    | intro _ | with_reducible assumption | with_reducible apply Evolves.ite
    | with_reducible apply rideReceive_ev (hm.of (by decide)) | with_reducible apply resendOr_ev (hm.of (by decide))
    | split | (dsimp only; split)

theorem retransmissionTimeoutEffect_ev {m : Nat} {z0 : State} {s : State} (hm : Within 0x481c4582 m)
    (hev : Evolves m z0 s) :
    Evolves m z0 (retransmissionTimeoutEffect s) := by
  unfold retransmissionTimeoutEffect
  repeat' first
    | intro _ | with_reducible assumption | with_reducible apply Evolves.ite
    | with_reducible apply waitUntil_ev (hm.of (by decide)) | with_reducible apply resendOr_ev (hm.of (by decide))
    | split | (dsimp only; split)

theorem discardedRideFrameEffect_ev {m : Nat} {z0 : State} {bytes : List Byte} {s : State} (hm : Within 0x8000000 m)
    (hev : Evolves m z0 s) :
    Evolves m z0 (discardedRideFrameEffect bytes s) := by
  unfold discardedRideFrameEffect
  repeat' first
    | intro _ | with_reducible assumption | with_reducible apply Evolves.ite
    | with_reducible apply rideNak_ev (hm.of (by decide)) | split | (dsimp only; split)

theorem heartbeatSendEffect_ev {m : Nat} {z0 : State} {s : State} (hm : Within 0x480c4582 m) (hev : Evolves m z0 s) :
    Evolves m z0 (heartbeatSendEffect s) := by
  unfold heartbeatSendEffect
  repeat' first
    | intro _ | with_reducible assumption | with_reducible apply Evolves.ite
    | with_reducible apply waitUntil_ev (hm.of (by decide)) | with_reducible apply rideSend_ev (hm.of (by decide))
    | with_reducible refine modPair_ev (hm.of (by decide)) (fun _ h => h) ?_
    | with_reducible refine modPair_ev (hm.of (by decide)) (fun _ _ => by decide) ?_ | split | (dsimp only; split)

theorem steer_ev {m : Nat} {z0 : State} {offset : Int} {s : State} (hm : Within 0x44180 m) (hev : Evolves m z0 s) :
    Evolves m z0 (steer offset s) := by
  unfold steer
  repeat' first
    | intro _ | with_reducible assumption | with_reducible apply Evolves.ite
    | with_reducible apply setPw_ev (hm.of (by decide)) | with_reducible apply slewWritten_ev (hm.of (by decide))
    | with_reducible apply timeChange_ev (hm.of (by decide)) | split | (dsimp only; split)

theorem heartbeatAct_ev {m : Nat} {z0 : State} {f : RideFrame} {s : State} (hm : Within 0x8044180 m)
    (hev : Evolves m z0 s) :
    Evolves m z0 (heartbeatAct f s) := by
  unfold heartbeatAct
  repeat' first
    | intro _ | with_reducible assumption | with_reducible apply Evolves.ite
    | with_reducible apply syncStart_ev (hm.of (by decide))
    | with_reducible apply becomeStandby_ev (hm.of (by decide)) | with_reducible apply steer_ev (hm.of (by decide))
    | with_reducible refine modPair_ev (hm.of (by decide)) (fun _ h => h) ?_
    | with_reducible refine modPair_ev (hm.of (by decide)) (fun _ _ => by decide) ?_ | split | (dsimp only; split)

theorem heartbeatFrameEffect_ev {m : Nat} {z0 : State} {f : RideFrame} {s : State} (hm : Within 0x8144180 m)
    (hev : Evolves m z0 s) :
    Evolves m z0 (heartbeatFrameEffect f s) := by
  unfold heartbeatFrameEffect
  repeat' first
    | intro _ | with_reducible assumption | with_reducible apply Evolves.ite
    | with_reducible apply rideReceive_ev (hm.of (by decide))
    | with_reducible apply heartbeatAct_ev (hm.of (by decide)) | split | (dsimp only; split)

theorem heartbeatLossEffect_ev {m : Nat} {z0 : State} {s : State} (hm : Within 0x4c7c5f82 m) (hev : Evolves m z0 s) :
    Evolves m z0 (heartbeatLossEffect s) := by
  unfold heartbeatLossEffect
  repeat' first
    | intro _ | with_reducible assumption | with_reducible apply Evolves.ite
    | with_reducible apply waitUntil_ev (hm.of (by decide)) | with_reducible apply serviceBegin_ev (hm.of (by decide))
    | with_reducible apply pairAlarm_ev (hm.of (by decide))
    | with_reducible refine modPair_ev (hm.of (by decide)) (fun _ h => h) ?_
    | with_reducible refine modPair_ev (hm.of (by decide)) (fun _ _ => by decide) ?_ | split | (dsimp only; split)

theorem witnessBeaconEffect_ev {m : Nat} {z0 : State} {p : Nat} {s : State} (hm : Within 0x480c4582 m)
    (hev : Evolves m z0 s) :
    Evolves m z0 (witnessBeaconEffect p s) := by
  unfold witnessBeaconEffect
  repeat' first
    | intro _ | with_reducible assumption | with_reducible apply Evolves.ite
    | with_reducible apply modPort_ev (hm.of (by decide)) | with_reducible apply waitUntil_ev (hm.of (by decide))
    | with_reducible refine modPair_ev (hm.of (by decide)) (fun _ h => h) ?_
    | with_reducible refine modPair_ev (hm.of (by decide)) (fun _ _ => by decide) ?_ | split | (dsimp only; split)

theorem beaconAct_ev {m : Nat} {z0 : State} {bs : List Byte} {s : State} (hm : Within 0x8000100 m)
    (hev : Evolves m z0 s) :
    Evolves m z0 (beaconAct bs s) := by
  unfold beaconAct
  repeat' first
    | intro _ | with_reducible assumption | with_reducible apply Evolves.ite
    | with_reducible apply pairAlarm_ev (hm.of (by decide)) | with_reducible apply yieldRole_ev (hm.of (by decide))
    | with_reducible refine modPair_ev (hm.of (by decide)) (fun _ h => h) ?_
    | with_reducible refine modPair_ev (hm.of (by decide)) (fun _ _ => by decide) ?_
    | with_reducible refine setRole_ev (hm.of (by decide)) (by decide) ?_ | split | (dsimp only; split)

theorem partnerBeaconLossEffect_ev {m : Nat} {z0 : State} {s : State} (hm : Within 0x480c4582 m)
    (hev : Evolves m z0 s) :
    Evolves m z0 (partnerBeaconLossEffect s) := by
  unfold partnerBeaconLossEffect
  repeat' first
    | intro _ | with_reducible assumption | with_reducible apply Evolves.ite
    | with_reducible apply waitUntil_ev (hm.of (by decide))
    | with_reducible refine modPair_ev (hm.of (by decide)) (fun _ h => h) ?_
    | with_reducible refine modPair_ev (hm.of (by decide)) (fun _ _ => by decide) ?_ | split | (dsimp only; split)

theorem loadWire_ev {m : Nat} {z0 : State} {image : List Byte} {p : Nat} {s : State} (hm : Within 0x4000 m)
    (hev : Evolves m z0 s) :
    Evolves m z0 (loadWire image p s) := by
  unfold loadWire
  repeat' first
    | intro _ | with_reducible assumption | with_reducible apply Evolves.ite
    | with_reducible apply modPort_ev (hm.of (by decide)) | split | (dsimp only; split)

theorem xonRecord_ev {m : Nat} {z0 : State} {image : List Byte} {p : Nat} {s : State} (hm : Within 0x4000 m)
    (hev : Evolves m z0 s) :
    Evolves m z0 (xonRecord image p s) := by
  unfold xonRecord
  repeat' first
    | intro _ | with_reducible assumption | with_reducible apply Evolves.ite
    | with_reducible apply modPort_ev (hm.of (by decide)) | with_reducible apply forAll_ev | split
    | (dsimp only; split)

theorem takeover_ev {m : Nat} {z0 : State} {counted : Bool} {s : State} (hm : Within 0xc785f80 m)
    (hev : Evolves m z0 s) :
    Evolves m z0 (takeover counted s) := by
  unfold takeover
  repeat' first
    | intro _ | with_reducible assumption | with_reducible apply Evolves.ite
    | with_reducible apply bumpParam_ev (hm.of (by decide)) | with_reducible apply gateCatchUp_ev (hm.of (by decide))
    | with_reducible apply serviceBegin_ev (hm.of (by decide)) | with_reducible apply rideTold_ev (hm.of (by decide))
    | with_reducible apply discardEpochs_ev (hm.of (by decide)) | with_reducible apply loadWire_ev (hm.of (by decide))
    | with_reducible apply xonRecord_ev (hm.of (by decide)) | with_reducible apply forAll_ev
    | with_reducible refine modPair_ev (hm.of (by decide)) (fun _ h => h) ?_
    | with_reducible refine modPair_ev (hm.of (by decide)) (fun _ _ => by decide) ?_
    | with_reducible refine setRole_ev (hm.of (by decide)) (by decide) ?_ | split | (dsimp only; split)

theorem standAlone_ev {m : Nat} {z0 : State} {s : State} (hm : Within 0xc785f80 m) (hev : Evolves m z0 s) :
    Evolves m z0 (standAlone s) := by
  unfold standAlone
  repeat' first
    | intro _ | with_reducible assumption | with_reducible apply Evolves.ite
    | with_reducible apply pairAlarm_ev (hm.of (by decide)) | with_reducible apply enterSolo_ev (hm.of (by decide))
    | with_reducible apply takeover_ev (hm.of (by decide)) | split | (dsimp only; split)

theorem witnessWindowExpiryEffect_ev {m : Nat} {z0 : State} {s : State} (hm : Within 0x4c7c5f82 m)
    (hev : Evolves m z0 s) :
    Evolves m z0 (witnessWindowExpiryEffect s) := by
  unfold witnessWindowExpiryEffect
  repeat' first
    | intro _ | with_reducible assumption | with_reducible apply Evolves.ite
    | with_reducible apply waitUntil_ev (hm.of (by decide)) | with_reducible apply standAlone_ev (hm.of (by decide))
    | split | (dsimp only; split)

theorem partitionTimeoutEffect_ev {m : Nat} {z0 : State} {s : State} (hm : Within 0x4c7c5f82 m)
    (hev : Evolves m z0 s) :
    Evolves m z0 (partitionTimeoutEffect s) := by
  unfold partitionTimeoutEffect
  repeat' first
    | intro _ | with_reducible assumption | with_reducible apply Evolves.ite
    | with_reducible apply waitUntil_ev (hm.of (by decide)) | with_reducible apply standAlone_ev (hm.of (by decide))
    | split | (dsimp only; split)

theorem switchTry_ev {m : Nat} {z0 : State} {s : State} (hm : Within 0xc785f80 m) (hev : Evolves m z0 s) :
    Evolves m z0 (switchTry s) := by
  unfold switchTry
  repeat' first
    | intro _ | with_reducible assumption | with_reducible apply Evolves.ite
    | with_reducible apply rideQueue_ev (hm.of (by decide)) | with_reducible apply syncStart_ev (hm.of (by decide))
    | with_reducible apply takeover_ev (hm.of (by decide))
    | with_reducible refine modPair_ev (hm.of (by decide)) (fun _ h => h) ?_
    | with_reducible refine modPair_ev (hm.of (by decide)) (fun _ _ => by decide) ?_ | split | (dsimp only; split)

theorem commitAct_ev {m : Nat} {z0 : State} {ecc : Bool} {f : RideFrame} {s : State} (hm : Within 0xffedfb8 m)
    (hev : Evolves m z0 s) :
    Evolves m z0 (commitAct ecc f s) := by
  unfold commitAct
  repeat' first
    | intro _ | with_reducible assumption | with_reducible apply Evolves.ite
    | with_reducible apply rideGrant_ev (hm.of (by decide)) | with_reducible apply commitTry_ev (hm.of (by decide))
    | with_reducible apply epochOver_ev (hm.of (by decide)) | with_reducible apply switchTry_ev (hm.of (by decide))
    | with_reducible refine modPair_ev (hm.of (by decide)) (fun _ h => h) ?_
    | with_reducible refine modPair_ev (hm.of (by decide)) (fun _ _ => by decide) ?_ | split | (dsimp only; split)

theorem commitFrameEffect_ev {m : Nat} {z0 : State} {f : RideFrame} {ecc : Bool} {s : State} (hm : Within 0xffedfb8 m)
    (hev : Evolves m z0 s) :
    Evolves m z0 (commitFrameEffect f ecc s) := by
  unfold commitFrameEffect
  repeat' first
    | intro _ | with_reducible assumption | with_reducible apply Evolves.ite
    | with_reducible apply rideReceive_ev (hm.of (by decide)) | with_reducible apply commitAct_ev (hm.of (by decide))
    | split | (dsimp only; split)

theorem switchRequestAct_ev {m : Nat} {z0 : State} {f : RideFrame} {s : State} (hm : Within 0xc785f80 m)
    (hev : Evolves m z0 s) :
    Evolves m z0 (switchRequestAct f s) := by
  unfold switchRequestAct
  repeat' first
    | intro _ | with_reducible assumption | with_reducible apply Evolves.ite
    | with_reducible apply rideGrant_ev (hm.of (by decide)) | with_reducible apply switchTry_ev (hm.of (by decide))
    | with_reducible refine modPair_ev (hm.of (by decide)) (fun _ h => h) ?_
    | with_reducible refine modPair_ev (hm.of (by decide)) (fun _ _ => by decide) ?_ | split | (dsimp only; split)

theorem switchRequestEffect_ev {m : Nat} {z0 : State} {f : RideFrame} {s : State} (hm : Within 0xc785f80 m)
    (hev : Evolves m z0 s) :
    Evolves m z0 (switchRequestEffect f s) := by
  unfold switchRequestEffect
  repeat' first
    | intro _ | with_reducible assumption | with_reducible apply Evolves.ite
    | with_reducible apply rideReceive_ev (hm.of (by decide))
    | with_reducible apply switchRequestAct_ev (hm.of (by decide)) | split | (dsimp only; split)

theorem switchDoneAct_ev {m : Nat} {z0 : State} {f : RideFrame} {s : State} (hm : Within 0x8000100 m)
    (hev : Evolves m z0 s) :
    Evolves m z0 (switchDoneAct f s) := by
  unfold switchDoneAct
  repeat' first
    | intro _ | with_reducible assumption | with_reducible apply Evolves.ite
    | with_reducible apply rideGrant_ev (hm.of (by decide))
    | with_reducible apply becomeStandby_ev (hm.of (by decide)) | split | (dsimp only; split)

theorem switchDoneEffect_ev {m : Nat} {z0 : State} {f : RideFrame} {s : State} (hm : Within 0x8100100 m)
    (hev : Evolves m z0 s) :
    Evolves m z0 (switchDoneEffect f s) := by
  unfold switchDoneEffect
  repeat' first
    | intro _ | with_reducible assumption | with_reducible apply Evolves.ite
    | with_reducible apply rideReceive_ev (hm.of (by decide))
    | with_reducible apply switchDoneAct_ev (hm.of (by decide)) | split | (dsimp only; split)

theorem switchoverTimeoutEffect_ev {m : Nat} {z0 : State} {s : State} (hm : Within 0x4c7c5f82 m)
    (hev : Evolves m z0 s) :
    Evolves m z0 (switchoverTimeoutEffect s) := by
  unfold switchoverTimeoutEffect
  repeat' first
    | intro _ | with_reducible assumption | with_reducible apply Evolves.ite
    | with_reducible apply waitUntil_ev (hm.of (by decide)) | with_reducible apply serviceBegin_ev (hm.of (by decide))
    | with_reducible apply pairAlarm_ev (hm.of (by decide))
    | with_reducible refine modPair_ev (hm.of (by decide)) (fun _ h => h) ?_
    | with_reducible refine modPair_ev (hm.of (by decide)) (fun _ _ => by decide) ?_ | split | (dsimp only; split)

theorem leaveAct_ev {m : Nat} {z0 : State} {s : State} (hm : Within 0xc785f00 m) (hev : Evolves m z0 s) :
    Evolves m z0 (leaveAct s) := by
  unfold leaveAct
  repeat' first
    | intro _ | with_reducible assumption | with_reducible apply Evolves.ite
    | with_reducible apply abortChan_ev (hm.of (by decide)) | with_reducible apply serviceBegin_ev (hm.of (by decide))
    | with_reducible apply rideGrant_ev (hm.of (by decide))
    | with_reducible refine modPair_ev (hm.of (by decide)) (fun _ h => h) ?_
    | with_reducible refine modPair_ev (hm.of (by decide)) (fun _ _ => by decide) ?_ | split | (dsimp only; split)

theorem leaveFrameEffect_ev {m : Nat} {z0 : State} {f : RideFrame} {s : State} (hm : Within 0xc785f00 m)
    (hev : Evolves m z0 s) :
    Evolves m z0 (leaveFrameEffect f s) := by
  unfold leaveFrameEffect
  repeat' first
    | intro _ | with_reducible assumption | with_reducible apply Evolves.ite
    | with_reducible apply rideReceive_ev (hm.of (by decide)) | with_reducible apply leaveAct_ev (hm.of (by decide))
    | split | (dsimp only; split)

theorem xferPacedBurstEffect_ev {m : Nat} {z0 : State} {c : Nat} {io : BurstIo} {s : State} (hm : Within 0xef85fa4 m)
    (hev : Evolves m z0 s) :
    Evolves m z0 (xferPacedBurstEffect c io s) := by
  unfold xferPacedBurstEffect
  repeat' first
    | intro _ | with_reducible assumption | with_reducible apply Evolves.ite
    | with_reducible apply modChan_ev (hm.of (by decide)) | with_reducible apply countBurst_ev (hm.of (by decide))
    | with_reducible apply chanEcc_ev (hm.of (by decide)) | with_reducible apply oneRequest_ev (hm.of (by decide))
    | with_reducible apply pairEcc_ev (hm.of (by decide)) | with_reducible apply rideBurst_ev (hm.of (by decide))
    | with_reducible apply bankBurst_ev (hm.of (by decide)) | split | (dsimp only; split)

theorem channelEnd_ev {m : Nat} {z0 : State} {c : Nat} {ecc : Bool} {s : State} (hm : Within 0xffedfb8 m)
    (hev : Evolves m z0 s) :
    Evolves m z0 (channelEnd c ecc s) := by
  unfold channelEnd
  repeat' first
    | intro _ | with_reducible assumption | with_reducible apply Evolves.ite
    | with_reducible apply endChan_ev (hm.of (by decide))
    | with_reducible apply xferChannelEndEffect_ev (hm.of (by decide))
    | with_reducible apply rideTold_ev (hm.of (by decide)) | with_reducible apply commitTry_ev (hm.of (by decide))
    | with_reducible apply epochOver_ev (hm.of (by decide))
    | with_reducible apply rideChannelEnd_ev (hm.of (by decide))
    | with_reducible apply switchTry_ev (hm.of (by decide)) | split | (dsimp only; split)

theorem pairCommand_ev {m : Nat} {z0 : State} {op : Nat} {s : State} (hm : Within 0xc785f80 m)
    (hev : Evolves m z0 s) :
    Evolves m z0 (pairCommand op s) := by
  unfold pairCommand
  repeat' first
    | intro _ | with_reducible assumption | with_reducible apply Evolves.ite
    | with_reducible apply pairAlarm_ev (hm.of (by decide)) | with_reducible apply rideSend_ev (hm.of (by decide))
    | with_reducible apply leavePair_ev (hm.of (by decide))
    | with_reducible refine modPair_ev (hm.of (by decide)) (fun _ h => h) ?_
    | with_reducible refine modPair_ev (hm.of (by decide)) (fun _ _ => by decide) ?_ | split | (dsimp only; split)

end Sys2Proof.Machine
end

