-- ==== Sys2Proof/Laws/EvolveSelfTest.lean ====
section
/-! SUPPORT. What every operation of Machine/SelfTest.lean may change, and the promises it keeps (Evolves). -/

set_option Elab.async false

set_option linter.unusedTactic false
set_option linter.unreachableTactic false

namespace Sys2Proof.Machine

theorem modSafety_ev {m : Nat} {z0 : State} {f : Safety → Safety} {s : State} (hm : Within 0x4000000 m)
    (hev : Evolves m z0 s) :
    Evolves m z0 (modSafety f s) := by
  unfold modSafety
  repeat' first
    | intro _ | with_reducible assumption | with_reducible apply Evolves.ite | split | (dsimp only; split)
    | with_reducible refine Evolves.set_safety (hm.bit (by decide)) ?_

theorem safetySets_ev {m : Nat} {z0 : State} {was : Bool} {f : Safety → Safety} {s : State} (hm : Within 0x4000100 m)
    (hev : Evolves m z0 s) :
    Evolves m z0 (safetySets was f s) := by
  unfold safetySets
  repeat' first
    | intro _ | with_reducible assumption | with_reducible apply Evolves.ite
    | with_reducible apply raise_ev (hm.of (by decide)) | with_reducible apply modSafety_ev (hm.of (by decide))
    | split | (dsimp only; split)

theorem reportTest_ev {m : Nat} {z0 : State} {c i : Nat} {s : State} (hm : Within 0x4000120 m)
    (hev : Evolves m z0 s) :
    Evolves m z0 (reportTest c i s) := by
  unfold reportTest
  repeat' first
    | intro _ | with_reducible assumption | with_reducible apply Evolves.ite
    | with_reducible apply setMFault_ev (hm.of (by decide)) | with_reducible apply safetySets_ev (hm.of (by decide))
    | split | (dsimp only; split)

theorem failTest_ev {m : Nat} {z0 : State} {c i : Nat} {s : State} (hm : Within 0x2efadfb4 m) (hev : Evolves m z0 s) :
    Evolves m z0 (failTest c i s) := by
  unfold failTest
  repeat' first
    | intro _ | with_reducible assumption | with_reducible apply Evolves.ite
    | with_reducible apply fenceSelf_ev (hm.of (by decide)) | with_reducible apply enterSafe_ev (hm.of (by decide))
    | with_reducible apply reportTest_ev (hm.of (by decide)) | split | (dsimp only; split)

theorem setMisses_ev {m : Nat} {z0 : State} {c n : Nat} {s : State} (hm : Within 0x4000000 m) (hev : Evolves m z0 s) :
    Evolves m z0 (setMisses c n s) := by
  unfold setMisses
  repeat' first
    | intro _ | with_reducible assumption | with_reducible apply Evolves.ite
    | with_reducible apply modSafety_ev (hm.of (by decide)) | split | (dsimp only; split)

theorem testStrike_ev {m : Nat} {z0 : State} {cell : Nat} {s : State} (hm : Within 0x4000120 m)
    (hev : Evolves m z0 s) :
    Evolves m z0 (testStrike cell s) := by
  unfold testStrike
  repeat' first
    | intro _ | with_reducible assumption | with_reducible apply Evolves.ite
    | with_reducible apply setMFault_ev (hm.of (by decide)) | split | (dsimp only; split)

theorem testTurn_ev {m : Nat} {z0 : State} {c i : Nat} {s : State} (hm : Within 0x440c4582 m) (hev : Evolves m z0 s) :
    Evolves m z0 (testTurn c i s) := by
  unfold testTurn
  repeat' first
    | intro _ | with_reducible assumption | with_reducible apply Evolves.ite
    | with_reducible apply waitUntil_ev (hm.of (by decide)) | with_reducible apply rollHalf_ev (hm.of (by decide))
    | with_reducible apply modSafety_ev (hm.of (by decide)) | split | (dsimp only; split)

theorem periodicTestEffect_ev {m : Nat} {z0 : State} {c i : Nat} {e : TestEnd} {s0 : State} (hm : Within 0x6efedfb6 m)
    (hev : Evolves m z0 s0) :
    Evolves m z0 (periodicTestEffect c i e s0) := by
  unfold periodicTestEffect
  repeat' first
    | intro _ | with_reducible assumption | with_reducible apply Evolves.ite
    | with_reducible apply perfAdd_ev (hm.of (by decide)) | with_reducible apply logFault_ev (hm.of (by decide))
    | with_reducible apply waitUntil_ev (hm.of (by decide)) | with_reducible apply safetySets_ev (hm.of (by decide))
    | with_reducible apply failTest_ev (hm.of (by decide)) | with_reducible apply setMisses_ev (hm.of (by decide))
    | with_reducible apply testStrike_ev (hm.of (by decide)) | with_reducible apply testTurn_ev (hm.of (by decide))
    | split | (dsimp only; split)

theorem detectorDisagreementEffect_ev {m : Nat} {z0 : State} {i : Nat} {s : State} (hm : Within 0x2efadfb4 m)
    (hev : Evolves m z0 s) :
    Evolves m z0 (detectorDisagreementEffect i s) := by
  unfold detectorDisagreementEffect
  repeat' first
    | intro _ | with_reducible assumption | with_reducible apply Evolves.ite
    | with_reducible apply failTest_ev (hm.of (by decide)) | split | (dsimp only; split)

theorem knownAnswerProbeEffect_ev {m : Nat} {z0 : State} {passed : Bool} {s : State} (hm : Within 0x2efadfb4 m)
    (hev : Evolves m z0 s) :
    Evolves m z0 (knownAnswerProbeEffect passed s) := by
  unfold knownAnswerProbeEffect
  repeat' first
    | intro _ | with_reducible assumption | with_reducible apply Evolves.ite
    | with_reducible apply setPw_ev (hm.of (by decide)) | with_reducible apply failTest_ev (hm.of (by decide)) | split
    | (dsimp only; split)

theorem sleepCounted_ev {m : Nat} {z0 : State} {s : State} (hm : Within 0x2000000 m) (hev : Evolves m z0 s) :
    Evolves m z0 (sleepCounted s) := by
  unfold sleepCounted
  repeat' first
    | intro _ | with_reducible assumption | with_reducible apply Evolves.ite
    | with_reducible apply ageCatchUp_ev (hm.of (by decide))
    | with_reducible refine modStore_ev (hm.of (by decide)) (fun _ => ⟨rfl, rfl, rfl⟩) ?_
    | with_reducible refine modStore_ev (hm.of (by decide)) (fun _ => by split <;> exact ⟨rfl, rfl, rfl⟩) ?_ | split
    | (dsimp only; split)

theorem wakeExit_ev {m : Nat} {z0 : State} {s0 : State} (hm : Within 0x1658dd90 m) (hev : Evolves m z0 s0) :
    Evolves m z0 (wakeExit s0) := by
  unfold wakeExit
  repeat' first
    | intro _ | with_reducible assumption | with_reducible apply Evolves.ite
    | with_reducible apply raise_ev (hm.of (by decide)) | with_reducible apply tenantResetEnd_ev (hm.of (by decide))
    | with_reducible apply laneReview_ev (hm.of (by decide)) | with_reducible apply trimApply_ev (hm.of (by decide))
    | with_reducible apply sleepCounted_ev (hm.of (by decide)) | with_reducible apply forAll_ev | split
    | (dsimp only; split) | with_reducible refine Evolves.set_power (hm.bit (by decide)) ?_
    | with_reducible refine Evolves.mk' ?_

theorem becomeReady_ev {m : Nat} {z0 : State} {s : State} (hm : Within 0x3658dd90 m) (hev : Evolves m z0 s) :
    Evolves m z0 (becomeReady s) := by
  unfold becomeReady
  repeat' first
    | intro _ | with_reducible assumption | with_reducible apply Evolves.ite
    | with_reducible apply wakeExit_ev (hm.of (by decide)) | split | (dsimp only; split)
    | with_reducible refine Evolves.set_start (hm.bit (by decide)) ?_

theorem selfCheckEndEffect_ev {m : Nat} {z0 : State} {failed : List (Nat × Nat)} {s : State} (hm : Within 0x3efadfb4 m)
    (hev : Evolves m z0 s) :
    Evolves m z0 (selfCheckEndEffect failed s) := by
  unfold selfCheckEndEffect
  repeat' first
    | intro _ | with_reducible assumption | with_reducible apply Evolves.ite
    | with_reducible apply setPw_ev (hm.of (by decide)) | with_reducible apply setWide_ev (hm.of (by decide))
    | with_reducible apply setMFault_ev (hm.of (by decide)) | with_reducible apply fenceNew_ev (hm.of (by decide))
    | with_reducible apply enterSafe_ev (hm.of (by decide)) | with_reducible apply safetySets_ev (hm.of (by decide))
    | with_reducible apply becomeReady_ev (hm.of (by decide)) | with_reducible apply Evolves.foldl | split
    | (dsimp only; split) | with_reducible refine Evolves.set_start (hm.bit (by decide)) ?_

theorem memoryInitialisationEndEffect_ev {m : Nat} {z0 : State} {s : State} (hm : Within 0x3658dd90 m)
    (hev : Evolves m z0 s) :
    Evolves m z0 (memoryInitialisationEndEffect s) := by
  unfold memoryInitialisationEndEffect
  repeat' first
    | intro _ | with_reducible assumption | with_reducible apply Evolves.ite
    | with_reducible apply becomeReady_ev (hm.of (by decide)) | split | (dsimp only; split)
    | with_reducible refine Evolves.set_start (hm.bit (by decide)) ?_

theorem watchdogService_ev {m : Nat} {z0 : State} {s : State} (hm : Within 0x4000000 m) (hev : Evolves m z0 s) :
    Evolves m z0 (watchdogService s) := by
  unfold watchdogService
  repeat' first
    | intro _ | with_reducible assumption | with_reducible apply Evolves.ite
    | with_reducible apply modSafety_ev (hm.of (by decide)) | split | (dsimp only; split)

theorem safetyCommand_ev {m : Nat} {z0 : State} {v : Nat} {s : State} (hm : Within 0x26585fa4 m)
    (hev : Evolves m z0 s) :
    Evolves m z0 (safetyCommand v s) := by
  unfold safetyCommand
  repeat' first
    | intro _ | with_reducible assumption | with_reducible apply Evolves.ite
    | with_reducible apply enterSafe_ev (hm.of (by decide))
    | with_reducible apply watchdogService_ev (hm.of (by decide)) | split | (dsimp only; split)

theorem safetyWatchdogExpiryEffect_ev {m : Nat} {z0 : State} {s : State} (hm : Within 0x665c5fa6 m)
    (hev : Evolves m z0 s) :
    Evolves m z0 (safetyWatchdogExpiryEffect s) := by
  unfold safetyWatchdogExpiryEffect
  repeat' first
    | intro _ | with_reducible assumption | with_reducible apply Evolves.ite
    | with_reducible apply wait_ev (hm.of (by decide)) | with_reducible apply safeFault_ev (hm.of (by decide)) | split
    | (dsimp only; split)

theorem handshakeTimeoutEffect_ev {m : Nat} {z0 : State} {a b : Nat} {s : State} (hm : Within 0x26585fa4 m)
    (hev : Evolves m z0 s) :
    Evolves m z0 (handshakeTimeoutEffect a b s) := by
  unfold handshakeTimeoutEffect
  repeat' first
    | intro _ | with_reducible assumption | with_reducible apply Evolves.ite
    | with_reducible apply handshakeFault_ev (hm.of (by decide)) | split | (dsimp only; split)

end Sys2Proof.Machine
end

