-- ==== Sys2Proof/Laws/EvolveEcc.lean ====
section
/-! SUPPORT. What every operation of Machine/Ecc.lean may change, and the promises it keeps (Evolves). -/

set_option Elab.async false

set_option linter.unusedTactic false
set_option linter.unreachableTactic false

namespace Sys2Proof.Machine

theorem eccMark_ev {m : Nat} {z0 : State} {n i addr : Nat} {safe : Bool} {s : State} (hm : Within 0x26585fa4 m)
    (hev : Evolves m z0 s) :
    Evolves m z0 (eccMark n i addr safe s) := by
  unfold eccMark
  repeat' first
    | intro _ | with_reducible assumption | with_reducible apply Evolves.ite
    | with_reducible apply setMFault_ev (hm.of (by decide)) | with_reducible apply safeFault_ev (hm.of (by decide))
    | split | (dsimp only; split)

theorem eccTenant_ev {m : Nat} {z0 : State} {t n i addr : Nat} {s : State} (hm : Within 0x26585fa4 m)
    (hev : Evolves m z0 s) :
    Evolves m z0 (eccTenant t n i addr s) := by
  unfold eccTenant
  repeat' first
    | intro _ | with_reducible assumption | with_reducible apply Evolves.ite
    | with_reducible apply tenantFault_ev (hm.of (by decide)) | with_reducible apply eccMark_ev (hm.of (by decide))
    | split | (dsimp only; split)

theorem eccIrq_ev {m : Nat} {z0 : State} {w n addr : Nat} {s : State} (hm : Within 0x26585fa4 m)
    (hev : Evolves m z0 s) :
    Evolves m z0 (eccIrq w n addr s) := by
  unfold eccIrq
  repeat' first
    | intro _ | with_reducible assumption | with_reducible apply Evolves.ite
    | with_reducible apply putSrc_ev (hm.of (by decide)) | with_reducible apply eccMark_ev (hm.of (by decide))
    | with_reducible apply eccTenant_ev (hm.of (by decide)) | with_reducible apply Evolves.foldl | split
    | (dsimp only; split)

theorem eccRow_ev {m : Nat} {z0 : State} {table inst r : Nat} {s : State} (hm : Within 0x26585fa4 m)
    (hev : Evolves m z0 s) :
    Evolves m z0 (eccRow table inst r s) := by
  unfold eccRow
  repeat' first
    | intro _ | with_reducible assumption | with_reducible apply Evolves.ite
    | with_reducible apply putRow_ev (hm.of (by decide)) | with_reducible apply putRowWord_ev (hm.of (by decide))
    | with_reducible apply storeFault_ev (hm.of (by decide)) | with_reducible apply storeBegin_ev (hm.of (by decide))
    | with_reducible apply eccMark_ev (hm.of (by decide)) | with_reducible apply eccTenant_ev (hm.of (by decide))
    | with_reducible apply eccIrq_ev (hm.of (by decide)) | split | (dsimp only; split)

theorem eccCounter_ev {m : Nat} {z0 : State} {s : State} (hm : Within 0x26585fa4 m) (hev : Evolves m z0 s) :
    Evolves m z0 (eccCounter s) := by
  unfold eccCounter
  repeat' first
    | intro _ | with_reducible assumption | with_reducible apply Evolves.ite
    | with_reducible apply drawn_ev (hm.of (by decide)) | with_reducible apply eccMark_ev (hm.of (by decide)) | split
    | (dsimp only; split) | with_reducible refine Evolves.set_perf (hm.bit (by decide)) ?_

theorem eccBandwidth_ev {m : Nat} {z0 : State} {s : State} (hm : Within 0x26585fa4 m) (hev : Evolves m z0 s) :
    Evolves m z0 (eccBandwidth s) := by
  unfold eccBandwidth
  repeat' first
    | intro _ | with_reducible assumption | with_reducible apply Evolves.ite
    | with_reducible apply setWide_ev (hm.of (by decide)) | with_reducible apply eccMark_ev (hm.of (by decide))
    | split | (dsimp only; split)

theorem eccParam_ev {m : Nat} {z0 : State} {id : Nat} {s : State} (hm : Within 0x26585fa4 m) (hev : Evolves m z0 s) :
    Evolves m z0 (eccParam id s) := by
  unfold eccParam
  repeat' first
    | intro _ | with_reducible assumption | with_reducible apply Evolves.ite
    | with_reducible apply eccMark_ev (hm.of (by decide)) | with_reducible apply eccTenant_ev (hm.of (by decide))
    | with_reducible apply eccBandwidth_ev (hm.of (by decide)) | split | (dsimp only; split)

theorem afterEcc_ev {m : Nat} {z0 : State} {ecc : Bool} {hit : State → State} {f : State → State} {s : State} (hm : Within 0x0 m) (h_hit : ∀ v, Evolves m z0 v → Evolves m z0 (hit v)) (h_f : ∀ v, Evolves m z0 v → Evolves m z0 (f v))
    (hev : Evolves m z0 s) : Evolves m z0 (afterEcc ecc hit f s) := by
  unfold afterEcc
  repeat' first
    | intro _ | with_reducible assumption | with_reducible apply Evolves.ite | apply h_hit | apply h_f | split
    | (dsimp only; split)

theorem pageBufferHit_ev {m : Nat} {z0 : State} {k : Nat} {s : State} (hm : Within 0x26585fa4 m)
    (hev : Evolves m z0 s) :
    Evolves m z0 (pageBufferHit k s) := by
  unfold pageBufferHit
  repeat' first
    | intro _ | with_reducible assumption | with_reducible apply Evolves.ite
    | with_reducible apply dropWaiting_ev (hm.of (by decide)) | with_reducible apply eccMark_ev (hm.of (by decide))
    | split | (dsimp only; split)

theorem storeWayHit_ev {m : Nat} {z0 : State} {s : State} (hm : Within 0x26585fa4 m) (hev : Evolves m z0 s) :
    Evolves m z0 (storeWayHit s) := by
  unfold storeWayHit
  repeat' first
    | intro _ | with_reducible assumption | with_reducible apply Evolves.ite
    | with_reducible apply storeFault_ev (hm.of (by decide)) | with_reducible apply eccMark_ev (hm.of (by decide))
    | split | (dsimp only; split)

theorem buildOr_ev {m : Nat} {z0 : State} {k : Nat} {ecc : EccHit} {f : State → State} {s : State} (hm : Within 0x26585fa4 m) (h_f : ∀ v, Evolves m z0 v → Evolves m z0 (f v))
    (hev : Evolves m z0 s) :
    Evolves m z0 (buildOr k ecc f s) := by
  unfold buildOr
  repeat' first
    | intro _ | with_reducible assumption | with_reducible apply Evolves.ite | apply h_f
    | with_reducible apply pageBufferHit_ev (hm.of (by decide))
    | with_reducible apply storeWayHit_ev (hm.of (by decide)) | split | (dsimp only; split)

theorem canopyHit_ev {m : Nat} {z0 : State} {t : Nat} {h : CanopyHit} {s : State} (hm : Within 0x26585fa4 m)
    (hev : Evolves m z0 s) :
    Evolves m z0 (canopyHit t h s) := by
  unfold canopyHit
  repeat' first
    | intro _ | with_reducible assumption | with_reducible apply Evolves.ite
    | with_reducible apply putLine_ev (hm.of (by decide)) | with_reducible apply eccMark_ev (hm.of (by decide))
    | with_reducible apply eccTenant_ev (hm.of (by decide)) | split | (dsimp only; split)

theorem canopyFillEndEffect_ev {m : Nat} {z0 : State} {t : Nat} {r : HostRead} {s : State} (hm : Within 0x480d00 m)
    (hev : Evolves m z0 s) :
    Evolves m z0 (canopyFillEndEffect t r s) := by
  unfold canopyFillEndEffect
  repeat' first
    | intro _ | with_reducible assumption | with_reducible apply Evolves.ite
    | with_reducible apply setFills_ev (hm.of (by decide)) | with_reducible apply fillDone_ev (hm.of (by decide))
    | with_reducible apply drain_ev (hm.of (by decide)) | with_reducible apply forEach_ev | split
    | (dsimp only; split)

end Sys2Proof.Machine
end

