-- ==== Sys2Proof/Laws/EvolvePortEvents.lean ====
section
/-! SUPPORT. What every operation of Machine/PortEvents.lean may change, and the promises it keeps (Evolves). -/

set_option Elab.async false

set_option linter.unusedTactic false
set_option linter.unreachableTactic false

namespace Sys2Proof.Machine

theorem wake_ev {m : Nat} {z0 : State} {source p row : Nat} {s : State} (hm : Within 0x300000a0 m)
    (hev : Evolves m z0 s) :
    Evolves m z0 (wake source p row s) := by
  unfold wake
  repeat' first
    | intro _ | with_reducible assumption | with_reducible apply Evolves.ite
    | with_reducible apply setPw_ev (hm.of (by decide)) | split | (dsimp only; split)
    | with_reducible refine Evolves.set_mgmt (hm.bit (by decide)) ?_
    | with_reducible refine Evolves.set_power (hm.bit (by decide)) ?_
    | with_reducible refine Evolves.set_start (hm.bit (by decide)) ?_ | with_reducible refine Evolves.mk' ?_

theorem wakeMatch_ev {m : Nat} {z0 : State} {p : Nat} {bs : List Byte} {s : State} (hm : Within 0x300000a0 m)
    (hev : Evolves m z0 s) :
    Evolves m z0 (wakeMatch p bs s) := by
  unfold wakeMatch
  repeat' first
    | intro _ | with_reducible assumption | with_reducible apply Evolves.ite
    | with_reducible apply wake_ev (hm.of (by decide)) | split | (dsimp only; split)

theorem frameIn_ev {m : Nat} {z0 : State} {p : Nat} {f : RxFrame} {s : State} (hm : Within 0x380841a0 m)
    (hev : Evolves m z0 s) :
    Evolves m z0 (frameIn p f s) := by
  unfold frameIn
  repeat' first
    | intro _ | with_reducible assumption | with_reducible apply Evolves.ite
    | with_reducible apply acceptCount_ev (hm.of (by decide))
    | with_reducible apply filterFrame_ev (hm.of (by decide))
    | with_reducible apply receiveChecks_ev (hm.of (by decide))
    | with_reducible apply macReceive_ev (hm.of (by decide)) | with_reducible apply beaconAct_ev (hm.of (by decide))
    | with_reducible apply wakeMatch_ev (hm.of (by decide)) | split | (dsimp only; split)

theorem frameReceiveEffect_ev {m : Nat} {z0 : State} {p : Nat} {f : RxFrame} {s : State} (hm : Within 0x380841a0 m)
    (hev : Evolves m z0 s) :
    Evolves m z0 (frameReceiveEffect p f s) := by
  unfold frameReceiveEffect
  repeat' first
    | intro _ | with_reducible assumption | with_reducible apply Evolves.ite
    | with_reducible apply frameIn_ev (hm.of (by decide)) | split | (dsimp only; split)

theorem txFrameEndEffect_ev {m : Nat} {z0 : State} {p : Nat} {s : State} (hm : Within 0x7c7c5fa2 m)
    (hev : Evolves m z0 s) :
    Evolves m z0 (txFrameEndEffect p s) := by
  unfold txFrameEndEffect
  repeat' first
    | intro _ | with_reducible assumption | with_reducible apply Evolves.ite
    | with_reducible apply modPort_ev (hm.of (by decide)) | with_reducible apply waitUntil_ev (hm.of (by decide))
    | with_reducible apply txEnd_ev (hm.of (by decide)) | with_reducible apply frameIn_ev (hm.of (by decide)) | split
    | (dsimp only; split)

theorem linkUpEffect_ev {m : Nat} {z0 : State} {p : Nat} {s : State} (hm : Within 0x700c45a2 m)
    (hev : Evolves m z0 s) :
    Evolves m z0 (linkUpEffect p s) := by
  unfold linkUpEffect
  repeat' first
    | intro _ | with_reducible assumption | with_reducible apply Evolves.ite
    | with_reducible apply modPort_ev (hm.of (by decide)) | with_reducible apply raise_ev (hm.of (by decide))
    | with_reducible apply waitUntil_ev (hm.of (by decide)) | with_reducible apply wake_ev (hm.of (by decide)) | split
    | (dsimp only; split)

theorem ppsRise_ev {m : Nat} {z0 : State} {s : State} (hm : Within 0x40000 m) (hev : Evolves m z0 s) :
    Evolves m z0 (ppsRise s) := by
  unfold ppsRise
  repeat' first
    | intro _ | with_reducible assumption | with_reducible apply Evolves.ite | split | (dsimp only; split)
    | with_reducible refine Evolves.set_time (hm.bit (by decide)) ?_

theorem ppsOutPulseEffect_ev {m : Nat} {z0 : State} {s : State} (hm : Within 0x400c4582 m) (hev : Evolves m z0 s) :
    Evolves m z0 (ppsOutPulseEffect s) := by
  unfold ppsOutPulseEffect
  repeat' first
    | intro _ | with_reducible assumption | with_reducible apply Evolves.ite
    | with_reducible apply waitDev_ev (hm.of (by decide)) | with_reducible apply ppsRise_ev (hm.of (by decide))
    | split | (dsimp only; split)

theorem ppsOutEndEffect_ev {m : Nat} {z0 : State} {s : State} (hm : Within 0x400c4582 m) (hev : Evolves m z0 s) :
    Evolves m z0 (ppsOutEndEffect s) := by
  unfold ppsOutEndEffect
  repeat' first
    | intro _ | with_reducible assumption | with_reducible apply Evolves.ite
    | with_reducible apply wait_ev (hm.of (by decide)) | split | (dsimp only; split)
    | with_reducible refine Evolves.set_time (hm.bit (by decide)) ?_

theorem capture_ev {m : Nat} {z0 : State} {e : Nat} {edge : Edge} {s : State} (hm : Within 0x40110 m)
    (hev : Evolves m z0 s) :
    Evolves m z0 (capture e edge s) := by
  unfold capture
  repeat' first
    | intro _ | with_reducible assumption | with_reducible apply Evolves.ite
    | with_reducible apply modWin_ev (hm.of (by decide)) | with_reducible apply raise_ev (hm.of (by decide))
    | with_reducible apply raiseTenants_ev (hm.of (by decide)) | with_reducible apply forAll_ev | split
    | (dsimp only; split) | with_reducible refine Evolves.set_time (hm.bit (by decide)) ?_

theorem ppsInCaptureEffect_ev {m : Nat} {z0 : State} {edge : Edge} {s : State} (hm : Within 0x40110 m)
    (hev : Evolves m z0 s) :
    Evolves m z0 (ppsInCaptureEffect edge s) := by
  unfold ppsInCaptureEffect
  repeat' first
    | intro _ | with_reducible assumption | with_reducible apply Evolves.ite
    | with_reducible apply capture_ev (hm.of (by decide)) | split | (dsimp only; split)

theorem evtInCaptureEffect_ev {m : Nat} {z0 : State} {e : Nat} {edge : Edge} {s : State} (hm : Within 0x300401b0 m)
    (hev : Evolves m z0 s) :
    Evolves m z0 (evtInCaptureEffect e edge s) := by
  unfold evtInCaptureEffect
  repeat' first
    | intro _ | with_reducible assumption | with_reducible apply Evolves.ite
    | with_reducible apply wake_ev (hm.of (by decide)) | with_reducible apply capture_ev (hm.of (by decide)) | split
    | (dsimp only; split)

theorem timebasePllLockEffect_ev {m : Nat} {z0 : State} {s : State} (hm : Within 0x10040000 m)
    (hev : Evolves m z0 s) :
    Evolves m z0 (timebasePllLockEffect s) := by
  unfold timebasePllLockEffect
  repeat' first
    | intro _ | with_reducible assumption | with_reducible apply Evolves.ite | split | (dsimp only; split)
    | with_reducible refine Evolves.set_time (hm.bit (by decide)) ?_
    | with_reducible refine Evolves.set_power (hm.bit (by decide)) ?_ | with_reducible refine Evolves.mk' ?_

theorem pllLockLossEffect_ev {m : Nat} {z0 : State} {s : State} (hm : Within 0x265c5fa4 m) (hev : Evolves m z0 s) :
    Evolves m z0 (pllLockLossEffect s) := by
  unfold pllLockLossEffect
  repeat' first
    | intro _ | with_reducible assumption | with_reducible apply Evolves.ite
    | with_reducible apply drawn_ev (hm.of (by decide)) | with_reducible apply safeFault_ev (hm.of (by decide))
    | split | (dsimp only; split) | with_reducible refine Evolves.set_time (hm.bit (by decide)) ?_

theorem fixedCycleCounterWrapEffect_ev {m : Nat} {z0 : State} {s : State} (hm : Within 0x400c4582 m)
    (hev : Evolves m z0 s) :
    Evolves m z0 (fixedCycleCounterWrapEffect s) := by
  unfold fixedCycleCounterWrapEffect
  repeat' first
    | intro _ | with_reducible assumption | with_reducible apply Evolves.ite
    | with_reducible apply wait_ev (hm.of (by decide)) | split | (dsimp only; split)

theorem programmableCounterWrapEffect_ev {m : Nat} {z0 : State} {n : Nat} {s : State} (hm : Within 0x400c4582 m)
    (hev : Evolves m z0 s) :
    Evolves m z0 (programmableCounterWrapEffect n s) := by
  unfold programmableCounterWrapEffect
  repeat' first
    | intro _ | with_reducible assumption | with_reducible apply Evolves.ite
    | with_reducible apply wait_ev (hm.of (by decide)) | split | (dsimp only; split)

theorem phaseSlewDecrementEffect_ev {m : Nat} {z0 : State} {s : State} (hm : Within 0x400c4582 m)
    (hev : Evolves m z0 s) :
    Evolves m z0 (phaseSlewDecrementEffect s) := by
  unfold phaseSlewDecrementEffect
  repeat' first
    | intro _ | with_reducible assumption | with_reducible apply Evolves.ite
    | with_reducible apply wait_ev (hm.of (by decide)) | split | (dsimp only; split)

theorem bandwidthWindowEndEffect_ev {m : Nat} {z0 : State} {s : State} (hm : Within 0x400c4582 m)
    (hev : Evolves m z0 s) :
    Evolves m z0 (bandwidthWindowEndEffect s) := by
  unfold bandwidthWindowEndEffect
  repeat' first
    | intro _ | with_reducible assumption | with_reducible apply Evolves.ite
    | with_reducible apply raise_ev (hm.of (by decide)) | with_reducible apply waitUntil_ev (hm.of (by decide))
    | split | (dsimp only; split) | with_reducible refine Evolves.set_perf (hm.bit (by decide)) ?_

theorem presentationEffect_ev {m : Nat} {z0 : State} {w : Nat} {s : State} (hm : Within 0x400c4d92 m)
    (hev : Evolves m z0 s) :
    Evolves m z0 (presentationEffect w s) := by
  unfold presentationEffect
  repeat' first
    | intro _ | with_reducible assumption | with_reducible apply Evolves.ite
    | with_reducible apply modWin_ev (hm.of (by decide)) | with_reducible apply waitUntil_ev (hm.of (by decide))
    | with_reducible apply post_ev (hm.of (by decide)) | split | (dsimp only; split)

end Sys2Proof.Machine
end

