-- ==== Sys2Proof/Laws/EvolvePower.lean ====
section
/-! SUPPORT. What every operation of Machine/Power.lean may change, and the promises it keeps (Evolves). -/

set_option Elab.async false

set_option linter.unusedTactic false
set_option linter.unreachableTactic false

namespace Sys2Proof.Machine

theorem modPower_ev {m : Nat} {z0 : State} {f : Power → Power} {s : State} (hm : Within 0x10000000 m)
    (hev : Evolves m z0 s) :
    Evolves m z0 (modPower f s) := by
  unfold modPower
  repeat' first
    | intro _ | with_reducible assumption | with_reducible apply Evolves.ite | split | (dsimp only; split)
    | with_reducible refine Evolves.set_power (hm.bit (by decide)) ?_

theorem trimWrite_ev {m : Nat} {z0 : State} {on : Bool} {s : State} (hm : Within 0x48dd20 m) (hev : Evolves m z0 s) :
    Evolves m z0 (trimWrite on s) := by
  unfold trimWrite
  repeat' first
    | intro _ | with_reducible assumption | with_reducible apply Evolves.ite
    | with_reducible apply trimApply_ev (hm.of (by decide)) | split | (dsimp only; split)
    | with_reducible refine Evolves.set_mgmt (hm.bit (by decide)) ?_

theorem linkReset_ev {m : Nat} {z0 : State} {t : Nat} {s : State} (hm : Within 0x800 m) (hev : Evolves m z0 s) :
    Evolves m z0 (linkReset t s) := by
  unfold linkReset
  repeat' first
    | intro _ | with_reducible assumption | with_reducible apply Evolves.ite
    | with_reducible apply modLink_ev (hm.of (by decide)) | split | (dsimp only; split)

theorem canopyEmpty_ev {m : Nat} {z0 : State} {s : State} (hm : Within 0xc00110 m) (hev : Evolves m z0 s) :
    Evolves m z0 (canopyEmpty s) := by
  unfold canopyEmpty
  repeat' first
    | intro _ | with_reducible assumption | with_reducible apply Evolves.ite
    | with_reducible apply maintDone_ev (hm.of (by decide)) | with_reducible apply forEach_ev | split
    | (dsimp only; split) | with_reducible refine Evolves.set_canopy (hm.bit (by decide)) ?_
    | with_reducible refine Evolves.mk' ?_ (hs := (fun _ => rfl))
    | with_reducible refine Evolves.mk' ?_ (hs := (fun h => Memory.wf_filter _ _ _ h))
    | with_reducible refine Evolves.mk' ?_ (hs := (fun h => Memory.wf_cellsWrite _ _ _ _ h))

theorem sleepPort_ev {m : Nat} {z0 : State} {p : Nat} {s : State} (hm : Within 0x485d00 m) (hev : Evolves m z0 s) :
    Evolves m z0 (sleepPort p s) := by
  unfold sleepPort
  repeat' first
    | intro _ | with_reducible assumption | with_reducible apply Evolves.ite
    | with_reducible apply modPort_ev (hm.of (by decide)) | with_reducible apply clearEgress_ev (hm.of (by decide))
    | split | (dsimp only; split)

theorem recordWrite_ev {m : Nat} {z0 : State} {good : Bool} {s : State} (hm : Within 0x14000120 m)
    (hev : Evolves m z0 s) :
    Evolves m z0 (recordWrite good s) := by
  unfold recordWrite
  repeat' first
    | intro _ | with_reducible assumption | with_reducible apply Evolves.ite
    | with_reducible apply reportTest_ev (hm.of (by decide)) | with_reducible apply modPower_ev (hm.of (by decide))
    | split | (dsimp only; split)

theorem sleepEntry_ev {m : Nat} {z0 : State} {nvGood : Bool} {s : State} (hm : Within 0x36dedfb4 m)
    (hev : Evolves m z0 s) :
    Evolves m z0 (sleepEntry nvGood s) := by
  unfold sleepEntry
  repeat' first
    | intro _ | with_reducible assumption | with_reducible apply Evolves.ite
    | with_reducible apply modLane_ev (hm.of (by decide))
    | with_reducible apply tenantResetStart_ev (hm.of (by decide))
    | with_reducible apply laneReview_ev (hm.of (by decide)) | with_reducible apply discardRefs_ev (hm.of (by decide))
    | with_reducible apply suspendNow_ev (hm.of (by decide)) | with_reducible apply abortAll_ev (hm.of (by decide))
    | with_reducible apply modSafety_ev (hm.of (by decide)) | with_reducible apply linkReset_ev (hm.of (by decide))
    | with_reducible apply canopyEmpty_ev (hm.of (by decide)) | with_reducible apply sleepPort_ev (hm.of (by decide))
    | with_reducible apply recordWrite_ev (hm.of (by decide)) | with_reducible apply forAll_ev | split
    | (dsimp only; split) | with_reducible refine Evolves.set_mgmt (hm.bit (by decide)) ?_
    | with_reducible refine Evolves.set_frames (hm.bit (by decide)) ?_
    | with_reducible refine Evolves.set_thicket (hm.bit (by decide)) ?_
    | with_reducible refine Evolves.set_time (hm.bit (by decide)) ?_
    | with_reducible refine Evolves.set_power (hm.bit (by decide)) ?_
    | with_reducible refine Evolves.set_start (hm.bit (by decide)) ?_ | with_reducible refine Evolves.mk' ?_

theorem droopTripEffect_ev {m : Nat} {z0 : State} {i : Nat} {high : Bool} {s : State} (hm : Within 0x40000000 m)
    (hev : Evolves m z0 s) :
    Evolves m z0 (droopTripEffect i high s) := by
  unfold droopTripEffect
  repeat' first
    | intro _ | with_reducible assumption | with_reducible apply Evolves.ite | split | (dsimp only; split)
    | with_reducible refine Evolves.set_droop (hm.bit (by decide)) ?_

theorem droopClearEffect_ev {m : Nat} {z0 : State} {i : Nat} {high : Bool} {s : State} (hm : Within 0x40000000 m)
    (hev : Evolves m z0 s) :
    Evolves m z0 (droopClearEffect i high s) := by
  unfold droopClearEffect
  repeat' first
    | intro _ | with_reducible assumption | with_reducible apply Evolves.ite | split | (dsimp only; split)
    | with_reducible refine Evolves.set_droop (hm.bit (by decide)) ?_

theorem stretchBudgetWindowEndEffect_ev {m : Nat} {z0 : State} {s : State} (hm : Within 0x400c4582 m)
    (hev : Evolves m z0 s) :
    Evolves m z0 (stretchBudgetWindowEndEffect s) := by
  unfold stretchBudgetWindowEndEffect
  repeat' first
    | intro _ | with_reducible assumption | with_reducible apply Evolves.ite
    | with_reducible apply wait_ev (hm.of (by decide)) | split | (dsimp only; split)

theorem thermalSampleEffect_ev {m : Nat} {z0 : State} {readings : List Int} {s0 : State} (hm : Within 0x765c5fa6 m)
    (hev : Evolves m z0 s0) :
    Evolves m z0 (thermalSampleEffect readings s0) := by
  unfold thermalSampleEffect
  repeat' first
    | intro _ | with_reducible assumption | with_reducible apply Evolves.ite
    | with_reducible apply setPw_ev (hm.of (by decide)) | with_reducible apply raise_ev (hm.of (by decide))
    | with_reducible apply waitUntil_ev (hm.of (by decide)) | with_reducible apply safeFault_ev (hm.of (by decide))
    | with_reducible apply modPower_ev (hm.of (by decide)) | split | (dsimp only; split)

theorem odometerSecondEffect_ev {m : Nat} {z0 : State} {s : State} (hm : Within 0x500c4582 m) (hev : Evolves m z0 s) :
    Evolves m z0 (odometerSecondEffect s) := by
  unfold odometerSecondEffect
  repeat' first
    | intro _ | with_reducible assumption | with_reducible apply Evolves.ite
    | with_reducible apply waitUntil_ev (hm.of (by decide)) | with_reducible apply modPower_ev (hm.of (by decide))
    | split | (dsimp only; split)

theorem lifeAlarmSet_ev {m : Nat} {z0 : State} {s : State} (hm : Within 0x4000100 m) (hev : Evolves m z0 s) :
    Evolves m z0 (lifeAlarmSet s) := by
  unfold lifeAlarmSet
  repeat' first
    | intro _ | with_reducible assumption | with_reducible apply Evolves.ite
    | with_reducible apply raise_ev (hm.of (by decide)) | with_reducible apply logFault_ev (hm.of (by decide))
    | with_reducible apply modSafety_ev (hm.of (by decide)) | split | (dsimp only; split)

theorem measure_ev {m : Nat} {z0 : State} {shifts : List Nat} {life : Nat} {s : State} (hm : Within 0x80 m)
    (hev : Evolves m z0 s) :
    Evolves m z0 (measure shifts life s) := by
  unfold measure
  repeat' first
    | intro _ | with_reducible assumption | with_reducible apply Evolves.ite
    | with_reducible apply setPw_ev (hm.of (by decide)) | with_reducible apply forAll_ev | split | (dsimp only; split)

theorem hourlyMeasurementEffect_ev {m : Nat} {z0 : State} {readings : List MonReading} {nvGood : Bool} {s : State} (hm : Within 0x540c45a2 m)
    (hev : Evolves m z0 s) :
    Evolves m z0 (hourlyMeasurementEffect readings nvGood s) := by
  unfold hourlyMeasurementEffect
  repeat' first
    | intro _ | with_reducible assumption | with_reducible apply Evolves.ite
    | with_reducible apply waitUntil_ev (hm.of (by decide)) | with_reducible apply reportTest_ev (hm.of (by decide))
    | with_reducible apply modPower_ev (hm.of (by decide)) | with_reducible apply recordWrite_ev (hm.of (by decide))
    | with_reducible apply lifeAlarmSet_ev (hm.of (by decide)) | with_reducible apply measure_ev (hm.of (by decide))
    | split | (dsimp only; split)

end Sys2Proof.Machine
end

