-- ==== Sys2Proof/Laws/EvolveStart.lean ====
section
/-! SUPPORT. What every operation of Machine/Start.lean may change, and the promises it keeps (Evolves). -/

set_option Elab.async false

set_option linter.unusedTactic false
set_option linter.unreachableTactic false

namespace Sys2Proof.Machine

theorem deviceReset_ev {m : Nat} {z0 : State} {start : Start} {s : State} (hm : Within 0x1fffffff8 m)
    (hev : Evolves m z0 s) : Evolves m z0 (deviceReset start s) :=
  hev.trans ⟨rfl, fun f => by cases f <;> first | exact Or.inr rfl | exact Or.inl (hm.bit (by decide)),
    fun _ => rfl, fun _ => rfl, fun _ h => h, fun h => h, fun _ => Nat.zero_le 3, fun _ _ h => nomatch h⟩

theorem internalReset_ev {m : Nat} {z0 : State} {s : State} (hm : Within 0x1fffffff8 m) (hev : Evolves m z0 s) :
    Evolves m z0 (internalReset s) := by
  unfold internalReset
  repeat' first
    | intro _ | with_reducible assumption | with_reducible apply Evolves.ite
    | with_reducible apply deviceReset_ev (hm.of (by decide)) | split | (dsimp only; split)

theorem pinReset_ev {m : Nat} {z0 : State} {s : State} (hm : Within 0x1fffffff8 m) (hev : Evolves m z0 s) :
    Evolves m z0 (pinReset s) := by
  unfold pinReset
  repeat' first
    | intro _ | with_reducible assumption | with_reducible apply Evolves.ite
    | with_reducible apply deviceReset_ev (hm.of (by decide)) | split | (dsimp only; split)

theorem recordLost_ev {m : Nat} {z0 : State} {s : State} (hm : Within 0x14000180 m) (hev : Evolves m z0 s) :
    Evolves m z0 (recordLost s) := by
  unfold recordLost
  repeat' first
    | intro _ | with_reducible assumption | with_reducible apply Evolves.ite
    | with_reducible apply setPw_ev (hm.of (by decide)) | with_reducible apply modPower_ev (hm.of (by decide))
    | with_reducible apply lifeAlarmSet_ev (hm.of (by decide)) | with_reducible apply forAll_ev | split
    | (dsimp only; split)

theorem recordLoad_ev {m : Nat} {z0 : State} {n : NvRecord} {s : State} (hm : Within 0x10000080 m)
    (hev : Evolves m z0 s) :
    Evolves m z0 (recordLoad n s) := by
  unfold recordLoad
  repeat' first
    | intro _ | with_reducible assumption | with_reducible apply Evolves.ite
    | with_reducible apply setPw_ev (hm.of (by decide)) | with_reducible apply modPower_ev (hm.of (by decide))
    | with_reducible apply forAll_ev | split | (dsimp only; split)

theorem recordRead_ev {m : Nat} {z0 : State} {nv : NvRead} {s : State} (hm : Within 0x14000180 m)
    (hev : Evolves m z0 s) :
    Evolves m z0 (recordRead nv s) := by
  unfold recordRead
  repeat' first
    | intro _ | with_reducible assumption | with_reducible apply Evolves.ite
    | with_reducible apply modPower_ev (hm.of (by decide)) | with_reducible apply recordLost_ev (hm.of (by decide))
    | with_reducible apply recordLoad_ev (hm.of (by decide)) | split | (dsimp only; split)

theorem resetNAssertEffect_ev {m : Nat} {z0 : State} {lowNs : Nat} {s : State} (hm : Within 0x1fffffffc m)
    (hev : Evolves m z0 s) :
    Evolves m z0 (resetNAssertEffect lowNs s) := by
  unfold resetNAssertEffect
  repeat' first
    | intro _ | with_reducible assumption | with_reducible apply Evolves.ite
    | with_reducible apply drawn_ev (hm.of (by decide)) | with_reducible apply pinReset_ev (hm.of (by decide)) | split
    | (dsimp only; split)

theorem resetNReleaseEffect_ev {m : Nat} {z0 : State} {nv : NvRead} {wrote : Bool} {s : State} (hm : Within 0x340001a8 m)
    (hev : Evolves m z0 s) :
    Evolves m z0 (resetNReleaseEffect nv wrote s) := by
  unfold resetNReleaseEffect
  repeat' first
    | intro _ | with_reducible assumption | with_reducible apply Evolves.ite
    | with_reducible apply bumpParam_ev (hm.of (by decide)) | with_reducible apply arbitrate_ev (hm.of (by decide))
    | with_reducible apply recordWrite_ev (hm.of (by decide)) | with_reducible apply recordRead_ev (hm.of (by decide))
    | split | (dsimp only; split) | with_reducible refine Evolves.set_start (hm.bit (by decide)) ?_

theorem internalResetReleaseEffect_ev {m : Nat} {z0 : State} {nv : NvRead} {s : State} (hm : Within 0x740c458a m)
    (hev : Evolves m z0 s) :
    Evolves m z0 (internalResetReleaseEffect nv s) := by
  unfold internalResetReleaseEffect
  repeat' first
    | intro _ | with_reducible assumption | with_reducible apply Evolves.ite
    | with_reducible apply waitUntil_ev (hm.of (by decide)) | with_reducible apply arbitrate_ev (hm.of (by decide))
    | with_reducible apply recordRead_ev (hm.of (by decide)) | split | (dsimp only; split)
    | with_reducible refine Evolves.set_start (hm.bit (by decide)) ?_

theorem supplyLossEffect_ev {m : Nat} {z0 : State} {s : State} (hm : Within 0x1fffffff8 m) (hev : Evolves m z0 s) :
    Evolves m z0 (supplyLossEffect s) := by
  unfold supplyLossEffect
  repeat' first
    | intro _ | with_reducible assumption | with_reducible apply Evolves.ite
    | with_reducible apply deviceReset_ev (hm.of (by decide))
    | with_reducible refine modStore_ev (hm.of (by decide)) (fun _ => ⟨rfl, rfl, rfl⟩) ?_
    | with_reducible refine modStore_ev (hm.of (by decide)) (fun _ => by split <;> exact ⟨rfl, rfl, rfl⟩) ?_ | split
    | (dsimp only; split) | with_reducible refine Evolves.set_params (hm.bit (by decide)) ?_

theorem powerOnEffect_ev {m : Nat} {z0 : State} {s : State} (hm : Within 0x30000002 m) (hev : Evolves m z0 s) :
    Evolves m z0 (powerOnEffect s) := by
  unfold powerOnEffect
  repeat' first
    | intro _ | with_reducible assumption | with_reducible apply Evolves.ite | split | (dsimp only; split)
    | with_reducible refine Evolves.set_clk (hm.bit (by decide)) ?_
    | with_reducible refine Evolves.set_power (hm.bit (by decide)) ?_
    | with_reducible refine Evolves.set_start (hm.bit (by decide)) ?_ | with_reducible refine Evolves.mk' ?_

theorem safetyResetEffect_ev {m : Nat} {z0 : State} {s : State} (hm : Within 0x1fffffffa m) (hev : Evolves m z0 s) :
    Evolves m z0 (safetyResetEffect s) := by
  unfold safetyResetEffect
  repeat' first
    | intro _ | with_reducible assumption | with_reducible apply Evolves.ite
    | with_reducible apply waitUntil_ev (hm.of (by decide))
    | with_reducible apply internalReset_ev (hm.of (by decide)) | split | (dsimp only; split)

theorem tapInstructionLoadEffect_ev {m : Nat} {z0 : State} {_i : TapInstr} {bsr : List Bool} {s : State} (hm : Within 0x180000000 m)
    (hev : Evolves m z0 s) :
    Evolves m z0 (tapInstructionLoadEffect _i bsr s) := by
  unfold tapInstructionLoadEffect
  repeat' first
    | intro _ | with_reducible assumption | with_reducible apply Evolves.ite | split | (dsimp only; split)
    | with_reducible refine Evolves.set_tap (hm.bit (by decide)) ?_
    | with_reducible refine Evolves.set_bsr (hm.bit (by decide)) ?_ | with_reducible refine Evolves.mk' ?_

theorem pllLockTimeoutEffect_ev {m : Nat} {z0 : State} {s : State} (hm : Within 0x765cdfb6 m) (hev : Evolves m z0 s) :
    Evolves m z0 (pllLockTimeoutEffect s) := by
  unfold pllLockTimeoutEffect
  repeat' first
    | intro _ | with_reducible assumption | with_reducible apply Evolves.ite
    | with_reducible apply waitUntil_ev (hm.of (by decide)) | with_reducible apply safeFault_ev (hm.of (by decide))
    | with_reducible apply becomeReady_ev (hm.of (by decide)) | split | (dsimp only; split)
    | with_reducible refine Evolves.set_start (hm.bit (by decide)) ?_

theorem releaseTenants_ev {m : Nat} {z0 : State} {held : Nat → Bool} {s : State} (hm : Within 0x4585590 m)
    (hev : Evolves m z0 s) :
    Evolves m z0 (releaseTenants held s) := by
  unfold releaseTenants
  repeat' first
    | intro _ | with_reducible assumption | with_reducible apply Evolves.ite
    | with_reducible apply tenantResetEnd_ev (hm.of (by decide)) | with_reducible apply forAll_ev | split
    | (dsimp only; split)

theorem closeWindow_ev {m : Nat} {z0 : State} {s : State} (hm : Within 0x26585590 m) (hev : Evolves m z0 s) :
    Evolves m z0 (closeWindow s) := by
  unfold closeWindow
  repeat' first
    | intro _ | with_reducible assumption | with_reducible apply Evolves.ite
    | with_reducible apply releaseTenants_ev (hm.of (by decide))
    | with_reducible refine modStore_ev (hm.of (by decide)) (fun _ => ⟨rfl, rfl, rfl⟩) ?_
    | with_reducible refine modStore_ev (hm.of (by decide)) (fun _ => by split <;> exact ⟨rfl, rfl, rfl⟩) ?_ | split
    | (dsimp only; split) | with_reducible refine Evolves.set_start (hm.bit (by decide)) ?_

theorem startupWindowCloseEffect_ev {m : Nat} {z0 : State} {s : State} (hm : Within 0x665c5592 m)
    (hev : Evolves m z0 s) :
    Evolves m z0 (startupWindowCloseEffect s) := by
  unfold startupWindowCloseEffect
  repeat' first
    | intro _ | with_reducible assumption | with_reducible apply Evolves.ite
    | with_reducible apply waitUntil_ev (hm.of (by decide)) | with_reducible apply closeWindow_ev (hm.of (by decide))
    | split | (dsimp only; split)

theorem mgmtCanopyEnd_ev {m : Nat} {z0 : State} {s : State} (hm : Within 0x480900 m) (hev : Evolves m z0 s) :
    Evolves m z0 (mgmtCanopyEnd s) := by
  unfold mgmtCanopyEnd
  repeat' first
    | intro _ | with_reducible assumption | with_reducible apply Evolves.ite
    | with_reducible apply setQueue_ev (hm.of (by decide)) | with_reducible apply maintStart_ev (hm.of (by decide))
    | with_reducible apply forAll_ev | split | (dsimp only; split)

theorem unyield_ev {m : Nat} {z0 : State} {s : State} (hm : Within 0x100000 m) (hev : Evolves m z0 s) :
    Evolves m z0 (unyield s) := by
  unfold unyield
  repeat' first
    | intro _ | with_reducible assumption | with_reducible apply Evolves.ite | split | (dsimp only; split)
    | with_reducible refine Evolves.set_chans (hm.bit (by decide)) ?_

theorem mgmtResetStart_ev {m : Nat} {z0 : State} {s : State} (hm : Within 0xffedff8 m) (hev : Evolves m z0 s) :
    Evolves m z0 (mgmtResetStart s) := by
  unfold mgmtResetStart
  repeat' first
    | intro _ | with_reducible assumption | with_reducible apply Evolves.ite
    | with_reducible apply modTen_ev (hm.of (by decide)) | with_reducible apply modChan_ev (hm.of (by decide))
    | with_reducible apply idleSources_ev (hm.of (by decide)) | with_reducible apply abortChan_ev (hm.of (by decide))
    | with_reducible apply breakLocks_ev (hm.of (by decide)) | with_reducible apply windowReset_ev (hm.of (by decide))
    | with_reducible apply handOwner_ev (hm.of (by decide))
    | with_reducible apply mgmtCanopyEnd_ev (hm.of (by decide)) | with_reducible apply unyield_ev (hm.of (by decide))
    | with_reducible apply forAll_ev | with_reducible apply forEach_ev | split | (dsimp only; split)
    | with_reducible refine Evolves.set_mgmt (hm.bit (by decide)) ?_
    | with_reducible refine Evolves.set_image (hm.bit (by decide)) ?_ | with_reducible refine Evolves.mk' ?_

theorem mgmtResetEndEffect_ev {m : Nat} {z0 : State} {s : State} (hm : Within 0x20 m) (hev : Evolves m z0 s) :
    Evolves m z0 (mgmtResetEndEffect s) := by
  unfold mgmtResetEndEffect
  repeat' first
    | intro _ | with_reducible assumption | with_reducible apply Evolves.ite | split | (dsimp only; split)
    | with_reducible refine Evolves.set_mgmt (hm.bit (by decide)) ?_

end Sys2Proof.Machine
end

