-- ==== Sys2Proof/Laws/EvolveImage.lean ====
section
/-! SUPPORT. What every operation of Machine/Image.lean may change, and the promises it keeps (Evolves). -/

set_option Elab.async false

set_option linter.unusedTactic false
set_option linter.unreachableTactic false

namespace Sys2Proof.Machine

theorem imageDone_ev {m : Nat} {z0 : State} {result failAt applied clamped : Nat} {s : State} (hm : Within 0x265855f0 m)
    (hev : Evolves m z0 s) :
    Evolves m z0 (imageDone result failAt applied clamped s) := by
  unfold imageDone
  repeat' first
    | intro _ | with_reducible assumption | with_reducible apply Evolves.ite
    | with_reducible apply setPw_ev (hm.of (by decide)) | with_reducible apply raise_ev (hm.of (by decide))
    | with_reducible apply setMFault_ev (hm.of (by decide)) | with_reducible apply closeWindow_ev (hm.of (by decide))
    | with_reducible apply unyield_ev (hm.of (by decide)) | split | (dsimp only; split)
    | with_reducible refine Evolves.set_image (hm.bit (by decide)) ?_

theorem yieldChannels_ev {m : Nat} {z0 : State} {s : State} (hm : Within 0x180100 m) (hev : Evolves m z0 s) :
    Evolves m z0 (yieldChannels s) := by
  unfold yieldChannels
  repeat' first
    | intro _ | with_reducible assumption | with_reducible apply Evolves.ite
    | with_reducible apply modChan_ev (hm.of (by decide)) | with_reducible apply chanSettle_ev (hm.of (by decide))
    | with_reducible apply forAll_ev | split | (dsimp only; split)

theorem imageStart_ev {m : Nat} {z0 : State} {fromStore : Bool} {r : HostRead} {areaBad : Bool} {s : State} (hm : Within 0x265855f0 m)
    (hev : Evolves m z0 s) : Evolves m z0 (imageStart fromStore r areaBad s) := by
  unfold imageStart
  refine Evolves.ite hev ?_
  extract_lets i u v
  have hu : Evolves m z0 u := Evolves.set_image (hm.bit (by decide)) hev
  have hv : Evolves m z0 v := yieldChannels_ev (hm.of (by decide)) hu
  refine Evolves.ite (imageDone_ev (hm.of (by decide)) hu) ?_
  clear_value v
  split
  exact Evolves.set_image (hm.bit (by decide)) hv

theorem imageStep_ev {m : Nat} {z0 : State} {op : ImageOp} {x : ImageRun} (hm : Within 0xffedfb8 m) (hev : Evolves m z0 x.state) :
    Evolves m z0 (imageStep op x).2.state := by
  unfold imageStep
  split
  · exact paramPut_ev (hm.of (by decide)) hev
  · split
    · exact hev
    · split
      · exact hev
      · exact rowPut_ev (hm.of (by decide)) hev

theorem imageRun_ev {m : Nat} {z0 : State} {ecc : Option Nat} {l : List (Nat × ImageOp)} {x : ImageRun} (hm : Within 0xffedfb8 m) (hev : Evolves m z0 x.state) :
    Evolves m z0 (imageRun ecc l x).1.state := by
  induction l generalizing x with
  | nil => exact hev
  | cons a rest ih =>
    unfold imageRun
    split
    · exact hev
    · dsimp only
      split
      · exact hev
      · exact ih (imageStep_ev (hm.of (by decide)) hev)

theorem imageLoadEndEffect_ev {m : Nat} {z0 : State} {ecc : Option Nat} {s : State} (hm : Within 0x2ffedff8 m) (hev : Evolves m z0 s) :
    Evolves m z0 (imageLoadEndEffect ecc s) := by
  unfold imageLoadEndEffect
  refine Evolves.ite hev (Evolves.ite (imageDone_ev (hm.of (by decide)) hev)
    (Evolves.ite (imageDone_ev (hm.of (by decide)) hev) ?_))
  extract_lets ops out s1
  have h1 : Evolves m z0 s1 := imageRun_ev (hm.of (by decide)) hev
  split
  · exact imageDone_ev (hm.of (by decide)) h1
  · exact imageDone_ev (hm.of (by decide)) (Evolves.ite (setMFault_ev (hm.of (by decide)) h1) h1)

end Sys2Proof.Machine
end

