-- ==== Sys2Proof/Laws/EvolveWindows.lean ====
section
/-! SUPPORT. What every operation of Machine/Windows.lean may change, and the promises it keeps (Evolves). -/

set_option Elab.async false

set_option linter.unusedTactic false
set_option linter.unreachableTactic false

namespace Sys2Proof.Machine

theorem modShadow_ev {m : Nat} {z0 : State} {w path g : Nat} {f : Shadow → Shadow} {s : State} (hm : Within 0x10 m)
    (hev : Evolves m z0 s) :
    Evolves m z0 (modShadow w path g f s) := by
  unfold modShadow
  repeat' first
    | intro _ | with_reducible assumption | with_reducible apply Evolves.ite
    | with_reducible apply modWin_ev (hm.of (by decide)) | split | (dsimp only; split)

theorem readEffect_ev {m : Nat} {z0 : State} {w path off : Nat} {ecc : Bool} {s : State} (hm : Within 0x26585fb4 m)
    (hev : Evolves m z0 s) :
    Evolves m z0 (readEffect w path off ecc s) := by
  unfold readEffect
  repeat' first
    | intro _ | with_reducible assumption | with_reducible apply Evolves.ite
    | with_reducible apply claimEffect_ev (hm.of (by decide)) | with_reducible apply tblAdvance_ev (hm.of (by decide))
    | with_reducible apply eccIrq_ev (hm.of (by decide)) | with_reducible apply modShadow_ev (hm.of (by decide))
    | split | (dsimp only; split)

theorem groupWrite_ev {m : Nat} {z0 : State} {w path g k : Nat} {d : Word} {s : State} (hm : Within 0x100010 m)
    (hev : Evolves m z0 s) :
    Evolves m z0 (groupWrite w path g k d s) := by
  unfold groupWrite
  repeat' first
    | intro _ | with_reducible assumption | with_reducible apply Evolves.ite
    | with_reducible apply modWin_ev (hm.of (by decide)) | with_reducible apply modChan_ev (hm.of (by decide))
    | with_reducible apply modShadow_ev (hm.of (by decide)) | split | (dsimp only; split)

theorem paramReadHit_ev {m : Nat} {z0 : State} {w : Nat} {s : State} (hm : Within 0x26585fb4 m)
    (hev : Evolves m z0 s) :
    Evolves m z0 (paramReadHit w s) := by
  unfold paramReadHit
  repeat' first
    | intro _ | with_reducible assumption | with_reducible apply Evolves.ite
    | with_reducible apply drawn_ev (hm.of (by decide)) | with_reducible apply modWin_ev (hm.of (by decide))
    | with_reducible apply paramReadOp_ev (hm.of (by decide)) | with_reducible apply eccParam_ev (hm.of (by decide))
    | split | (dsimp only; split)

theorem tableReadHit_ev {m : Nat} {z0 : State} {w : Nat} {s : State} (hm : Within 0x26585fb4 m)
    (hev : Evolves m z0 s) :
    Evolves m z0 (tableReadHit w s) := by
  unfold tableReadHit
  repeat' first
    | intro _ | with_reducible assumption | with_reducible apply Evolves.ite
    | with_reducible apply drawn_ev (hm.of (by decide)) | with_reducible apply modWin_ev (hm.of (by decide))
    | with_reducible apply tableBusy_ev (hm.of (by decide)) | with_reducible apply tableReadOp_ev (hm.of (by decide))
    | with_reducible apply eccRow_ev (hm.of (by decide)) | split | (dsimp only; split)

theorem paramPort__ev {m : Nat} {z0 : State} {w v : Nat} {ecc : Bool} {s : State} (hm : Within 0x2ffedfbc m)
    (hev : Evolves m z0 s) :
    Evolves m z0 (paramPort_ w v ecc s) := by
  unfold paramPort_
  repeat' first
    | intro _ | with_reducible assumption | with_reducible apply Evolves.ite
    | with_reducible apply modWin_ev (hm.of (by decide)) | with_reducible apply paramStatWrite_ev (hm.of (by decide))
    | with_reducible apply paramReadHit_ev (hm.of (by decide)) | split | (dsimp only; split)

theorem tablePort_ev {m : Nat} {z0 : State} {w v : Nat} {ecc : Bool} {s : State} (hm : Within 0x2e5a5fb4 m)
    (hev : Evolves m z0 s) :
    Evolves m z0 (tablePort w v ecc s) := by
  unfold tablePort
  repeat' first
    | intro _ | with_reducible assumption | with_reducible apply Evolves.ite
    | with_reducible apply modWin_ev (hm.of (by decide)) | with_reducible apply tblCmdWrite_ev (hm.of (by decide))
    | with_reducible apply tableReadHit_ev (hm.of (by decide)) | split | (dsimp only; split)

theorem loadTime_ev {m : Nat} {z0 : State} {w dev : Nat} {valid : Bool} {s : State} (hm : Within 0x10 m)
    (hev : Evolves m z0 s) :
    Evolves m z0 (loadTime w dev valid s) := by
  unfold loadTime
  repeat' first
    | intro _ | with_reducible assumption | with_reducible apply Evolves.ite
    | with_reducible apply modWin_ev (hm.of (by decide)) | split | (dsimp only; split)

theorem timeOp_ev {m : Nat} {z0 : State} {w op : Nat} {s : State} (hm : Within 0x44110 m) (hev : Evolves m z0 s) :
    Evolves m z0 (timeOp w op s) := by
  unfold timeOp
  repeat' first
    | intro _ | with_reducible assumption | with_reducible apply Evolves.ite
    | with_reducible apply modWin_ev (hm.of (by decide)) | with_reducible apply timeChange_ev (hm.of (by decide))
    | with_reducible apply loadTime_ev (hm.of (by decide)) | split | (dsimp only; split)

theorem lockWrite_ev {m : Nat} {z0 : State} {w op : Nat} {ecc : Bool} {s : State} (hm : Within 0x26585fb4 m)
    (hev : Evolves m z0 s) :
    Evolves m z0 (lockWrite w op ecc s) := by
  unfold lockWrite
  repeat' first
    | intro _ | with_reducible assumption | with_reducible apply Evolves.ite
    | with_reducible apply lockOp_ev (hm.of (by decide)) | with_reducible apply eccMark_ev (hm.of (by decide)) | split
    | (dsimp only; split)

theorem writeCommon_ev {m : Nat} {z0 : State} {x : Extra} {w off : Nat} {d : Word} {s : State} (hm : Within 0x2ffedfbc m)
    (hev : Evolves m z0 s) :
    Evolves m z0 (writeCommon x w off d s) := by
  unfold writeCommon
  repeat' first
    | intro _ | with_reducible assumption | with_reducible apply Evolves.ite
    | with_reducible apply modWin_ev (hm.of (by decide)) | with_reducible apply modChan_ev (hm.of (by decide))
    | with_reducible apply completeEffect_ev (hm.of (by decide))
    | with_reducible apply canopyOp_ev (hm.of (by decide)) | with_reducible apply ctlWrite_ev (hm.of (by decide))
    | with_reducible apply chanStatWrite_ev (hm.of (by decide))
    | with_reducible apply tblDataWrite_ev (hm.of (by decide)) | with_reducible apply eccMark_ev (hm.of (by decide))
    | with_reducible apply paramPort__ev (hm.of (by decide)) | with_reducible apply tablePort_ev (hm.of (by decide))
    | with_reducible apply timeOp_ev (hm.of (by decide)) | with_reducible apply lockWrite_ev (hm.of (by decide))
    | split | (dsimp only; split)

theorem writeT_ev {m : Nat} {z0 : State} {x : Extra} {t off : Nat} {d : Word} {s : State} (hm : Within 0x2ffedfbc m)
    (hev : Evolves m z0 s) :
    Evolves m z0 (writeT x t off d s) := by
  unfold writeT
  repeat' first
    | intro _ | with_reducible assumption | with_reducible apply Evolves.ite
    | with_reducible apply modTen_ev (hm.of (by decide)) | with_reducible apply modRing_ev (hm.of (by decide))
    | with_reducible apply faultClear_ev (hm.of (by decide))
    | with_reducible apply tenantResetStart_ev (hm.of (by decide))
    | with_reducible apply txBell_ev (hm.of (by decide)) | with_reducible apply rxBell_ev (hm.of (by decide))
    | with_reducible apply ringCtlWrite_ev (hm.of (by decide))
    | with_reducible apply engineWrite_ev (hm.of (by decide))
    | with_reducible apply writeCommon_ev (hm.of (by decide)) | split | (dsimp only; split)

theorem controlWrite_ev {m : Nat} {z0 : State} {x : Extra} {v : Nat} {s : State} (hm : Within 0x1fffffffc m)
    (hev : Evolves m z0 s) :
    Evolves m z0 (controlWrite x v s) := by
  unfold controlWrite
  repeat' first
    | intro _ | with_reducible assumption | with_reducible apply Evolves.ite
    | with_reducible apply trimWrite_ev (hm.of (by decide)) | with_reducible apply sleepEntry_ev (hm.of (by decide))
    | with_reducible apply internalReset_ev (hm.of (by decide))
    | with_reducible apply mgmtResetStart_ev (hm.of (by decide)) | split | (dsimp only; split)

theorem tenantDisable_ev {m : Nat} {z0 : State} {t : Nat} {s : State} (hm : Within 0x24585700 m)
    (hev : Evolves m z0 s) :
    Evolves m z0 (tenantDisable t s) := by
  unfold tenantDisable
  repeat' first
    | intro _ | with_reducible assumption | with_reducible apply Evolves.ite
    | with_reducible apply modTen_ev (hm.of (by decide))
    | with_reducible apply tenantResetStart_ev (hm.of (by decide)) | split | (dsimp only; split)
    | with_reducible refine Evolves.set_start (hm.bit (by decide)) ?_

theorem tenantEnable_ev {m : Nat} {z0 : State} {t : Nat} {s : State} (hm : Within 0x24585590 m)
    (hev : Evolves m z0 s) :
    Evolves m z0 (tenantEnable t s) := by
  unfold tenantEnable
  repeat' first
    | intro _ | with_reducible assumption | with_reducible apply Evolves.ite
    | with_reducible apply modTen_ev (hm.of (by decide)) | with_reducible apply tenantResetEnd_ev (hm.of (by decide))
    | split | (dsimp only; split) | with_reducible refine Evolves.set_start (hm.bit (by decide)) ?_

theorem tenantCtlWrite_ev {m : Nat} {z0 : State} {t v : Nat} {s : State} (hm : Within 0x24585f90 m)
    (hev : Evolves m z0 s) :
    Evolves m z0 (tenantCtlWrite t v s) := by
  unfold tenantCtlWrite
  repeat' first
    | intro _ | with_reducible assumption | with_reducible apply Evolves.ite
    | with_reducible apply modTen_ev (hm.of (by decide)) | with_reducible apply tenantFault_ev (hm.of (by decide))
    | with_reducible apply tenantResetStart_ev (hm.of (by decide))
    | with_reducible apply tenantDisable_ev (hm.of (by decide))
    | with_reducible apply tenantEnable_ev (hm.of (by decide)) | split | (dsimp only; split)

theorem writeM_ev {m : Nat} {z0 : State} {x : Extra} {off : Nat} {d : Word} {s : State} (hm : Within 0x1fffffffc m)
    (hev : Evolves m z0 s) :
    Evolves m z0 (writeM x off d s) := by
  unfold writeM
  repeat' first
    | intro _ | with_reducible assumption | with_reducible apply Evolves.ite
    | with_reducible apply modWin_ev (hm.of (by decide)) | with_reducible apply storeCommand_ev (hm.of (by decide))
    | with_reducible apply pairCommand_ev (hm.of (by decide)) | with_reducible apply modSafety_ev (hm.of (by decide))
    | with_reducible apply safetyCommand_ev (hm.of (by decide)) | with_reducible apply eccMark_ev (hm.of (by decide))
    | with_reducible apply imageStart_ev (hm.of (by decide)) | with_reducible apply writeCommon_ev (hm.of (by decide))
    | with_reducible apply controlWrite_ev (hm.of (by decide))
    | with_reducible apply tenantCtlWrite_ev (hm.of (by decide))
    | with_reducible refine modStore_ev (hm.of (by decide)) (fun _ => ⟨rfl, rfl, rfl⟩) ?_
    | with_reducible refine modStore_ev (hm.of (by decide)) (fun _ => by split <;> exact ⟨rfl, rfl, rfl⟩) ?_
    | with_reducible refine modPair_ev (hm.of (by decide)) (fun _ h => h) ?_
    | with_reducible refine modPair_ev (hm.of (by decide)) (fun _ _ => by decide) ?_ | split | (dsimp only; split)
    | with_reducible refine Evolves.set_mgmt (hm.bit (by decide)) ?_
    | with_reducible refine Evolves.set_image (hm.bit (by decide)) ?_ | with_reducible refine Evolves.mk' ?_

theorem regWrite_ev {m : Nat} {z0 : State} {x : Extra} {w path off : Nat} {d : Word} {s : State} (hm : Within 0x1fffffffc m)
    (hev : Evolves m z0 s) :
    Evolves m z0 (regWrite x w path off d s) := by
  unfold regWrite
  repeat' first
    | intro _ | with_reducible assumption | with_reducible apply Evolves.ite
    | with_reducible apply internalReset_ev (hm.of (by decide))
    | with_reducible apply groupWrite_ev (hm.of (by decide)) | with_reducible apply writeT_ev (hm.of (by decide))
    | with_reducible apply writeM_ev (hm.of (by decide)) | split | (dsimp only; split)
    | with_reducible refine Evolves.set_mgmt (hm.bit (by decide)) ?_

end Sys2Proof.Machine
end

