-- ==== Sys2Proof/Laws/EvolveBus.lean ====
section
/-! SUPPORT. What every operation of Machine/Bus.lean may change, and the promises it keeps (Evolves). -/

set_option Elab.async false

set_option linter.unusedTactic false
set_option linter.unreachableTactic false

namespace Sys2Proof.Machine

theorem jam_ev {m : Nat} {z0 : State} {s : State} (hm : Within 0x4000120 m) (hev : Evolves m z0 s) :
    Evolves m z0 (jam s) := by
  unfold jam
  repeat' first
    | intro _ | with_reducible assumption | with_reducible apply Evolves.ite
    | with_reducible apply setMFault_ev (hm.of (by decide)) | split | (dsimp only; split)

theorem refuse_ev {m : Nat} {z0 : State} {m' cause : Nat} {read : Bool} {addr : Nat} {s : State} (hm : Within 0x188 m)
    (hev : Evolves m z0 s) :
    Evolves m z0 (refuse m' cause read addr s) := by
  unfold refuse
  repeat' first
    | intro _ | with_reducible assumption | with_reducible apply Evolves.ite
    | with_reducible apply setPw_ev (hm.of (by decide)) | with_reducible apply bumpParam_ev (hm.of (by decide))
    | with_reducible apply raise_ev (hm.of (by decide))
    | with_reducible refine modBus_ev (hm.of (by decide)) (fun _ h => h) ?_
    | with_reducible refine modBus_ev (hm.of (by decide)) (fun _ _ _ h => nomatch h) ?_ | split | (dsimp only; split)

theorem acknowledge_ev {m : Nat} {z0 : State} {data : Option Word} {s : State} (hm : Within 0x8 m)
    (hev : Evolves m z0 s) :
    Evolves m z0 (acknowledge data s) := by
  unfold acknowledge
  repeat' first
    | intro _ | with_reducible assumption | with_reducible apply Evolves.ite
    | with_reducible refine modBus_ev (hm.of (by decide)) (fun _ h => h) ?_
    | with_reducible refine modBus_ev (hm.of (by decide)) (fun _ _ _ h => nomatch h) ?_ | split | (dsimp only; split)

theorem counterHit_ev {m : Nat} {z0 : State} {m' off : Nat} {ecc : Bool} {s : State} (hm : Within 0x26585fa4 m)
    (hev : Evolves m z0 s) :
    Evolves m z0 (counterHit m' off ecc s) := by
  unfold counterHit
  repeat' first
    | intro _ | with_reducible assumption | with_reducible apply Evolves.ite
    | with_reducible apply eccCounter_ev (hm.of (by decide)) | split | (dsimp only; split)

theorem cbAccess_ev {m : Nat} {z0 : State} {x : Extra} {read : Bool} {addr : BitVec 8} {apar : Bool} {data : Word} {par : BitVec 3} {s : State} (hm : Within 0x1fffffffc m)
    (hev : Evolves m z0 s) :
    Evolves m z0 (cbAccess x read addr apar data par s) := by
  unfold cbAccess
  repeat' first
    | intro _ | with_reducible assumption | with_reducible apply Evolves.ite
    | with_reducible apply readEffect_ev (hm.of (by decide)) | with_reducible apply regWrite_ev (hm.of (by decide))
    | with_reducible apply jam_ev (hm.of (by decide)) | with_reducible apply refuse_ev (hm.of (by decide))
    | with_reducible apply acknowledge_ev (hm.of (by decide)) | with_reducible apply counterHit_ev (hm.of (by decide))
    | split | (dsimp only; split)

theorem cbRequestEffect_ev {m : Nat} {z0 : State} {m' : Nat} {s : State} (hm : Within 0x8 m) (hev : Evolves m z0 s) :
    Evolves m z0 (cbRequestEffect m' s) := by
  unfold cbRequestEffect
  repeat' first
    | intro _ | with_reducible assumption | with_reducible apply Evolves.ite
    | with_reducible apply arbitrate_ev (hm.of (by decide))
    | with_reducible refine modBus_ev (hm.of (by decide)) (fun _ h => h) ?_
    | with_reducible refine modBus_ev (hm.of (by decide)) (fun _ _ _ h => nomatch h) ?_ | split | (dsimp only; split)

theorem cbRequestReleaseEffect_ev {m : Nat} {z0 : State} {m' : Nat} {s : State} (hm : Within 0x8 m)
    (hev : Evolves m z0 s) :
    Evolves m z0 (cbRequestReleaseEffect m' s) := by
  unfold cbRequestReleaseEffect
  repeat' first
    | intro _ | with_reducible assumption | with_reducible apply Evolves.ite
    | with_reducible apply dropGrant_ev (hm.of (by decide))
    | with_reducible refine modBus_ev (hm.of (by decide)) (fun _ h => h) ?_
    | with_reducible refine modBus_ev (hm.of (by decide)) (fun _ _ _ h => nomatch h) ?_ | split | (dsimp only; split)

theorem tenureLimitEffect_ev {m : Nat} {z0 : State} {s : State} (hm : Within 0x445c5faa m) (hev : Evolves m z0 s) :
    Evolves m z0 (tenureLimitEffect s) := by
  unfold tenureLimitEffect
  repeat' first
    | intro _ | with_reducible assumption | with_reducible apply Evolves.ite
    | with_reducible apply waitUntil_ev (hm.of (by decide)) | with_reducible apply revoke_ev (hm.of (by decide))
    | with_reducible refine modBus_ev (hm.of (by decide)) (fun _ h => h) ?_
    | with_reducible refine modBus_ev (hm.of (by decide)) (fun _ _ _ h => nomatch h) ?_ | split | (dsimp only; split)

theorem heldStrobeEffect_ev {m : Nat} {z0 : State} {s : State} (hm : Within 0x445c5faa m) (hev : Evolves m z0 s) :
    Evolves m z0 (heldStrobeEffect s) := by
  unfold heldStrobeEffect
  repeat' first
    | intro _ | with_reducible assumption | with_reducible apply Evolves.ite
    | with_reducible apply waitUntil_ev (hm.of (by decide)) | with_reducible apply revoke_ev (hm.of (by decide))
    | split | (dsimp only; split)

theorem cbReqHoldoffEndEffect_ev {m : Nat} {z0 : State} {m' : Nat} {s : State} (hm : Within 0x400c458a m)
    (hev : Evolves m z0 s) :
    Evolves m z0 (cbReqHoldoffEndEffect m' s) := by
  unfold cbReqHoldoffEndEffect
  repeat' first
    | intro _ | with_reducible assumption | with_reducible apply Evolves.ite
    | with_reducible apply waitUntil_ev (hm.of (by decide)) | with_reducible apply arbitrate_ev (hm.of (by decide))
    | with_reducible refine modBus_ev (hm.of (by decide)) (fun _ h => h) ?_
    | with_reducible refine modBus_ev (hm.of (by decide)) (fun _ _ _ h => nomatch h) ?_ | split | (dsimp only; split)

theorem cbJamEffect_ev {m : Nat} {z0 : State} {s : State} (hm : Within 0x4000120 m) (hev : Evolves m z0 s) :
    Evolves m z0 (cbJamEffect s) := by
  unfold cbJamEffect
  repeat' first
    | intro _ | with_reducible assumption | with_reducible apply Evolves.ite
    | with_reducible apply jam_ev (hm.of (by decide)) | split | (dsimp only; split)

theorem cbStrobeDeassertEffect_ev {m : Nat} {z0 : State} {s : State} (hm : Within 0x4585fa8 m)
    (hev : Evolves m z0 s) :
    Evolves m z0 (cbStrobeDeassertEffect s) := by
  unfold cbStrobeDeassertEffect
  repeat' first
    | intro _ | with_reducible assumption | with_reducible apply Evolves.ite
    | with_reducible apply dropGrant_ev (hm.of (by decide)) | with_reducible apply revoke_ev (hm.of (by decide))
    | with_reducible refine modBus_ev (hm.of (by decide)) (fun _ h => h) ?_
    | with_reducible refine modBus_ev (hm.of (by decide)) (fun _ _ _ h => nomatch h) ?_ | split | (dsimp only; split)

theorem bar0Read_ev {m : Nat} {z0 : State} {ecc : Bool} {t n w : Nat} {s : State} (hm : Within 0x26585fb4 m) (hev : Evolves m z0 s) :
    Evolves m z0 ((bar0Read ecc t n w s).2) := by
  induction n generalizing s w with
  | zero => exact hev
  | succ n ih =>
    unfold bar0Read
    repeat' first
      | intro _ | with_reducible assumption | with_reducible apply Evolves.ite | with_reducible apply Evolves.ite_snd
      | with_reducible apply Evolves.ite_third | with_reducible apply ih
      | with_reducible apply readEffect_ev (hm.of (by decide)) | split | (dsimp only; split)

theorem bar0Word_ev {m : Nat} {z0 : State} {x : Extra} {t w : Nat} {d : Dword} {be : BitVec 4} {s : State} (hm : Within 0x1fffffffc m)
    (hev : Evolves m z0 s) :
    Evolves m z0 (bar0Word x t w d be s) := by
  unfold bar0Word
  repeat' first
    | intro _ | with_reducible assumption | with_reducible apply Evolves.ite
    | with_reducible apply regWrite_ev (hm.of (by decide)) | split | (dsimp only; split)

theorem bar0Access_ev {m : Nat} {z0 : State} {x : Extra} {t : Nat} {read : Bool} {first : Nat} {ds : List (Dword × BitVec 4)} {s : State} (hm : Within 0x1fffffffc m)
    (hev : Evolves m z0 s) :
    Evolves m z0 (bar0Access x t read first ds s) := by
  unfold bar0Access
  repeat' first
    | intro _ | with_reducible assumption | with_reducible apply Evolves.ite
    | with_reducible apply modLink_ev (hm.of (by decide)) | with_reducible apply bar0Read_ev (hm.of (by decide))
    | with_reducible apply bar0Word_ev (hm.of (by decide)) | with_reducible apply forEach_ev | split
    | (dsimp only; split) | refine Evolves.snd (by assumption) ?_

theorem wordAccess_ev {m : Nat} {z0 : State} {x : Extra} {k : Reach} {p : Path} {read : Bool} {off : Nat} {d : Word} {s : State} (hm : Within 0x1fffffffc m)
    (hev : Evolves m z0 s) :
    Evolves m z0 (wordAccess x k p read off d s) := by
  unfold wordAccess
  repeat' first
    | intro _ | with_reducible assumption | with_reducible apply Evolves.ite
    | with_reducible apply cbAccess_ev (hm.of (by decide)) | with_reducible apply bar0Access_ev (hm.of (by decide))
    | split | (dsimp only; split)

theorem readAt_ev {m : Nat} {z0 : State} {x : Extra} {k : Reach} {p : Path} {off : Nat} {s : State} (hm : Within 0x1fffffffc m)
    (hev : Evolves m z0 s) :
    Evolves m z0 (readAt x k p off s) := by
  unfold readAt
  repeat' first
    | intro _ | with_reducible assumption | with_reducible apply Evolves.ite
    | with_reducible apply wordAccess_ev (hm.of (by decide)) | split | (dsimp only; split)

theorem writeAt_ev {m : Nat} {z0 : State} {x : Extra} {k : Reach} {p : Path} {off v : Nat} {s : State} (hm : Within 0x1fffffffc m)
    (hev : Evolves m z0 s) :
    Evolves m z0 (writeAt x k p off v s) := by
  unfold writeAt
  repeat' first
    | intro _ | with_reducible assumption | with_reducible apply Evolves.ite
    | with_reducible apply wordAccess_ev (hm.of (by decide)) | split | (dsimp only; split)

theorem rewriteAt_ev {m : Nat} {z0 : State} {x : Extra} {k : Reach} {p : Path} {off set clear : Nat} {s : State} (hm : Within 0x1fffffffc m)
    (hev : Evolves m z0 s) :
    Evolves m z0 (rewriteAt x k p off set clear s) := by
  unfold rewriteAt
  repeat' first
    | intro _ | with_reducible assumption | with_reducible apply Evolves.ite
    | with_reducible apply writeAt_ev (hm.of (by decide)) | split | (dsimp only; split)

theorem mgmtWrite_ev {m : Nat} {z0 : State} {x : Extra} {q : CbPar} {off v : Nat} {s : State} (hm : Within 0x1fffffffc m)
    (hev : Evolves m z0 s) :
    Evolves m z0 (mgmtWrite x q off v s) := by
  unfold mgmtWrite
  repeat' first
    | intro _ | with_reducible assumption | with_reducible apply Evolves.ite
    | with_reducible apply writeAt_ev (hm.of (by decide)) | split | (dsimp only; split)

theorem registerAccess_ev {m : Nat} {z0 : State} {a : Access} {s : State} (hm : Within 0x1fffffffc m)
    (hev : Evolves m z0 s) :
    Evolves m z0 (registerAccess a s) := by
  unfold registerAccess
  repeat' first
    | intro _ | with_reducible assumption | with_reducible apply Evolves.ite
    | with_reducible apply cbAccess_ev (hm.of (by decide)) | with_reducible apply bar0Access_ev (hm.of (by decide))
    | split | (dsimp only; split)

theorem timeCmdEndEffect_ev {m : Nat} {z0 : State} {w : Nat} {s : State} (hm : Within 0x10 m) (hev : Evolves m z0 s) :
    Evolves m z0 (timeCmdEndEffect w s) := by
  unfold timeCmdEndEffect
  repeat' first
    | intro _ | with_reducible assumption | with_reducible apply Evolves.ite
    | with_reducible apply modWin_ev (hm.of (by decide)) | split | (dsimp only; split)

theorem controlSet_ev {m : Nat} {z0 : State} {x : Extra} {q : CbPar} {bit : Nat} {s : State} (hm : Within 0x1fffffffc m)
    (hev : Evolves m z0 s) :
    Evolves m z0 (controlSet x q bit s) := by
  unfold controlSet
  repeat' first
    | intro _ | with_reducible assumption | with_reducible apply Evolves.ite
    | with_reducible apply mgmtWrite_ev (hm.of (by decide)) | split | (dsimp only; split)

theorem tenantSet_ev {m : Nat} {z0 : State} {q : CbPar} {bit : Nat} {s : State} (hm : Within 0x1fffffffc m)
    (hev : Evolves m z0 s) :
    Evolves m z0 (tenantSet q bit s) := by
  unfold tenantSet
  repeat' first
    | intro _ | with_reducible assumption | with_reducible apply Evolves.ite
    | with_reducible apply mgmtWrite_ev (hm.of (by decide)) | split | (dsimp only; split)

end Sys2Proof.Machine
end

