-- ==== Sys2Proof/Laws/EvolveHostLinks.lean ====
section
/-! SUPPORT. What every operation of Machine/HostLinks.lean may change, and the promises it keeps (Evolves). -/

set_option Elab.async false

set_option linter.unusedTactic false
set_option linter.unreachableTactic false

namespace Sys2Proof.Machine

theorem canopyOpEndEffect_ev {m : Nat} {z0 : State} {t : Nat} {r : HostRead} {s : State} (hm : Within 0x480910 m)
    (hev : Evolves m z0 s) :
    Evolves m z0 (canopyOpEndEffect t r s) := by
  unfold canopyOpEndEffect
  repeat' first
    | intro _ | with_reducible assumption | with_reducible apply Evolves.ite
    | with_reducible apply maintEnd_ev (hm.of (by decide)) | split | (dsimp only; split)

theorem canopyClosingReadTimeoutEffect_ev {m : Nat} {z0 : State} {t : Nat} {s : State} (hm : Within 0x404c4d92 m)
    (hev : Evolves m z0 s) :
    Evolves m z0 (canopyClosingReadTimeoutEffect t s) := by
  unfold canopyClosingReadTimeoutEffect
  repeat' first
    | intro _ | with_reducible assumption | with_reducible apply Evolves.ite
    | with_reducible apply perfAdd_ev (hm.of (by decide)) | with_reducible apply waitUntil_ev (hm.of (by decide))
    | with_reducible apply maintEnd_ev (hm.of (by decide)) | split | (dsimp only; split)

theorem faultRecordPushEndEffect_ev {m : Nat} {z0 : State} {t : Nat} {r : HostRead} {s : State} (hm : Within 0x4585f00 m)
    (hev : Evolves m z0 s) :
    Evolves m z0 (faultRecordPushEndEffect t r s) := by
  unfold faultRecordPushEndEffect
  repeat' first
    | intro _ | with_reducible assumption | with_reducible apply Evolves.ite
    | with_reducible apply pushFailEnter_ev (hm.of (by decide)) | with_reducible apply pushGood_ev (hm.of (by decide))
    | split | (dsimp only; split)

theorem faultPushCplTimeoutEffect_ev {m : Nat} {z0 : State} {t : Nat} {s : State} (hm : Within 0x445c5f82 m)
    (hev : Evolves m z0 s) :
    Evolves m z0 (faultPushCplTimeoutEffect t s) := by
  unfold faultPushCplTimeoutEffect
  repeat' first
    | intro _ | with_reducible assumption | with_reducible apply Evolves.ite
    | with_reducible apply perfAdd_ev (hm.of (by decide)) | with_reducible apply waitUntil_ev (hm.of (by decide))
    | with_reducible apply pushFailEnter_ev (hm.of (by decide)) | split | (dsimp only; split)

theorem linkMoved_ev {m : Nat} {z0 : State} {t : Nat} {s : State} (hm : Within 0x100 m) (hev : Evolves m z0 s) :
    Evolves m z0 (linkMoved t s) := by
  unfold linkMoved
  repeat' first
    | intro _ | with_reducible assumption | with_reducible apply Evolves.ite
    | with_reducible apply raise_ev (hm.of (by decide)) | split | (dsimp only; split)

theorem linkTaken_ev {m : Nat} {z0 : State} {t : Nat} {s : State} (hm : Within 0x900 m) (hev : Evolves m z0 s) :
    Evolves m z0 (linkTaken t s) := by
  unfold linkTaken
  repeat' first
    | intro _ | with_reducible assumption | with_reducible apply Evolves.ite
    | with_reducible apply linkReset_ev (hm.of (by decide)) | with_reducible apply linkMoved_ev (hm.of (by decide))
    | split | (dsimp only; split)

theorem perstNAssertEffect_ev {m : Nat} {z0 : State} {t : Nat} {s : State} (hm : Within 0x4585f00 m)
    (hev : Evolves m z0 s) :
    Evolves m z0 (perstNAssertEffect t s) := by
  unfold perstNAssertEffect
  repeat' first
    | intro _ | with_reducible assumption | with_reducible apply Evolves.ite
    | with_reducible apply modTen_ev (hm.of (by decide)) | with_reducible apply modLink_ev (hm.of (by decide))
    | with_reducible apply raise_ev (hm.of (by decide)) | with_reducible apply tenantResetStart_ev (hm.of (by decide))
    | with_reducible apply linkTaken_ev (hm.of (by decide)) | split | (dsimp only; split)

theorem perstNDeassertEffect_ev {m : Nat} {z0 : State} {t : Nat} {s : State} (hm : Within 0x900 m)
    (hev : Evolves m z0 s) :
    Evolves m z0 (perstNDeassertEffect t s) := by
  unfold perstNDeassertEffect
  repeat' first
    | intro _ | with_reducible assumption | with_reducible apply Evolves.ite
    | with_reducible apply modLink_ev (hm.of (by decide)) | with_reducible apply raise_ev (hm.of (by decide)) | split
    | (dsimp only; split)

theorem hotResetEffect_ev {m : Nat} {z0 : State} {t : Nat} {s : State} (hm : Within 0x4585f00 m)
    (hev : Evolves m z0 s) :
    Evolves m z0 (hotResetEffect t s) := by
  unfold hotResetEffect
  repeat' first
    | intro _ | with_reducible assumption | with_reducible apply Evolves.ite
    | with_reducible apply modTen_ev (hm.of (by decide))
    | with_reducible apply tenantResetStart_ev (hm.of (by decide))
    | with_reducible apply linkTaken_ev (hm.of (by decide)) | split | (dsimp only; split)

theorem functionLevelResetEffect_ev {m : Nat} {z0 : State} {t : Nat} {s : State} (hm : Within 0x4585f00 m)
    (hev : Evolves m z0 s) :
    Evolves m z0 (functionLevelResetEffect t s) := by
  unfold functionLevelResetEffect
  repeat' first
    | intro _ | with_reducible assumption | with_reducible apply Evolves.ite
    | with_reducible apply modLink_ev (hm.of (by decide))
    | with_reducible apply tenantResetStart_ev (hm.of (by decide)) | split | (dsimp only; split)

theorem linkDownCause_ev {m : Nat} {z0 : State} {t : Nat} {s : State} (hm : Within 0x4585f00 m)
    (hev : Evolves m z0 s) :
    Evolves m z0 (linkDownCause t s) := by
  unfold linkDownCause
  repeat' first
    | intro _ | with_reducible assumption | with_reducible apply Evolves.ite
    | with_reducible apply tenantFault_ev (hm.of (by decide)) | split | (dsimp only; split)

theorem maintCut_ev {m : Nat} {z0 : State} {t : Nat} {s : State} (hm : Within 0x480910 m) (hev : Evolves m z0 s) :
    Evolves m z0 (maintCut t s) := by
  unfold maintCut
  repeat' first
    | intro _ | with_reducible assumption | with_reducible apply Evolves.ite
    | with_reducible apply maintEnd_ev (hm.of (by decide)) | split | (dsimp only; split)

theorem busMasterOff_ev {m : Nat} {z0 : State} {t : Nat} {s : State} (hm : Within 0x65a7f94 m)
    (hev : Evolves m z0 s) :
    Evolves m z0 (busMasterOff t s) := by
  unfold busMasterOff
  repeat' first
    | intro _ | with_reducible assumption | with_reducible apply Evolves.ite
    | with_reducible apply modLink_ev (hm.of (by decide)) | with_reducible apply pushFailEnter_ev (hm.of (by decide))
    | with_reducible apply linkChannels_ev (hm.of (by decide))
    | with_reducible apply lookupsMiss_ev (hm.of (by decide))
    | with_reducible apply linkDownCause_ev (hm.of (by decide)) | with_reducible apply maintCut_ev (hm.of (by decide))
    | split | (dsimp only; split)

theorem busMasterOn_ev {m : Nat} {z0 : State} {t : Nat} {s : State} (hm : Within 0x4785f00 m) (hev : Evolves m z0 s) :
    Evolves m z0 (busMasterOn t s) := by
  unfold busMasterOn
  repeat' first
    | intro _ | with_reducible assumption | with_reducible apply Evolves.ite
    | with_reducible apply modLink_ev (hm.of (by decide)) | with_reducible apply linkServe_ev (hm.of (by decide))
    | split | (dsimp only; split)

theorem hostLinkStateChangeEffect_ev {m : Nat} {z0 : State} {t : Nat} {st : LinkState} {s : State} (hm : Within 0x4785f00 m)
    (hev : Evolves m z0 s) :
    Evolves m z0 (hostLinkStateChangeEffect t st s) := by
  unfold hostLinkStateChangeEffect
  repeat' first
    | intro _ | with_reducible assumption | with_reducible apply Evolves.ite
    | with_reducible apply modTen_ev (hm.of (by decide)) | with_reducible apply modLink_ev (hm.of (by decide))
    | with_reducible apply pushFailEnter_ev (hm.of (by decide))
    | with_reducible apply linkServe_ev (hm.of (by decide)) | with_reducible apply linkMoved_ev (hm.of (by decide))
    | with_reducible apply linkDownCause_ev (hm.of (by decide)) | split | (dsimp only; split)

theorem linkTrainingStartEffect_ev {m : Nat} {z0 : State} {t : Nat} {s : State} (hm : Within 0x800 m)
    (hev : Evolves m z0 s) :
    Evolves m z0 (linkTrainingStartEffect t s) := by
  unfold linkTrainingStartEffect
  repeat' first
    | intro _ | with_reducible assumption | with_reducible apply Evolves.ite
    | with_reducible apply modLink_ev (hm.of (by decide)) | split | (dsimp only; split)

theorem cfgRead_ev {m : Nat} {z0 : State} {t : Nat} {r : CfgReg} {s : State} (hm : Within 0x804 m)
    (hev : Evolves m z0 s) :
    Evolves m z0 (cfgRead t r s) := by
  unfold cfgRead
  repeat' first
    | intro _ | with_reducible assumption | with_reducible apply Evolves.ite
    | with_reducible apply drawn_ev (hm.of (by decide)) | with_reducible apply modLink_ev (hm.of (by decide)) | split
    | (dsimp only; split)

theorem configurationRequestEffect_ev {m : Nat} {z0 : State} {t : Nat} {c : CfgRequest} {s : State} (hm : Within 0x67a7f94 m)
    (hev : Evolves m z0 s) :
    Evolves m z0 (configurationRequestEffect t c s) := by
  unfold configurationRequestEffect
  repeat' first
    | intro _ | with_reducible assumption | with_reducible apply Evolves.ite
    | with_reducible apply modLink_ev (hm.of (by decide)) | with_reducible apply busMasterOff_ev (hm.of (by decide))
    | with_reducible apply busMasterOn_ev (hm.of (by decide)) | with_reducible apply cfgRead_ev (hm.of (by decide))
    | split | (dsimp only; split)

theorem bar0UnsupportedRequestEffect_ev {m : Nat} {z0 : State} {t : Nat} {s : State} (hm : Within 0x800 m)
    (hev : Evolves m z0 s) :
    Evolves m z0 (bar0UnsupportedRequestEffect t s) := by
  unfold bar0UnsupportedRequestEffect
  repeat' first
    | intro _ | with_reducible assumption | with_reducible apply Evolves.ite
    | with_reducible apply modLink_ev (hm.of (by decide)) | split | (dsimp only; split)

theorem aerLog_ev {m : Nat} {z0 : State} {t : Nat} {s : State} (hm : Within 0x900 m) (hev : Evolves m z0 s) :
    Evolves m z0 (aerLog t s) := by
  unfold aerLog
  repeat' first
    | intro _ | with_reducible assumption | with_reducible apply Evolves.ite
    | with_reducible apply modLink_ev (hm.of (by decide)) | with_reducible apply raise_ev (hm.of (by decide)) | split
    | (dsimp only; split)

theorem linkReplay_ev {m : Nat} {z0 : State} {t : Nat} {rings : List (Fin 132)} {s : State} (hm : Within 0x80900 m)
    (hev : Evolves m z0 s) :
    Evolves m z0 (linkReplay t rings s) := by
  unfold linkReplay
  repeat' first
    | intro _ | with_reducible assumption | with_reducible apply Evolves.ite
    | with_reducible apply modLink_ev (hm.of (by decide)) | with_reducible apply perfAdd_ev (hm.of (by decide))
    | split | (dsimp only; split)

end Sys2Proof.Machine
end

