-- ==== Sys2Proof/Laws/Registers.lean ====
section
/-! SUPPORT. What a performed write does at the offset of each command's register. -/

set_option Elab.async false

namespace Sys2Proof.Machine

variable {x : Extra} {path : Nat} {d : Word} {s : State}

/-- The M window answers as its registers say once the device is ready (R72). -/
@[simp] theorem winOpen_zero : winOpen s 0 = s.start.ready := by simp [winOpen]

theorem regWrite_paramPort {w : Nat} : regWrite x w path 0x0A d s = if winOpen s w then paramPort_ w d.toNat x.ecc s else s := by
  cases hw : winOpen s w
  · simp [regWrite, hw]
  · cases w with
    | zero => simp [regWrite, hw, groupAt, writeM, writeCommon]
    | succ t => simp [regWrite, hw, groupAt, writeT, writeCommon]

theorem regWrite_tblData {w : Nat} : regWrite x w path 0x0F d s = if winOpen s w then tblDataWrite w d s else s := by
  cases hw : winOpen s w
  · simp [regWrite, hw]
  · cases w with
    | zero => simp [regWrite, hw, groupAt, writeM, writeCommon]
    | succ t => simp [regWrite, hw, groupAt, writeT, writeCommon]

theorem regWrite_tablePort {w : Nat} : regWrite x w path 0x10 d s = if winOpen s w then tablePort w d.toNat x.ecc s else s := by
  cases hw : winOpen s w
  · simp [regWrite, hw]
  · cases w with
    | zero => simp [regWrite, hw, groupAt, writeM, writeCommon]
    | succ t => simp [regWrite, hw, groupAt, writeT, writeCommon]

theorem regWrite_complete {w : Nat} : regWrite x w path 0x15 d s = if winOpen s w then completeEffect w (bits d.toNat 0 6) s else s := by
  cases hw : winOpen s w
  · simp [regWrite, hw]
  · cases w with
    | zero => simp [regWrite, hw, groupAt, writeM, writeCommon]
    | succ t => simp [regWrite, hw, groupAt, writeT, writeCommon]

theorem regWrite_lockOp {w : Nat} : regWrite x w path 0x19 d s = if winOpen s w then lockWrite w (bits d.toNat 0 2) x.ecc s else s := by
  cases hw : winOpen s w
  · simp [regWrite, hw]
  · cases w with
    | zero => simp [regWrite, hw, groupAt, writeM, writeCommon]
    | succ t => simp [regWrite, hw, groupAt, writeT, writeCommon]

theorem regWrite_timeCmd {w : Nat} : regWrite x w path 0x20 d s = if winOpen s w then timeOp w (bits d.toNat 0 4) (if x.ecc then eccMark 0x08A 1 0 true s else s) else s := by
  cases hw : winOpen s w
  · simp [regWrite, hw]
  · cases w with
    | zero => simp [regWrite, hw, groupAt, writeM, writeCommon]
    | succ t => simp [regWrite, hw, groupAt, writeT, writeCommon]

theorem regWrite_xferCtl {w : Nat} : regWrite x w path 0x30 d s = if winOpen s w then (match selChan s w with | some c => if ownsChan s w c then ctlWrite c d.toNat s else s | none => s) else s := by
  cases hw : winOpen s w
  · simp [regWrite, hw]
  · cases w with
    | zero => simp [regWrite, hw, groupAt, writeM, writeCommon] <;> rfl
    | succ t => simp [regWrite, hw, groupAt, writeT, writeCommon] <;> rfl

theorem regWrite_canopyCmd {w : Nat} : regWrite x w path 0x34 d s = if winOpen s w then canopyOp w (if w = 0 then bits d.toNat 4 2 else w - 1) (bits d.toNat 0 3) (bitOf d.toNat 3) s else s := by
  cases hw : winOpen s w
  · simp [regWrite, hw]
  · cases w with
    | zero => simp [regWrite, hw, groupAt, writeM, writeCommon]
    | succ t => simp [regWrite, hw, groupAt, writeT, writeCommon]

theorem regWrite_control (h : s.start.ready = true) : regWrite x 0 path 0x03 d s = controlWrite x d.toNat s := by
  simp [regWrite, h, groupAt, writeM]

theorem regWrite_tenantCtl (h : s.start.ready = true) : regWrite x 0 path 0x3D d s = tenantCtlWrite s.mgmt.selTenant d.toNat s := by
  simp [regWrite, h, groupAt, writeM]

theorem regWrite_pairCmd (h : s.start.ready = true) : regWrite x 0 path 0x44 d s = pairCommand (bits d.toNat 0 3) s := by
  simp [regWrite, h, groupAt, writeM]

theorem regWrite_safetyCmd (h : s.start.ready = true) : regWrite x 0 path 0x49 d s = safetyCommand d.toNat (if x.ecc then eccMark 0x089 24 0 true s else s) := by
  simp [regWrite, h, groupAt, writeM]

theorem regWrite_storeCmd (h : s.start.ready = true) : regWrite x 0 path 0x4C d s = storeCommand (bits d.toNat 0 4) (bits d.toNat 4 6) (bits d.toNat 16 8) x.disc s := by
  simp [regWrite, h, groupAt, writeM]

theorem regWrite_imageCmd (h : s.start.ready = true) (hd : bitOf d.toNat 0 = true) :
    regWrite x 0 path 0x50 d s = imageStart (bitOf d.toNat 1) x.host x.areaBad
      { s with image := { s.image with done := s.image.done && !bitOf d.toNat 8, fromStore := bitOf d.toNat 1 } } := by
  simp [regWrite, h, groupAt, writeM, hd]

theorem regWrite_tControl {t : Nat} (h : winOpen s (t + 1) = true) : regWrite x (t + 1) path 0x03 d s =
    if bits d.toNat 16 8 = 0xC3 ∧ bitOf d.toNat 1 then tenantResetStart t (modTen t (fun x => { x with selfReset := true }) (engineWrite t (bitOf d.toNat 0) s)) else engineWrite t (bitOf d.toNat 0) s := by
  simp [regWrite, h, groupAt, writeT]

theorem regWrite_tFault {t : Nat} (h : winOpen s (t + 1) = true) : regWrite x (t + 1) path 0x04 d s =
    faultClear t (bits d.toNat 0 10) x.cause s := by
  simp [regWrite, h, groupAt, writeT]

theorem regWrite_txBell {t : Nat} (h : winOpen s (t + 1) = true) : regWrite x (t + 1) path 0x40 d s =
    txBell t d s := by
  simp [regWrite, h, groupAt, writeT]

theorem regWrite_rxBell {t : Nat} (h : winOpen s (t + 1) = true) : regWrite x (t + 1) path 0x41 d s =
    rxBell t d s := by
  simp [regWrite, h, groupAt, writeT]

theorem regWrite_ringCtl {t : Nat} (h : winOpen s (t + 1) = true) : regWrite x (t + 1) path 0x43 d s =
    (match selRing s t with | some r => ringCtlWrite t r d.toNat s | none => s) := by
  simp [regWrite, h, groupAt, writeT] <;> rfl

/-- A write to a word of an anchored group (R58). -/
theorem regWrite_group {w off g k : Nat} (h : winOpen s w = true) (hg : groupAt w off = some (g, k)) :
    regWrite x w path off d s = groupWrite w path g k d s := by
  simp [regWrite, h, hg]

end Sys2Proof.Machine
end

