-- ==== Sys2Proof/Laws/EvolveExec.lean ====
section
/-! SUPPORT. What every command may change, and the promises it keeps (Evolves). -/

set_option Elab.async false

set_option linter.unusedTactic false
set_option linter.unreachableTactic false

namespace Sys2Proof.Machine

/-- A word write, whatever becomes of it. -/
theorem writeAt_evolves {m : Nat} {z0 : State} {x : Extra} {k : Reach} {p : Path} {off v : Nat} {s : State}
    (hm : Within 0x40009a8 m) (ho : off < 256)
    (hreg : ∀ w path d u, Evolves m z0 u → Evolves m z0 (regWrite x w path off d u)) (hev : Evolves m z0 s) :
    Evolves m z0 (writeAt x k p off v s) := by
  unfold writeAt wordAccess
  refine Evolves.ite hev ?_
  split
  · unfold cbAccess
    refine Evolves.ite hev ?_
    split
    · exact jam_ev (hm.of (by decide)) hev
    · refine Evolves.ite hev (Evolves.ite (refuse_ev (hm.of (by decide)) hev) ?_)
      rw [off_toNat ho]
      exact hreg _ _ _ _ (acknowledge_ev (hm.of (by decide)) hev)
  · unfold bar0Access
    refine Evolves.ite hev (Evolves.ite (modLink_ev (hm.of (by decide)) hev) ?_)
    simp only [List.length_cons, List.length_nil, Nat.zero_add, bar0Order_one, Bool.false_eq_true, if_false, forEach,
      List.foldl_cons, List.foldl_nil, bar0Word]
    split
    · exact hev
    · exact hreg _ _ _ _ hev

theorem readAt_evolves {m : Nat} {z0 : State} {x : Extra} {k : Reach} {p : Path} {off : Nat} {s : State}
    (hm : Within 0x40009a8 m) (ho : off < 256)
    (hhit : ∀ w u, Evolves m z0 u → Evolves m z0 (counterHit w off x.ecc u))
    (hreg : ∀ w path ecc u, Evolves m z0 u → Evolves m z0 (readEffect w path off ecc u)) (hev : Evolves m z0 s) :
    Evolves m z0 (readAt x k p off s) := by
  unfold readAt wordAccess
  refine Evolves.ite hev ?_
  split
  · unfold cbAccess
    refine Evolves.ite hev ?_
    split
    · exact jam_ev (hm.of (by decide)) hev
    · refine Evolves.ite hev (Evolves.ite (refuse_ev (hm.of (by decide)) hev) ?_)
      rw [off_toNat ho]
      exact hreg _ _ _ _ (acknowledge_ev (hm.of (by decide)) (hhit _ _ hev))
  · unfold bar0Access
    refine Evolves.ite hev (Evolves.ite (modLink_ev (hm.of (by decide)) hev) ?_)
    have h256 : ¬ off > 255 := by omega
    simp only [List.length_cons, List.length_nil, Nat.zero_add, if_true, bar0Read, if_neg h256]
    exact modLink_ev (hm.of (by decide)) (hreg _ _ _ _ hev)

theorem regWrite_paramPort_ev {m : Nat} {z0 : State} {x : Extra} {path : Nat} {d : Word} {s : State} {w : Nat} (hm : Within 0x2ffedfbc m)
    (hev : Evolves m z0 s) : Evolves m z0 (regWrite x w path 0x0A d s) := by
  rw [regWrite_paramPort]
  exact Evolves.ite (paramPort__ev (hm.of (by decide)) hev) hev

theorem regWrite_tblData_ev {m : Nat} {z0 : State} {x : Extra} {path : Nat} {d : Word} {s : State} {w : Nat} (hm : Within 0x10 m)
    (hev : Evolves m z0 s) : Evolves m z0 (regWrite x w path 0x0F d s) := by
  rw [regWrite_tblData]
  exact Evolves.ite (tblDataWrite_ev (hm.of (by decide)) hev) hev

theorem regWrite_tablePort_ev {m : Nat} {z0 : State} {x : Extra} {path : Nat} {d : Word} {s : State} {w : Nat} (hm : Within 0x2e5a5fb4 m)
    (hev : Evolves m z0 s) : Evolves m z0 (regWrite x w path 0x10 d s) := by
  rw [regWrite_tablePort]
  exact Evolves.ite (tablePort_ev (hm.of (by decide)) hev) hev

theorem regWrite_complete_ev {m : Nat} {z0 : State} {x : Extra} {path : Nat} {d : Word} {s : State} {w : Nat} (hm : Within 0x100 m)
    (hev : Evolves m z0 s) : Evolves m z0 (regWrite x w path 0x15 d s) := by
  rw [regWrite_complete]
  exact Evolves.ite (completeEffect_ev (hm.of (by decide)) hev) hev

theorem regWrite_lockOp_ev {m : Nat} {z0 : State} {x : Extra} {path : Nat} {d : Word} {s : State} {w : Nat} (hm : Within 0x26585fb4 m)
    (hev : Evolves m z0 s) : Evolves m z0 (regWrite x w path 0x19 d s) := by
  rw [regWrite_lockOp]
  exact Evolves.ite (lockWrite_ev (hm.of (by decide)) hev) hev

theorem regWrite_timeCmd_ev {m : Nat} {z0 : State} {x : Extra} {path : Nat} {d : Word} {s : State} {w : Nat} (hm : Within 0x265c5fb4 m)
    (hev : Evolves m z0 s) : Evolves m z0 (regWrite x w path 0x20 d s) := by
  rw [regWrite_timeCmd]
  exact Evolves.ite (timeOp_ev (hm.of (by decide)) (Evolves.ite (eccMark_ev (hm.of (by decide)) hev) hev)) hev

theorem regWrite_xferCtl_ev {m : Nat} {z0 : State} {x : Extra} {path : Nat} {d : Word} {s : State} {w : Nat} (hm : Within 0x180100 m)
    (hev : Evolves m z0 s) : Evolves m z0 (regWrite x w path 0x30 d s) := by
  rw [regWrite_xferCtl]
  refine Evolves.ite ?_ hev
  split
  · exact Evolves.ite (ctlWrite_ev (hm.of (by decide)) hev) hev
  · exact hev

theorem regWrite_canopyCmd_ev {m : Nat} {z0 : State} {x : Extra} {path : Nat} {d : Word} {s : State} {w : Nat} (hm : Within 0x480910 m)
    (hev : Evolves m z0 s) : Evolves m z0 (regWrite x w path 0x34 d s) := by
  rw [regWrite_canopyCmd]
  exact Evolves.ite (canopyOp_ev (hm.of (by decide)) hev) hev

/-- A word write by management alone. -/
theorem mgmtWrite_evolves {m : Nat} {z0 : State} {x : Extra} {q : CbPar} {off v : Nat} {s : State}
    (hm : Within 0x40001a8 m) (ho : off < 256)
    (hreg : ∀ d u, Evolves m z0 u → Evolves m z0 (regWrite x 0 0 off d u)) (hev : Evolves m z0 s) :
    Evolves m z0 (mgmtWrite x q off v s) := by
  unfold mgmtWrite writeAt wordAccess
  split
  · exact hev
  · next hr =>
    dsimp only
    unfold cbAccess
    refine Evolves.ite hev ?_
    split
    · exact jam_ev (hm.of (by decide)) hev
    · next k hk =>
      have h0 : k = 0 := by simpa [offReach, hk] using hr
      subst h0
      refine Evolves.ite hev (Evolves.ite (refuse_ev (hm.of (by decide)) hev) ?_)
      rw [off_toNat ho]
      exact hreg _ _ (acknowledge_ev (hm.of (by decide)) hev)

/-- A word write by a tenant's window alone. -/
theorem tenantWrite_evolves {m : Nat} {z0 : State} {x : Extra} {p : Path} {off v : Nat} {s : State}
    (hm : Within 0x40009a8 m) (ho : off < 256)
    (hreg : ∀ t path d u, Evolves m z0 u → Evolves m z0 (regWrite x (t + 1) path off d u)) (hev : Evolves m z0 s) :
    Evolves m z0 (writeAt x .tenant p off v s) := by
  unfold writeAt wordAccess
  split
  · exact hev
  · next hr =>
    split
    · unfold cbAccess
      refine Evolves.ite hev ?_
      split
      · exact jam_ev (hm.of (by decide)) hev
      · next k hk =>
        have h0 : k ≠ 0 := by simpa [offReach, hk] using hr
        obtain ⟨j, rfl⟩ := Nat.exists_eq_succ_of_ne_zero h0
        refine Evolves.ite hev (Evolves.ite (refuse_ev (hm.of (by decide)) hev) ?_)
        rw [off_toNat ho]
        exact hreg _ _ _ _ (acknowledge_ev (hm.of (by decide)) hev)
    · unfold bar0Access
      refine Evolves.ite hev (Evolves.ite (modLink_ev (hm.of (by decide)) hev) ?_)
      simp only [List.length_cons, List.length_nil, Nat.zero_add, bar0Order_one, Bool.false_eq_true, if_false, forEach,
        List.foldl_cons, List.foldl_nil, bar0Word]
      split
      · exact hev
      · exact hreg _ _ _ _ hev

theorem regWrite_tenantCtl_ev {m : Nat} {z0 : State} {x : Extra} {path : Nat} {d : Word} {s : State} (hm : Within 0x24585f90 m)
    (hev : Evolves m z0 s) : Evolves m z0 (regWrite x 0 path 0x3D d s) := by
  cases hr : s.start.ready
  · simpa [regWrite, hr] using hev
  · rw [regWrite_tenantCtl hr]
    exact tenantCtlWrite_ev (hm.of (by decide)) hev

theorem regWrite_pairCmd_ev {m : Nat} {z0 : State} {x : Extra} {path : Nat} {d : Word} {s : State} (hm : Within 0xc785f80 m)
    (hev : Evolves m z0 s) : Evolves m z0 (regWrite x 0 path 0x44 d s) := by
  cases hr : s.start.ready
  · simpa [regWrite, hr] using hev
  · rw [regWrite_pairCmd hr]
    exact pairCommand_ev (hm.of (by decide)) hev

theorem regWrite_safetyCmd_ev {m : Nat} {z0 : State} {x : Extra} {path : Nat} {d : Word} {s : State} (hm : Within 0x26585fa4 m)
    (hev : Evolves m z0 s) : Evolves m z0 (regWrite x 0 path 0x49 d s) := by
  cases hr : s.start.ready
  · simpa [regWrite, hr] using hev
  · rw [regWrite_safetyCmd hr]
    exact safetyCommand_ev (hm.of (by decide)) (Evolves.ite (eccMark_ev (hm.of (by decide)) hev) hev)

theorem regWrite_storeCmd_ev {m : Nat} {z0 : State} {x : Extra} {path : Nat} {d : Word} {s : State} (hm : Within 0x64851a4 m)
    (hev : Evolves m z0 s) : Evolves m z0 (regWrite x 0 path 0x4C d s) := by
  cases hr : s.start.ready
  · simpa [regWrite, hr] using hev
  · rw [regWrite_storeCmd hr]
    exact storeCommand_ev (hm.of (by decide)) hev

theorem regWrite_control_ev {m : Nat} {z0 : State} {x : Extra} {path : Nat} {d : Word} {s : State} (hm : Within 0x1fffffffc m)
    (hev : Evolves m z0 s) : Evolves m z0 (regWrite x 0 path 0x03 d s) := by
  cases hr : s.start.ready
  · simp only [regWrite, winOpen_zero, hr, Bool.not_false, if_true]
    refine Evolves.ite ?_ (Evolves.ite (internalReset_ev (hm.of (by decide)) hev) hev)
    exact Evolves.set_mgmt (hm.bit (by decide)) hev
  · rw [regWrite_control hr]
    exact controlWrite_ev (hm.of (by decide)) hev

theorem regWrite_imageCmd_ev {m : Nat} {z0 : State} {x : Extra} {path : Nat} {d : Word} {s : State} (hm : Within 0x265855f0 m)
    (hev : Evolves m z0 s) : Evolves m z0 (regWrite x 0 path 0x50 d s) := by
  cases hr : s.start.ready
  · simpa [regWrite, hr] using hev
  · have : regWrite x 0 path 0x50 d s = writeM x 0x50 d s := by simp [regWrite, hr, groupAt]
    rw [this]
    unfold writeM
    have h1 : Evolves m z0 { s with image := { s.image with done := s.image.done && !bitOf d.toNat 8, fromStore := bitOf d.toNat 1 } } :=
      Evolves.set_image (hm.bit (by decide)) hev
    exact Evolves.ite (imageStart_ev (hm.of (by decide)) h1) h1

theorem regWrite_tControl_ev {m : Nat} {z0 : State} {x : Extra} {t path : Nat} {d : Word} {s : State} (hm : Within 0x4785f00 m)
    (hev : Evolves m z0 s) : Evolves m z0 (regWrite x (t + 1) path 0x03 d s) := by
  cases hr : winOpen s (t + 1)
  · simpa [regWrite, hr] using hev
  · rw [regWrite_tControl hr]
    exact Evolves.ite (tenantResetStart_ev (hm.of (by decide)) (modTen_ev (hm.of (by decide)) (engineWrite_ev (hm.of (by decide)) hev))) (engineWrite_ev (hm.of (by decide)) hev)

theorem regWrite_tFault_ev {m : Nat} {z0 : State} {x : Extra} {t path : Nat} {d : Word} {s : State} (hm : Within 0x4585f00 m)
    (hev : Evolves m z0 s) : Evolves m z0 (regWrite x (t + 1) path 0x04 d s) := by
  cases hr : winOpen s (t + 1)
  · simpa [regWrite, hr] using hev
  · rw [regWrite_tFault hr]
    exact faultClear_ev (hm.of (by decide)) hev

theorem regWrite_txBell_ev {m : Nat} {z0 : State} {x : Extra} {t path : Nat} {d : Word} {s : State} (hm : Within 0x4785f00 m)
    (hev : Evolves m z0 s) : Evolves m z0 (regWrite x (t + 1) path 0x40 d s) := by
  cases hr : winOpen s (t + 1)
  · simpa [regWrite, hr] using hev
  · rw [regWrite_txBell hr]
    exact txBell_ev (hm.of (by decide)) hev

theorem regWrite_rxBell_ev {m : Nat} {z0 : State} {x : Extra} {t path : Nat} {d : Word} {s : State} (hm : Within 0x4785f00 m)
    (hev : Evolves m z0 s) : Evolves m z0 (regWrite x (t + 1) path 0x41 d s) := by
  cases hr : winOpen s (t + 1)
  · simpa [regWrite, hr] using hev
  · rw [regWrite_rxBell hr]
    exact rxBell_ev (hm.of (by decide)) hev

theorem regWrite_ringCtl_ev {m : Nat} {z0 : State} {x : Extra} {t path : Nat} {d : Word} {s : State} (hm : Within 0x4785f00 m)
    (hev : Evolves m z0 s) : Evolves m z0 (regWrite x (t + 1) path 0x43 d s) := by
  cases hr : winOpen s (t + 1)
  · simpa [regWrite, hr] using hev
  · rw [regWrite_ringCtl hr]
    split
    · exact ringCtlWrite_ev (hm.of (by decide)) hev
    · exact hev

theorem regWrite_group_ev {m : Nat} {z0 : State} {x : Extra} {w path off : Nat} {d : Word} {s : State} (hm : Within 0x100010 m)
    (h3 : 6 < off) (hg : (w = 0 ∧ (off = 0x25 ∨ off = 0x26 ∨ off = 0x27)) ∨ w ≠ 0 ∧ (off = 0x25 ∨ off = 0x26 ∨ off = 0x27) ∨ ∃ g k, groupAt w off = some (g, k))
    (hev : Evolves m z0 s) : Evolves m z0 (regWrite x w path off d s) := by
  cases hr : winOpen s w
  · have a : ¬(w = 0 ∧ off = 6) := by omega
    have b : ¬(w = 0 ∧ off = 3 ∧ s.power.asleep = true ∧ devResetSet d.toNat = true) := fun h => by omega
    simpa only [regWrite, hr, if_neg a, if_neg b, Bool.not_false, if_true] using hev
  · cases hgr : groupAt w off with
    | some gk => obtain ⟨g, k⟩ := gk; rw [regWrite_group hr hgr]; exact groupWrite_ev (hm.of (by decide)) hev
    | none =>
      have hs : regWrite x w path off d s = s := by
        rcases hg with ⟨rfl, h | h | h⟩ | ⟨hw, h | h | h⟩ | ⟨g, k, h⟩
        · subst h; simp [groupAt] at hgr
        · subst h; simp [groupAt] at hgr
        · subst h; simp [regWrite, hr, groupAt, writeM, writeCommon]
        · subst h; simp [regWrite, hr, groupAt, hw, writeT, writeCommon]
        · subst h; simp [regWrite, hr, groupAt, hw, writeT, writeCommon]
        · subst h; simp [regWrite, hr, groupAt, hw, writeT, writeCommon]
        · rw [h] at hgr; cases hgr
      rw [hs]; exact hev

theorem execDescriptorReadEnd_ev {t : Fin 4} {r : Fin 132} {h : HostRead} {s : State} {t' : State}
    (h : execDescriptorReadEnd t r h s = .next t') :
    Evolves (mask [.tables, .locks, .tenants, .links, .frames, .ports, .perf, .chans, .lastChan, .canopy,
      .safety]) s t' := by
  unfold execDescriptorReadEnd at h
  obtain ⟨_, rfl⟩ := live_eq_next h
  exact descriptorReadEndEffect_ev (by decide) (Evolves.refl _)

theorem execDescriptorReadTimeout_ev {t : Fin 4} {r : Fin 132} {s : State} {t' : State}
    (h : execDescriptorReadTimeout t r s = .next t') :
    Evolves (mask [.clk, .params, .tables, .locks, .tenants, .links, .frames, .ports, .time, .perf, .chans,
      .lastChan, .canopy, .safety, .droop]) s t' := by
  unfold execDescriptorReadTimeout at h
  obtain ⟨_, rfl⟩ := live_eq_next h
  exact descriptorReadTimeoutEffect_ev (by decide) (Evolves.refl _)

theorem execOwnReread_ev {t : Fin 4} {r : Fin 132} {s : State} {t' : State} (h : execOwnReread t r s = .next t') :
    Evolves (mask [.clk, .params, .tables, .locks, .tenants, .links, .frames, .ports, .time, .perf, .chans,
      .lastChan, .canopy, .safety, .droop]) s t' := by
  unfold execOwnReread at h
  obtain ⟨_, rfl⟩ := live_eq_next h
  exact ownRereadEffect_ev (by decide) (Evolves.refl _)

theorem execFetchTimeout_ev {t : Fin 4} {r : Fin 132} {s : State} {t' : State}
    (h : execFetchTimeout t r s = .next t') :
    Evolves (mask [.clk, .params, .tables, .locks, .tenants, .links, .frames, .ports, .time, .perf, .chans,
      .canopy, .safety, .droop]) s t' := by
  unfold execFetchTimeout at h
  obtain ⟨_, rfl⟩ := live_eq_next h
  exact fetchTimeoutEffect_ev (by decide) (Evolves.refl _)

theorem execRecoveringOnset_ev {t : Fin 4} {r : Fin 132} {s : State} {t' : State}
    (h : execRecoveringOnset t r s = .next t') :
    Evolves (mask [.clk, .params, .tables, .tenants, .ports, .time, .perf, .droop]) s t' := by
  unfold execRecoveringOnset at h
  obtain ⟨_, rfl⟩ := live_eq_next h
  exact recoveringOnsetEffect_ev (by decide) (Evolves.refl _)

theorem execTxBufferReadTimeout_ev {t : Fin 4} {s : State} {t' : State} (h : execTxBufferReadTimeout t s = .next t') :
    Evolves (mask [.clk, .params, .tables, .locks, .tenants, .links, .frames, .ports, .time, .perf, .chans,
      .canopy, .safety, .droop]) s t' := by
  unfold execTxBufferReadTimeout at h
  obtain ⟨_, rfl⟩ := live_eq_next h
  exact txBufferReadTimeoutEffect_ev (by decide) (Evolves.refl _)

theorem execWriteBackHoldExpiry_ev {t : Fin 4} {r : Fin 132} {s : State} {t' : State}
    (h : execWriteBackHoldExpiry t r s = .next t') :
    Evolves (mask [.clk, .params, .tables, .locks, .tenants, .links, .frames, .ports, .time, .perf, .chans,
      .lastChan, .canopy, .safety, .droop]) s t' := by
  unfold execWriteBackHoldExpiry at h
  obtain ⟨_, rfl⟩ := live_eq_next h
  exact writeBackHoldExpiryEffect_ev (by decide) (Evolves.refl _)

theorem execRxDelivery_ev {t : Fin 4} {r : Fin 64} {ecc : EccHit} {s : State} {t' : State}
    (h : execRxDelivery t r ecc s = .next t') :
    Evolves (mask [.free, .mgmt, .tables, .locks, .tenants, .links, .frames, .ports, .perf, .chans, .lastChan,
      .canopy, .safety]) s t' := by
  unfold execRxDelivery at h
  obtain ⟨_, rfl⟩ := live_eq_next h
  exact rxDeliveryEffect_ev (by decide) (Evolves.refl _)

theorem execFlushComplete_ev {t : Fin 4} {r : Fin 132} {s : State} {t' : State}
    (h : execFlushComplete t r s = .next t') :
    Evolves (mask [.tables, .tenants, .links, .perf, .canopy]) s t' := by
  unfold execFlushComplete at h
  obtain ⟨_, rfl⟩ := live_eq_next h
  exact flushCompleteEffect_ev (by decide) (Evolves.refl _)

theorem execPauseExpiry_ev {p : Fin 32} {c : Fin 8} {s : State} {t' : State} (h : execPauseExpiry p c s = .next t') :
    Evolves (mask [.clk, .params, .tables, .tenants, .ports, .time, .perf, .droop]) s t' := by
  unfold execPauseExpiry at h
  obtain ⟨_, rfl⟩ := live_eq_next h
  exact pauseExpiryEffect_ev (by decide) (Evolves.refl _)

theorem execMacControlSend_ev {p : Fin 32} {s : State} {t' : State} (h : execMacControlSend p s = .next t') :
    Evolves (mask [.clk, .params, .tables, .tenants, .ports, .time, .perf, .droop]) s t' := by
  unfold execMacControlSend at h
  obtain ⟨_, rfl⟩ := live_eq_next h
  exact macControlSendEffect_ev (by decide) (Evolves.refl _)

theorem execPfcRefresh_ev {p : Fin 32} {s : State} {t' : State} (h : execPfcRefresh p s = .next t') :
    Evolves (mask [.clk, .params, .tables, .tenants, .ports, .time, .perf, .droop]) s t' := by
  unfold execPfcRefresh at h
  obtain ⟨_, rfl⟩ := live_eq_next h
  exact pfcRefreshEffect_ev (by decide) (Evolves.refl _)

theorem execLinkDown_ev {p : Fin 32} {s : State} {t' : State} (h : execLinkDown p s = .next t') :
    Evolves (mask [.tables, .tenants, .links, .frames, .ports, .perf, .canopy]) s t' := by
  unfold execLinkDown at h
  obtain ⟨_, rfl⟩ := live_eq_next h
  exact linkDownEffect_ev (by decide) (Evolves.refl _)

theorem execLaneSignalLoss_ev {q : Fin 8} {s : State} {t' : State} (h : execLaneSignalLoss q s = .next t') :
    Evolves (mask [.tables, .tenants, .links, .frames, .ports, .lanes, .perf, .canopy]) s t' := by
  unfold execLaneSignalLoss at h
  obtain ⟨_, rfl⟩ := live_eq_next h
  exact laneSignalLossEffect_ev (by decide) (Evolves.refl _)

theorem execLaneLockAcquired_ev {q : Fin 8} {s : State} {t' : State} (h : execLaneLockAcquired q s = .next t') :
    Evolves (mask [.free, .params, .tables, .tenants, .links, .frames, .ports, .lanes, .perf, .canopy]) s t' := by
  unfold execLaneLockAcquired at h
  obtain ⟨_, rfl⟩ := live_eq_next h
  exact laneLockAcquiredEffect_ev (by decide) (Evolves.refl _)

theorem execInBandLinkChange_ev {p : Fin 32} {up : Bool} {speed : Fin 6} {half : Bool} {s : State} {t' : State}
    (h : execInBandLinkChange p up speed half s = .next t') :
    Evolves (mask [.tables, .tenants, .links, .frames, .ports, .perf, .canopy]) s t' := by
  unfold execInBandLinkChange at h
  obtain ⟨_, rfl⟩ := live_eq_next h
  exact inBandLinkChangeEffect_ev (by decide) (Evolves.refl _)

theorem execMdioPoll_ev {k : Fin 2} {a : MdioAnswer} {s : State} {t' : State} (h : execMdioPoll k a s = .next t') :
    Evolves (mask [.clk, .params, .tables, .tenants, .links, .frames, .ports, .mdio, .time, .perf, .canopy,
      .droop]) s t' := by
  unfold execMdioPoll at h
  obtain ⟨_, rfl⟩ := live_eq_next h
  exact mdioPollEffect_ev (by decide) (Evolves.refl _)

theorem execEgressCopy_ev {p : Fin 32} {ecc : EccHit} {s : State} {t' : State}
    (h : execEgressCopy p ecc s = .next t') :
    Evolves (mask [.free, .mgmt, .tables, .tenants, .links, .frames, .ports, .perf, .canopy, .safety]) s t' := by
  unfold execEgressCopy at h
  obtain ⟨_, rfl⟩ := live_eq_next h
  exact egressCopyEffect_ev (by decide) (Evolves.refl _)

theorem execEgressLaunch_ev {p : Fin 32} {ecc : EccHit} {s : State} {t' : State}
    (h : execEgressLaunch p ecc s = .next t') :
    Evolves (mask [.clk, .free, .mgmt, .params, .tables, .tenants, .links, .ports, .time, .perf, .canopy,
      .safety, .droop]) s t' := by
  unfold execEgressLaunch at h
  obtain ⟨_, rfl⟩ := live_eq_next h
  exact egressLaunchEffect_ev (by decide) (Evolves.refl _)

theorem execGateSwap_ev {p : Fin 32} {s : State} {t' : State} (h : execGateSwap p s = .next t') :
    Evolves (mask [.clk, .params, .tables, .tenants, .ports, .time, .perf, .droop]) s t' := by
  unfold execGateSwap at h
  obtain ⟨_, rfl⟩ := live_eq_next h
  exact gateSwapEffect_ev (by decide) (Evolves.refl _)

theorem execRecordWaitExpiry_ev {w : WaitEnd} {s : State} {t' : State} (h : execRecordWaitExpiry w s = .next t') :
    Evolves (mask [.clk, .free, .mgmt, .params, .tables, .locks, .tenants, .links, .frames, .ports, .time, .perf,
      .chans, .canopy, .store, .safety, .start, .droop]) s t' := by
  unfold execRecordWaitExpiry at h
  obtain ⟨_, rfl⟩ := live_eq_next h
  exact buildOr_ev (by decide) (fun _ h => recordWaitExpiryEffect_ev (by decide) h) (Evolves.refl _)

theorem execPageProgram_ev {s : State} {t' : State} (h : execPageProgram s = .next t') :
    Evolves (mask [.store]) s t' := by
  unfold execPageProgram at h
  obtain ⟨_, rfl⟩ := live_eq_next h
  exact pageProgramEffect_ev (by decide) (Evolves.refl _)

theorem execPageProgramEnd_ev {k : Fin 64} {failed : Bool} {s : State} {t' : State}
    (h : execPageProgramEnd k failed s = .next t') :
    Evolves (mask [.params, .tables, .perf, .store]) s t' := by
  unfold execPageProgramEnd at h
  obtain ⟨_, rfl⟩ := live_eq_next h
  exact pageProgramEndEffect_ev (by decide) (Evolves.refl _)

theorem execStreamWriteWatchdog_ev {k : Fin 64} {s : State} {t' : State}
    (h : execStreamWriteWatchdog k s = .next t') :
    Evolves (mask [.clk, .mgmt, .params, .tables, .tenants, .frames, .ports, .time, .perf, .canopy, .store,
      .safety, .droop]) s t' := by
  unfold execStreamWriteWatchdog at h
  obtain ⟨_, rfl⟩ := live_eq_next h
  exact streamWriteWatchdogEffect_ev (by decide) (Evolves.refl _)

theorem execStoreTrigEdge_ev {k : Fin 2} {s : State} {t' : State} (h : execStoreTrigEdge k s = .next t') :
    Evolves (mask [.tables, .store]) s t' := by
  unfold execStoreTrigEdge at h
  obtain ⟨_, rfl⟩ := live_eq_next h
  exact storeTrigEdgeEffect_ev (by decide) (Evolves.refl _)

theorem execLockWindowEnd_ev {k : Fin 64} {s : State} {t' : State} (h : execLockWindowEnd k s = .next t') :
    Evolves (mask [.clk, .params, .tables, .tenants, .ports, .time, .perf, .store, .droop]) s t' := by
  unfold execLockWindowEnd at h
  obtain ⟨_, rfl⟩ := live_eq_next h
  exact lockWindowEndEffect_ev (by decide) (Evolves.refl _)

theorem execHoldExpiry_ev {k : Fin 64} {s : State} {t' : State} (h : execHoldExpiry k s = .next t') :
    Evolves (mask [.clk, .params, .tables, .tenants, .ports, .time, .perf, .store, .droop]) s t' := by
  unfold execHoldExpiry at h
  obtain ⟨_, rfl⟩ := live_eq_next h
  exact holdExpiryEffect_ev (by decide) (Evolves.refl _)

theorem execMediumMount_ev {d : Discovery} {s : State} {t' : State} (h : execMediumMount d s = .next t') :
    Evolves (mask [.params, .tables, .canopy, .store, .power]) s t' := by
  unfold execMediumMount at h
  obtain ⟨_, rfl⟩ := live_eq_next h
  exact mediumMountEffect_ev (by decide) (Evolves.refl _)

theorem execPresencePoll_ev {signature : Bool} {s : State} {t' : State}
    (h : execPresencePoll signature s = .next t') :
    Evolves (mask [.clk, .params, .tables, .tenants, .ports, .time, .perf, .canopy, .store, .droop]) s t' := by
  unfold execPresencePoll at h
  obtain ⟨_, rfl⟩ := live_eq_next h
  exact presencePollEffect_ev (by decide) (Evolves.refl _)

theorem execStoreCommandEnd_ev {o : StoreOutcome} {s : State} {t' : State} (h : execStoreCommandEnd o s = .next t') :
    Evolves (mask [.params, .tables, .perf, .canopy, .store]) s t' := by
  unfold execStoreCommandEnd at h
  obtain ⟨_, rfl⟩ := live_eq_next h
  exact storeCommandEndEffect_ev (by decide) (Evolves.refl _)

theorem execPowerUpScan_ev {first : PageRead} {middle : PageRead} {last : PageRead} {s : State} {t' : State}
    (h : execPowerUpScan first middle last s = .next t') :
    Evolves (mask [.params, .tables, .perf, .store, .safety]) s t' := by
  unfold execPowerUpScan at h
  obtain ⟨_, rfl⟩ := live_eq_next h
  exact powerUpScanEffect_ev (by decide) (Evolves.refl _)

theorem execCoppiceRefresh_ev {b : Nat} {m : BlockMove} {s : State} {t' : State}
    (h : execCoppiceRefresh b m s = .next t') :
    Evolves (mask [.params, .tables, .perf, .store, .safety]) s t' := by
  unfold execCoppiceRefresh at h
  obtain ⟨_, rfl⟩ := live_eq_next h
  exact coppiceRefreshEffect_ev (by decide) (Evolves.refl _)

theorem execWearLevellingMove_ev {m : BlockMove} {s : State} {t' : State} (h : execWearLevellingMove m s = .next t') :
    Evolves (mask [.clk, .params, .tables, .tenants, .ports, .time, .perf, .store, .safety, .droop]) s t' := by
  unfold execWearLevellingMove at h
  obtain ⟨_, rfl⟩ := live_eq_next h
  exact wearLevellingMoveEffect_ev (by decide) (Evolves.refl _)

theorem execAgeDay_ev {s : State} {t' : State} (h : execAgeDay s = .next t') :
    Evolves (mask [.clk, .params, .tables, .tenants, .ports, .time, .perf, .store, .droop]) s t' := by
  unfold execAgeDay at h
  obtain ⟨_, rfl⟩ := live_eq_next h
  exact ageDayEffect_ev (by decide) (Evolves.refl _)

theorem execTargetBusyTimeout_ev {t : Fin 4} {s : State} {t' : State} (h : execTargetBusyTimeout t s = .next t') :
    Evolves (mask [.mgmt, .params, .tables, .frames, .ports, .canopy, .store, .safety]) s t' := by
  unfold execTargetBusyTimeout at h
  obtain ⟨_, rfl⟩ := live_eq_next h
  exact targetBusyTimeoutEffect_ev (by decide) (Evolves.refl _)

theorem execBlockEraseEnd_ev {b : Nat} {failed : Bool} {s : State} {t' : State}
    (h : execBlockEraseEnd b failed s = .next t') :
    Evolves (mask [.params, .tables, .store]) s t' := by
  unfold execBlockEraseEnd at h
  obtain ⟨_, rfl⟩ := live_eq_next h
  exact blockEraseEndEffect_ev (by decide) (Evolves.refl _)

theorem execPoweredTimeJournal_ev {s : State} {t' : State} (h : execPoweredTimeJournal s = .next t') :
    Evolves (mask [.clk, .free, .params, .tables, .tenants, .ports, .time, .perf, .store, .droop]) s t' := by
  unfold execPoweredTimeJournal at h
  obtain ⟨_, rfl⟩ := live_eq_next h
  exact poweredTimeJournalEffect_ev (by decide) (Evolves.refl _)

theorem execXferReadEnd_ev {c : Fin 16} {r : HostRead} {ecc : Bool} {s : State} {t' : State}
    (h : execXferReadEnd c r ecc s = .next t') :
    Evolves (mask [.free, .mgmt, .params, .tables, .links, .perf, .chans, .scratch, .store, .safety]) s t' := by
  unfold execXferReadEnd at h
  obtain ⟨_, rfl⟩ := live_eq_next h
  exact xferReadEndEffect_ev (by decide) (Evolves.refl _)

theorem execXferReadTimeout_ev {c : Fin 16} {s : State} {t' : State} (h : execXferReadTimeout c s = .next t') :
    Evolves (mask [.clk, .params, .tables, .tenants, .ports, .time, .perf, .chans, .droop]) s t' := by
  unfold execXferReadTimeout at h
  obtain ⟨_, rfl⟩ := live_eq_next h
  exact xferReadTimeoutEffect_ev (by decide) (Evolves.refl _)

theorem execXferDrainEnd_ev {c : Fin 16} {s : State} {t' : State} (h : execXferDrainEnd c s = .next t') :
    Evolves (mask [.chans]) s t' := by
  unfold execXferDrainEnd at h
  obtain ⟨_, rfl⟩ := live_eq_next h
  exact xferDrainEndEffect_ev (by decide) (Evolves.refl _)

theorem execExtFlowReadEnd_ev {r : FlowEnd} {s : State} {t' : State} (h : execExtFlowReadEnd r s = .next t') :
    Evolves (mask [.clk, .free, .mgmt, .params, .tables, .tenants, .links, .frames, .nextFrame, .ports, .thicket,
      .time, .perf, .canopy, .store, .safety, .droop]) s t' := by
  unfold execExtFlowReadEnd at h
  obtain ⟨_, rfl⟩ := live_eq_next h
  exact extFlowReadEndEffect_ev (by decide) (Evolves.refl _)

theorem execParamOpEnd_ev {w : Fin 5} {s : State} {t' : State} (h : execParamOpEnd w s = .next t') :
    Evolves (mask [.bus, .wins, .mgmt, .params, .tables, .locks, .tenants, .links, .frames, .ports, .lanes,
      .thicket, .time, .perf, .chans, .lastChan, .canopy, .scratch, .fences, .store, .safety, .pair]) s t' := by
  unfold execParamOpEnd at h
  obtain ⟨_, rfl⟩ := live_eq_next h
  exact paramOpEndEffect_ev (by decide) (Evolves.refl _)

theorem execTableOpEnd_ev {w : Fin 5} {s : State} {t' : State} (h : execTableOpEnd w s = .next t') :
    Evolves (mask [.wins]) s t' := by
  unfold execTableOpEnd at h
  obtain ⟨_, rfl⟩ := live_eq_next h
  exact tableOpEndEffect_ev (by decide) (Evolves.refl _)

theorem execEpochBoundary_ev {s : State} {t' : State} (h : execEpochBoundary s = .next t') :
    Evolves (mask [.clk, .params, .tables, .tenants, .ports, .time, .perf, .chans, .scratch, .pair,
      .droop]) s t' := by
  unfold execEpochBoundary at h
  obtain ⟨_, rfl⟩ := live_eq_next h
  exact epochBoundaryEffect_ev (by decide) (Evolves.refl _)

theorem execDataFrame_ev {f : RideFrame} {ecc : Bool} {s : State} {t' : State}
    (h : execDataFrame f ecc s = .next t') :
    Evolves (mask [.mgmt, .params, .tables, .locks, .tenants, .links, .frames, .ports, .perf, .chans, .lastChan,
      .canopy, .safety, .pair]) s t' := by
  unfold execDataFrame at h
  obtain ⟨_, rfl⟩ := live_eq_next h
  exact dataFrameEffect_ev (by decide) (Evolves.refl _)

theorem execCommitFrame_ev {c : CommitIn} {s : State} {t' : State} (h : execCommitFrame c s = .next t') :
    Evolves (mask [.bus, .wins, .mgmt, .params, .tables, .locks, .tenants, .links, .frames, .ports, .lanes,
      .thicket, .time, .perf, .chans, .lastChan, .canopy, .scratch, .fences, .store, .safety, .pair]) s t' := by
  unfold execCommitFrame at h
  obtain ⟨_, rfl⟩ := live_eq_next h
  exact commitFrameEffect_ev (by decide) (Evolves.refl _)

theorem execEpochTimeout_ev {s : State} {t' : State} (h : execEpochTimeout s = .next t') :
    Evolves (mask [.clk, .params, .tables, .tenants, .ports, .time, .perf, .chans, .pair, .droop]) s t' := by
  unfold execEpochTimeout at h
  obtain ⟨_, rfl⟩ := live_eq_next h
  exact epochTimeoutEffect_ev (by decide) (Evolves.refl _)

theorem execXferPacedBurst_ev {c : Fin 16} {io : BurstIo} {s : State} {t' : State}
    (h : execXferPacedBurst c io s = .next t') :
    Evolves (mask [.free, .mgmt, .params, .tables, .locks, .tenants, .links, .frames, .ports, .perf, .chans,
      .lastChan, .canopy, .scratch, .store, .safety, .pair]) s t' := by
  unfold execXferPacedBurst at h
  obtain ⟨_, rfl⟩ := live_eq_next h
  exact xferPacedBurstEffect_ev (by decide) (Evolves.refl _)

theorem execXferChannelEnd_ev {e : ChanEnd} {s : State} {t' : State} (h : execXferChannelEnd e s = .next t') :
    Evolves (mask [.bus, .wins, .mgmt, .params, .tables, .locks, .tenants, .links, .frames, .ports, .lanes,
      .thicket, .time, .perf, .chans, .lastChan, .canopy, .scratch, .fences, .store, .safety, .pair]) s t' := by
  unfold execXferChannelEnd at h
  obtain ⟨_, rfl⟩ := live_eq_next h
  exact channelEnd_ev (by decide) (Evolves.refl _)

theorem execRideLinkUp_ev {s : State} {t' : State} (h : execRideLinkUp s = .next t') :
    Evolves (mask [.pair]) s t' := by
  unfold execRideLinkUp at h
  obtain ⟨_, rfl⟩ := live_eq_next h
  exact rideLinkUpEffect_ev (by decide) (Evolves.refl _)

theorem execRideLinkDown_ev {s : State} {t' : State} (h : execRideLinkDown s = .next t') :
    Evolves (mask [.params, .tables, .chans, .pair]) s t' := by
  unfold execRideLinkDown at h
  obtain ⟨_, rfl⟩ := live_eq_next h
  exact rideDown_ev (by decide) (Evolves.refl _)

theorem execHelloSend_ev {s : State} {t' : State} (h : execHelloSend s = .next t') :
    Evolves (mask [.clk, .params, .tables, .tenants, .ports, .time, .perf, .pair, .droop]) s t' := by
  unfold execHelloSend at h
  obtain ⟨_, rfl⟩ := live_eq_next h
  exact helloSendEffect_ev (by decide) (Evolves.refl _)

theorem execHelloFrame_ev {f : RideFrame} {s : State} {t' : State} (h : execHelloFrame f s = .next t') :
    Evolves (mask [.tables, .chans, .pair]) s t' := by
  unfold execHelloFrame at h
  obtain ⟨_, rfl⟩ := live_eq_next h
  exact helloFrameEffect_ev (by decide) (Evolves.refl _)

theorem execAckFrame_ev {f : RideFrame} {s : State} {t' : State} (h : execAckFrame f s = .next t') :
    Evolves (mask [.chans, .pair]) s t' := by
  unfold execAckFrame at h
  obtain ⟨_, rfl⟩ := live_eq_next h
  exact ackFrameEffect_ev (by decide) (Evolves.refl _)

theorem execNakFrame_ev {f : RideFrame} {s : State} {t' : State} (h : execNakFrame f s = .next t') :
    Evolves (mask [.params, .tables, .chans, .pair]) s t' := by
  unfold execNakFrame at h
  obtain ⟨_, rfl⟩ := live_eq_next h
  exact nakFrameEffect_ev (by decide) (Evolves.refl _)

theorem execRetransmissionTimeout_ev {s : State} {t' : State} (h : execRetransmissionTimeout s = .next t') :
    Evolves (mask [.clk, .params, .tables, .tenants, .ports, .time, .perf, .chans, .pair, .droop]) s t' := by
  unfold execRetransmissionTimeout at h
  obtain ⟨_, rfl⟩ := live_eq_next h
  exact retransmissionTimeoutEffect_ev (by decide) (Evolves.refl _)

theorem execDiscardedRideFrame_ev {bytes : List Byte} {s : State} {t' : State}
    (h : execDiscardedRideFrame bytes s = .next t') :
    Evolves (mask [.pair]) s t' := by
  unfold execDiscardedRideFrame at h
  obtain ⟨_, rfl⟩ := live_eq_next h
  exact discardedRideFrameEffect_ev (by decide) (Evolves.refl _)

theorem execHeartbeatSend_ev {s : State} {t' : State} (h : execHeartbeatSend s = .next t') :
    Evolves (mask [.clk, .params, .tables, .tenants, .ports, .time, .perf, .pair, .droop]) s t' := by
  unfold execHeartbeatSend at h
  obtain ⟨_, rfl⟩ := live_eq_next h
  exact heartbeatSendEffect_ev (by decide) (Evolves.refl _)

theorem execHeartbeatFrame_ev {f : RideFrame} {s : State} {t' : State} (h : execHeartbeatFrame f s = .next t') :
    Evolves (mask [.params, .tables, .ports, .time, .chans, .pair]) s t' := by
  unfold execHeartbeatFrame at h
  obtain ⟨_, rfl⟩ := live_eq_next h
  exact heartbeatFrameEffect_ev (by decide) (Evolves.refl _)

theorem execHeartbeatLoss_ev {s : State} {t' : State} (h : execHeartbeatLoss s = .next t') :
    Evolves (mask [.clk, .params, .tables, .locks, .tenants, .links, .frames, .ports, .time, .perf, .chans,
      .lastChan, .canopy, .safety, .pair, .droop]) s t' := by
  unfold execHeartbeatLoss at h
  obtain ⟨_, rfl⟩ := live_eq_next h
  exact heartbeatLossEffect_ev (by decide) (Evolves.refl _)

theorem execWitnessBeacon_ev {p : Fin 32} {s : State} {t' : State} (h : execWitnessBeacon p s = .next t') :
    Evolves (mask [.clk, .params, .tables, .tenants, .ports, .time, .perf, .pair, .droop]) s t' := by
  unfold execWitnessBeacon at h
  obtain ⟨_, rfl⟩ := live_eq_next h
  exact witnessBeaconEffect_ev (by decide) (Evolves.refl _)

theorem execPartnerBeaconLoss_ev {s : State} {t' : State} (h : execPartnerBeaconLoss s = .next t') :
    Evolves (mask [.clk, .params, .tables, .tenants, .ports, .time, .perf, .pair, .droop]) s t' := by
  unfold execPartnerBeaconLoss at h
  obtain ⟨_, rfl⟩ := live_eq_next h
  exact partnerBeaconLossEffect_ev (by decide) (Evolves.refl _)

theorem execWitnessWindowExpiry_ev {s : State} {t' : State} (h : execWitnessWindowExpiry s = .next t') :
    Evolves (mask [.clk, .params, .tables, .locks, .tenants, .links, .frames, .ports, .time, .perf, .chans,
      .lastChan, .canopy, .safety, .pair, .droop]) s t' := by
  unfold execWitnessWindowExpiry at h
  obtain ⟨_, rfl⟩ := live_eq_next h
  exact witnessWindowExpiryEffect_ev (by decide) (Evolves.refl _)

theorem execPartitionTimeout_ev {s : State} {t' : State} (h : execPartitionTimeout s = .next t') :
    Evolves (mask [.clk, .params, .tables, .locks, .tenants, .links, .frames, .ports, .time, .perf, .chans,
      .lastChan, .canopy, .safety, .pair, .droop]) s t' := by
  unfold execPartitionTimeout at h
  obtain ⟨_, rfl⟩ := live_eq_next h
  exact partitionTimeoutEffect_ev (by decide) (Evolves.refl _)

theorem execSwitchRequest_ev {f : RideFrame} {s : State} {t' : State} (h : execSwitchRequest f s = .next t') :
    Evolves (mask [.params, .tables, .locks, .tenants, .links, .frames, .ports, .perf, .chans, .lastChan,
      .canopy, .safety, .pair]) s t' := by
  unfold execSwitchRequest at h
  obtain ⟨_, rfl⟩ := live_eq_next h
  exact switchRequestEffect_ev (by decide) (Evolves.refl _)

theorem execSwitchDone_ev {f : RideFrame} {s : State} {t' : State} (h : execSwitchDone f s = .next t') :
    Evolves (mask [.tables, .chans, .pair]) s t' := by
  unfold execSwitchDone at h
  obtain ⟨_, rfl⟩ := live_eq_next h
  exact switchDoneEffect_ev (by decide) (Evolves.refl _)

theorem execSwitchoverTimeout_ev {s : State} {t' : State} (h : execSwitchoverTimeout s = .next t') :
    Evolves (mask [.clk, .params, .tables, .locks, .tenants, .links, .frames, .ports, .time, .perf, .chans,
      .lastChan, .canopy, .safety, .pair, .droop]) s t' := by
  unfold execSwitchoverTimeout at h
  obtain ⟨_, rfl⟩ := live_eq_next h
  exact switchoverTimeoutEffect_ev (by decide) (Evolves.refl _)

theorem execLeaveFrame_ev {f : RideFrame} {s : State} {t' : State} (h : execLeaveFrame f s = .next t') :
    Evolves (mask [.tables, .locks, .tenants, .links, .frames, .ports, .perf, .chans, .lastChan, .canopy,
      .safety, .pair]) s t' := by
  unfold execLeaveFrame at h
  obtain ⟨_, rfl⟩ := live_eq_next h
  exact leaveFrameEffect_ev (by decide) (Evolves.refl _)

theorem execPeriodicTest_ev {c : Fin 48} {i : Fin 25} {e : TestEnd} {s : State} {t' : State}
    (h : execPeriodicTest c i e s = .next t') :
    Evolves (mask [.clk, .free, .wins, .mgmt, .params, .tables, .locks, .tenants, .links, .frames, .ports,
      .lanes, .thicket, .time, .perf, .chans, .lastChan, .canopy, .scratch, .store, .safety, .pair, .start,
      .droop]) s t' := by
  unfold execPeriodicTest at h
  obtain ⟨_, rfl⟩ := live_eq_next h
  exact periodicTestEffect_ev (by decide) (Evolves.refl _)

theorem execDetectorDisagreement_ev {i : Fin 25} {s : State} {t' : State}
    (h : execDetectorDisagreement i s = .next t') :
    Evolves (mask [.free, .wins, .mgmt, .params, .tables, .locks, .tenants, .links, .frames, .ports, .lanes,
      .thicket, .perf, .chans, .lastChan, .canopy, .scratch, .store, .safety, .pair, .start]) s t' := by
  unfold execDetectorDisagreement at h
  obtain ⟨_, rfl⟩ := live_eq_next h
  exact detectorDisagreementEffect_ev (by decide) (Evolves.refl _)

theorem execKnownAnswerProbe_ev {passed : Bool} {s : State} {t' : State}
    (h : execKnownAnswerProbe passed s = .next t') :
    Evolves (mask [.free, .wins, .mgmt, .params, .tables, .locks, .tenants, .links, .frames, .ports, .lanes,
      .thicket, .perf, .chans, .lastChan, .canopy, .scratch, .store, .safety, .pair, .start]) s t' := by
  unfold execKnownAnswerProbe at h
  obtain ⟨_, rfl⟩ := live_eq_next h
  exact knownAnswerProbeEffect_ev (by decide) (Evolves.refl _)

theorem execSelfCheckEnd_ev {failed : List (Fin 48 × Fin 25)} {s : State} {t' : State}
    (h : execSelfCheckEnd failed s = .next t') :
    Evolves (mask [.free, .wins, .mgmt, .params, .tables, .locks, .tenants, .links, .frames, .ports, .lanes,
      .thicket, .perf, .chans, .lastChan, .canopy, .scratch, .store, .safety, .pair, .power, .start]) s t' := by
  unfold execSelfCheckEnd at h
  obtain ⟨_, rfl⟩ := live_eq_next h
  exact selfCheckEndEffect_ev (by decide) (Evolves.refl _)

theorem execMemoryInitialisationEnd_ev {s : State} {t' : State} (h : execMemoryInitialisationEnd s = .next t') :
    Evolves (mask [.wins, .params, .tables, .tenants, .links, .frames, .ports, .lanes, .perf, .chans, .canopy,
      .store, .safety, .power, .start]) s t' := by
  unfold execMemoryInitialisationEnd at h
  obtain ⟨_, rfl⟩ := live_eq_next h
  exact memoryInitialisationEndEffect_ev (by decide) (Evolves.refl _)

theorem execSafetyWatchdogExpiry_ev {s : State} {t' : State} (h : execSafetyWatchdogExpiry s = .next t') :
    Evolves (mask [.clk, .free, .mgmt, .params, .tables, .locks, .tenants, .links, .frames, .ports, .time, .perf,
      .chans, .canopy, .store, .safety, .start, .droop]) s t' := by
  unfold execSafetyWatchdogExpiry at h
  obtain ⟨_, rfl⟩ := live_eq_next h
  exact safetyWatchdogExpiryEffect_ev (by decide) (Evolves.refl _)

theorem execHandshakeTimeout_ev {a : Fin 25} {b : Fin 25} {s : State} {t' : State}
    (h : execHandshakeTimeout a b s = .next t') :
    Evolves (mask [.free, .mgmt, .params, .tables, .locks, .tenants, .links, .frames, .ports, .perf, .chans,
      .canopy, .store, .safety, .start]) s t' := by
  unfold execHandshakeTimeout at h
  obtain ⟨_, rfl⟩ := live_eq_next h
  exact handshakeTimeoutEffect_ev (by decide) (Evolves.refl _)

theorem execKeepAlive_ev {_i : Fin 25} {s : State} {t' : State} (h : execKeepAlive _i s = .next t') :
    Evolves (mask []) s t' := by
  unfold execKeepAlive at h
  obtain ⟨_, rfl⟩ := live_eq_next h
  exact Evolves.refl _

theorem execTxSchedule_ev {t : Fin 4} {ecc : Bool} {s : State} {t' : State} (h : execTxSchedule t ecc s = .next t') :
    Evolves (mask [.free, .mgmt, .params, .tables, .locks, .tenants, .links, .frames, .ports, .perf, .chans,
      .lastChan, .canopy, .store, .safety, .start]) s t' := by
  unfold execTxSchedule at h
  obtain ⟨_, rfl⟩ := live_eq_next h
  repeat' first
    | intro _ | with_reducible assumption | with_reducible apply Evolves.ite | with_reducible exact Evolves.refl _
    | with_reducible apply txScheduleEffect_ev (by decide) | with_reducible apply eccTenant_ev (by decide)
    | with_reducible apply afterEcc_ev (by decide) | split | (dsimp only; split)

theorem execTxBufferReadEnd_ev {t : Fin 4} {h : HostRead} {ecc : Bool} {s : State} {t' : State}
    (h : execTxBufferReadEnd t h ecc s = .next t') :
    Evolves (mask [.free, .mgmt, .params, .tables, .locks, .tenants, .links, .frames, .ports, .perf, .chans,
      .lastChan, .canopy, .store, .safety, .start]) s t' := by
  unfold execTxBufferReadEnd at h
  obtain ⟨_, rfl⟩ := live_eq_next h
  repeat' first
    | intro _ | with_reducible assumption | with_reducible apply Evolves.ite | with_reducible exact Evolves.refl _
    | with_reducible apply txBufferReadEndEffect_ev (by decide) | with_reducible apply eccTenant_ev (by decide)
    | with_reducible apply afterEcc_ev (by decide) | split | (dsimp only; split)

theorem execTxGladeAdmission_ev {t : Fin 4} {r : Fin 132} {ecc : Bool} {s : State} {t' : State}
    (h : execTxGladeAdmission t r ecc s = .next t') :
    Evolves (mask [.free, .mgmt, .params, .tables, .locks, .tenants, .links, .frames, .nextFrame, .ports, .perf,
      .chans, .canopy, .store, .safety, .start]) s t' := by
  unfold execTxGladeAdmission at h
  obtain ⟨_, rfl⟩ := live_eq_next h
  repeat' first
    | intro _ | with_reducible assumption | with_reducible apply Evolves.ite | with_reducible exact Evolves.refl _
    | with_reducible apply txGladeAdmissionEffect_ev (by decide) | with_reducible apply eccMark_ev (by decide)
    | with_reducible apply afterEcc_ev (by decide) | split | (dsimp only; split)

theorem execGateChange_ev {p : Fin 32} {ecc : Bool} {s : State} {t' : State} (h : execGateChange p ecc s = .next t') :
    Evolves (mask [.clk, .free, .mgmt, .params, .tables, .locks, .tenants, .links, .frames, .ports, .time, .perf,
      .chans, .canopy, .store, .safety, .start, .droop]) s t' := by
  unfold execGateChange at h
  obtain ⟨_, rfl⟩ := live_eq_next h
  repeat' first
    | intro _ | with_reducible assumption | with_reducible apply Evolves.ite | with_reducible exact Evolves.refl _
    | with_reducible apply preemptWire_ev (by decide) | with_reducible apply gateChangeEffect_ev (by decide)
    | with_reducible apply eccRow_ev (by decide) | split | (dsimp only; split)

theorem execThicketResolve_ev {ecc : EccHit} {s : State} {t' : State} (h : execThicketResolve ecc s = .next t') :
    Evolves (mask [.free, .mgmt, .params, .tables, .locks, .tenants, .links, .frames, .nextFrame, .ports,
      .thicket, .perf, .chans, .canopy, .store, .safety, .start]) s t' := by
  unfold execThicketResolve at h
  obtain ⟨_, rfl⟩ := live_eq_next h
  repeat' first
    | intro _ | with_reducible assumption | with_reducible apply Evolves.ite | with_reducible exact Evolves.refl _
    | with_reducible apply thicketResolveEffect_ev (by decide) | with_reducible apply eccRow_ev (by decide) | split
    | (dsimp only; split)

theorem execPageBuild_ev {k : Fin 64} {ecc : EccHit} {s : State} {t' : State} (h : execPageBuild k ecc s = .next t') :
    Evolves (mask [.free, .mgmt, .params, .tables, .locks, .tenants, .links, .frames, .ports, .perf, .chans,
      .canopy, .store, .safety, .start]) s t' := by
  unfold execPageBuild at h
  obtain ⟨_, rfl⟩ := live_eq_next h
  exact buildOr_ev (by decide) (fun _ h => pageBuildEffect_ev (by decide) h) (Evolves.refl _)

theorem execCanopyFillEnd_ev {t : Fin 4} {r : HostRead} {ecc : Option CanopyHit} {s : State} {t' : State}
    (h : execCanopyFillEnd t r ecc s = .next t') :
    Evolves (mask [.free, .mgmt, .params, .tables, .locks, .tenants, .links, .frames, .ports, .perf, .chans,
      .canopy, .store, .safety, .start]) s t' := by
  unfold execCanopyFillEnd at h
  obtain ⟨_, rfl⟩ := live_eq_next h
  repeat' first
    | intro _ | with_reducible assumption | with_reducible apply Evolves.ite | with_reducible exact Evolves.refl _
    | with_reducible apply canopyHit_ev (by decide) | with_reducible apply canopyFillEndEffect_ev (by decide) | split
    | (dsimp only; split)

theorem execFrameReceive_ev {p : Fin 32} {f : RxFrame} {s : State} {t' : State}
    (h : execFrameReceive p f s = .next t') :
    Evolves (mask [.mgmt, .params, .tables, .ports, .perf, .pair, .power, .start]) s t' := by
  unfold execFrameReceive at h
  obtain ⟨_, rfl⟩ := live_eq_next h
  exact frameReceiveEffect_ev (by decide) (Evolves.refl _)

theorem execTxFrameEnd_ev {p : Fin 32} {s : State} {t' : State} (h : execTxFrameEnd p s = .next t') :
    Evolves (mask [.clk, .mgmt, .params, .tables, .locks, .tenants, .links, .frames, .ports, .time, .perf,
      .chans, .lastChan, .canopy, .safety, .pair, .power, .start, .droop]) s t' := by
  unfold execTxFrameEnd at h
  obtain ⟨_, rfl⟩ := live_eq_next h
  exact txFrameEndEffect_ev (by decide) (Evolves.refl _)

theorem execLinkUp_ev {p : Fin 32} {s : State} {t' : State} (h : execLinkUp p s = .next t') :
    Evolves (mask [.clk, .mgmt, .params, .tables, .tenants, .ports, .time, .perf, .power, .start, .droop]) s t' := by
  unfold execLinkUp at h
  obtain ⟨_, rfl⟩ := live_eq_next h
  exact linkUpEffect_ev (by decide) (Evolves.refl _)

theorem execPpsOutPulse_ev {s : State} {t' : State} (h : execPpsOutPulse s = .next t') :
    Evolves (mask [.clk, .params, .tables, .tenants, .ports, .time, .perf, .droop]) s t' := by
  unfold execPpsOutPulse at h
  obtain ⟨_, rfl⟩ := live_eq_next h
  exact ppsOutPulseEffect_ev (by decide) (Evolves.refl _)

theorem execPpsOutEnd_ev {s : State} {t' : State} (h : execPpsOutEnd s = .next t') :
    Evolves (mask [.clk, .params, .tables, .tenants, .ports, .time, .perf, .droop]) s t' := by
  unfold execPpsOutEnd at h
  obtain ⟨_, rfl⟩ := live_eq_next h
  exact ppsOutEndEffect_ev (by decide) (Evolves.refl _)

theorem execPpsInCapture_ev {edge : Edge} {s : State} {t' : State} (h : execPpsInCapture edge s = .next t') :
    Evolves (mask [.wins, .tables, .time]) s t' := by
  unfold execPpsInCapture at h
  obtain ⟨_, rfl⟩ := live_eq_next h
  exact ppsInCaptureEffect_ev (by decide) (Evolves.refl _)

theorem execEvtInCapture_ev {e : Fin 2} {edge : Edge} {s : State} {t' : State}
    (h : execEvtInCapture e edge s = .next t') :
    Evolves (mask [.wins, .mgmt, .params, .tables, .time, .power, .start]) s t' := by
  unfold execEvtInCapture at h
  obtain ⟨_, rfl⟩ := live_eq_next h
  exact evtInCaptureEffect_ev (by decide) (Evolves.refl _)

theorem execTimebasePllLock_ev {s : State} {t' : State} (h : execTimebasePllLock s = .next t') :
    Evolves (mask [.time, .power]) s t' := by
  unfold execTimebasePllLock at h
  obtain ⟨_, rfl⟩ := live_eq_next h
  exact timebasePllLockEffect_ev (by decide) (Evolves.refl _)

theorem execPllLockLoss_ev {s : State} {t' : State} (h : execPllLockLoss s = .next t') :
    Evolves (mask [.free, .mgmt, .params, .tables, .locks, .tenants, .links, .frames, .ports, .time, .perf,
      .chans, .canopy, .store, .safety, .start]) s t' := by
  unfold execPllLockLoss at h
  obtain ⟨_, rfl⟩ := live_eq_next h
  exact pllLockLossEffect_ev (by decide) (Evolves.refl _)

theorem execFixedCycleCounterWrap_ev {s : State} {t' : State} (h : execFixedCycleCounterWrap s = .next t') :
    Evolves (mask [.clk, .params, .tables, .tenants, .ports, .time, .perf, .droop]) s t' := by
  unfold execFixedCycleCounterWrap at h
  obtain ⟨_, rfl⟩ := live_eq_next h
  exact fixedCycleCounterWrapEffect_ev (by decide) (Evolves.refl _)

theorem execProgrammableCounterWrap_ev {n : Fin 8} {s : State} {t' : State}
    (h : execProgrammableCounterWrap n s = .next t') :
    Evolves (mask [.clk, .params, .tables, .tenants, .ports, .time, .perf, .droop]) s t' := by
  unfold execProgrammableCounterWrap at h
  obtain ⟨_, rfl⟩ := live_eq_next h
  exact programmableCounterWrapEffect_ev (by decide) (Evolves.refl _)

theorem execPhaseSlewDecrement_ev {s : State} {t' : State} (h : execPhaseSlewDecrement s = .next t') :
    Evolves (mask [.clk, .params, .tables, .tenants, .ports, .time, .perf, .droop]) s t' := by
  unfold execPhaseSlewDecrement at h
  obtain ⟨_, rfl⟩ := live_eq_next h
  exact phaseSlewDecrementEffect_ev (by decide) (Evolves.refl _)

theorem execBandwidthWindowEnd_ev {s : State} {t' : State} (h : execBandwidthWindowEnd s = .next t') :
    Evolves (mask [.clk, .params, .tables, .tenants, .ports, .time, .perf, .droop]) s t' := by
  unfold execBandwidthWindowEnd at h
  obtain ⟨_, rfl⟩ := live_eq_next h
  exact bandwidthWindowEndEffect_ev (by decide) (Evolves.refl _)

theorem execPresentation_ev {w : Fin 5} {s : State} {t' : State} (h : execPresentation w s = .next t') :
    Evolves (mask [.clk, .wins, .params, .tables, .tenants, .links, .ports, .time, .perf, .droop]) s t' := by
  unfold execPresentation at h
  obtain ⟨_, rfl⟩ := live_eq_next h
  exact presentationEffect_ev (by decide) (Evolves.refl _)

theorem execDroopTrip_ev {i : Fin 25} {high : Bool} {s : State} {t' : State} (h : execDroopTrip i high s = .next t') :
    Evolves (mask [.droop]) s t' := by
  unfold execDroopTrip at h
  obtain ⟨_, rfl⟩ := live_eq_next h
  exact droopTripEffect_ev (by decide) (Evolves.refl _)

theorem execDroopClear_ev {i : Fin 25} {high : Bool} {s : State} {t' : State}
    (h : execDroopClear i high s = .next t') :
    Evolves (mask [.droop]) s t' := by
  unfold execDroopClear at h
  obtain ⟨_, rfl⟩ := live_eq_next h
  exact droopClearEffect_ev (by decide) (Evolves.refl _)

theorem execStretchBudgetWindowEnd_ev {s : State} {t' : State} (h : execStretchBudgetWindowEnd s = .next t') :
    Evolves (mask [.clk, .params, .tables, .tenants, .ports, .time, .perf, .droop]) s t' := by
  unfold execStretchBudgetWindowEnd at h
  obtain ⟨_, rfl⟩ := live_eq_next h
  exact stretchBudgetWindowEndEffect_ev (by decide) (Evolves.refl _)

theorem execThermalSample_ev {readings : List Int} {s : State} {t' : State}
    (h : execThermalSample readings s = .next t') :
    Evolves (mask [.clk, .free, .mgmt, .params, .tables, .locks, .tenants, .links, .frames, .ports, .time, .perf,
      .chans, .canopy, .store, .safety, .power, .start, .droop]) s t' := by
  unfold execThermalSample at h
  obtain ⟨_, rfl⟩ := live_eq_next h
  exact thermalSampleEffect_ev (by decide) (Evolves.refl _)

theorem execOdometerSecond_ev {s : State} {t' : State} (h : execOdometerSecond s = .next t') :
    Evolves (mask [.clk, .params, .tables, .tenants, .ports, .time, .perf, .power, .droop]) s t' := by
  unfold execOdometerSecond at h
  obtain ⟨_, rfl⟩ := live_eq_next h
  exact odometerSecondEffect_ev (by decide) (Evolves.refl _)

theorem execHourlyMeasurement_ev {readings : List MonReading} {nvGood : Bool} {s : State} {t' : State}
    (h : execHourlyMeasurement readings nvGood s = .next t') :
    Evolves (mask [.clk, .mgmt, .params, .tables, .tenants, .ports, .time, .perf, .safety, .power, .droop]) s t' := by
  unfold execHourlyMeasurement at h
  obtain ⟨_, rfl⟩ := live_eq_next h
  exact hourlyMeasurementEffect_ev (by decide) (Evolves.refl _)

theorem execResetNAssert_ev {lowNs : Nat} {s : State} {t' : State} (h : execResetNAssert lowNs s = .next t') :
    Evolves (mask [.free, .bus, .wins, .mgmt, .image, .params, .tables, .locks, .tenants, .links, .frames,
      .nextFrame, .ports, .lanes, .mdio, .thicket, .time, .perf, .chans, .lastChan, .canopy, .scratch, .fences,
      .store, .safety, .pair, .power, .start, .droop, .tap, .bsr]) s t' := by
  unfold execResetNAssert at h
  cases h
  exact resetNAssertEffect_ev (by decide) (Evolves.refl _)

theorem execResetNRelease_ev {r : RecordUse} {s : State} {t' : State} (h : execResetNRelease r s = .next t') :
    Evolves (mask [.bus, .mgmt, .params, .tables, .safety, .power, .start]) s t' := by
  unfold execResetNRelease at h
  cases h
  exact resetNReleaseEffect_ev (by decide) (Evolves.refl _)

theorem execInternalResetRelease_ev {nv : NvRead} {s : State} {t' : State}
    (h : execInternalResetRelease nv s = .next t') :
    Evolves (mask [.clk, .bus, .params, .tables, .tenants, .ports, .time, .perf, .safety, .power, .start,
      .droop]) s t' := by
  unfold execInternalResetRelease at h
  cases h
  exact internalResetReleaseEffect_ev (by decide) (Evolves.refl _)

theorem execSupplyLoss_ev {s : State} {t' : State} (h : execSupplyLoss s = .next t') :
    Evolves (mask [.bus, .wins, .mgmt, .image, .params, .tables, .locks, .tenants, .links, .frames, .nextFrame,
      .ports, .lanes, .mdio, .thicket, .time, .perf, .chans, .lastChan, .canopy, .scratch, .fences, .store,
      .safety, .pair, .power, .start, .droop, .tap, .bsr]) s t' := by
  unfold execSupplyLoss at h
  cases h
  exact supplyLossEffect_ev (by decide) (Evolves.refl _)

theorem execPowerOn_ev {s : State} {t' : State} (h : execPowerOn s = .next t') :
    Evolves (mask [.clk, .power, .start]) s t' := by
  unfold execPowerOn at h
  cases h
  exact powerOnEffect_ev (by decide) (Evolves.refl _)

theorem execSafetyReset_ev {s : State} {t' : State} (h : execSafetyReset s = .next t') :
    Evolves (mask [.clk, .bus, .wins, .mgmt, .image, .params, .tables, .locks, .tenants, .links, .frames,
      .nextFrame, .ports, .lanes, .mdio, .thicket, .time, .perf, .chans, .lastChan, .canopy, .scratch, .fences,
      .store, .safety, .pair, .power, .start, .droop, .tap, .bsr]) s t' := by
  unfold execSafetyReset at h
  cases h
  exact safetyResetEffect_ev (by decide) (Evolves.refl _)

theorem execTapInstructionLoad_ev {i : TapInstr} {bsr : List Bool} {s : State} {t' : State}
    (h : execTapInstructionLoad i bsr s = .next t') :
    Evolves (mask [.tap, .bsr]) s t' := by
  unfold execTapInstructionLoad at h
  cases h
  exact tapInstructionLoadEffect_ev (by decide) (Evolves.refl _)

theorem execPllLockTimeout_ev {s : State} {t' : State} (h : execPllLockTimeout s = .next t') :
    Evolves (mask [.clk, .free, .wins, .mgmt, .params, .tables, .locks, .tenants, .links, .frames, .ports,
      .lanes, .time, .perf, .chans, .canopy, .store, .safety, .power, .start, .droop]) s t' := by
  unfold execPllLockTimeout at h
  obtain ⟨_, rfl⟩ := live_eq_next h
  exact pllLockTimeoutEffect_ev (by decide) (Evolves.refl _)

theorem execStartupWindowClose_ev {s : State} {t' : State} (h : execStartupWindowClose s = .next t') :
    Evolves (mask [.clk, .wins, .params, .tables, .tenants, .frames, .ports, .time, .perf, .chans, .canopy,
      .store, .safety, .start, .droop]) s t' := by
  unfold execStartupWindowClose at h
  obtain ⟨_, rfl⟩ := live_eq_next h
  exact startupWindowCloseEffect_ev (by decide) (Evolves.refl _)

theorem execTenantResetEnd_ev {t : Fin 4} {s : State} {t' : State} (h : execTenantResetEnd t s = .next t') :
    Evolves (mask [.wins, .params, .tables, .tenants, .frames, .ports, .perf, .chans, .canopy, .safety]) s t' := by
  unfold execTenantResetEnd at h
  obtain ⟨_, rfl⟩ := live_eq_next h
  exact tenantResetEnd_ev (by decide) (Evolves.refl _)

theorem execMgmtResetEnd_ev {s : State} {t' : State} (h : execMgmtResetEnd s = .next t') :
    Evolves (mask [.mgmt]) s t' := by
  unfold execMgmtResetEnd at h
  obtain ⟨_, rfl⟩ := live_eq_next h
  exact mgmtResetEndEffect_ev (by decide) (Evolves.refl _)

theorem execImageLoadEnd_ev {ecc : Option Nat} {s : State} {t' : State} (h : execImageLoadEnd ecc s = .next t') :
    Evolves (mask [.bus, .wins, .mgmt, .image, .params, .tables, .locks, .tenants, .links, .frames, .ports,
      .lanes, .thicket, .time, .perf, .chans, .lastChan, .canopy, .scratch, .fences, .store, .safety, .pair,
      .start]) s t' := by
  unfold execImageLoadEnd at h
  obtain ⟨_, rfl⟩ := live_eq_next h
  exact imageLoadEndEffect_ev (by decide) (Evolves.refl _)

theorem execCbRequest_ev {m : Fin 5} {s : State} {t' : State} (h : execCbRequest m s = .next t') :
    Evolves (mask [.bus]) s t' := by
  unfold execCbRequest at h
  obtain ⟨_, rfl⟩ := live_eq_next h
  exact cbRequestEffect_ev (by decide) (Evolves.refl _)

theorem execCbRequestRelease_ev {m : Fin 5} {s : State} {t' : State} (h : execCbRequestRelease m s = .next t') :
    Evolves (mask [.bus]) s t' := by
  unfold execCbRequestRelease at h
  obtain ⟨_, rfl⟩ := live_eq_next h
  exact cbRequestReleaseEffect_ev (by decide) (Evolves.refl _)

theorem execTenureLimit_ev {s : State} {t' : State} (h : execTenureLimit s = .next t') :
    Evolves (mask [.clk, .bus, .mgmt, .params, .tables, .locks, .tenants, .links, .frames, .ports, .time, .perf,
      .chans, .canopy, .safety, .droop]) s t' := by
  unfold execTenureLimit at h
  obtain ⟨_, rfl⟩ := live_eq_next h
  exact tenureLimitEffect_ev (by decide) (Evolves.refl _)

theorem execHeldStrobe_ev {s : State} {t' : State} (h : execHeldStrobe s = .next t') :
    Evolves (mask [.clk, .bus, .mgmt, .params, .tables, .locks, .tenants, .links, .frames, .ports, .time, .perf,
      .chans, .canopy, .safety, .droop]) s t' := by
  unfold execHeldStrobe at h
  obtain ⟨_, rfl⟩ := live_eq_next h
  exact heldStrobeEffect_ev (by decide) (Evolves.refl _)

theorem execCbReqHoldoffEnd_ev {m : Fin 5} {s : State} {t' : State} (h : execCbReqHoldoffEnd m s = .next t') :
    Evolves (mask [.clk, .bus, .params, .tables, .tenants, .ports, .time, .perf, .droop]) s t' := by
  unfold execCbReqHoldoffEnd at h
  obtain ⟨_, rfl⟩ := live_eq_next h
  exact cbReqHoldoffEndEffect_ev (by decide) (Evolves.refl _)

theorem execCbJam_ev {s : State} {t' : State} (h : execCbJam s = .next t') :
    Evolves (mask [.mgmt, .tables, .safety]) s t' := by
  unfold execCbJam at h
  obtain ⟨_, rfl⟩ := live_eq_next h
  exact cbJamEffect_ev (by decide) (Evolves.refl _)

theorem execCbStrobeDeassert_ev {s : State} {t' : State} (h : execCbStrobeDeassert s = .next t') :
    Evolves (mask [.bus, .mgmt, .params, .tables, .locks, .tenants, .links, .frames, .ports, .perf, .chans,
      .canopy, .safety]) s t' := by
  unfold execCbStrobeDeassert at h
  obtain ⟨_, rfl⟩ := live_eq_next h
  exact cbStrobeDeassertEffect_ev (by decide) (Evolves.refl _)

theorem execRegisterWrite_ev {a : Access} {s : State} {t' : State} (h : execRegisterWrite a s = .next t') :
    Evolves (mask [.free, .bus, .wins, .mgmt, .image, .params, .tables, .locks, .tenants, .links, .frames,
      .nextFrame, .ports, .lanes, .mdio, .thicket, .time, .perf, .chans, .lastChan, .canopy, .scratch, .fences,
      .store, .safety, .pair, .power, .start, .droop, .tap, .bsr]) s t' := by
  unfold execRegisterWrite at h
  obtain ⟨_, rfl⟩ := live_eq_next h
  exact registerAccess_ev (by decide) (Evolves.refl _)

theorem execAnchorRead_ev {p : Path} {r : GroupRead} {s : State} {t' : State} (h : execAnchorRead p r s = .next t') :
    Evolves (mask [.free, .bus, .wins, .mgmt, .params, .tables, .locks, .tenants, .links, .frames, .ports, .perf,
      .chans, .canopy, .store, .safety, .start]) s t' := by
  unfold execAnchorRead at h
  obtain ⟨_, rfl⟩ := live_eq_next h
  exact readAt_evolves (by decide) (by cases r.group <;> decide) (fun _ _ hu => counterHit_ev (by decide) hu) (fun _ _ _ _ hu => readEffect_ev (by decide) hu) (Evolves.refl _)

theorem execAnchorWrite_ev {p : Path} {g : Group} {d : Word} {s : State} {t' : State}
    (h : execAnchorWrite p g d s = .next t') :
    Evolves (mask [.bus, .wins, .mgmt, .params, .tables, .links, .chans, .safety]) s t' := by
  unfold execAnchorWrite at h
  obtain ⟨_, rfl⟩ := live_eq_next h
  refine writeAt_evolves (by decide) (by cases g <;> decide) (fun w _ _ _ hu => regWrite_group_ev (by decide) ?_ ?_ hu) (Evolves.refl _)
  · cases g <;> decide
  · by_cases hw : w = 0
    · subst hw; cases g <;> simp [groupOff, groupAt]
    · cases g <;> simp [groupOff, groupAt, hw]

theorem execNonAnchorWrite_ev {p : Path} {g : Group} {high : Bool} {d : Word} {s : State} {t' : State}
    (h : execNonAnchorWrite p g high d s = .next t') :
    Evolves (mask [.bus, .wins, .mgmt, .params, .tables, .links, .chans, .safety]) s t' := by
  unfold execNonAnchorWrite at h
  obtain ⟨_, rfl⟩ := live_eq_next h
  refine writeAt_evolves (by decide) (by cases g <;> cases high <;> decide) (fun w _ _ _ hu => regWrite_group_ev (by decide) ?_ ?_ hu) (Evolves.refl _)
  · cases g <;> cases high <;> decide
  · by_cases hw : w = 0
    · subst hw; cases g <;> cases high <;> simp [groupOff, groupAt]
    · cases g <;> cases high <;> simp [groupOff, groupAt, hw]

theorem execTblDataAccess_ev {p : Path} {read : Bool} {d : Word} {s : State} {t' : State}
    (h : execTblDataAccess p read d s = .next t') :
    Evolves (mask [.free, .bus, .wins, .mgmt, .params, .tables, .locks, .tenants, .links, .frames, .ports, .perf,
      .chans, .canopy, .store, .safety, .start]) s t' := by
  unfold execTblDataAccess at h
  obtain ⟨_, rfl⟩ := live_eq_next h
  split
  · exact readAt_evolves (by decide) (by decide) (fun _ _ hu => by rwa [counterHit_other (by decide)]) (fun _ _ _ _ hu => readEffect_ev (by decide) hu) (Evolves.refl _)
  · exact writeAt_evolves (by decide) (by decide) (fun _ _ _ _ hu => regWrite_tblData_ev (by decide) hu) (Evolves.refl _)

theorem execParamRead_ev {p : Path} {ecc : Bool} {s : State} {t' : State} (h : execParamRead p ecc s = .next t') :
    Evolves (mask [.free, .bus, .wins, .mgmt, .params, .tables, .locks, .tenants, .links, .frames, .ports,
      .lanes, .thicket, .time, .perf, .chans, .lastChan, .canopy, .scratch, .fences, .store, .safety, .pair,
      .start]) s t' := by
  unfold execParamRead at h
  obtain ⟨_, rfl⟩ := live_eq_next h
  exact writeAt_evolves (by decide) (by decide) (fun _ _ _ _ hu => regWrite_paramPort_ev (by decide) hu) (Evolves.refl _)

theorem execParamWrite_ev {p : Path} {s : State} {t' : State} (h : execParamWrite p s = .next t') :
    Evolves (mask [.free, .bus, .wins, .mgmt, .params, .tables, .locks, .tenants, .links, .frames, .ports,
      .lanes, .thicket, .time, .perf, .chans, .lastChan, .canopy, .scratch, .fences, .store, .safety, .pair,
      .start]) s t' := by
  unfold execParamWrite at h
  obtain ⟨_, rfl⟩ := live_eq_next h
  exact writeAt_evolves (by decide) (by decide) (fun _ _ _ _ hu => regWrite_paramPort_ev (by decide) hu) (Evolves.refl _)

theorem execParamReservedOp_ev {p : Path} {s : State} {t' : State} (h : execParamReservedOp p s = .next t') :
    Evolves (mask [.free, .bus, .wins, .mgmt, .params, .tables, .locks, .tenants, .links, .frames, .ports,
      .lanes, .thicket, .time, .perf, .chans, .lastChan, .canopy, .scratch, .fences, .store, .safety, .pair,
      .start]) s t' := by
  unfold execParamReservedOp at h
  obtain ⟨_, rfl⟩ := live_eq_next h
  exact writeAt_evolves (by decide) (by decide) (fun _ _ _ _ hu => regWrite_paramPort_ev (by decide) hu) (Evolves.refl _)

theorem execTableRowRead_ev {p : Path} {ecc : Bool} {s : State} {t' : State}
    (h : execTableRowRead p ecc s = .next t') :
    Evolves (mask [.free, .bus, .wins, .mgmt, .params, .tables, .locks, .tenants, .links, .frames, .ports,
      .thicket, .perf, .chans, .canopy, .store, .safety, .pair, .start]) s t' := by
  unfold execTableRowRead at h
  obtain ⟨_, rfl⟩ := live_eq_next h
  exact writeAt_evolves (by decide) (by decide) (fun _ _ _ _ hu => regWrite_tablePort_ev (by decide) hu) (Evolves.refl _)

theorem execTableRowWrite_ev {p : Path} {s : State} {t' : State} (h : execTableRowWrite p s = .next t') :
    Evolves (mask [.free, .bus, .wins, .mgmt, .params, .tables, .locks, .tenants, .links, .frames, .ports,
      .thicket, .perf, .chans, .canopy, .store, .safety, .pair, .start]) s t' := by
  unfold execTableRowWrite at h
  obtain ⟨_, rfl⟩ := live_eq_next h
  exact writeAt_evolves (by decide) (by decide) (fun _ _ _ _ hu => regWrite_tablePort_ev (by decide) hu) (Evolves.refl _)

theorem execTableRowZero_ev {p : Path} {s : State} {t' : State} (h : execTableRowZero p s = .next t') :
    Evolves (mask [.free, .bus, .wins, .mgmt, .params, .tables, .locks, .tenants, .links, .frames, .ports,
      .thicket, .perf, .chans, .canopy, .store, .safety, .pair, .start]) s t' := by
  unfold execTableRowZero at h
  obtain ⟨_, rfl⟩ := live_eq_next h
  exact writeAt_evolves (by decide) (by decide) (fun _ _ _ _ hu => regWrite_tablePort_ev (by decide) hu) (Evolves.refl _)

theorem execClaim_ev {p : Path} {ecc : Bool} {s : State} {t' : State} (h : execClaim p ecc s = .next t') :
    Evolves (mask [.free, .bus, .wins, .mgmt, .params, .tables, .locks, .tenants, .links, .frames, .ports, .perf,
      .chans, .canopy, .store, .safety, .start]) s t' := by
  unfold execClaim at h
  obtain ⟨_, rfl⟩ := live_eq_next h
  exact readAt_evolves (by decide) (by decide) (fun _ _ hu => by rwa [counterHit_other (by decide)]) (fun _ _ _ _ hu => readEffect_ev (by decide) hu) (Evolves.refl _)

theorem execCompleteSource_ev {p : Path} {n : BitVec 6} {s : State} {t' : State}
    (h : execCompleteSource p n s = .next t') :
    Evolves (mask [.bus, .mgmt, .params, .tables, .links, .safety]) s t' := by
  unfold execCompleteSource at h
  obtain ⟨_, rfl⟩ := live_eq_next h
  exact writeAt_evolves (by decide) (by decide) (fun _ _ _ _ hu => regWrite_complete_ev (by decide) hu) (Evolves.refl _)

theorem execLockAcquire_ev {p : Path} {ecc : Bool} {s : State} {t' : State} (h : execLockAcquire p ecc s = .next t') :
    Evolves (mask [.free, .bus, .wins, .mgmt, .params, .tables, .locks, .tenants, .links, .frames, .ports, .perf,
      .chans, .canopy, .store, .safety, .start]) s t' := by
  unfold execLockAcquire at h
  obtain ⟨_, rfl⟩ := live_eq_next h
  exact writeAt_evolves (by decide) (by decide) (fun _ _ _ _ hu => regWrite_lockOp_ev (by decide) hu) (Evolves.refl _)

theorem execLockRelease_ev {p : Path} {s : State} {t' : State} (h : execLockRelease p s = .next t') :
    Evolves (mask [.free, .bus, .wins, .mgmt, .params, .tables, .locks, .tenants, .links, .frames, .ports, .perf,
      .chans, .canopy, .store, .safety, .start]) s t' := by
  unfold execLockRelease at h
  obtain ⟨_, rfl⟩ := live_eq_next h
  exact writeAt_evolves (by decide) (by decide) (fun _ _ _ _ hu => regWrite_lockOp_ev (by decide) hu) (Evolves.refl _)

theorem execClearBroken_ev {p : Path} {s : State} {t' : State} (h : execClearBroken p s = .next t') :
    Evolves (mask [.free, .bus, .wins, .mgmt, .params, .tables, .locks, .tenants, .links, .frames, .ports, .perf,
      .chans, .canopy, .store, .safety, .start]) s t' := by
  unfold execClearBroken at h
  obtain ⟨_, rfl⟩ := live_eq_next h
  exact writeAt_evolves (by decide) (by decide) (fun _ _ _ _ hu => regWrite_lockOp_ev (by decide) hu) (Evolves.refl _)

theorem execCaptureNow_ev {p : Path} {ecc : Bool} {s : State} {t' : State} (h : execCaptureNow p ecc s = .next t') :
    Evolves (mask [.free, .bus, .wins, .mgmt, .params, .tables, .locks, .tenants, .links, .frames, .ports, .time,
      .perf, .chans, .canopy, .store, .safety, .start]) s t' := by
  unfold execCaptureNow at h
  obtain ⟨_, rfl⟩ := live_eq_next h
  exact writeAt_evolves (by decide) (by decide) (fun _ _ _ _ hu => regWrite_timeCmd_ev (by decide) hu) (Evolves.refl _)

theorem execLastEvtIn0_ev {p : Path} {s : State} {t' : State} (h : execLastEvtIn0 p s = .next t') :
    Evolves (mask [.free, .bus, .wins, .mgmt, .params, .tables, .locks, .tenants, .links, .frames, .ports, .time,
      .perf, .chans, .canopy, .store, .safety, .start]) s t' := by
  unfold execLastEvtIn0 at h
  obtain ⟨_, rfl⟩ := live_eq_next h
  exact writeAt_evolves (by decide) (by decide) (fun _ _ _ _ hu => regWrite_timeCmd_ev (by decide) hu) (Evolves.refl _)

theorem execLastEvtIn1_ev {p : Path} {s : State} {t' : State} (h : execLastEvtIn1 p s = .next t') :
    Evolves (mask [.free, .bus, .wins, .mgmt, .params, .tables, .locks, .tenants, .links, .frames, .ports, .time,
      .perf, .chans, .canopy, .store, .safety, .start]) s t' := by
  unfold execLastEvtIn1 at h
  obtain ⟨_, rfl⟩ := live_eq_next h
  exact writeAt_evolves (by decide) (by decide) (fun _ _ _ _ hu => regWrite_timeCmd_ev (by decide) hu) (Evolves.refl _)

theorem execLastPpsIn_ev {p : Path} {s : State} {t' : State} (h : execLastPpsIn p s = .next t') :
    Evolves (mask [.free, .bus, .wins, .mgmt, .params, .tables, .locks, .tenants, .links, .frames, .ports, .time,
      .perf, .chans, .canopy, .store, .safety, .start]) s t' := by
  unfold execLastPpsIn at h
  obtain ⟨_, rfl⟩ := live_eq_next h
  exact writeAt_evolves (by decide) (by decide) (fun _ _ _ _ hu => regWrite_timeCmd_ev (by decide) hu) (Evolves.refl _)

theorem execTimeSet_ev {q : CbPar} {s : State} {t' : State} (h : execTimeSet q s = .next t') :
    Evolves (mask [.free, .bus, .wins, .mgmt, .params, .tables, .locks, .tenants, .links, .frames, .ports, .time,
      .perf, .chans, .canopy, .store, .safety, .start]) s t' := by
  unfold execTimeSet at h
  obtain ⟨_, rfl⟩ := live_eq_next h
  exact mgmtWrite_evolves (by decide) (by decide) (fun _ _ hu => regWrite_timeCmd_ev (by decide) hu) (Evolves.refl _)

theorem execStepForward_ev {q : CbPar} {s : State} {t' : State} (h : execStepForward q s = .next t') :
    Evolves (mask [.free, .bus, .wins, .mgmt, .params, .tables, .locks, .tenants, .links, .frames, .ports, .time,
      .perf, .chans, .canopy, .store, .safety, .start]) s t' := by
  unfold execStepForward at h
  obtain ⟨_, rfl⟩ := live_eq_next h
  exact mgmtWrite_evolves (by decide) (by decide) (fun _ _ hu => regWrite_timeCmd_ev (by decide) hu) (Evolves.refl _)

theorem execStepBack_ev {q : CbPar} {s : State} {t' : State} (h : execStepBack q s = .next t') :
    Evolves (mask [.free, .bus, .wins, .mgmt, .params, .tables, .locks, .tenants, .links, .frames, .ports, .time,
      .perf, .chans, .canopy, .store, .safety, .start]) s t' := by
  unfold execStepBack at h
  obtain ⟨_, rfl⟩ := live_eq_next h
  exact mgmtWrite_evolves (by decide) (by decide) (fun _ _ hu => regWrite_timeCmd_ev (by decide) hu) (Evolves.refl _)

theorem execTimeCmdEnd_ev {w : Fin 5} {s : State} {t' : State} (h : execTimeCmdEnd w s = .next t') :
    Evolves (mask [.wins]) s t' := by
  unfold execTimeCmdEnd at h
  obtain ⟨_, rfl⟩ := live_eq_next h
  exact timeCmdEndEffect_ev (by decide) (Evolves.refl _)

theorem execDevReset_ev {q : CbPar} {s : State} {t' : State} (h : execDevReset q s = .next t') :
    Evolves (mask [.free, .bus, .wins, .mgmt, .image, .params, .tables, .locks, .tenants, .links, .frames,
      .nextFrame, .ports, .lanes, .mdio, .thicket, .time, .perf, .chans, .lastChan, .canopy, .scratch, .fences,
      .store, .safety, .pair, .power, .start, .droop, .tap, .bsr]) s t' := by
  unfold execDevReset at h
  obtain ⟨_, rfl⟩ := live_eq_next h
  unfold controlSet
  exact mgmtWrite_evolves (by decide) (by decide) (fun _ _ hu => regWrite_control_ev (by decide) hu) (Evolves.refl _)

theorem execMgmtReset_ev {q : CbPar} {s : State} {t' : State} (h : execMgmtReset q s = .next t') :
    Evolves (mask [.free, .bus, .wins, .mgmt, .image, .params, .tables, .locks, .tenants, .links, .frames,
      .nextFrame, .ports, .lanes, .mdio, .thicket, .time, .perf, .chans, .lastChan, .canopy, .scratch, .fences,
      .store, .safety, .pair, .power, .start, .droop, .tap, .bsr]) s t' := by
  unfold execMgmtReset at h
  obtain ⟨_, rfl⟩ := live_eq_next h
  unfold controlSet
  exact mgmtWrite_evolves (by decide) (by decide) (fun _ _ hu => regWrite_control_ev (by decide) hu) (Evolves.refl _)

theorem execDepotSleep_ev {w : SleepWrite} {s : State} {t' : State} (h : execDepotSleep w s = .next t') :
    Evolves (mask [.free, .bus, .wins, .mgmt, .image, .params, .tables, .locks, .tenants, .links, .frames,
      .nextFrame, .ports, .lanes, .mdio, .thicket, .time, .perf, .chans, .lastChan, .canopy, .scratch, .fences,
      .store, .safety, .pair, .power, .start, .droop, .tap, .bsr]) s t' := by
  unfold execDepotSleep at h
  obtain ⟨_, rfl⟩ := live_eq_next h
  unfold controlSet
  exact mgmtWrite_evolves (by decide) (by decide) (fun _ _ hu => regWrite_control_ev (by decide) hu) (Evolves.refl _)

theorem execTrimEntry_ev {q : CbPar} {s : State} {t' : State} (h : execTrimEntry q s = .next t') :
    Evolves (mask [.free, .bus, .wins, .mgmt, .image, .params, .tables, .locks, .tenants, .links, .frames,
      .nextFrame, .ports, .lanes, .mdio, .thicket, .time, .perf, .chans, .lastChan, .canopy, .scratch, .fences,
      .store, .safety, .pair, .power, .start, .droop, .tap, .bsr]) s t' := by
  unfold execTrimEntry at h
  obtain ⟨_, rfl⟩ := live_eq_next h
  exact mgmtWrite_evolves (by decide) (by decide) (fun _ _ hu => regWrite_control_ev (by decide) hu) (Evolves.refl _)

theorem execTrimExit_ev {q : CbPar} {s : State} {t' : State} (h : execTrimExit q s = .next t') :
    Evolves (mask [.free, .bus, .wins, .mgmt, .image, .params, .tables, .locks, .tenants, .links, .frames,
      .nextFrame, .ports, .lanes, .mdio, .thicket, .time, .perf, .chans, .lastChan, .canopy, .scratch, .fences,
      .store, .safety, .pair, .power, .start, .droop, .tap, .bsr]) s t' := by
  unfold execTrimExit at h
  obtain ⟨_, rfl⟩ := live_eq_next h
  exact mgmtWrite_evolves (by decide) (by decide) (fun _ _ hu => regWrite_control_ev (by decide) hu) (Evolves.refl _)

theorem execForceFault_ev {q : CbPar} {s : State} {t' : State} (h : execForceFault q s = .next t') :
    Evolves (mask [.bus, .wins, .mgmt, .params, .tables, .locks, .tenants, .links, .frames, .ports, .perf,
      .chans, .canopy, .safety, .start]) s t' := by
  unfold execForceFault at h
  obtain ⟨_, rfl⟩ := live_eq_next h
  unfold tenantSet
  exact mgmtWrite_evolves (by decide) (by decide) (fun _ _ hu => regWrite_tenantCtl_ev (by decide) hu) (Evolves.refl _)

theorem execTenantReset_ev {q : CbPar} {s : State} {t' : State} (h : execTenantReset q s = .next t') :
    Evolves (mask [.bus, .wins, .mgmt, .params, .tables, .locks, .tenants, .links, .frames, .ports, .perf,
      .chans, .canopy, .safety, .start]) s t' := by
  unfold execTenantReset at h
  obtain ⟨_, rfl⟩ := live_eq_next h
  unfold tenantSet
  exact mgmtWrite_evolves (by decide) (by decide) (fun _ _ hu => regWrite_tenantCtl_ev (by decide) hu) (Evolves.refl _)

theorem execTenantHold_ev {q : CbPar} {s : State} {t' : State} (h : execTenantHold q s = .next t') :
    Evolves (mask [.bus, .wins, .mgmt, .params, .tables, .locks, .tenants, .links, .frames, .ports, .perf,
      .chans, .canopy, .safety, .start]) s t' := by
  unfold execTenantHold at h
  obtain ⟨_, rfl⟩ := live_eq_next h
  exact mgmtWrite_evolves (by decide) (by decide) (fun _ _ hu => regWrite_tenantCtl_ev (by decide) hu) (Evolves.refl _)

theorem execTenantRelease_ev {q : CbPar} {s : State} {t' : State} (h : execTenantRelease q s = .next t') :
    Evolves (mask [.bus, .wins, .mgmt, .params, .tables, .locks, .tenants, .links, .frames, .ports, .perf,
      .chans, .canopy, .safety, .start]) s t' := by
  unfold execTenantRelease at h
  obtain ⟨_, rfl⟩ := live_eq_next h
  exact mgmtWrite_evolves (by decide) (by decide) (fun _ _ hu => regWrite_tenantCtl_ev (by decide) hu) (Evolves.refl _)

theorem execJoinPair_ev {q : CbPar} {s : State} {t' : State} (h : execJoinPair q s = .next t') :
    Evolves (mask [.bus, .mgmt, .params, .tables, .locks, .tenants, .links, .frames, .ports, .perf, .chans,
      .lastChan, .canopy, .safety, .pair]) s t' := by
  unfold execJoinPair at h
  obtain ⟨_, rfl⟩ := live_eq_next h
  exact mgmtWrite_evolves (by decide) (by decide) (fun _ _ hu => regWrite_pairCmd_ev (by decide) hu) (Evolves.refl _)

theorem execPlannedSwitchover_ev {q : CbPar} {s : State} {t' : State} (h : execPlannedSwitchover q s = .next t') :
    Evolves (mask [.bus, .mgmt, .params, .tables, .locks, .tenants, .links, .frames, .ports, .perf, .chans,
      .lastChan, .canopy, .safety, .pair]) s t' := by
  unfold execPlannedSwitchover at h
  obtain ⟨_, rfl⟩ := live_eq_next h
  exact mgmtWrite_evolves (by decide) (by decide) (fun _ _ hu => regWrite_pairCmd_ev (by decide) hu) (Evolves.refl _)

theorem execLeaveToSolo_ev {q : CbPar} {s : State} {t' : State} (h : execLeaveToSolo q s = .next t') :
    Evolves (mask [.bus, .mgmt, .params, .tables, .locks, .tenants, .links, .frames, .ports, .perf, .chans,
      .lastChan, .canopy, .safety, .pair]) s t' := by
  unfold execLeaveToSolo at h
  obtain ⟨_, rfl⟩ := live_eq_next h
  exact mgmtWrite_evolves (by decide) (by decide) (fun _ _ hu => regWrite_pairCmd_ev (by decide) hu) (Evolves.refl _)

theorem execClearAlarm_ev {q : CbPar} {s : State} {t' : State} (h : execClearAlarm q s = .next t') :
    Evolves (mask [.bus, .mgmt, .params, .tables, .locks, .tenants, .links, .frames, .ports, .perf, .chans,
      .lastChan, .canopy, .safety, .pair]) s t' := by
  unfold execClearAlarm at h
  obtain ⟨_, rfl⟩ := live_eq_next h
  exact mgmtWrite_evolves (by decide) (by decide) (fun _ _ hu => regWrite_pairCmd_ev (by decide) hu) (Evolves.refl _)

theorem execServiceWatchdog_ev {q : CbPar} {ecc : Bool} {s : State} {t' : State}
    (h : execServiceWatchdog q ecc s = .next t') :
    Evolves (mask [.free, .bus, .mgmt, .params, .tables, .locks, .tenants, .links, .frames, .ports, .perf,
      .chans, .canopy, .store, .safety, .start]) s t' := by
  unfold execServiceWatchdog at h
  obtain ⟨_, rfl⟩ := live_eq_next h
  exact mgmtWrite_evolves (by decide) (by decide) (fun _ _ hu => regWrite_safetyCmd_ev (by decide) hu) (Evolves.refl _)

theorem execEnterSafeState_ev {q : CbPar} {s : State} {t' : State} (h : execEnterSafeState q s = .next t') :
    Evolves (mask [.free, .bus, .mgmt, .params, .tables, .locks, .tenants, .links, .frames, .ports, .perf,
      .chans, .canopy, .store, .safety, .start]) s t' := by
  unfold execEnterSafeState at h
  obtain ⟨_, rfl⟩ := live_eq_next h
  exact mgmtWrite_evolves (by decide) (by decide) (fun _ _ hu => regWrite_safetyCmd_ev (by decide) hu) (Evolves.refl _)

theorem execStoreFormat_ev {q : CbPar} {d : Discovery} {s : State} {t' : State}
    (h : execStoreFormat q d s = .next t') :
    Evolves (mask [.free, .bus, .mgmt, .params, .tables, .frames, .ports, .perf, .canopy, .store, .safety]) s t' := by
  unfold execStoreFormat at h
  obtain ⟨_, rfl⟩ := live_eq_next h
  exact mgmtWrite_evolves (by decide) (by decide) (fun _ _ hu => regWrite_storeCmd_ev (by decide) hu) (Evolves.refl _)

theorem execStoreAdopt_ev {q : CbPar} {d : Discovery} {s : State} {t' : State} (h : execStoreAdopt q d s = .next t') :
    Evolves (mask [.free, .bus, .mgmt, .params, .tables, .frames, .ports, .perf, .canopy, .store, .safety]) s t' := by
  unfold execStoreAdopt at h
  obtain ⟨_, rfl⟩ := live_eq_next h
  exact mgmtWrite_evolves (by decide) (by decide) (fun _ _ hu => regWrite_storeCmd_ev (by decide) hu) (Evolves.refl _)

theorem execEventLock_ev {q : CbPar} {k : Fin 64} {s : State} {t' : State} (h : execEventLock q k s = .next t') :
    Evolves (mask [.free, .bus, .mgmt, .params, .tables, .frames, .ports, .perf, .canopy, .store, .safety]) s t' := by
  unfold execEventLock at h
  obtain ⟨_, rfl⟩ := live_eq_next h
  exact mgmtWrite_evolves (by decide) (by decide) (fun _ _ hu => regWrite_storeCmd_ev (by decide) hu) (Evolves.refl _)

theorem execStreamOnline_ev {q : CbPar} {k : Fin 64} {s : State} {t' : State}
    (h : execStreamOnline q k s = .next t') :
    Evolves (mask [.free, .bus, .mgmt, .params, .tables, .frames, .ports, .perf, .canopy, .store, .safety]) s t' := by
  unfold execStreamOnline at h
  obtain ⟨_, rfl⟩ := live_eq_next h
  exact mgmtWrite_evolves (by decide) (by decide) (fun _ _ hu => regWrite_storeCmd_ev (by decide) hu) (Evolves.refl _)

theorem execStreamOffline_ev {q : CbPar} {k : Fin 64} {s : State} {t' : State}
    (h : execStreamOffline q k s = .next t') :
    Evolves (mask [.free, .bus, .mgmt, .params, .tables, .frames, .ports, .perf, .canopy, .store, .safety]) s t' := by
  unfold execStreamOffline at h
  obtain ⟨_, rfl⟩ := live_eq_next h
  exact mgmtWrite_evolves (by decide) (by decide) (fun _ _ hu => regWrite_storeCmd_ev (by decide) hu) (Evolves.refl _)

theorem execStoreSuspend_ev {q : CbPar} {s : State} {t' : State} (h : execStoreSuspend q s = .next t') :
    Evolves (mask [.free, .bus, .mgmt, .params, .tables, .frames, .ports, .perf, .canopy, .store, .safety]) s t' := by
  unfold execStoreSuspend at h
  obtain ⟨_, rfl⟩ := live_eq_next h
  exact mgmtWrite_evolves (by decide) (by decide) (fun _ _ hu => regWrite_storeCmd_ev (by decide) hu) (Evolves.refl _)

theorem execStoreResume_ev {q : CbPar} {d : Discovery} {s : State} {t' : State}
    (h : execStoreResume q d s = .next t') :
    Evolves (mask [.free, .bus, .mgmt, .params, .tables, .frames, .ports, .perf, .canopy, .store, .safety]) s t' := by
  unfold execStoreResume at h
  obtain ⟨_, rfl⟩ := live_eq_next h
  exact mgmtWrite_evolves (by decide) (by decide) (fun _ _ hu => regWrite_storeCmd_ev (by decide) hu) (Evolves.refl _)

theorem execImageLoad_ev {q : CbPar} {fromStore : Bool} {r : ImageRead} {s : State} {t' : State}
    (h : execImageLoad q fromStore r s = .next t') :
    Evolves (mask [.bus, .wins, .mgmt, .image, .params, .tables, .tenants, .frames, .ports, .perf, .chans,
      .canopy, .store, .safety, .start]) s t' := by
  unfold execImageLoad at h
  obtain ⟨_, rfl⟩ := live_eq_next h
  exact mgmtWrite_evolves (by decide) (by decide) (fun _ _ hu => regWrite_imageCmd_ev (by decide) hu) (Evolves.refl _)

theorem execXferStart_ev {p : Path} {ctl : Word} {s : State} {t' : State} (h : execXferStart p ctl s = .next t') :
    Evolves (mask [.bus, .mgmt, .params, .tables, .links, .perf, .chans, .safety]) s t' := by
  unfold execXferStart at h
  obtain ⟨_, rfl⟩ := live_eq_next h
  exact writeAt_evolves (by decide) (by decide) (fun _ _ _ _ hu => regWrite_xferCtl_ev (by decide) hu) (Evolves.refl _)

theorem execXferPause_ev {p : Path} {s : State} {t' : State} (h : execXferPause p s = .next t') :
    Evolves (mask [.bus, .mgmt, .params, .tables, .links, .perf, .chans, .safety]) s t' := by
  unfold execXferPause at h
  obtain ⟨_, rfl⟩ := live_eq_next h
  unfold rewriteAt
  exact writeAt_evolves (by decide) (by decide) (fun _ _ _ _ hu => regWrite_xferCtl_ev (by decide) hu) (Evolves.refl _)

theorem execXferResume_ev {p : Path} {s : State} {t' : State} (h : execXferResume p s = .next t') :
    Evolves (mask [.bus, .mgmt, .params, .tables, .links, .perf, .chans, .safety]) s t' := by
  unfold execXferResume at h
  obtain ⟨_, rfl⟩ := live_eq_next h
  unfold rewriteAt
  exact writeAt_evolves (by decide) (by decide) (fun _ _ _ _ hu => regWrite_xferCtl_ev (by decide) hu) (Evolves.refl _)

theorem execXferAbort_ev {p : Path} {s : State} {t' : State} (h : execXferAbort p s = .next t') :
    Evolves (mask [.bus, .mgmt, .params, .tables, .links, .perf, .chans, .safety]) s t' := by
  unfold execXferAbort at h
  obtain ⟨_, rfl⟩ := live_eq_next h
  unfold rewriteAt
  exact writeAt_evolves (by decide) (by decide) (fun _ _ _ _ hu => regWrite_xferCtl_ev (by decide) hu) (Evolves.refl _)

theorem execCanopyClean_ev {p : Path} {t : Fin 4} {all : Bool} {s : State} {t' : State}
    (h : execCanopyClean p t all s = .next t') :
    Evolves (mask [.bus, .wins, .mgmt, .params, .tables, .links, .perf, .canopy, .safety]) s t' := by
  unfold execCanopyClean at h
  obtain ⟨_, rfl⟩ := live_eq_next h
  exact writeAt_evolves (by decide) (by decide) (fun _ _ _ _ hu => regWrite_canopyCmd_ev (by decide) hu) (Evolves.refl _)

theorem execCanopyInvalidate_ev {p : Path} {t : Fin 4} {all : Bool} {s : State} {t' : State}
    (h : execCanopyInvalidate p t all s = .next t') :
    Evolves (mask [.bus, .wins, .mgmt, .params, .tables, .links, .perf, .canopy, .safety]) s t' := by
  unfold execCanopyInvalidate at h
  obtain ⟨_, rfl⟩ := live_eq_next h
  exact writeAt_evolves (by decide) (by decide) (fun _ _ _ _ hu => regWrite_canopyCmd_ev (by decide) hu) (Evolves.refl _)

theorem execCanopyCleanAndInvalidate_ev {p : Path} {t : Fin 4} {all : Bool} {s : State} {t' : State}
    (h : execCanopyCleanAndInvalidate p t all s = .next t') :
    Evolves (mask [.bus, .wins, .mgmt, .params, .tables, .links, .perf, .canopy, .safety]) s t' := by
  unfold execCanopyCleanAndInvalidate at h
  obtain ⟨_, rfl⟩ := live_eq_next h
  exact writeAt_evolves (by decide) (by decide) (fun _ _ _ _ hu => regWrite_canopyCmd_ev (by decide) hu) (Evolves.refl _)

theorem execTTenantReset_ev {p : Path} {s : State} {t' : State} (h : execTTenantReset p s = .next t') :
    Evolves (mask [.bus, .mgmt, .params, .tables, .locks, .tenants, .links, .frames, .ports, .perf, .chans,
      .lastChan, .canopy, .safety]) s t' := by
  unfold execTTenantReset at h
  obtain ⟨_, rfl⟩ := live_eq_next h
  unfold rewriteAt
  exact tenantWrite_evolves (by decide) (by decide) (fun _ _ _ _ hu => regWrite_tControl_ev (by decide) hu) (Evolves.refl _)

theorem execTFaultClear_ev {p : Path} {m : FaultMask} {s : State} {t' : State}
    (h : execTFaultClear p m s = .next t') :
    Evolves (mask [.bus, .mgmt, .params, .tables, .locks, .tenants, .links, .frames, .ports, .perf, .chans,
      .canopy, .safety]) s t' := by
  unfold execTFaultClear at h
  obtain ⟨_, rfl⟩ := live_eq_next h
  exact tenantWrite_evolves (by decide) (by decide) (fun _ _ _ _ hu => regWrite_tFault_ev (by decide) hu) (Evolves.refl _)

theorem execEngineEnable_ev {p : Path} {on : Bool} {s : State} {t' : State} (h : execEngineEnable p on s = .next t') :
    Evolves (mask [.bus, .mgmt, .params, .tables, .locks, .tenants, .links, .frames, .ports, .perf, .chans,
      .lastChan, .canopy, .safety]) s t' := by
  unfold execEngineEnable at h
  obtain ⟨_, rfl⟩ := live_eq_next h
  exact tenantWrite_evolves (by decide) (by decide) (fun _ _ _ _ hu => regWrite_tControl_ev (by decide) hu) (Evolves.refl _)

theorem execTTxbell_ev {p : Path} {d : Word} {s : State} {t' : State} (h : execTTxbell p d s = .next t') :
    Evolves (mask [.bus, .mgmt, .params, .tables, .locks, .tenants, .links, .frames, .ports, .perf, .chans,
      .lastChan, .canopy, .safety]) s t' := by
  unfold execTTxbell at h
  obtain ⟨_, rfl⟩ := live_eq_next h
  exact tenantWrite_evolves (by decide) (by decide) (fun _ _ _ _ hu => regWrite_txBell_ev (by decide) hu) (Evolves.refl _)

theorem execTRxbell_ev {p : Path} {d : Word} {s : State} {t' : State} (h : execTRxbell p d s = .next t') :
    Evolves (mask [.bus, .mgmt, .params, .tables, .locks, .tenants, .links, .frames, .ports, .perf, .chans,
      .lastChan, .canopy, .safety]) s t' := by
  unfold execTRxbell at h
  obtain ⟨_, rfl⟩ := live_eq_next h
  exact tenantWrite_evolves (by decide) (by decide) (fun _ _ _ _ hu => regWrite_rxBell_ev (by decide) hu) (Evolves.refl _)

theorem execRingEnable_ev {p : Path} {s : State} {t' : State} (h : execRingEnable p s = .next t') :
    Evolves (mask [.bus, .mgmt, .params, .tables, .locks, .tenants, .links, .frames, .ports, .perf, .chans,
      .lastChan, .canopy, .safety]) s t' := by
  unfold execRingEnable at h
  obtain ⟨_, rfl⟩ := live_eq_next h
  unfold rewriteAt
  exact tenantWrite_evolves (by decide) (by decide) (fun _ _ _ _ hu => regWrite_ringCtl_ev (by decide) hu) (Evolves.refl _)

theorem execRingDisable_ev {p : Path} {s : State} {t' : State} (h : execRingDisable p s = .next t') :
    Evolves (mask [.bus, .mgmt, .params, .tables, .locks, .tenants, .links, .frames, .ports, .perf, .chans,
      .lastChan, .canopy, .safety]) s t' := by
  unfold execRingDisable at h
  obtain ⟨_, rfl⟩ := live_eq_next h
  unfold rewriteAt
  exact tenantWrite_evolves (by decide) (by decide) (fun _ _ _ _ hu => regWrite_ringCtl_ev (by decide) hu) (Evolves.refl _)

theorem execFlushRing_ev {p : Path} {s : State} {t' : State} (h : execFlushRing p s = .next t') :
    Evolves (mask [.bus, .mgmt, .params, .tables, .locks, .tenants, .links, .frames, .ports, .perf, .chans,
      .lastChan, .canopy, .safety]) s t' := by
  unfold execFlushRing at h
  obtain ⟨_, rfl⟩ := live_eq_next h
  unfold rewriteAt
  exact tenantWrite_evolves (by decide) (by decide) (fun _ _ _ _ hu => regWrite_ringCtl_ev (by decide) hu) (Evolves.refl _)

theorem execRingStop_ev {p : Path} {s : State} {t' : State} (h : execRingStop p s = .next t') :
    Evolves (mask [.bus, .mgmt, .params, .tables, .locks, .tenants, .links, .frames, .ports, .perf, .chans,
      .lastChan, .canopy, .safety]) s t' := by
  unfold execRingStop at h
  obtain ⟨_, rfl⟩ := live_eq_next h
  unfold rewriteAt
  exact tenantWrite_evolves (by decide) (by decide) (fun _ _ _ _ hu => regWrite_ringCtl_ev (by decide) hu) (Evolves.refl _)

theorem execRingResume_ev {p : Path} {s : State} {t' : State} (h : execRingResume p s = .next t') :
    Evolves (mask [.bus, .mgmt, .params, .tables, .locks, .tenants, .links, .frames, .ports, .perf, .chans,
      .lastChan, .canopy, .safety]) s t' := by
  unfold execRingResume at h
  obtain ⟨_, rfl⟩ := live_eq_next h
  unfold rewriteAt
  exact tenantWrite_evolves (by decide) (by decide) (fun _ _ _ _ hu => regWrite_ringCtl_ev (by decide) hu) (Evolves.refl _)

theorem execCanopyOpEnd_ev {t : Fin 4} {r : HostRead} {s : State} {t' : State}
    (h : execCanopyOpEnd t r s = .next t') :
    Evolves (mask [.wins, .tables, .links, .perf, .canopy]) s t' := by
  unfold execCanopyOpEnd at h
  obtain ⟨_, rfl⟩ := live_eq_next h
  exact canopyOpEndEffect_ev (by decide) (Evolves.refl _)

theorem execCanopyClosingReadTimeout_ev {t : Fin 4} {s : State} {t' : State}
    (h : execCanopyClosingReadTimeout t s = .next t') :
    Evolves (mask [.clk, .wins, .params, .tables, .tenants, .links, .ports, .time, .perf, .canopy, .droop]) s t' := by
  unfold execCanopyClosingReadTimeout at h
  obtain ⟨_, rfl⟩ := live_eq_next h
  exact canopyClosingReadTimeoutEffect_ev (by decide) (Evolves.refl _)

theorem execScratchWayConversionEnd_ev {s : State} {t' : State} (h : execScratchWayConversionEnd s = .next t') :
    Evolves (mask [.tables, .links, .perf, .canopy, .scratch]) s t' := by
  unfold execScratchWayConversionEnd at h
  obtain ⟨_, rfl⟩ := live_eq_next h
  repeat' first
    | intro _ | with_reducible assumption | with_reducible apply Evolves.ite | with_reducible exact Evolves.refl _
    | with_reducible apply convertWay_ev (by decide) | with_reducible apply onlyIf_ev | split | (dsimp only; split)

theorem execFaultRecordPushEnd_ev {t : Fin 4} {r : HostRead} {s : State} {t' : State}
    (h : execFaultRecordPushEnd t r s = .next t') :
    Evolves (mask [.tables, .locks, .tenants, .links, .frames, .ports, .perf, .chans, .canopy, .safety]) s t' := by
  unfold execFaultRecordPushEnd at h
  obtain ⟨_, rfl⟩ := live_eq_next h
  exact faultRecordPushEndEffect_ev (by decide) (Evolves.refl _)

theorem execFaultPushCplTimeout_ev {t : Fin 4} {s : State} {t' : State} (h : execFaultPushCplTimeout t s = .next t') :
    Evolves (mask [.clk, .params, .tables, .locks, .tenants, .links, .frames, .ports, .time, .perf, .chans,
      .canopy, .safety, .droop]) s t' := by
  unfold execFaultPushCplTimeout at h
  obtain ⟨_, rfl⟩ := live_eq_next h
  exact faultPushCplTimeoutEffect_ev (by decide) (Evolves.refl _)

theorem execPerstNAssert_ev {t : Fin 4} {s : State} {t' : State} (h : execPerstNAssert t s = .next t') :
    Evolves (mask [.tables, .locks, .tenants, .links, .frames, .ports, .perf, .chans, .canopy, .safety]) s t' := by
  unfold execPerstNAssert at h
  obtain ⟨_, rfl⟩ := live_eq_next h
  exact perstNAssertEffect_ev (by decide) (Evolves.refl _)

theorem execPerstNDeassert_ev {t : Fin 4} {s : State} {t' : State} (h : execPerstNDeassert t s = .next t') :
    Evolves (mask [.tables, .links]) s t' := by
  unfold execPerstNDeassert at h
  obtain ⟨_, rfl⟩ := live_eq_next h
  exact perstNDeassertEffect_ev (by decide) (Evolves.refl _)

theorem execHotReset_ev {t : Fin 4} {s : State} {t' : State} (h : execHotReset t s = .next t') :
    Evolves (mask [.tables, .locks, .tenants, .links, .frames, .ports, .perf, .chans, .canopy, .safety]) s t' := by
  unfold execHotReset at h
  obtain ⟨_, rfl⟩ := live_eq_next h
  exact hotResetEffect_ev (by decide) (Evolves.refl _)

theorem execFunctionLevelReset_ev {t : Fin 4} {s : State} {t' : State} (h : execFunctionLevelReset t s = .next t') :
    Evolves (mask [.tables, .locks, .tenants, .links, .frames, .ports, .perf, .chans, .canopy, .safety]) s t' := by
  unfold execFunctionLevelReset at h
  obtain ⟨_, rfl⟩ := live_eq_next h
  exact functionLevelResetEffect_ev (by decide) (Evolves.refl _)

theorem execBusMasterEnableClear_ev {t : Fin 4} {s : State} {t' : State}
    (h : execBusMasterEnableClear t s = .next t') :
    Evolves (mask [.free, .wins, .params, .tables, .locks, .tenants, .links, .frames, .nextFrame, .ports,
      .thicket, .perf, .chans, .canopy, .store, .safety]) s t' := by
  unfold execBusMasterEnableClear at h
  obtain ⟨_, rfl⟩ := live_eq_next h
  exact busMasterOff_ev (by decide) (Evolves.refl _)

theorem execHostLinkStateChange_ev {t : Fin 4} {st : LinkState} {s : State} {t' : State}
    (h : execHostLinkStateChange t st s = .next t') :
    Evolves (mask [.tables, .locks, .tenants, .links, .frames, .ports, .perf, .chans, .lastChan, .canopy,
      .safety]) s t' := by
  unfold execHostLinkStateChange at h
  obtain ⟨_, rfl⟩ := live_eq_next h
  exact hostLinkStateChangeEffect_ev (by decide) (Evolves.refl _)

theorem execLinkTrainingStart_ev {t : Fin 4} {s : State} {t' : State} (h : execLinkTrainingStart t s = .next t') :
    Evolves (mask [.links]) s t' := by
  unfold execLinkTrainingStart at h
  obtain ⟨_, rfl⟩ := live_eq_next h
  exact linkTrainingStartEffect_ev (by decide) (Evolves.refl _)

theorem execConfigurationRequest_ev {t : Fin 4} {c : CfgRequest} {s : State} {t' : State}
    (h : execConfigurationRequest t c s = .next t') :
    Evolves (mask [.free, .wins, .params, .tables, .locks, .tenants, .links, .frames, .nextFrame, .ports,
      .thicket, .perf, .chans, .lastChan, .canopy, .store, .safety]) s t' := by
  unfold execConfigurationRequest at h
  obtain ⟨_, rfl⟩ := live_eq_next h
  exact configurationRequestEffect_ev (by decide) (Evolves.refl _)

theorem execBar0UnsupportedRequest_ev {t : Fin 4} {_k : UrKind} {s : State} {t' : State}
    (h : execBar0UnsupportedRequest t _k s = .next t') :
    Evolves (mask [.links]) s t' := by
  unfold execBar0UnsupportedRequest at h
  obtain ⟨_, rfl⟩ := live_eq_next h
  exact bar0UnsupportedRequestEffect_ev (by decide) (Evolves.refl _)

theorem execBar0PoisonedWrite_ev {t : Fin 4} {s : State} {t' : State} (h : execBar0PoisonedWrite t s = .next t') :
    Evolves (mask [.tables, .links]) s t' := by
  unfold execBar0PoisonedWrite at h
  obtain ⟨_, rfl⟩ := live_eq_next h
  repeat' first
    | intro _ | with_reducible assumption | with_reducible apply Evolves.ite | with_reducible exact Evolves.refl _
    | with_reducible apply aerLog_ev (by decide) | with_reducible apply onlyIf_ev | split | (dsimp only; split)

theorem execHostLinkError_ev {e : LinkError} {s : State} {t' : State} (h : execHostLinkError e s = .next t') :
    Evolves (mask [.tables, .links, .perf]) s t' := by
  unfold execHostLinkError at h
  obtain ⟨_, rfl⟩ := live_eq_next h
  repeat' first
    | intro _ | with_reducible assumption | with_reducible apply Evolves.ite | with_reducible exact Evolves.refl _
    | with_reducible apply aerLog_ev (by decide) | with_reducible apply linkReplay_ev (by decide) | with_reducible apply onlyIf_ev | split | (dsimp only; split)

end Sys2Proof.Machine
end

