-- ==== Sys2Proof/Laws/Label.lean ====
section
/-! SUPPORT. Laws of the cartridge label: reading the bytes of a label back gives the label. -/

set_option Elab.async false

namespace Sys2Proof.Machine

@[simp] theorem leBytes_length (n x : Nat) : (leBytes n x).length = n := by
  induction n generalizing x with
  | zero => rfl
  | succ n ih => simp [leBytes, ih]

theorem leNat_leBytes (n x : Nat) (h : x < 256 ^ n) : leNat (leBytes n x) = x := by
  induction n generalizing x with
  | zero => simp at h; simp [leBytes, leNat, h]
  | succ n ih => rw [leBytes, leNat, ih _ (by rw [Nat.pow_succ] at h; omega)]; simp; omega

theorem crcStep_lt (n c : Nat) (h : c < 2 ^ 32) : crcStep n c < 2 ^ 32 := by
  induction n generalizing c with
  | zero => exact h
  | succ n ih =>
    rw [crcStep]
    refine ih _ ?_
    split
    · exact Nat.xor_lt_two_pow (by omega) (by decide)
    · omega

theorem crc32_lt (bs : List Byte) : crc32 bs < 2 ^ 32 := by
  have fold : ∀ (bs : List Byte) (c : Nat), c < 2 ^ 32 →
      bs.foldl (fun c b => crcStep 8 (c ^^^ b.toNat)) c < 2 ^ 32 := by
    intro bs
    induction bs with
    | nil => exact fun _ h => h
    | cons b bs ih =>
      exact fun c h => ih _ (crcStep_lt 8 _ (Nat.xor_lt_two_pow h (by have := b.isLt; omega)))
  exact Nat.xor_lt_two_pow (fold bs _ (by decide)) (by decide)

/-- A label whose fields fit Table 12.3. -/
def labelFits (l : Label) : Prop :=
  l.cartId.length = 16 ∧ l.formats < 256 ^ 2 ∧ l.formatSec < 256 ^ 6 ∧ l.blocks < 256 ^ 4 ∧ l.reserve < 256 ^ 4
    ∧ l.system < 256 ^ 4

theorem parseLabel_labelBytes (l : Label) (h : labelFits l) : parseLabel (some l.cartId) (labelBytes l) = some l := by
  obtain ⟨hc, hf, hs, hb, hr, hy⟩ := h
  have hn : (labelStem l).length = 60 := by simp [labelStem, hc]
  have hcrc : leNat (leBytes 4 (crc32 (labelStem l))) = crc32 (labelStem l) := leNat_leBytes 4 _ (crc32_lt _)
  have hall : (labelBytes l).take 64 = labelBytes l := List.take_of_length_le (by simp [labelBytes, hn])
  have hstem : (labelBytes l).take 60 = labelStem l := by rw [labelBytes, ← hn, List.take_left']; rfl
  have htail : slice (labelBytes l) 60 4 = leBytes 4 (crc32 (labelStem l)) := by
    rw [labelBytes, slice, ← hn, List.drop_left]; exact List.take_of_length_le (by simp)
  have field : ∀ off n pre v post, labelStem l = pre ++ v ++ post → pre.length = off → v.length = n →
      slice (labelBytes l) off n = v := by
    intro off n pre v post he ho hv
    rw [labelBytes, he, slice, ← ho, ← hv, List.append_assoc, List.append_assoc, List.drop_left, List.take_left]
  have e1 := field 6 2 [0x4A, 0x53, 0x4D, 0x44, 0x01, 0x00] (leBytes 2 l.formats) _
    (by simp only [labelStem, List.append_assoc]; rfl) rfl (by simp)
  have e2 := field 8 16 ([0x4A, 0x53, 0x4D, 0x44, 0x01, 0x00] ++ leBytes 2 l.formats) l.cartId _
    (by simp only [labelStem, List.append_assoc]; rfl) (by simp) hc
  have e3 := field 24 6 ([0x4A, 0x53, 0x4D, 0x44, 0x01, 0x00] ++ leBytes 2 l.formats ++ l.cartId)
    (leBytes 6 l.owner.toNat) _ (by simp only [labelStem, List.append_assoc]; rfl) (by simp [hc]) (by simp)
  have e4 := field 30 6 ([0x4A, 0x53, 0x4D, 0x44, 0x01, 0x00] ++ leBytes 2 l.formats ++ l.cartId
    ++ leBytes 6 l.owner.toNat) (leBytes 6 l.formatSec) _ (by simp only [labelStem, List.append_assoc]; rfl) (by simp [hc]) (by simp)
  have e5 := field 36 4 ([0x4A, 0x53, 0x4D, 0x44, 0x01, 0x00] ++ leBytes 2 l.formats ++ l.cartId
    ++ leBytes 6 l.owner.toNat ++ leBytes 6 l.formatSec) (leBytes 4 l.blocks) _
    (by simp only [labelStem, List.append_assoc]; rfl) (by simp [hc]) (by simp)
  have e6 := field 40 4 ([0x4A, 0x53, 0x4D, 0x44, 0x01, 0x00] ++ leBytes 2 l.formats ++ l.cartId
    ++ leBytes 6 l.owner.toNat ++ leBytes 6 l.formatSec ++ leBytes 4 l.blocks) (leBytes 4 l.reserve) _
    (by simp only [labelStem, List.append_assoc]; rfl) (by simp [hc]) (by simp)
  have e7 := field 44 4 ([0x4A, 0x53, 0x4D, 0x44, 0x01, 0x00] ++ leBytes 2 l.formats ++ l.cartId
    ++ leBytes 6 l.owner.toNat ++ leBytes 6 l.formatSec ++ leBytes 4 l.blocks ++ leBytes 4 l.reserve) (leBytes 4 l.system) _
    (by simp only [labelStem, List.append_assoc]; rfl) (by simp [hc]) (by simp)
  have hmagic : (labelBytes l).take 5 = [0x4A, 0x53, 0x4D, 0x44, 0x01] := by simp [labelBytes, labelStem]
  have ho : l.owner.toNat < 256 ^ 6 := l.owner.isLt
  simp only [parseLabel, hall, hstem, htail, hcrc, hmagic, e1, e2, e3, e4, e5, e6, e7, leNat_leBytes, hf, hs, hb, hr, hy, ho,
    and_self, if_true, BitVec.ofNat_toNat, BitVec.setWidth_eq]

end Sys2Proof.Machine
end

