-- ==== Sys2Proof/Laws/Performed.lean ====
section
/-! SUPPORT. Performed accesses in the form of a command's outcome, and what an acknowledge leaves as it stands. -/

set_option Elab.async false

namespace Sys2Proof.Machine

variable {s : State} {p : Path}

/-! ### The acknowledge changes the bus alone -/

@[simp] theorem written_tap : (written p s).tap = s.tap := by cases p <;> rfl
@[simp] theorem written_clk : (written p s).clk = s.clk := by cases p <;> rfl
@[simp] theorem written_wins : (written p s).wins = s.wins := by cases p <;> rfl
@[simp] theorem written_mgmt : (written p s).mgmt = s.mgmt := by cases p <;> rfl
@[simp] theorem written_image : (written p s).image = s.image := by cases p <;> rfl
@[simp] theorem written_params : (written p s).params = s.params := by cases p <;> rfl
@[simp] theorem written_tables : (written p s).tables = s.tables := by cases p <;> rfl
@[simp] theorem written_locks : (written p s).locks = s.locks := by cases p <;> rfl
@[simp] theorem written_tenants : (written p s).tenants = s.tenants := by cases p <;> rfl
@[simp] theorem written_links : (written p s).links = s.links := by cases p <;> rfl
@[simp] theorem written_time : (written p s).time = s.time := by cases p <;> rfl
@[simp] theorem written_chans : (written p s).chans = s.chans := by cases p <;> rfl
@[simp] theorem written_canopy : (written p s).canopy = s.canopy := by cases p <;> rfl
@[simp] theorem written_safety : (written p s).safety = s.safety := by cases p <;> rfl
@[simp] theorem written_store : (written p s).store = s.store := by cases p <;> rfl
@[simp] theorem written_start : (written p s).start = s.start := by cases p <;> rfl
@[simp] theorem written_winOpen (w : Nat) : winOpen (written p s) w = winOpen s w := by cases p <;> rfl
@[simp] theorem written_win (w : Nat) : win (written p s) w = win s w := by cases p <;> rfl
@[simp] theorem written_ten (t : Nat) : ten (written p s) t = ten s t := by cases p <;> rfl
@[simp] theorem written_ring (t r : Nat) : ring (written p s) t r = ring s t r := by cases p <;> rfl
@[simp] theorem written_chan (c : Nat) : chan (written p s) c = chan s c := by cases p <;> rfl
@[simp] theorem written_lock (k : Nat) : lock (written p s) k = lock s k := by cases p <;> rfl
@[simp] theorem written_pn (id : Nat) : pn (written p s) id = pn s id := by cases p <;> rfl
@[simp] theorem written_selChan (w : Nat) : selChan (written p s) w = selChan s w := by cases p <;> rfl
@[simp] theorem written_ownsChan (w c : Nat) : ownsChan (written p s) w c = ownsChan s w c := by cases p <;> rfl
@[simp] theorem written_chanBusy (c : Nat) : chanBusy (written p s) c = chanBusy s c := by cases p <;> rfl
@[simp] theorem written_groupOpen (w g : Nat) : groupOpen (written p s) w g = groupOpen s w g := by cases p <;> rfl
@[simp] theorem written_shadow (w path g : Nat) : shadow (written p s) w path g = shadow s w path g := by cases p <;> rfl
@[simp] theorem written_portBusy (o : OpStat) : portBusy (written p s) o = portBusy s o := by cases p <;> rfl
@[simp] theorem written_srcRow (w n : Nat) : srcRow (written p s) w n = srcRow s w n := by cases p <;> rfl
@[simp] theorem written_bufLen (w : Nat) : bufLen (written p s) w = bufLen s w := by cases p <;> rfl

/-- A word of its own number. -/
@[simp] theorem word_toNat (d : Word) : word d.toNat = d := by simp [word]

/-! ### Accesses on the control bus -/

variable {x : Extra} {m off : Nat} {apar : Bool} {d : Word} {par : BitVec 3}

/-- A write with good parity. -/
theorem cbAccess_write (hl : busLive s = true) (ha : s.bus.ack = none) (hg : s.bus.grant = some m)
    (ho : off < 256) (hp : parityGood false off d apar par) :
    cbAccess x false (BitVec.ofNat 8 off) apar d par s = regWrite x m 0 off d (acknowledge none s) := by
  have h := parityCause_good hp
  have h2 := off_toNat ho
  unfold cbAccess
  simp only [hl, hg, ha, h, h2]
  rfl

/-- A read with good parity. -/
theorem cbAccess_read (hl : busLive s = true) (ha : s.bus.ack = none) (hg : s.bus.grant = some m)
    (ho : off < 256) (hp : parityGood true off d apar par) :
    cbAccess x true (BitVec.ofNat 8 off) apar d par s =
      readEffect m 0 off x.ecc (acknowledge (some (readValue m 0 off (counterHit m off x.ecc s))) (counterHit m off x.ecc s)) := by
  have h := parityCause_good hp
  have h2 := off_toNat ho
  unfold cbAccess
  simp only [hl, hg, ha, h, h2]
  rfl

/-! ### The outcome of a performed write -/

variable {k : Reach} {v : Nat} {q : CbPar}

theorem live_writeAt (ho : off < 256) (h : Performs s k p off v) :
    live (writeAt x k p off v) s = .next (regWrite x (pathWin s p) (pathNo p) off (word v) (written p s)) := by
  rw [live_next s _ h.1, writeAt_admitted ho h.2.1]

theorem live_mgmtWrite (ho : off < 256) (h : PerformsM s q off v) :
    live (mgmtWrite x q off v) s = .next (regWrite x 0 0 off (word v) (acknowledge none s)) := by
  rw [live_next s _ h.1, mgmtWrite_admitted ho h.2.1]

/-- The window of a performed tenant access is a T window. -/
theorem pathWin_tenant (h : Performs s .tenant p off v) : pathWin s p ≠ 0 := by
  obtain ⟨-, h, -⟩ := h
  cases p with
  | cb a b =>
    obtain ⟨-, -, -, m, hg, -, h1⟩ := h
    simpa [pathWin, hg] using h1 rfl
  | bar0 t be => simp [pathWin]

end Sys2Proof.Machine
end

