-- ==== Sys2Proof/Laws/Sound.lean ====
section
/-! SUPPORT. What evolves from a sound state is sound. -/

set_option Elab.async false

namespace Sys2Proof.Machine

variable {s t : State}

/-- The four parts of soundness are kept. -/
theorem Sound.of_evolves {m : Nat} (h : Evolves m s t) (hs : Sound s) : Sound t :=
  ⟨h.wf_scratch hs.scratch, h.wf_area hs.area, h.role hs.role, fun k hk => h.grant hs.grant k hk⟩

end Sys2Proof.Machine
end

