-- ==== Sys2Proof/Laws/Time.lean ====
section
/-! SUPPORT. Where no time passes, nothing changes. -/

set_option Elab.async false

namespace Sys2Proof.Machine

variable {s : State}

/-- No ticks: the state as it stands. -/
@[simp] theorem wait_zero : wait 0 s = s := by simp [wait]

/-- An instant that has come: no time passes. -/
theorem waitUntil_past {n : Nat} (h : n ≤ s.clk) : waitUntil n s = s := by
  simp [waitUntil, Nat.sub_eq_zero_of_le h]

end Sys2Proof.Machine
end

