-- ==== Sys2Proof/WellFormed.lean ====
section
/-! DEFINITION. The operands a command can carry: what the bus, a host link, a port or a sensor can present. -/

set_option Elab.async false

namespace Sys2Proof

/-- A BAR0 request of at least one dword, at most 4,096 bytes, within the 16 KiB of the BAR (R98). -/
def Access.wf : Access → Bool
  | .cb _ _ _ _ _ => true
  | .bar0 _ _ first dwords => decide (1 ≤ dwords.length ∧ dwords.length ≤ 1024 ∧ first + dwords.length ≤ 4096)

/-- A closing read is a zero-length read: its completion carries no data (R153, R431). -/
def HostRead.closing : HostRead → Bool
  | .data bytes => bytes.isEmpty
  | _ => true

/-- A descriptor read brings whole slots of 16 bytes (R172). -/
def HostRead.slots : HostRead → Bool
  | .data bytes => bytes.length % 16 == 0
  | _ => true

/-- An error that the read of a Glade cell can find (Table 18.2, memories 0x040 to 0x043). -/
def EccHit.glade? : EccHit → Bool
  | .none | .glade | .gladeCorrected => true
  | _ => false

/-- An error that the egress stage can find (memories 0x020 to 0x03F, stage 1). -/
def EccHit.egress? : EccHit → Bool
  | .none | .egressStage => true
  | _ => false

/-- An error that a page build can find: in a Glade cell, in the page buffer (memory 0x060) or in a scratch way that holds the
segment map (R444). -/
def EccHit.page? : EccHit → Bool
  | .none | .glade | .gladeCorrected | .pageBuffer | .storeWay => true
  | _ => false

/-- An error that the Thicket can find: in the RX stage, in its staging, or in a row of tables 0x02 to 0x05 (Table 4.9). -/
def EccHit.thicket? : EccHit → Bool
  | .none | .rxStage | .thicketStaging => true
  | .thicketRow 2 inst row => decide (inst < 32 ∧ row < 33)
  | .thicketRow 3 inst row => decide (inst < 32 ∧ row < 171)
  | .thicketRow 4 inst row => decide (inst = 0 ∧ row < 2048)
  | .thicketRow 5 inst row => decide (inst = 0 ∧ row < 256)
  | _ => false

/-- A Ride frame of a type, with the payload its LEN gives (Table 16.2). -/
def RideFrame.wf (type : Nat) (f : RideFrame) : Bool :=
  f.hdr.type.toNat == type && f.payload.length == f.hdr.len

/-- A block state as two words of table 0x0F hold it (Table 12.6). -/
def BlockState.wf (b : BlockState) : Bool := decide (b.eraseCount < 2 ^ 24 ∧ b.age ≤ 4095 ∧ b.state < 8 ∧ b.maxCorr ≤ 72)

/-- A segment lies on the medium as Table 11.3 and store space can name it. -/
def FoundSegment.wf (f : FoundSegment) : Bool := decide (f.stream < 64 ∧ 1 ≤ f.seq ∧ f.seq < 2 ^ 32)

/-- What a mount finds: at most four targets, block states that Table 12.6 can hold, segments that streams can hold. -/
def Discovery.wf : Discovery → Bool
  | .found c => decide (c.targets.length ≤ 4) && c.blocks.all BlockState.wf && c.segments.all FoundSegment.wf
  | .absent => true

/-- The bits that a page read finds in error lie within their codewords of 17,496 bits (R374). -/
def PageRead.wf (r : PageRead) : Bool := r.reads.all fun l => l.errs.all fun e => e.all (· < 17496)

/-- The operands of a command are ones it can carry. -/
def Instr.wf : Instr → Bool
  | .registerWrite a => a.wf
  | .descriptorReadEnd _ _ r => r.slots
  | .canopyOpEnd _ r => r.closing
  | .faultRecordPushEnd _ r => r.closing
  | .rxDelivery _ _ e => e.glade?
  | .egressCopy _ e => e.glade?
  | .egressLaunch _ e => e.egress?
  | .pageBuild _ e => e.page?
  | .recordWaitExpiry w => w.ecc.page?
  | .powerUpScan a b c => a.wf && b.wf && c.wf
  | .coppiceRefresh _ m => m.reads.all PageRead.wf
  | .wearLevellingMove m => m.reads.all PageRead.wf
  | .xferPacedBurst _ io => io.pages.all PageRead.wf
  | .thicketResolve e => e.thicket?
  | .helloFrame f => f.wf 1
  | .heartbeatFrame f => f.wf 2
  | .dataFrame f _ => f.wf 3
  | .commitFrame c => c.frame.wf 4
  | .ackFrame f => f.wf 5
  | .nakFrame f => f.wf 6
  | .switchRequest f => f.wf 7
  | .switchDone f => f.wf 7
  | .leaveFrame f => f.wf 8
  | .thermalSample readings => readings.length == 8
  | .hourlyMeasurement readings _ => readings.length == 12
  | .mediumMount d => d.wf
  | .storeFormat _ d => d.wf
  | .storeAdopt _ d => d.wf
  | .storeResume _ d => d.wf
  | _ => true

end Sys2Proof
end

