-- ==== Sys2Proof/Tests/Slice0.lean ====
section
/-! SUPPORT. Tests: the well-formedness checks refuse ill-formed commands, single steps with results from the spec's tables,
and for every statement states and operands that meet the hypotheses of its clauses. -/

set_option Elab.async false

set_option autoImplicit false

open Sys2Proof Sys2Proof.Machine

namespace Sys2Proof.Tests

/-! ### Deciding that an access is performed -/

def decSome {o : Option Nat} {P : Nat → Prop} (d : ∀ m, Decidable (P m)) : Decidable (∃ m, o = some m ∧ P m) :=
  match o with
  | none => isFalse (fun ⟨_, h, _⟩ => nomatch h)
  | some m => match d m with
    | isTrue h => isTrue ⟨m, rfl, h⟩
    | isFalse h => isFalse (fun ⟨_, e, g⟩ => h (by cases e; exact g))

def decParity (r : Bool) (off : Nat) (d : Word) (a : Bool) (p : BitVec 3) : Decidable (parityGood r off d a p) := by
  unfold parityGood; infer_instance

def decAdmitted (s : State) (k : Reach) (p : Path) (r : Bool) (off : Nat) (d : Word) : Decidable (Admitted s k p r off d) := by
  unfold Admitted
  cases p with
  | cb a q =>
    have := decParity r off d a q
    have := decSome (o := s.bus.grant) (P := fun m => (k = .mgmt → m = 0) ∧ (k = .tenant → m ≠ 0)) (fun _ => inferInstance)
    exact inferInstance
  | bar0 t be => exact inferInstance

def decPerforms (s : State) (k : Reach) (p : Path) (off v : Nat) : Decidable (Performs s k p off v) := by
  unfold Performs
  have := decAdmitted s k p false off (word v)
  exact inferInstance

def decPerformsM (s : State) (q : CbPar) (off v : Nat) : Decidable (PerformsM s q off v) := by
  unfold PerformsM AdmittedM
  have := decParity false off (word v) q.apar q.par
  exact inferInstance

def decPerformsRead (s : State) (p : Path) (off : Nat) : Decidable (PerformsRead s p off) := by
  unfold PerformsRead
  have := decAdmitted s .any p true off 0
  exact inferInstance

theorem access {s : State} {k : Reach} {p : Path} {off v : Nat} (h : @decide _ (decPerforms s k p off v) = true) :
    Performs s k p off v := @of_decide_eq_true _ (decPerforms s k p off v) h

theorem accessM {s : State} {q : CbPar} {off v : Nat} (h : @decide _ (decPerformsM s q off v) = true) :
    PerformsM s q off v := @of_decide_eq_true _ (decPerformsM s q off v) h

theorem accessRead {s : State} {p : Path} {off : Nat} (h : @decide _ (decPerformsRead s p off) = true) :
    PerformsRead s p off := @of_decide_eq_true _ (decPerformsRead s p off) h

theorem parity {r : Bool} {off : Nat} {d : Word} {a : Bool} {p : BitVec 3} (h : @decide _ (decParity r off d a p) = true) :
    parityGood r off d a p := @of_decide_eq_true _ (decParity r off d a p) h

theorem ofNone {α : Type} {o : Option α} {P : α → Prop} (h : o = none) : ∀ a, o = some a → P a :=
  fun _ e => nomatch h.symm.trans e

/-- The state a command leaves. -/
def outOf (o : Host.Outcome State Fault Refusal) : State :=
  match o with
  | .next t => t
  | _ => State.reset

/-! ### States to start from -/

/-- A device that has started: READY, the timebase locked, the start-up window closed. -/
def up : State :=
  { State.reset with
    clk := 1000000000000, time := { pll := true },
    start := { ready := true, checked := true, memInit := true, window := false } }

/-- s with the bus granted to master m. -/
def on (m : Nat) (s : State) : State := { s with bus := { s.bus with grant := some m } }

/-- Management on the bus. -/
def mg : State := on 0 up

/-- The parity of a management write. -/
def qW (off v : Nat) : CbPar := ⟨aparOf (BitVec.ofNat 8 off) false, parOf (word v)⟩

/-- A control-bus path with the parity of a write, and of a read. -/
def pW (off v : Nat) : Path := .cb (aparOf (BitVec.ofNat 8 off) false) (parOf (word v))

def pR (off : Nat) : Path := .cb (aparOf (BitVec.ofNat 8 off) true) 0

/-- Tenant k in service: its host link is in L0 with memory and bus mastering on, its engine on. -/
def inService (k : Nat) (s : State) : State :=
  modLink k (fun l => { l with state := .l0, bme := true, mse := true })
    (modTen k (fun x => { x with inReset := false, enable := true, stepped := true, engineEn := true }) s)

/-- Tenant 1 in service, and its BAR0 path. -/
def tn : State := inService 1 up

def bar : Path := .bar0 1 15

/-- Tenant 1 with ring r of 32 slots enabled and changed. -/
def tnRing (r : Nat) (f : Ring → Ring) : State :=
  modRing 1 r (fun x => f { x with enable := true }) (putRowWord 0x01 1 r 8 3 5 tn)

/-- An entry of one buffer of 64 bytes at 0x1000. -/
def entry : Entry := { pos := 0, len := 1, kind := 0, slots := [[0x80080040, 0, 0x1000, 0]] }

/-- A relayed frame of class 3 in an egress-stage slot. -/
def relayed : Staged := { cls := 3, origin := .relay, launch := none, supplied := 0, tag := [], bytes := [1, 2] }

/-- A frame of n bytes in staging with one buffer to read. -/
def gather (r : Nat) : TxStage := ⟨r, 0, [(0x1000, 64)], [], false, 0⟩

/-- A frame of 64 bytes of an EtherType with a good FCS. -/
def wireFrame (ty : Nat) (rest : List Byte) : List Byte :=
  let b := List.replicate 12 (0x11 : Byte) ++ beBytes 2 ty ++ rest ++ List.replicate (46 - rest.length) 0
  b ++ fcsOf b

/-- Port 0 enabled in 1000BASE-X with its link up. -/
def pt (f : Port → Port) : State :=
  modPort 0 (fun x => f { x with link := true, speed := 3 }) (setPw 0x110000 1 (setPw 0x100000 1 up))

/-- A frame waiting in the RX stage of port 0. -/
def rxItem : RxItem := ⟨wireFrame 0x1234 [], 0, false, 0⟩

/-- Port 0 with that frame, all addresses and VLANs admitted, and a value in DEFAULT_ACTION. -/
def rxed (dflt : Nat) : State :=
  putRowWord 0x02 0 32 3 2 (2 ^ 23) (putRowWord 0x03 0 0 1 0 (2 ^ 24 - 1) (setPw 0x200005 dflt
    (modPort 0 (fun x => { x with rx := [rxItem] }) (inService 1 up))))

/-- That frame as port 0 takes it into the Thicket. -/
def taken (s : State) : State :=
  { modPort 0 (rxTake rxItem s.clk []) s with thicket := { s.thicket with last := 0 } }

/-- A UDP datagram over IPv4 in a frame. -/
def udpFrame : List Byte :=
  wireFrame 0x0800 [0x45, 0, 0, 28, 0, 0, 0, 0, 64, 17, 0, 0, 10, 0, 0, 1, 10, 0, 0, 2, 0x12, 0x34, 0x56, 0x78, 0, 8, 0, 0]

/-- That frame of port 0 waiting for its extended flow row since r resets of tenant 0. -/
def flowWait (r : Nat) : TFrame := ⟨0, ⟨udpFrame, 0, false, 0⟩, 0, 0x40, 0, r⟩

/-- An extended flow row that frame hits, with the last dword d. -/
def flowRow (d : Nat) : List Byte :=
  let q := parse udpFrame
  leBytes 4 (2 ^ 31 + 17 * 65536) ++ addr16 (q.src udpFrame) ++ addr16 (q.dst udpFrame)
    ++ leBytes 4 (0x1234 + 0x5678 * 65536) ++ leBytes 4 d

/-- Rule r of priority prio matches every frame and raises the flags a, b of its action words. -/
def ruled (r prio a b : Nat) (s : State) : State :=
  let p := fun i v => putRowWord 0x04 0 r 32 i v
  p 0 (2 ^ 23 + prio) (p 1 (2 ^ 24 - 1) (p 2 255 (p 27 65535 (p 29 65535 (p 30 a (p 31 b s))))))

/-- A mounted medium of pages of size bytes, two free blocks and one with a sealed segment of stream 5, with management
on the bus. -/
def stored (size : Nat) (f : Store → Store) : State :=
  setPw 0x410002 size (setPw 0x410003 64 (setPw 0x400000 1 (mg |> fun s => { s with store := f { s.store with
    medium := 3, streams := [(5, { state := 1 })],
    blocks := [⟨9, 0, 0, false, false, 0⟩, ⟨90, 0, 0, false, false, 0⟩, ⟨3, 0, 1, false, false, 0⟩],
    segs := [⟨5, 7, 2, true, 0, 0, (0, 0), (0, 0), [], [], [], 0, true, true, some 9⟩] } })))

/-- The open segment of stream 3 in block 0. -/
def openOne : Segment := { stream := 3, seq := 8, block := 0 }

/-- Stream 3 waits with one frame of 8 bytes and an open segment. -/
def waiting3 (size : Nat) : State :=
  { stored size (fun x => { x with segs := [openOne], streams := [(3, { state := 1, wait := [.frame 5 0] })] }) with
    frames := [(5, ⟨[], [1, 2, 3, 4, 5, 6, 7, 8], 1, [], 1, none, none, 0⟩)] }

/-- A request of a channel that meets nothing. -/
def quietIo : BurstIo := ⟨.none, false, [], false⟩

/-- A cartridge of one target of n blocks with a unique ID, its label copies and its blocks. -/
def cart (n : Nat) (labels : List (List Byte)) (bs : List BlockState) : Cartridge :=
  { targets := [[(⟨1, 4096, 1000, 64, n, (0, 0)⟩, true)]],
    ids := [(List.replicate 16 7, List.replicate 16 0xF8)],
    labels := labels, blocks := bs, powered := 0, marks := [], segments := [], image := [] }

/-- The geometry the store reads from it. -/
def geo (n : Nat) : Geometry := ⟨1, 1, 4096, 1000, 64, n, (0, 0)⟩

/-- A cartridge without a valid parameter page. -/
def badCart : Cartridge := { cart 2 [] [] with targets := [[]] }

/-- A label of this unit on that cartridge, and one of another unit. -/
def own : Label := ⟨3, List.replicate 16 7, BitVec.ofNat 48 Config.uid, 0, 2, 2, 0⟩

def foreign : Label := { own with owner := BitVec.ofNat 48 (Config.uid + 1) }

theorem label_read (l : Label) (h : labelFits l) (i : l.cartId = List.replicate 16 7) (n : Nat) (bs : List BlockState) :
    chooseLabel (uniqueIdOf (cart n [labelBytes l] bs)) (cart n [labelBytes l] bs).labels = some l := by
  have := parseLabel_labelBytes l h
  rw [i] at this
  exact this

theorem own_read (n : Nat) (bs : List BlockState) :
    chooseLabel (uniqueIdOf (cart n [labelBytes own] bs)) (cart n [labelBytes own] bs).labels = some own :=
  label_read own (by unfold labelFits; decide) rfl n bs

theorem foreign_read (n : Nat) (bs : List BlockState) :
    chooseLabel (uniqueIdOf (cart n [labelBytes foreign] bs)) (cart n [labelBytes foreign] bs).labels = some foreign :=
  label_read foreign (by unfold labelFits; decide) rfl n bs

theorem own_label : ownLabel own = true := by simp [ownLabel, own]

theorem foreign_label : ownLabel foreign = false := by
  simp [ownLabel, foreign]; omega

/-- A paired unit of role r with its link up and HELLO exchanged, two scratch ways granted, management on the bus. -/
def paired (r : Nat) (f : Pair → Pair) : State :=
  setPw 0x700000 1 { mg with
    pair := f { mg.pair with started := true, link := true, hello := true, role := r, partnerCredit := 16 },
    canopy := { mg.canopy with pairWays := [0, 1] } }

/-- A Ride frame of a type with a payload, from an ACTIVE partner, with SEQ 0, EPOCH e and 16 credits. -/
def ride (type : Nat) (e : Nat) (payload : List Byte) : RideFrame :=
  ⟨⟨BitVec.ofNat 8 type, 0, payload.length, 0, 0, BitVec.ofNat 32 e, 16, 1, 0⟩, payload⟩

/-- A sequenced frame of a sender, sent once at clock instant 0 and n times since. -/
def outFrame (seq n at0 : Nat) : RideOut := ⟨{ ride 8 0 [] with hdr := { (ride 8 0 []).hdr with seq := BitVec.ofNat 16 seq } }, at0, at0, n⟩

/-- The first burst of an epoch image of 800 bytes. -/
def firstBurst : List Byte :=
  leBytes 8 0 ++ [0x45] ++ List.replicate 7 0 ++ leBytes 4 800 ++ List.replicate 52 0

/-! ### The hypotheses of the statements can be met -/

theorem test_hyps_ArbitrationFollowsTheRoundRobin :
    (∃ (s : State) (j : Nat), ∃ i, s.bus.lastGrant ≤ 4 ∧ s.bus.lastTenant ≤ 4 ∧ nextMaster s = some j ∧
      bitOf (pn s 0x0200F0) 0 = false ∧ i < (j + 4 + 4 * s.bus.lastGrant) % 5) ∧
    (∃ (s : State) (j : Nat), s.bus.lastGrant ≤ 4 ∧ s.bus.lastTenant ≤ 4 ∧ nextMaster s = some j ∧
      bitOf (pn s 0x0200F0) 0 = true ∧ wants s 0 = true) ∧
    (∃ (s : State) (j : Nat), ∃ i, s.bus.lastGrant ≤ 4 ∧ s.bus.lastTenant ≤ 4 ∧ nextMaster s = some j ∧
      bitOf (pn s 0x0200F0) 0 = true ∧ wants s 0 = false ∧ i < (j + 3 + 3 * s.bus.lastTenant) % 4) ∧
    (∃ (s : State) (j : Nat), s.bus.lastGrant ≤ 4 ∧ s.bus.lastTenant ≤ 4 ∧ nextMaster s = some j ∧
      s.bus.grant = none ∧ s.bus.ack = none ∧ busLive s = true) ∧
    (∃ s : State, ∃ m, nextMaster s = none ∧ m < 5) :=
  ⟨⟨{ up with bus := { up.bus with req := 4, lastGrant := 0 } }, 2, 0, by decide +kernel⟩,
   ⟨(setPw 0x0200F0 1 { up with bus := { up.bus with req := 5, lastGrant := 0, lastTenant := 4 } }), 0,
       by decide +kernel⟩,
   ⟨(setPw 0x0200F0 1 { up with bus := { up.bus with req := 18, lastTenant := 1 } }), 4, 1, by decide +kernel⟩,
   ⟨{ up with bus := { up.bus with req := 4, lastGrant := 0 } }, 2, by decide +kernel⟩,
   ⟨up, 3, by decide +kernel⟩⟩

theorem test_hyps_RequestsTakeAndLeaveTheBus :
    (∃ (s : State) (m : Fin 5), s.tap = false ∧ s.bus.offAt.find? (fun e => e.1 == m.val) = none) ∧
    (∃ (s : State) (m : Fin 5) (off : Nat), s.tap = false ∧
      s.bus.offAt.find? (fun e => e.1 == m.val) = some (m.val, off)) ∧
    (∃ s : State, (s.bus.grant ≠ none ∨ s.bus.ack ≠ none ∨ busLive s = false ∨ nextMaster s = none)) ∧
    (∃ (s : State) (j : Nat), s.bus.grant = none ∧ s.bus.ack = none ∧ busLive s = true ∧ nextMaster s = some j) ∧
    (∃ (s u : State) (m : Fin 5), u = { s with bus := { s.bus with req := s.bus.req &&& ~~~BitVec.ofNat 5 (2 ^ m.val), offAt := if s.bus.ignored.getLsbD m && s.bus.req.getLsbD m then tput s.bus.offAt m s.clk else s.bus.offAt } } ∧
      s.tap = false ∧ (s.bus.grant ≠ some m.val ∨ s.bus.ack ≠ none)) ∧
    (∃ (s u : State) (m : Fin 5), u = { s with bus := { s.bus with req := s.bus.req &&& ~~~BitVec.ofNat 5 (2 ^ m.val), offAt := if s.bus.ignored.getLsbD m && s.bus.req.getLsbD m then tput s.bus.offAt m s.clk else s.bus.offAt } } ∧
      s.tap = false ∧ s.bus.grant = some m.val ∧ s.bus.ack = none) :=
  ⟨⟨up, 2, by decide +kernel⟩,
   ⟨{ up with bus := { up.bus with offAt := [(2, up.clk)] } }, 2, up.clk, by decide +kernel⟩,
   ⟨(on 1 up), by decide +kernel⟩,
   ⟨{ up with bus := { up.bus with req := 4 } }, 2, by decide +kernel⟩,
   ⟨(on 1 up), _, 2, rfl, by decide +kernel⟩,
   ⟨(on 2 { up with bus := { up.bus with req := 4 } }), _, 2, rfl, by decide +kernel⟩⟩

theorem test_hyps_TenuresEndAndRevocationsReport :
    (∃ (s : State) (m : Nat), s.tap = false ∧ s.bus.grant = some m ∧ s.bus.grantAt + us s.bus.limit ≤ s.clk ∧
      s.bus.ack = none) ∧
    (∃ (s : State) (m : Nat), s.tap = false ∧ s.bus.grant = some m ∧ s.bus.grantAt + us s.bus.limit ≤ s.clk ∧
      s.bus.ack ≠ none ∧ s.bus.ending ≠ .disable) ∧
    (∃ (s : State) (m since : Nat) (e : Bool), s.tap = false ∧ s.bus.grant = some m ∧ s.bus.ack = some (e, since) ∧
      since + us 1 ≤ s.clk) ∧
    (∃ (s : State) (m : Fin 5) (off : Nat), s.tap = false ∧
      s.bus.offAt.find? (fun e => e.1 == m.val) = some (m.val, off) ∧ off + us 1 ≤ s.clk) ∧
    (∃ s : State, s.tap = false ∧ busLive s = true ∧ s.bus.grant = none) ∧
    (∃ (s : State) (m since : Nat) (e : Bool), s.tap = false ∧ s.bus.grant = some m ∧ s.bus.ack = some (e, since) ∧
      s.clk ≤ since + us 1 ∧ s.bus.ending = .none ∧ s.bus.req.getLsbD m = true) ∧
    (∃ (s : State) (m since : Nat) (e : Bool), s.tap = false ∧ s.bus.grant = some m ∧ s.bus.ack = some (e, since) ∧
      s.clk ≤ since + us 1 ∧ s.bus.ending = .revoke) ∧
    (∃ (s : State) (m since : Nat) (e : Bool), s.tap = false ∧ s.bus.grant = some m ∧ s.bus.ack = some (e, since) ∧
      s.clk ≤ since + us 1 ∧ (s.bus.ending = .disable ∨ s.bus.ending = .none ∧ s.bus.req.getLsbD m = false)) ∧
    (∃ m : Nat, m < 5 ∧ m = 0) ∧
    (∃ m : Nat, m < 5 ∧ m ≠ 0) :=
  ⟨⟨(on 2 up), 2, by decide +kernel⟩,
   ⟨{ on 2 up with bus := { (on 2 up).bus with ack := some (false, up.clk) } }, 2, by decide +kernel⟩,
   ⟨{ on 2 up with bus := { (on 2 up).bus with ack := some (false, 0) } }, 2, 0, false, by decide +kernel⟩,
   ⟨{ up with bus := { up.bus with offAt := [(2, 0)], ignored := 4, req := 4 } }, 2, 0, by decide +kernel⟩,
   ⟨up, by decide +kernel⟩,
   ⟨{ on 2 up with bus := { (on 2 up).bus with req := 4, ack := some (false, up.clk - 500) } }, 2, (up.clk - 500),
       false, by decide +kernel⟩,
   ⟨{ on 2 up with bus := { (on 2 up).bus with ending := .revoke, ack := some (false, up.clk) } }, 2, up.clk, false,
       by decide +kernel⟩,
   ⟨{ on 2 up with bus := { (on 2 up).bus with ending := .disable, ack := some (false, up.clk) } }, 2, up.clk, false,
       by decide +kernel⟩,
   ⟨0, by decide +kernel⟩,
   ⟨3, by decide +kernel⟩⟩

theorem test_hyps_PlainAccessesActAsTheirClassStates :
    (∃ (s : State) (apar : Bool) (d : Word) (par : BitVec 3), parityGood false 6 d apar par ∧ s.tap = false ∧
      busLive s = true ∧ s.bus.ack = none ∧ s.bus.grant = some 0) ∧
    (∃ (s : State) (apar : Bool) (d : Word) (par : BitVec 3), parityGood true 6 d apar par ∧ s.tap = false ∧
      busLive s = true ∧ s.bus.ack = none ∧ s.bus.grant = some 0) ∧
    (∃ (s : State) (apar : Bool) (d : Word) (par : BitVec 3), ∃ off, parityGood false off d apar par ∧ s.tap = false ∧
      busLive s = true ∧ s.bus.ack = none ∧ s.bus.grant = some 0 ∧ off < 3) ∧
    (∃ (s : State) (m : Nat) (read : Bool) (addr : BitVec 8) (apar : Bool), s.tap = false ∧ busLive s = true ∧
      s.bus.ack = none ∧ s.bus.grant = some m ∧ apar ≠ aparOf addr read ∧ s.start.ready = false) ∧
    (∃ (s : State) (m : Nat) (read : Bool) (addr : BitVec 8) (apar : Bool), s.tap = false ∧ busLive s = true ∧
      s.bus.ack = none ∧ s.bus.grant = some m ∧ apar ≠ aparOf addr read ∧ s.start.ready = true) ∧
    (∃ (s : State) (t : Fin 4), s.tap = false ∧ linkUp s t = true ∧ (link s t).mse = false) :=
  ⟨⟨mg, (aparOf 6 false), 0x123456, (parOf 0x123456), parity (by decide +kernel), by decide +kernel⟩,
   ⟨mg, (aparOf 6 true), 0, 0, parity (by decide +kernel), by decide +kernel⟩,
   ⟨mg, (aparOf 2 false), 0x123456, (parOf 0x123456), 2, parity (by decide +kernel), by decide +kernel⟩,
   ⟨(on 1 State.reset), 1, true, 4, (!aparOf 4 true), by decide +kernel⟩,
   ⟨(on 1 up), 1, true, 4, (!aparOf 4 true), by decide +kernel⟩,
   ⟨(modLink 1 (fun l => { l with mse := false }) tn), 1, by decide +kernel⟩⟩

theorem test_hyps_AnchoredGroupsReadAndCommitWhole :
    (∃ (s : State) (p : Path) (g : Group) (ecc : Bool) (k v : Nat), PerformsRead s p (groupOff g) ∧
      (ecc = false ∨ g ≠ .perf) ∧ groupAt (pathWin s p) (groupOff g) = some (k, 0) ∧
      groupValue s (pathWin s p) k = some v) ∧
    (∃ (s : State) (apar : Bool) (par : BitVec 3), ∃ n, PerformsRead s (.cb apar par) 0x25 ∧ s.bus.grant = some 0 ∧
      s.start.ready = true ∧ s.mgmt.perfSel = n + 1 ∧ n < 8) ∧
    (∃ (s : State) (apar : Bool) (par : BitVec 3), PerformsRead s (.cb apar par) 0x25 ∧ s.bus.grant = some 0 ∧
      s.start.ready = true ∧ s.mgmt.perfSel = 0) ∧
    (∃ (s : State) (p : Path) (g : Group) (k : Nat) (high : Bool) (d : Word), Performs s .any p
        (groupOff g + if high then 2 else 1) d.toNat ∧
      k < 3 ∧ groupAt (pathWin s p) (groupOff g) = some (k, 0) ∧ groupOpen s (pathWin s p) k = true) ∧
    (∃ (s : State) (p : Path) (d : Word) (v c : Nat), Performs s .any p 0x29 d.toNat ∧
      selChan s (pathWin s p) = some c ∧ groupOpen s (pathWin s p) 0 = true ∧
      v = (shadow s (pathWin s p) (pathNo p) 0).wr / 2 ^ 24 * 2 ^ 24 + d.toNat) ∧
    (∃ (s : State) (p : Path) (d : Word) (v c : Nat), Performs s .any p 0x2C d.toNat ∧
      selChan s (pathWin s p) = some c ∧ groupOpen s (pathWin s p) 1 = true ∧
      v = (shadow s (pathWin s p) (pathNo p) 1).wr / 2 ^ 24 * 2 ^ 24 + d.toNat) ∧
    (∃ (s : State) (p : Path) (d : Word) (v : Nat), Performs s .any p 0x35 d.toNat ∧
      (win s (pathWin s p)).canopyBusy = false ∧
      v = (shadow s (pathWin s p) (pathNo p) 2).wr / 2 ^ 24 * 2 ^ 24 + d.toNat) :=
  ⟨⟨mg, (pR 0x29), .xferSrc, false, 0, 0, accessRead (by decide +kernel), by decide +kernel⟩,
   ⟨{ mg with mgmt := { mg.mgmt with perfSel := 8 } }, (aparOf 0x25 true), 0, 7, accessRead (by decide +kernel),
       by decide +kernel⟩,
   ⟨mg, (aparOf 0x25 true), 0, accessRead (by decide +kernel), by decide +kernel⟩,
   ⟨mg, (pW 0x2B 7), .xferSrc, 0, true, 7, access (by decide +kernel), by decide +kernel⟩,
   ⟨mg, (pW 0x29 7), 7, 7, 0, access (by decide +kernel), by decide +kernel⟩,
   ⟨mg, (pW 0x2C 7), 7, 7, 0, access (by decide +kernel), by decide +kernel⟩,
   ⟨mg, (pW 0x35 7), 7, 7, access (by decide +kernel), by decide +kernel⟩⟩

theorem test_hyps_TablePortsMoveWordsAndRows :
    (∃ (s : State) (p : Path), PerformsRead s p 0x0F ∧ portBusy s (win s (pathWin s p)).tstat = false) ∧
    (∃ (s : State) (p : Path) (d : Word), ∃ k, Performs s .any p 0x0F d.toNat ∧
      portBusy s (win s (pathWin s p)).tstat = false ∧ (win s (pathWin s p)).tblWord < 64 ∧
      k ≠ (win s (pathWin s p)).tblWord) ∧
    (∃ (s : State) (p : Path) (d : Word), Performs s .any p 0x0F d.toNat ∧
      portBusy s (win s (pathWin s p)).tstat = false ∧ (win s (pathWin s p)).tblWord < 64 ∧
      (win s (pathWin s p)).tblWord + 1 < bufLen s (pathWin s p) ∧ (win s (pathWin s p)).tblWord < 63) ∧
    (∃ (s : State) (p : Path) (d : Word), Performs s .any p 0x0F d.toNat ∧
      portBusy s (win s (pathWin s p)).tstat = false ∧ (win s (pathWin s p)).tblWord < 64 ∧
      (win s (pathWin s p)).tblWord + 1 = bufLen s (pathWin s p)) ∧
    (∃ (s : State) (p : Path) (w table inst r : Nat) (d : Table), Performs s .any p 0x10 1 ∧ w = pathWin s p ∧
      portBusy s (win s w).tstat = false ∧ tableAddress s w = .inr (table, inst, r, d) ∧
      (w = 0 ∨ tenantReadsTable table = true)) ∧
    (∃ (s : State) (p : Path) (w table inst r : Nat) (d : Table), ∃ res u, Performs s .any p 0x10 2 ∧
      (res, u) = rowPut (w == 0 || tenantWritesTable table) 2 table inst r d.words ((win s w).buf.take d.words)
          (written p s) ∧
      w = pathWin s p ∧ portBusy s (win s w).tstat = false ∧ tableAddress s w = .inr (table, inst, r, d)) ∧
    (∃ (s : State) (p : Path) (w table inst r : Nat) (d : Table), ∃ res u, Performs s .any p 0x10 3 ∧
      (res, u) = rowPut (w == 0 || tenantWritesTable table) 3 table inst r d.words ((win s w).buf.take d.words)
          (written p s) ∧
      w = pathWin s p ∧ portBusy s (win s w).tstat = false ∧ tableAddress s w = .inr (table, inst, r, d)) ∧
    (∃ (s : State) (w : Nat), tableInfo (bits (win s w).tblId 0 8) (blockTableRows s) = none) ∧
    (∃ (s : State) (w : Nat) (d : Table), tableInfo (bits (win s w).tblId 0 8) (blockTableRows s) = some d ∧
      d.rows ≤ (win s w).tblRow.toNat) ∧
    (∃ (s : State) (op table inst r : Nat), (op = 2 ∨ op = 3) ∧ rowGuard s op table inst r = true) ∧
    (∃ (s : State) (op table inst r : Nat), ∃ a b c, (op = 2 ∨ op = 3) ∧ s.safety.safe = false ∧
      mirrorBarred s = false ∧ (table = 2 ∨ table = 3 ∨ table = 7 ∨ table = 9) ∧ rowKey a b c ≠ rowKey table inst r) :=
  ⟨⟨mg, (pR 0x0F), accessRead (by decide +kernel), by decide +kernel⟩,
   ⟨(modWin 0 (fun x => { x with tblWord := 63 }) mg), (pW 0x0F 9), 9, 5, access (by decide +kernel),
       by decide +kernel⟩,
   ⟨(modWin 0 (fun x => { x with tblId := 0x02, tblWord := 1 }) mg), (pW 0x0F 9), 9, access (by decide +kernel),
       by decide +kernel⟩,
   ⟨(modWin 0 (fun x => { x with tblWord := 63 }) mg), (pW 0x0F 9), 9, access (by decide +kernel), by decide +kernel⟩,
   ⟨(modWin 0 (fun x => { x with tblId := 0x04, tblRow := 2047 }) mg), (pW 0x10 1), 0, 4, 0, 2047,
       ((tableInfo 4 0).getD ⟨0, 0, 0⟩), access (by decide +kernel), by decide +kernel⟩,
   ⟨(modWin 0 (fun x => { x with tblId := 0x02, tblRow := 3, buf := [1, 2, 3] }) mg), (pW 0x10 2), 0, 2, 0, 3,
       ((tableInfo 2 0).getD ⟨0, 0, 0⟩), _, _, access (by decide +kernel), rfl, by decide +kernel⟩,
   ⟨(modWin 0 (fun x => { x with tblId := 0x02, tblRow := 3 }) mg), (pW 0x10 3), 0, 2, 0, 3, ((tableInfo 2 0).getD ⟨0,
       0, 0⟩), _, _, access (by decide +kernel), rfl, by decide +kernel⟩,
   ⟨(modWin 2 (fun x => { x with tblId := 0x30 }) mg), 2, by decide +kernel⟩,
   ⟨(modWin 0 (fun x => { x with tblId := 0x04, tblRow := 2048 }) up), 0, ((tableInfo 4 0).getD ⟨0, 0, 0⟩),
       by decide +kernel⟩,
   ⟨(modPort 0 (fun x => { x with gate := { x.gate with enable := true, active := 1 } }) up), 2, 6, 0, 256,
       by decide +kernel⟩,
   ⟨up, 2, 2, 31, 31, 2, 31, 30, by decide +kernel⟩⟩

theorem test_hyps_ParameterReadsLatchWideValues :
    (∃ (s : State) (p : Path) (w id : Nat), Performs s .any p 0x0A 1 ∧ w = pathWin s p ∧
      portBusy s (win s w).pstat = false ∧ id = (win s w).paramId.toNat ∧ paramInfo id = none) ∧
    (∃ (s : State) (p : Path) (w id : Nat), ∃ i, Performs s .any p 0x0A 1 ∧ w = pathWin s p ∧
      portBusy s (win s w).pstat = false ∧ id = (win s w).paramId.toNat ∧ paramInfo id = some i ∧
      mayRead w id = false) ∧
    (∃ (s : State) (p : Path) (w id : Nat), ∃ i, Performs s .any p 0x0A 1 ∧ w = pathWin s p ∧
      portBusy s (win s w).pstat = false ∧ id = (win s w).paramId.toNat ∧ paramInfo id = some i ∧ mayRead w id = true ∧
      i.words ≤ 1) ∧
    (∃ (s : State) (p : Path) (w id : Nat), ∃ i, Performs s .any p 0x0A 1 ∧ w = pathWin s p ∧
      portBusy s (win s w).pstat = false ∧ id = (win s w).paramId.toNat ∧ paramInfo id = some i ∧ mayRead w id = true ∧
      1 < i.words ∧ id = i.anchor) ∧
    (∃ (s : State) (p : Path) (w id : Nat), ∃ i v, Performs s .any p 0x0A 1 ∧ w = pathWin s p ∧
      portBusy s (win s w).pstat = false ∧ id = (win s w).paramId.toNat ∧ paramInfo id = some i ∧ mayRead w id = true ∧
      1 < i.words ∧ id ≠ i.anchor ∧ (win s w).latch = some (i.anchor, v)) ∧
    (∃ (s : State) (p : Path) (w : Nat), Performs s .any p 0x0A 3 ∧ w = pathWin s p ∧
      portBusy s (win s w).pstat = false) ∧
    (∃ (s : State) (w : Fin 5), s.tap = false ∧ (win s w).pstat.busy = true ∧ (w.val ≠ 0 ∨ s.mgmt.handover = none)) ∧
    (∃ (s : State) (id v : Nat), s.tap = false ∧ s.mgmt.handover = some (id, v) ∧
      ((movedChannels s id v).any fun c => (chan s c).busy) = true) ∧
    (∃ (s : State) (id v : Nat), ∃ i, s.tap = false ∧ s.mgmt.handover = some (id, v) ∧
      ((movedChannels s id v).any fun c => (chan s c).busy) = false ∧ paramInfo id = some i) ∧
    (∃ (s : State) (w : Fin 5), s.tap = false ∧ (win s w).tstat.busy = true) :=
  ⟨⟨(modWin 0 (fun x => { x with paramId := 0x123456 }) mg), (pW 0x0A 1), 0, 0x123456, access (by decide +kernel),
      by decide +kernel⟩,
   ⟨(modWin 2 (fun x => { x with paramId := 0x200000 }) tn), bar, 2, 0x200000, ((paramInfo 0x200000).getD ⟨0, 0, false,
       0, .mask 0⟩), access (by decide +kernel), by decide +kernel⟩,
   ⟨(modWin 0 (fun x => { x with paramId := 0x200000 }) mg), (pW 0x0A 1), 0, 0x200000, ((paramInfo 0x200000).getD ⟨0, 0,
       false, 0, .mask 0⟩), access (by decide +kernel), by decide +kernel⟩,
   ⟨(modWin 0 (fun x => { x with paramId := 0x200001 }) mg), (pW 0x0A 1), 0, 0x200001, ((paramInfo 0x200001).getD ⟨0, 0,
       false, 0, .mask 0⟩), access (by decide +kernel), by decide +kernel⟩,
   ⟨(modWin 0 (fun x => { x with paramId := 0x200003, latch := some (0x200001, 2 ^ 60 + 5) }) mg), (pW 0x0A 1), 0,
       0x200003, ((paramInfo 0x200003).getD ⟨0, 0, false, 0, .mask 0⟩), (2 ^ 60 + 5), access (by decide +kernel),
       by decide +kernel⟩,
   ⟨mg, (pW 0x0A 3), 0, access (by decide +kernel), by decide +kernel⟩,
   ⟨(modWin 4 (fun x => { x with pstat := { x.pstat with busy := true } }) up), 4, by decide +kernel⟩,
   ⟨{ modChan 9 (fun x => { x with busy := true }) up with mgmt := { up.mgmt with handover := some (0x500000, 4) } },
       0x500000, 4, by decide +kernel⟩,
   ⟨{ up with mgmt := { up.mgmt with handover := some (0x500000, 1) } }, 0x500000, 1, ((paramInfo 0x500000).getD ⟨0, 0,
       false, 0, .mask 0⟩), by decide +kernel⟩,
   ⟨(modWin 0 (fun x => { x with tstat := { x.tstat with busy := true } }) up), 0, by decide +kernel⟩⟩

theorem test_hyps_ParameterWritesCommitOnTheAnchor :
    (∃ (s : State) (p : Path) (w id : Nat), Performs s .any p 0x0A 2 ∧ w = pathWin s p ∧
      portBusy s (win s w).pstat = false ∧ id = (win s w).paramId.toNat ∧ paramInfo id = none) ∧
    (∃ (s : State) (p : Path) (w id : Nat), ∃ i, Performs s .any p 0x0A 2 ∧ w = pathWin s p ∧
      portBusy s (win s w).pstat = false ∧ id = (win s w).paramId.toNat ∧ paramInfo id = some i ∧
      (i.rw = false ∨ mayWrite s w id = false ∨ s.safety.safe = true ∨ itemGuard s id = true)) ∧
    (∃ (s : State) (p : Path) (w id : Nat), ∃ i, Performs s .any p 0x0A 2 ∧ w = pathWin s p ∧
      portBusy s (win s w).pstat = false ∧ id = (win s w).paramId.toNat ∧ paramInfo id = some i ∧ i.rw = true ∧
      mayWrite s w id = true ∧ s.safety.safe = false ∧ mirrorBarred s = false ∧ itemGuard s id = false ∧
      id ≠ i.anchor) ∧
    (∃ (s : State) (p : Path) (w id : Nat), ∃ i r u, Performs s .any p 0x0A 2 ∧
      (r, u) = paramCommit i (win s w).paramData.toNat (written p s) ∧ w = pathWin s p ∧
      portBusy s (win s w).pstat = false ∧ id = (win s w).paramId.toNat ∧ paramInfo id = some i ∧ i.rw = true ∧
      mayWrite s w id = true ∧ s.safety.safe = false ∧ mirrorBarred s = false ∧ id = i.anchor ∧ i.words = 1) ∧
    (∃ id v m : Nat, ∃ i k, (id, m) ∈ [(0x200000, 0x77), (0x200005, 0x8003FF), (0x200006, 0xFFFFFF), (0x210000, 1),
        (0x210001, 0xFFFFFF), (0x210002, 1), (0x220000, 0xF)] ∧
      v < 2 ^ 24 ∧ paramInfo id = some i ∧ k ≠ id) ∧
    (∃ (s : State) (i : Param) (v : Nat), paramGuard s i.anchor v = true) ∧
    (∃ (s : State) (i : Param) (v : Nat), paramGuard s i.anchor v = false ∧
      (paramForbidden s i.anchor v = true ∨ fitValue i.fit v = none)) :=
  ⟨⟨(modWin 0 (fun x => { x with paramId := 0x123456 }) mg), (pW 0x0A 2), 0, 0x123456, access (by decide +kernel),
      by decide +kernel⟩,
   ⟨(modWin 0 (fun x => { x with paramId := 0x010003 }) mg), (pW 0x0A 2), 0, 0x010003, ((paramInfo 0x010003).getD ⟨0, 0,
       false, 0, .mask 0⟩), access (by decide +kernel), by decide +kernel⟩,
   ⟨(modWin 0 (fun x => { x with paramId := 0x200002, paramData := 0x55 }) mg), (pW 0x0A 2), 0, 0x200002,
       ((paramInfo 0x200002).getD ⟨0, 0, false, 0, .mask 0⟩), access (by decide +kernel), by decide +kernel⟩,
   ⟨(modWin 0 (fun x => { x with paramId := 0x210002, paramData := 1 }) mg), (pW 0x0A 2), 0, 0x210002,
       ((paramInfo 0x210002).getD ⟨0, 0, false, 0, .mask 0⟩), _, _, access (by decide +kernel), rfl, by decide +kernel⟩,
   ⟨0x200005, (2 ^ 24 - 1), 0x8003FF, ((paramInfo 0x200005).getD ⟨0, 0, false, 0, .mask 0⟩), 0x200000,
       by decide +kernel⟩,
   ⟨(setPw 0x310000 0 (modPort 0 (fun x => { x with gate := { x.gate with enable := true, swapAt := some 5 } }) up)),
       ((paramInfo 0x310001).getD ⟨0, 0, false, 0, .mask 0⟩), 4, by decide +kernel⟩,
   ⟨up, ((paramInfo 0x100001).getD ⟨0, 0, false, 0, .mask 0⟩), 7, by decide +kernel⟩⟩

theorem test_hyps_SourcesAreRaisedClaimedAndCompleted :
    (∃ (s : State) (w n : Nat), w < 256 ∧ n < 65536 ∧ bitOf (srcRow s w n) 23 = false) ∧
    (∃ (s : State) (w n : Nat), w < 256 ∧ n < 65536 ∧ bitOf (srcRow s w n) 23 = true ∧ srcRow s w n < 2 ^ 24 ∧
      bits (srcRow s w n) 0 4 < 15) ∧
    (∃ (s : State) (w n : Nat), w < 256 ∧ n < 65536 ∧ bitOf (srcRow s w n) 23 = true ∧ srcRow s w n < 2 ^ 24 ∧
      bits (srcRow s w n) 0 4 = 15) ∧
    (∃ w n : Nat, ∃ k, w < 256 ∧ n < 65536 ∧ k < 65536 ∧ k ≠ n) ∧
    (∃ (s : State) (p : Path) (w n : Nat), ∃ k, PerformsRead s p 0x14 ∧ w = pathWin s p ∧ claimable s w = some n ∧
      srcRow s w n < 2 ^ 24 ∧ k < 65536 ∧ k ≠ n) ∧
    (∃ (s : State) (p : Path) (w : Nat) (n : BitVec 6), Performs s .any p 0x15 n.toNat ∧ w = pathWin s p ∧
      1 ≤ n.toNat ∧ n.toNat ≤ 62 ∧ bitOf (srcRow s w n.toNat) 7 = true ∧
      (cond s w n.toNat = false ∨ bitOf (srcRow s w n.toNat) 23 = false ∨ bitOf (srcRow s w n.toNat) 22 = false)) ∧
    (∃ (s : State) (p : Path) (w : Nat) (n : BitVec 6), Performs s .any p 0x15 n.toNat ∧ w = pathWin s p ∧
      1 ≤ n.toNat ∧ n.toNat ≤ 62 ∧ bitOf (srcRow s w n.toNat) 7 = true ∧ cond s w n.toNat = true ∧
      bitOf (srcRow s w n.toNat) 23 = true ∧ bitOf (srcRow s w n.toNat) 22 = true) :=
  ⟨⟨up, 0, 13, by decide +kernel⟩,
   ⟨(putSrc 0 13 (2 ^ 23) up), 0, 13, by decide +kernel⟩,
   ⟨(putSrc 0 13 (2 ^ 23 + 15) up), 0, 13, by decide +kernel⟩,
   ⟨0, 13, 12, by decide +kernel⟩,
   ⟨(putSrc 0 13 (2 ^ 23 + 2 ^ 6 + 3) mg), (pR 0x14), 0, 13, 12, accessRead (by decide +kernel), by decide +kernel⟩,
   ⟨(putSrc 0 13 (2 ^ 23 + 2 ^ 7) mg), (pW 0x15 13), 0, 13, access (by decide +kernel), by decide +kernel⟩,
   ⟨(modTen 0 (fun x => { x with fault := 1, inReset := false }) (putSrc 0 10 (2 ^ 23 + 2 ^ 22 + 2 ^ 7) (setPw 0x80FF01
       (2 ^ 24 - 40) mg))), (pW 0x15 10), 0, 10, access (by decide +kernel), by decide +kernel⟩⟩

theorem test_hyps_DeviceAndManagementResetsActAsStated :
    (∃ (s : State) (q : CbPar), PerformsM s q 0x03 (0xC30001 + flag s.mgmt.trim 3)) ∧
    (∃ (s : State) (since : Nat), s.safety.resetFrom = some since ∧ since + ms 100 ≤ s.clk) ∧
    (∃ id, keptParam id = true) ∧
    (∃ id, keptParam id = false) ∧
    (∃ (s : State) (q : CbPar), ∃ c, PerformsM s q 0x03 (0xC30002 + flag s.mgmt.trim 3) ∧ s.mgmt.mgmtReset = false ∧
      s.mgmt.handover = none ∧ c < 16 ∧ chanOwner s c = .mgmt) ∧
    (∃ (s : State) (q : CbPar), ∃ k, PerformsM s q 0x03 (0xC30002 + flag s.mgmt.trim 3) ∧ s.mgmt.mgmtReset = false ∧
      s.mgmt.handover = none ∧ k < 16 ∧ (lock s k).owner = some 0) ∧
    (∃ (s : State) (q : CbPar), ∃ k, PerformsM s q 0x03 (0xC30002 + flag s.mgmt.trim 3) ∧ s.mgmt.mgmtReset = false ∧
      s.mgmt.handover = none ∧ (lock s k).owner ≠ some 0) ∧
    (∃ (s : State) (q : CbPar), ∃ n, PerformsM s q 0x03 (0xC30002 + flag s.mgmt.trim 3) ∧ s.mgmt.mgmtReset = false ∧
      1 ≤ n ∧ n ≤ 62) ∧
    (∃ s : State, s.tap = false) :=
  ⟨⟨mg, (qW 0x03 0xC30001), accessM (by decide +kernel)⟩,
   ⟨{ up with safety := { safe := true, resetFrom := some 0 } }, 0, by decide +kernel⟩,
   ⟨0x010006, by decide +kernel⟩,
   ⟨0x200000, by decide +kernel⟩,
   ⟨mg, (qW 0x03 0xC30002), 15, accessM (by decide +kernel), by decide +kernel⟩,
   ⟨{ mg with locks := [(15, { owner := some 0 })] }, (qW 0x03 0xC30002), 15, accessM (by decide +kernel),
       by decide +kernel⟩,
   ⟨{ mg with locks := [(3, { owner := some 2 })] }, (qW 0x03 0xC30002), 3, accessM (by decide +kernel),
       by decide +kernel⟩,
   ⟨mg, (qW 0x03 0xC30002), 62, accessM (by decide +kernel), by decide +kernel⟩,
   ⟨up, by decide +kernel⟩⟩

theorem test_hyps_TrimAndSleepPowerDown :
    (∃ (s : State) (q : CbPar), ∃ l, PerformsM s q 0x03 8 ∧ s.mgmt.trim = false ∧ l < 8 ∧
      bitOf (pn s 0x80FF02) l = true) ∧
    (∃ (s : State) (q : CbPar), ∃ l, PerformsM s q 0x03 0 ∧ s.mgmt.trim = true ∧ s.power.asleep = false ∧ l < 8) ∧
    (∃ (s : State) (q : CbPar), ∃ good, PerformsM s q 0x03 (0xC30004 + flag s.mgmt.trim 3) ∧ sleepBarred s = false ∧
      s.power.asleep = false ∧ good = false) ∧
    (∃ (s : State) (q : CbPar), ∃ k, PerformsM s q 0x03 (0xC30004 + flag s.mgmt.trim 3) ∧ sleepBarred s = false ∧
      s.power.asleep = false ∧ k < 4) ∧
    (∃ (s : State) (q : CbPar), PerformsM s q 0x03 (0xC30004 + flag s.mgmt.trim 3) ∧ sleepBarred s = true) :=
  ⟨⟨(setPw 0x80FF02 0x80 mg), (qW 0x03 8), 7, accessM (by decide +kernel), by decide +kernel⟩,
   ⟨{ mg with mgmt := { mg.mgmt with trim := true } }, (qW 0x03 0), 7, accessM (by decide +kernel), by decide +kernel⟩,
   ⟨(inService 1 mg), (qW 0x03 0xC30004), false, accessM (by decide +kernel), by decide +kernel⟩,
   ⟨(inService 1 mg), (qW 0x03 0xC30004), 3, accessM (by decide +kernel), by decide +kernel⟩,
   ⟨{ mg with image := { load := true } }, (qW 0x03 0xC30004), accessM (by decide +kernel), by decide +kernel⟩⟩

theorem test_hyps_LocksAreHeldByOneWindow :
    (∃ (s : State) (p : Path) (w k : Nat), Performs s .any p 0x19 1 ∧ w = pathWin s p ∧ k = (win s w).lockSel ∧
      k < 16 ∧ w < 5 ∧ ((lock s k).owner = some w ∨ (lock s k).owner = none ∧ (w = 0 ∨ (ten s (w - 1)).fault = 0))) ∧
    (∃ (s : State) (p : Path) (w k : Nat), Performs s .any p 0x19 1 ∧ w = pathWin s p ∧ k = (win s w).lockSel ∧
      k < 16 ∧ w < 5 ∧ ((∃ v, (lock s k).owner = some v ∧ v ≠ w) ∨ (lock s k).owner = none ∧ w ≠ 0 ∧
      (ten s (w - 1)).fault ≠ 0)) ∧
    (∃ (s : State) (p : Path) (w k : Nat), Performs s .any p 0x19 2 ∧ w = pathWin s p ∧ k = (win s w).lockSel ∧
      k < 16 ∧ (lock s k).owner = some w) ∧
    (∃ (s : State) (p : Path) (w k : Nat), Performs s .any p 0x19 2 ∧ w = pathWin s p ∧ k = (win s w).lockSel ∧
      k < 16 ∧ (lock s k).owner ≠ some w) ∧
    (∃ (s : State) (p : Path) (w k : Nat), Performs s .any p 0x19 3 ∧ w = pathWin s p ∧ k = (win s w).lockSel ∧
      k < 16 ∧ (lock s k).owner = some w) ∧
    (∃ (s : State) (p : Path) (w k : Nat), Performs s .any p 0x19 3 ∧ w = pathWin s p ∧ k = (win s w).lockSel ∧
      k < 16 ∧ (lock s k).owner ≠ some w) :=
  ⟨⟨(modWin 2 (fun x => { x with lockSel := 15 }) tn), (.bar0 1 15), 2, 15, access (by decide +kernel),
      by decide +kernel⟩,
   ⟨(modWin 2 (fun x => { x with lockSel := 15 }) { tn with locks := tput tn.locks 15 { owner := some 0 } }),
       (.bar0 1 15), 2, 15, access (by decide +kernel), by decide +kernel⟩,
   ⟨(modWin 2 (fun x => { x with lockSel := 15 }) { tn with locks := tput tn.locks 15 { owner := some 2 } }),
       (.bar0 1 15), 2, 15, access (by decide +kernel), by decide +kernel⟩,
   ⟨(modWin 2 (fun x => { x with lockSel := 15 }) tn), (.bar0 1 15), 2, 15, access (by decide +kernel),
       by decide +kernel⟩,
   ⟨(modWin 2 (fun x => { x with lockSel := 15 }) { tn with locks := tput tn.locks 15 { owner := some 2, broken := true } }),
       (.bar0 1 15), 2, 15, access (by decide +kernel), by decide +kernel⟩,
   ⟨(modWin 2 (fun x => { x with lockSel := 15 }) tn), (.bar0 1 15), 2, 15, access (by decide +kernel),
       by decide +kernel⟩⟩

theorem test_hyps_TimeCommandsLoadAndSetTheTime :
    (∃ (s : State) (p : Path), Performs s .any p 0x20 1) ∧
    (∃ (s : State) (p : Path) (c : Instr) (e : Nat), Performs s .any p 0x20 (2 + e) ∧ e < 3 ∧
      c = [Instr.lastEvtIn0 p, .lastEvtIn1 p, .lastPpsIn p].getD e c) ∧
    (∃ (s : State) (q : CbPar) (v : Nat), PerformsM s q 0x20 8 ∧ wordsTime (win s 0) = some v) ∧
    (∃ (s : State) (q : CbPar) (v : Nat), PerformsM s q 0x20 9 ∧ wordsTime (win s 0) = some v) ∧
    (∃ (s : State) (q : CbPar) (v : Nat), PerformsM s q 0x20 10 ∧ wordsTime (win s 0) = some v) ∧
    (∃ (s : State) (q : CbPar), PerformsM s q 0x20 8 ∧ wordsTime (win s 0) = none) ∧
    (∃ s : State, s.tap = false) :=
  ⟨⟨mg, (pW 0x20 1), access (by decide +kernel)⟩,
   ⟨{ mg with time := { mg.time with cap := [(1, 5, 6)] } }, (pW 0x20 3), (.lastEvtIn1 (pW 0x20 3)), 1, access
       (by decide +kernel), by decide +kernel⟩,
   ⟨(modWin 0 (fun x => { x with w0 := 1, w2 := 7 }) mg), (qW 0x20 8), 458752000000001, accessM (by decide +kernel),
       by decide +kernel⟩,
   ⟨(modWin 0 (fun x => { x with w0 := 1, w2 := 7 }) mg), (qW 0x20 9), 458752000000001, accessM (by decide +kernel),
       by decide +kernel⟩,
   ⟨(modWin 0 (fun x => { x with w0 := 1, w2 := 7 }) { mg with time := { mg.time with dev := 958752000000001 } }),
       (qW 0x20 10), 458752000000001, accessM (by decide +kernel), by decide +kernel⟩,
   ⟨(modWin 0 (fun x => { x with w1 := 0x3FFFFF, w2 := 0xFFFFFF }) mg), (qW 0x20 8), accessM (by decide +kernel),
       by decide +kernel⟩,
   ⟨(modWin 3 (fun x => { x with timeBusy := true }) up), by decide +kernel⟩⟩

theorem test_hyps_ChannelCommandsFollowTheStartChecks :
    (∃ (s : State) (p : Path) (ctl : Word) (c : Nat), Performs s .any p 0x30 (ctl.toNat ||| 1) ∧
      selChan s (pathWin s p) = some c ∧ ownsChan s (pathWin s p) c = true ∧ chanBusy s c = false) ∧
    (∃ (s u : State) (c : Nat), u = modChan c (fun x => { x with busy := true, ctl := putBits x.ctl 0 1 1, elem := 0, err := 0, paused := false, piece := none, pieces := [], dst0 := x.dst, reads := [], toRead := 0, bursts := [], wrote := false, moved := false, ending := none, yielded := s.image.load, edge := (x.src, x.dst, x.count, 0), mark := (x.src, x.dst, x.count, 0) }) s ∧
      (fenced s 19 = true ∨ s.safety.safe = true)) ∧
    (∃ (s u : State) (c : Nat), u = modChan c (fun x => { x with busy := true, ctl := putBits x.ctl 0 1 1, elem := 0, err := 0, paused := false, piece := none, pieces := [], dst0 := x.dst, reads := [], toRead := 0, bursts := [], wrote := false, moved := false, ending := none, yielded := s.image.load, edge := (x.src, x.dst, x.count, 0), mark := (x.src, x.dst, x.count, 0) }) s ∧
      fenced s 19 = false ∧ s.safety.safe = false ∧ startError u c = 0) ∧
    (∃ (s u : State) (c : Nat), u = modChan c (fun x => { x with busy := true, ctl := putBits x.ctl 0 1 1, elem := 0, err := 0, paused := false, piece := none, pieces := [], dst0 := x.dst, reads := [], toRead := 0, bursts := [], wrote := false, moved := false, ending := none, yielded := s.image.load, edge := (x.src, x.dst, x.count, 0), mark := (x.src, x.dst, x.count, 0) }) s ∧
      fenced s 19 = false ∧ s.safety.safe = false ∧ startError u c ≠ 0) ∧
    (∃ (s : State) (c : Nat), (chan s c).count = 0) ∧
    (∃ (s : State) (c : Nat), (chan s c).count ≠ 0 ∧
      (spaceOpen s c (srcSpace (chan s c)) = false ∨ spaceOpen s c (dstSpace (chan s c)) = false)) ∧
    (∃ (s : State) (c : Nat), (chan s c).count ≠ 0 ∧ srcSpace (chan s c) = 0 ∧ dstSpace (chan s c) = 0 ∧
      spaceOpen s c 0 = true ∧ ((chan s c).src % 16 ≠ 0 ∨ (chan s c).dst % 16 ≠ 0)) ∧
    (∃ (s : State) (p : Path) (c v : Nat), Performs s .any p 0x30 (v ||| 2) ∧ selChan s (pathWin s p) = some c ∧
      ownsChan s (pathWin s p) c = true ∧ (chan s c).busy = true ∧ v = (peek (pathWin s p) 0x30 s).toNat ∧
      v = (chan s c).ctl ∧ bitOf v 2 = false ∧ chanPause (chan s c) = false) ∧
    (∃ (s : State) (p : Path) (c v : Nat), Performs s .any p 0x30 (v - (v &&& 2)) ∧ selChan s (pathWin s p) = some c ∧
      ownsChan s (pathWin s p) c = true ∧ (chan s c).busy = true ∧ v = (peek (pathWin s p) 0x30 s).toNat ∧
      v = (chan s c).ctl ∧ bitOf v 2 = false ∧ chanPause (chan s c) = true) ∧
    (∃ (s : State) (p : Path) (c v : Nat), Performs s .any p 0x30 (v ||| 4) ∧ selChan s (pathWin s p) = some c ∧
      ownsChan s (pathWin s p) c = true ∧ (chan s c).busy = true ∧ v = (peek (pathWin s p) 0x30 s).toNat ∧
      v = (chan s c).ctl ∧ bitOf v 2 = false ∧ (chan s c).ending = none ∧ (chan s c).reads = [] ∧
      (chan s c).wrote = false) ∧
    (∃ (s : State) (p : Path) (c v : Nat), Performs s .any p 0x30 (v ||| 4) ∧ selChan s (pathWin s p) = some c ∧
      ownsChan s (pathWin s p) c = true ∧ (chan s c).busy = true ∧ v = (peek (pathWin s p) 0x30 s).toNat ∧
      v = (chan s c).ctl ∧ bitOf v 2 = false ∧ (chan s c).ending = none ∧ (chan s c).reads = [] ∧
      (chan s c).wrote = true ∧ canIssue s (chanHost s c) = true) ∧
    (∃ (s : State) (p : Path) (c v : Nat), Performs s .any p 0x30 (v ||| 4) ∧ selChan s (pathWin s p) = some c ∧
      ownsChan s (pathWin s p) c = true ∧ (chan s c).busy = true ∧ v = (peek (pathWin s p) 0x30 s).toNat ∧
      v = (chan s c).ctl ∧ bitOf v 2 = false ∧ (chan s c).ending = none ∧ (chan s c).reads ≠ []) ∧
    (∃ (s : State) (c : Nat), ((chan s c).reads ≠ [] ∨ ((chan s c).wrote = false ∧ (chan s c).ending = none))) :=
  ⟨⟨mg, (pW 0x30 1), 0, 0, access (by decide +kernel), by decide +kernel⟩,
   ⟨{ mg with safety := { mg.safety with safe := true } }, _, 0, rfl, by decide +kernel⟩,
   ⟨(modChan 3 (fun x => { x with count := 4, ctl := 2 ^ 16 }) tn), _, 3, rfl, by decide +kernel⟩,
   ⟨up, _, 3, rfl, by decide +kernel⟩,
   ⟨up, 15, by decide +kernel⟩,
   ⟨(modChan 3 (fun x => { x with count := 1, ctl := 4 * 2 ^ 21 }) up), 3, by decide +kernel⟩,
   ⟨(modChan 3 (fun x => { x with count := 1, src := 8 }) tn), 3, by decide +kernel⟩,
   ⟨(modChan 0 (fun x => { x with busy := true, ctl := 1, count := 1 }) mg), (pW 0x30 3), 0, 1, access
       (by decide +kernel), by decide +kernel⟩,
   ⟨(modChan 0 (fun x => { x with busy := true, ctl := 3, count := 1 }) mg), (pW 0x30 1), 0, 3, access
       (by decide +kernel), by decide +kernel⟩,
   ⟨(modChan 0 (fun x => { x with busy := true, ctl := 1, count := 1 }) mg), (pW 0x30 5), 0, 1, access
       (by decide +kernel), by decide +kernel⟩,
   ⟨(modChan 0 (fun x => { x with busy := true, ctl := 1, count := 1, wrote := true }) (inService 0 mg)), (pW 0x30 5),
       0, 1, access (by decide +kernel), by decide +kernel⟩,
   ⟨(modChan 0 (fun x => { x with busy := true, ctl := 1, count := 1, reads := [(.closing, 0)] }) mg), (pW 0x30 5), 0,
       1, access (by decide +kernel), by decide +kernel⟩,
   ⟨mg, 0, by decide +kernel⟩⟩

theorem test_hyps_RunningChannelsAdvanceAndEnd :
    (∃ (s : State) (c : Fin 16) (io : BurstIo), s.tap = false ∧ (c.val = 6 ∨ c.val = 7 → pairEnabled s = false) ∧
      mayIssue s c io.dreq = true ∧ chosen s c = true ∧ srcSpace (chan s c) = 0 ∧ canIssue s (chanHost s c) = true ∧
      io.hit ≠ .buffer ∧ needsLine (chan s c) = false ∧ wantsElem (chan s c) = true ∧ (chan s c).elem < 4096) ∧
    (∃ (s : State) (c : Fin 16) (io : BurstIo), ∃ n, n = min (min (requestBytes (chan s c)) 512) (4096 - (nextData
        (chan s c)).1 % 4096) ∧
      s.tap = false ∧ (c.val = 6 ∨ c.val = 7 → pairEnabled s = false) ∧ mayIssue s c io.dreq = true ∧
      chosen s c = true ∧ srcSpace (chan s c) = 0 ∧ canIssue s (chanHost s c) = true ∧ io.hit ≠ .buffer ∧
      needsLine (chan s c) = false ∧ wantsElem (chan s c) = false) ∧
    (∃ (s : State) (c : Fin 16) (io : BurstIo), ∃ n, n = min (min (nextBurst (chan s c)) 512) (4096 -
        ((chan s c).src + ahead (chan s c)) % 4096) ∧
      s.tap = false ∧ (c.val = 6 ∨ c.val = 7 → pairEnabled s = false) ∧ mayIssue s c io.dreq = true ∧
      chosen s c = true ∧ srcSpace (chan s c) = 0 ∧ canIssue s (chanHost s c) = true ∧ io.hit ≠ .buffer ∧
      needsLine (chan s c) = true ∧ chanSg (chan s c) = false ∧ (chan s c).piece = none) ∧
    (∃ (s : State) (c : Fin 16) (io : BurstIo), s.tap = false ∧ (c.val = 6 ∨ c.val = 7 → pairEnabled s = false) ∧
      needsLine (chan s c) = true ∧ lineAsserted s c io.dreq = false) ∧
    (∃ (s : State) (c : Fin 16) (a : Nat) (bytes : List Byte), s.tap = false ∧ (chan s c).reads = [(.elem, a)] ∧
      (chan s c).busy = true ∧ (chan s c).wrote = false ∧ (chan s c).ending = none ∧ leNat (bytes.take 8) % 16 ≠ 0) ∧
    (∃ (s u : State) (c : Fin 16) (what : ChanRead) (a : Nat) (rest : List (ChanRead × Nat)) (r : HostRead), u
        = modChan c (fun x => { x with reads := rest }) s ∧
      s.tap = false ∧ (chan s c).reads = (what, a) :: rest ∧ (r = .ur ∨ r = .ca) ∧ what ≠ .closing) ∧
    (∃ (s u : State) (c : Fin 16) (what : ChanRead) (a : Nat) (rest : List (ChanRead × Nat)) (r : HostRead), u
        = modChan c (fun x => { x with reads := rest }) s ∧
      s.tap = false ∧ (chan s c).reads = (what, a) :: rest ∧ (r = .ur ∨ r = .ca) ∧ what = .closing) ∧
    (∃ (s : State) (c : Fin 16) (a : Nat), ∃ e, s.tap = false ∧ (chan s c).reads = [(.closing, a)] ∧
      (chan s c).ending = some e ∧ (chan s c).busy = true) ∧
    (∃ (s : State) (c : Fin 16) (a : Nat), s.tap = false ∧ (chan s c).reads = [(.closing, a)] ∧
      (chan s c).ending = none) ∧
    (∃ (s : State) (c : Fin 16) (what : ChanRead) (a : Nat), s.tap = false ∧ (chan s c).reads = [(what, a)] ∧
      (chan s c).busy = true ∧ (what = .closing ∨ (chan s c).wrote = false) ∧ a + cplTimeout s (chanHost s c) ≤ s.clk) ∧
    (∃ (s : State) (c : Fin 16), s.tap = false ∧ (chan s c).busy = true ∧ chanPause (chan s c) = true ∧
      (chan s c).moved = false ∧ (chan s c).reads = [] ∧ (chan s c).wrote = false ∧ (chan s c).piece = none ∧
      (chan s c).ending = none) ∧
    (∃ (s : State) (c : Fin 16), s.tap = false ∧ (chan s c).busy = true ∧ (chan s c).moved = true ∧
      (chan s c).reads = [] ∧ (chan s c).wrote = false ∧ (chan s c).ending = none ∧
      (c.val = 6 ∨ c.val = 7 → pairEnabled s = false)) ∧
    (∃ e : Nat, e = 0) ∧
    (∃ e : Nat, e ≠ 0) ∧
    (∃ c : Nat, ∃ d, d ≠ c) :=
  ⟨⟨(modChan 3 (fun x => { x with busy := true, ctl := 2 ^ 16 + 8, count := 4 }) tn), 3, quietIo, by decide +kernel⟩,
   ⟨(modChan 3 (fun x => { x with busy := true, ctl := 2 ^ 16, src := 0x1FF0, count := 4 }) tn), 3, quietIo, _, rfl,
       by decide +kernel⟩,
   ⟨(modChan 3 (fun x => { x with busy := true, ctl := 2 ^ 16 + 3 * 2 ^ 4, count := 4 }) tn), 3,
       { quietIo with dreq := true }, _, rfl, by decide +kernel⟩,
   ⟨(modChan 3 (fun x => { x with busy := true, ctl := 2 ^ 16 + 3 * 2 ^ 4, count := 4 }) tn), 3, quietIo,
       by decide +kernel⟩,
   ⟨(modChan 3 (fun x => { x with busy := true, ctl := 2 ^ 16 + 8, count := 4, reads := [(.elem, 0)] }) tn), 3, 0, [8,
       0, 0, 0, 0, 0, 0, 0], by decide +kernel⟩,
   ⟨(modChan 3 (fun x => { x with busy := true, ctl := 2 ^ 16 + 8, count := 4, reads := [(.elem, 0)] }) tn), _, 3,
       .elem, 0, [], .ur, rfl, by decide +kernel⟩,
   ⟨(modChan 3 (fun x => { x with busy := true, ctl := 2 ^ 16 + 8, count := 4, reads := [(.closing, 0)] }) tn), _, 3,
       .closing, 0, [], .ca, rfl, by decide +kernel⟩,
   ⟨(modChan 3 (fun x => { x with busy := true, ctl := 2 ^ 16 + 8, count := 4, reads := [(.closing, 0)], ending := some 5 }) tn),
       3, 0, 5, by decide +kernel⟩,
   ⟨(modChan 3 (fun x => { x with busy := true, ctl := 2 ^ 16 + 8, count := 4, reads := [(.closing, 0)] }) tn), 3, 0,
       by decide +kernel⟩,
   ⟨(modChan 3 (fun x => { x with busy := true, ctl := 2 ^ 16 + 8, count := 4, reads := [(.elem, 0)] }) tn), 3, .elem,
       0, by decide +kernel⟩,
   ⟨(modChan 3 (fun x => { x with busy := true, ctl := 3 }) tn), 3, by decide +kernel⟩,
   ⟨(modChan 6 (fun x => { x with busy := true, moved := true }) tn), 6, by decide +kernel⟩,
   ⟨0, by decide +kernel⟩,
   ⟨4, by decide +kernel⟩,
   ⟨15, 14, by decide +kernel⟩⟩

theorem test_hyps_MaintenanceJoinsThePartitionQueue :
    (∃ (s : State) (p : Path) (t : Fin 4) (all : Bool) (c : Instr) (op w u : Nat), Performs s .any p 0x34
        (op + flag all 3 + 16 * t) ∧
      w = pathWin s p ∧ 1 ≤ op ∧ op ≤ 3 ∧
      c = [Instr.canopyClean p t all, .canopyInvalidate p t all, .canopyCleanAndInvalidate p t all].getD (op - 1) c ∧
      u = (if w = 0 then t.val else w - 1) ∧ (win s w).canopyBusy = true) ∧
    (∃ (s : State) (p : Path) (t : Fin 4) (all : Bool) (c : Instr) (op w u : Nat), Performs s .any p 0x34
        (op + flag all 3 + 16 * t) ∧
      w = pathWin s p ∧ 1 ≤ op ∧ op ≤ 3 ∧
      c = [Instr.canopyClean p t all, .canopyInvalidate p t all, .canopyCleanAndInvalidate p t all].getD (op - 1) c ∧
      u = (if w = 0 then t.val else w - 1) ∧ (win s w).canopyBusy = false ∧ fenced s 18 = true) ∧
    (∃ (s : State) (p : Path) (t : Fin 4) (all : Bool) (c : Instr) (op w u : Nat), Performs s .any p 0x34
        (op + flag all 3 + 16 * t) ∧
      w = pathWin s p ∧ 1 ≤ op ∧ op ≤ 3 ∧
      c = [Instr.canopyClean p t all, .canopyInvalidate p t all, .canopyCleanAndInvalidate p t all].getD (op - 1) c ∧
      u = (if w = 0 then t.val else w - 1) ∧ (win s w).canopyBusy = false ∧ fenced s 18 = false ∧ all = false ∧
      (win s w).canopyLen = 0) ∧
    (∃ (s : State) (p : Path) (t : Fin 4) (all : Bool) (c : Instr) (op w u : Nat), Performs s .any p 0x34
        (op + flag all 3 + 16 * t) ∧
      w = pathWin s p ∧ 1 ≤ op ∧ op ≤ 3 ∧
      c = [Instr.canopyClean p t all, .canopyInvalidate p t all, .canopyCleanAndInvalidate p t all].getD (op - 1) c ∧
      u = (if w = 0 then t.val else w - 1) ∧ (win s w).canopyBusy = false ∧ fenced s 18 = false ∧
      (all = true ∨ (win s w).canopyLen ≠ 0)) :=
  ⟨⟨(modWin 0 (fun x => { x with canopyBusy := true }) mg), (pW 0x34 57), 3, true, (.canopyClean (pW 0x34 57) 3 true),
      1, 0, 3, access (by decide +kernel), by decide +kernel⟩,
   ⟨{ mg with fences := 2 ^ 18 }, (pW 0x34 51), 3, false, (.canopyCleanAndInvalidate (pW 0x34 51) 3 false), 3, 0, 3,
       access (by decide +kernel), by decide +kernel⟩,
   ⟨mg, (pW 0x34 51), 3, false, (.canopyCleanAndInvalidate (pW 0x34 51) 3 false), 3, 0, 3, access (by decide +kernel),
       by decide +kernel⟩,
   ⟨mg, (pW 0x34 58), 3, true, (.canopyInvalidate (pW 0x34 58) 3 true), 2, 0, 3, access (by decide +kernel),
       by decide +kernel⟩⟩

theorem test_hyps_CanopyWorkCompletes :
    (∃ (s : State) (t : Fin 4) (m : Maint) (rest : List Maint), s.tap = false ∧ maintQueue s t = m :: rest ∧
      m.started = true ∧ doomedFills s t = false ∧ m.wrote = false) ∧
    (∃ (s : State) (t : Fin 4) (m : Maint) (rest : List Maint), s.tap = false ∧ maintQueue s t = m :: rest ∧
      m.started = true ∧ doomedFills s t = false ∧ m.wrote = true ∧ canIssue s t = true) ∧
    (∃ (s : State) (t : Fin 4) (m : Maint) (rest : List Maint), s.tap = false ∧ maintQueue s t = m :: rest ∧
      m.started = true ∧ doomedFills s t = false ∧ m.wrote = true ∧ m.since + cplTimeout s t ≤ s.clk) ∧
    (∃ (s : State) (t : Fin 4) (f : Fill) (rest : List Fill) (bytes : List Byte), ∃ u serve, (∀ who,
        f.who ≠ .demand who) ∧
      u = { s with canopy := { s.canopy with fills := rest } } ∧
      serve = (fun v : State => forEach ((ten v t).rings.filter fun e => isRx e.1 && e.2.entries != []) (fun (r,
          _) s => drain t r false s) v) ∧
      s.tap = false ∧ bytes.length = 256 ∧ s.canopy.fills = f :: rest ∧ f.t = t) ∧
    (∃ s : State, s.tap = false ∧ fenced s 18 = false ∧ s.power.asleep = false ∧ s.canopy.ways < pn s 0x510000) :=
  ⟨⟨(setQueue 1 [⟨0, 1, true, 0, 0, true, false, 0, [], 0⟩] tn), 1, ⟨0, 1, true, 0, 0, true, false, 0, [], 0⟩, [],
      by decide +kernel⟩,
   ⟨(setQueue 1 [⟨0, 1, true, 0, 0, true, true, 0, [], 0⟩] tn), 1, ⟨0, 1, true, 0, 0, true, true, 0, [], 0⟩, [],
       by decide +kernel⟩,
   ⟨(setQueue 1 [⟨0, 1, true, 0, 0, true, true, 0, [], 0⟩] tn), 1, ⟨0, 1, true, 0, 0, true, true, 0, [], 0⟩, [],
       by decide +kernel⟩,
   ⟨{ tn with canopy := { tn.canopy with fills := [⟨1, 0, 1, .prefetch, 0, 0, 0, false, 0, 0⟩] } }, 1, ⟨1, 0, 1,
       .prefetch, 0, 0, 0, false, 0, 0⟩, [], (List.replicate 256 7), _, _, (by intro _ h; cases h), rfl, rfl,
       by decide +kernel⟩,
   ⟨(setPw 0x510000 2 up), by decide +kernel⟩⟩

theorem test_hyps_ManagementCommandsATenant :
    (∃ (s : State) (q : CbPar) (k : Nat), ∃ l, PerformsM s q 0x3D 5 ∧ k = s.mgmt.selTenant ∧ (ten s k).enable = true ∧
      (ten s k).fault = 0 ∧ l < 16 ∧ (lock s l).owner = some (k + 1)) ∧
    (∃ (s : State) (q : CbPar) (k : Nat), ∃ l, PerformsM s q 0x3D 5 ∧ k = s.mgmt.selTenant ∧ (ten s k).enable = true ∧
      (ten s k).fault = 0 ∧ (lock s l).owner ≠ some (k + 1)) ∧
    (∃ (s : State) (q : CbPar) (k : Nat), ∃ l, PerformsM s q 0x3D 3 ∧ k = s.mgmt.selTenant ∧ (ten s k).enable = true ∧
      (ten s k).inReset = false ∧ l < 16 ∧ (lock s l).owner = some (k + 1)) ∧
    (∃ (s : State) (q : CbPar) (k : Nat), PerformsM s q 0x3D 0 ∧ k = s.mgmt.selTenant) ∧
    (∃ (s : State) (q : CbPar) (k : Nat), PerformsM s q 0x3D 1 ∧ k = s.mgmt.selTenant ∧ k < 4 ∧
      (ten s k).enable = false ∧ (ten s k).inReset = true ∧ (link s k).perst = false ∧ (ten s k).linkHold = false ∧
      fenced s (12 + k) = false ∧ s.safety.safe = false) :=
  ⟨⟨{ inService 1 mg with mgmt := { mg.mgmt with selTenant := 1 }, locks := [(15, { owner := some 2 })] }, (qW 0x3D 5),
      1, 15, accessM (by decide +kernel), by decide +kernel⟩,
   ⟨{ inService 1 mg with mgmt := { mg.mgmt with selTenant := 1 }, locks := [(15, { owner := some 1 })] }, (qW 0x3D 5),
       1, 15, accessM (by decide +kernel), by decide +kernel⟩,
   ⟨{ inService 1 mg with mgmt := { mg.mgmt with selTenant := 1 }, locks := [(15, { owner := some 2 })] }, (qW 0x3D 3),
       1, 15, accessM (by decide +kernel), by decide +kernel⟩,
   ⟨{ inService 1 mg with mgmt := { mg.mgmt with selTenant := 1 } }, (qW 0x3D 0), 1, accessM (by decide +kernel),
       by decide +kernel⟩,
   ⟨{ modTen 1 (fun x => { x with enable := false }) mg with mgmt := { mg.mgmt with selTenant := 1 } }, (qW 0x3D 1), 1,
       accessM (by decide +kernel), by decide +kernel⟩⟩

theorem test_hyps_TenantsResetAndRecover :
    (∃ (s : State) (p : Path) (k v : Nat), Performs s .tenant p 0x03 v ∧ pathWin s p = k + 1 ∧
      v = (peek (k + 1) 0x03 s).toNat ||| 0xC30002 ∧ (ten s k).inReset = false) ∧
    (∃ (s : State) (k : Fin 4), s.tap = false ∧ (ten s k).inReset = true ∧ (ten s k).stepped = false ∧
      tenantHeld s k = false ∧ (ten s k).frPush = none) ∧
    (∃ (s : State) (k : Fin 4), ∃ r since, s.tap = false ∧ (ten s k).inReset = true ∧ (ten s k).stepped = false ∧
      tenantHeld s k = false ∧ (ten s k).frPush = some (r, since)) ∧
    (∃ (s : State) (k : Fin 4), ∃ r, s.tap = false ∧ (ten s k).inReset = true ∧ (ten s k).stepped = false ∧
      tenantHeld s k = false ∧ r < 65536) ∧
    (∃ (s : State) (k : Fin 4), s.tap = false ∧ (ten s k).inReset = true ∧ (ten s k).stepped = true ∧
      tenantHeld s k = true) ∧
    (∃ (s : State) (p : Path) (k : Nat) (d : Word), Performs s .tenant p 0x04 d.toNat ∧ pathWin s p = k + 1 ∧
      bitOf d.toNat 0 = false) ∧
    (∃ (s : State) (p : Path) (k : Nat) (d : Word), Performs s .tenant p 0x04 d.toNat ∧ pathWin s p = k + 1 ∧
      (ten s k).fault.getLsbD 0 = true ∧ bitOf d.toNat 0 = true) ∧
    (∃ (s : State) (p : Path) (k : Nat), Performs s .tenant p 0x03 1 ∧ pathWin s p = k + 1 ∧ (ten s k).fault ≠ 0) ∧
    (∃ (s : State) (p : Path) (k : Nat), Performs s .tenant p 0x03 1 ∧ pathWin s p = k + 1 ∧ (ten s k).fault = 0) ∧
    (∃ (s : State) (p : Path) (k : Nat), Performs s .tenant p 0x03 0 ∧ pathWin s p = k + 1) :=
  ⟨⟨tn, bar, 1, 0xC30003, access (by decide +kernel), by decide +kernel⟩,
   ⟨(modTen 1 (fun x => { x with inReset := true, stepped := false }) tn), 1, by decide +kernel⟩,
   ⟨(modTen 1 (fun x => { x with inReset := true, stepped := false, frPush := some (⟨0, 0, 0, 0, 0, 0⟩, 7) }) tn), 1,
       ⟨0, 0, 0, 0, 0, 0⟩, 7, by decide +kernel⟩,
   ⟨(modTen 1 (fun x => { x with inReset := true, stepped := false }) tn), 1, 65535, by decide +kernel⟩,
   ⟨(modTen 1 (fun x => { x with inReset := true, enable := false }) tn), 1, by decide +kernel⟩,
   ⟨(modTen 1 (fun x => { x with fault := 3, stopped := true }) tn), bar, 1, 0x200, access (by decide +kernel),
       by decide +kernel⟩,
   ⟨(modTen 1 (fun x => { x with fault := 3, stopped := true }) tn), bar, 1, 3, access (by decide +kernel),
       by decide +kernel⟩,
   ⟨(modTen 1 (fun x => { x with fault := 2, engineEn := false }) tn), bar, 1, access (by decide +kernel),
       by decide +kernel⟩,
   ⟨(modTen 1 (fun x => { x with engineEn := false }) tn), bar, 1, access (by decide +kernel), by decide +kernel⟩,
   ⟨tn, bar, 1, access (by decide +kernel), by decide +kernel⟩⟩

theorem test_hyps_FaultRecordsArePushedInOrder :
    (∃ (s : State) (k : Fin 4) (r : FaultRec) (since : Nat), s.tap = false ∧ (ten s k).frPush = some (r, since) ∧
      (ten s k).frWait = [] ∧ (ten s k).frRestart = false) ∧
    (∃ (s : State) (k : Fin 4) (r : FaultRec) (since : Nat), s.tap = false ∧ (ten s k).frPush = some (r, since) ∧
      since + cplTimeout s k ≤ s.clk) ∧
    (∃ (s : State) (k since : Nat) (r : FaultRec), (ten s k).frPush = some (r, since) ∧ (ten s k).fault ≠ 0 ∧
      (ten s k).frRestart = true) ∧
    (∃ (s : State) (k bit : Nat), 1 ≤ bit ∧ bit < 10 ∧ (ten s k).fault.getLsbD 0 = true) :=
  ⟨⟨(modTen 1 (fun x => { x with frPush := some (⟨0, 0, 0, 0, 0, 0⟩, 0) }) tn), 1, ⟨0, 0, 0, 0, 0, 0⟩, 0,
      by decide +kernel⟩,
   ⟨(modTen 1 (fun x => { x with frPush := some (⟨0, 0, 0, 0, 0, 0⟩, 0) }) tn), 1, ⟨0, 0, 0, 0, 0, 0⟩, 0,
       by decide +kernel⟩,
   ⟨(modTen 1 (fun x => { x with fault := 4, frPush := some (⟨0, 0, 0, 0, 0, 0⟩, 0), frRestart := true }) tn), 1, 0, ⟨0,
       0, 0, 0, 0, 0⟩, by decide +kernel⟩,
   ⟨(modTen 1 (fun x => { x with fault := 1, lost := 15 }) tn), 1, 9, by decide +kernel⟩⟩

theorem test_hyps_DoorbellsAndRingControlActOnRings :
    (∃ (s : State) (p : Path) (d : Word) (k r : Nat), Performs s .tenant p 0x40 d.toNat ∧ pathWin s p = k + 1 ∧
      r = bits d.toNat 17 7 ∧ 67 < r) ∧
    (∃ (s : State) (p : Path) (d : Word) (k r : Nat), Performs s .tenant p 0x40 d.toNat ∧ pathWin s p = k + 1 ∧
      r = bits d.toNat 17 7 ∧ r ≤ 67) ∧
    (∃ (s : State) (p : Path) (d : Word) (k r : Nat), Performs s .tenant p 0x41 d.toNat ∧ pathWin s p = k + 1 ∧
      r = bits d.toNat 17 7 ∧ 63 < r) ∧
    (∃ (s : State) (p : Path) (d : Word) (k r : Nat), Performs s .tenant p 0x41 d.toNat ∧ pathWin s p = k + 1 ∧
      r = bits d.toNat 17 7 ∧ r ≤ 63) ∧
    (∃ (s : State) (k r n tail dNew dOld : Nat) (d : Word), n = ringN s k r ∧
      tail = (bits d.toNat 16 1 * n + bits d.toNat 0 16) % (2 * n) ∧ dNew = dist n (ring s k r).head tail ∧
      dOld = dist n (ring s k r).head (ring s k r).tail ∧ ((ring s k r).enable = false ∨ (ring s k r).flush = true)) ∧
    (∃ (s : State) (k r n tail dNew dOld : Nat) (d : Word), n = ringN s k r ∧
      tail = (bits d.toNat 16 1 * n + bits d.toNat 0 16) % (2 * n) ∧ dNew = dist n (ring s k r).head tail ∧
      dOld = dist n (ring s k r).head (ring s k r).tail ∧ (ring s k r).enable = true ∧ (ring s k r).flush = false ∧
      n < dNew) ∧
    (∃ (s : State) (k r n tail dNew dOld : Nat) (d : Word), n = ringN s k r ∧
      tail = (bits d.toNat 16 1 * n + bits d.toNat 0 16) % (2 * n) ∧ dNew = dist n (ring s k r).head tail ∧
      dOld = dist n (ring s k r).head (ring s k r).tail ∧ (ring s k r).enable = true ∧ (ring s k r).flush = false ∧
      dNew ≤ n ∧ dNew < dOld) ∧
    (∃ (s : State) (k r n tail dNew dOld : Nat) (d : Word), n = ringN s k r ∧
      tail = (bits d.toNat 16 1 * n + bits d.toNat 0 16) % (2 * n) ∧ dNew = dist n (ring s k r).head tail ∧
      dOld = dist n (ring s k r).head (ring s k r).tail ∧ (ring s k r).enable = true ∧ (ring s k r).flush = false ∧
      dNew ≤ n ∧ dNew = dOld) ∧
    (∃ (s : State) (k r n tail dNew dOld : Nat) (d : Word), n = ringN s k r ∧
      tail = (bits d.toNat 16 1 * n + bits d.toNat 0 16) % (2 * n) ∧ dNew = dist n (ring s k r).head tail ∧
      dOld = dist n (ring s k r).head (ring s k r).tail ∧ (ring s k r).enable = true ∧ (ring s k r).flush = false ∧
      dNew ≤ n ∧ dOld < dNew ∧ (ring s k r).prefetch ≤ n - dNew ∧ (ring s k r).prefetch ≠ 0) ∧
    (∃ (s : State) (p : Path) (k r : Nat), Performs s .tenant p 0x43 (ringCtl s k r ||| 1) ∧ pathWin s p = k + 1 ∧
      selRing s k = some r ∧ (ring s k r).flushBit = false ∧ (ring s k r).prefetch ≤ 32 ∧ (ring s k r).enable = false ∧
      (ring s k r).flush = false ∧ (ten s k).fault = 0 ∧ 3 ≤ bits (rowWord s 0x01 k r 3) 0 5) ∧
    (∃ (s : State) (p : Path) (k r : Nat), Performs s .tenant p 0x43 (ringCtl s k r - (ringCtl s k r &&& 1)) ∧
      pathWin s p = k + 1 ∧ selRing s k = some r ∧ (ring s k r).flushBit = false ∧ (ring s k r).prefetch ≤ 32 ∧
      (ring s k r).enable = true ∧ (ring s k r).flush = false) ∧
    (∃ (s : State) (p : Path) (k r : Nat), Performs s .tenant p 0x43 (ringCtl s k r ||| 2) ∧ pathWin s p = k + 1 ∧
      selRing s k = some r ∧ (ring s k r).flushBit = false ∧ (ring s k r).prefetch ≤ 32 ∧ (ring s k r).flush = false) ∧
    (∃ (s : State) (p : Path) (k r : Nat), Performs s .tenant p 0x43 (ringCtl s k r ||| 4) ∧ pathWin s p = k + 1 ∧
      selRing s k = some r ∧ (ring s k r).flushBit = false ∧ (ring s k r).prefetch ≤ 32 ∧ (ring s k r).stop = false ∧
      (ring s k r).enable = true ∧ (ring s k r).entries = []) ∧
    (∃ (s : State) (p : Path) (k r : Nat), Performs s .tenant p 0x43 (ringCtl s k r - (ringCtl s k r &&& 4)) ∧
      pathWin s p = k + 1 ∧ selRing s k = some r ∧ (ring s k r).flushBit = false ∧ (ring s k r).prefetch ≤ 32 ∧
      (ring s k r).stop = true ∧ (ring s k r).enable = true ∧ (ring s k r).slots = [] ∧ (ring s k r).entries = []) ∧
    (∃ (s : State) (k : Fin 4) (r : Fin 132), s.tap = false ∧ (ring s k r).flush = true ∧ (ring s k r).entries = []) :=
  ⟨⟨tn, bar, (BitVec.ofNat 24 (68 * 2 ^ 17)), 1, 68, access (by decide +kernel), by decide +kernel⟩,
   ⟨(tnRing 67 id), bar, (BitVec.ofNat 24 (67 * 2 ^ 17 + 4)), 1, 67, access (by decide +kernel), by decide +kernel⟩,
   ⟨tn, bar, (BitVec.ofNat 24 (64 * 2 ^ 17)), 1, 64, access (by decide +kernel), by decide +kernel⟩,
   ⟨(tnRing 131 id), bar, (BitVec.ofNat 24 (63 * 2 ^ 17 + 4)), 1, 63, access (by decide +kernel), by decide +kernel⟩,
   ⟨tn, 1, 0, 1, 0, 0, 0, 0, by decide +kernel⟩,
   ⟨(tnRing 0 (fun x => { x with head := 1, tail := 1 })), 1, 0, 32, 0, 63, 0, 0, by decide +kernel⟩,
   ⟨(tnRing 0 (fun x => { x with tail := 9 })), 1, 0, 32, 8, 8, 9, 8, by decide +kernel⟩,
   ⟨(tnRing 0 (fun x => { x with tail := 9 })), 1, 0, 32, 9, 9, 9, 9, by decide +kernel⟩,
   ⟨(tnRing 0 (fun x => { x with tail := 9 })), 1, 0, 32, 10, 10, 9, 10, by decide +kernel⟩,
   ⟨(putRowWord 0x01 1 0 8 3 5 tn), (.bar0 1 15), 1, 0, access (by decide +kernel), by decide +kernel⟩,
   ⟨(tnRing 0 id), (.bar0 1 15), 1, 0, access (by decide +kernel), by decide +kernel⟩,
   ⟨(tnRing 0 id), (.bar0 1 15), 1, 0, access (by decide +kernel), by decide +kernel⟩,
   ⟨(tnRing 0 id), (.bar0 1 15), 1, 0, access (by decide +kernel), by decide +kernel⟩,
   ⟨(tnRing 0 (fun x => { x with stop := true, stopped := true })), (.bar0 1 15), 1, 0, access (by decide +kernel),
       by decide +kernel⟩,
   ⟨(tnRing 131 (fun x => { x with flush := true, flushBit := true })), 1, 131, by decide +kernel⟩⟩

theorem test_hyps_RingReadsCompleteOrTimeOut :
    (∃ (s : State) (k : Fin 4) (r : Fin 132) (d : DescRead) (u : State) (a no : Nat), ∃ h host lo, u = recoverFix k r
        (replayEnd k r (modRing k r (fun x => { x with read := none }) s)) ∧
      lo = dist (ringN s k r) (ring s k r).head d.pos ∧ s.tap = false ∧ (ring s k r).read = some d ∧
      a = slotAddr s k r d.pos ∧ no = (if isRx r then r.val - 68 else r.val) ∧ readOutcome s k r h = .data host) ∧
    (∃ (s : State) (k : Fin 4) (r : Fin 132) (d : DescRead) (u : State) (a no : Nat), ∃ h cpl, u = recoverFix k r
        (replayEnd k r (modRing k r (fun x => { x with read := none }) s)) ∧
      s.tap = false ∧ (ring s k r).read = some d ∧ a = slotAddr s k r d.pos ∧
      no = (if isRx r then r.val - 68 else r.val) ∧ ((readOutcome s k r h = .ur ∧
      cpl = 1) ∨ (readOutcome s k r h = .ca ∧ cpl = 4)) ∧ d.beyond = false) ∧
    (∃ (s : State) (k : Fin 4) (r : Fin 132) (d : DescRead) (u : State) (a no : Nat), ∃ h cpl, u = recoverFix k r
        (replayEnd k r (modRing k r (fun x => { x with read := none }) s)) ∧
      s.tap = false ∧ (ring s k r).read = some d ∧ a = slotAddr s k r d.pos ∧
      no = (if isRx r then r.val - 68 else r.val) ∧ ((readOutcome s k r h = .ur ∧
      cpl = 1) ∨ (readOutcome s k r h = .ca ∧ cpl = 4)) ∧ d.beyond = true) ∧
    (∃ (s : State) (k : Fin 4) (r : Fin 132) (d : DescRead) (u : State) (a no : Nat), u = recoverFix k r (replayEnd k r
        (modRing k r (fun x => { x with read := none }) s)) ∧
      s.tap = false ∧ (ring s k r).read = some d ∧ a = slotAddr s k r d.pos ∧
      no = (if isRx r then r.val - 68 else r.val) ∧ d.since + cplTimeout s k ≤ s.clk ∧ readWaits s k r = true ∧
      d.beyond = false) ∧
    (∃ (s : State) (k : Fin 4) (r : Fin 132) (d : DescRead) (u : State) (a no : Nat), ∃ since, u = recoverFix k r
        (replayEnd k r (modRing k r (fun x => { x with read := none }) s)) ∧
      s.tap = false ∧ (ring s k r).read = some d ∧ a = slotAddr s k r d.pos ∧
      no = (if isRx r then r.val - 68 else r.val) ∧ oldestRead s k r = some since ∧ since + us 100 ≤ s.clk) ∧
    (∃ (s : State) (k : Fin 4) (r : Fin 132) (since : Nat), s.tap = false ∧ (ring s k r).ownWait = some since ∧
      since + us 1 ≤ s.clk) ∧
    (∃ (s : State) (k : Fin 4) (r : Fin 132) (since : Nat), ∃ u, u = clockFix k r s ∧ s.tap = false ∧
      (ring u k r).clockAt = some since ∧ since + (us (pn s (0x030008 + 256 * k)) - (ring u k r).clockHeld) ≤ s.clk) ∧
    (∃ (s : State) (k : Fin 4) (r : Fin 132) (since : Nat), s.tap = false ∧ (ring s k r).heldAt = some since ∧
      since + us 1 ≤ s.clk) :=
  ⟨⟨(tnRing 68 (fun x => { x with tail := 4, read := some ⟨0, 2, false, 0, false, 0⟩ })), 1, 68, ⟨0, 2, false, 0, false,
      0⟩, _, 0, 0, (.data (List.replicate 32 0)), (List.replicate 32 0), _, rfl, rfl, by decide +kernel⟩,
   ⟨(tnRing 68 (fun x => { x with tail := 4, read := some ⟨0, 2, false, 0, false, 0⟩ })), 1, 68, ⟨0, 2, false, 0, false,
       0⟩, _, 0, 0, .ur, 1, rfl, by decide +kernel⟩,
   ⟨(tnRing 0 (fun x => { x with tail := 4, read := some ⟨4, 2, true, 0, false, 0⟩ })), 1, 0, ⟨4, 2, true, 0, false, 0⟩,
       _, 64, 0, .ca, 4, rfl, by decide +kernel⟩,
   ⟨(tnRing 68 (fun x => { x with tail := 4, read := some ⟨0, 2, false, 0, false, 0⟩ })), 1, 68, ⟨0, 2, false, 0, false,
       0⟩, _, 0, 0, rfl, by decide +kernel⟩,
   ⟨(tnRing 68 (fun x => { x with tail := 4, read := some ⟨0, 2, false, 0, false, 0⟩ })), 1, 68, ⟨0, 2, false, 0, false,
       0⟩, _, 0, 0, 0, rfl, by decide +kernel⟩,
   ⟨(tnRing 3 (fun x => { x with ownWait := some 0 })), 1, 3, 0, by decide +kernel⟩,
   ⟨(tnRing 3 (fun x => { x with head := 0, tail := 4, clockAt := some 0 })), 1, 3, 0, _, rfl, by decide +kernel⟩,
   ⟨(tnRing 3 (fun x => { x with heldAt := some 0 })), 1, 3, 0, by decide +kernel⟩⟩

theorem test_hyps_TransmitFramesAreGatheredAndAdmitted :
    (∃ (s u : State) (k : Fin 4), ∃ r, u = txCatchUp k s ∧ s.tap = false ∧
      (∀ f ∈ (ten u k).staging, f.complete = true) ∧ stagingUse u k ≤ 9244 ∧
      [64, 65, 66, 67].find? (fun r => eligible u k r) = some r) ∧
    (∃ (s u : State) (k : Fin 4), ∃ r r' v, u = txCatchUp k s ∧ drr k 1400 u = (some r', v) ∧ s.tap = false ∧
      (∀ f ∈ (ten u k).staging, f.complete = true) ∧ stagingUse u k ≤ 9244 ∧
      [64, 65, 66, 67].find? (fun r => eligible u k r) = none ∧ r < 64 ∧ eligible u k r = true) ∧
    (∃ (s u : State) (k : Fin 4), u = txCatchUp k s ∧ s.tap = false ∧ (∀ f ∈ (ten u k).staging, f.complete = true) ∧
      stagingUse u k ≤ 9244 ∧ (∀ r, r < 68 → eligible u k r = false)) ∧
    (∃ (s : State) (k r : Nat) (e : Entry), nextEntry (ring s k r) = some e ∧
      bitOf (pwide s (0x030009 + 256 * k) 2) (txPort s k r e) = false) ∧
    (∃ (s : State) (k r : Nat) (e : Entry), ∃ l, nextEntry (ring s k r) = some e ∧
      bitOf (pwide s (0x030009 + 256 * k) 2) (txPort s k r e) = true ∧ launchOf e = some l ∧ e.proNs + 1000000000 < l) ∧
    (∃ (s : State) (k r : Nat) (e : Entry), nextEntry (ring s k r) = some e ∧
      bitOf (pwide s (0x030009 + 256 * k) 2) (txPort s k r e) = true ∧
      (∀ l, launchOf e = some l → l ≤ e.proNs + 1000000000)) ∧
    (∃ (s : State) (k : Fin 4) (f : TxStage) (a : Addr) (n : Nat) (rest : List (Addr × Nat)), ∃ u h cpl, u
        = replayEnd k f.ring s ∧
      s.tap = false ∧ (ten s k).staging.find? (fun f => !f.complete) = some f ∧ f.bufs = (a, n) :: rest ∧
      ((readOutcome s k 200 h = .ur ∧ cpl = 1) ∨ (readOutcome s k 200 h = .ca ∧ cpl = 4))) ∧
    (∃ (s : State) (k : Fin 4) (f : TxStage) (a : Addr) (n : Nat) (rest : List (Addr × Nat)), ∃ u, u
        = replayEnd k f.ring s ∧
      s.tap = false ∧ (ten s k).staging.find? (fun f => !f.complete) = some f ∧ f.bufs = (a, n) :: rest ∧
      f.readAt + cplTimeout s k ≤ s.clk ∧ readWaits s k 200 = true) ∧
    (∃ (s : State) (k : Fin 4) (f : TxStage) (a : Addr) (n : Nat) (rest : List (Addr × Nat)), ∃ u h host e, u
        = replayEnd k f.ring s ∧
      rest = [] ∧ s.tap = false ∧ (ten s k).staging.find? (fun f => !f.complete) = some f ∧ f.bufs = (a, n) :: rest ∧
      readOutcome s k 200 h = .data host ∧ (ring s k f.ring).entries = [e] ∧ e.pos = f.pos ∧ prologue e = none) ∧
    (∃ (s : State) (k : Fin 4) (r : Fin 132) (f : TxStage) (e : Entry), s.tap = false ∧
      (ten s k).staging.find? (fun f => f.ring == r.val && f.complete) = some f ∧
      (ring s k r).entries.find? (fun e => e.stage == .staged) = some e ∧
      (fenced s 8 = true ∨ admits s (some k) (cellsFor (tagLen (txTag s k r e))) = false)) ∧
    (∃ (s : State) (k : Fin 4) (r : Fin 132) (f : TxStage) (e : Entry), s.tap = false ∧
      (ten s k).staging.find? (fun f => f.ring == r.val && f.complete) = some f ∧
      (ring s k r).entries.find? (fun e => e.stage == .staged) = some e ∧ fenced s 8 = false ∧
      admits s (some k) (cellsFor (tagLen (txTag s k r e))) = true ∧ portOpen s (txPort s k r e) = true) :=
  ⟨⟨(tnRing 66 (fun x => { x with entries := [entry] })), _, 1, 66, rfl, by decide +kernel⟩,
   ⟨(putRowWord 0x01 1 5 8 4 (2 ^ 8 + 1) (tnRing 5 (fun x => { x with entries := [entry], deficit := 100 }))), _, 1, 5,
       _, _, rfl, rfl, by decide +kernel⟩,
   ⟨(tnRing 66 (fun x => { x with stop := true, entries := [entry] })), _, 1, rfl, by decide +kernel⟩,
   ⟨(setPw 0x030109 0 (tnRing 66 (fun x => { x with entries := [entry] }))), 1, 66, entry, by decide +kernel⟩,
   ⟨(setPw 0x030109 1 (tnRing 66 (fun x => { x with entries := [{ entry with len := 2, slots := [[0x80480040, 0, 0x1000, 0], [0x100000, 0, 0, 2]] }] }))),
       1, 66, { entry with len := 2, slots := [[0x80480040, 0, 0x1000, 0], [0x100000, 0, 0, 2]] }, 2000000000,
       by decide +kernel⟩,
   ⟨(setPw 0x030109 1 (tnRing 66 (fun x => { x with entries := [entry] }))), 1, 66, entry, by decide +kernel⟩,
   ⟨(modTen 1 (fun x => { x with staging := [gather 66] }) (tnRing 66
       (fun x => { x with entries := [{ entry with stage := .gathering }] }))), 1, (gather 66), 0x1000, 64, [], _, .ur,
       1, rfl, by decide +kernel⟩,
   ⟨(modTen 1 (fun x => { x with staging := [gather 66] }) (tnRing 66
       (fun x => { x with entries := [{ entry with stage := .gathering }] }))), 1, (gather 66), 0x1000, 64, [], _, rfl,
       by decide +kernel⟩,
   ⟨(modTen 1 (fun x => { x with staging := [gather 66] }) (tnRing 66
       (fun x => { x with entries := [{ entry with stage := .gathering }] }))), 1, (gather 66), 0x1000, 64, _, _, (.data
       (List.replicate 64 0)), (List.replicate 64 0), { entry with stage := .gathering }, rfl, rfl, by decide +kernel⟩,
   ⟨{ setPw 0x030100 0 (modTen 1 (fun x => { x with staging := [{ gather 66 with bufs := [], bytes := List.replicate 64 5, complete := true }] }) (tnRing 66 (fun x => { x with entries := [{ entry with stage := .staged }] }))) with frames := [(0, ⟨[], [], 49152, [], 1, none, none, 0⟩)] },
       1, 66, { gather 66 with bufs := [], bytes := List.replicate 64 5, complete := true },
       { entry with stage := .staged }, by decide +kernel⟩,
   ⟨(modPort 0 (fun x => { x with link := true }) (modTen 1 (fun x => { x with staging := [{ gather 66 with bufs := [], bytes := List.replicate 64 5, complete := true }] })
       (tnRing 66 (fun x => { x with entries := [{ entry with stage := .staged }] })))), 1, 66,
       { gather 66 with bufs := [], bytes := List.replicate 64 5, complete := true }, { entry with stage := .staged },
       by decide +kernel⟩⟩

theorem test_hyps_ReceivedFramesAreDelivered :
    (∃ (s : State) (k : Fin 4) (r : Fin 64) (ring0 id : Nat) (rest : List Nat), ∃ u, u = modRing k ring0
        (fun x => { x with refs := rest }) s ∧
      s.tap = false ∧ ring0 = 68 + r.val ∧ (ring s k ring0).refs = id :: rest ∧
      ((ring s k ring0).enable = false ∨ (ring s k ring0).stop = true ∨ (ring s k ring0).flush = true ∨
          (ten s k).engineEn = false ∨ frameService s = false ∨ nextEntry (ring s k ring0) = none)) ∧
    (∃ (s : State) (k : Fin 4) (r : Fin 64) (ring0 id : Nat) (rest : List Nat), ∃ u e addr out v, u = modRing k ring0
        (fun x => { x with refs := rest }) s ∧
      addr = entryDw e 0 2 + entryDw e 0 3 * 2 ^ 32 ∧ out = (frame s id).bytes.take (tagLen (frame s id).tag - 4) ∧
      v = entrySteps k ring0 e.pos (1 + (out.length + 63) / 64)
          (fun y => { y with stage := .done, wb := bytesOf (setAt (e.slots.getD 0 []) 0 (BitVec.ofNat 32 (putBits (entryDw0 e) 31 1 0))) ++ rxSlot (frame s id) false false, useful := true })
          (devWrite k addr out u) ∧
      s.tap = false ∧ ring0 = 68 + r.val ∧ (ring s k ring0).refs = id :: rest ∧ frameService s = true ∧
      (ring s k ring0).enable = true ∧ (ring s k ring0).stop = false ∧ (ring s k ring0).flush = false ∧
      (ten s k).engineEn = true ∧ nextEntry (ring s k ring0) = some e ∧ bitOf (entryDw0 e) 22 = false ∧
      bitOf (entryDw0 e) 21 = false ∧ tagLen (frame s id).tag - 4 ≤ bits (entryDw e 0 1) 0 16) :=
  ⟨⟨(tnRing 131 (fun x => { x with refs := [4, 5] })), 1, 63, 131, 4, [5], _, rfl, by decide +kernel⟩,
   ⟨(tnRing 131 (fun x => { x with refs := [4], entries := [{ entry with slots := [[0x80000000, 2048, 0x1000, 0]] }] })),
       1, 63, 131, 4, [], _, { entry with slots := [[0x80000000, 2048, 0x1000, 0]] }, _, _, _, rfl, rfl, rfl, rfl,
       by decide +kernel⟩⟩

theorem test_hyps_HostLinkEventsResetAndConfigure :
    (∃ (s : State) (k : Fin 4), s.tap = false ∧ (link s k).perst = false) ∧
    (∃ (s : State) (k : Fin 4), s.tap = false ∧ (link s k).perst = true) ∧
    (∃ (s : State) (k : Fin 4), s.tap = false ∧ linkUp s k = true ∧ s.start.ready = false) ∧
    (∃ (s : State) (k : Fin 4) (r : CfgReg), s.tap = false ∧ linkUp s k = true ∧ s.start.ready = true ∧
      r = .deviceCapabilities) ∧
    (∃ (s : State) (k : Fin 4) (r : CfgReg), s.tap = false ∧ linkUp s k = true ∧ s.start.ready = true ∧ r = .command ∧
      (link s k).command &&& 6 = 0) ∧
    (∃ (s : State) (k : Fin 4), ∃ c, s.tap = false ∧ (link s k).bme = true ∧
      (∀ e ∈ (ten s k).rings, e.2.enable = false) ∧ (ten s k).frPush = none ∧ c < 16 ∧ (chan s c).busy = true ∧
      chanHost s c = k ∧ (srcSpace (chan s c) = 0 ∨ dstSpace (chan s c) = 0) ∧ (chan s c).ending = none ∧
      (chan s c).reads = []) ∧
    (∃ (s : State) (k : Fin 4), ∃ c, s.tap = false ∧ (link s k).bme = true ∧
      (∀ e ∈ (ten s k).rings, e.2.enable = false) ∧ (ten s k).frPush = none ∧ c < 16 ∧ (chan s c).busy = true ∧
      chanHost s c = k ∧ (srcSpace (chan s c) = 0 ∨ dstSpace (chan s c) = 0) ∧ (chan s c).ending = none ∧
      (chan s c).reads ≠ []) ∧
    (∃ (s : State) (k : Fin 4), s.tap = false ∧ linkBarred s k = false ∧ (link s k).state = .detect) ∧
    (∃ (s : State) (k : Fin 4) (st : LinkState), s.tap = false ∧ linkBarred s k = false ∧ (st = .l0 ∨ st = .l1) ∧
      linkUp s k = true) ∧
    (∃ (s : State) (k : Fin 4) (st : LinkState), s.tap = false ∧ linkBarred s k = false ∧ st ≠ .l0 ∧ st ≠ .l1 ∧
      linkUp s k = true ∧ (∀ e ∈ (ten s k).rings, e.2.enable = false) ∧ (ten s k).frPush = none) ∧
    (∃ (s : State) (k : Fin 4) (st : LinkState), s.tap = false ∧ linkBarred s k = false ∧ (st = .l0 ∨ st = .l1) ∧
      linkUp s k = false) :=
  ⟨⟨tn, 1, by decide +kernel⟩,
   ⟨(modLink 1 (fun l => { l with perst := true }) tn), 1, by decide +kernel⟩,
   ⟨(inService 1 State.reset), 1, by decide +kernel⟩,
   ⟨tn, 1, .deviceCapabilities, by decide +kernel⟩,
   ⟨tn, 1, .command, by decide +kernel⟩,
   ⟨{ inService 1 up with chans := [(3, { busy := true, count := 4, ctl := 2 ^ 16 })] }, 1, 3, by decide +kernel⟩,
   ⟨{ inService 1 up with chans := [(3, { busy := true, count := 4, ctl := 2 ^ 16, reads := [(.data 16, 0)] })] }, 1, 3,
       by decide +kernel⟩,
   ⟨up, 1, by decide +kernel⟩,
   ⟨tn, 1, .l1, by decide +kernel⟩,
   ⟨tn, 1, .other, by decide +kernel⟩,
   ⟨up, 1, .l0, by decide +kernel⟩⟩

theorem test_hyps_PortLinksFollowTheirConditions :
    (∃ (s : State) (p : Fin 32), ∃ since, s.tap = false ∧ (port s p).qualAt = some since ∧ since + ms 1 ≤ s.clk ∧
      s.power.asleep = false) ∧
    (∃ (s : State) (p : Fin 32), s.tap = false ∧ (port s p).link = true) ∧
    (∃ (s : State) (q : Fin 8), ∃ i, s.tap = false ∧ i < 4 ∧ loopback s (4 * q + i) ≠ 1) ∧
    (∃ (s : State) (q : Fin 8), s.tap = false ∧ pn s (0x110000 + 256 * q) ≠ 0 ∧ (lane s q).down = false ∧
      fenced s q = false) ∧
    (∃ (s : State) (k : Fin 2) (p : Fin 32) (v : BitVec 16), s.tap = false ∧
      (∀ i, i < 32 → (polled s i && bits (pn s (0x10000D + 256 * i)) 5 1 == k) = (i == p.val)) ∧ v ≠ 0xFFFF) ∧
    (∃ (s : State) (k : Fin 2) (p : Fin 32) (a : MdioAnswer), s.tap = false ∧
      (∀ i, i < 32 → (polled s i && bits (pn s (0x10000D + 256 * i)) 5 1 == k) = (i == p.val)) ∧
      (a = .noTurnaround ∨ a = .value 0xFFFF) ∧ loopback s p ≠ 1) ∧
    (∃ (s : State) (k : Fin 2), s.tap = false ∧ mdioPorts s k = []) :=
  ⟨⟨(modPort 0 (fun x => { x with qualAt := some 5 }) (pt fun x => { x with link := false })), 0, 5, by decide +kernel⟩,
   ⟨(pt id), 0, by decide +kernel⟩,
   ⟨(pt id), 7, 3, by decide +kernel⟩,
   ⟨(pt id), 0, by decide +kernel⟩,
   ⟨(pt id), 0, 0, 4, by decide +kernel⟩,
   ⟨(pt id), 0, 0, .noTurnaround, by decide +kernel⟩,
   ⟨up, 1, by decide +kernel⟩⟩

theorem test_hyps_ReceivedFramesMeetTheChecksInOrder :
    (∃ (s : State) (p : Fin 32) (f : RxFrame) (len maxF : Nat), s.tap = false ∧ (port s p).link = true ∧
      loopback s p = 0 ∧ fenced s (p.val / 4) = false ∧ s.power.asleep = false ∧ s.safety.safe = false ∧
      beaconPort s p = false ∧ len = f.bytes.length ∧ maxF = pn s (0x100003 + 256 * p) ∧ f.preempt = true ∧
      f.preemptError = true) ∧
    (∃ (s : State) (p : Fin 32) (f : RxFrame) (len maxF : Nat), s.tap = false ∧ (port s p).link = true ∧
      loopback s p = 0 ∧ fenced s (p.val / 4) = false ∧ s.power.asleep = false ∧ s.safety.safe = false ∧
      beaconPort s p = false ∧ len = f.bytes.length ∧ maxF = pn s (0x100003 + 256 * p) ∧
      (f.preempt && f.preemptError) = false ∧ f.codeError.any (fun k => decide (k ≤ maxF)) = true) ∧
    (∃ (s : State) (p : Fin 32) (f : RxFrame) (len maxF : Nat), s.tap = false ∧ (port s p).link = true ∧
      loopback s p = 0 ∧ fenced s (p.val / 4) = false ∧ s.power.asleep = false ∧ s.safety.safe = false ∧
      beaconPort s p = false ∧ len = f.bytes.length ∧ maxF = pn s (0x100003 + 256 * p) ∧
      (f.preempt && f.preemptError) = false ∧ f.codeError.any (fun k => decide (k ≤ maxF)) = false ∧ len < 64 ∧
      fcsGood f.bytes = true) ∧
    (∃ (s : State) (p : Fin 32) (f : RxFrame) (len maxF : Nat), s.tap = false ∧ (port s p).link = true ∧
      loopback s p = 0 ∧ fenced s (p.val / 4) = false ∧ s.power.asleep = false ∧ s.safety.safe = false ∧
      beaconPort s p = false ∧ len = f.bytes.length ∧ maxF = pn s (0x100003 + 256 * p) ∧
      (f.preempt && f.preemptError) = false ∧ f.codeError.any (fun k => decide (k ≤ maxF)) = false ∧ len < 64 ∧
      fcsGood f.bytes = false) ∧
    (∃ (s : State) (p : Fin 32) (f : RxFrame) (len maxF : Nat), s.tap = false ∧ (port s p).link = true ∧
      loopback s p = 0 ∧ fenced s (p.val / 4) = false ∧ s.power.asleep = false ∧ s.safety.safe = false ∧
      beaconPort s p = false ∧ len = f.bytes.length ∧ maxF = pn s (0x100003 + 256 * p) ∧
      (f.preempt && f.preemptError) = false ∧ f.codeError.any (fun k => decide (k ≤ maxF)) = false ∧ 64 ≤ len ∧
      maxF < len) ∧
    (∃ (s : State) (p : Fin 32) (f : RxFrame) (len maxF : Nat), s.tap = false ∧ (port s p).link = true ∧
      loopback s p = 0 ∧ fenced s (p.val / 4) = false ∧ s.power.asleep = false ∧ s.safety.safe = false ∧
      beaconPort s p = false ∧ len = f.bytes.length ∧ maxF = pn s (0x100003 + 256 * p) ∧
      (f.preempt && f.preemptError) = false ∧ f.codeError.any (fun k => decide (k ≤ maxF)) = false ∧ 64 ≤ len ∧
      len ≤ maxF ∧ fcsGood f.bytes = false) ∧
    (∃ (s : State) (p : Fin 32) (f : RxFrame) (len maxF : Nat), s.tap = false ∧ (port s p).link = true ∧
      loopback s p = 0 ∧ fenced s (p.val / 4) = false ∧ s.power.asleep = false ∧ s.safety.safe = false ∧
      beaconPort s p = false ∧ len = f.bytes.length ∧ maxF = pn s (0x100003 + 256 * p) ∧
      (f.preempt && f.preemptError) = false ∧ f.codeError.any (fun k => decide (k ≤ maxF)) = false ∧ 64 ≤ len ∧
      len ≤ maxF ∧ fcsGood f.bytes = true ∧ be16 f.bytes 12 = 0x8808) ∧
    (∃ (s : State) (p : Fin 32) (f : RxFrame) (len maxF : Nat), s.tap = false ∧ (port s p).link = true ∧
      loopback s p = 0 ∧ fenced s (p.val / 4) = false ∧ s.power.asleep = false ∧ s.safety.safe = false ∧
      beaconPort s p = false ∧ len = f.bytes.length ∧ maxF = pn s (0x100003 + 256 * p) ∧
      (f.preempt && f.preemptError) = false ∧ f.codeError.any (fun k => decide (k ≤ maxF)) = false ∧ 64 ≤ len ∧
      len ≤ maxF ∧ fcsGood f.bytes = true ∧ be16 f.bytes 12 ≠ 0x8808 ∧ stageFull s p f = true) ∧
    (∃ (s : State) (p : Fin 32) (f : RxFrame) (len maxF : Nat), s.tap = false ∧ (port s p).link = true ∧
      loopback s p = 0 ∧ fenced s (p.val / 4) = false ∧ s.power.asleep = false ∧ s.safety.safe = false ∧
      beaconPort s p = false ∧ len = f.bytes.length ∧ maxF = pn s (0x100003 + 256 * p) ∧
      (f.preempt && f.preemptError) = false ∧ f.codeError.any (fun k => decide (k ≤ maxF)) = false ∧ 64 ≤ len ∧
      len ≤ maxF ∧ fcsGood f.bytes = true ∧ be16 f.bytes 12 ≠ 0x8808 ∧ stageFull s p f = false) :=
  ⟨⟨(pt id), 0, ⟨wireFrame 0x0806 [], none, true, true, 0, false⟩, 64, (pn up 0x100003), by decide +kernel⟩,
   ⟨(pt id), 0, ⟨wireFrame 0x0806 [], some 0, false, false, 0, false⟩, 64, (pn up 0x100003), by decide +kernel⟩,
   ⟨(pt id), 0, ⟨fcsOf [], none, false, false, 0, false⟩, 4, (pn up 0x100003), by decide +kernel⟩,
   ⟨(pt id), 0, ⟨List.replicate 63 1, none, false, false, 0, false⟩, 63, (pn up 0x100003), by decide +kernel⟩,
   ⟨(setPw 0x100003 63 (pt id)), 0, ⟨wireFrame 0x0806 [], some 64, false, false, 0, false⟩, 64, 63, by decide +kernel⟩,
   ⟨(pt id), 0, ⟨List.replicate 64 1, none, false, false, 0, false⟩, 64, (pn up 0x100003), by decide +kernel⟩,
   ⟨(pt id), 0, ⟨wireFrame 0x8808 [0, 2], none, false, false, 0, false⟩, 64, (pn up 0x100003), by decide +kernel⟩,
   ⟨(pt (fun x => { x with rx := [⟨List.replicate 19000 0, 0, false, 0⟩] })), 0, ⟨wireFrame 0x0806 [], none, false,
       false, 0, false⟩, 64, (pn up 0x100003), by decide +kernel⟩,
   ⟨(pt id), 0, ⟨wireFrame 0x0806 [], none, false, false, 0, false⟩, 64, (pn up 0x100003), by decide +kernel⟩⟩

theorem test_hyps_FlowControlPausesAndAnnounces :
    (∃ (s : State) (p : Fin 32) (bs : List Byte), be16 bs 14 = 1 ∧ bitOf (pn s (0x100004 + 256 * p)) 1 = false) ∧
    (∃ (s : State) (p : Fin 32) (bs : List Byte), be16 bs 14 = 1 ∧ bitOf (pn s (0x100004 + 256 * p)) 1 = true ∧
      0 < be16 bs 16) ∧
    (∃ (s : State) (p : Fin 32) (bs : List Byte), be16 bs 14 = 1 ∧ bitOf (pn s (0x100004 + 256 * p)) 1 = true ∧
      be16 bs 16 = 0) ∧
    (∃ bs : List Byte, be16 bs 14 ≠ 1 ∧ be16 bs 14 ≠ 0x0101) ∧
    (∃ (s : State) (p : Fin 32), s.tap = false ∧ (∀ e ∈ (port s p).paused, e.2 ≤ s.clk)) ∧
    (∃ (s : State) (p : Fin 32), s.tap = false ∧ (port s p).ctlDue ≠ [] ∧ (port s p).wire = none ∧
      (port s p).link = true ∧ s.safety.safe = false ∧ disturbsLaunch s p = false ∧ loopback s p = 0 ∧
      (port s p).freeAt ≤ s.clk ∧ (∃ d ∈ (port s p).ctlDue, d.1 = 8)) ∧
    (∃ (s : State) (p : Fin 32), s.tap = false ∧ (port s p).ctlDue ≠ [] ∧ (port s p).wire = none ∧
      (port s p).link = true ∧ s.safety.safe = false ∧ disturbsLaunch s p = false ∧ loopback s p = 0 ∧
      (port s p).freeAt ≤ s.clk ∧ (∀ d ∈ (port s p).ctlDue, d.1 ≠ 8)) ∧
    (∃ (s : State) (p : Fin 32) (c : Nat) (x : Xoff), s.tap = false ∧ (port s p).xoff = [(c, x)] ∧
      x.sentAt + quantaTicks (port s p).speed 32768 ≤ s.clk) :=
  ⟨⟨(setPw 0x100004 0 (pt id)), 0, (wireFrame 0x8808 [0, 1, 0, 9]), by decide +kernel⟩,
   ⟨(setPw 0x100004 2 (pt id)), 0, (wireFrame 0x8808 [0, 1, 0, 9]), by decide +kernel⟩,
   ⟨(setPw 0x100004 2 (pt fun x => { x with paused := [(8, 2000000000000)] })), 0, (wireFrame 0x8808 [0, 1, 0, 0]),
       by decide +kernel⟩,
   ⟨(wireFrame 0x8808 [0, 2]), by decide +kernel⟩,
   ⟨(pt (fun x => { x with paused := [(3, 5), (8, 7)] })), 0, by decide +kernel⟩,
   ⟨(pt (fun x => { x with ctlDue := [(3, 5), (8, 7)] })), 0, by decide +kernel⟩,
   ⟨(pt (fun x => { x with ctlDue := [(3, 5), (7, 7)] })), 0, by decide +kernel⟩,
   ⟨(pt (fun x => { x with xoff := [(3, ⟨none, 0⟩)] })), 0, 3, ⟨none, 0⟩, by decide +kernel⟩⟩

theorem test_hyps_TheWinningRuleHasTheLowestPriority :
    (∃ (s : State) (p vid : Nat) (q : Parsed) (flags : Nat) (bs : List Byte), ∃ r, (storedRows s 0x04 0).Pairwise
        (· < ·) ∧
      winningRule s p vid q flags bs = some r) ∧
    (∃ (s : State) (p r : Nat) (item : RxItem), ruleOf s p item = some r ∧ (actionsOf s (some r)).ext = false) ∧
    (∃ (s : State) (r t k : Nat) (item : RxItem), r < 2 ^ 11 ∧ actionsOf s (some r) = { deliver := some (t, k) } ∧
      admits s (some t) (cellsFor item.bytes.length) = true) :=
  ⟨⟨(ruled 3 9 0 0 (ruled 7 4 0 0 (ruled 9 4 0 0 up))), 0, 1, (parse (wireFrame 0x1234 [])), 0, (wireFrame 0x1234 []),
      7, by decide +kernel⟩,
   ⟨(ruled 3 9 (2 ^ 23) 0 (inService 1 up)), 0, 3, rxItem, by decide +kernel⟩,
   ⟨(ruled 3 9 (2 ^ 23 + 2 ^ 21 + 5 * 2 ^ 15) 0 (inService 1 up)), 3, 1, 5, rxItem, by decide +kernel⟩⟩

theorem test_hyps_TheThicketTreatsFramesInOrder :
    (∃ (s : State) (p : Nat) (item : RxItem) (rest : List RxItem) (q : Parsed) (u : State), u
        = { modPort p (rxTake item s.clk rest) s with thicket := { s.thicket with last := p } } ∧
      s.tap = false ∧ frameLost s = false ∧ s.power.asleep = false ∧ s.thicket.waiting.length < 4 ∧
      thicketNext s = some p ∧ (port s p).rx = item :: rest ∧ q = parse item.bytes ∧
      (s.pair.role = 2 ∨ s.pair.role = 3 ∨ s.safety.safe = true)) ∧
    (∃ (s : State) (p : Nat) (item : RxItem) (rest : List RxItem) (q : Parsed) (u : State), u
        = { modPort p (rxTake item s.clk rest) s with thicket := { s.thicket with last := p } } ∧
      s.tap = false ∧ frameLost s = false ∧ s.power.asleep = false ∧ s.thicket.waiting.length < 4 ∧
      thicketNext s = some p ∧ (port s p).rx = item :: rest ∧ q = parse item.bytes ∧ s.pair.role < 2 ∧
      s.safety.safe = false ∧ (addressOk s p item.bytes && vlanOk s p (q.vid (pn s (0x100008 + 256 * p)))) = false) ∧
    (∃ (s : State) (p : Nat) (item : RxItem) (rest : List RxItem) (q : Parsed) (u : State), u
        = { modPort p (rxTake item s.clk rest) s with thicket := { s.thicket with last := p } } ∧
      s.tap = false ∧ frameLost s = false ∧ s.power.asleep = false ∧ s.thicket.waiting.length < 4 ∧
      thicketNext s = some p ∧ (port s p).rx = item :: rest ∧ q = parse item.bytes ∧ s.pair.role < 2 ∧
      s.safety.safe = false ∧ (addressOk s p item.bytes && vlanOk s p (q.vid (pn s (0x100008 + 256 * p)))) = true ∧
      ruleOf s p item = none ∧ bitOf (pn s 0x200005) 0 = false ∧ bitOf (pn s 0x200005) 9 = false) ∧
    (∃ (s : State) (p : Nat) (item : RxItem) (rest : List RxItem) (q : Parsed) (u : State), ∃ t k, u
        = { modPort p (rxTake item s.clk rest) s with thicket := { s.thicket with last := p } } ∧
      t = bits (pn s 0x200005) 1 2 ∧ k = bits (pn s 0x200005) 3 6 ∧ s.tap = false ∧ frameLost s = false ∧
      s.power.asleep = false ∧ s.thicket.waiting.length < 4 ∧ thicketNext s = some p ∧ (port s p).rx = item :: rest ∧
      q = parse item.bytes ∧ s.pair.role < 2 ∧ s.safety.safe = false ∧
      (addressOk s p item.bytes && vlanOk s p (q.vid (pn s (0x100008 + 256 * p)))) = true ∧ ruleOf s p item = none ∧
      bitOf (pn s 0x200005) 0 = true ∧ bitOf (pn s 0x200005) 9 = false ∧
      admits s (some t) (cellsFor item.bytes.length) = true) :=
  ⟨⟨{ rxed 0 with pair := { (rxed 0).pair with role := 2 } }, 0, rxItem, [], (parse rxItem.bytes), _, rfl,
      by decide +kernel⟩,
   ⟨(putRowWord 0x02 0 32 3 2 0 (rxed 0)), 0, rxItem, [], (parse rxItem.bytes), _, rfl, by decide +kernel⟩,
   ⟨(rxed 0), 0, rxItem, [], (parse rxItem.bytes), _, rfl, by decide +kernel⟩,
   ⟨(rxed (1 + 2 * 1 + 8 * 5)), 0, rxItem, [], (parse rxItem.bytes), _, _, _, rfl, rfl, rfl, by decide +kernel⟩⟩

theorem test_hyps_ExtendedFlowLookupsEnd :
    (∃ (s u : State) (p : Fin 32) (f : TFrame) (t : Nat), u = leaveWaiting p s ∧ s.tap = false ∧ frameLost s = false ∧
      s.thicket.waiting.find? (fun f => f.port == p.val) = some f ∧ t = f.tenant ∧ (ten s t).resets ≠ f.resets) ∧
    (∃ (s u : State) (p : Fin 32) (f : TFrame) (t : Nat) (r : HostRead), u = leaveWaiting p s ∧ s.tap = false ∧
      frameLost s = false ∧ s.thicket.waiting.find? (fun f => f.port == p.val) = some f ∧ t = f.tenant ∧
      (ten s t).resets = f.resets ∧ (r = .ur ∨ r = .ca)) ∧
    (∃ (s u : State) (p : Fin 32) (f : TFrame) (t : Nat), u = leaveWaiting p s ∧ s.tap = false ∧ frameLost s = false ∧
      s.thicket.waiting.find? (fun f => f.port == p.val) = some f ∧ t = f.tenant ∧ (ten s t).resets = f.resets ∧
      f.readAt + cplTimeout s t ≤ s.clk) ∧
    (∃ (s u : State) (p : Fin 32) (f : TFrame) (t : Nat), ∃ host bytes v, u = leaveWaiting p s ∧
      (bytes, v) = readServe t f.addr 64 (lookupWho p) host u ∧ s.tap = false ∧ frameLost s = false ∧
      s.thicket.waiting.find? (fun f => f.port == p.val) = some f ∧ t = f.tenant ∧ (ten s t).resets = f.resets) ∧
    (∃ s : State, s.tap = false ∧ frameLost s = true) ∧
    (∃ (s : State) (p : Nat) (item : RxItem), (actionsOf s (ruleOf s p item)).ext = true ∧
      bitOf (pn s 0x200000) 0 = true ∧ (parse item.bytes).udp = true ∧
      (fenced s 18 = true ∨ (ten s (flowTenant s)).inReset = true ∨ canIssue s (flowTenant s) = false)) ∧
    (∃ (s : State) (p : Nat) (item : RxItem) (row : Option Nat), row = ruleOf s p item ∧
      (actionsOf s row).ext = true) ∧
    (∃ (q : Parsed) (bs row : List Byte), flowHit q bs row = none) ∧
    (∃ (t : Nat) (q : Parsed) (bs row : List Byte) (a : Actions), ∃ d x k, flowHit q bs row = some d ∧
      a.deliver = some (x, k) ∧ x ≠ t) ∧
    (∃ (t : Nat) (q : Parsed) (bs row : List Byte) (a : Actions), (∀ x k, a.deliver = some (x, k) → x = t) ∧
      flowHit q bs row = some false) ∧
    (∃ (t : Nat) (q : Parsed) (bs row : List Byte) (a : Actions), (∀ x k, a.deliver = some (x, k) → x = t) ∧
      flowHit q bs row = some true) :=
  ⟨⟨{ inService 0 up with thicket := ⟨0, [flowWait 1], []⟩ }, _, 0, (flowWait 1), 0, rfl, by decide +kernel⟩,
   ⟨{ inService 0 up with thicket := ⟨0, [flowWait 0], []⟩ }, _, 0, (flowWait 0), 0, .ur, rfl, by decide +kernel⟩,
   ⟨{ inService 0 up with thicket := ⟨0, [flowWait 0], []⟩ }, _, 0, (flowWait 0), 0, rfl, by decide +kernel⟩,
   ⟨{ inService 0 up with thicket := ⟨0, [flowWait 0], []⟩ }, _, 0, (flowWait 0), 0, (List.replicate 64 0), _, _, rfl,
       rfl, by decide +kernel⟩,
   ⟨{ inService 0 up with fences := 256, thicket := ⟨0, [flowWait 1], []⟩ }, by decide +kernel⟩,
   ⟨(setPw 0x200000 1 (setPw 0x200005 0x200 up)), 0, ⟨udpFrame, 0, false, 0⟩, by decide +kernel⟩,
   ⟨(setPw 0x200000 1 (setPw 0x200005 0x200 up)), 0, ⟨udpFrame, 0, false, 0⟩, none, by decide +kernel⟩,
   ⟨(parse udpFrame), udpFrame, [], by decide +kernel⟩,
   ⟨1, (parse udpFrame), udpFrame, (flowRow 0), { deliver := some (2, 3) }, false, 2, 3, by decide +kernel⟩,
   ⟨1, (parse udpFrame), udpFrame, (flowRow 0), { deliver := some (1, 3) }, fun _ _ h => by cases h; rfl,
       by decide +kernel⟩,
   ⟨1, (parse udpFrame), udpFrame, (flowRow (2 ^ 31 + 5 * 65536)), { deliver := some (1, 3) },
       fun _ _ h => by cases h; rfl, by decide +kernel⟩⟩

theorem test_hyps_EgressCopiesStartsAndEndsFrames :
    (∃ (s : State) (p : Fin 32) (c : Nat) (i : EgItem) (rest : List EgItem), (∀ l, i.launch
        = some l → s.time.dev ≤ l * 65536) ∧
      s.tap = false ∧ s.pair.role < 2 ∧ (port s p).stage.length < 2 ∧
      ([7, 6, 5, 4, 3, 2, 1, 0].find? fun c => match queueOf s p c with | i :: _ => due s p c i | [] => false) = some c ∧
      queueOf s p c = i :: rest) ∧
    (∃ (s : State) (p : Fin 32) (c : Nat) (i : EgItem) (rest : List EgItem), ∃ l, s.tap = false ∧ s.pair.role < 2 ∧
      (port s p).stage.length < 2 ∧
      ([7, 6, 5, 4, 3, 2, 1, 0].find? fun c => match queueOf s p c with | i :: _ => due s p c i | [] => false) = some c ∧
      queueOf s p c = i :: rest ∧ i.launch = some l ∧ l * 65536 < s.time.dev) ∧
    (∃ (s : State) (p : Fin 32), s.tap = false ∧ (2 ≤ (port s p).stage.length ∨ 2 ≤ s.pair.role)) ∧
    (∃ (s u : State) (p : Fin 32), ∃ f, u = waitUntil (port s p).freeAt s ∧ s.tap = false ∧ (port s p).wire = none ∧
      (port s p).link = true ∧ s.safety.safe = false ∧ s.pair.role < 2 ∧ pickStaged u p = some f) ∧
    (∃ (s u : State) (p : Fin 32), u = waitUntil (port s p).freeAt s ∧ s.tap = false ∧ (port s p).wire = none ∧
      (port s p).link = true ∧ s.safety.safe = false ∧ s.pair.role < 2 ∧ (port s p).freeAt ≤ s.clk ∧
      pickStaged s p = none ∧ (port s p).held = none ∧ (∀ f ∈ (port s p).stage, launched s f = true)) ∧
    (∃ (s u : State) (p : Fin 32), ∃ f l v, u = waitUntil (port s p).freeAt s ∧ v = waitDev (l * 65536) s ∧
      s.tap = false ∧ (port s p).wire = none ∧ (port s p).link = true ∧ s.safety.safe = false ∧ s.pair.role < 2 ∧
      (port s p).freeAt ≤ s.clk ∧ pickStaged s p = none ∧ (port s p).held = none ∧ (port s p).stage = [f] ∧
      f.launch = some l ∧ launched s f = false ∧ pickStaged v p = some f) ∧
    (∃ (s u : State) (p : Fin 32), ∃ h, u = waitUntil (port s p).freeAt s ∧ s.tap = false ∧ (port s p).wire = none ∧
      (port s p).link = true ∧ s.safety.safe = false ∧ s.pair.role < 2 ∧ (port s p).freeAt ≤ s.clk ∧
      pickStaged s p = none ∧ (port s p).held = some h ∧ gateOpen s p h.cls = true ∧ (port s p).gate.hold = false) ∧
    (∃ (s : State) (p : Fin 32) (f : Staged), s.tap = false ∧ (port s p).wire = some f ∧ (port s p).held = none ∧
      loopback s p = 0 ∧ wireEnd f ≤ s.clk) ∧
    (∃ (s : State) (p : Fin 32), s.tap = false ∧ s.pair.role ≠ 0 ∧ beaconPort s p = true ∧ (port s p).link = true ∧
      s.safety.safe = false ∧ pairingLost s = false ∧ tget s.pair.beaconSent p 0 + ms 1 ≤ s.clk ∧
      (port s p).wire = none ∧ (port s p).freeAt ≤ s.clk ∧ disturbsLaunch s p = false) :=
  ⟨⟨{ pt (fun x => { x with queues := [(3, [⟨5, .relay, none, 0⟩])] }) with frames := [(5, ⟨[], [1, 2], 1, [], 1, none, none, 0⟩)] },
      0, 3, ⟨5, .relay, none, 0⟩, [], ofNone rfl, by decide +kernel⟩,
   ⟨{ pt (fun x => { x with queues := [(3, [⟨5, .relay, some 0, 0⟩])] }) with frames := [(5, ⟨[], [1, 2], 1, [], 1, none, none, 0⟩)], time := { pll := true, dev := 65536 } },
       0, 3, ⟨5, .relay, some 0, 0⟩, [], 0, by decide +kernel⟩,
   ⟨{ pt id with pair := { up.pair with role := 2 } }, 0, by decide +kernel⟩,
   ⟨(pt (fun x => { x with stage := [relayed] })), _, 0, relayed, rfl, by decide +kernel⟩,
   ⟨(pt id), _, 0, rfl, by decide +kernel⟩,
   ⟨(pt (fun x => { x with stage := [{ relayed with launch := some 9 }] })), _, 0, { relayed with launch := some 9 }, 9,
       _, rfl, rfl, by decide +kernel⟩,
   ⟨(pt (fun x => { x with held := some relayed })), _, 0, relayed, rfl, by decide +kernel⟩,
   ⟨(pt (fun x => { x with wire := some relayed })), 0, relayed, by decide +kernel⟩,
   ⟨(setPw 0x700002 32 { pt id with pair := { up.pair with role := 1 } }), 0, by decide +kernel⟩⟩

theorem test_hyps_GateListsRunAndSwap :
    (∃ (s : State) (p : Fin 32), s.tap = false ∧ (port s p).gate.enable = false) ∧
    (∃ (s : State) (p : Fin 32) (next : Nat) (u : State) (pos : Nat) (g : Gate), u = waitDev (next * 65536) s ∧
      s.tap = false ∧ (port s p).gate.enable = true ∧
      next = (match cyclePos s p (nowNs s) with | none => (port s p).gate.base | some pos => nowNs s - pos + (entryOf s p (port s p).gate.active (port s p).gate.len (port s p).gate.cycle pos).2) ∧
      cyclePos u p (nowNs u) = some pos ∧ g = (port u p).gate) ∧
    (∃ (s : State) (p : Fin 32) (c : Nat), s.tap = false ∧ (port s p).gate.swapAt = some c ∧ c * 65536 ≤ s.time.dev) ∧
    (∃ (s : State) (p : Fin 32), s.tap = false ∧ (port s p).gate.swapAt = none) :=
  ⟨⟨(pt id), 0, by decide +kernel⟩,
   ⟨(putRowWord 0x06 0 0 2 0 0x1FF (pt (fun x => { x with gate := { enable := true } }))), 0, 0xF4240, _, 0,
       { enable := true }, rfl, by decide +kernel⟩,
   ⟨(pt (fun x => { x with gate := { enable := true, swapAt := some 0 } })), 0, 0, by decide +kernel⟩,
   ⟨(pt id), 0, by decide +kernel⟩⟩

theorem test_hyps_PulsesAreCapturedAndTheTimebaseLocks :
    (∃ s : State, s.tap = false ∧ s.time.ppsDue = true ∧ s.power.asleep = false ∧ s.time.lost = false ∧
      bitOf (pn s 0x300003) 0 = true) ∧
    (∃ s : State, s.tap = false ∧ bitOf (pn s 0x300003) 0 = false ∧ s.time.ppsDue = false) ∧
    (∃ s : State, s.tap = false ∧ s.time.ppsOut = some s.time.fixed ∧ s.time.fixed < 2 ^ 48) ∧
    (∃ (s : State) (e : Edge), s.tap = false ∧
      (bitOf (pn s 0x300004) 0 = false ∨ bitOf (pn s 0x300004) 1 ≠ e.falling ∨ e.widthNs < 20)) ∧
    (∃ (s : State) (e : Edge), ∃ d at0, s.tap = false ∧ bitOf (pn s 0x300004) 0 = true ∧
      bitOf (pn s 0x300004) 1 = e.falling ∧ 20 ≤ e.widthNs ∧ s.time.pll = true ∧
      s.time.cap.find? (fun c => c.1 == 2) = some (2, d, at0) ∧ s.clk ≤ at0 + us 1) ∧
    (∃ (s : State) (e : Edge), ∃ w, s.tap = false ∧ bitOf (pn s 0x300004) 0 = true ∧
      bitOf (pn s 0x300004) 1 = e.falling ∧ 20 ≤ e.widthNs ∧ s.time.pll = true ∧
      s.time.cap.find? (fun c => c.1 == 2) = none ∧ w < 5) ∧
    (∃ (s : State) (i : Fin 2) (e : Edge), s.tap = false ∧
      (bitOf (bits (pn s 0x300005) (2 * i) 2) (if e.falling then 1 else 0) = false ∨ e.widthNs < 20)) ∧
    (∃ (s : State) (i : Fin 2) (e : Edge), ∃ w, s.tap = false ∧
      bitOf (bits (pn s 0x300005) (2 * i) 2) (if e.falling then 1 else 0) = true ∧ 20 ≤ e.widthNs ∧ s.time.pll = true ∧
      s.power.asleep = false ∧ s.time.cap.find? (fun c => c.1 == i.val) = none ∧ w < 5) ∧
    (∃ s : State, s.tap = false ∧ s.time.pll = false ∧ s.start.pllFailed = false ∧ running s = true) ∧
    (∃ s : State, s.tap = false ∧ (s.time.pll = true ∨ s.start.pllFailed = true)) ∧
    (∃ s : State, s.tap = false ∧ s.time.pll = true ∧ s.time.lost = false) :=
  ⟨⟨(setPw 0x300003 0x501 { up with time := { up.time with ppsDue := true } }), by decide +kernel⟩,
   ⟨up, by decide +kernel⟩,
   ⟨{ up with time := { up.time with fixed := 9, ppsOut := some 9 } }, by decide +kernel⟩,
   ⟨(setPw 0x300004 1 up), ⟨false, 19⟩, by decide +kernel⟩,
   ⟨(setPw 0x300004 1 { up with time := { up.time with cap := [(2, 7, up.clk - 500)] } }), ⟨false, 20⟩, 7,
       (up.clk - 500), by decide +kernel⟩,
   ⟨(setPw 0x300004 3 up), ⟨true, 20⟩, 4, by decide +kernel⟩,
   ⟨(setPw 0x300005 4 up), 1, ⟨true, 30⟩, by decide +kernel⟩,
   ⟨(setPw 0x300005 4 up), 1, ⟨false, 20⟩, 4, by decide +kernel⟩,
   ⟨{ State.reset with start := { State.reset.start with powered := true } }, by decide +kernel⟩,
   ⟨up, by decide +kernel⟩,
   ⟨up, by decide +kernel⟩⟩

theorem test_hyps_CountersRunAndWrap :
    (∃ (s : State) (n : Nat), s.time.pll = true ∧ 0 < n) ∧
    (∃ s : State, s.tap = false ∧ s.time.pll = true ∧ s.time.fixed < 2 ^ 48) ∧
    (∃ (s : State) (i : Fin 8), s.tap = false ∧ s.time.pll = true ∧ pn s (0x610000 + i) = 0x010001 ∧
      tget s.perf.cnt i 0 < 2 ^ 48) ∧
    (∃ s : State, s.tap = false ∧ s.time.pll = true ∧ phaseSlew s ≠ 0 ∧ s.time.slewAcc < 500 ∧ 0 < phaseSlew s) ∧
    (∃ s : State, s.tap = false ∧ s.time.pll = true ∧ phaseSlew s ≠ 0 ∧ s.time.slewAcc < 500 ∧ phaseSlew s < 0) ∧
    (∃ (s : State) (start : Nat), s.tap = false ∧ s.perf.bwAt = some start ∧ start + pwide s 0x610008 2 ≤ s.clk) :=
  ⟨⟨up, 1, by decide +kernel⟩,
   ⟨{ up with time := { up.time with fixed := 2 ^ 48 - 1 } }, by decide +kernel⟩,
   ⟨(setPw 0x610002 0x010001 { up with perf := { cnt := [(2, 2 ^ 48 - 3)] } }), 2, by decide +kernel⟩,
   ⟨(setPw 0x300002 5 { up with time := { up.time with slewAcc := 499 } }), by decide +kernel⟩,
   ⟨(setPw 0x300002 0xFFFFFB { up with time := { up.time with slewAcc := 499 } }), by decide +kernel⟩,
   ⟨{ up with perf := { bwAt := some 9, bwSum := 4 } }, 9, by decide +kernel⟩⟩

theorem test_hyps_WindowsPresentTheirSources :
    (∃ (s : State) (w : Fin 5), s.tap = false ∧ (presentable s w = false ∨ (win s w).presenting = true)) ∧
    (∃ (s : State) (w : Fin 5), (∀ at0, (win s w).presentAt = some at0 → at0 + us (pn s
        (0x600000 + 256 * w.val)) ≤ s.clk) ∧
      s.tap = false ∧ presentable s w = true ∧ (win s w).presenting = false ∧
      (w = 0 ∨ (win s w).msiEn = false ∨ (link s (w - 1)).msiEn = false)) ∧
    (∃ (s : State) (w : Fin 5), (∀ at0, (win s w).presentAt = some at0 → at0 + us (pn s
        (0x600000 + 256 * w.val)) ≤ s.clk) ∧
      s.tap = false ∧ presentable s w = true ∧ (win s w).presenting = false ∧ w ≠ 0 ∧ (win s w).msiEn = true ∧
      (link s (w - 1)).msiEn = true) :=
  ⟨⟨tn, 2, by decide +kernel⟩,
   ⟨(putRowWord 0x0C 2 3 1 0 (2 ^ 23 + 64) (modWin 1 (fun x => { x with msiEn := true }) (modLink 1
       (fun l => { l with msiEn := true, msiAddr := 0x1000, msiData := 5 }) tn))), 2, ofNone (by decide +kernel),
       by decide +kernel⟩,
   ⟨(putRowWord 0x0C 2 3 1 0 (2 ^ 23 + 64) (modWin 2 (fun x => { x with msiEn := true }) (modLink 1
       (fun l => { l with msiEn := true, msiAddr := 0x1000, msiData := 5 }) tn))), 2, ofNone (by decide +kernel),
       by decide +kernel⟩⟩

theorem test_hyps_TheSafeStateIsEnteredOnItsCauses :
    (∃ (s : State) (q : CbPar), PerformsM s q 0x49 1 ∧ s.safety.safe = false ∧ s.power.asleep = false) ∧
    (∃ (s : State) (q : CbPar), PerformsM s q 0x49 1 ∧ (s.safety.safe = true ∨ s.power.asleep = true)) ∧
    (∃ (s : State) (q : CbPar), ∃ k, PerformsM s q 0x49 0x3C0002 ∧ s.safety.safe = false ∧ k < 4) ∧
    (∃ (s : State) (q : CbPar), ∃ c, PerformsM s q 0x49 0x3C0002 ∧ s.safety.safe = false ∧ c < 16 ∧
      (chan s c).busy = true) ∧
    (∃ (s : State) (q : CbPar), ∃ p, PerformsM s q 0x49 0x3C0002 ∧ s.safety.safe = false ∧ p < 32) ∧
    (∃ (s : State) (since period : Nat), s.tap = false ∧ s.safety.dog = some (since, period) ∧
      ms period ≤ (s.time.fixed + 2 ^ 48 - since) % 2 ^ 48 ∧ s.safety.safe = false) ∧
    (∃ s : State, s.tap = false ∧ s.safety.dog = none) ∧
    (∃ (s : State) (a b : Fin 25), s.tap = false ∧ running s = true ∧ s.time.pll = true ∧ handshakes s a = true ∧
      handshakes s b = true ∧ a ≠ b ∧ s.safety.safe = false ∧ (a = 0 ∨ b = 0)) ∧
    (∃ (s : State) (a b : Fin 25), s.tap = false ∧ running s = true ∧ s.time.pll = true ∧ handshakes s a = true ∧
      handshakes s b = true ∧ a ≠ b ∧ s.mgmt.fault = 0) :=
  ⟨⟨(setPw 0x900003 20 mg), (qW 0x49 1), accessM (by decide +kernel), by decide +kernel⟩,
   ⟨{ mg with safety := { mg.safety with safe := true } }, (qW 0x49 1), accessM (by decide +kernel), by decide +kernel⟩,
   ⟨{ mg with chans := [(3, { busy := true })] }, (qW 0x49 0x3C0002), 3, accessM (by decide +kernel),
       by decide +kernel⟩,
   ⟨{ mg with chans := [(3, { busy := true })] }, (qW 0x49 0x3C0002), 3, accessM (by decide +kernel),
       by decide +kernel⟩,
   ⟨{ mg with chans := [(3, { busy := true })] }, (qW 0x49 0x3C0002), 31, accessM (by decide +kernel),
       by decide +kernel⟩,
   ⟨{ up with safety := { up.safety with dog := some (0, 2) }, time := { up.time with fixed := 1000000 } }, 0, 2,
       by decide +kernel⟩,
   ⟨up, by decide +kernel⟩,
   ⟨up, 0, 5, by decide +kernel⟩,
   ⟨up, 0, 5, by decide +kernel⟩⟩

theorem test_hyps_ChecksReactAsTheirTableSays :
    (∃ (s : State) (c : Fin 48) (i : Fin 25), s.tap = false ∧ testSkipped s c i = true) ∧
    (∃ (s : State) (c : Fin 48) (i : Fin 25), s.tap = false ∧ testSkipped s c i = false ∧ s.clk < halfEnd s ∧
      (c.val, i.val) ∈ s.safety.tested) ∧
    (∃ (s : State) (c : Fin 48) (i : Fin 25), s.tap = false ∧ testSkipped s c i = false ∧ checkerSafe c i = true) ∧
    (∃ (s : State) (c : Fin 48) (i : Fin 25), s.tap = false ∧ testSkipped s c i = false ∧ checkerSafe c i = false) ∧
    (∃ (s : State) (c : Fin 48) (i : Fin 25), s.tap = false ∧ testSkipped s c i = false ∧
      tget s.safety.misses c 0 = 0) ∧
    (∃ (s : State) (c : Fin 48) (i : Fin 25), s.tap = false ∧ testSkipped s c i = false ∧
      1 ≤ tget s.safety.misses c 0) ∧
    (∃ (s : State) (i : Fin 25), s.tap = false ∧ i ≠ 1 ∧ allFenced s (islandFence i) = false ∧ (i = 0 ∨ i = 24)) ∧
    (∃ (s : State) (i : Fin 25), s.tap = false ∧ i ≠ 1 ∧ allFenced s (islandFence i) = false ∧ i ≠ 0 ∧ i ≠ 24) ∧
    (∃ s : State, s.tap = false ∧ testSkipped s 22 0 = false) ∧
    (∃ s : State, s.tap = false ∧ s.start.checked = false ∧ s.start.pllFailed = false ∧ s.time.pll = true ∧
      running s = true ∧ s.start.memInit = true) ∧
    (∃ s : State, ∃ c i, s.tap = false ∧ s.start.checked = false ∧ s.start.pllFailed = false ∧ s.time.pll = true ∧
      running s = true ∧ checkerSafe c i = true) ∧
    (∃ s : State, s.tap = false ∧ running s = true ∧ s.start.ready = false ∧ s.power.waking = false) :=
  ⟨⟨up, 43, 0, by decide +kernel⟩,
   ⟨{ up with safety := { up.safety with halfAt := 999999999999, tested := [(4, 3)] } }, 4, 3, by decide +kernel⟩,
   ⟨up, 4, 3, by decide +kernel⟩,
   ⟨up, 20, 3, by decide +kernel⟩,
   ⟨up, 4, 3, by decide +kernel⟩,
   ⟨{ up with safety := { up.safety with misses := [(4, 1)] } }, 4, 3, by decide +kernel⟩,
   ⟨up, 24, by decide +kernel⟩,
   ⟨up, 4, by decide +kernel⟩,
   ⟨up, by decide +kernel⟩,
   ⟨{ up with start := { up.start with checked := false, ready := false } }, by decide +kernel⟩,
   ⟨{ up with start := { up.start with checked := false, ready := false } }, 0, 24, by decide +kernel⟩,
   ⟨{ up with start := { up.start with ready := false } }, by decide +kernel⟩⟩

theorem test_hyps_ResetsAndStartUp :
    (∃ s : State, s.start.powered = false) ∧
    (∃ n : Nat, n < 1000) ∧
    (∃ (s : State) (n : Nat), 1000 ≤ n ∧ n < 10000 ∧ s.start.powered = true ∧ s.start.resetLow = false) ∧
    (∃ (s : State) (n : Nat), 10000 ≤ n ∧ s.start.powered = true ∧ s.start.resetLow = false) ∧
    (∃ (s : State) (nv : NvRead) (n : NvRecord), ∃ m, s.start.powered = true ∧ s.start.resetLow = true ∧
      ((nv = .newer ∧ n = s.power.nvNew) ∨ (nv = .older ∧ n = s.power.nvOld)) ∧ m < 12) ∧
    (∃ (s : State) (nv : NvRead) (n : NvRecord) (wrote : Bool), s.start.powered = true ∧ s.start.resetLow = true ∧
      ((nv = .newer ∧ n = s.power.nvNew) ∨ (nv = .older ∧ n = s.power.nvOld)) ∧ wrote = false) ∧
    (∃ (s : State) (since : Nat) (nv : NvRead), s.start.internal = some since ∧ since + us 10 ≤ s.clk ∧ nv = .newer) ∧
    (∃ s : State, s.tap = false ∧ s.time.pll = false ∧ s.start.pllFailed = false ∧ running s = true ∧
      s.start.releasedAt + ms 5 ≤ s.clk ∧ s.start.memInit = true) ∧
    (∃ s : State, ∃ k, s.tap = false ∧ s.start.ready = true ∧ s.start.window = true ∧
      s.start.readyAt + ms 100 ≤ s.clk ∧ k < 4 ∧ s.safety.safe = false ∧ (ten s k).inReset = true ∧
      tenantHeld s k = true ∧ tenantHeld { s with start := { s.start with window := false } } k = false) :=
  ⟨⟨{ up with start := { up.start with powered := false } }, by decide +kernel⟩,
   ⟨999, by decide +kernel⟩,
   ⟨tn, 5000, by decide +kernel⟩,
   ⟨tn, 10000, by decide +kernel⟩,
   ⟨{ up with start := { up.start with resetLow := true } }, .older, {}, 11, by decide +kernel⟩,
   ⟨{ up with start := { up.start with resetLow := true } }, .newer, {}, false, by decide +kernel⟩,
   ⟨{ tn with start := { up.start with internal := some 5 } }, 5, .newer, by decide +kernel⟩,
   ⟨{ up with time := { up.time with pll := false } }, by decide +kernel⟩,
   ⟨{ tn with start := { up.start with window := true } }, 3, by decide +kernel⟩⟩

theorem test_hyps_DroopHeatAndAgeAreMeasured :
    (∃ (s : State) (i : Fin 25), s.tap = false ∧ i ≠ 1) ∧
    (∃ (s : State) (i : Nat) (d : Droop) (room : Nat), s.tap = false ∧ s.time.pll = true ∧ s.droop = [(i, d)] ∧
      room = 500000 - s.time.fixed % 500000 ∧ s.time.fixed + room < 2 ^ 48) ∧
    (∃ (s : State) (rs : List Int) (tj : Int), s.tap = false ∧ s.start.powered = true ∧ rs.length = 8 ∧
      s.power.sampleAt + ms 1 ≤ s.clk ∧ tj ∈ rs ∧ (∀ r ∈ rs, r ≤ tj) ∧ toInt 24 (pn s 0x80FF01) ≤ tj) ∧
    (∃ (s : State) (rs : List Int) (tj : Int), s.tap = false ∧ s.start.powered = true ∧ rs.length = 8 ∧
      s.power.sampleAt + ms 1 ≤ s.clk ∧ tj ∈ rs ∧ (∀ r ∈ rs, r ≤ tj) ∧ tj ≤ toInt 24 (pn s 0x80FF01) - 3) ∧
    (∃ (s : State) (rs : List Int) (tj : Int), s.tap = false ∧ s.start.powered = true ∧ rs.length = 8 ∧
      s.power.sampleAt + ms 1 ≤ s.clk ∧ tj ∈ rs ∧ (∀ r ∈ rs, r ≤ tj) ∧ 120 < tj ∧ 9 ≤ s.power.hot) ∧
    (∃ (s : State) (rs : List Int) (tj : Int), s.tap = false ∧ s.start.powered = true ∧ rs.length = 8 ∧
      s.power.sampleAt + ms 1 ≤ s.clk ∧ tj ∈ rs ∧ (∀ r ∈ rs, r ≤ tj) ∧ tj ≤ 120) ∧
    (∃ s : State, s.tap = false ∧ s.start.powered = true ∧ (s.power.seconds + 1) * 500000000 ≤ s.clk ∧
      0 < s.power.tjCount) ∧
    (∃ (s : State) (rs : List MonReading) (a m v : Nat), (rs.map monShift)[m]? = some v ∧ s.tap = false ∧
      s.time.pll = true ∧ s.power.lost = false ∧ s.power.lockedAt + (s.power.hours + 1) * 1800000000000 ≤ s.clk ∧
      rs.length = 12 ∧ secondShift (rs.map monShift) = some a) :=
  ⟨⟨up, 4, by decide +kernel⟩,
   ⟨{ up with droop := [(4, { low := true, ticks := 7 })] }, 4, { low := true, ticks := 7 }, 500000, by decide +kernel⟩,
   ⟨{ up with power := { up.power with hot := 9 } }, [40, 121, 7, 0, 0, 0, 0, 0], 121, by decide +kernel⟩,
   ⟨{ up with power := { up.power with hot := 9 } }, [40, 7, 0, 0, 0, 0, 0, 0], 40, by decide +kernel⟩,
   ⟨{ up with power := { up.power with hot := 9 } }, [40, 121, 7, 0, 0, 0, 0, 0], 121, by decide +kernel⟩,
   ⟨{ up with power := { up.power with hot := 9 } }, [40, 120, 7, 0, 0, 0, 0, 0], 120, by decide +kernel⟩,
   ⟨{ up with power := { up.power with tjCount := 3, tjSum := 120 } }, by decide +kernel⟩,
   ⟨{ up with clk := 1800000000000 }, (.freqs 100000000 90000000 :: List.replicate 11 (.freqs 100000000 95000000)),
       50000, 11, _, rfl, by decide +kernel⟩⟩

theorem test_hyps_ImagesLoadAndEnd :
    (∃ (s : State) (q : CbPar) (fromStore : Bool), PerformsM s q 0x50 (1 + flag fromStore 1) ∧ s.image.load = false ∧
      s.safety.safe = false ∧ (chan s 0).busy = true) ∧
    (∃ (s : State) (q : CbPar) (r : HostRead) (fromStore areaBad : Bool), PerformsM s q 0x50 (1 + flag fromStore 1) ∧
      s.image.load = false ∧ s.safety.safe = false ∧ (chan s 0).busy = false ∧
      (fenced s 19 = true ∨ (fromStore = false ∧ r = .ur) ∨ (fromStore = true ∧ areaBad = true))) ∧
    (∃ s : State, s.tap = false ∧ (s.image.load = false ∨ undrained s = true)) ∧
    (∃ s : State, s.tap = false ∧ s.image.load = true ∧ undrained s = false ∧ s.image.verdict ≠ 0) ∧
    (∃ s : State, s.tap = false ∧ s.image.load = true ∧ undrained s = false ∧ s.image.verdict = 0 ∧
      sourceOpen s.image.fromStore s = false) ∧
    (∃ s : State, s.tap = false ∧ s.image.load = true ∧ undrained s = false ∧ s.image.verdict = 0 ∧
      sourceOpen s.image.fromStore s = true ∧ imageOps s.image.bytes = some []) :=
  ⟨⟨{ mg with chans := [(0, { busy := true })] }, (qW 0x50 1), false, accessM (by decide +kernel), by decide +kernel⟩,
   ⟨{ mg with chans := [(3, { busy := true })] }, (qW 0x50 1), .ur, false, false, accessM (by decide +kernel),
       by decide +kernel⟩,
   ⟨mg, by decide +kernel⟩,
   ⟨{ mg with image := { load := true, verdict := 4, failAt := 9 } }, by decide +kernel⟩,
   ⟨{ mg with image := { load := true, bytes := (List.replicate 32 0).set 6 32 } }, by decide +kernel⟩,
   ⟨{ inService 0 mg with image := { load := true, bytes := (List.replicate 32 0).set 6 32 } }, by decide +kernel⟩⟩

theorem test_hyps_StoreCommandsStartUnderTheirConditions :
    (∃ (s w : State) (q : CbPar), ∃ d, w = acknowledge none s ∧ PerformsM s q 0x4C 0x5C0001 ∧ fenced s 17 = false ∧
      s.store.cmd = none ∧ s.store.medium ≠ 0 ∧ s.store.medium ≠ 3 ∧ acceptCart d = none) ∧
    (∃ (s w : State) (q : CbPar), ∃ d c g, w = acknowledge none s ∧ PerformsM s q 0x4C 0x5C0001 ∧
      fenced s 17 = false ∧ s.store.cmd = none ∧ s.store.medium ≠ 0 ∧ s.store.medium ≠ 3 ∧ acceptCart d = some (c, g)) ∧
    (∃ (s w : State) (q : CbPar), w = acknowledge none s ∧ PerformsM s q 0x4C 0x5C0001 ∧ fenced s 17 = false ∧
      s.store.cmd = none ∧ (s.store.medium = 0 ∨ s.store.medium = 3)) ∧
    (∃ (s w : State) (q : CbPar), w = acknowledge none s ∧ PerformsM s q 0x4C 0x5C0002 ∧ fenced s 17 = false ∧
      s.store.cmd = none ∧ s.store.medium = 2) ∧
    (∃ (s w : State) (q : CbPar), w = acknowledge none s ∧ PerformsM s q 0x4C 0x5C0002 ∧ fenced s 17 = false ∧
      s.store.cmd = none ∧ s.store.medium ≠ 2) ∧
    (∃ (s w : State) (q : CbPar) (k : Fin 64), w = acknowledge none s ∧ PerformsM s q 0x4C (3 + 16 * k) ∧
      fenced s 17 = false ∧ s.store.cmd = none ∧ s.store.medium = 3) ∧
    (∃ (s w : State) (q : CbPar) (k : Fin 64), w = acknowledge none s ∧ PerformsM s q 0x4C (3 + 16 * k) ∧
      fenced s 17 = false ∧ s.store.cmd = none ∧ s.store.medium ≠ 3) ∧
    (∃ (s w : State) (q : CbPar) (k : Fin 64), w = acknowledge none s ∧ PerformsM s q 0x4C (4 + 16 * k) ∧
      fenced s 17 = false ∧ s.store.cmd = none ∧ s.store.medium = 3 ∧ keyState s = 3 ∧ s.store.beyond = false ∧
      (stream s k).state ≠ 3) ∧
    (∃ (s w : State) (q : CbPar) (k : Fin 64), w = acknowledge none s ∧ PerformsM s q 0x4C (4 + 16 * k) ∧
      fenced s 17 = false ∧ s.store.cmd = none ∧ s.store.medium = 3 ∧ keyState s = 3 ∧ s.store.beyond = true ∧
      overCap s = true ∧ (stream s k).state = 0 ∧ (stream s k).window = none) ∧
    (∃ (s w : State) (q : CbPar) (k : Fin 64), w = acknowledge none s ∧ PerformsM s q 0x4C (4 + 16 * k) ∧
      fenced s 17 = false ∧ s.store.cmd = none ∧ s.store.medium = 3 ∧ keyState s ≠ 3) ∧
    (∃ (s w : State) (q : CbPar) (k : Fin 64), w = acknowledge none s ∧ PerformsM s q 0x4C (5 + 16 * k) ∧
      fenced s 17 = false ∧ s.store.cmd = none ∧ (s.store.medium = 3 ∨ s.store.medium = 4)) ∧
    (∃ (s w : State) (q : CbPar), w = acknowledge none s ∧ PerformsM s q 0x4C 6 ∧ fenced s 17 = false ∧
      s.store.cmd = none ∧ s.store.medium = 3) ∧
    (∃ (s w : State) (q : CbPar), w = acknowledge none s ∧ PerformsM s q 0x4C 6 ∧ fenced s 17 = false ∧
      s.store.cmd = none ∧ s.store.medium ≠ 3) ∧
    (∃ (s w : State) (q : CbPar), w = acknowledge none s ∧ PerformsM s q 0x4C 7 ∧ fenced s 17 = false ∧
      s.store.cmd = none ∧ s.store.medium = 4) ∧
    (∃ (s w : State) (q : CbPar), w = acknowledge none s ∧ PerformsM s q 0x4C 7 ∧ fenced s 17 = false ∧
      s.store.cmd = none ∧ s.store.medium ≠ 4) ∧
    (∃ (s w : State) (q : CbPar), w = acknowledge none s ∧ PerformsM s q 0x4C 6 ∧ fenced s 17 = false ∧
      s.store.cmd.isSome = true) :=
  ⟨⟨(stored 256 (fun x => { x with medium := 1 })), _, (qW 0x4C 0x5C0001), .absent, rfl, accessM (by decide +kernel),
      by decide +kernel⟩,
   ⟨(stored 256 (fun x => { x with medium := 1 })), _, (qW 0x4C 0x5C0001), (.found (cart 2 [] [])), (cart 2 [] []),
       (geo 2), rfl, accessM (by decide +kernel), by decide +kernel⟩,
   ⟨(stored 256 id), _, (qW 0x4C 0x5C0001), rfl, accessM (by decide +kernel), by decide +kernel⟩,
   ⟨(stored 256 (fun x => { x with medium := 2 })), _, (qW 0x4C 0x5C0002), rfl, accessM (by decide +kernel),
       by decide +kernel⟩,
   ⟨(stored 256 id), _, (qW 0x4C 0x5C0002), rfl, accessM (by decide +kernel), by decide +kernel⟩,
   ⟨(stored 256 id), _, (qW 0x4C 83), 5, rfl, accessM (by decide +kernel), by decide +kernel⟩,
   ⟨mg, _, (qW 0x4C 83), 5, rfl, accessM (by decide +kernel), by decide +kernel⟩,
   ⟨(stored 256 (fun x => { x with otpKey := some [], otpLock := true })), _, (qW 0x4C 52), 3, rfl, accessM
       (by decide +kernel), by decide +kernel⟩,
   ⟨(setPw 0x400001 0 (stored 256 (fun x => { x with otpKey := some [], otpLock := true, beyond := true }))), _,
       (qW 0x4C 52), 3, rfl, accessM (by decide +kernel), by decide +kernel⟩,
   ⟨(stored 256 id), _, (qW 0x4C 52), 3, rfl, accessM (by decide +kernel), by decide +kernel⟩,
   ⟨(stored 256 id), _, (qW 0x4C 85), 5, rfl, accessM (by decide +kernel), by decide +kernel⟩,
   ⟨(stored 256 id), _, (qW 0x4C 6), rfl, accessM (by decide +kernel), by decide +kernel⟩,
   ⟨mg, _, (qW 0x4C 6), rfl, accessM (by decide +kernel), by decide +kernel⟩,
   ⟨(stored 256 (fun x => { x with medium := 4 })), _, (qW 0x4C 7), rfl, accessM (by decide +kernel),
       by decide +kernel⟩,
   ⟨(stored 256 id), _, (qW 0x4C 7), rfl, accessM (by decide +kernel), by decide +kernel⟩,
   ⟨(stored 256 (fun x => { x with cmd := some (6, 0, .absent) })), _, (qW 0x4C 6), rfl, accessM (by decide +kernel),
       by decide +kernel⟩⟩

theorem test_hyps_StoreCommandsEnd :
    (∃ s : State, s.tap = false ∧ s.store.cmd = none) ∧
    (∃ (s : State) (k : Nat) (d : Discovery), s.tap = false ∧ s.store.cmd = some (4, k, d)) ∧
    (∃ (s : State) (k : Nat) (d : Discovery), s.tap = false ∧ s.store.cmd = some (5, k, d)) ∧
    (∃ (s : State) (k : Nat) (d : Discovery), s.tap = false ∧ s.store.cmd = some (6, k, d)) ∧
    (∃ (s : State) (k : Nat) (d : Discovery), s.tap = false ∧ s.store.cmd = some (1, k, d) ∧ acceptCart d = none) ∧
    (∃ (s : State) (k : Nat) (d : Discovery), s.tap = false ∧ s.store.cmd = some (7, k, d) ∧ targetsOf d = 0) ∧
    (∃ (s : State) (k : Nat) (d : Discovery), s.tap = false ∧ s.store.cmd = some (7, k, d) ∧ targetsOf d ≠ 0 ∧
      acceptCart d = none) ∧
    (∃ (s : State) (k : Nat) (d : Discovery) (o : StoreOutcome) (c : Cartridge) (g : Geometry) (l : Option Label)
        (bs : List BlockState), ∃ z, bs = unmapBeyond (mappedBlocks s g) (formatErase s g
        (l.map fun m => loadJournal g c m s) c o.eraseFails) ∧
      s.tap = false ∧ s.store.cmd = some (1, k, d) ∧ acceptCart d = some (c, g) ∧
      l = chooseLabel (uniqueIdOf c) c.labels ∧ formatLayout g bs o.labelFails = .ok z) ∧
    (∃ (s : State) (k : Nat) (d : Discovery) (o : StoreOutcome) (c : Cartridge) (g : Geometry) (l : Option Label)
        (bs : List BlockState), ∃ e, bs = unmapBeyond (mappedBlocks s g) (formatErase s g
        (l.map fun m => loadJournal g c m s) c o.eraseFails) ∧
      formatLayout g bs o.labelFails = .error e ∧ s.tap = false ∧ s.store.cmd = some (1, k, d) ∧
      acceptCart d = some (c, g) ∧ l = chooseLabel (uniqueIdOf c) c.labels) ∧
    (∃ (s : State) (k : Nat) (d : Discovery), s.tap = false ∧ s.store.cmd = some (2, k, d) ∧ acceptCart d = none) ∧
    (∃ (s : State) (k : Nat) (d : Discovery), ∃ c g, s.tap = false ∧ s.store.cmd = some (2, k, d) ∧
      acceptCart d = some (c, g) ∧ chooseLabel (uniqueIdOf c) c.labels = none) ∧
    (∃ (s : State) (k : Nat) (d : Discovery) (o : StoreOutcome), ∃ c g l, s.store.cmd = some (2, k, d) ∧
      acceptCart d = some (c, g) ∧ chooseLabel (uniqueIdOf c) c.labels = some l ∧ s.tap = false ∧ o.labelFails = []) :=
  ⟨⟨up, by decide +kernel⟩,
   ⟨(stored 256 (fun x => { x with cmd := some (4, 3, .absent) })), 3, .absent, by decide +kernel⟩,
   ⟨(stored 256 (fun x => { x with cmd := some (5, 3, .absent), pages := [⟨3, 0, 0, false⟩] })), 3, .absent,
       by decide +kernel⟩,
   ⟨(stored 256 (fun x => { x with cmd := some (6, 3, .absent), pages := [⟨3, 0, 0, false⟩] })), 3, .absent,
       by decide +kernel⟩,
   ⟨(stored 256 (fun x => { x with cmd := some (1, 0, .absent) })), 0, .absent, by decide +kernel⟩,
   ⟨(stored 256 (fun x => { x with cmd := some (7, 0, .absent) })), 0, .absent, by decide +kernel⟩,
   ⟨(stored 256 (fun x => { x with cmd := some (7, 0, .found badCart) })), 0, (.found badCart), by decide +kernel⟩,
   ⟨(stored 256 (fun x => { x with cmd := some (1, 0, .found (cart 256 [] [])) })), 0, (.found (cart 256 [] [])), ⟨[],
       []⟩, (cart 256 [] []), (geo 256), none, _, ⟨List.range 7, [], (List.range 16).map (· + 7), 16⟩, rfl,
       by decide +kernel⟩,
   ⟨(stored 256 (fun x => { x with cmd := some (1, 0, .found (cart 16 [] [])) })), 0, (.found (cart 16 [] [])), ⟨[],
       []⟩, (cart 16 [] []), (geo 16), none, _, 9, rfl, rfl, by decide +kernel⟩,
   ⟨(stored 256 (fun x => { x with cmd := some (2, 0, .absent) })), 0, .absent, by decide +kernel⟩,
   ⟨(stored 256 (fun x => { x with cmd := some (2, 0, .found (cart 2 [] [])) })), 0, (.found (cart 2 [] [])),
       (cart 2 [] []), (geo 2), by decide +kernel⟩,
   ⟨(stored 256 (fun x => { x with cmd := some (2, 0, .found (cart 2 [labelBytes own] [])) })), 0, (.found
       (cart 2 [labelBytes own] [])), ⟨[], []⟩, (cart 2 [labelBytes own] []), (geo 2), own, rfl, rfl, own_read 2 [],
       by decide +kernel⟩⟩

theorem test_hyps_RecordsAreBuiltAndProgrammed :
    (∃ (s : State) (k : Fin 64) (id since : Nat) (g : Segment) (r : List Byte) (ts : Nat), (r, ts) = itemRecord s
        (.frame id since) g.records ∧
      s.tap = false ∧ s.store.medium = 3 ∧ (stream s k).state ≠ 3 ∧ fenced s 17 = false ∧
      (stream s k).wait = [.frame id since] ∧ openSeg s k = some g ∧ g.data.length + r.length ≤ imageLen s ∧
      0 < pageSize s ∧ pageSize s ≤ pageFill s k + waitingBytes s k) ∧
    (∃ (s : State) (k : Fin 64) (id since : Nat) (g : Segment) (r : List Byte) (ts : Nat), (r, ts) = itemRecord s
        (.frame id since) g.records ∧
      s.tap = false ∧ s.store.medium = 3 ∧ (stream s k).state ≠ 3 ∧ fenced s 17 = false ∧
      (stream s k).wait = [.frame id since] ∧ openSeg s k = some g ∧ g.data.length + r.length ≤ imageLen s ∧
      0 < pageSize s ∧ pageFill s k + waitingBytes s k < pageSize s ∧ storeRefs s < 8192) ∧
    (∃ (s : State) (k : Fin 64) (id since : Nat) (g : Segment) (r : List Byte) (ts : Nat), (r, ts) = itemRecord s
        (.frame id since) g.records ∧
      s.tap = false ∧ s.store.medium = 3 ∧ (stream s k).state ≠ 3 ∧ fenced s 17 = false ∧
      (stream s k).wait = [.frame id since] ∧ openSeg s k = some g ∧ g.data.length + r.length ≤ imageLen s ∧
      0 < pageSize s ∧ since + ms 10 ≤ s.clk ∧ pageFill s k + r.length < pageSize s ∧ g.data.length % 4 = 0 ∧
      pageSize s % 4 = 0) ∧
    (∃ (s : State) (k : Fin 64), s.tap = false ∧ oldestWait s k = none) ∧
    (∃ s : State, s.tap = false ∧ s.store.medium ≠ 3) ∧
    (∃ s : State, ∃ p, s.tap = false ∧ s.store.medium = 3 ∧ fenced s 17 = false ∧ nextPage s = some p) ∧
    (∃ s : State, s.tap = false ∧ s.store.medium = 3 ∧ fenced s 17 = false ∧ (∀ q ∈ s.store.pages, q.issued = true)) ∧
    (∃ (s : State) (p : Page), s.store.medium = 5 ∧ nextPage s = some p) ∧
    (∃ (s : State) (k : Fin 64) (p : Page), ∃ g b, s.tap = false ∧
      s.store.pages.find? (fun p => p.stream == k.val && p.issued) = some p ∧
      s.store.segs.find? (fun g => g.stream == p.stream && g.seq == p.seq) = some g ∧ storeHeld s = false ∧
      s.store.medium = 3 ∧ leastWorn s = some b ∧ g.block < s.store.blocks.length ∧ g.block ≠ b) ∧
    (∃ (s : State) (k : Fin 64) (since : Nat), s.tap = false ∧ (stream s k).dogAt = some since ∧
      (stream s k).state ≠ 0 ∧ s.store.medium = 3 ∧ unwritten s k = true ∧ since + ms (pn s 0x400002) ≤ s.clk) :=
  ⟨⟨(waiting3 16), 3, 5, 0, openOne, _, _, rfl, by decide +kernel⟩,
   ⟨(waiting3 256), 3, 5, 0, openOne, _, _, rfl, by decide +kernel⟩,
   ⟨(waiting3 256), 3, 5, 0, openOne, _, _, rfl, by decide +kernel⟩,
   ⟨(stored 256 id), 3, by decide +kernel⟩,
   ⟨up, by decide +kernel⟩,
   ⟨(stored 256 (fun x => { x with pages := [⟨3, 8, 0, true⟩, ⟨5, 9, 0, false⟩] })), ⟨5, 9, 0, false⟩,
       by decide +kernel⟩,
   ⟨(stored 256 (fun x => { x with pages := [⟨3, 8, 0, true⟩] })), by decide +kernel⟩,
   ⟨(stored 256 (fun x => { x with medium := 5, pages := [⟨3, 8, 0, true⟩, ⟨5, 7, 63, false⟩] })), ⟨5, 7, 63, false⟩,
       by decide +kernel⟩,
   ⟨(stored 256 (fun x => { x with pages := [⟨5, 7, 0, true⟩] })), 5, ⟨5, 7, 0, true⟩, ⟨5, 7, 2, true, 0, 0, (0, 0), (0,
       0), [], [], [], 0, true, true, some 9⟩, 0, by decide +kernel⟩,
   ⟨(setPw 0x400002 20 (stored 256 (fun x => { x with streams := [(5, { state := 1, dogAt := some 0, wait := [.frame 5 0] })] }))),
       5, 0, by decide +kernel⟩⟩

theorem test_hyps_EventLocksProtectAndExpire :
    (∃ (s : State) (k : Nat), (stream s k).window = none ∧ rowField s k 0 20 1 = 0 ∧ mayProtect s = false) ∧
    (∃ (s : State) (k : Nat), (stream s k).window = none ∧ (stream s k).state = 1 ∧ held s k = [] ∧
      (mayProtect s = true ∨ rowField s k 0 20 1 = 1)) ∧
    (∃ (s : State) (k : Nat), (stream s k).window = none ∧ (stream s k).state = 1 ∧ rowField s k 0 20 1 = 1 ∧
      ((held s k).map (·.seq)).Nodup) ∧
    (∃ s : State, s.tap = false ∧ fenced s 17 = true) ∧
    (∃ (s : State) (k : Fin 2), s.tap = false ∧ fenced s 17 = false ∧ (∀ j, j < 64 → rowField s j 1 (22 + k) 1 ≠ 1)) ∧
    (∃ (s : State) (k : Fin 2), ∃ i, s.tap = false ∧ fenced s 17 = false ∧ i < 64 ∧
      (∀ j, j < 64 → (rowField s j 1 (22 + k) 1 = 1 ↔ j = i))) ∧
    (∃ (s : State) (k : Fin 64), s.tap = false ∧ (stream s k).window = none) ∧
    (∃ (s : State) (k : Fin 64), ∃ a b, s.tap = false ∧ (stream s k).window = some (a, b)) ∧
    (∃ (s : State) (k : Fin 64) (days : Nat), s.tap = false ∧ days = rowField s k 3 0 16 ∧
      (days = 0 ∨ (∀ g ∈ held s k, g.prot = true → g.holdAt = none))) ∧
    (∃ (s : State) (k : Fin 64) (days : Nat) (e : Int), s.tap = false ∧ days = rowField s k 3 0 16 ∧ days ≠ 0 ∧
      (∃ g ∈ held s k, g.prot = true ∧ g.holdAt = some e) ∧
      (∀ g ∈ held s k, g.prot = true → ∀ x, g.holdAt = some x → e ≤ x)) :=
  ⟨⟨(setPw 0x400001 0 (stored 256 id)), 4, by decide +kernel⟩,
   ⟨(setPw 0x400001 100 (stored 256 (fun x => { x with streams := [(4, { state := 1 })] }))), 4, by decide +kernel⟩,
   ⟨(putRowWord 0x08 0 4 8 0 (2 ^ 20) (stored 256 (fun x => { x with streams := [(4, { state := 1 })] }))), 4,
       by decide +kernel⟩,
   ⟨{ up with fences := 2 ^ 17 }, by decide +kernel⟩,
   ⟨(stored 256 id), 1, by decide +kernel⟩,
   ⟨(putRowWord 0x08 0 9 8 1 (2 ^ 23) (stored 256 id)), 1, 9, by decide +kernel⟩,
   ⟨up, 63, by decide +kernel⟩,
   ⟨(stored 256 (fun x => { x with streams := [(5, { state := 1, window := some (0, 0) })] })), 5, 0, 0,
       by decide +kernel⟩,
   ⟨(stored 256 id), 5, 0, by decide +kernel⟩,
   ⟨(putRowWord 0x08 0 5 8 3 1 { stored 256 id with clk := 10 ^ 15 }), 5, 1, 9, by decide +kernel⟩⟩

theorem test_hyps_TheMediumIsMountedAndWatched :
    (∃ s : State, s.tap = false ∧ s.store.mountDue = false) ∧
    (∃ (s : State) (d : Discovery), s.tap = false ∧ s.store.mountDue = true ∧ fenced s 17 = false ∧
      s.safety.safe = false ∧ s.power.asleep = false ∧ s.power.resume = false ∧ targetsOf d = 0) ∧
    (∃ (s : State) (d : Discovery), s.tap = false ∧ s.store.mountDue = true ∧ fenced s 17 = false ∧
      s.safety.safe = false ∧ s.power.asleep = false ∧ s.power.resume = false ∧ targetsOf d ≠ 0 ∧ acceptCart d = none) ∧
    (∃ (s : State) (d : Discovery), ∃ c g, s.tap = false ∧ s.store.mountDue = true ∧ fenced s 17 = false ∧
      s.safety.safe = false ∧ s.power.asleep = false ∧ s.power.resume = false ∧ acceptCart d = some (c, g) ∧
      chooseLabel (uniqueIdOf c) c.labels = none) ∧
    (∃ (s : State) (d : Discovery), ∃ c g m, acceptCart d = some (c, g) ∧
      chooseLabel (uniqueIdOf c) c.labels = some m ∧ ownLabel m = false ∧ s.tap = false ∧ s.store.mountDue = true ∧
      fenced s 17 = false ∧ s.safety.safe = false ∧ s.power.asleep = false ∧ s.power.resume = false) ∧
    (∃ (s : State) (d : Discovery), ∃ c g m, acceptCart d = some (c, g) ∧
      chooseLabel (uniqueIdOf c) c.labels = some m ∧ ownLabel m = true ∧ s.tap = false ∧ s.store.mountDue = true ∧
      fenced s 17 = false ∧ s.safety.safe = false ∧ s.power.asleep = false ∧ s.power.resume = false) ∧
    (∃ s : State, s.tap = false ∧ (s.store.medium = 3 ∨ s.store.medium = 4 ∨ s.start.window = true)) ∧
    (∃ s : State, s.tap = false ∧ fenced s 17 = false ∧ s.start.window = false ∧ s.power.asleep = false ∧
      s.store.pollAt + ms 1000 ≤ s.clk ∧ s.store.medium = 0) ∧
    (∃ s : State, s.tap = false ∧ fenced s 17 = false ∧ s.start.window = false ∧ s.power.asleep = false ∧
      s.store.pollAt + ms 1000 ≤ s.clk ∧
      (s.store.medium = 1 ∨ s.store.medium = 2 ∨ s.store.medium = 5 ∨ s.store.medium = 6)) ∧
    (∃ s : State, s.tap = false ∧ storeReads s = true ∧ bitOf (pn s 0x420002) 0 = true ∧
      scanBlock s s.store.scanAt = none) ∧
    (∃ (s : State) (x y z : PageRead), ∃ b ps u got, ps = programmedPages s b ∧
      (u, got) = readPages ([ps.head?, ps[ps.length / 2]?, ps.getLast?].filterMap (Option.map fun i => (b, i))) [x, y,
          z] s ∧
      s.tap = false ∧ storeReads s = true ∧ bitOf (pn s 0x420002) 0 = true ∧ scanBlock s s.store.scanAt = some b) ∧
    (∃ (s : State) (k : Fin 4), s.tap = false ∧ targetInUse s k = true) ∧
    (∃ (s : State) (k : Fin 4), s.tap = false ∧ targetInUse s k = false) :=
  ⟨⟨up, by decide +kernel⟩,
   ⟨{ up with store := { up.store with mountDue := true } }, .absent, by decide +kernel⟩,
   ⟨{ up with store := { up.store with mountDue := true } }, (.found badCart), by decide +kernel⟩,
   ⟨{ up with store := { up.store with mountDue := true } }, (.found (cart 2 [] [])), (cart 2 [] []), (geo 2),
       by decide +kernel⟩,
   ⟨{ up with store := { up.store with mountDue := true } }, (.found (cart 2 [labelBytes foreign] [])),
       (cart 2 [labelBytes foreign] []), (geo 2), foreign, rfl, foreign_read 2 [], foreign_label, by decide +kernel⟩,
   ⟨{ up with store := { up.store with mountDue := true } }, (.found (cart 2 [labelBytes own] [])),
       (cart 2 [labelBytes own] []), (geo 2), own, rfl, own_read 2 [], own_label, by decide +kernel⟩,
   ⟨(stored 256 id), by decide +kernel⟩,
   ⟨up, by decide +kernel⟩,
   ⟨{ up with store := { up.store with medium := 5 } }, by decide +kernel⟩,
   ⟨(setPw 0x420002 1 (stored 256 (fun x => { x with scanAt := 3 }))), by decide +kernel⟩,
   ⟨(setPw 0x420002 1 (stored 256 id)), ⟨[]⟩, ⟨[]⟩, ⟨[]⟩, 2, _, _, _, rfl, rfl, by decide +kernel⟩,
   ⟨{ up with store := { up.store with mountDue := true } }, 3, by decide +kernel⟩,
   ⟨up, 3, by decide +kernel⟩⟩

theorem test_hyps_BlocksAreCaredFor :
    (∃ (s : State) (b : Nat), s.tap = false ∧
      (storeReads s = false ∨ wantsRefresh s b = false ∨ mayRefresh s b = false ∨ leastWorn s = none)) ∧
    (∃ (s : State) (b : Nat) (rs : List PageRead), ∃ f ps u got, ps = programmedPages s b ∧
      (u, got) = readPages (ps.map fun i => (b, i)) rs s ∧ s.tap = false ∧ storeReads s = true ∧
      wantsRefresh s b = true ∧ mayRefresh s b = true ∧ leastWorn s = some f) ∧
    (∃ (s : State) (a b : Nat) (rs : List PageRead) (ps : List Nat) (u : State) (got : Option (List Byte)), ps
        = programmedPages s a ∧
      (u, got) = readPages (ps.map fun i => (a, i)) rs s ∧ s.tap = false ∧ s.store.medium = 3 ∧ storeReads s = true ∧
      coldest s = some a ∧ mostWorn s = some b ∧ s.store.lastMove = none ∧
      (block s a).eraseCount + max 50 (pn s 0x410005 / 20) < (block s b).eraseCount) ∧
    (∃ (s : State) (b : Nat), s.tap = false ∧ b ∉ s.store.erasing) ∧
    (∃ (s : State) (b : Nat), s.tap = false ∧ b ∈ s.store.erasing ∧ b < s.store.blocks.length) ∧
    (∃ s : State, s.tap = false ∧ s.store.blocks = []) ∧
    (∃ s : State, s.tap = false ∧ s.power.asleep = true) ∧
    (∃ s : State, s.tap = false ∧ s.store.blocks ≠ [] ∧ s.power.asleep = false ∧
      poweredAt s ((s.store.days + 1) * 86400) ≤ s.clk) ∧
    (∃ s : State, s.tap = false ∧ storeReads s = false) ∧
    (∃ s : State, ∃ j, s.tap = false ∧ storeReads s = true ∧ s.store.blocks ≠ [] ∧
      poweredAt s ((s.store.hours + 1) * 3600) ≤ s.clk ∧ s.store.journal = some j) :=
  ⟨⟨up, 2, by decide +kernel⟩,
   ⟨(setPw 0x420001 0 (stored 256 id)), 2, [], 0, _, _, _, rfl, rfl, by decide +kernel⟩,
   ⟨(setPw 0x410005 20 (stored 256 id)), 2, 1, [], _, _, _, rfl, rfl, by decide +kernel⟩,
   ⟨up, 2, by decide +kernel⟩,
   ⟨(stored 256 (fun x => { x with erasing := [2] })), 2, by decide +kernel⟩,
   ⟨up, by decide +kernel⟩,
   ⟨{ up with power := { up.power with asleep := true } }, by decide +kernel⟩,
   ⟨(stored 256 (fun x => { x with powered := 86400 })), by decide +kernel⟩,
   ⟨up, by decide +kernel⟩,
   ⟨(stored 256 (fun x => { x with powered := 3600, journal := some ⟨⟨3, [], 0, 0, 2, 2, 0⟩, [], 3, [], [], []⟩ })),
       ⟨⟨3, [], 0, 0, 2, 2, 0⟩, [], 3, [], [], []⟩, by decide +kernel⟩⟩

theorem test_hyps_PairingCommandsAndSwitchoversAct :
    (∃ (s w : State) (q : CbPar), w = acknowledge none s ∧ PerformsM s q 0x44 1 ∧ s.pair.role = 0 ∧
      pairEnabled s = true ∧ pairingLost s = false ∧ 2 ≤ s.canopy.pairWays.length ∧ s.pair.link = false) ∧
    (∃ (s w : State) (q : CbPar), w = acknowledge none s ∧ PerformsM s q 0x44 1 ∧ s.pair.role = 0 ∧
      pairEnabled s = true ∧ pairingLost s = false ∧ s.canopy.pairWays.length < 2) ∧
    (∃ (s w : State) (q : CbPar), w = acknowledge none s ∧ PerformsM s q 0x44 1 ∧
      (s.pair.role ≠ 0 ∨ pairEnabled s = false)) ∧
    (∃ (s w : State) (q : CbPar), w = acknowledge none s ∧ PerformsM s q 0x44 2 ∧ s.pair.role = 1 ∧
      s.pair.partnerRole = 2 ∧ s.pair.synced = true ∧ s.pair.heartbeat = true ∧ s.pair.mirroring = true ∧
      s.pair.switching = 0) ∧
    (∃ (s w : State) (q : CbPar), w = acknowledge none s ∧ PerformsM s q 0x44 2 ∧
      (s.pair.role ≠ 1 ∨ s.pair.partnerRole ≠ 2 ∨ s.pair.synced = false ∨ s.pair.heartbeat = false)) ∧
    (∃ (s w : State) (q : CbPar), w = acknowledge none s ∧ PerformsM s q 0x44 3 ∧
      (s.pair.role = 0 ∨ leaveBarred s = true)) ∧
    (∃ (s w : State) (q : CbPar), ∃ p, w = acknowledge none s ∧ PerformsM s q 0x44 3 ∧
      (s.pair.role = 2 ∨ s.pair.role = 3) ∧ p < 32 ∧ bitOf (pn s (0x100000 + 256 * p)) 0 = true) ∧
    (∃ (s w : State) (q : CbPar), w = acknowledge none s ∧ PerformsM s q 0x44 3 ∧ s.pair.role = 1 ∧
      s.pair.heartbeat = false ∧ s.pair.switching = 0) ∧
    (∃ (s w : State) (q : CbPar), w = acknowledge none s ∧ PerformsM s q 0x44 4) ∧
    (∃ (s : State) (f : RideFrame), s.tap = false ∧ rideOpen s = true ∧ rideLegal 7 f = true ∧ s.pair.waiting = [] ∧
      f.hdr.seq.toNat = s.pair.ack ∧ byteAt f.payload 0 = 1 ∧ s.pair.role = 2 ∧ s.pair.inEpoch = none ∧
      bitOf (imageFlags s.pair.image) 2 = true) ∧
    (∃ (s : State) (f : RideFrame), s.tap = false ∧ rideOpen s = true ∧ rideLegal 7 f = true ∧ s.pair.waiting = [] ∧
      f.hdr.seq.toNat = s.pair.ack ∧ byteAt f.payload 0 = 1 ∧ s.pair.role = 2 ∧
      (s.pair.inEpoch.isSome = true ∨ bitOf (imageFlags s.pair.image) 2 = false)) ∧
    (∃ (s : State) (f : RideFrame), s.tap = false ∧ rideOpen s = true ∧ rideLegal 7 f = true ∧ s.pair.waiting = [] ∧
      f.hdr.seq.toNat = s.pair.ack ∧ byteAt f.payload 0 = 2 ∧ s.pair.role = 1 ∧ s.pair.switching = 2) ∧
    (∃ s : State, s.tap = false ∧ s.pair.switching ≠ 2) ∧
    (∃ s : State, s.tap = false ∧ s.pair.switching = 2 ∧ s.pair.switchAt + us (pn s 0x700003) ≤ s.clk) ∧
    (∃ (s : State) (f : RideFrame), s.tap = false ∧ rideOpen s = true ∧ rideLegal 8 f = true ∧ s.pair.waiting = [] ∧
      f.hdr.seq.toNat = s.pair.ack ∧ s.pair.role = 1) :=
  ⟨⟨(paired 0 (fun x => { x with link := false })), _, (qW 0x44 1), rfl, accessM (by decide +kernel),
      by decide +kernel⟩,
   ⟨{ paired 0 id with canopy := up.canopy }, _, (qW 0x44 1), rfl, accessM (by decide +kernel), by decide +kernel⟩,
   ⟨(paired 1 id), _, (qW 0x44 1), rfl, accessM (by decide +kernel), by decide +kernel⟩,
   ⟨(paired 1 (fun x => { x with partnerRole := 2, synced := true, heartbeat := true, mirroring := true })), _,
       (qW 0x44 2), rfl, accessM (by decide +kernel), by decide +kernel⟩,
   ⟨(paired 1 id), _, (qW 0x44 2), rfl, accessM (by decide +kernel), by decide +kernel⟩,
   ⟨(paired 1 (fun x => { x with heartbeat := true })), _, (qW 0x44 3), rfl, accessM (by decide +kernel),
       by decide +kernel⟩,
   ⟨(setPw 0x100000 1 (paired 2 id)), _, (qW 0x44 3), 0, rfl, accessM (by decide +kernel), by decide +kernel⟩,
   ⟨(paired 1 id), _, (qW 0x44 3), rfl, accessM (by decide +kernel), by decide +kernel⟩,
   ⟨(paired 1 (fun x => { x with alarm := true })), _, (qW 0x44 4), rfl, accessM (by decide +kernel)⟩,
   ⟨(paired 2 (fun x => { x with image := List.replicate 14 0 ++ [4, 0] })), (ride 7 0 [1, 0, 0, 0]),
       by decide +kernel⟩,
   ⟨(paired 2 (fun x => { x with inEpoch := some ⟨1, 16, 0, 0, none⟩ })), (ride 7 0 [1, 0, 0, 0]), by decide +kernel⟩,
   ⟨(paired 1 (fun x => { x with switching := 2 })), (ride 7 0 [2, 0, 0, 0]), by decide +kernel⟩,
   ⟨up, by decide +kernel⟩,
   ⟨(paired 1 (fun x => { x with switching := 2 })), by decide +kernel⟩,
   ⟨(paired 1 (fun x => { x with mirroring := true })), (ride 8 0 []), by decide +kernel⟩⟩

theorem test_hyps_RideFramesAreKeptInSequence :
    (∃ (s : State) (f : RideFrame), s.tap = false ∧ f.hdr.len < 65536 ∧ f.payload.length = f.hdr.len) ∧
    (∃ (s : State) (f : RideFrame), ∃ ty c, s.tap = false ∧
      (ty, c) ∈ [(3, Instr.dataFrame f false), (3, .dataFrame f true), (4, .commitFrame ⟨f, false⟩), (4,
          .commitFrame ⟨f, true⟩), (7, .switchRequest f), (7, .switchDone f), (8, .leaveFrame f)] ∧
      rideOpen s = false) ∧
    (∃ (s : State) (f : RideFrame), ∃ ty c, s.tap = false ∧
      (ty, c) ∈ [(3, Instr.dataFrame f false), (3, .dataFrame f true), (4, .commitFrame ⟨f, false⟩), (4,
          .commitFrame ⟨f, true⟩), (7, .switchRequest f), (7, .switchDone f), (8, .leaveFrame f)] ∧
      rideOpen s = true ∧ rideLegal ty f = false) ∧
    (∃ (s : State) (f : RideFrame), ∃ ty c, s.tap = false ∧
      (ty, c) ∈ [(3, Instr.dataFrame f false), (3, .dataFrame f true), (4, .commitFrame ⟨f, false⟩), (4,
          .commitFrame ⟨f, true⟩), (7, .switchRequest f), (7, .switchDone f), (8, .leaveFrame f)] ∧
      rideOpen s = true ∧ rideLegal ty f = true ∧ f.hdr.seq.toNat ≠ s.pair.ack) ∧
    (∃ (s : State) (f : RideFrame), ∃ ty c, s.tap = false ∧
      (ty, c) ∈ [(1, Instr.helloFrame f), (2, .heartbeatFrame f), (5, .ackFrame f), (6, .nakFrame f)] ∧
      rideOpen s = false) ∧
    (∃ (s : State) (f : RideFrame), ∃ ty c, s.tap = false ∧
      (ty, c) ∈ [(1, Instr.helloFrame f), (2, .heartbeatFrame f), (5, .ackFrame f), (6, .nakFrame f)] ∧
      rideOpen s = true ∧ rideLegal ty f = false) ∧
    (∃ s : State, s.tap = false ∧ rideOpen s = true ∧ s.pair.naked = true) ∧
    (∃ s : State, s.tap = false ∧ rideOpen s = true ∧ s.pair.naked = false) ∧
    (∃ (s u : State) (f : RideFrame), u = rideFields f s ∧ s.tap = false ∧ rideOpen s = true ∧ rideLegal 5 f = true) ∧
    (∃ (s u : State) (f : RideFrame), u = rideFields f s ∧ s.tap = false ∧ rideOpen s = true ∧ rideLegal 6 f = true ∧
      (∀ o ∈ u.pair.unacked, o.count < 5 ∧ s.clk ≤ o.first + us 500)) ∧
    (∃ (s u : State) (f : RideFrame), u = rideFields f s ∧ s.tap = false ∧ rideOpen s = true ∧ rideLegal 6 f = true ∧
      (∃ o ∈ u.pair.unacked, 5 ≤ o.count ∨ o.first + us 500 < s.clk)) ∧
    (∃ s : State, s.tap = false ∧ s.pair.unacked = []) ∧
    (∃ (s u : State) (o : RideOut) (rest : List RideOut), u = waitUntil (o.last + us 100) s ∧ s.tap = false ∧
      rideOpen s = true ∧ s.pair.unacked = o :: rest ∧ (∀ x ∈ o :: rest, x.count < 5 ∧ u.clk ≤ x.first + us 500)) ∧
    (∃ (s u : State) (o : RideOut) (rest : List RideOut), u = waitUntil (o.last + us 100) s ∧ s.tap = false ∧
      rideOpen s = true ∧ s.pair.unacked = o :: rest ∧ (∃ x ∈ o :: rest, 5 ≤ x.count ∨ x.first + us 500 < u.clk)) ∧
    (∃ s : State, s.pair.link = true) :=
  ⟨⟨up, (ride 3 0 firstBurst), by decide +kernel⟩,
   ⟨up, (ride 3 0 []), 3, (.dataFrame (ride 3 0 []) true), by decide +kernel⟩,
   ⟨(paired 1 id), (ride 2 0 []), 3, (.dataFrame (ride 2 0 []) false), by decide +kernel⟩,
   ⟨(paired 1 (fun x => { x with ack := 7 })), (ride 3 0 firstBurst), 3, (.dataFrame (ride 3 0 firstBurst) false),
       by decide +kernel⟩,
   ⟨up, (ride 6 0 []), 6, (.nakFrame (ride 6 0 [])), by decide +kernel⟩,
   ⟨(paired 1 id), (ride 6 0 []), 5, (.ackFrame (ride 6 0 [])), by decide +kernel⟩,
   ⟨(paired 1 (fun x => { x with naked := true })), by decide +kernel⟩,
   ⟨(paired 1 id), by decide +kernel⟩,
   ⟨(paired 1 (fun x => { x with unacked := [outFrame 65535 1 0, outFrame 0 1 0] })), _, (ride 5 0 []), rfl,
       by decide +kernel⟩,
   ⟨(paired 1 (fun x => { x with unacked := [outFrame 65535 1 up.clk, outFrame 0 1 up.clk] })), _, (ride 6 0 []), rfl,
       by decide +kernel⟩,
   ⟨(paired 1 (fun x => { x with unacked := [outFrame 65535 5 up.clk, outFrame 0 5 up.clk] })), _, (ride 6 0 []), rfl,
       by decide +kernel⟩,
   ⟨up, by decide +kernel⟩,
   ⟨(paired 1 (fun x => { x with unacked := [outFrame 0 1 (up.clk - 60000)] })), _, (outFrame 0 1 (up.clk - 60000)), [],
       rfl, by decide +kernel⟩,
   ⟨(paired 1 (fun x => { x with unacked := [outFrame 0 5 (up.clk - 60000)] })), _, (outFrame 0 5 (up.clk - 60000)), [],
       rfl, by decide +kernel⟩,
   ⟨(paired 1 id), by decide +kernel⟩⟩

theorem test_hyps_PairsJoinAndResolveRoles :
    (∃ s : State, s.tap = false ∧ s.pair.link = false ∧ pairEnabled s = true ∧ s.pair.started = true ∧
      pairingLost s = false ∧ s.safety.safe = false) ∧
    (∃ s : State, s.tap = false ∧ (s.pair.link = true ∨ pairEnabled s = false)) ∧
    (∃ s : State, s.tap = false ∧ s.pair.link = true ∧ s.pair.inEpoch.isSome = true) ∧
    (∃ s : State, s.tap = false ∧ rideOpen s = true ∧ s.pair.hello = false ∧ s.pair.started = true ∧
      s.pair.helloSent + us 100 ≤ s.clk) ∧
    (∃ s : State, s.tap = false ∧ s.pair.hello = true) ∧
    (∃ (s : State) (f : RideFrame) (serving start : Bool) (uid : Nat), s.tap = false ∧ rideOpen s = true ∧
      rideLegal 1 f = true ∧ s.pair.waiting = [] ∧ s.pair.hello = false ∧ s.pair.started = true ∧
      uid = leNat (f.payload.take 6) ∧ start = bitOf (byteAt f.payload 9) 0 ∧ serving = bitOf (byteAt f.payload 9) 1 ∧
      slice f.payload 7 2 ≠ [0, 1]) ∧
    (∃ (s : State) (f : RideFrame) (serving start : Bool) (uid : Nat), s.tap = false ∧ rideOpen s = true ∧
      rideLegal 1 f = true ∧ s.pair.waiting = [] ∧ s.pair.hello = false ∧ s.pair.started = true ∧
      uid = leNat (f.payload.take 6) ∧ start = bitOf (byteAt f.payload 9) 0 ∧ serving = bitOf (byteAt f.payload 9) 1 ∧
      slice f.payload 7 2 = [0, 1] ∧ winsOver s serving start f.hdr.priority.toNat uid = true ∧ serving = true ∧
      s.pair.role = 1) ∧
    (∃ (s : State) (f : RideFrame) (serving start : Bool) (uid : Nat), s.tap = false ∧ rideOpen s = true ∧
      rideLegal 1 f = true ∧ s.pair.waiting = [] ∧ s.pair.hello = false ∧ s.pair.started = true ∧
      uid = leNat (f.payload.take 6) ∧ start = bitOf (byteAt f.payload 9) 0 ∧ serving = bitOf (byteAt f.payload 9) 1 ∧
      slice f.payload 7 2 = [0, 1] ∧ winsOver s serving start f.hdr.priority.toNat uid = false ∧ s.pair.role = 0) ∧
    (∃ (s : State) (f : RideFrame) (serving start : Bool) (uid : Nat), s.tap = false ∧ rideOpen s = true ∧
      rideLegal 1 f = true ∧ s.pair.waiting = [] ∧ s.pair.hello = false ∧ s.pair.started = true ∧
      uid = leNat (f.payload.take 6) ∧ start = bitOf (byteAt f.payload 9) 0 ∧ serving = bitOf (byteAt f.payload 9) 1 ∧
      slice f.payload 7 2 = [0, 1] ∧ winsOver s serving start f.hdr.priority.toNat uid = false ∧ s.pair.role = 1) :=
  ⟨⟨(paired 0 (fun x => { x with link := false })), by decide +kernel⟩,
   ⟨up, by decide +kernel⟩,
   ⟨(paired 1 (fun x => { x with inEpoch := some ⟨1, 800, 0, 0, none⟩ })), by decide +kernel⟩,
   ⟨(paired 1 (fun x => { x with hello := false })), by decide +kernel⟩,
   ⟨(paired 1 id), by decide +kernel⟩,
   ⟨(paired 1 (fun x => { x with hello := false })), (ride 1 0 (leBytes 6 9 ++ List.replicate 10 0)), false, false, 9,
       by decide +kernel⟩,
   ⟨(setPw 0x700000 3 (paired 1 (fun x => { x with hello := false }))), (ride 1 0 (leBytes 6 9 ++ leBytes 3 0x010000
       ++ [2] ++ List.replicate 6 0)), true, false, 9, by decide +kernel⟩,
   ⟨(paired 0 (fun x => { x with hello := false })), (ride 1 0 (leBytes 6 9 ++ leBytes 3 0x010000 ++ [2]
       ++ List.replicate 6 0)), true, false, 9, by decide +kernel⟩,
   ⟨(paired 1 (fun x => { x with hello := false })), (ride 1 0 (leBytes 6 9 ++ leBytes 3 0x010000 ++ [3]
       ++ List.replicate 6 0)), true, true, 9, by decide +kernel⟩⟩

theorem test_hyps_HeartbeatsAndTakeovers :
    (∃ s : State, s.tap = false ∧ (s.pair.role = 0 ∨ rideOpen s = false)) ∧
    (∃ s : State, s.tap = false ∧ s.pair.role ≠ 0 ∧ rideOpen s = true ∧ s.pair.heartSent + us 100 ≤ s.clk) ∧
    (∃ (s : State) (f : RideFrame), s.tap = false ∧ rideOpen s = true ∧ rideLegal 2 f = true ∧ s.pair.waiting = [] ∧
      s.pair.role = 3) ∧
    (∃ (s : State) (f : RideFrame), s.tap = false ∧ rideOpen s = true ∧ rideLegal 2 f = true ∧ s.pair.waiting = [] ∧
      s.pair.role ≠ 3) ∧
    (∃ (s : State) (f : RideFrame), s.tap = false ∧ rideOpen s = true ∧ rideLegal 2 f = true ∧ s.pair.waiting = [] ∧
      s.pair.role = 1 ∧ s.pair.heartbeat = false) ∧
    (∃ (s : State) (f : RideFrame) (x : Int), s.tap = false ∧ rideOpen s = true ∧ rideLegal 2 f = true ∧
      s.pair.waiting = [] ∧
      x = ((s.time.dev : Int) - fieldTime f.payload - ((fieldTime (f.payload.drop 24) : Int) - fieldTime
          (f.payload.drop 12))) / 2 ∧
      s.pair.role = 2 ∧ f.hdr.role = 1 ∧ fieldTime (f.payload.drop 12) ≠ 0 ∧ x.natAbs < 65536000) ∧
    (∃ (s : State) (f : RideFrame) (x : Int), s.tap = false ∧ rideOpen s = true ∧ rideLegal 2 f = true ∧
      s.pair.waiting = [] ∧
      x = ((s.time.dev : Int) - fieldTime f.payload - ((fieldTime (f.payload.drop 24) : Int) - fieldTime
          (f.payload.drop 12))) / 2 ∧
      s.pair.role = 2 ∧ f.hdr.role = 1 ∧ fieldTime (f.payload.drop 12) ≠ 0 ∧ 65536000 ≤ x.natAbs) ∧
    (∃ s : State, s.tap = false ∧ s.pair.heartbeat = true ∧ s.pair.heartAt + ms 3 ≤ s.clk ∧ s.pair.role = 2) ∧
    (∃ s : State, s.tap = false ∧ s.pair.heartbeat = true ∧ s.pair.heartAt + ms 3 ≤ s.clk ∧ s.pair.role = 1) ∧
    (∃ (s : State) (since : Nat), s.tap = false ∧ s.pair.witness = some since ∧ since + ms 5 ≤ s.clk ∧
      s.pair.role = 2 ∧ s.pair.synced = true) ∧
    (∃ (s : State) (since : Nat), s.tap = false ∧ s.pair.witness = some since ∧ since + ms 5 ≤ s.clk ∧
      s.pair.role = 2 ∧ s.pair.synced = false) ∧
    (∃ s : State, s.tap = false ∧ s.pair.witness = none) ∧
    (∃ s : State, s.tap = false ∧ s.pair.role = 3 ∧ s.pair.roleAt + ms 5 ≤ s.clk ∧ s.pair.heartAt + ms 5 ≤ s.clk ∧
      s.pair.beaconAt + ms 5 ≤ s.clk ∧ s.pair.synced = true) ∧
    (∃ s : State, s.tap = false ∧ s.pair.role = 3 ∧ s.pair.roleAt + ms 5 ≤ s.clk ∧ s.pair.heartAt + ms 5 ≤ s.clk ∧
      s.pair.beaconAt + ms 5 ≤ s.clk ∧ s.pair.synced = false) :=
  ⟨⟨up, by decide +kernel⟩,
   ⟨(paired 2 id), by decide +kernel⟩,
   ⟨(paired 3 id), (ride 2 0 (List.replicate 12 0 ++ timeField 65536 ++ List.replicate 12 0)), by decide +kernel⟩,
   ⟨(paired 2 id), (ride 2 0 (List.replicate 12 0 ++ timeField 65536 ++ List.replicate 12 0)), by decide +kernel⟩,
   ⟨(paired 1 id), (ride 2 0 (List.replicate 12 0 ++ timeField 65536 ++ List.replicate 12 0)), by decide +kernel⟩,
   ⟨(paired 2 id), (ride 2 0 (List.replicate 12 0 ++ timeField 65536 ++ List.replicate 12 0)), 32768,
       by decide +kernel⟩,
   ⟨{ paired 2 id with time := { pll := true, dev := 131072000 } }, (ride 2 0 (List.replicate 12 0 ++ timeField 65536
       ++ List.replicate 12 0)), 65568768, by decide +kernel⟩,
   ⟨(paired 2 (fun x => { x with heartbeat := true })), by decide +kernel⟩,
   ⟨(paired 1 (fun x => { x with heartbeat := true })), by decide +kernel⟩,
   ⟨(paired 2 (fun x => { x with witness := some 0, synced := true })), 0, by decide +kernel⟩,
   ⟨(paired 2 (fun x => { x with witness := some 0 })), 0, by decide +kernel⟩,
   ⟨up, by decide +kernel⟩,
   ⟨(paired 3 (fun x => { x with synced := true })), by decide +kernel⟩,
   ⟨(paired 3 id), by decide +kernel⟩⟩

theorem test_hyps_EpochsAreSentAndCommitted :
    (∃ s : State, s.tap = false ∧ s.pair.role ≠ 1) ∧
    (∃ s : State, s.tap = false ∧ s.pair.role = 1 ∧ pairingLost s = false ∧ s.safety.safe = false ∧
      s.pair.boundaryAt + ms 1 ≤ s.clk ∧ (stagingWay s = none ∨ s.pair.mirroring = false ∨ rideOpen s = false)) ∧
    (∃ s : State, ∃ k, s.tap = false ∧ s.pair.role = 1 ∧ pairingLost s = false ∧ s.safety.safe = false ∧
      s.pair.boundaryAt + ms 1 ≤ s.clk ∧ stagingWay s = some k ∧ s.pair.mirroring = true ∧ rideOpen s = true) ∧
    (∃ (s : State) (n : Nat) (io : BurstIo), s.tap = false ∧ pairEnabled s = true ∧ io.hit = .none ∧
      chosen s 6 = true ∧ (chan s 6).busy = true ∧ (chan s 6).moved = false ∧ (chan s 6).ending = none ∧
      (chan s 6).yielded = false ∧ rideCredit s = true ∧ s.pair.waiting = [] ∧ s.pair.out ≠ [] ∧
      n = min 4096 (16 * (chan s 6).count)) ∧
    (∃ (s : State) (o : EpochOut), s.tap = false ∧ pairEnabled s = true ∧ (chan s 6).busy = true ∧
      (chan s 6).moved = true ∧ s.pair.out = [o] ∧ s.pair.waiting = [] ∧ s.pair.unacked = [] ∧
      bitOf o.flags 2 = false ∧ rideCredit s = true) ∧
    (∃ (s : State) (f : RideFrame) (bs : List Byte), bs = f.payload.drop 8 ∧ s.tap = false ∧ rideOpen s = true ∧
      rideLegal 3 f = true ∧ s.pair.waiting = [] ∧ f.hdr.seq.toNat = s.pair.ack ∧ s.pair.role < 2) ∧
    (∃ (s : State) (f : RideFrame) (bs : List Byte), bs = f.payload.drop 8 ∧ s.tap = false ∧ rideOpen s = true ∧
      rideLegal 3 f = true ∧ s.pair.waiting = [] ∧ f.hdr.seq.toNat = s.pair.ack ∧ standbyRole s = true ∧
      s.pair.inEpoch = none ∧ s.pair.image = [] ∧ 2 ≤ s.canopy.pairWays.length ∧ s.pair.buffers = [] ∧
      leNat (f.payload.take 4) = 0 ∧ byteAt bs 0 = 0x45 ∧ 800 ≤ leNat (slice bs 8 4) ∧ leNat (slice bs 8 4) ≤ 65536 ∧
      leNat (slice bs 8 4) % 16 = 0) ∧
    (∃ (s : State) (f : RideFrame) (bs : List Byte), bs = f.payload.drop 8 ∧ s.tap = false ∧ rideOpen s = true ∧
      rideLegal 3 f = true ∧ s.pair.waiting = [] ∧ f.hdr.seq.toNat = s.pair.ack ∧ standbyRole s = true ∧
      epochClosing s = true ∧ inProgress s f.hdr.epoch.toNat = false ∧ s.pair.buffers = []) ∧
    (∃ (s : State) (f : RideFrame) (e : EpochIn) (image : List Byte), image = cellsRead 0 s.scratch
        (65536 * s.canopy.pairWays.getD e.bank 0) e.len ∧
      s.tap = false ∧ rideOpen s = true ∧ rideLegal 4 f = true ∧ s.pair.waiting = [] ∧ f.hdr.seq.toNat = s.pair.ack ∧
      s.pair.inEpoch = some e ∧ e.epoch = f.hdr.epoch.toNat ∧ (chan s 7).busy = false ∧ s.pair.switchAsked = false ∧
      leNat (f.payload.take 4) = e.len ∧ (chan s 7).done = true ∧ (chan s 7).err = 0 ∧
      leNat (slice f.payload 4 4) = crc32 image ∧ leNat (slice image 12 2) = 0 ∧ s.pair.buffers = []) ∧
    (∃ (s : State) (f : RideFrame) (e : EpochIn) (image : List Byte), image = cellsRead 0 s.scratch
        (65536 * s.canopy.pairWays.getD e.bank 0) e.len ∧
      s.tap = false ∧ rideOpen s = true ∧ rideLegal 4 f = true ∧ s.pair.waiting = [] ∧ f.hdr.seq.toNat = s.pair.ack ∧
      s.pair.inEpoch = some e ∧ e.epoch = f.hdr.epoch.toNat ∧ (chan s 7).busy = false ∧ s.pair.switchAsked = false ∧
      leNat (f.payload.take 4) = e.len ∧ (chan s 7).done = true ∧ (chan s 7).err = 0 ∧
      leNat (slice f.payload 4 4) = crc32 image ∧ leNat (slice image 12 2) = 0 ∧ bitOf (imageFlags image) 1 = true ∧
      bitOf (imageFlags image) 3 = false) ∧
    (∃ (s : State) (f : RideFrame) (e : EpochIn) (image : List Byte), image = cellsRead 0 s.scratch
        (65536 * s.canopy.pairWays.getD e.bank 0) e.len ∧
      s.tap = false ∧ rideOpen s = true ∧ rideLegal 4 f = true ∧ s.pair.waiting = [] ∧ f.hdr.seq.toNat = s.pair.ack ∧
      s.pair.inEpoch = some e ∧ e.epoch = f.hdr.epoch.toNat ∧ (chan s 7).busy = false ∧ s.pair.switchAsked = false ∧
      leNat (slice f.payload 4 4) ≠ crc32 image ∧ s.pair.buffers = []) ∧
    (∃ (s : State) (e : EpochIn), s.tap = false ∧ s.pair.inEpoch = some e ∧ e.commit.isSome = true) ∧
    (∃ (s : State) (e : EpochIn), s.tap = false ∧ s.pair.inEpoch = some e ∧ e.commit = none ∧
      e.since + us (pn s 0x700003) ≤ s.clk ∧ s.pair.buffers = []) :=
  ⟨⟨up, by decide +kernel⟩,
   ⟨(paired 1 (fun x => { x with mirroring := true, out := [⟨1, 0, 0, 800⟩, ⟨2, 0, 1, 800⟩] })), by decide +kernel⟩,
   ⟨(paired 1 (fun x => { x with mirroring := true })), 0, by decide +kernel⟩,
   ⟨{ paired 1 (fun x => { x with out := [⟨1, 0, 0, 800⟩] }) with chans := [(6, { busy := true, count := 8 })] }, 128,
       quietIo, by decide +kernel⟩,
   ⟨{ paired 1 (fun x => { x with out := [⟨1, 0, 0, 32⟩] }) with chans := [(6, { busy := true, moved := true })] }, ⟨1,
       0, 0, 32⟩, by decide +kernel⟩,
   ⟨(paired 1 id), (ride 3 1 firstBurst), _, rfl, by decide +kernel⟩,
   ⟨(paired 2 id), (ride 3 1 firstBurst), _, rfl, by decide +kernel⟩,
   ⟨{ paired 2 (fun x => { x with inEpoch := some ⟨1, 800, 0, 0, some (800, 0)⟩ }) with chans := [(7, { busy := true, moved := true })] },
       (ride 3 2 firstBurst), _, rfl, by decide +kernel⟩,
   ⟨{ paired 2 (fun x => { x with inEpoch := some ⟨1, 16, 0, 0, none⟩ }) with chans := [(7, { done := true })], scratch := [(14, 2)] },
       (ride 4 1 (leBytes 4 16 ++ leBytes 4 (crc32 ((List.replicate 16 0).set 14 2)))), ⟨1, 16, 0, 0, none⟩, _, rfl,
       by decide +kernel⟩,
   ⟨{ paired 2 (fun x => { x with inEpoch := some ⟨1, 16, 0, 0, none⟩ }) with chans := [(7, { done := true })], scratch := [(14, 2)] },
       (ride 4 1 (leBytes 4 16 ++ leBytes 4 (crc32 ((List.replicate 16 0).set 14 2)))), ⟨1, 16, 0, 0, none⟩, _, rfl,
       by decide +kernel⟩,
   ⟨(paired 2 (fun x => { x with inEpoch := some ⟨1, 16, 0, 0, none⟩ })), (ride 4 1 (leBytes 4 16 ++ leBytes 4 0)), ⟨1,
       16, 0, 0, none⟩, _, rfl, by decide +kernel⟩,
   ⟨(paired 2 (fun x => { x with inEpoch := some ⟨1, 16, 0, 0, some (16, 0)⟩ })), ⟨1, 16, 0, 0, some (16, 0)⟩,
       by decide +kernel⟩,
   ⟨(paired 2 (fun x => { x with inEpoch := some ⟨1, 16, 0, 0, none⟩ })), ⟨1, 16, 0, 0, none⟩, by decide +kernel⟩⟩

theorem test_hyps_StepRunsTheFrontCommand :
    (∃ (s : State) (c : Instr) (rest : List Instr), s.pending = c :: rest) ∧
    (∃ s : State, s.pending = []) :=
  ⟨⟨{ up with pending := [.cbJam] }, .cbJam, [], by decide +kernel⟩,
   ⟨up, by decide +kernel⟩⟩

theorem test_hyps_ResetGivesTheRegistersOfTheMWindow :
    ∃ off, off < 256 ∧ off ≠ 0x3E ∧ off ≠ 0x3F :=
  ⟨0x3D, by decide +kernel⟩

theorem test_hyps_EveryStepKeepsTheStateSound :
    ∃ s t : State, Sound s ∧ step s = .next t :=
  ⟨{ State.reset with pending := [.cbJam] }, (outOf (step { State.reset with pending := [.cbJam] })), ⟨by decide,
      by decide, by decide, fun _ h => nomatch h⟩, rfl⟩

theorem test_hyps_TheRecordKeyIsPermanent :
    (∃ s t : State, ∃ k, step s = .next t ∧ s.store.otpKey = some k) ∧
    (∃ s t : State, step s = .next t ∧ s.store.otpLock = true) :=
  ⟨⟨{ State.reset with store := { State.reset.store with otpKey := some [1], otpLock := true } }, (outOf
      (step { State.reset with store := { State.reset.store with otpKey := some [1], otpLock := true } })), [1], rfl,
      by decide +kernel⟩,
   ⟨{ State.reset with store := { State.reset.store with otpKey := some [1], otpLock := true } }, (outOf
       (step { State.reset with store := { State.reset.store with otpKey := some [1], otpLock := true } })), rfl,
       by decide +kernel⟩⟩

theorem test_hyps_CommandsKeepWhatTheirFootprintLeavesOut :
    ∃ (c : Instr) (s t : State), exec c s = .next t :=
  ⟨.cbJam, State.reset, (outOf (exec .cbJam State.reset)), rfl⟩

theorem test_hyps_ATapInstructionStopsTheCommands :
    (∃ (s : State) (c : Instr), (∀ n, c ≠ .resetNAssert n) ∧ (∀ b, c ≠ .resetNRelease b) ∧
      (∀ b, c ≠ .internalResetRelease b) ∧ (∀ i b, c ≠ .tapInstructionLoad i b) ∧ s.tap = true ∧ c ≠ .supplyLoss ∧
      c ≠ .powerOn ∧ c ≠ .safetyReset) ∧
    (∃ s : State, ∃ n, s.tap = true ∧ 10000 ≤ n ∧ s.start.powered = true ∧ s.start.resetLow = false) :=
  ⟨⟨{ up with tap := true }, .cbJam, (by intro _ h; cases h), (by intro _ h; cases h), (by intro _ h; cases h),
      (by intro _ _ h; cases h), by decide +kernel⟩,
   ⟨{ up with tap := true }, 10000, by decide +kernel⟩⟩

theorem test_hyps_ChannelDataGoesToItsDestinationAlone :
    (∃ (s : State) (c : Fin 16) (n a0 : Nat) (bytes : List Byte), ∃ d, s.tap = false ∧
      (chan s c).reads = [(.data n, a0)] ∧ bytes.length = n ∧ (chan s c).ending = none ∧ (chan s c).piece = none ∧
      (chan s c).pieces = [] ∧ (chan s c).moved = false ∧ n / 16 < (chan s c).count ∧ chanPause (chan s c) = false ∧
      (chan s c).yielded = false ∧ (chan s c).busy = true ∧ Memory.wf 0 s.scratch = true ∧ dstSpace (chan s c) = 2 ∧
      scratchOpen s c (chan s c).dst n = true ∧ d ≠ c.val) ∧
    (∃ (s : State) (c : Fin 16) (n a0 : Nat) (bytes : List Byte), s.tap = false ∧ (chan s c).reads = [(.data n, a0)] ∧
      bytes.length = n ∧ (chan s c).ending = none ∧ (chan s c).piece = none ∧ (chan s c).pieces = [] ∧
      (chan s c).moved = false ∧ n / 16 < (chan s c).count ∧ chanPause (chan s c) = false ∧
      (chan s c).yielded = false ∧ (chan s c).busy = true ∧ Memory.wf 0 s.scratch = true ∧ dstSpace (chan s c) = 0 ∧
      canIssue s (chanHost s c) = true) :=
  ⟨⟨{ up with chans := [(3, { busy := true, count := 8, dst := 0x10010, ctl := 2 ^ 19, reads := [(.data 32, 0)] })], canopy := { up.canopy with ways := 2 } },
      3, 32, 0, (List.replicate 32 7), 15, by decide +kernel⟩,
   ⟨{ inService 0 up with chans := [(3, { busy := true, count := 8, dst := 0x10010, reads := [(.data 32, 0)] })] }, 3,
       32, 0, (List.replicate 32 7), by decide +kernel⟩⟩

/-! ### Well-formedness refuses -/

theorem test_wf_bar0_empty : (Instr.registerWrite (.bar0 0 true 0 [])).wf = false := by decide

theorem test_wf_bar0_beyond : (Instr.registerWrite (.bar0 0 true 4096 [(0, 15)])).wf = false := by decide

theorem test_wf_bar0_good : (Instr.registerWrite (.bar0 0 true 4095 [(0, 15)])).wf = true := by decide

theorem test_wf_descriptor_part : (Instr.descriptorReadEnd 0 0 (.data [1])).wf = false := by decide

theorem test_wf_closing_with_data : (Instr.canopyOpEnd 0 (.data [1])).wf = false := by decide

theorem test_wf_push_with_data : (Instr.faultRecordPushEnd 0 (.data [1])).wf = false := by decide

theorem test_wf_delivery_ecc : (Instr.rxDelivery 0 0 .rxStage).wf = false := by decide

theorem test_wf_copy_ecc : (Instr.egressCopy 0 .egressStage).wf = false := by decide

theorem test_wf_launch_ecc : (Instr.egressLaunch 0 .glade).wf = false := by decide

theorem test_wf_page_ecc : (Instr.pageBuild 0 .rxStage).wf = false := by decide

theorem test_wf_thicket_ecc : (Instr.thicketResolve (.thicketRow 4 0 2048)).wf = false := by decide

theorem test_wf_thicket_row : (Instr.thicketResolve (.thicketRow 4 0 2047)).wf = true := by decide

theorem test_wf_hello_type : (Instr.helloFrame (ride 2 0 [])).wf = false := by decide

theorem test_wf_heartbeat_type : (Instr.heartbeatFrame (ride 1 0 [])).wf = false := by decide

theorem test_wf_data_len : (Instr.dataFrame { ride 3 0 [] with payload := [1] } false).wf = false := by decide

theorem test_wf_commit_type : (Instr.commitFrame ⟨ride 3 0 [], false⟩).wf = false := by decide

theorem test_wf_ack_type : (Instr.ackFrame (ride 6 0 [])).wf = false := by decide

theorem test_wf_nak_type : (Instr.nakFrame (ride 5 0 [])).wf = false := by decide

theorem test_wf_switch_type : (Instr.switchRequest (ride 8 0 [])).wf = false ∧ (Instr.switchDone (ride 8 0 [])).wf = false := by
  decide

theorem test_wf_leave_type : (Instr.leaveFrame (ride 7 0 [])).wf = false := by decide

theorem test_wf_eight_readings :
    (Instr.thermalSample []).wf = false ∧ (Instr.thermalSample (List.replicate 8 40)).wf = true := by decide

theorem test_wf_one_monitor : (Instr.hourlyMeasurement [.stuck] true).wf = false := by decide

theorem test_wf_wait_ecc : (Instr.recordWaitExpiry ⟨0, .egressStage⟩).wf = false := by decide

/-- A cartridge with five targets; with a block state of 8; with an AGE of 4,096; with a segment of SEQ 0. -/
theorem test_wf_discoveries :
    (Instr.mediumMount (.found { cart 2 [] [] with targets := List.replicate 5 [] })).wf = false
    ∧ (Instr.storeAdopt ⟨false, 0⟩ (.found (cart 2 [] [⟨0, 0, 8, false, false, 0⟩]))).wf = false
    ∧ (Instr.storeResume ⟨false, 0⟩ (.found (cart 2 [] [⟨0, 4096, 0, false, false, 0⟩]))).wf = false
    ∧ (Instr.storeFormat ⟨false, 0⟩ (.found { cart 2 [] [] with
        segments := [⟨5, 0, 1, true, 0, 0, 0, 0, [], [], [], [], false, 0⟩] })).wf = false := by decide

theorem test_wf_discovery_good : (Instr.mediumMount (.found (cart 2 [] [⟨9, 4095, 1, true, false, 72⟩]))).wf = true := by decide

/-- A bit in error beyond the 17,496 of a codeword. -/
def farRead : PageRead := ⟨[⟨0, [[17496]]⟩]⟩

theorem test_wf_page_reads :
    (Instr.powerUpScan farRead farRead farRead).wf = false ∧ (Instr.coppiceRefresh 0 ⟨[farRead], false⟩).wf = false
    ∧ (Instr.wearLevellingMove ⟨[farRead], false⟩).wf = false
    ∧ (Instr.xferPacedBurst 0 { quietIo with pages := [farRead] }).wf = false := by decide

/-! ### Single steps and computations, with results from the spec's worked examples -/

/-- Chapter 2, worked example, steps 4 and 5: the parity of 0x001234 and 0x567890. -/
theorem test_parity : parOf 0x001234 = 6 ∧ parOf 0x567890 = 7 := by decide

/-- Chapter 2, worked example: the three writes commit channel 3's source. -/
theorem test_source_commits :
    (chan (outOf (exec (.anchorWrite (.cb (aparOf 0x29 false) 7) .xferSrc 0x567890)
      (modShadow 0 0 0 (fun x => { x with wr := 0x1234 * 2 ^ 24 }) (modWin 0 (fun x => { x with xferCh := 3 }) mg)))) 3).src
      = 0x0000001234567890 := by decide +kernel

/-- Chapter 3, worked example, step 1: T_ID through BAR0. -/
theorem test_bar0_id :
    (link (outOf (exec (.registerWrite (.bar0 1 true 0 [(0, 15)])) tn)) 1).bar0 = some [0x005A3224] := by decide +kernel

/-- Chapter 4, worked example: the records and the row of the 48-byte image. -/
theorem test_image_operations :
    (imageOps ([0x52, 0x45, 0x5A, 0x00, 0x01, 0x01, 0x30, 0, 0, 2, 0, 0, 1, 0, 0, 0, 0, 0,
      0x00, 0x01, 0x02, 0x28, 0, 0, 0xF0, 0x00, 0x02, 1, 0, 0,
      3, 3, 0, 4, 0, 0, 1, 0, 1, 0x30, 0, 0] ++ List.replicate 6 0)).map (fun l => l.map (·.2)) =
      some [.param 0x020100 0x000028, .param 0x0200F0 0x000001, .row 3 3 4 1 [0x000030]] := by decide +kernel

/-- Chapter 5, worked example, steps 1 and 2: the overrun of ring 5 breaks lock 3. -/
theorem test_doorbell_overrun :
    (fun t => ((ten t 1).fault, (ten t 1).detail, lockState t 3))
      (outOf (exec (.tTxbell bar 0x0B0032) (putRowWord 0x01 1 5 8 3 8
        { tnRing 5 (fun x => { x with head := 40, tail := 40 }) with locks := [(3, { owner := some 2, waiting := 8 })] })))
      = (3, 0x085000, 0x000010) := by decide +kernel

/-- The check value of the CRC-32 that R123 names, over the nine digits 1 to 9. -/
theorem test_crc32 : crc32 [0x31, 0x32, 0x33, 0x34, 0x35, 0x36, 0x37, 0x38, 0x39] = 0xCBF43926 := by decide +kernel

/-- The one-block message of FIPS 180-4: the first bytes of its SHA-256. -/
theorem test_sha256 : (sha256 [0x61, 0x62, 0x63]).take 4 = [0xBA, 0x78, 0x16, 0xBF] := by decide +kernel

/-- Chapter 16, worked example, step 3: the header of X's last HEARTBEAT. -/
theorem test_heartbeat_header :
    (rideBytes ⟨⟨2, 0, 36, 10000, 3000, 5000, 64, 1, 10⟩, []⟩).take 16 =
      [0x02, 0x00, 0x24, 0x00, 0x10, 0x27, 0xB8, 0x0B, 0x88, 0x13, 0, 0, 0x40, 0, 0x01, 0x0A] := by decide +kernel

/-- An idle queue lets one tick of 2 ns pass. -/
theorem test_idle_step : (outOf (step State.reset)).clk = 1 := by decide +kernel

end Sys2Proof.Tests
end

section
/-! PROOFS. The control bus (chapter 2): what the arbitration selects, what a revocation leaves, and what the events that
end a tenure or a handshake do. -/

namespace Sys2Proof.Machine

variable {s : State} {j m : Nat}

/-! ### Live commands -/

/-- Commands of the control bus are live: with no TAP instruction loaded they end in their effect (R585). -/
theorem exec_tenureLimit (h : s.tap = false) : exec .tenureLimit s = .next (tenureLimitEffect s) :=
  live_next s tenureLimitEffect h

theorem exec_heldStrobe (h : s.tap = false) : exec .heldStrobe s = .next (heldStrobeEffect s) :=
  live_next s heldStrobeEffect h

theorem exec_cbReqHoldoffEnd (m : Fin 5) (h : s.tap = false) :
    exec (.cbReqHoldoffEnd m) s = .next (cbReqHoldoffEndEffect m s) :=
  live_next s (cbReqHoldoffEndEffect m) h

theorem exec_cbJam (h : s.tap = false) : exec .cbJam s = .next (cbJamEffect s) :=
  live_next s cbJamEffect h

theorem exec_cbStrobeDeassert (h : s.tap = false) : exec .cbStrobeDeassert s = .next (cbStrobeDeassertEffect s) :=
  live_next s cbStrobeDeassertEffect h

/-! ### The master the arbitration selects (R45, R46) -/

/-- The first turn of a round of n turns that a predicate accepts: every turn before it is passed over. -/
theorem find?_turns_eq_some {n : Nat} {turn : Nat → Nat} {p : Nat → Bool}
    (h : ((List.range n).map turn).find? p = some j) :
    ∃ k < n, turn k = j ∧ p j = true ∧ ∀ i < k, p (turn i) = false := by
  rw [List.find?_map, Option.map_eq_some_iff] at h
  obtain ⟨k, hk, rfl⟩ := h
  obtain ⟨hp, hmem, hbefore⟩ := List.find?_range_eq_some.1 hk
  exact ⟨k, List.mem_range.1 hmem, rfl, hp, fun i hi => by simpa using hbefore i hi⟩

/-- A round in which no turn is accepted. -/
theorem find?_turns_eq_none {n : Nat} {turn : Nat → Nat} {p : Nat → Bool}
    (h : ((List.range n).map turn).find? p = none) : ∀ i < n, p (turn i) = false := by
  simpa using h

theorem nextMaster_roundRobin (hmode : bitOf (pn s 0x0200F0) 0 = false) :
    nextMaster s = ((List.range 5).map fun i => (s.bus.lastGrant + 1 + i) % 5).find? (wants s) := by
  simp [nextMaster, hmode]

theorem nextMaster_management (hmode : bitOf (pn s 0x0200F0) 0 = true) (h0 : wants s 0 = true) :
    nextMaster s = some 0 := by
  simp [nextMaster, hmode, h0]

theorem nextMaster_tenants (hmode : bitOf (pn s 0x0200F0) 0 = true) (h0 : wants s 0 = false) :
    nextMaster s = ((List.range 4).map fun i => (s.bus.lastTenant + i) % 4 + 1).find? (wants s) := by
  simp [nextMaster, hmode, h0]

/-- The selected master is one that may be granted. -/
theorem wants_of_nextMaster (h : nextMaster s = some j) : wants s j = true := by
  cases hmode : bitOf (pn s 0x0200F0) 0 with
  | false => exact List.find?_some (nextMaster_roundRobin hmode ▸ h)
  | true =>
    cases h0 : wants s 0 with
    | true =>
      obtain rfl : 0 = j := by simpa [nextMaster_management hmode h0] using h
      exact h0
    | false => exact List.find?_some (nextMaster_tenants hmode h0 ▸ h)

/-- With CB_ARB_MODE 0 no master between the one last granted and the selected one may be granted (R45). -/
theorem roundRobin_passes_over (hmode : bitOf (pn s 0x0200F0) 0 = false) (h : nextMaster s = some j) :
    ∀ i, i < (j + 4 + 4 * s.bus.lastGrant) % 5 → wants s ((s.bus.lastGrant + 1 + i) % 5) = false := by
  rw [nextMaster_roundRobin hmode] at h
  obtain ⟨k, hk, rfl, -, hbefore⟩ := find?_turns_eq_some h
  exact fun i hi => hbefore i (by omega)

/-- With CB_ARB_MODE 1 and no request of management, no tenant between the one last granted and the selected one may be
granted (R46). -/
theorem tenants_pass_over (hmode : bitOf (pn s 0x0200F0) 0 = true) (h0 : wants s 0 = false) (h : nextMaster s = some j) :
    1 ≤ j ∧ ∀ i, i < (j + 3 + 3 * s.bus.lastTenant) % 4 → wants s ((s.bus.lastTenant + i) % 4 + 1) = false := by
  rw [nextMaster_tenants hmode h0] at h
  obtain ⟨k, hk, rfl, -, hbefore⟩ := find?_turns_eq_some h
  exact ⟨by omega, fun i hi => hbefore i (by omega)⟩

/-- Where none is selected, no master may be granted: each has its turn in the round, master m of the five as turn
m − lastGrant − 1 and tenant master m as turn m − 1 − lastTenant. -/
theorem wants_eq_false_of_nextMaster_eq_none (h : nextMaster s = none) (hm : m < 5) : wants s m = false := by
  cases hmode : bitOf (pn s 0x0200F0) 0 with
  | false =>
    rw [nextMaster_roundRobin hmode] at h
    have hturn := find?_turns_eq_none h ((m + 4 + 4 * s.bus.lastGrant) % 5) (by omega)
    rwa [show (s.bus.lastGrant + 1 + (m + 4 + 4 * s.bus.lastGrant) % 5) % 5 = m by omega] at hturn
  | true =>
    cases h0 : wants s 0 with
    | true => simp [nextMaster_management hmode h0] at h
    | false =>
      rw [nextMaster_tenants hmode h0] at h
      by_cases hz : m = 0
      · exact hz ▸ h0
      · have hturn := find?_turns_eq_none h ((m + 3 + 3 * s.bus.lastTenant) % 4) (by omega)
        rwa [show (s.bus.lastTenant + (m + 3 + 3 * s.bus.lastTenant) % 4) % 4 + 1 = m by omega] at hturn

/-! ### The grant -/

/-- An idle live bus is granted to the selected master. -/
theorem arbitrate_of_idle (hg : s.bus.grant = none) (ha : s.bus.ack = none) (hl : busLive s = true)
    (hn : nextMaster s = some j) :
    arbitrate s = modBus (fun b => { b with
      grant := some j, lastGrant := j, lastTenant := if j = 0 then b.lastTenant else j, grantAt := s.clk,
      limit := pn s (0x020000 + 256 * j), ending := .none }) s := by
  simp [arbitrate, hg, ha, hl, hn]

/-- All that an arbitration can do. -/
theorem arbitrate_cases (s : State) : arbitrate s = s ∨
    ∃ j, nextMaster s = some j ∧ arbitrate s = modBus (fun b => { b with
      grant := some j, lastGrant := j, lastTenant := if j = 0 then b.lastTenant else j, grantAt := s.clk,
      limit := pn s (0x020000 + 256 * j), ending := .none }) s := by
  unfold arbitrate
  split
  · exact .inl rfl
  · split
    · exact .inl rfl
    · next j hj => exact .inr ⟨j, hj, rfl⟩

@[simp] theorem arbitrate_mgmt (s : State) : (arbitrate s).mgmt = s.mgmt := by
  obtain h | ⟨j, -, h⟩ := arbitrate_cases s <;> simp [h]

@[simp] theorem arbitrate_params (s : State) : (arbitrate s).params = s.params := by
  obtain h | ⟨j, -, h⟩ := arbitrate_cases s <;> simp [h]

@[simp] theorem arbitrate_ignored (s : State) : (arbitrate s).bus.ignored = s.bus.ignored := by
  obtain h | ⟨j, -, h⟩ := arbitrate_cases s <;> simp [h]

@[simp] theorem arbitrate_ack (s : State) : (arbitrate s).bus.ack = s.bus.ack := by
  obtain h | ⟨j, -, h⟩ := arbitrate_cases s <;> simp [h]

@[simp] theorem arbitrate_dataOut (s : State) : (arbitrate s).bus.dataOut = s.bus.dataOut := by
  obtain h | ⟨j, -, h⟩ := arbitrate_cases s <;> simp [h]

/-- A master granted after an arbitration held the grant before it, or may be granted. -/
theorem grant_of_arbitrate (h : (arbitrate s).bus.grant = some j) : s.bus.grant = some j ∨ wants s j = true := by
  obtain hs | ⟨k, hk, hs⟩ := arbitrate_cases s <;> rw [hs] at h
  · exact .inl h
  · obtain rfl : k = j := by simpa using h
    exact .inr (wants_of_nextMaster hk)

/-- A dropped grant leaves the bus with no grant and no handshake, and arbitrates it again. -/
theorem dropGrant_eq (s : State) : dropGrant s = arbitrate { s with
    bus := { s.bus with grant := none, ack := none, dataOut := none, ending := .none } } := rfl

@[simp] theorem dropGrant_mgmt (s : State) : (dropGrant s).mgmt = s.mgmt := by simp [dropGrant]
@[simp] theorem dropGrant_params (s : State) : (dropGrant s).params = s.params := by simp [dropGrant]
@[simp] theorem dropGrant_ignored (s : State) : (dropGrant s).bus.ignored = s.bus.ignored := by simp [dropGrant]
@[simp] theorem dropGrant_ack (s : State) : (dropGrant s).bus.ack = none := by simp [dropGrant]
@[simp] theorem dropGrant_dataOut (s : State) : (dropGrant s).bus.dataOut = none := by simp [dropGrant]

/-- A master whose request is ignored is not granted when the grant is dropped (R49). -/
theorem dropGrant_grant_ne (h : s.bus.ignored.getLsbD m = true) : (dropGrant s).bus.grant ≠ some m := by
  intro hg
  obtain hold | hw := grant_of_arbitrate hg
  · cases hold
  · simp [wants, h] at hw

/-! ### Faults that a revocation reports -/

@[simp] theorem setMFault_bus (cause a b info addr : Nat) (safe : Bool) (s : State) :
    (setMFault cause a b info addr safe s).bus = s.bus :=
  ((setMFault_ev (m := 0x4000120) rfl (.refl s)).frame .bus).resolve_left (by decide)

@[simp] theorem setMFault_params (cause a b info addr : Nat) (safe : Bool) (s : State) :
    (setMFault cause a b info addr safe s).params = s.params :=
  ((setMFault_ev (m := 0x4000120) rfl (.refl s)).frame .params).resolve_left (by decide)

@[simp] theorem raise_mgmt (w n : Nat) (s : State) : (raise w n s).mgmt = s.mgmt :=
  ((raise_ev (m := 0x100) rfl (.refl s)).frame .mgmt).resolve_left (by decide)

@[simp] theorem logFault_mgmt (kind cause tenant unit info addr : Nat) (safe : Bool) (s : State) :
    (logFault kind cause tenant unit info addr safe s).mgmt = s.mgmt :=
  ((logFault_ev (m := 0x4000100) rfl (.refl s)).frame .mgmt).resolve_left (by decide)

/-- The bit of the cause sets in M_FAULT. -/
@[simp] theorem setMFault_fault (cause a b info addr : Nat) (safe : Bool) (s : State) :
    (setMFault cause a b info addr safe s).mgmt.fault = s.mgmt.fault ||| BitVec.ofNat 12 (2 ^ cause) := by
  unfold setMFault
  dsimp only
  rw [logFault_mgmt]
  split
  · rfl
  · rw [raise_mgmt]

@[simp] theorem tenantFault_bus (t bit ringNo : Nat) (rx : Bool) (cpl arg0 arg1 info : Nat) (s : State) :
    (tenantFault t bit ringNo rx cpl arg0 arg1 info s).bus = s.bus :=
  ((tenantFault_ev (m := 0x4585f00) rfl (.refl s)).frame .bus).resolve_left (by decide)

@[simp] theorem tenantFault_mgmt (t bit ringNo : Nat) (rx : Bool) (cpl arg0 arg1 info : Nat) (s : State) :
    (tenantFault t bit ringNo rx cpl arg0 arg1 info s).mgmt = s.mgmt :=
  ((tenantFault_ev (m := 0x4585f00) rfl (.refl s)).frame .mgmt).resolve_left (by decide)

@[simp] theorem bumpParam_bus (id n : Nat) (s : State) : (bumpParam id n s).bus = s.bus := rfl
@[simp] theorem bumpParam_mgmt (id n : Nat) (s : State) : (bumpParam id n s).mgmt = s.mgmt := rfl

/-- A parameter's word depends on the stored parameters alone. -/
theorem pn_eq_of_params_eq {s t : State} (h : t.params = s.params) (id : Nat) : pn t id = pn s id := by
  simp [pn, pw, h]

/-- A parameter counter counts up to 0xFFFFFF and sticks there (Table 15.4). -/
theorem pn_bumpParam_same (id n : Nat) (s : State) : pn (bumpParam id n s) id = min (pn s id + n) 0xFFFFFF := by
  simp [pn, pw, bumpParam, setPw, word, stick]

/-! ### Revocation (R47 to R50) -/

/-- Master m's request is ignored from now on, its 1 µs counted from now where it is deasserted already (R49). -/
def ignoreMaster (m : Nat) (s : State) : State :=
  modBus (fun b => { b with
    ignored := b.ignored ||| BitVec.ofNat 5 (2 ^ m),
    offAt := if s.bus.req.getLsbD m then s.bus.offAt.filter (fun e => e.1 != m) else tput s.bus.offAt m s.clk }) s

/-- The fault that a revocation of master m reports: M_FAULT.CB_REVOKED, or the tenant's T_FAULT.CB_REVOKED (R50). -/
def reportRevocation (m : Nat) (heldStrobe : Bool) (s : State) : State :=
  if m = 0 then setMFault 1 0 31 0 0 false s else tenantFault (m - 1) 5 0 false 0 (flag heldStrobe 0) 0 0 s

/-- A revocation ignores the master, counts in its CB_REVOKE_COUNT, reports the fault and drops the grant. -/
theorem revoke_eq (m : Nat) (h : Bool) (s : State) :
    revoke m h s = dropGrant (reportRevocation m h (bumpParam (0x020003 + 256 * m) 1 (ignoreMaster m s))) := rfl

@[simp] theorem ignoreMaster_ignored (m : Nat) (s : State) :
    (ignoreMaster m s).bus.ignored = s.bus.ignored ||| BitVec.ofNat 5 (2 ^ m) := rfl
@[simp] theorem ignoreMaster_mgmt (m : Nat) (s : State) : (ignoreMaster m s).mgmt = s.mgmt := rfl
@[simp] theorem ignoreMaster_params (m : Nat) (s : State) : (ignoreMaster m s).params = s.params := rfl

@[simp] theorem reportRevocation_bus (m : Nat) (h : Bool) (s : State) : (reportRevocation m h s).bus = s.bus := by
  unfold reportRevocation
  split <;> simp

theorem reportRevocation_mgmt (h : Bool) (s : State) (hm : m ≠ 0) : (reportRevocation m h s).mgmt = s.mgmt := by
  simp [reportRevocation, hm]

@[simp] theorem revoke_ignored (m : Nat) (h : Bool) (s : State) :
    (revoke m h s).bus.ignored = s.bus.ignored ||| BitVec.ofNat 5 (2 ^ m) := by
  simp [revoke_eq]

@[simp] theorem revoke_ack (m : Nat) (h : Bool) (s : State) : (revoke m h s).bus.ack = none := by simp [revoke_eq]
@[simp] theorem revoke_dataOut (m : Nat) (h : Bool) (s : State) : (revoke m h s).bus.dataOut = none := by
  simp [revoke_eq]

theorem getLsbD_masterBit (hm : m < 5) : (BitVec.ofNat 5 (2 ^ m)).getLsbD m = true := by
  rw [BitVec.getLsbD_ofNat, Nat.testBit_two_pow_self, decide_eq_true hm, Bool.and_self]

/-- The revoked master is not granted again: its request is ignored (R49). -/
theorem revoke_grant_ne (h : Bool) (s : State) (hm : m < 5) : (revoke m h s).bus.grant ≠ some m := by
  rw [revoke_eq]
  refine dropGrant_grant_ne ?_
  rw [reportRevocation_bus, bumpParam_bus, ignoreMaster_ignored, BitVec.getLsbD_or, getLsbD_masterBit hm, Bool.or_true]

/-- A revocation of master 0 sets M_FAULT.CB_REVOKED (R50). -/
theorem revoke_zero_fault (h : Bool) (s : State) : (revoke 0 h s).mgmt.fault = s.mgmt.fault ||| 2 := by
  simp [revoke_eq, reportRevocation]

/-- A revocation of master 0 counts in CB_REVOKE_COUNT (R50). -/
theorem revoke_zero_count (h : Bool) (s : State) : pn (revoke 0 h s) 0x020003 = min (pn s 0x020003 + 1) 0xFFFFFF := by
  have hp : (revoke 0 h s).params = (bumpParam 0x020003 1 (ignoreMaster 0 s)).params := by
    simp [revoke_eq, reportRevocation]
  rw [pn_eq_of_params_eq hp, pn_bumpParam_same, pn_eq_of_params_eq (ignoreMaster_params 0 s)]

theorem revoke_mgmt (h : Bool) (s : State) (hm : m ≠ 0) : (revoke m h s).mgmt = s.mgmt := by
  simp [revoke_eq, reportRevocation_mgmt h _ hm]

/-! ### Events that end a tenure or a handshake (R38, R47 to R49, R51, R599) -/

section Events

variable {since : Nat} {e : Bool}

/-- The limit is reached between handshakes: the tenure is revoked at once (R47). -/
theorem tenureLimitEffect_idle (hg : s.bus.grant = some m) (ht : s.bus.grantAt + us s.bus.limit ≤ s.clk)
    (ha : s.bus.ack = none) : tenureLimitEffect s = revoke m false s := by
  simp [tenureLimitEffect, hg, waitUntil_past ht, ha]

/-- The limit is reached during a handshake: the tenure ends when the handshake completes (R47). -/
theorem tenureLimitEffect_handshake (hg : s.bus.grant = some m) (ht : s.bus.grantAt + us s.bus.limit ≤ s.clk)
    (ha : s.bus.ack ≠ none) (he : s.bus.ending ≠ .disable) :
    tenureLimitEffect s = { s with bus := { s.bus with ending := .revoke } } := by
  simp [tenureLimitEffect, hg, waitUntil_past ht, ha, he, modBus]

theorem heldStrobeEffect_of_ack (hg : s.bus.grant = some m) (ha : s.bus.ack = some (e, since))
    (ht : since + us 1 ≤ s.clk) : heldStrobeEffect s = revoke m true s := by
  simp [heldStrobeEffect, hg, ha, waitUntil_past ht]

theorem cbReqHoldoffEndEffect_of_off {off : Nat} (hoff : s.bus.offAt.find? (fun e => e.1 == m) = some (m, off))
    (ht : off + us 1 ≤ s.clk) :
    cbReqHoldoffEndEffect m s = arbitrate { s with bus := { s.bus with
      ignored := s.bus.ignored &&& ~~~BitVec.ofNat 5 (2 ^ m), offAt := s.bus.offAt.filter (fun e => e.1 != m) } } := by
  simp [cbReqHoldoffEndEffect, hoff, waitUntil_past ht, modBus]

theorem cbJamEffect_of_no_grant (hl : busLive s = true) (hg : s.bus.grant = none) :
    cbJamEffect s = setMFault 2 0 31 0 0 false s := by
  simp [cbJamEffect, hl, hg, jam]

/-- The strobe deasserts in time with nothing to end the tenure: only the handshake ends (R38). -/
theorem cbStrobeDeassertEffect_continue (hg : s.bus.grant = some m) (ha : s.bus.ack = some (e, since))
    (ht : s.clk ≤ since + us 1) (hend : s.bus.ending = .none) (hreq : s.bus.req.getLsbD m = true) :
    cbStrobeDeassertEffect s = { s with bus := { s.bus with ack := none, dataOut := none } } := by
  simp [cbStrobeDeassertEffect, hg, ha, Nat.not_lt.2 ht, hend, hreq, modBus]

/-- The strobe deasserts in time after the limit was reached: the tenure is revoked (R47). -/
theorem cbStrobeDeassertEffect_revoke (hg : s.bus.grant = some m) (ha : s.bus.ack = some (e, since))
    (ht : s.clk ≤ since + us 1) (hend : s.bus.ending = .revoke) :
    cbStrobeDeassertEffect s = revoke m false s := by
  simp [cbStrobeDeassertEffect, hg, ha, Nat.not_lt.2 ht, hend]

/-- The strobe deasserts in time after CB_ENABLE became 0 or the request was withdrawn: the tenure ends (R38, R599). -/
theorem cbStrobeDeassertEffect_drop (hg : s.bus.grant = some m) (ha : s.bus.ack = some (e, since))
    (ht : s.clk ≤ since + us 1)
    (hend : s.bus.ending = .disable ∨ s.bus.ending = .none ∧ s.bus.req.getLsbD m = false) :
    cbStrobeDeassertEffect s = dropGrant s := by
  obtain hend | ⟨hend, hreq⟩ := hend
  · simp [cbStrobeDeassertEffect, hg, ha, Nat.not_lt.2 ht, hend]
  · simp [cbStrobeDeassertEffect, hg, ha, Nat.not_lt.2 ht, hend, hreq]

end Events

/-! ### The statements -/

/-- Settles O1: with CB_ARB_MODE 0 and 1 by the turn at which the round finds its master. -/
theorem arbitrationFollowsTheRoundRobin : Obligations.ArbitrationFollowsTheRoundRobin := by
  refine ⟨fun s j _ _ hn => ⟨Nat.le_of_lt_succ (nextMaster_lt hn), wants_of_nextMaster hn,
    fun hmode => roundRobin_passes_over hmode hn, fun hmode => ⟨fun h0 => ?_, fun h0 => tenants_pass_over hmode h0 hn⟩,
    fun hg ha hl => ?_⟩, fun s hn m hm => wants_eq_false_of_nextMaster_eq_none hn hm, fun s => ⟨rfl, rfl, rfl, rfl⟩⟩
  · simpa [nextMaster_management hmode h0, eq_comm] using hn
  · simp [arbitrate_of_idle hg ha hl hn]

/-- Settles O3: the events by their cases, the revocation by what its parts keep. -/
theorem tenuresEndAndRevocationsReport : Obligations.TenuresEndAndRevocationsReport := by
  refine ⟨⟨fun s m htap hg ht => ⟨fun ha => ?_, fun ha he => ?_⟩, fun s m since e htap hg ha ht => ?_,
    fun s m off htap hoff ht => ?_, fun s htap hl hg => ?_,
    fun s m since e htap hg ha ht => ⟨fun hend hreq => ?_, fun hend => ?_, fun hend => ?_⟩⟩, fun s m h hm => ?_⟩
  · rw [exec_tenureLimit htap, tenureLimitEffect_idle hg ht ha]
  · rw [exec_tenureLimit htap, tenureLimitEffect_handshake hg ht ha he]
  · rw [exec_heldStrobe htap, heldStrobeEffect_of_ack hg ha ht]
  · rw [exec_cbReqHoldoffEnd m htap, cbReqHoldoffEndEffect_of_off hoff ht]
  · rw [exec_cbJam htap, cbJamEffect_of_no_grant hl hg]
  · rw [exec_cbStrobeDeassert htap, cbStrobeDeassertEffect_continue hg ha ht hend hreq]
  · rw [exec_cbStrobeDeassert htap, cbStrobeDeassertEffect_revoke hg ha ht hend]
  · rw [exec_cbStrobeDeassert htap, cbStrobeDeassertEffect_drop hg ha ht hend, dropGrant_eq]
  · refine ⟨revoke_grant_ne h s hm, revoke_ignored m h s, revoke_ack m h s, revoke_dataOut m h s, ?_, revoke_mgmt h s⟩
    rintro rfl
    exact ⟨revoke_zero_fault h s, revoke_zero_count h s⟩

end Sys2Proof.Machine
end

section
/-! PROOFS. Reception at the ports (chapter 8): the way of a frame from the pins to the receive MAC, and the rows of
Table 8.3 one by one. -/

namespace Sys2Proof.Machine

variable {s : State} {f : RxFrame} {enter : State → State} {p : Nat}

/-! ### From the pins to the receive MAC -/

/-- FRAME_RECEIVE is live: with no TAP instruction loaded it ends in its effect (R585). -/
theorem exec_frameReceive (p : Fin 32) (f : RxFrame) (h : s.tap = false) :
    exec (.frameReceive p f) s = .next (frameReceiveEffect p f s) :=
  live_next s (frameReceiveEffect p f) h

/-- A frame at the pins reaches the MAC where the link is up, no loopback is selected and the lane is not fenced. -/
theorem frameReceiveEffect_of_open (hlink : (port s p).link = true) (hloop : loopback s p = 0)
    (hfence : fenced s (p / 4) = false) : frameReceiveEffect p f s = frameIn p f s := by
  simp [frameReceiveEffect, hlink, hloop, hfence]

/-- Awake, out of the safe state and on a port that expects no beacon, every frame is the receive MAC's. -/
theorem frameIn_of_operating (hawake : s.power.asleep = false) (hsafe : s.safety.safe = false)
    (hbeacon : beaconPort s p = false) : frameIn p f s = macReceive p f s := by
  simp [frameIn, hawake, hsafe, hbeacon]

/-- Out of the safe state a frame that passes the checks goes to the RX stage. -/
theorem macReceive_of_not_safe (hsafe : s.safety.safe = false) :
    macReceive p f s = receiveChecks p f (stageFrame p f) s := by
  simp [macReceive, hsafe]

/-! ### The rows of Table 8.3 (R245, R246, R250, R262) -/

/-- A fragment sequence in error is discarded whole, before any row of the table applies (R262). -/
theorem receiveChecks_preemptError (h : (f.preempt && f.preemptError) = true) :
    receiveChecks p f enter s = countPort p 15 1 s := by
  simp only [receiveChecks, if_pos h]

section FragmentsSound

variable (hpre : (f.preempt && f.preemptError) = false)
include hpre

/-- Order 1. -/
theorem receiveChecks_codeError (hcode : f.codeError.any (fun k => decide (k ≤ pn s (0x100003 + 256 * p))) = true) :
    receiveChecks p f enter s = countPort p 6 1 s := by
  simp only [receiveChecks, hpre, hcode, Bool.false_eq_true, if_false, if_true]

variable (hcode : f.codeError.any (fun k => decide (k ≤ pn s (0x100003 + 256 * p))) = false)
include hcode

/-- Orders 2 and 3: a short frame is a runt or a fragment as its FCS is good or bad. -/
theorem receiveChecks_short (hlen : f.bytes.length < 64) :
    receiveChecks p f enter s = countPort p (if fcsGood f.bytes then 3 else 4) 1 s := by
  cases hfcs : fcsGood f.bytes <;>
    simp only [receiveChecks, hpre, hcode, hlen, hfcs, Bool.false_eq_true, if_false, if_true]

variable (hlen : 64 ≤ f.bytes.length)
include hlen

/-- Order 4. -/
theorem receiveChecks_oversize (hmax : pn s (0x100003 + 256 * p) < f.bytes.length) :
    receiveChecks p f enter s = countPort p 5 1 s := by
  simp only [receiveChecks, hpre, hcode, Nat.not_lt.2 hlen, hmax, Bool.false_eq_true, if_false, if_true]

variable (hmax : f.bytes.length ≤ pn s (0x100003 + 256 * p))
include hmax

/-- Order 5. -/
theorem receiveChecks_badFcs (hfcs : fcsGood f.bytes = false) :
    receiveChecks p f enter s = countPort p 2 1 s := by
  simp only [receiveChecks, hpre, hcode, Nat.not_lt.2 hlen, Nat.not_lt.2 hmax, hfcs, Bool.false_eq_true,
    if_false, Bool.not_false, if_true]

/-- Orders 6 and 7: a whole frame is consumed as MAC control, discarded for want of room, or passes every check. -/
theorem receiveChecks_goodFcs (hfcs : fcsGood f.bytes = true) :
    receiveChecks p f enter s =
      if be16 f.bytes 12 = 0x8808 then bwCount p false f.bytes.length (macControlReceive p f.bytes s)
      else if stageFull s p f then countPort p 10 1 s else enter s := by
  simp only [receiveChecks, hpre, hcode, Nat.not_lt.2 hlen, Nat.not_lt.2 hmax, hfcs, Bool.false_eq_true,
    if_false, Bool.not_true]

end FragmentsSound

/-! ### The statement -/

/-- Settles O27: the way to the checks is the same for every frame, and each outcome is a row of Table 8.3. -/
theorem receivedFramesMeetTheChecksInOrder : Obligations.ReceivedFramesMeetTheChecksInOrder := by
  rintro s p f _ _ htap hlink hloop hfence hawake hsafe hbeacon rfl rfl
  rw [exec_frameReceive p f htap, frameReceiveEffect_of_open hlink hloop hfence,
    frameIn_of_operating hawake hsafe hbeacon, macReceive_of_not_safe hsafe]
  refine ⟨fun hp he => ?preemptError, fun hpre hcode => ?codeError, fun hpre hcode => ⟨fun hlen hfcs => ?runt,
    fun hlen hfcs => ?fragment, fun hlen hmax => ?oversize, fun hlen hmax hfcs => ?badFcs, fun hlen hmax hfcs =>
      ⟨fun htype => ?control, fun htype hfull => ?noRoom, fun htype hroom => ?staged⟩⟩⟩
  case preemptError => rw [receiveChecks_preemptError (by rw [hp, he, Bool.and_self])]
  case codeError => rw [receiveChecks_codeError hpre hcode]
  case runt => rw [receiveChecks_short hpre hcode hlen, if_pos hfcs]
  case fragment => rw [receiveChecks_short hpre hcode hlen, if_neg (ne_true_of_eq_false hfcs)]
  case oversize => rw [receiveChecks_oversize hpre hcode hlen hmax]
  case badFcs => rw [receiveChecks_badFcs hpre hcode hlen hmax hfcs]
  case control => rw [receiveChecks_goodFcs hpre hcode hlen hmax hfcs, if_pos htype]
  case noRoom => rw [receiveChecks_goodFcs hpre hcode hlen hmax hfcs, if_neg htype, if_pos hfull]
  case staged =>
    rw [receiveChecks_goodFcs hpre hcode hlen hmax hfcs, if_neg htype,
      if_neg (ne_true_of_eq_false hroom), stageFrame]

end Sys2Proof.Machine
end

section
/-! PROOFS. Rule match and action resolution in the Thicket (chapter 9): the row that the match selects, and what a
frame whose rule only delivers becomes in the Glade. -/

namespace Sys2Proof.Machine

/-! ### The row that the match selects (R282) -/

section Match

variable {hits : Nat → Bool} {prio : Nat → Nat} {rows : List Nat} {best : Option Nat} {r : Nat}

/-- PRIORITY of a rule row (Table 9.3). -/
def rulePriority (s : State) (r : Nat) : Nat := bits (rowWord s 0x04 0 r 0) 0 8

/-- The better of the best row so far and the next row r: r replaces it only by a hit of lower PRIORITY. -/
def betterRow (hits : Nat → Bool) (prio : Nat → Nat) (best : Option Nat) (r : Nat) : Option Nat :=
  if !hits r then best
  else match best with
    | some b => if prio r < prio b then some r else best
    | none => some r

/-- A result of matching rows: a hit of lowest PRIORITY, of lowest number among those; or none, where no row hits. -/
def Wins (hits : Nat → Bool) (prio : Nat → Nat) (rows : List Nat) : Option Nat → Prop
  | some r => r ∈ rows ∧ hits r = true ∧
      ∀ x ∈ rows, hits x = true → prio r < prio x ∨ (prio r = prio x ∧ r ≤ x)
  | none => ∀ x ∈ rows, hits x = false

/-- The winning rule is the best row so far over the stored rows, taken in their order. -/
theorem winningRule_eq_foldl (s : State) (p vid : Nat) (q : Parsed) (flags : Nat) (bs : List Byte) :
    winningRule s p vid q flags bs =
      (storedRows s 0x04 0).foldl (betterRow (fun r => ruleMatches s r p vid q flags bs) (rulePriority s)) none := rfl

theorem betterRow_of_miss (hr : hits r = false) : betterRow hits prio best r = best := by simp [betterRow, hr]

theorem betterRow_none (hr : hits r = true) : betterRow hits prio none r = some r := by simp [betterRow, hr]

theorem betterRow_some {b : Nat} (hr : hits r = true) :
    betterRow hits prio (some b) r = if prio r < prio b then some r else some b := by simp [betterRow, hr]

/-- A row that misses leaves the result. -/
theorem Wins.append_miss (hr : hits r = false) (h : Wins hits prio rows best) : Wins hits prio (rows ++ [r]) best := by
  cases best with
  | none => exact fun x hx => (by simpa using hx : x ∈ rows ∨ x = r).elim (h x) fun hxr => hxr ▸ hr
  | some b =>
    obtain ⟨hb, hhit, hleast⟩ := h
    exact ⟨List.mem_append_left _ hb, hhit, by simpa [or_imp, forall_and, hr] using hleast⟩

/-- The next of rising rows keeps the result: with equal PRIORITY it has the higher number, and does not replace. -/
theorem Wins.append_row (hlt : ∀ x ∈ rows, x < r) (h : Wins hits prio rows best) :
    Wins hits prio (rows ++ [r]) (betterRow hits prio best r) := by
  cases hr : hits r with
  | false => exact betterRow_of_miss (prio := prio) hr ▸ h.append_miss hr
  | true =>
    cases best with
    | none =>
      rw [betterRow_none hr]
      refine ⟨by simp, hr, fun x hx hhit => ?_⟩
      obtain hx | rfl : x ∈ rows ∨ x = r := by simpa using hx
      · simp [h x hx] at hhit
      · exact .inr ⟨rfl, le_rfl⟩
    | some b =>
      obtain ⟨hb, hbhit, hleast⟩ := h
      rw [betterRow_some hr]
      split
      case isTrue hlower =>
        refine ⟨by simp, hr, fun x hx hhit => ?_⟩
        obtain hx | rfl : x ∈ rows ∨ x = r := by simpa using hx
        · have := hleast x hx hhit
          omega
        · exact .inr ⟨rfl, le_rfl⟩
      case isFalse hnot =>
        refine ⟨List.mem_append_left _ hb, hbhit, fun x hx hhit => ?_⟩
        obtain hx | rfl : x ∈ rows ∨ x = r := by simpa using hx
        · exact hleast x hx hhit
        · have := hlt b hb
          omega

/-- Over rising rows the best row wins. -/
theorem wins_foldl_betterRow (hrise : rows.Pairwise (· < ·)) :
    Wins hits prio rows (rows.foldl (betterRow hits prio) none) := by
  induction rows using List.reverseRecOn with
  | nil => simp [Wins]
  | append_singleton rows r ih =>
    obtain ⟨hrise, -, hlt⟩ := List.pairwise_append.1 hrise
    rw [List.foldl_append]
    exact (ih hrise).append_row fun x hx => hlt x hx r (List.mem_singleton_self r)

/-- Where none wins no row hits, and where no row hits none wins. -/
theorem Wins.eq_none_iff (h : Wins hits prio rows best) : best = none ↔ ∀ x ∈ rows, hits x = false := by
  cases best with
  | none => exact iff_of_true rfl h
  | some r =>
    obtain ⟨hr, hhit, -⟩ := h
    exact iff_of_false nofun fun hmiss => by simp [hmiss r hr] at hhit

end Match

/-- The winning rule wins among the stored rows (R282). -/
theorem wins_winningRule {s : State} (hrise : (storedRows s 0x04 0).Pairwise (· < ·)) (p vid : Nat) (q : Parsed)
    (flags : Nat) (bs : List Byte) :
    Wins (fun r => ruleMatches s r p vid q flags bs) (rulePriority s) (storedRows s 0x04 0)
      (winningRule s p vid q flags bs) := by
  rw [winningRule_eq_foldl]
  exact wins_foldl_betterRow hrise

/-! ### Actions without a lookup (R285, R289) -/

/-- Where the actions ask for no lookup, they are resolved at once. -/
theorem lookUp_of_ext_false {s : State} {p : Nat} {item : RxItem} (h : (actionsOf s (ruleOf s p item)).ext = false) :
    lookUp p item s = resolveActions p item (ruleOf s p item) (actionsOf s (ruleOf s p item)) s := by
  simp [lookUp, h, settleFrame]

/-! ### A frame enters the Glade -/

section Glade

variable {s u : State}

@[simp] theorem perfAdd_frames (code n : Nat) (s : State) : (perfAdd code n s).frames = s.frames :=
  ((perfAdd_ev (m := 0x80100) rfl (.refl s)).frame .frames).resolve_left (by decide)

@[simp] theorem perfAdd_nextFrame (code n : Nat) (s : State) : (perfAdd code n s).nextFrame = s.nextFrame :=
  ((perfAdd_ev (m := 0x80100) rfl (.refl s)).frame .nextFrame).resolve_left (by decide)

@[simp] theorem perfAdd_params (code n : Nat) (s : State) : (perfAdd code n s).params = s.params :=
  ((perfAdd_ev (m := 0x80100) rfl (.refl s)).frame .params).resolve_left (by decide)

@[simp] theorem perfAdd_fences (code n : Nat) (s : State) : (perfAdd code n s).fences = s.fences :=
  ((perfAdd_ev (m := 0x80100) rfl (.refl s)).frame .fences).resolve_left (by decide)

@[simp] theorem peak_frames (s : State) : (peak s).frames = s.frames :=
  ((peak_ev (m := 0x80) rfl (.refl s)).frame .frames).resolve_left (by decide)

@[simp] theorem xoffJudge_frames (p c : Nat) (refused : Option (Option Nat)) (s : State) :
    (xoffJudge p c refused s).frames = s.frames :=
  ((xoffJudge_ev (m := 0x4000) rfl (.refl s)).frame .frames).resolve_left (by decide)

@[simp] theorem modRing_frames (t r : Nat) (f : Ring → Ring) (s : State) : (modRing t r f s).frames = s.frames := rfl

/-- A frame taken in is stored under the next frame number, with the cells picked for it. -/
theorem takeIn_frames (f : GFrame) (s : State) :
    (takeIn f s).frames = tput s.frames s.nextFrame { f with cells := pickCells s f.ncells [] } := by
  simp [takeIn]

theorem gladeUsed_eq_of_frames_eq (hf : u.frames = s.frames) (t : Nat) : gladeUsed u t = gladeUsed s t := by
  simp [gladeUsed, hf]

/-- The free cells depend on the frames held and on the banks in service. -/
theorem freeCells_eq_of_same (hf : u.frames = s.frames) (hp : u.params = s.params) (hx : u.fences = s.fences) :
    freeCells u = freeCells s := by
  simp [freeCells, allCells, usedCells, fenced, hf, hp, hx]

theorem quota_eq_of_params_eq (hp : u.params = s.params) (t : Nat) : quota u t = quota s t := pn_eq_of_params_eq hp _

theorem reserved_eq_of_same (hf : u.frames = s.frames) (hp : u.params = s.params) : reserved u = reserved s := by
  simp [reserved, gladeUsed_eq_of_frames_eq hf, quota_eq_of_params_eq hp]

/-- Admission depends on the frames held, the parameters and the fences alone. -/
theorem admits_eq_of_same (hf : u.frames = s.frames) (hp : u.params = s.params) (hx : u.fences = s.fences)
    (charge : Option Nat) (need : Nat) : admits u charge need = admits s charge need := by
  unfold admits
  rw [freeCells_eq_of_same hf hp hx, reserved_eq_of_same hf hp]
  cases charge with
  | none => rfl
  | some t => dsimp only; rw [gladeUsed_eq_of_frames_eq hf, quota_eq_of_params_eq hp]

@[simp] theorem admits_perfAdd (code n : Nat) (charge : Option Nat) (need : Nat) :
    admits (perfAdd code n s) charge need = admits s charge need :=
  admits_eq_of_same (perfAdd_frames code n s) (perfAdd_params code n s) (perfAdd_fences code n s) charge need

end Glade

/-! ### Delivery as the only action (R285, R287, Table 1.2) -/

section Delivery

variable {s : State} {p r t k : Nat} {item : RxItem}

/-- Tag word 1 of a frame that its rule or DEFAULT_ACTION only delivers, to tenant t: TC and PCP from the frame, the
tenant charged, RULE_HIT and the row (Table 1.2). -/
def deliveryTag (item : RxItem) (row : Option Nat) (t : Nat) : Word :=
  let pcp := (parse item.bytes).pcp
  word (pcp * 2 ^ 21 + t * 2 ^ 19 + flag true 18 + pcp * 2 ^ 15 + flag row.isSome 11 + row.getD 0)

/-- The frame as it is offered to the Glade: one reference, charged to the tenant. -/
def deliveredFrame (p : Nat) (item : RxItem) (row : Option Nat) (t : Nat) : GFrame :=
  ⟨[word (p * 2 ^ 16 + item.bytes.length), deliveryTag item row t,
      word (flag true 23 + (parse item.bytes).flags item.preempt), word (item.ts / 65536)],
    item.bytes, cellsFor item.bytes.length, [], 1, some t, some p, item.ts⟩

/-- An admitted frame whose only action is its delivery enters the Glade and its reference joins the ring's. -/
theorem resolveActions_of_deliver (row : Option Nat) (hadm : admits s (some t) (cellsFor item.bytes.length) = true) :
    resolveActions p item row { deliver := some (t, k) } s =
      modRing t (68 + k) (fun x => { x with refs := x.refs ++ [s.nextFrame] })
        (xoffJudge p (parse item.bytes).pcp none
          (takeIn (deliveredFrame p item row t) (perfAdd 0x050001 1 s))) := by
  simp [resolveActions, relayAsk, hadm, deliveredFrame, deliveryTag, flag]

/-- The delivered frame stands under the frame number that was next. -/
theorem frame_resolveActions_of_deliver (row : Option Nat)
    (hadm : admits s (some t) (cellsFor item.bytes.length) = true) :
    frame (resolveActions p item row { deliver := some (t, k) } s) s.nextFrame =
      { deliveredFrame p item row t with
        cells := pickCells (perfAdd 0x050001 1 s) (cellsFor item.bytes.length) [] } := by
  simp [resolveActions_of_deliver row hadm, frame, takeIn_frames, deliveredFrame]

/-- The low 12 bits of the tag word are RULE_HIT 1 above the row number. -/
theorem deliveryTag_mod (hr : r < 2 ^ 11) : (deliveryTag item (some r) t).toNat % 2 ^ 12 = 2 ^ 11 + r := by
  simp only [deliveryTag, word, flag, BitVec.toNat_ofNat, Option.isSome_some, if_true, Option.getD_some]
  omega

end Delivery

/-! ### The statement -/

/-- Settles O29: the match keeps the winner over the stored rows as they rise; a rule that only delivers leaves its row
in the tag. -/
theorem theWinningRuleHasTheLowestPriority : Obligations.TheWinningRuleHasTheLowestPriority := by
  refine ⟨fun s p vid q flags bs hrise => ?winner, fun s p r item hrule hext => ?resolved,
    fun s p r t k item hr hact hadm => ?tagged⟩
  case winner =>
    have hwins := wins_winningRule hrise p vid q flags bs
    exact ⟨fun r hr => by rwa [hr] at hwins, hwins.eq_none_iff⟩
  case resolved => rw [lookUp_of_ext_false (hrule ▸ hext), hrule]
  case tagged =>
    rw [hact, frame_resolveActions_of_deliver (some r) hadm]
    exact ⟨deliveryTag_mod hr, rfl⟩

end Sys2Proof.Machine
end

section
/-! PROOFS. Interrupt controllers (chapter 15): the fields of a source row, what a raise, a claim and a completion store
there, and the source that a claim selects. -/

namespace Sys2Proof.Machine

/-! ### The fields of a word -/

section Fields

variable {x lo n v i k m : Nat}

/-- A word with a field replaced: what stands above the field, the field, and what stands below it. -/
theorem putBits_eq (x lo n v : Nat) :
    putBits x lo n v = 2 ^ lo * (2 ^ n * (x / 2 ^ lo / 2 ^ n) + v % 2 ^ n) + x % 2 ^ lo := by
  have hfield : x / 2 ^ lo = 2 ^ n * (x / 2 ^ lo / 2 ^ n) + bits x lo n := by
    rw [bits, Nat.shiftRight_eq_div_pow, Nat.div_add_mod]
  have hx : x = 2 ^ lo * (2 ^ n * (x / 2 ^ lo / 2 ^ n)) + bits x lo n * 2 ^ lo + x % 2 ^ lo := by
    rw [Nat.mul_comm (bits x lo n), ← Nat.mul_add, ← hfield, Nat.div_add_mod]
  rw [putBits, Nat.mul_add, Nat.mul_comm (v % 2 ^ n)]
  omega

/-- A bit of a word with a field replaced: the new value's within the field, else as it was. -/
theorem testBit_putBits : (putBits x lo n v).testBit i =
    if lo ≤ i ∧ i < lo + n then v.testBit (i - lo) else x.testBit i := by
  rw [putBits_eq, Nat.testBit_two_pow_mul_add _ (Nat.mod_lt _ (Nat.two_pow_pos lo)),
    Nat.testBit_two_pow_mul_add _ (Nat.mod_lt _ (Nat.two_pow_pos n)), Nat.testBit_mod_two_pow,
    Nat.testBit_mod_two_pow, Nat.testBit_div_two_pow, Nat.testBit_div_two_pow]
  rcases Nat.lt_or_ge i lo with hlo | hlo
  · simp [hlo, Nat.not_le.2 hlo]
  · rcases Nat.lt_or_ge i (lo + n) with hn | hn
    · have : i - lo < n := by omega
      simp [hlo, hn, Nat.not_lt.2 hlo, this]
    · have hnot : ¬ i - lo < n := by omega
      have hat : i - lo - n + n + lo = i := by omega
      simp [Nat.not_lt.2 hlo, Nat.not_lt.2 hn, hnot, hat]

theorem testBit_bits : (bits x lo n).testBit i = (decide (i < n) && x.testBit (lo + i)) := by
  rw [bits, Nat.testBit_mod_two_pow, Nat.testBit_shiftRight]

theorem bits_putBits_same (hv : v < 2 ^ n) : bits (putBits x lo n v) lo n = v := by
  refine Nat.eq_of_testBit_eq fun i => ?_
  rw [testBit_bits, testBit_putBits]
  rcases Nat.lt_or_ge i n with hi | hi
  · simp [hi]
  · have : v.testBit i = false := Nat.testBit_lt_two_pow (hv.trans_le (Nat.pow_le_pow_right (by decide) hi))
    simp [Nat.not_lt.2 hi, this]

/-- A field that another field's replacement does not touch. -/
theorem bits_putBits_disjoint (h : k + m ≤ lo ∨ lo + n ≤ k) : bits (putBits x lo n v) k m = bits x k m := by
  refine Nat.eq_of_testBit_eq fun i => ?_
  rw [testBit_bits, testBit_bits, testBit_putBits]
  by_cases hi : i < m
  · rw [if_neg (by omega)]
  · simp [hi]

theorem bitOf_mod_two_pow (hi : i < m) : bitOf (x % 2 ^ m) i = bitOf x i := by
  simp [bitOf, Nat.testBit_mod_two_pow, hi]

theorem bits_mod_two_pow (h : lo + n ≤ m) : bits (x % 2 ^ m) lo n = bits x lo n := by
  refine Nat.eq_of_testBit_eq fun i => ?_
  rw [testBit_bits, testBit_bits, Nat.testBit_mod_two_pow]
  by_cases hi : i < n
  · have : lo + i < m := by omega
    simp [this]
  · simp [hi]

end Fields

/-! ### Source rows (R448, Table 15.1) -/

section Rows

variable {s t : State} {w n k v i lo len : Nat}

theorem srcRow_eq_of_tables_eq (h : t.tables = s.tables) (w n : Nat) : srcRow t w n = srcRow s w n := by
  simp [srcRow, rowWord, rowAt, h]

theorem srcRow_putSrc_same : srcRow (putSrc w n v s) w n = v % 2 ^ 24 := by
  simp [srcRow, rowWord, putSrc, word]

theorem srcRow_putSrc_ne (h : k ≠ n) : srcRow (putSrc w n v s) w k = srcRow s w k := by
  have hkey : rowKey 0x0C w k ≠ rowKey 0x0C w n := by simpa [rowKey] using h
  rw [srcRow, rowWord, putSrc, rowAt_putRow_ne _ _ _ _ _ _ _ _ hkey, srcRow, rowWord]

/-- A stored source row shows each of its 24 bits. -/
theorem bitOf_srcRow_putSrc (hi : i < 24) : bitOf (srcRow (putSrc w n v s) w n) i = bitOf v i := by
  rw [srcRow_putSrc_same, bitOf_mod_two_pow hi]

/-- A stored source row shows each field within its 24 bits. -/
theorem bits_srcRow_putSrc (h : lo + len ≤ 24) : bits (srcRow (putSrc w n v s) w n) lo len = bits v lo len := by
  rw [srcRow_putSrc_same, bits_mod_two_pow h]

end Rows

/-! ### Raising (R449) -/

section Raise

variable {s : State} {w n k : Nat}

theorem raise_disabled (h : bitOf (srcRow s w n) 23 = false) : raise w n s = s := by simp [raise, h]

/-- A raise below the top of COUNT adds 1 to COUNT and sets PEND. -/
theorem raise_counted (h : bitOf (srcRow s w n) 23 = true) (hc : bits (srcRow s w n) 0 4 < 15) :
    raise w n s =
      putSrc w n (putBits (putBits (srcRow s w n) 0 4 (bits (srcRow s w n) 0 4 + 1)) 6 1 1) s := by
  simp [raise, h, hc]

/-- A raise at the top of COUNT sets SAT and PEND. -/
theorem raise_saturated (h : bitOf (srcRow s w n) 23 = true) (hc : bits (srcRow s w n) 0 4 = 15) :
    raise w n s = putSrc w n (putBits (putBits (srcRow s w n) 5 1 1) 6 1 1) s := by
  simp [raise, h, hc]

/-- A raise stores a row of its own source or changes nothing. -/
theorem raise_cases (w n : Nat) (s : State) : raise w n s = s ∨ ∃ v, raise w n s = putSrc w n v s := by
  unfold raise
  dsimp only
  split
  · split
    · exact .inr ⟨_, rfl⟩
    · exact .inr ⟨_, rfl⟩
  · exact .inl rfl

theorem srcRow_raise_ne (h : k ≠ n) : srcRow (raise w n s) w k = srcRow s w k := by
  obtain hsame | ⟨v, hput⟩ := raise_cases w n s
  · rw [hsame]
  · rw [hput, srcRow_putSrc_ne h]

end Raise

/-! ### Claim (R452) -/

section Claim

variable {s t : State} {p : Path} {w n path : Nat}

/-- The first of the sources 1 to 62 that a predicate accepts is the lowest. -/
theorem find?_sources_eq_some {q : Nat → Bool} :
    sources.find? q = some n ↔ n ∈ sources ∧ q n = true ∧ ∀ k ∈ sources, k < n → q k = false := by
  simp only [sources, List.find?_map, Option.map_eq_some_iff, List.find?_range_eq_some, List.mem_map]
  constructor
  · rintro ⟨i, ⟨hq, hi, hbefore⟩, rfl⟩
    refine ⟨⟨i, hi, rfl⟩, hq, ?_⟩
    rintro _ ⟨j, -, rfl⟩ hj
    simpa using hbefore j (by omega)
  · rintro ⟨⟨i, hi, rfl⟩, hq, hbefore⟩
    have hi' := List.mem_range.1 hi
    exact ⟨i, ⟨hq, hi, fun j hj => by
      simpa using hbefore (j + 1) ⟨j, List.mem_range.2 (by omega), rfl⟩ (by omega)⟩, rfl⟩

/-- The row that a claim leaves: COUNT 0, PEND 0, ACTIVE 1. -/
def claimedRow (r : Nat) : Nat := putBits (putBits (putBits r 0 4 0) 6 1 0) 7 1 1

theorem claimedRow_active (r : Nat) : bitOf (claimedRow r) 7 = true := by simp [claimedRow, bitOf, testBit_putBits]

theorem claimedRow_pend (r : Nat) : bitOf (claimedRow r) 6 = false := by simp [claimedRow, bitOf, testBit_putBits]

theorem claimedRow_count (r : Nat) : bits (claimedRow r) 0 4 = 0 := by
  rw [claimedRow, bits_putBits_disjoint (by decide), bits_putBits_disjoint (by decide), bits_putBits_same (by decide)]

/-- The end of a presentation (R457) leaves the table rows and what the paths have claimed. -/
@[simp] theorem settle_tables : (settle w s).tables = s.tables := by unfold settle; split <;> rfl

@[simp] theorem settle_sinceClaim : (win (settle w s) w).sinceClaim = (win s w).sinceClaim := by
  unfold settle
  split <;> simp

/-- A claim that selects source n stores its claimed row and settles the claim's path (R452, R453, R457). -/
theorem claimEffect_of_claimable (h : claimable s w = some n) :
    claimEffect w path s =
      settle w (modWin w (fun x => { x with sinceClaim := x.sinceClaim &&& ~~~BitVec.ofNat 2 (2 ^ path) })
        (putSrc w n (claimedRow (srcRow s w n)) s)) := by
  simp [claimEffect, h, claimedRow]

theorem claimEffect_bus : (claimEffect w path s).bus = s.bus :=
  ((claimEffect_ev (m := 0x110) rfl (.refl s)).frame .bus).resolve_left (by decide)

theorem srcRow_claimEffect (h : claimable s w = some n) (k : Nat) :
    srcRow (claimEffect w path s) w k = srcRow (putSrc w n (claimedRow (srcRow s w n)) s) w k := by
  rw [claimEffect_of_claimable h]
  exact srcRow_eq_of_tables_eq (by simp) w k

theorem sinceClaim_claimEffect (h : claimable s w = some n) (hpath : path < 2) :
    (win (claimEffect w path s) w).sinceClaim.getLsbD path = false := by
  rw [claimEffect_of_claimable h, settle_sinceClaim, win_modWin_same, BitVec.getLsbD_and, BitVec.getLsbD_not,
    BitVec.getLsbD_ofNat, Nat.testBit_two_pow_self]
  simp [hpath]

theorem pathNo_lt_two (p : Path) : pathNo p < 2 := by cases p <;> simp [pathNo]

/-- What the window shows after a claim that selected source n through the path, seen from the state before it. -/
structure Claimed (s t : State) (w n path : Nat) : Prop where
  active : bitOf (srcRow t w n) 7 = true
  pend : bitOf (srcRow t w n) 6 = false
  count : bits (srcRow t w n) 0 4 = 0
  others : ∀ k, k ≠ n → srcRow t w k = srcRow s w k
  seen : (win t w).sinceClaim.getLsbD path = false

theorem claimed_claimEffect (h : claimable s w = some n) (hpath : path < 2) :
    Claimed s (claimEffect w path s) w n path where
  active := by rw [srcRow_claimEffect h, bitOf_srcRow_putSrc (by decide), claimedRow_active]
  pend := by rw [srcRow_claimEffect h, bitOf_srcRow_putSrc (by decide), claimedRow_pend]
  count := by rw [srcRow_claimEffect h, bits_srcRow_putSrc (by decide), claimedRow_count]
  others := fun k hk => by rw [srcRow_claimEffect h, srcRow_putSrc_ne hk]
  seen := sinceClaim_claimEffect h hpath

/-- The view depends on the table rows before the claim, and on the rows and the windows after it. -/
theorem Claimed.congr {s' t' : State} (h : Claimed s t w n path) (hs : s'.tables = s.tables)
    (ht : t'.tables = t.tables) (hw : t'.wins = t.wins) : Claimed s' t' w n path := by
  obtain ⟨hactive, hpend, hcount, hothers, hseen⟩ := h
  have hrow := srcRow_eq_of_tables_eq ht w
  refine ⟨by rwa [hrow], by rwa [hrow], by rwa [hrow], fun k hk => ?_, by rwa [win, hw]⟩
  rw [hrow, hothers k hk, srcRow_eq_of_tables_eq hs]

theorem readValue_claim (ho : winOpen s w = true) :
    readValue w path 0x14 s = word (claimValue s w (BitVec.ofNat 2 (2 ^ path))) := by
  simp [readValue, ho, groupAt]

theorem readEffect_claim (ho : winOpen s w = true) : readEffect w path 0x14 false s = claimEffect w path s := by
  simp [readEffect, ho, groupAt]

theorem claimValue_of_claimable {paths : BitVec 2} (h : claimable s w = some n) :
    claimValue s w paths = bits (srcRow s w n) 0 4 * 256 + n := by simp [claimValue, h]

/-- CLAIM on the control bus: the word is driven with the acknowledge, then the claim acts (R40, R452). -/
theorem exec_claim_cb {apar : Bool} {par : BitVec 3} (h : PerformsRead s (.cb apar par) 0x14)
    (hc : claimable s (pathWin s (.cb apar par)) = some n) :
    exec (.claim (.cb apar par) false) s = .next (claimEffect (pathWin s (.cb apar par)) 0
      (acknowledge (some (word (bits (srcRow s (pathWin s (.cb apar par)) n) 0 4 * 256 + n))) s)) := by
  obtain ⟨htap, hadm, hopen⟩ := h
  have hexec : exec (.claim (.cb apar par) false) s = .next (readAt {} .any (.cb apar par) 0x14 s) := live_next s _ htap
  have hgrant : s.bus.grant.getD 0 = pathWin s (.cb apar par) := rfl
  rw [hexec, readAt_cb (by decide) hadm, counterHit_false, hgrant, readValue_claim hopen, claimValue_of_claimable hc,
    readEffect_claim (s := acknowledge _ s) hopen]

/-- CLAIM through BAR0: the claim acts, and its completion carries the word (R99, R452). -/
theorem exec_claim_bar0 {t : Fin 4} {be : BitVec 4} (h : PerformsRead s (.bar0 t be) 0x14)
    (hc : claimable s (t + 1) = some n) :
    exec (.claim (.bar0 t be) false) s = .next (modLink t (fun l => { l with
        bar0 := some [BitVec.ofNat 32 (word (bits (srcRow s (t + 1) n) 0 4 * 256 + n)).toNat] })
      (claimEffect (t + 1) 1 s)) := by
  obtain ⟨htap, hadm, hopen⟩ := h
  have hopen : winOpen s (t + 1) = true := hopen
  have hexec : exec (.claim (.bar0 t be) false) s = .next (readAt {} .any (.bar0 t be) 0x14 s) := live_next s _ htap
  rw [hexec, readAt_bar0 (by decide) hadm, readValue_claim hopen, claimValue_of_claimable hc, readEffect_claim hopen]

/-- The word a claim of source n answers with, on its path. -/
def Answered (p : Path) (v : Word) (t : State) : Prop :=
  match p with
  | .cb _ _ => t.bus.dataOut = some (v, parOf v)
  | .bar0 k _ => (link t k).bar0 = some [BitVec.ofNat 32 v.toNat]

/-- CLAIM of the selected source on either path: its effect on the window and its answer. -/
theorem exec_claim (h : PerformsRead s p 0x14) (hc : claimable s (pathWin s p) = some n) :
    ∃ t, exec (.claim p false) s = .next t ∧ Claimed s t (pathWin s p) n (pathNo p)
      ∧ Answered p (word (bits (srcRow s (pathWin s p) n) 0 4 * 256 + n)) t := by
  cases p with
  | cb apar par =>
    refine ⟨_, exec_claim_cb h hc, ?_, ?_⟩
    · exact (claimed_claimEffect (s := acknowledge _ s) hc (pathNo_lt_two _)).congr rfl rfl rfl
    · rw [Answered, claimEffect_bus]
      rfl
  | bar0 t be =>
    refine ⟨_, exec_claim_bar0 h hc, ?_, ?_⟩
    · exact (claimed_claimEffect hc (pathNo_lt_two _)).congr rfl rfl rfl
    · rw [Answered, link_modLink_same]
      rfl

end Claim

/-! ### Completion (R454) -/

section Complete

variable {s : State} {p : Path} {w n : Nat}

/-- A condition is the same on the state that a write acts on. -/
@[simp] theorem written_cond (w n : Nat) : cond (written p s) w n = cond s w n := by cases p <;> rfl

/-- COMPLETE writes its source to the window's completion register. -/
theorem exec_completeSource {n : BitVec 6} (h : Performs s .any p 0x15 n.toNat) :
    exec (.completeSource p n) s = .next (completeEffect (pathWin s p) n.toNat (written p s)) := by
  have hn : bits (word n.toNat).toNat 0 6 = n.toNat := by
    have := n.isLt
    simp only [bits, word, BitVec.toNat_ofNat, Nat.shiftRight_zero]
    omega
  have hexec : exec (.completeSource p n) s = _ := live_writeAt (by decide) h
  rw [hexec, regWrite_complete, written_winOpen, if_pos h.2.2, hn]

/-- Completion of an active source: ACTIVE clears, and the source is raised again where it is enabled, in REPEND mode
and its condition holds. -/
theorem completeEffect_of_active (h1 : 1 ≤ n) (h62 : n ≤ 62) (ha : bitOf (srcRow s w n) 7 = true) :
    completeEffect w n s =
      if (bitOf (srcRow s w n) 23 && bitOf (srcRow s w n) 22 && cond s w n) = true then
        raise w n (putSrc w n (putBits (srcRow s w n) 7 1 0) s)
      else putSrc w n (putBits (srcRow s w n) 7 1 0) s := by
  have hne : ¬ (n = 0 ∨ n > 62 ∨ (!bitOf (srcRow s w n) 7) = true) := by
    rintro (h | h | h)
    · omega
    · omega
    · simp [ha] at h
  rw [completeEffect, if_neg hne]

end Complete

/-! ### The statement -/

/-- Settles O9: each event stores one source row; the rules of the row's fields say what it then shows. -/
theorem sourcesAreRaisedClaimedAndCompleted : Obligations.SourcesAreRaisedClaimedAndCompleted := by
  refine ⟨fun s w n _ _ => ⟨raise_disabled, fun hen _ hlt => ?counted, fun hen _ htop => ?saturated,
      fun k _ hk => srcRow_raise_ne hk⟩,
    fun s p w n hread hw hc _ => ?claim, fun s w n => find?_sources_eq_some,
    fun s p w n hwrite hw h1 h62 hactive => ⟨fun hidle => ?idle, fun hcond hen hmode => ?again⟩⟩
  case counted =>
    rw [raise_counted hen hlt, bitOf_srcRow_putSrc (by decide), bits_srcRow_putSrc (by decide),
      bits_putBits_disjoint (by decide), bits_putBits_same (by omega)]
    exact ⟨by simp [bitOf, testBit_putBits], rfl⟩
  case saturated =>
    rw [raise_saturated hen htop, bitOf_srcRow_putSrc (by decide), bitOf_srcRow_putSrc (by decide),
      bits_srcRow_putSrc (by decide), bits_putBits_disjoint (by decide), bits_putBits_disjoint (by decide)]
    exact ⟨by simp [bitOf, testBit_putBits], by simp [bitOf, testBit_putBits], htop⟩
  case claim =>
    subst hw
    obtain ⟨t, hexec, hclaimed, hanswer⟩ := exec_claim hread hc
    exact ⟨t, hexec, hclaimed.active, hclaimed.pend, hclaimed.count, fun k _ hk => hclaimed.others k hk,
      hclaimed.seen, by cases p <;> exact hanswer⟩
  case idle =>
    subst hw
    rw [exec_completeSource hwrite, completeEffect_of_active h1 h62 (by simpa using hactive), if_neg, written_srcRow]
    rcases hidle with h | h | h <;> simp [h]
  case again =>
    subst hw
    rw [exec_completeSource hwrite, completeEffect_of_active h1 h62 (by simpa using hactive), if_pos, written_srcRow]
    simp [hcond, hen, hmode]

end Sys2Proof.Machine
end

section
/-! PROOFS. Resets and start-up (chapter 19): what a device reset keeps, the non-volatile record as a release reads and
writes it, and what the start-up timeline and the close of its window leave. -/

namespace Sys2Proof.Machine

variable {s t u : State} {i : Nat}

/-! ### Commands -/

/-- The commands of the pins and the supplies act whether or not a TAP instruction is loaded (R585). -/
theorem exec_powerOn (s : State) : exec .powerOn s = .next (powerOnEffect s) := rfl

theorem exec_resetNAssert (n : Nat) (s : State) : exec (.resetNAssert n) s = .next (resetNAssertEffect n s) := rfl

theorem exec_resetNRelease (nv : NvRead) (wrote : Bool) (s : State) :
    exec (.resetNRelease ⟨nv, wrote⟩) s = .next (resetNReleaseEffect nv wrote s) := rfl

theorem exec_internalResetRelease (nv : NvRead) (s : State) :
    exec (.internalResetRelease nv) s = .next (internalResetReleaseEffect nv s) := rfl

theorem exec_supplyLoss (s : State) : exec .supplyLoss s = .next (supplyLossEffect s) := rfl

theorem exec_tapInstructionLoad (i : TapInstr) (bits : List Bool) (s : State) :
    exec (.tapInstructionLoad i bits) s = .next { s with tap := true, bsr := bits } := rfl

/-- The events of the start-up timeline are live. -/
theorem exec_pllLockTimeout (h : s.tap = false) : exec .pllLockTimeout s = .next (pllLockTimeoutEffect s) :=
  live_next s pllLockTimeoutEffect h

theorem exec_startupWindowClose (h : s.tap = false) : exec .startupWindowClose s = .next (startupWindowCloseEffect s) :=
  live_next s startupWindowCloseEffect h

/-! ### Supplies and RESET_N (R562, R565, R567) -/

theorem powerOnEffect_of_off (h : s.start.powered = false) :
    powerOnEffect s = { s with
      clk := 0, start := { s.start with powered := true, resetLow := true },
      power := { accLoad := true, nvNew := s.power.nvNew, nvOld := s.power.nvOld, lost := s.power.lost } } := by
  simp [powerOnEffect, h]

theorem powerOnEffect_of_powered (h : s.start.powered = true) : powerOnEffect s = s := by simp [powerOnEffect, h]

theorem resetNAssertEffect_short {n : Nat} (h : n < 1000) : resetNAssertEffect n s = s := by
  simp [resetNAssertEffect, h]

theorem resetNAssertEffect_between {n : Nat} (h1 : 1000 ≤ n) (h2 : n < 10000) (hp : s.start.powered = true)
    (hr : s.start.resetLow = false) :
    resetNAssertEffect n s = if freeNat s % 2 = 1 then pinReset (drawn s) else drawn s := by
  simp [resetNAssertEffect, hp, hr, Nat.not_lt.2 h1, Nat.not_le.2 h2]

theorem resetNAssertEffect_long {n : Nat} (h : 10000 ≤ n) (hp : s.start.powered = true)
    (hr : s.start.resetLow = false) :
    resetNAssertEffect n s = pinReset s := by
  have : ¬ n < 1000 := by omega
  simp [resetNAssertEffect, hp, hr, h, this]

/-- A family filtered by number reads as before at the numbers kept, and the default at the others. -/
theorem tget_filter_key {α : Type} (p : Nat → Bool) (m : Tab α) (a : Nat) (d : α) :
    tget (m.filter fun e => p e.1) a d = if p a then tget m a d else d := by
  induction m with
  | nil => simp [tget]
  | cons e rest ih =>
    obtain ⟨b, w⟩ := e
    by_cases hb : b = a
    · subst hb
      cases hp : p b <;> simp [hp, tget, ih]
    · cases hp : p b <;> simp [hp, tget, hb, ih]

/-- A device reset keeps the words of the parameters that R562 names, and returns the others to reset. -/
theorem pw_deviceReset (start : Start) (s : State) (id : Nat) :
    pw (deviceReset start s) id = if keptParam id then pw s id else pw State.reset id :=
  tget_filter_key keptParam s.params id (paramReset id)

/-! ### Status of the safety island and M_FAULT -/

/-- The safety island without the order of its fault log. -/
def safetyFlags (s : State) : Safety := { s.safety with logOrder := [] }

theorem safetyFlags_eq_of_safety_eq (h : t.safety = s.safety) : safetyFlags t = safetyFlags s := by
  rw [safetyFlags, h, safetyFlags]

theorem safe_eq_of_flags (h : safetyFlags t = safetyFlags s) : t.safety.safe = s.safety.safe :=
  (congrArg Safety.safe h :)

theorem scDone_eq_of_flags (h : safetyFlags t = safetyFlags s) : t.safety.scDone = s.safety.scDone :=
  (congrArg Safety.scDone h :)

@[simp] theorem safetyFlags_raise (w n : Nat) (s : State) : safetyFlags (raise w n s) = safetyFlags s := by
  obtain h | ⟨_, h⟩ := raise_cases w n s
  · rw [h]
  · rw [h]
    rfl

@[simp] theorem safetyFlags_logFault (kind cause tenant unit info addr : Nat) (safe : Bool) (s : State) :
    safetyFlags (logFault kind cause tenant unit info addr safe s) = safetyFlags s := by
  unfold logFault
  dsimp only
  split
  · rfl
  · split <;> rfl

@[simp] theorem safetyFlags_setMFault (cause a b info addr : Nat) (safe : Bool) (s : State) :
    safetyFlags (setMFault cause a b info addr safe s) = safetyFlags s := by
  unfold setMFault
  dsimp only
  rw [safetyFlags_logFault]
  have hdetail : ∀ d : Word, safetyFlags
      (if s.mgmt.fault = 0 then { s with mgmt := { s.mgmt with detail := d } } else s) = safetyFlags s := fun d => by
    split
    · rfl
    · rfl
  split
  · exact hdetail _
  · exact (safetyFlags_raise 0 1 _).trans (hdetail _)

theorem safetyFlags_lifeAlarmSet (s : State) :
    safetyFlags (lifeAlarmSet s) = { safetyFlags s with lifeAlarm := true } := by
  rw [lifeAlarmSet, safetyFlags_logFault, safetyFlags_raise]
  rfl

/-- A bit of M_SAFETY_STAT sets. -/
theorem safetyFlags_safetySets (was : Bool) (f : Safety → Safety) (s : State) :
    safetyFlags (safetySets was f s) = { f s.safety with logOrder := [] } := by
  cases was
  · exact safetyFlags_raise 0 2 _
  · rfl

theorem safetySets_mgmt (was : Bool) (f : Safety → Safety) (s : State) : (safetySets was f s).mgmt = s.mgmt :=
  ((safetySets_ev (m := 0x4000100) rfl (.refl s)).frame .mgmt).resolve_left (by decide)

/-- A failed test reports itself in M_FAULT.PERIODIC_TEST and TEST_FAIL (R544). -/
theorem reportTest_fault (c i : Nat) (s : State) : (reportTest c i s).mgmt.fault = s.mgmt.fault ||| 32 := by
  rw [reportTest, safetySets_mgmt, setMFault_fault]
  rfl

theorem safetyFlags_reportTest (c i : Nat) (s : State) :
    safetyFlags (reportTest c i s) = { safetyFlags s with testFail := true } := by
  rw [reportTest, safetyFlags_safetySets]
  exact congrArg (fun x : Safety => { x with testFail := true }) (safetyFlags_setMFault _ _ _ _ _ _ s)

/-! ### The non-volatile record (R524, R534, R536) -/

theorem pw_eq_of_params_eq (h : t.params = s.params) (id : Nat) : pw t id = pw s id := by rw [pw, h, pw]

theorem pw_setPw_same (id n : Nat) (s : State) : pw (setPw id n s) id = word n := tget_tput_same _ _ _ _

theorem pw_setPw_ne {id k : Nat} (h : k ≠ id) (n : Nat) (s : State) : pw (setPw id n s) k = pw s k :=
  tget_tput_ne _ _ _ _ _ h

/-- Every MON_SHIFT stored, that of monitor m with g m. -/
def setShifts (g : Nat → Nat) (s : State) : State := forAll 12 (fun m s => setPw (0x810002 + 256 * m) (g m) s) s

/-- The items of a family written in order: each reads its value, and every other item is left. -/
theorem pw_forAll_setPw (g : Nat → Nat) (n id : Nat) (s : State) :
    (∀ m < n, pw (forAll n (fun m s => setPw (0x810002 + 256 * m) (g m) s) s) (0x810002 + 256 * m) = word (g m))
    ∧ ((∀ m < n, id ≠ 0x810002 + 256 * m) →
        pw (forAll n (fun m s => setPw (0x810002 + 256 * m) (g m) s) s) id = pw s id) := by
  induction n with
  | zero => exact ⟨fun m hm => absurd hm (Nat.not_lt_zero m), fun _ => rfl⟩
  | succ n ih =>
    obtain ⟨hsame, hother⟩ := ih
    simp only [forAll, List.range_succ, List.foldl_append, List.foldl_cons, List.foldl_nil] at hsame hother ⊢
    refine ⟨fun m hm => ?_, fun hid => ?_⟩
    · rcases Nat.lt_succ_iff_lt_or_eq.1 hm with hlt | rfl
      · rw [pw_setPw_ne (by omega)]
        exact hsame m hlt
      · exact pw_setPw_same _ _ _
    · rw [pw_setPw_ne (hid n n.lt_succ_self)]
      exact hother fun m hm => hid m (Nat.lt_succ_of_lt hm)

theorem pw_setShifts_same (g : Nat → Nat) (s : State) {m : Nat} (hm : m < 12) :
    pw (setShifts g s) (0x810002 + 256 * m) = word (g m) := (pw_forAll_setPw g 12 0 s).1 m hm

theorem pw_setShifts_ne (g : Nat → Nat) (s : State) {id : Nat} (h : ∀ m < 12, id ≠ 0x810002 + 256 * m) :
    pw (setShifts g s) id = pw s id := (pw_forAll_setPw g 12 id s).2 h

theorem setShifts_ev (g : Nat → Nat) (s : State) : Evolves 0x80 s (setShifts g s) :=
  forAll_ev _ _ (fun _ _ h => setPw_ev rfl h) (.refl s)

@[simp] theorem setShifts_power (g : Nat → Nat) (s : State) : (setShifts g s).power = s.power :=
  ((setShifts_ev g s).frame .power).resolve_left (by decide)

/-- The parameters show POWER_CYCLES, LIFE_USED and the shifts given. -/
structure Shows (t : State) (cycles life : Word) (shifts : Nat → Word) : Prop where
  cycles : pw t 0x010006 = cycles
  life : pw t 0x810000 = life
  shifts : ∀ m < 12, pw t (0x810002 + 256 * m) = shifts m

theorem Shows.congr {c l : Word} {g : Nat → Word} (h : Shows s c l g) (hp : t.params = s.params) : Shows t c l g := by
  obtain ⟨hc, hl, hg⟩ := h
  have hpw := pw_eq_of_params_eq hp
  exact ⟨by rw [hpw, hc], by rw [hpw, hl], fun m hm => by rw [hpw, hg m hm]⟩

/-- The items of the record stored one by one. -/
theorem shows_stored (c l : Nat) (g : Nat → Nat) (s : State) :
    Shows (setShifts g (setPw 0x010006 c (setPw 0x810000 l s))) (word c) (word l) (fun m => word (g m)) where
  cycles := by rw [pw_setShifts_ne _ _ fun m _ => by omega, pw_setPw_same]
  life := by rw [pw_setShifts_ne _ _ fun m _ => by omega, pw_setPw_ne (by decide), pw_setPw_same]
  shifts _ hm := pw_setShifts_same _ _ hm

/-- POWER_CYCLES counts, and sticks at its top. -/
theorem Shows.bump {c l : Word} {g : Nat → Word} (h : Shows s c l g) :
    Shows (bumpParam 0x010006 1 s) (word (stick 24 c.toNat 1)) l g := by
  obtain ⟨hc, hl, hg⟩ := h
  refine ⟨?_, ?_, fun m hm => ?_⟩
  · rw [bumpParam, pw_setPw_same, pn, hc]
  · rw [bumpParam, pw_setPw_ne (by decide), hl]
  · rw [bumpParam, pw_setPw_ne (by omega), hg m hm]

/-- A loaded record shows in the parameters (R536). -/
theorem shows_recordLoad (n : NvRecord) (s : State) :
    Shows (recordLoad n s) n.cycles n.life (fun m => n.shifts.getD m 0) := by
  have h := shows_stored n.cycles.toNat n.life.toNat (fun m => (n.shifts.getD m 0).toNat) s
  simp only [word_toNat] at h
  exact h.congr rfl

theorem recordLoad_power (n : NvRecord) (s : State) :
    (recordLoad n s).power = { s.power with
      acc := if s.power.accLoad then s.power.acc + n.acc else s.power.acc, accLoad := false } := by
  exact congrArg
    (fun x : Power => { x with acc := if x.accLoad then x.acc + n.acc else x.acc, accLoad := false })
    (setShifts_power (fun m => (n.shifts.getD m 0).toNat)
      (setPw 0x010006 n.cycles.toNat (setPw 0x810000 n.life.toNat s)))

/-- With both copies lost, every reported value is at its top (R534). -/
theorem shows_recordLost (s : State) :
    Shows (recordLost s) (word 0xFFFFFF) (word 0xFFFFFF) (fun _ => word 0xFFFFFF) :=
  (shows_stored 0xFFFFFF 0xFFFFFF (fun _ => 0xFFFFFF) s).congr
    (((lifeAlarmSet_ev (m := 0x4000100) rfl (.refl _)).frame .params).resolve_left (by decide))

theorem recordLost_power (s : State) :
    (recordLost s).power = { s.power with acc := 0, accLoad := false, lost := true } := by
  have h : (recordLost s).power =
      { (setShifts (fun _ => 0xFFFFFF) (setPw 0x010006 0xFFFFFF (setPw 0x810000 0xFFFFFF s))).power with
        acc := 0, accLoad := false, lost := true } :=
    ((lifeAlarmSet_ev (m := 0x4000100) rfl (.refl _)).frame .power).resolve_left (by decide)
  rw [h, setShifts_power]
  rfl

theorem recordLost_lifeAlarm (s : State) : (safetyFlags (recordLost s)).lifeAlarm = true := by
  rw [recordLost, safetyFlags_lifeAlarmSet]

theorem recordRead_start (nv : NvRead) (s : State) : (recordRead nv s).start = s.start :=
  ((recordRead_ev (m := 0x14000180) rfl (.refl s)).frame .start).resolve_left (by decide)

/-- A valid copy read at a release: n shows, and is the copy written over next but one (R524, R536). -/
structure Loaded (s t : State) (n : NvRecord) : Prop where
  shows : Shows t n.cycles n.life (fun m => n.shifts.getD m 0)
  newer : t.power.nvNew = n
  acc : t.power.acc = if s.power.accLoad then s.power.acc + n.acc else s.power.acc
  accLoad : t.power.accLoad = false

theorem loaded_recordRead_newer (s : State) : Loaded s (recordRead .newer s) s.power.nvNew :=
  ⟨shows_recordLoad _ s, by rw [recordRead, recordLoad_power], by rw [recordRead, recordLoad_power],
    by rw [recordRead, recordLoad_power]⟩

theorem loaded_recordRead_older (s : State) : Loaded s (recordRead .older s) s.power.nvOld :=
  ⟨shows_recordLoad _ _, by rw [recordRead, recordLoad_power]; rfl, by rw [recordRead, recordLoad_power]; rfl,
    by rw [recordRead, recordLoad_power]⟩

theorem loaded_recordRead {nv : NvRead} {n : NvRecord}
    (h : (nv = .newer ∧ n = s.power.nvNew) ∨ (nv = .older ∧ n = s.power.nvOld)) : Loaded s (recordRead nv s) n := by
  obtain ⟨rfl, rfl⟩ | ⟨rfl, rfl⟩ := h
  · exact loaded_recordRead_newer s
  · exact loaded_recordRead_older s

/-! ### The record written (R524, R542) -/

theorem reportTest_params (c i : Nat) (s : State) : (reportTest c i s).params = s.params :=
  ((reportTest_ev (m := 0x4000120) rfl (.refl s)).frame .params).resolve_left (by decide)

theorem reportTest_power (c i : Nat) (s : State) : (reportTest c i s).power = s.power :=
  ((reportTest_ev (m := 0x4000120) rfl (.refl s)).frame .power).resolve_left (by decide)

/-- A copy that fails its test is reported by checker 44. -/
theorem recordWrite_false (s : State) : recordWrite false s = reportTest 44 0 (recordWrite true s) := rfl

theorem recordWrite_params (good : Bool) (s : State) : (recordWrite good s).params = s.params := by
  cases good
  · exact reportTest_params 44 0 _
  · rfl

theorem recordWrite_power (good : Bool) (s : State) :
    (recordWrite good s).power = { s.power with nvNew := nvRecord s, nvOld := s.power.nvNew } := by
  cases good
  · exact reportTest_power 44 0 _
  · rfl

theorem recordWrite_start (good : Bool) (s : State) : (recordWrite good s).start = s.start :=
  ((recordWrite_ev (m := 0x14000120) rfl (.refl s)).frame .start).resolve_left (by decide)

theorem recordWrite_lifeAlarm (good : Bool) (s : State) :
    (safetyFlags (recordWrite good s)).lifeAlarm = (safetyFlags s).lifeAlarm := by
  cases good
  · rw [recordWrite_false, safetyFlags_reportTest]
    rfl
  · rfl

theorem recordWrite_false_reports (s : State) :
    (recordWrite false s).mgmt.fault.getLsbD 5 = true ∧ (safetyFlags (recordWrite false s)).testFail = true := by
  rw [recordWrite_false, reportTest_fault, safetyFlags_reportTest, BitVec.getLsbD_or]
  simp

theorem nvRecord_congr (hp : t.params = s.params) (ha : t.power.acc = s.power.acc) : nvRecord t = nvRecord s := by
  simp only [nvRecord, pw_eq_of_params_eq hp, ha]

/-! ### The releases (R568, R570) -/

/-- An arbitration changes the control bus alone. -/
theorem arbitrate_eq_bus (s : State) : ∃ b, arbitrate s = { s with bus := b } := by
  obtain h | ⟨_, _, h⟩ := arbitrate_cases s
  · exact ⟨s.bus, h⟩
  · exact ⟨_, h⟩

/-- The state in which a release of RESET_N reads the record. -/
def released (s : State) : State := { s with start := { s.start with resetLow := false, releasedAt := s.clk } }

/-- The state in which the bus is arbitrated after a release of RESET_N. -/
def recorded (nv : NvRead) (wrote : Bool) (s : State) : State :=
  recordWrite wrote (bumpParam 0x010006 1 (recordRead nv (released s)))

theorem resetNReleaseEffect_of_low (nv : NvRead) (wrote : Bool) (hp : s.start.powered = true)
    (hr : s.start.resetLow = true) :
    ∃ b, resetNReleaseEffect nv wrote s = { recorded nv wrote s with bus := b } := by
  have h : resetNReleaseEffect nv wrote s = arbitrate (recorded nv wrote s) := by
    simp [resetNReleaseEffect, hp, hr, recorded, released]
  rw [h]
  exact arbitrate_eq_bus _

theorem recorded_start (nv : NvRead) (wrote : Bool) (s : State) :
    (recorded nv wrote s).start = { s.start with resetLow := false, releasedAt := s.clk } := by
  rw [recorded, recordWrite_start]
  exact recordRead_start nv (released s)

/-- The record read and counted is the newer copy, and the one that was newer is the older. -/
theorem recorded_power (nv : NvRead) (wrote : Bool) (s : State) :
    (recorded nv wrote s).power = { (recordRead nv (released s)).power with
      nvNew := nvRecord (recorded nv wrote s), nvOld := (recordRead nv (released s)).power.nvNew } := by
  have hpower := recordWrite_power wrote (bumpParam 0x010006 1 (recordRead nv (released s)))
  have hnv : nvRecord (recorded nv wrote s) = nvRecord (bumpParam 0x010006 1 (recordRead nv (released s))) :=
    nvRecord_congr (recordWrite_params _ _) (by rw [recorded, hpower])
  rw [hnv]
  exact hpower

theorem recorded_shows {c l : Word} {g : Nat → Word} {nv : NvRead} (wrote : Bool)
    (h : Shows (recordRead nv (released s)) c l g) :
    Shows (recorded nv wrote s) (word (stick 24 c.toNat 1)) l g :=
  h.bump.congr (recordWrite_params _ _)

theorem recorded_neither_lifeAlarm (wrote : Bool) (s : State) : (recorded .neither wrote s).safety.lifeAlarm = true :=
  (recordWrite_lifeAlarm wrote _).trans (recordLost_lifeAlarm (released s))

/-- INTERNAL_RESET_RELEASE in its time ends the reset and reads the record. -/
theorem internalResetReleaseEffect_of_due {since : Nat} (nv : NvRead) (h : s.start.internal = some since)
    (hdue : since + us 10 ≤ s.clk) :
    ∃ b, internalResetReleaseEffect nv s =
      { recordRead nv { s with start := { s.start with internal := none, releasedAt := s.clk } } with bus := b } := by
  simp only [internalResetReleaseEffect, h, waitUntil_past hdue]
  exact arbitrate_eq_bus _

/-! ### What a tenant reset's steps leave: whether a tenant is held in reset (R156, R158) -/

/-- The parts of State other than the tenants, the parameters and the safety island, as a mask: every bit but 7, 10 and
26. -/
def elsewhere : Nat := 0x1FBFFFB7F

/-- What tenant x itself says about its reset. -/
def resetBits (x : Tenant) : Bool × Bool × Bool := (x.enable, x.linkHold, x.inReset)

/-- From s to t nothing changes that a hold reads of the tenants, FENCE_SELF and the safety island. -/
structure HoldKept (s t : State) : Prop where
  bits : ∀ k, resetBits (ten t k) = resetBits (ten s k)
  fenceSelf : tget t.params 0xA00001 0 = tget s.params 0xA00001 0
  flags : safetyFlags t = safetyFlags s

theorem HoldKept.refl (s : State) : HoldKept s s := ⟨fun _ => rfl, rfl, rfl⟩

theorem HoldKept.trans (h : HoldKept s u) (k : HoldKept u t) : HoldKept s t :=
  ⟨fun i => (k.bits i).trans (h.bits i), k.fenceSelf.trans h.fenceSelf, k.flags.trans h.flags⟩

/-- A change of other parts alone. -/
theorem HoldKept.elsewhere (h : HoldKept s u) (k : Evolves elsewhere u t) : HoldKept s t := by
  have hten : t.tenants = u.tenants := (k.frame .tenants).resolve_left (by decide)
  have hpar : t.params = u.params := (k.frame .params).resolve_left (by decide)
  have hsafe : t.safety = u.safety := (k.frame .safety).resolve_left (by decide)
  exact h.trans ⟨fun i => by rw [ten, hten, ten], by rw [hpar], safetyFlags_eq_of_safety_eq hsafe⟩

theorem HoldKept.set_tenant (h : HoldKept s u) (t : Nat) {f : Tenant → Tenant}
    (hf : ∀ x, resetBits (f x) = resetBits x) : HoldKept s (modTen t f u) := by
  refine h.trans ⟨fun k => ?_, rfl, rfl⟩
  by_cases hk : k = t
  · rw [hk, ten_modTen_same, hf]
  · rw [ten_modTen_ne _ _ _ _ hk]

theorem HoldKept.set_ring (h : HoldKept s u) (t r : Nat) (f : Ring → Ring) : HoldKept s (modRing t r f u) :=
  h.set_tenant t fun _ => rfl

theorem holdKept_raise (w n : Nat) (s : State) : HoldKept s (raise w n s) :=
  (HoldKept.refl s).elsewhere (raise_ev rfl (.refl s))

theorem holdKept_forEach {α : Type} {f : α → State → State} (hf : ∀ x v, HoldKept v (f x v)) (l : List α) (s : State) :
    HoldKept s (forEach l f s) := by
  unfold forEach
  induction l generalizing s with
  | nil => exact .refl s
  | cons x xs ih => exact (hf x s).trans (ih _)

theorem holdKept_dropFetched (t r : Nat) (s : State) : HoldKept s (dropFetched t r s) :=
  ((((HoldKept.refl s).set_ring t r _).elsewhere (readDrop_ev rfl (.refl _))).set_ring t r _).elsewhere
    (voidCycles_ev rfl (.refl _))

theorem holdKept_dropRefs (t r : Nat) (s : State) : HoldKept s (dropRefs t r s) :=
  ((HoldKept.refl s).set_ring t r _).elsewhere
    (forEach_ev _ _ (fun _ _ h => countRing_ev rfl (release_ev rfl h)) (.refl _))

theorem holdKept_ringAbandon (t r : Nat) (s : State) : HoldKept s (ringAbandon t r s) := by
  unfold ringAbandon
  refine HoldKept.set_ring (.elsewhere ?_ (voidCycles_ev rfl (.refl _))) t r _
  refine .trans (.elsewhere ?_ (dropItems_ev rfl (countRing_ev rfl (.refl _)))) (holdKept_dropRefs t r _)
  exact ((holdKept_dropFetched t r s).elsewhere (readDrop_ev rfl (.refl _))).set_tenant t fun _ => rfl

theorem holdKept_logFault (kind cause tenant unit info addr : Nat) (safe : Bool) (s : State) :
    HoldKept s (logFault kind cause tenant unit info addr safe s) := by
  have hev := logFault_ev (m := 0x4000100) (kind := kind) (cause := cause) (tenant := tenant) (unit := unit)
    (info := info) (addr := addr) (safe := safe) rfl (.refl s)
  have hten := (hev.frame .tenants).resolve_left (by decide)
  have hpar := (hev.frame .params).resolve_left (by decide)
  exact ⟨fun k => congrArg (fun m => resetBits (tget m k {})) hten, congrArg (fun m => tget m 0xA00001 0) hpar,
    safetyFlags_logFault _ _ _ _ _ _ _ s⟩

theorem holdKept_frSettle (t : Nat) (s : State) : HoldKept s (frSettle t s) := by
  unfold frSettle
  split
  · exact (HoldKept.refl s).set_tenant t fun x => by split <;> rfl
  · exact .refl s

theorem holdKept_pushFail (t : Nat) (r : FaultRec) (s : State) : HoldKept s (pushFail t r s) := by
  have hfail : HoldKept s (modTen t (fun x => { x with
      detail := r.detail, fault := x.fault ||| 1, lost := stick 4 x.lost x.frWait.length,
      frPush := none, frWait := [] }) s) := (HoldKept.refl s).set_tenant t fun _ => rfl
  have hlog := (hfail.trans (holdKept_frSettle t _)).trans (holdKept_logFault 1 0 t (12 + t) 0 0 false _)
  unfold pushFail
  dsimp only
  split <;> split
  · exact hlog.trans (holdKept_raise _ _ _)
  · exact hlog
  · exact (hlog.trans (holdKept_raise _ _ _)).trans (holdKept_raise _ _ _)
  · exact hlog.trans (holdKept_raise _ _ _)

theorem holdKept_pushAbandon (t : Nat) (s : State) : HoldKept s (pushAbandon t s) := by
  unfold pushAbandon
  split
  · exact holdKept_pushFail t _ s
  · exact .refl s

/-- A parameter other than FENCE_SELF stored. -/
theorem HoldKept.set_param (h : HoldKept s u) {id : Nat} (hid : id ≠ 0xA00001) (n : Nat) :
    HoldKept s (setPw id n u) :=
  h.trans ⟨fun _ => rfl, tget_tput_ne _ _ _ _ _ hid.symm, rfl⟩

theorem holdKept_peak (s : State) : HoldKept s (peak s) := by
  refine holdKept_forEach (fun t v => ?_) (List.range 4) s
  dsimp only
  split
  · exact (HoldKept.refl v).set_param (by omega) _
  · exact .refl v

/-- A parameter item that tenant t's reset returns to its reset value (R156). -/
def returnedParam (t id : Nat) : Bool :=
  (decide (0x030002 + 256 * t ≤ id) && decide (id ≤ 0x030008 + 256 * t)) || id == 0x600000 + 256 * (t + 1)

theorem returnedParam_fenceSelf (t : Nat) : returnedParam t 0xA00001 = false := by
  simp only [returnedParam, Bool.or_eq_false_iff, Bool.and_eq_false_iff, decide_eq_false_iff_not, beq_eq_false_iff_ne]
  omega

theorem holdKept_tenantParams (t : Nat) (s : State) : HoldKept s (tenantParams t s) := by
  have hself := tget_filter_key (fun id => !returnedParam t id) s.params 0xA00001 0
  rw [returnedParam_fenceSelf] at hself
  have hreturn : HoldKept s { s with params := s.params.filter fun e => !returnedParam t e.1 } :=
    ⟨fun _ => rfl, hself, rfl⟩
  exact hreturn.trans (holdKept_peak _)

/-- Tenant x after the steps of its reset (R156). -/
def tenantStepped (x : Tenant) : Tenant :=
  { x with
    stepped := true, engineEn := false, ringSel := 0, rings := [], staging := [], turn := none, buckets := [],
    frIndex := 0, frPhase := true, frSeq := 0, frPush := none, frWait := [], frRestart := false }

theorem holdKept_tenantResetSteps (t : Nat) (s : State) : HoldKept s (tenantResetSteps t s) := by
  have hrings : HoldKept s (forEach (ten s t).rings (fun (r, _) s => ringAbandon t r s) (pushAbandon t s)) :=
    (holdKept_pushAbandon t s).trans (holdKept_forEach (fun ⟨r, _⟩ v => holdKept_ringAbandon t r v) _ _)
  have htables := hrings.elsewhere (clearTable_ev (table := 0x01) (inst := t) rfl
    (clearTable_ev (table := 0x0B) (inst := t) rfl (clearTable_ev (table := 0x0D) (inst := t) rfl
      (clearTable_ev (table := 0x0C) (inst := t + 1) rfl
        (windowReset_ev (w := t + 1) rfl (partitionReset_ev (t := t) rfl (.refl _)))))))
  have hten := (htables.trans (holdKept_tenantParams t _)).set_tenant t (f := tenantStepped) fun _ => rfl
  unfold tenantResetSteps
  dsimp only
  split
  · exact hten.elsewhere (modChan_ev rfl (modChan_ev rfl (.refl _)))
  · exact hten

/-! ### The end of a tenant reset (R156, R158) -/

/-- The state with the remaining steps of tenant t's reset performed. -/
def stepsDone (t : Nat) (s : State) : State := if (ten s t).stepped then s else tenantResetSteps t s

/-- Tenant x leaves its reset. -/
def leaveReset (x : Tenant) : Tenant :=
  { x with inReset := false, reset := false, selfReset := false, stopped := decide (x.fault ≠ 0) }

theorem holdKept_stepsDone (t : Nat) (s : State) : HoldKept s (stepsDone t s) := by
  unfold stepsDone
  split
  · exact .refl s
  · exact holdKept_tenantResetSteps t s

theorem stepsDone_ev (t : Nat) (s : State) : Evolves 0x4585590 s (stepsDone t s) := by
  unfold stepsDone
  split
  · exact .refl s
  · exact tenantResetSteps_ev rfl (.refl s)

/-- A hold of tenant k depends on its link, its own bits, the fences, the safe state and the start-up. -/
theorem tenantHeld_congr {k : Nat} (hlinks : t.links = s.links) (hfences : t.fences = s.fences)
    (hstart : t.start = s.start) (henable : (ten t k).enable = (ten s k).enable)
    (hlink : (ten t k).linkHold = (ten s k).linkHold)
    (hself : tget t.params 0xA00001 0 = tget s.params 0xA00001 0) (hsafe : t.safety.safe = s.safety.safe) :
    tenantHeld t k = tenantHeld s k := by
  simp only [tenantHeld, link, fenced, hlinks, hfences, hstart, henable, hlink, hself, hsafe]

theorem tenantHeld_stepsDone (t : Nat) (s : State) (k : Nat) : tenantHeld (stepsDone t s) k = tenantHeld s k := by
  obtain ⟨hbits, hself, hflags⟩ := holdKept_stepsDone t s
  have hev := stepsDone_ev t s
  exact tenantHeld_congr ((hev.frame .links).resolve_left (by decide)) ((hev.frame .fences).resolve_left (by decide))
    ((hev.frame .start).resolve_left (by decide)) (congrArg Prod.fst (hbits k))
    (congrArg (fun b => b.2.1) (hbits k)) hself (safe_eq_of_flags hflags)

theorem inReset_stepsDone (t : Nat) (s : State) (k : Nat) : (ten (stepsDone t s) k).inReset = (ten s k).inReset :=
  congrArg (fun b => b.2.2) ((holdKept_stepsDone t s).bits k)

/-- A reset that is in progress and not held ends. -/
theorem tenantResetEnd_of_free (hin : (ten s i).inReset = true) (hfree : tenantHeld s i = false) :
    tenantResetEnd i s = raise 0 (3 + i) (modTen i leaveReset (stepsDone i s)) := by
  have h : tenantHeld (stepsDone i s) i = false := by rw [tenantHeld_stepsDone, hfree]
  simp only [stepsDone] at h
  simp only [tenantResetEnd, hin, h, Bool.not_true, Bool.false_eq_true, if_false]
  rfl

/-- All that the end of a tenant reset can do. -/
theorem tenantResetEnd_cases (i : Nat) (s : State) : tenantResetEnd i s = s ∨ tenantResetEnd i s = stepsDone i s
    ∨ tenantResetEnd i s = raise 0 (3 + i) (modTen i leaveReset (stepsDone i s)) := by
  cases hin : (ten s i).inReset
  · exact .inl (by simp [tenantResetEnd, hin])
  · cases hheld : tenantHeld s i
    · exact .inr (.inr (tenantResetEnd_of_free hin hheld))
    · have h : tenantHeld (stepsDone i s) i = true := by rw [tenantHeld_stepsDone, hheld]
      simp only [stepsDone] at h
      exact .inr (.inl (by simp [tenantResetEnd, hin, h, stepsDone]))

theorem ten_raise (w n : Nat) (s : State) (k : Nat) : ten (raise w n s) k = ten s k := by
  obtain h | ⟨_, h⟩ := raise_cases w n s
  · rw [h]
  · rw [h]
    rfl

theorem tenantHeld_raise (w n : Nat) (s : State) (k : Nat) : tenantHeld (raise w n s) k = tenantHeld s k := by
  obtain h | ⟨_, h⟩ := raise_cases w n s
  · rw [h]
  · rw [h]
    rfl

theorem tenantHeld_leaveReset (i : Nat) (s : State) (k : Nat) :
    tenantHeld (modTen i leaveReset s) k = tenantHeld s k := by
  obtain ⟨henable, hlink⟩ : (ten (modTen i leaveReset s) k).enable = (ten s k).enable
      ∧ (ten (modTen i leaveReset s) k).linkHold = (ten s k).linkHold := by
    by_cases hk : k = i
    · rw [hk, ten_modTen_same]
      exact ⟨rfl, rfl⟩
    · rw [ten_modTen_ne _ _ _ _ hk]
      exact ⟨rfl, rfl⟩
  exact tenantHeld_congr rfl rfl rfl henable hlink rfl rfl

/-- The end of one reset leaves what holds every tenant. -/
theorem tenantHeld_tenantResetEnd (i : Nat) (s : State) (k : Nat) :
    tenantHeld (tenantResetEnd i s) k = tenantHeld s k := by
  obtain h | h | h := tenantResetEnd_cases i s
  · rw [h]
  · rw [h, tenantHeld_stepsDone]
  · rw [h, tenantHeld_raise, tenantHeld_leaveReset, tenantHeld_stepsDone]

/-- The end of one reset leaves the other tenants in or out of theirs. -/
theorem inReset_tenantResetEnd_ne (i : Nat) (s : State) {k : Nat} (hk : k ≠ i) :
    (ten (tenantResetEnd i s) k).inReset = (ten s k).inReset := by
  obtain h | h | h := tenantResetEnd_cases i s
  · rw [h]
  · rw [h, inReset_stepsDone]
  · rw [h, ten_raise, ten_modTen_ne _ _ _ _ hk, inReset_stepsDone]

theorem inReset_tenantResetEnd_same (hin : (ten s i).inReset = true) (hfree : tenantHeld s i = false) :
    (ten (tenantResetEnd i s) i).inReset = false := by
  rw [tenantResetEnd_of_free hin hfree, ten_raise, ten_modTen_same]
  rfl

theorem safetyFlags_tenantResetEnd (i : Nat) (s : State) : safetyFlags (tenantResetEnd i s) = safetyFlags s := by
  have hsteps := (holdKept_stepsDone i s).flags
  obtain h | h | h := tenantResetEnd_cases i s
  · rw [h]
  · rw [h, hsteps]
  · rw [h, safetyFlags_raise]
    exact hsteps

/-! ### The start-up window closes (R571 to R574) -/

/-- What one turn of a round over the numbers below n achieves, the other turns keeping what it needs and what it
achieves. -/
theorem forAll_achieves {f : Nat → State → State} {pre post : State → Prop} {n k : Nat} (hk : k < n)
    (hpre : ∀ i v, i ≠ k → pre v → pre (f i v)) (hturn : ∀ v, pre v → post (f k v))
    (hpost : ∀ i v, i ≠ k → post v → post (f i v)) (h : pre s) : post (forAll n f s) := by
  have hbefore : ∀ m ≤ k, pre (forAll m f s) := by
    intro m hm
    induction m with
    | zero => exact h
    | succ m ih =>
      rw [forAll, List.range_succ, List.foldl_append]
      exact hpre m _ (by omega) (ih (by omega))
  induction n with
  | zero => exact absurd hk k.not_lt_zero
  | succ n ih =>
    rw [forAll, List.range_succ, List.foldl_append]
    rcases Nat.lt_succ_iff_lt_or_eq.1 hk with hlt | rfl
    · exact hpost n _ (by omega) (ih hlt)
    · exact hturn _ (hbefore k le_rfl)

/-- The release of the held tenants ends the reset of each that nothing else holds. -/
theorem inReset_releaseTenants {held : Nat → Bool} {k : Nat} (hk : k < 4) (hheld : held k = true)
    (hin : (ten s k).inReset = true) (hfree : tenantHeld s k = false) :
    (ten (releaseTenants held s) k).inReset = false := by
  refine forAll_achieves (pre := fun v => (ten v k).inReset = true ∧ tenantHeld v k = false)
    (post := fun v => (ten v k).inReset = false) hk (fun i v hi ⟨hin, hfree⟩ => ?_) (fun v ⟨hin, hfree⟩ => ?_)
    (fun i v hi hout => ?_) ⟨hin, hfree⟩
  · split
    · exact ⟨by rw [inReset_tenantResetEnd_ne i v hi.symm, hin], by rw [tenantHeld_tenantResetEnd, hfree]⟩
    · exact ⟨hin, hfree⟩
  · rw [if_pos hheld]
    exact inReset_tenantResetEnd_same hin hfree
  · split
    · rw [inReset_tenantResetEnd_ne i v hi.symm, hout]
    · exact hout

/-- The state in which the close of the window releases the held tenants. -/
def windowClosed (s : State) : State := { s with start := { s.start with window := false } }

theorem startupWindowCloseEffect_of_due (hr : s.start.ready = true) (hw : s.start.window = true)
    (hdue : s.start.readyAt + ms 100 ≤ s.clk) : startupWindowCloseEffect s = closeWindow s := by
  simp [startupWindowCloseEffect, hr, hw, waitUntil_past hdue]

/-- In the device safe state the close of the window releases no tenant and starts no mount (R574). -/
theorem closeWindow_of_safe (hw : s.start.window = true) (hs : s.safety.safe = true) :
    closeWindow s = windowClosed s := by
  simp [closeWindow, hw, hs, windowClosed]

theorem closeWindow_of_not_safe (hw : s.start.window = true) (hs : s.safety.safe = false) :
    closeWindow s =
      releaseTenants (tenantHeld s) (modStore (fun x => { x with mountDue := true }) (windowClosed s)) := by
  simp [closeWindow, hw, hs, windowClosed]

theorem releaseTenants_start (held : Nat → Bool) (s : State) : (releaseTenants held s).start = s.start :=
  ((releaseTenants_ev (m := 0x4585590) rfl (.refl s)).frame .start).resolve_left (by decide)

theorem releaseTenants_store (held : Nat → Bool) (s : State) : (releaseTenants held s).store = s.store :=
  ((releaseTenants_ev (m := 0x4585590) rfl (.refl s)).frame .store).resolve_left (by decide)

theorem closeWindow_window (hw : s.start.window = true) : (closeWindow s).start.window = false := by
  cases hs : s.safety.safe
  · rw [closeWindow_of_not_safe hw hs, releaseTenants_start]
    rfl
  · rw [closeWindow_of_safe hw hs]
    rfl

theorem closeWindow_mountDue (hw : s.start.window = true) (hs : s.safety.safe = false) :
    (closeWindow s).store.mountDue = true := by
  rw [closeWindow_of_not_safe hw hs, releaseTenants_store]
  rfl

/-- A tenant that only the window held leaves its reset as the window closes (R572). -/
theorem closeWindow_inReset {k : Nat} (hw : s.start.window = true) (hs : s.safety.safe = false) (hk : k < 4)
    (hin : (ten s k).inReset = true) (hheld : tenantHeld s k = true) (hfree : tenantHeld (windowClosed s) k = false) :
    (ten (closeWindow s) k).inReset = false := by
  rw [closeWindow_of_not_safe hw hs]
  exact inReset_releaseTenants hk hheld hin hfree

/-! ### Entry into the device safe state (R548, R549) -/

/-- The parts that the build of a page may change where its buffer is free of errors, as a mask: parameters, tables,
frames, ports, counters and the store. -/
def buildParts : Nat := 0x2085180

/-- With no error in the Glade, building a record leaves M_FAULT and the safety island. -/
theorem buildItem_none_ev (k : Nat) (s : State) : Evolves buildParts s (buildItem k .none s).1 := by
  have hgap : Evolves buildParts s (if (stream s k).wait.any WaitItem.isFrame then s
      else if (stream s k).wait = [] then s else closeGap k s) :=
    .ite (.refl s) (.ite (.refl s) (closeGap_ev rfl (.refl s)))
  unfold buildItem
  dsimp only
  generalize (if (stream s k).wait.any WaitItem.isFrame then s
      else if (stream s k).wait = [] then s else closeGap k s) = v at hgap ⊢
  refine .ite_fst hgap ?_
  split
  · exact hgap
  · split
    · contradiction
    · contradiction
    · split
      · exact needSeg_ev rfl hgap
      · refine .ite_fst (closeSeg_ev rfl hgap) ?_
        split <;> dsimp only
        · refine perfAdd_ev rfl (release_ev rfl (modStore_ev rfl (fun _ => ⟨rfl, rfl, rfl⟩) (modStream_ev rfl ?_)))
          exact modStore_ev rfl (fun _ => ⟨rfl, rfl, rfl⟩) (modSeg_ev rfl hgap)
        · refine perfAdd_ev rfl (modStream_ev rfl ?_)
          exact modStore_ev rfl (fun _ => ⟨rfl, rfl, rfl⟩) (modSeg_ev rfl hgap)

theorem buildLoop_none_ev (k : Nat) (all : Bool) (fuel : Nat) (s : State) :
    Evolves buildParts s (buildLoop k all .none fuel s) := by
  induction fuel generalizing s with
  | zero => exact .refl s
  | succ fuel ih =>
    have hitem := buildItem_none_ev k s
    unfold buildLoop
    split
    · next h => exact hitem.fst h
    · next h =>
      split
      · exact hitem.fst h
      · exact (hitem.fst h).trans (ih _)

theorem settleStream_buildParts (k : Nat) (s : State) : Evolves buildParts s (settleStream k s) := by
  unfold settleStream
  dsimp only
  exact closeSeg_ev rfl (.ite (buildLoop_none_ev k true _ s) (.ite (dropWaiting_ev rfl (.refl s)) (.refl s)))

/-- A suspend at once leaves M_FAULT and the safety island. -/
theorem suspendNow_buildParts (s : State) : Evolves buildParts s (suspendNow s) := by
  unfold suspendNow
  refine .ite (.refl s) (modStore_ev rfl (fun _ => ⟨rfl, rfl, rfl⟩) (suspended_ev rfl (flushPages_ev rfl ?_)))
  exact forEach_ev _ _ (fun _ v h => h.trans (settleStream_buildParts _ v)) (.refl s)

theorem safetyFlags_of_evolves {m : Nat} (h : Evolves m s t) (hm : m.testBit 26 = false := by decide) :
    safetyFlags t = safetyFlags s :=
  safetyFlags_eq_of_safety_eq ((h.frame .safety).resolve_left (ne_true_of_eq_false hm))

theorem safetyFlags_tenantResetStart (t : Nat) (s : State) : safetyFlags (tenantResetStart t s) = safetyFlags s := by
  unfold tenantResetStart
  dsimp only
  split
  · rfl
  · rw [safetyFlags_of_evolves (m := 0x48d700) (breakLocks_ev rfl (modTen_ev rfl (orphanFrames_ev rfl
      (forEach_ev _ _ (fun _ _ h => ringAbandon_ev rfl h) (.refl _))))), (holdKept_pushAbandon t _).flags,
      safetyFlags_of_evolves (m := 0x100100) (abortPair_ev rfl (.refl _))]
    rfl

theorem safetyFlags_forAll {f : Nat → State → State} (hf : ∀ i v, safetyFlags (f i v) = safetyFlags v) (n : Nat)
    (s : State) : safetyFlags (forAll n f s) = safetyFlags s := by
  induction n with
  | zero => rfl
  | succ n ih =>
    rw [forAll, List.range_succ, List.foldl_append]
    exact (hf n _).trans ih

/-- The state in which the entry into the safe state begins its actions. -/
def safeEntered (s : State) : State :=
  { s with safety := { s.safety with safe := true, dog := none }, start := { s.start with faultN := true } }

/-- The actions of the entry after that: the wires are cut, every tenant reset begins, every channel ends and the store
suspends (R549). -/
def safeActions (s : State) : State :=
  suspendNow (abortAll (forAll 4 (fun t s => tenantResetStart t s) (forAll 32 (fun p s => cutWire p s) s)))

theorem enterSafe_of_not_safe (h : s.safety.safe = false) : enterSafe s = safeActions (safeEntered s) := by
  simp [enterSafe, h, safeActions, safeEntered]

theorem enterSafe_of_safe (h : s.safety.safe = true) : enterSafe s = s := by simp [enterSafe, h]

theorem safetyFlags_safeActions (s : State) : safetyFlags (safeActions s) = safetyFlags s := by
  rw [safeActions, safetyFlags_of_evolves (suspendNow_buildParts _),
    safetyFlags_of_evolves (m := 0x100100) (abortAll_ev rfl (.refl _)),
    safetyFlags_forAll safetyFlags_tenantResetStart,
    safetyFlags_of_evolves (m := 0x484d00) (forAll_ev _ _ (fun _ _ h => cutWire_ev rfl h) (.refl _))]

theorem safeActions_ev (s : State) : Evolves 0x6585f80 s (safeActions s) :=
  (abortAll_ev rfl (forAll_ev _ _ (fun _ _ h => tenantResetStart_ev rfl h)
    (forAll_ev _ _ (fun _ _ h => cutWire_ev rfl h) (.refl s)))).trans ((suspendNow_buildParts _).mono rfl)

theorem enterSafe_mgmt (s : State) : (enterSafe s).mgmt = s.mgmt := by
  cases h : s.safety.safe
  · rw [enterSafe_of_not_safe h]
    exact ((safeActions_ev _).frame .mgmt).resolve_left (by decide)
  · rw [enterSafe_of_safe h]

theorem enterSafe_start (s : State) :
    (enterSafe s).start = if s.safety.safe then s.start else { s.start with faultN := true } := by
  cases h : s.safety.safe
  · rw [enterSafe_of_not_safe h]
    exact ((safeActions_ev _).frame .start).resolve_left (by decide)
  · rw [enterSafe_of_safe h]
    rfl

theorem enterSafe_safe (s : State) : (enterSafe s).safety.safe = true := by
  cases h : s.safety.safe
  · rw [enterSafe_of_not_safe h, safe_eq_of_flags (safetyFlags_safeActions _)]
    rfl
  · rw [enterSafe_of_safe h, h]

theorem enterSafe_scDone (s : State) : (enterSafe s).safety.scDone = s.safety.scDone := by
  cases h : s.safety.safe
  · rw [enterSafe_of_not_safe h, scDone_eq_of_flags (safetyFlags_safeActions _)]
    rfl
  · rw [enterSafe_of_safe h]

/-! ### READY (R570, R578) -/

/-- The state with READY set. -/
def readied (s : State) : State :=
  { s with start := { s.start with ready := true, readyAt := if s.power.waking then s.start.readyAt else s.clk } }

/-- All that READY's setting can do. -/
theorem becomeReady_cases (s : State) :
    (becomeReady s = s ∧ (s.start.ready ∨ !s.start.memInit ∨ !(s.start.checked || s.start.pllFailed)))
    ∨ becomeReady s = readied s ∨ becomeReady s = wakeExit (readied s) := by
  rw [show becomeReady s = if s.start.ready ∨ !s.start.memInit ∨ !(s.start.checked || s.start.pllFailed) then s
      else if s.power.waking then wakeExit (readied s) else readied s from rfl]
  split
  · next hbar => exact .inl ⟨rfl, hbar⟩
  · split
    · exact .inr (.inr rfl)
    · exact .inr (.inl rfl)

theorem safetyFlags_wakeExit (s : State) : safetyFlags (wakeExit s) = safetyFlags s := by
  have hlane : ∀ q v, safetyFlags (laneReview q v) = safetyFlags v := fun q v =>
    safetyFlags_of_evolves (m := 0x485d00) (laneReview_ev rfl (.refl v))
  have htrim : ∀ v, safetyFlags (trimApply v) = safetyFlags v := fun v =>
    safetyFlags_of_evolves (m := 0x48dd00) (trimApply_ev rfl (.refl v))
  have hslept : safetyFlags (sleepCounted s) = safetyFlags s :=
    safetyFlags_of_evolves (m := 0x2000000) (sleepCounted_ev rfl (.refl s))
  rw [wakeExit, safetyFlags_forAll hlane, safetyFlags_forAll safetyFlags_tenantResetEnd, safetyFlags_raise, htrim]
  exact hslept

theorem wakeExit_start (s : State) : (wakeExit s).start = s.start :=
  ((wakeExit_ev (m := 0x1658dd90) rfl (.refl s)).frame .start).resolve_left (by decide)

theorem safetyFlags_becomeReady (s : State) : safetyFlags (becomeReady s) = safetyFlags s := by
  obtain ⟨h, -⟩ | h | h := becomeReady_cases s
  · rw [h]
  · rw [h]
    rfl
  · rw [h, safetyFlags_wakeExit]
    rfl

theorem becomeReady_mgmt (s : State) : (becomeReady s).mgmt = s.mgmt :=
  ((becomeReady_ev (m := 0x3658dd90) rfl (.refl s)).frame .mgmt).resolve_left (by decide)

/-- READY sets nothing else of the start-up but its own instant. -/
theorem becomeReady_pllFailed (s : State) : (becomeReady s).start.pllFailed = s.start.pllFailed := by
  obtain ⟨h, -⟩ | h | h := becomeReady_cases s
  · rw [h]
  · rw [h]
    rfl
  · rw [h, wakeExit_start]
    rfl

/-- READY sets with memory initialised once the PLL has failed (R578). -/
theorem becomeReady_ready (hm : s.start.memInit = true) (hp : s.start.pllFailed = true) :
    (becomeReady s).start.ready = true := by
  obtain ⟨h, hbar⟩ | h | h := becomeReady_cases s
  · rw [h]
    simpa [hm, hp] using hbar
  · rw [h]
    rfl
  · rw [h, wakeExit_start]
    rfl

/-- The state in which the PLL's failure enters the device safe state. -/
def pllFailing (s : State) : State := { s with start := { s.start with pllFailed := true } }

theorem pllLockTimeoutEffect_of_due (hl : s.time.pll = false) (hf : s.start.pllFailed = false) (hr : running s = true)
    (hdue : s.start.releasedAt + ms 5 ≤ s.clk) :
    pllLockTimeoutEffect s = becomeReady (safeFault 6 1 31 0 0 (pllFailing s)) := by
  simp [pllLockTimeoutEffect, hl, hf, hr, waitUntil_past hdue, pllFailing]

/-- A cause that leads to the device safe state sets its bit of M_FAULT (R548). -/
theorem safeFault_fault (cause a b info addr : Nat) (s : State) :
    (safeFault cause a b info addr s).mgmt.fault = s.mgmt.fault ||| BitVec.ofNat 12 (2 ^ cause) := by
  rw [safeFault, enterSafe_mgmt, setMFault_fault]

theorem safeFault_safe (cause a b info addr : Nat) (s : State) :
    (safeFault cause a b info addr s).safety.safe = true := enterSafe_safe _

theorem safeFault_scDone (cause a b info addr : Nat) (s : State) :
    (safeFault cause a b info addr s).safety.scDone = s.safety.scDone :=
  (enterSafe_scDone _).trans (scDone_eq_of_flags (safetyFlags_setMFault _ _ _ _ _ _ s))

theorem setMFault_start (cause a b info addr : Nat) (safe : Bool) (s : State) :
    (setMFault cause a b info addr safe s).start = s.start :=
  ((setMFault_ev (m := 0x4000120) rfl (.refl s)).frame .start).resolve_left (by decide)

/-- The entry into the device safe state drives FAULT_N, and leaves the rest of the start-up. -/
theorem safeFault_start (cause a b info addr : Nat) (s : State) :
    ∃ low, (safeFault cause a b info addr s).start = { s.start with faultN := low } := by
  rw [safeFault, enterSafe_start, setMFault_start]
  split
  · exact ⟨s.start.faultN, rfl⟩
  · exact ⟨true, rfl⟩

/-! ### The statement -/

/-- Settles O39: the record's clauses by what a release reads and writes, the timeline's by what the safe state, READY
and the close of the window leave. -/
theorem resetsAndStartUp : Obligations.ResetsAndStartUp := by
  refine ⟨fun s hoff => ⟨_, exec_powerOn s, ?powerOn⟩, fun s hp => ?powered, fun s n hn => ?short,
    fun s n h1 h2 hp hr => ⟨_, exec_resetNAssert n s, ?between⟩, fun s n hn hp hr => ⟨_, exec_resetNAssert n s, ?long⟩,
    fun s hp hr => ⟨fun nv n wrote hn => ⟨_, exec_resetNRelease nv wrote s, ?found⟩,
      fun wrote => ⟨_, exec_resetNRelease .neither wrote s, ?lost⟩⟩,
    fun s since nv hi hdue => ⟨_, exec_internalResetRelease nv s, ?internal⟩,
    fun s => ⟨_, exec_supplyLoss s, rfl, rfl, rfl, rfl, rfl, rfl, rfl⟩,
    fun s htap hl hf hr hdue => ⟨_, exec_pllLockTimeout htap, ?pll⟩,
    fun s htap hr hw hdue => ⟨_, exec_startupWindowClose htap, ?window⟩,
    fun s i bits => exec_tapInstructionLoad i bits s⟩
  case powerOn =>
    rw [powerOnEffect_of_off hoff]
    exact ⟨rfl, rfl, rfl, rfl, rfl, rfl, rfl⟩
  case powered => rw [exec_powerOn, powerOnEffect_of_powered hp]
  case short => rw [exec_resetNAssert, resetNAssertEffect_short hn]
  case between =>
    rw [resetNAssertEffect_between h1 h2 hp hr]
    exact ite_eq_or_eq _ _ _
  case long =>
    rw [resetNAssertEffect_long hn hp hr]
    exact ⟨rfl, rfl, rfl, rfl, rfl, rfl, rfl, rfl, rfl, rfl, rfl, rfl, pw_deviceReset _ s⟩
  case found =>
    obtain ⟨b, heffect⟩ := resetNReleaseEffect_of_low nv wrote hp hr
    obtain ⟨hshows, hnewer, hacc, haccLoad⟩ := loaded_recordRead (s := released s) hn
    obtain ⟨hcycles, hlife, hshifts⟩ := recorded_shows wrote hshows
    have hstart := recorded_start nv wrote s
    have hpower := recorded_power nv wrote s
    rw [heffect]
    refine ⟨congrArg Start.resetLow hstart, congrArg Start.releasedAt hstart, ?_, ?_, hcycles, hlife, hshifts,
      congrArg Power.nvNew hpower, ?_, ?_⟩
    · exact (congrArg Power.acc hpower).trans hacc
    · exact (congrArg Power.accLoad hpower).trans haccLoad
    · exact (congrArg Power.nvOld hpower).trans hnewer
    · rintro rfl
      exact recordWrite_false_reports _
  case lost =>
    obtain ⟨b, heffect⟩ := resetNReleaseEffect_of_low .neither wrote hp hr
    obtain ⟨hcycles, hlife, hshifts⟩ := recorded_shows (nv := .neither) wrote (shows_recordLost (released s))
    have hstart := recorded_start .neither wrote s
    have hpower := recorded_power .neither wrote s
    have hlost := recordLost_power (released s)
    rw [heffect]
    refine ⟨congrArg Start.resetLow hstart, ?_, congrArg BitVec.toNat hcycles, congrArg BitVec.toNat hlife,
      recorded_neither_lifeAlarm wrote s, fun m hm => congrArg BitVec.toNat (hshifts m hm), ?_,
      congrArg Power.nvNew hpower⟩
    · exact (congrArg Power.lost hpower).trans (congrArg Power.lost hlost)
    · exact (congrArg Power.acc hpower).trans (congrArg Power.acc hlost)
  case internal =>
    obtain ⟨b, heffect⟩ := internalResetReleaseEffect_of_due nv hi hdue
    rw [heffect]
    refine ⟨congrArg Start.internal (recordRead_start nv _), congrArg Start.releasedAt (recordRead_start nv _), ?_⟩
    rintro rfl
    obtain ⟨hcycles, hlife, -⟩ := (loaded_recordRead_newer
      { s with start := { s.start with internal := none, releasedAt := s.clk } }).shows
    exact ⟨hcycles, hlife⟩
  case pll =>
    rw [pllLockTimeoutEffect_of_due hl hf hr hdue]
    obtain ⟨low, hstart⟩ := safeFault_start 6 1 31 0 0 (pllFailing s)
    have hflags := safetyFlags_becomeReady (safeFault 6 1 31 0 0 (pllFailing s))
    refine ⟨?_, (safe_eq_of_flags hflags).trans (safeFault_safe _ _ _ _ _ _), ?_,
      (scDone_eq_of_flags hflags).trans (safeFault_scDone _ _ _ _ _ _), fun hm => becomeReady_ready ?_ ?_⟩
    · rw [becomeReady_pllFailed, hstart]
      rfl
    · rw [becomeReady_mgmt, safeFault_fault, BitVec.getLsbD_or]
      simp
    · rw [hstart]
      exact hm
    · rw [hstart]
      rfl
  case window =>
    rw [startupWindowCloseEffect_of_due hr hw hdue]
    exact ⟨closeWindow_window hw, closeWindow_mountDue hw, fun k hk hs hin hheld hfree =>
      closeWindow_inReset hw hs hk hin hheld hfree⟩

end Sys2Proof.Machine
end

section
/-! PROOFS. The block as a whole: every command evolves the state within its footprint, and every step within the footprint of
the command at the front, or of the tick. -/

namespace Sys2Proof.Machine

variable {s t : State}

/-- What evolves within some parts but the queue evolves within them all. -/
theorem Evolves.everyPart {m : Nat} (h : Evolves m s t) (hm : Within m (mask Machine.everyPart)) :
    Evolves (mask Machine.everyPart) s t :=
  h.mono hm

/-- What a step does: it leaves some of the queue, and changes what one footprint names. -/
inductive Stepped (s t : State) : Prop
  | within (m : Nat) (rest : List Instr) (h : Evolves m { s with pending := rest } t)

/-- What every command does: its footprint and the promises that hold across commands. -/
theorem exec_evolves (c : Instr) (h : exec c s = .next t) : Evolves (mask (footprint c)) s t := by
  cases c with
  | cbRequest => exact execCbRequest_ev h
  | cbRequestRelease => exact execCbRequestRelease_ev h
  | tenureLimit => exact execTenureLimit_ev h
  | heldStrobe => exact execHeldStrobe_ev h
  | cbReqHoldoffEnd => exact execCbReqHoldoffEnd_ev h
  | cbJam => exact execCbJam_ev h
  | registerWrite => exact (execRegisterWrite_ev h).everyPart (by decide)
  | anchorRead => exact execAnchorRead_ev h
  | anchorWrite => exact execAnchorWrite_ev h
  | nonAnchorWrite => exact execNonAnchorWrite_ev h
  | tblDataAccess => exact execTblDataAccess_ev h
  | paramRead => exact execParamRead_ev h
  | paramWrite => exact execParamWrite_ev h
  | paramReservedOp => exact execParamReservedOp_ev h
  | paramOpEnd => exact execParamOpEnd_ev h
  | tableRowRead => exact execTableRowRead_ev h
  | tableRowWrite => exact execTableRowWrite_ev h
  | tableRowZero => exact execTableRowZero_ev h
  | tableOpEnd => exact execTableOpEnd_ev h
  | claim => exact execClaim_ev h
  | completeSource => exact execCompleteSource_ev h
  | devReset => exact (execDevReset_ev h).everyPart (by decide)
  | mgmtReset => exact (execMgmtReset_ev h).everyPart (by decide)
  | mgmtResetEnd => exact execMgmtResetEnd_ev h
  | trimEntry => exact (execTrimEntry_ev h).everyPart (by decide)
  | trimExit => exact (execTrimExit_ev h).everyPart (by decide)
  | depotSleep => exact (execDepotSleep_ev h).everyPart (by decide)
  | lockAcquire => exact execLockAcquire_ev h
  | lockRelease => exact execLockRelease_ev h
  | clearBroken => exact execClearBroken_ev h
  | captureNow => exact execCaptureNow_ev h
  | lastEvtIn0 => exact execLastEvtIn0_ev h
  | lastEvtIn1 => exact execLastEvtIn1_ev h
  | lastPpsIn => exact execLastPpsIn_ev h
  | timeSet => exact execTimeSet_ev h
  | stepForward => exact execStepForward_ev h
  | stepBack => exact execStepBack_ev h
  | timeCmdEnd => exact execTimeCmdEnd_ev h
  | xferStart => exact execXferStart_ev h
  | xferPause => exact execXferPause_ev h
  | xferDrainEnd => exact execXferDrainEnd_ev h
  | xferResume => exact execXferResume_ev h
  | xferAbort => exact execXferAbort_ev h
  | xferPacedBurst => exact execXferPacedBurst_ev h
  | xferReadEnd => exact execXferReadEnd_ev h
  | xferReadTimeout => exact execXferReadTimeout_ev h
  | xferChannelEnd => exact execXferChannelEnd_ev h
  | canopyClean => exact execCanopyClean_ev h
  | canopyInvalidate => exact execCanopyInvalidate_ev h
  | canopyCleanAndInvalidate => exact execCanopyCleanAndInvalidate_ev h
  | canopyOpEnd => exact execCanopyOpEnd_ev h
  | canopyFillEnd => exact execCanopyFillEnd_ev h
  | scratchWayConversionEnd => exact execScratchWayConversionEnd_ev h
  | forceFault => exact execForceFault_ev h
  | tenantReset => exact execTenantReset_ev h
  | tenantHold => exact execTenantHold_ev h
  | tenantRelease => exact execTenantRelease_ev h
  | tTenantReset => exact execTTenantReset_ev h
  | tenantResetEnd => exact execTenantResetEnd_ev h
  | tFaultClear => exact execTFaultClear_ev h
  | engineEnable => exact execEngineEnable_ev h
  | joinPair => exact execJoinPair_ev h
  | plannedSwitchover => exact execPlannedSwitchover_ev h
  | leaveToSolo => exact execLeaveToSolo_ev h
  | clearAlarm => exact execClearAlarm_ev h
  | serviceWatchdog => exact execServiceWatchdog_ev h
  | enterSafeState => exact execEnterSafeState_ev h
  | storeFormat => exact execStoreFormat_ev h
  | storeAdopt => exact execStoreAdopt_ev h
  | eventLock => exact execEventLock_ev h
  | streamOnline => exact execStreamOnline_ev h
  | streamOffline => exact execStreamOffline_ev h
  | storeSuspend => exact execStoreSuspend_ev h
  | storeResume => exact execStoreResume_ev h
  | storeCommandEnd => exact execStoreCommandEnd_ev h
  | imageLoad => exact execImageLoad_ev h
  | imageLoadEnd => exact execImageLoadEnd_ev h
  | tTxbell => exact execTTxbell_ev h
  | tRxbell => exact execTRxbell_ev h
  | ringEnable => exact execRingEnable_ev h
  | ringDisable => exact execRingDisable_ev h
  | flushRing => exact execFlushRing_ev h
  | flushComplete => exact execFlushComplete_ev h
  | ringStop => exact execRingStop_ev h
  | ringResume => exact execRingResume_ev h
  | descriptorReadEnd => exact execDescriptorReadEnd_ev h
  | descriptorReadTimeout => exact execDescriptorReadTimeout_ev h
  | ownReread => exact execOwnReread_ev h
  | fetchTimeout => exact execFetchTimeout_ev h
  | txSchedule => exact execTxSchedule_ev h
  | txBufferReadEnd => exact execTxBufferReadEnd_ev h
  | txBufferReadTimeout => exact execTxBufferReadTimeout_ev h
  | txGladeAdmission => exact execTxGladeAdmission_ev h
  | writeBackHoldExpiry => exact execWriteBackHoldExpiry_ev h
  | rxDelivery => exact execRxDelivery_ev h
  | faultRecordPushEnd => exact execFaultRecordPushEnd_ev h
  | perstNAssert => exact execPerstNAssert_ev h
  | perstNDeassert => exact execPerstNDeassert_ev h
  | hotReset => exact execHotReset_ev h
  | functionLevelReset => exact execFunctionLevelReset_ev h
  | busMasterEnableClear => exact execBusMasterEnableClear_ev h
  | hostLinkStateChange => exact execHostLinkStateChange_ev h
  | linkTrainingStart => exact execLinkTrainingStart_ev h
  | configurationRequest => exact execConfigurationRequest_ev h
  | bar0UnsupportedRequest _ k => exact execBar0UnsupportedRequest_ev (_k := k) h
  | bar0PoisonedWrite => exact execBar0PoisonedWrite_ev h
  | frameReceive => exact execFrameReceive_ev h
  | pauseExpiry => exact execPauseExpiry_ev h
  | macControlSend => exact execMacControlSend_ev h
  | pfcRefresh => exact execPfcRefresh_ev h
  | linkUp => exact execLinkUp_ev h
  | linkDown => exact execLinkDown_ev h
  | laneSignalLoss => exact execLaneSignalLoss_ev h
  | mdioPoll => exact execMdioPoll_ev h
  | thicketResolve => exact execThicketResolve_ev h
  | extFlowReadEnd => exact execExtFlowReadEnd_ev h
  | knownAnswerProbe => exact execKnownAnswerProbe_ev h
  | egressCopy => exact execEgressCopy_ev h
  | egressLaunch => exact execEgressLaunch_ev h
  | txFrameEnd => exact execTxFrameEnd_ev h
  | witnessBeacon => exact execWitnessBeacon_ev h
  | gateChange => exact execGateChange_ev h
  | gateSwap => exact execGateSwap_ev h
  | ppsOutPulse => exact execPpsOutPulse_ev h
  | ppsOutEnd => exact execPpsOutEnd_ev h
  | ppsInCapture => exact execPpsInCapture_ev h
  | evtInCapture => exact execEvtInCapture_ev h
  | timebasePllLock => exact execTimebasePllLock_ev h
  | pllLockLoss => exact execPllLockLoss_ev h
  | fixedCycleCounterWrap => exact execFixedCycleCounterWrap_ev h
  | programmableCounterWrap => exact execProgrammableCounterWrap_ev h
  | bandwidthWindowEnd => exact execBandwidthWindowEnd_ev h
  | presentation => exact execPresentation_ev h
  | pageBuild => exact execPageBuild_ev h
  | recordWaitExpiry => exact execRecordWaitExpiry_ev h
  | pageProgram => exact execPageProgram_ev h
  | pageProgramEnd => exact execPageProgramEnd_ev h
  | storeTrigEdge => exact execStoreTrigEdge_ev h
  | lockWindowEnd => exact execLockWindowEnd_ev h
  | holdExpiry => exact execHoldExpiry_ev h
  | streamWriteWatchdog => exact execStreamWriteWatchdog_ev h
  | mediumMount => exact execMediumMount_ev h
  | presencePoll => exact execPresencePoll_ev h
  | powerUpScan => exact execPowerUpScan_ev h
  | coppiceRefresh => exact execCoppiceRefresh_ev h
  | wearLevellingMove => exact execWearLevellingMove_ev h
  | ageDay => exact execAgeDay_ev h
  | targetBusyTimeout => exact execTargetBusyTimeout_ev h
  | rideLinkUp => exact execRideLinkUp_ev h
  | rideLinkDown => exact execRideLinkDown_ev h
  | helloFrame => exact execHelloFrame_ev h
  | heartbeatFrame => exact execHeartbeatFrame_ev h
  | dataFrame => exact execDataFrame_ev h
  | commitFrame => exact execCommitFrame_ev h
  | ackFrame => exact execAckFrame_ev h
  | nakFrame => exact execNakFrame_ev h
  | switchRequest => exact execSwitchRequest_ev h
  | switchDone => exact execSwitchDone_ev h
  | leaveFrame => exact execLeaveFrame_ev h
  | retransmissionTimeout => exact execRetransmissionTimeout_ev h
  | helloSend => exact execHelloSend_ev h
  | heartbeatSend => exact execHeartbeatSend_ev h
  | heartbeatLoss => exact execHeartbeatLoss_ev h
  | witnessWindowExpiry => exact execWitnessWindowExpiry_ev h
  | partitionTimeout => exact execPartitionTimeout_ev h
  | epochBoundary => exact execEpochBoundary_ev h
  | epochTimeout => exact execEpochTimeout_ev h
  | switchoverTimeout => exact execSwitchoverTimeout_ev h
  | droopTrip => exact execDroopTrip_ev h
  | droopClear => exact execDroopClear_ev h
  | stretchBudgetWindowEnd => exact execStretchBudgetWindowEnd_ev h
  | detectorDisagreement => exact execDetectorDisagreement_ev h
  | thermalSample => exact execThermalSample_ev h
  | odometerSecond => exact execOdometerSecond_ev h
  | hourlyMeasurement => exact execHourlyMeasurement_ev h
  | selfCheckEnd => exact execSelfCheckEnd_ev h
  | memoryInitialisationEnd => exact execMemoryInitialisationEnd_ev h
  | periodicTest => exact execPeriodicTest_ev h
  | safetyWatchdogExpiry => exact execSafetyWatchdogExpiry_ev h
  | handshakeTimeout => exact execHandshakeTimeout_ev h
  | keepAlive i => exact execKeepAlive_ev (_i := i) h
  | safetyReset => exact (execSafetyReset_ev h).everyPart (by decide)
  | powerOn => exact execPowerOn_ev h
  | resetNAssert => exact (execResetNAssert_ev h).everyPart (by decide)
  | resetNRelease => exact execResetNRelease_ev h
  | internalResetRelease => exact execInternalResetRelease_ev h
  | pllLockTimeout => exact execPllLockTimeout_ev h
  | startupWindowClose => exact execStartupWindowClose_ev h
  | cbStrobeDeassert => exact execCbStrobeDeassert_ev h
  | laneLockAcquired => exact execLaneLockAcquired_ev h
  | inBandLinkChange => exact execInBandLinkChange_ev h
  | blockEraseEnd => exact execBlockEraseEnd_ev h
  | phaseSlewDecrement => exact execPhaseSlewDecrement_ev h
  | supplyLoss => exact (execSupplyLoss_ev h).everyPart (by decide)
  | discardedRideFrame => exact execDiscardedRideFrame_ev h
  | partnerBeaconLoss => exact execPartnerBeaconLoss_ev h
  | faultPushCplTimeout => exact execFaultPushCplTimeout_ev h
  | canopyClosingReadTimeout => exact execCanopyClosingReadTimeout_ev h
  | recoveringOnset => exact execRecoveringOnset_ev h
  | tapInstructionLoad => exact execTapInstructionLoad_ev h
  | hostLinkError => exact execHostLinkError_ev h
  | poweredTimeJournal => exact execPoweredTimeJournal_ev h

/-- What every step does: the queue loses its front command, and the promises that hold across commands are kept. -/
theorem step_evolves (h : step s = .next t) : Stepped s t := by
  unfold step at h
  split at h
  · next =>
    obtain rfl := Host.Outcome.next.inj h
    exact ⟨0x400c4582, s.pending, wait_ev (by decide) (Evolves.refl s)⟩
  · next c rest hq => exact ⟨_, rest, exec_evolves c h⟩

/-! ### The statements -/

/-- Settles O53: the two arms of step. -/
theorem stepRunsTheFrontCommand : Obligations.StepRunsTheFrontCommand :=
  ⟨fun s c rest h => by simp only [step, h], fun s h => by simp only [step, h]⟩

/-- Settles O54. -/
theorem resetGivesTheRegistersOfTheMWindow : Obligations.ResetGivesTheRegistersOfTheMWindow := by
  unfold Obligations.ResetGivesTheRegistersOfTheMWindow
  decide +kernel

/-- Settles O55: nothing is stored, the role is SOLO and no grant is given. -/
theorem theResetStateIsSound : Obligations.TheResetStateIsSound :=
  ⟨rfl, rfl, Nat.zero_le 3, fun _ h => nomatch h⟩

/-- Settles O56: soundness rests on promises that every step keeps. -/
theorem everyStepKeepsTheStateSound : Obligations.EveryStepKeepsTheStateSound := by
  intro s t hs h
  obtain ⟨m, rest, hev⟩ := step_evolves h
  exact Sound.of_evolves hev ⟨hs.scratch, hs.area, hs.role, hs.grant⟩

/-- Settles O57: the record key and its lock are among the promises that every step keeps. -/
theorem theRecordKeyIsPermanent : Obligations.TheRecordKeyIsPermanent := by
  intro s t h
  obtain ⟨m, rest, hev⟩ := step_evolves h
  exact ⟨hev.key, hev.lock⟩

/-- Settles O58: every command evolves within the mask of its footprint. -/
theorem commandsKeepWhatTheirFootprintLeavesOut : Obligations.CommandsKeepWhatTheirFootprintLeavesOut :=
  fun c _ _ h => ⟨(exec_evolves c h).keeps, (exec_evolves c h).pending⟩

/-- Settles O59: the resets, the supplies and the TAP are the commands of the hypotheses, and every other one is live. -/
theorem aTapInstructionStopsTheCommands : Obligations.ATapInstructionStopsTheCommands := by
  refine fun s htap => ⟨fun c hassert hrelease hinternal hloss hon hsafety hload => ?_, fun n hn hp hl => ?_⟩
  · cases c with
    | resetNAssert n => exact absurd rfl (hassert n)
    | resetNRelease b => exact absurd rfl (hrelease b)
    | internalResetRelease b => exact absurd rfl (hinternal b)
    | supplyLoss => exact absurd rfl hloss
    | powerOn => exact absurd rfl hon
    | safetyReset => exact absurd rfl hsafety
    | tapInstructionLoad i b => exact absurd rfl (hload i b)
    | _ => exact if_pos htap
  · exact ⟨_, (exec_resetNAssert n s).trans (congrArg _ (resetNAssertEffect_long hn hp hl)), rfl⟩

end Sys2Proof.Machine
end

section
/-! PROOFS. Frames from footprints: what evolves within every part but one leaves that one. -/

namespace Sys2Proof.Machine

/-- The mask of every part of State but f. -/
def allBut (f : Field) : Nat := mask (.pending :: everyPart) - 2 ^ f.bit

theorem testBit_allBut (f : Field) : (allBut f).testBit f.bit = false := by cases f <;> rfl

/-- A part that an operation's footprint leaves out is the same afterwards. -/
theorem Evolves.kept (f : Field) {s t : State} (h : Evolves (allBut f) s t) : f.same s t :=
  (h.frame f).resolve_left (by simp [testBit_allBut])

end Sys2Proof.Machine
end

section
/-! PROOFS. Requests of the control bus, plain accesses and anchored groups (chapters 2 and 3). -/

namespace Sys2Proof.Machine

variable {s : State} {m : Nat}

/-! ### Requests (R44 to R46, R49) -/

theorem exec_cbRequest (m : Fin 5) (h : s.tap = false) : exec (.cbRequest m) s = .next (cbRequestEffect m s) :=
  live_next s (cbRequestEffect m) h

theorem exec_cbRequestRelease (m : Fin 5) (h : s.tap = false) :
    exec (.cbRequestRelease m) s = .next (cbRequestReleaseEffect m s) :=
  live_next s (cbRequestReleaseEffect m) h

theorem arbitrate_of_busy (h : s.bus.grant ≠ none ∨ s.bus.ack ≠ none ∨ busLive s = false ∨ nextMaster s = none) :
    arbitrate s = s := by
  obtain h | h | h | h := h
  · simp [arbitrate, Option.isSome_iff_ne_none.2 h]
  · simp [arbitrate, Option.isSome_iff_ne_none.2 h]
  · simp [arbitrate, h]
  · simp [arbitrate, h]

/-- Settles O2: the effects of the two commands, and the cases of an arbitration. -/
theorem requestsTakeAndLeaveTheBus : Obligations.RequestsTakeAndLeaveTheBus := by
  refine ⟨fun s m htap hoff => ?_, fun s m off htap hoff => ?_, fun s h => arbitrate_of_busy h,
    fun s j hg ha hl hn => arbitrate_of_idle hg ha hl hn, fun s u m htap hu => ⟨fun hkeep => ?_, fun hg ha => ?_⟩⟩
  · simp [exec_cbRequest m htap, cbRequestEffect, hoff, modBus]
  · simp [exec_cbRequest m htap, cbRequestEffect, hoff, modBus]
  · have hkeep : ¬ (s.bus.grant = some m.val ∧ s.bus.ack.isNone = true) := by
      simpa [not_and, Decidable.imp_iff_not_or] using hkeep
    subst hu
    exact (exec_cbRequestRelease m htap).trans (congrArg _ (if_neg hkeep))
  · subst hu
    exact (exec_cbRequestRelease m htap).trans (congrArg _ (if_pos ⟨hg, by rw [modBus, ha]; rfl⟩))

/-! ### Plain accesses (R35, R39 to R43, R63, R146) -/

theorem exec_registerWrite (a : Access) (h : s.tap = false) : exec (.registerWrite a) s = .next (registerAccess a s) :=
  live_next s (registerAccess a) h

/-- M_SCRATCH is written before READY as after it (R72). -/
theorem regWrite_scratch (x : Extra) (path : Nat) (d : Word) (s : State) :
    regWrite x 0 path 6 d s = { s with mgmt := { s.mgmt with scratch := d } } := by
  cases h : winOpen s 0 <;> simp [regWrite, groupAt, writeM, h]

/-- M_SCRATCH reads before READY as after it (R72). -/
theorem readValue_scratch (path : Nat) (s : State) : readValue 0 path 6 s = s.mgmt.scratch := by
  cases h : winOpen s 0 <;> simp [readValue, earlyRead, groupAt, peek, peekM]

/-- The identification registers and the status are read only (R63). -/
theorem regWrite_readOnly (x : Extra) (path : Nat) {off : Nat} (hoff : off < 3) (d : Word) (s : State) :
    regWrite x 0 path off d s = s := by
  obtain rfl | rfl | rfl : off = 0 ∨ off = 1 ∨ off = 2 := by omega
  all_goals cases h : winOpen s 0 <;> simp [regWrite, groupAt, writeM, writeCommon, h]

/-- A read of an offset that acts on nothing. -/
theorem readEffect_scratch (path : Nat) (ecc : Bool) (s : State) : readEffect 0 path 6 ecc s = s := by
  cases h : winOpen s 0 <;> simp [readEffect, groupAt, h]

/-- An access whose address parity is bad is refused (R41). -/
theorem cbAccess_badAddress {x : Extra} {read apar : Bool} {addr : BitVec 8} {d : Word} {par : BitVec 3}
    (hl : busLive s = true) (ha : s.bus.ack = none) (hg : s.bus.grant = some m) (hbad : apar ≠ aparOf addr read) :
    cbAccess x read addr apar d par s = refuse m 1 read addr.toNat s := by
  simp [cbAccess, hl, ha, hg, parityCause, hbad]

/-- Settles O4: each access by its register, and the refusals by what the access meets first. -/
theorem plainAccessesActAsTheirClassStates : Obligations.PlainAccessesActAsTheirClassStates := by
  refine ⟨fun s apar d par htap hl ha hg => ⟨fun hp => ?_, fun hp => ?_, fun off hoff hp => ?_⟩,
    fun s m read addr apar d par htap hl ha hg hbad => ⟨fun hr => ?_, fun hr => ?_⟩,
    fun s t read first ds htap hup hmse => ?_⟩
  · rw [exec_registerWrite _ htap]
    refine congrArg _ ((cbAccess_write hl ha hg (by decide) hp).trans ?_)
    rw [regWrite_scratch]
    rfl
  · rw [exec_registerWrite _ htap]
    refine congrArg _ ((cbAccess_read hl ha hg (by decide) hp).trans ?_)
    rw [readEffect_scratch, counterHit_other (by decide), readValue_scratch]
    rfl
  · rw [exec_registerWrite _ htap]
    refine congrArg _ ((cbAccess_write hl ha hg (by omega) hp).trans ?_)
    rw [regWrite_readOnly _ _ hoff]
    rfl
  · rw [exec_registerWrite _ htap, registerAccess, cbAccess_badAddress hl ha hg hbad]
    simp [refuse, hr, modBus]
  · rw [exec_registerWrite _ htap, registerAccess, cbAccess_badAddress hl ha hg hbad]
    simp [refuse, hr, modBus]
  · simp [exec_registerWrite _ htap, registerAccess, bar0Access, hup, hmse]

end Sys2Proof.Machine
end

section
/-! PROOFS. Anchored groups (chapter 2): what an anchor's read returns and latches, and what a write of a word of the group
does. -/

namespace Sys2Proof.Machine

variable {s : State} {p : Path} {w k v : Nat}

/-! ### Reading an anchor (R57) -/

theorem groupOff_lt (g : Group) : groupOff g < 254 := by cases g <;> decide

theorem peek_group {off : Nat} (h : groupAt w off = some (k, 0)) (hv : groupValue s w k = some v) :
    peek w off s = wordOf v 0 := by
  cases w with
  | zero => simp [peek, peekM, h, hv]
  | succ t => simp [peek, peekT, h, hv]

theorem readValue_anchor {path off : Nat} (ho : winOpen s w = true) (h : groupAt w off = some (k, 0))
    (hv : groupValue s w k = some v) : readValue w path off s = wordOf v 0 := by
  simp [readValue, ho, h, hv, peek_group h hv]

theorem readEffect_anchor {path off : Nat} {ecc : Bool} (ho : winOpen s w = true) (h : groupAt w off = some (k, 0))
    (hv : groupValue s w k = some v) : readEffect w path off ecc s = modShadow w path k (fun x => { x with rd := v }) s := by
  simp [readEffect, ho, h, hv]

theorem exec_anchorRead (r : GroupRead) (h : s.tap = false) :
    exec (.anchorRead p r) s = .next (readAt { ecc := r.ecc } .any p (groupOff r.group) s) :=
  live_next s _ h

/-- ANCHOR_READ where no counter is found in error. -/
theorem exec_anchorRead_latches {g : Group} {ecc : Bool} (h : PerformsRead s p (groupOff g)) (he : ecc = false ∨ g ≠ .perf)
    (hg : groupAt (pathWin s p) (groupOff g) = some (k, 0)) (hv : groupValue s (pathWin s p) k = some v) :
    exec (.anchorRead p ⟨g, ecc⟩) s =
      .next (modShadow (pathWin s p) (pathNo p) k (fun x => { x with rd := v }) (returned p (wordOf v 0) s)) := by
  obtain ⟨htap, hadm, hopen⟩ := h
  have hoff : groupOff g < 256 := Nat.lt_trans (groupOff_lt g) (by decide)
  have hhit : ∀ m, counterHit m (groupOff g) ecc s = s := fun m => by
    obtain rfl | hne := he
    · exact counterHit_false
    · exact counterHit_other (by cases g <;> first | decide | exact absurd rfl hne)
  rw [exec_anchorRead _ htap]
  cases p with
  | cb apar par =>
    have hw : s.bus.grant.getD 0 = pathWin s (.cb apar par) := rfl
    rw [readAt_cb hoff hadm, hhit, hw, readValue_anchor hopen hg hv,
      readEffect_anchor (s := acknowledge _ s) hopen hg hv]
    rfl
  | bar0 t be =>
    rw [readAt_bar0 hoff hadm, readValue_anchor (w := t + 1) hopen hg hv, readEffect_anchor (w := t + 1) hopen hg hv]
    rfl

/-! ### A counter that a read finds in error (R470) -/

/-- The read of a group's word changes its shadow at most. -/
theorem readEffect_group {path off j : Nat} {ecc : Bool} (hg : groupAt w off = some (k, j)) (s : State) :
    readEffect w path off ecc s = s ∨ ∃ f, readEffect w path off ecc s = modShadow w path k f s := by
  unfold readEffect
  simp only [hg]
  split
  · exact .inl rfl
  · split
    · split
      · exact .inr ⟨_, rfl⟩
      · exact .inl rfl
    · exact .inl rfl

/-- ANCHOR_READ of M_PERF by management, with an error in the counter M_PERF_SEL selects: beside the bus and the window only
the error's consequence is left. -/
theorem exec_anchorRead_hit {apar : Bool} {par : BitVec 3} (h : PerformsRead s (.cb apar par) 0x25)
    (hg : s.bus.grant = some 0) (hr : s.start.ready = true) :
    ∃ t, exec (.anchorRead (.cb apar par) ⟨.perf, true⟩) s = .next t ∧ t.perf = (eccCounter s).perf
      ∧ t.mgmt = (eccCounter s).mgmt ∧ t.safety = (eccCounter s).safety := by
  have hhit : counterHit 0 0x25 true s = eccCounter s := by simp [counterHit, hr]
  have hread := readAt_cb (x := { ecc := true }) (by decide) h.2.1
  rw [hg, Option.getD_some, hhit] at hread
  refine ⟨_, (exec_anchorRead _ h.1).trans (congrArg _ hread), ?_⟩
  obtain heq | ⟨f, heq⟩ := readEffect_group (w := 0) (path := 0) (ecc := true) (off := 0x25) rfl
      (acknowledge (some (readValue 0 0 0x25 (eccCounter s))) (eccCounter s))
  · rw [heq]
    exact ⟨rfl, rfl, rfl⟩
  · rw [heq]
    exact ⟨rfl, rfl, rfl⟩

theorem getLsbD_orBit {n : Nat} (x : BitVec n) {i : Nat} (h : i < n) :
    (x ||| BitVec.ofNat n (2 ^ i)).getLsbD i = true := by
  rw [BitVec.getLsbD_or, BitVec.getLsbD_ofNat, Nat.testBit_two_pow_self]
  simp [h]

/-- A programmable counter in error restarts from 0, with M_FAULT.ECC_UNCORR and without the safe state. -/
theorem eccCounter_programmable {n : Nat} (hsel : s.mgmt.perfSel = n + 1) (hn : n < 8) :
    tget (eccCounter s).perf.cnt n 0 = 0 ∧ (eccCounter s).mgmt.fault.getLsbD 3 = true
      ∧ (eccCounter s).safety.safe = s.safety.safe := by
  have hcounter : eccCounter s = setMFault 3 0 31 (freeNat s % 512) 0 false
      { drawn s with perf := { s.perf with cnt := tput s.perf.cnt n 0 } } := by
    have : n + 1 ≤ 8 := hn
    simp [eccCounter, hsel, this, eccMark]
  rw [hcounter]
  refine ⟨?_, ?_, safe_eq_of_flags (safetyFlags_setMFault _ _ _ _ _ _ _)⟩
  · rw [Evolves.kept .perf (setMFault_ev rfl (.refl _))]
    exact tget_tput_same _ _ _ _
  · rw [setMFault_fault]
    exact getLsbD_orBit _ (by decide)

/-- The fixed cycle counter in error leads to the device safe state. -/
theorem eccCounter_fixed (hsel : s.mgmt.perfSel = 0) :
    (eccCounter s).mgmt.fault.getLsbD 3 = true ∧ (eccCounter s).safety.safe = true := by
  have hcounter : eccCounter s = safeFault 3 1 31 0x08A 0 s := by simp [eccCounter, hsel, eccMark]
  rw [hcounter, safeFault_fault]
  exact ⟨getLsbD_orBit _ (by decide), safeFault_safe _ _ _ _ _ _⟩

/-! ### Writing a word of a group (R58) -/

/-- The group of three that an anchor begins. -/
theorem groupAt_anchor {g : Group} (w : Nat)
    (h : [Group.xferSrc, .xferDst, .canopyBase][k]? = some g) : groupAt w (groupOff g) = some (k, 0) := by
  obtain hk | hk : k < 3 ∨ 3 ≤ k := by omega
  · obtain rfl | rfl | rfl : k = 0 ∨ k = 1 ∨ k = 2 := by omega
    all_goals
      obtain rfl := Option.some.inj h
      simp [groupAt, groupOff]
  · simp [hk] at h

/-- The words of a group of three follow its anchor. -/
theorem groupAt_next {g : Group} (hk : k < 3) (h : groupAt w (groupOff g) = some (k, 0)) {j : Nat} (hj : j < 3) :
    groupAt w (groupOff g + j) = some (k, j) := by
  cases g with
  | perf =>
    have : k = 3 := by
      simp [groupAt, groupOff] at h
      omega
    omega
  | xferSrc | xferDst | canopyBase =>
    obtain rfl | rfl | rfl : j = 0 ∨ j = 1 ∨ j = 2 := by omega
    all_goals simpa [groupAt, groupOff] using h

/-- NON_ANCHOR_WRITE reaches the word of its group (R58). -/
theorem exec_nonAnchorWrite {g : Group} {high : Bool} {d : Word} {j : Nat}
    (h : Performs s .any p (groupOff g + if high then 2 else 1) d.toNat)
    (hg : groupAt (pathWin s p) (groupOff g + if high then 2 else 1) = some (k, j)) :
    exec (.nonAnchorWrite p g high d) s = .next (groupWrite (pathWin s p) (pathNo p) k j d (written p s)) := by
  have hopen : winOpen (written p s) (pathWin s p) = true := by
    rw [written_winOpen]
    exact h.2.2
  have hoff : groupOff g + (if high then 2 else 1) < 256 := by
    have := groupOff_lt g
    split <;> omega
  have hwrite := live_writeAt (x := {}) hoff h
  rwa [word_toNat, regWrite_group hopen hg] at hwrite

/-- ANCHOR_WRITE reaches its group (R58). -/
theorem exec_anchorWrite {g : Group} {d : Word} (h : Performs s .any p (groupOff g) d.toNat)
    (hg : [Group.xferSrc, .xferDst, .canopyBase][k]? = some g) :
    exec (.anchorWrite p g d) s = .next (groupWrite (pathWin s p) (pathNo p) k 0 d (written p s)) := by
  have hopen : winOpen (written p s) (pathWin s p) = true := by
    rw [written_winOpen]
    exact h.2.2
  have hwrite := live_writeAt (x := {}) (Nat.lt_trans (groupOff_lt g) (by decide)) h
  rwa [word_toNat, regWrite_group hopen (groupAt_anchor _ hg)] at hwrite

theorem groupWrite_nonAnchor {path j : Nat} {d : Word} (ho : groupOpen s w k = true) (hj : j ≠ 0) :
    groupWrite w path k j d s =
      modShadow w path k (fun x => { x with wr := putBits x.wr (24 * j) (if j = 2 then 16 else 24) d.toNat }) s := by
  simp [groupWrite, ho, hj]

/-- Settles O5: a read by what its path returns, a write by the word of the group it meets. -/
theorem anchoredGroupsReadAndCommitWhole : Obligations.AnchoredGroupsReadAndCommitWhole := by
  refine ⟨fun s p g ecc k v h he hg hv => exec_anchorRead_latches h he hg hv,
    fun s apar par h hg hr => ⟨fun n hsel hn => ?_, fun hsel => ?_⟩, fun s p g k high d h hk hg ho => ?_,
    fun s p d v c h hc ho hv => ?_, fun s p d v c h hc ho hv => ?_, fun s p d v h hidle hv => ?_⟩
  · obtain ⟨t, hexec, hperf, hmgmt, hsafety⟩ := exec_anchorRead_hit h hg hr
    obtain ⟨hcnt, hfault, hsafe⟩ := eccCounter_programmable hsel hn
    exact ⟨t, hexec, hperf ▸ hcnt, hmgmt ▸ hfault, hsafety ▸ hsafe⟩
  · obtain ⟨t, hexec, -, hmgmt, hsafety⟩ := exec_anchorRead_hit h hg hr
    obtain ⟨hfault, hsafe⟩ := eccCounter_fixed hsel
    exact ⟨t, hexec, hmgmt ▸ hfault, hsafety ▸ hsafe⟩
  · rw [exec_nonAnchorWrite h (groupAt_next hk hg (by cases high <;> decide)),
      groupWrite_nonAnchor ((written_groupOpen _ _).trans ho) (by cases high <;> decide)]
    cases high <;> rfl
  · rw [exec_anchorWrite (k := 0) (g := .xferSrc) h rfl]
    simp [groupWrite, ho, hc, hv]
  · rw [exec_anchorWrite (k := 1) (g := .xferDst) h rfl]
    simp [groupWrite, ho, hc, hv]
  · rw [exec_anchorWrite (k := 2) (g := .canopyBase) h rfl]
    simp [groupWrite, groupOpen, hidle, hv]

end Sys2Proof.Machine
end

section
/-! PROOFS. The parameter port: reads, the reserved operation and the end of an operation (chapter 4). -/

namespace Sys2Proof.Machine

variable {s : State} {p : Path} {w : Nat}

/-! ### A write of the port's command register -/

/-- A word whose OVERRUN bit is 0 starts the operation of its OP. -/
theorem paramStatWrite_start {op : Nat} (hb : portBusy s (win s w).pstat = false) (hop : op = 1 ∨ op = 3) :
    paramPort_ w (word op).toNat false s = if op = 1 then paramReadOp w s else paramReservedOpAct w s := by
  have h7 : bitOf (word op).toNat 7 = false := by obtain rfl | rfl := hop <;> rfl
  have h0 : bits (word op).toNat 0 2 = op := by obtain rfl | rfl := hop <;> rfl
  obtain rfl | rfl := hop <;> simp [paramPort_, paramStatWrite, h7, h0, hb]

theorem exec_paramRead (h : Performs s .any p 0x0A 1) (hb : portBusy s (win s (pathWin s p)).pstat = false) :
    exec (.paramRead p false) s = .next (paramReadOp (pathWin s p) (written p s)) := by
  refine (live_writeAt (x := {}) (by decide) h).trans ?_
  rw [regWrite_paramPort, if_pos (by simpa using h.2.2), paramStatWrite_start (by simpa using hb) (.inl rfl)]
  rfl

theorem exec_paramReservedOp (h : Performs s .any p 0x0A 3) (hb : portBusy s (win s (pathWin s p)).pstat = false) :
    exec (.paramReservedOp p) s = .next (paramBusy (pathWin s p) 4 (written p s)) := by
  refine (live_writeAt (x := {}) (by decide) h).trans ?_
  rw [regWrite_paramPort, if_pos (by simpa using h.2.2), paramStatWrite_start (by simpa using hb) (.inr rfl)]
  rfl

/-! ### What a read returns (R110) -/

/-- The acknowledge changes no live value. -/
@[simp] theorem liveWord_written (id : Nat) : liveWord (written p s) id = liveWord s id := by cases p <;> rfl
@[simp] theorem liveWhole_written (i : Param) : liveWhole (written p s) i = liveWhole s i := by cases p <;> rfl

section
variable {id : Nat} {i : Param} (hid : (win s w).paramId.toNat = id)
include hid

theorem paramReadOp_unknown (hi : paramInfo id = none) : paramReadOp w s = paramBusy w 3 s := by
  simp [paramReadOp, hid, hi]

variable (hi : paramInfo id = some i)
include hi

theorem paramReadOp_barred (hr : mayRead w id = false) : paramReadOp w s = paramBusy w 2 s := by
  simp [paramReadOp, hid, hi, hr]

variable (hr : mayRead w id = true)
include hr

/-- An item of one word is read live, whatever the latch holds. -/
theorem paramReadOp_word (hw : i.words ≤ 1) :
    paramReadOp w s = paramBusy w 0 (modWin w (fun x => { x with paramData := word (liveWord s id) }) s) := by
  cases hl : (win s w).latch <;> simp [paramReadOp, hid, hi, hr, hl, Nat.not_lt.2 hw]

theorem paramReadOp_anchor (hw : 1 < i.words) (ha : id = i.anchor) :
    paramReadOp w s = paramBusy w 0 (modWin w (fun x => { x with
      paramData := word (liveWhole s i), latch := some (id, liveWhole s i) }) s) := by
  simp only [paramReadOp, hid, hi, hr, Bool.not_true, Bool.false_eq_true, if_false, if_pos (And.intro hw ha)]

theorem paramReadOp_latched {v : Nat} (hw : 1 < i.words) (ha : id ≠ i.anchor)
    (hl : (win s w).latch = some (i.anchor, v)) :
    paramReadOp w s = paramBusy w 0 (modWin w (fun x => { x with paramData := wordOf v (id - i.anchor) }) s) := by
  simp [paramReadOp, hid, hi, hr, hl, hw, ha]

end

/-! ### The end of an operation (R107, R108, R397) -/

theorem exec_paramOpEnd (w : Fin 5) (h : s.tap = false) : exec (.paramOpEnd w) s = .next (paramOpEndEffect w s) :=
  live_next s (paramOpEndEffect w) h

theorem exec_tableOpEnd (w : Fin 5) (h : s.tap = false) : exec (.tableOpEnd w) s = .next (tableOpEndEffect w s) :=
  live_next s (tableOpEndEffect w) h

/-- With no change of owner waiting, the end of an operation changes its window alone. -/
theorem paramOpEndEffect_plain (h : w ≠ 0 ∨ s.mgmt.handover = none) :
    paramOpEndEffect w s = modWin w (fun x => if x.pstat.busy then
      { x with pstat := { x.pstat with result := x.pstat.ends, busy := false } } else x) s := by
  obtain h | h := h
  · simp [paramOpEndEffect, h]
  · simp [paramOpEndEffect, handoverWaits, handOwner, h]

theorem handoverWaits_of_handover {id v : Nat} (h : s.mgmt.handover = some (id, v)) :
    handoverWaits s = (movedChannels s id v).any fun c => (chan s c).busy := by
  simp [handoverWaits, h]

theorem paramOpEndEffect_handover {id v : Nat} {i : Param} (h : s.mgmt.handover = some (id, v))
    (hw : handoverWaits s = false) (hi : paramInfo id = some i) :
    paramOpEndEffect 0 s = modWin 0 (fun x => if x.pstat.busy then
      { x with pstat := { x.pstat with result := x.pstat.ends, busy := false } } else x)
      (commitValue i v { s with mgmt := { s.mgmt with handover := none } }) := by
  simp [paramOpEndEffect, hw, handOwner, h, hi]

/-- Settles O7: the operations by what OP 1 finds, and the ends with and without a waiting change of owner. -/
theorem parameterReadsLatchWideValues : Obligations.ParameterReadsLatchWideValues := by
  refine ⟨fun s p w id h hw hb hid => ?_, fun s p w h hw hb => ?_, fun s w htap hb hw => ?_,
    fun s id v htap hh => ⟨fun hc => ?_, fun hc i hi => ?_⟩, fun s w htap hb => ?_⟩
  · subst hw
    have hid' : (win (written p s) (pathWin s p)).paramId.toNat = id := by simpa using hid.symm
    rw [exec_paramRead h hb]
    refine ⟨fun hi => congrArg _ (paramReadOp_unknown hid' hi), fun i hi hr => congrArg _ (paramReadOp_barred hid' hi hr),
      fun i hi hr hw => congrArg _ ?_, fun i hi hr hw ha => congrArg _ ?_, fun i v hi hr hw ha hl => congrArg _ ?_⟩
    · rw [paramReadOp_word hid' hi hr hw, liveWord_written]
    · rw [paramReadOp_anchor hid' hi hr hw ha, liveWhole_written]
    · exact paramReadOp_latched hid' hi hr hw ha (by simpa using hl)
  · subst hw
    exact exec_paramReservedOp h hb
  · exact ⟨_, exec_paramOpEnd w htap, by simp [paramOpEndEffect_plain hw, hb]⟩
  · rw [exec_paramOpEnd 0 htap]
    exact congrArg _ (if_pos ⟨rfl, (handoverWaits_of_handover hh).trans hc⟩)
  · rw [exec_paramOpEnd 0 htap]
    exact congrArg _ (paramOpEndEffect_handover hh ((handoverWaits_of_handover hh).trans hc) hi)
  · exact ⟨_, exec_tableOpEnd w htap, by simp [tableOpEndEffect, hb]⟩

end Sys2Proof.Machine
end

section
/-! PROOFS. Locks (R159 to R162) and the time commands (R305, R306). -/

namespace Sys2Proof.Machine

variable {s : State} {p : Path} {w k : Nat}

theorem getLsbD_clearBit {n : Nat} (x : BitVec n) {i : Nat} (h : i < n) :
    (x &&& ~~~BitVec.ofNat n (2 ^ i)).getLsbD i = false := by
  rw [BitVec.getLsbD_and, BitVec.getLsbD_not, BitVec.getLsbD_ofNat, Nat.testBit_two_pow_self]
  simp [h]

/-! ### Locks -/

/-- A write of the lock register is the lock operation of its code on the selected lock. -/
theorem regWrite_lockCode {path op : Nat} (hop : op < 4) (h : winOpen s w = true) :
    regWrite {} w path 0x19 (word op) s = lockOp w (win s w).lockSel op s := by
  have hb : bits (word op).toNat 0 2 = op := by
    simp only [bits, word, BitVec.toNat_ofNat]
    omega
  rw [regWrite_lockOp, if_pos h, hb]
  rfl

theorem exec_lockAcquire (h : Performs s .any p 0x19 1) :
    exec (.lockAcquire p false) s = .next (lockOp (pathWin s p) (win s (pathWin s p)).lockSel 1 (written p s)) := by
  refine (live_writeAt (x := {}) (by decide) h).trans ?_
  rw [regWrite_lockCode (by decide) (by simpa using h.2.2), written_win]

theorem exec_lockRelease (h : Performs s .any p 0x19 2) :
    exec (.lockRelease p) s = .next (lockOp (pathWin s p) (win s (pathWin s p)).lockSel 2 (written p s)) := by
  refine (live_writeAt (x := {}) (by decide) h).trans ?_
  rw [regWrite_lockCode (by decide) (by simpa using h.2.2), written_win]

theorem exec_clearBroken (h : Performs s .any p 0x19 3) :
    exec (.clearBroken p) s = .next (lockOp (pathWin s p) (win s (pathWin s p)).lockSel 3 (written p s)) := by
  refine (live_writeAt (x := {}) (by decide) h).trans ?_
  rw [regWrite_lockCode (by decide) (by simpa using h.2.2), written_win]

/-- LAST_OK of window w says whether its operation on lock k succeeded. -/
def setLastOk (w k : Nat) (b : Bool) (s : State) : State :=
  modWin w (fun x => { x with
    lastOk := if b then x.lastOk ||| BitVec.ofNat 16 (2 ^ k) else x.lastOk &&& ~~~BitVec.ofNat 16 (2 ^ k) }) s

@[simp] theorem setLastOk_locks (b : Bool) : (setLastOk w k b s).locks = s.locks := rfl
@[simp] theorem lock_setLastOk (b : Bool) (j : Nat) : lock (setLastOk w k b s) j = lock s j := rfl

theorem lastOk_setLastOk (hk : k < 16) (b : Bool) : (win (setLastOk w k b s) w).lastOk.getLsbD k = b := by
  cases b <;> simp only [setLastOk, win_modWin_same]
  · exact getLsbD_clearBit _ hk
  · exact getLsbD_orBit _ hk

/-- Window w may take lock k: it is its own, or free and the window is not in tenant fault. -/
def mayTake (s : State) (w k : Nat) : Bool :=
  decide ((lock s k).owner = some w) || ((lock s k).owner.isNone && !(w != 0 && (ten s (w - 1)).fault != 0))

theorem mayTake_iff : mayTake s w k = true ↔
    (lock s k).owner = some w ∨ (lock s k).owner = none ∧ (w = 0 ∨ (ten s (w - 1)).fault = 0) := by
  simp [mayTake]

theorem mayTake_false (h : (∃ v, (lock s k).owner = some v ∧ v ≠ w) ∨
    (lock s k).owner = none ∧ w ≠ 0 ∧ (ten s (w - 1)).fault ≠ 0) : mayTake s w k = false := by
  refine eq_false_of_ne_true (mt mayTake_iff.1 ?_)
  obtain ⟨v, hl, hv⟩ | ⟨hl, hw, hf⟩ := h
  · simp [hl, hv]
  · simpa [hl, hw] using hf

/-- The acknowledge leaves the locks and the tenants' faults. -/
@[simp] theorem mayTake_written : mayTake (written p s) w k = mayTake s w k := by cases p <;> rfl

theorem lockOp_taken (h : mayTake s w k = true) : lockOp w k 1 s = setLastOk w k true (modLock k (fun l => { l with
    owner := some w, waiting := l.waiting &&& ~~~BitVec.ofNat 5 (2 ^ w) }) s) := if_pos h

theorem lockOp_waits (h : mayTake s w k = false) : lockOp w k 1 s = setLastOk w k false (modLock k (fun l => { l with
    waiting := l.waiting ||| BitVec.ofNat 5 (2 ^ w) }) s) := if_neg (ne_true_of_eq_false h)

theorem lockOp_released (h : (lock s k).owner = some w) :
    lockOp w k 2 s = setLastOk w k true (modLock k (fun l => { l with owner := none }) s) := if_pos (decide_eq_true h)

theorem lockOp_cleared (h : (lock s k).owner = some w) :
    lockOp w k 3 s = setLastOk w k true (modLock k (fun l => { l with broken := false }) s) := if_pos (decide_eq_true h)

/-- RELEASE and CLEAR_BROKEN by another window than the owner. -/
theorem lockOp_foreign {op : Nat} (hop : op = 2 ∨ op = 3) (h : (lock s k).owner ≠ some w) :
    lockOp w k op s = setLastOk w k false s := by
  obtain rfl | rfl := hop
  · exact if_neg (by simpa using h)
  · exact if_neg (by simpa using h)

/-- Settles O12: each operation by the lock's owner. -/
theorem locksAreHeldByOneWindow : Obligations.LocksAreHeldByOneWindow := by
  refine ⟨fun s p w k h hw hk hk16 hw5 => ?_, fun s p w k h hw hk hk16 => ?_, fun s p w k h hw hk hk16 => ?_⟩
  all_goals
    subst hw hk
    refine ⟨fun hl => ?_, fun hl => ?_⟩
  · refine ⟨_, exec_lockAcquire h, ?_⟩
    rw [lockOp_taken (mayTake_written.trans (mayTake_iff.2 hl))]
    refine ⟨by simp, lastOk_setLastOk hk16 true, ?_, by simp⟩
    rw [lock_setLastOk, lock_modLock_same]
    exact getLsbD_clearBit _ hw5
  · refine ⟨_, exec_lockAcquire h, ?_⟩
    rw [lockOp_waits (mayTake_written.trans (mayTake_false hl))]
    refine ⟨by simp, lastOk_setLastOk hk16 false, ?_, by simp⟩
    rw [lock_setLastOk, lock_modLock_same]
    exact getLsbD_orBit _ hw5
  · refine ⟨_, exec_lockRelease h, ?_⟩
    rw [lockOp_released (by simpa using hl)]
    exact ⟨by simp, lastOk_setLastOk hk16 true⟩
  · refine ⟨_, exec_lockRelease h, ?_⟩
    rw [lockOp_foreign (.inl rfl) (by simpa using hl)]
    exact ⟨by simp, lastOk_setLastOk hk16 false⟩
  · refine ⟨_, exec_clearBroken h, ?_⟩
    rw [lockOp_cleared (by simpa using hl)]
    exact ⟨by simp, lastOk_setLastOk hk16 true⟩
  · refine ⟨_, exec_clearBroken h, ?_⟩
    rw [lockOp_foreign (.inr rfl) (by simpa using hl)]
    exact ⟨by simp, lastOk_setLastOk hk16 false⟩

/-! ### The time commands -/

/-- A write of the time command register is the operation of its code. -/
theorem regWrite_timeCode {path op : Nat} (hop : op < 16) (h : winOpen s w = true) :
    regWrite {} w path 0x20 (word op) s = timeOp w op s := by
  have hb : bits (word op).toNat 0 4 = op := by
    simp only [bits, word, BitVec.toNat_ofNat]
    omega
  rw [regWrite_timeCmd, if_pos h, hb]
  rfl

theorem live_timeWrite {op : Nat} (hop : op < 16) (h : Performs s .any p 0x20 op) :
    live (writeAt {} .any p 0x20 op) s = .next (timeOp (pathWin s p) op (written p s)) :=
  (live_writeAt (by decide) h).trans (congrArg _ (regWrite_timeCode hop (by simpa using h.2.2)))

theorem live_timeWriteM {op : Nat} {q : CbPar} (hop : op < 16) (h : PerformsM s q 0x20 op) :
    live (mgmtWrite {} q 0x20 op) s = .next (timeOp 0 op (acknowledge none s)) :=
  (live_mgmtWrite (by decide) h).trans (congrArg _ (regWrite_timeCode hop (winOpen_zero.trans h.2.2)))

/-- LAST_EVT_IN0, LAST_EVT_IN1 and LAST_PPS_IN load capture e, which is then no longer new to the window. -/
theorem timeOp_capture {e : Nat} (he : e < 3) : timeOp w (2 + e) s =
    modWin w (fun x => { x with capNew := x.capNew &&& ~~~BitVec.ofNat 3 (2 ^ e) })
      (loadTime w (tget s.time.cap e (0, 0)).1 ((win s w).capNew.getLsbD e) s) := by
  have h1 : ¬ 2 + e = 1 := by omega
  have h2 : 2 ≤ 2 + e ∧ 2 + e ≤ 4 := by omega
  simp only [timeOp, if_neg h1, if_pos h2, Nat.add_sub_cancel_left]

theorem timeOp_barred {op : Nat} (h8 : 8 ≤ op) (h10 : op ≤ 10) (hv : wordsTime (win s 0) = none) :
    timeOp 0 op s = modWin 0 (fun x => { x with timeBusy := true }) s := by
  have h1 : ¬ op = 1 := by omega
  have h2 : ¬ (2 ≤ op ∧ op ≤ 4) := by omega
  simp [timeOp, h1, h2, h8, h10, hv]

/-- TIME_SET, STEP_FORWARD and STEP_BACK give the time of W0 to W3, later and earlier by it. -/
theorem timeOp_change {op v : Nat} (h8 : 8 ≤ op) (h10 : op ≤ 10) (hv : wordsTime (win s 0) = some v) :
    timeOp 0 op s = modWin 0 (fun x => { x with timeBusy := true })
      (timeChange (if op = 8 then v else if op = 9 then s.time.dev + v else s.time.dev - v) s) := by
  have h1 : ¬ op = 1 := by omega
  have h2 : ¬ (2 ≤ op ∧ op ≤ 4) := by omega
  simp [timeOp, h1, h2, h8, h10, hv]

/-- A change of the device time: what follows at the gates leaves the time it sets. -/
theorem timeChange_dev (dev : Nat) : (timeChange dev s).time.dev = dev % (2 ^ 48 * 65536000000000) := by
  have hgates : (timeChange dev s).time = (setTime dev s).time := Evolves.kept .time
    (forAll_ev 32 _ (fun p v hv => Evolves.ite (entryBegins_ev rfl hv) hv) (.refl _))
  have hset : (setTime dev s).time = { s.time with dev := dev % (2 ^ 48 * 65536000000000) } :=
    Evolves.kept (s := { s with time := { s.time with dev := dev % (2 ^ 48 * 65536000000000) } }) .time
      (gateCatchUp_ev rfl (raise_ev rfl (raiseTenants_ev rfl (.refl _))))
  rw [hgates, hset]

/-- A performed change of the time, seen from the state before the access. -/
theorem timeOp_change_written {op v : Nat} (h8 : 8 ≤ op) (h10 : op ≤ 10) (hv : wordsTime (win s 0) = some v) :
    (timeOp 0 op (acknowledge none s)).time.dev
        = (if op = 8 then v else if op = 9 then s.time.dev + v else s.time.dev - v) % (2 ^ 48 * 65536000000000)
      ∧ (win (timeOp 0 op (acknowledge none s)) 0).timeBusy = true := by
  rw [timeOp_change (s := acknowledge none s) h8 h10 hv, modWin_time, timeChange_dev, win_modWin_same]
  exact ⟨rfl, rfl⟩

/-- Settles O13: OP 1, the three captures, the three changes of the time, and their end. -/
theorem timeCommandsLoadAndSetTheTime : Obligations.TimeCommandsLoadAndSetTheTime := by
  refine ⟨fun s p h => ?_, fun s p c e he hc h => ?_, fun s q v hv => ⟨fun h => ?_, fun h => ?_, fun h => ?_⟩,
    fun s q hv h => ?_, fun s w htap => live_next s (timeCmdEndEffect w) htap⟩
  · refine (live_timeWrite (by decide) h).trans ?_
    cases p <;> rfl
  · have hexec : exec c s = live (writeAt {} .any p 0x20 (2 + e)) s := by
      obtain rfl | rfl | rfl : e = 0 ∨ e = 1 ∨ e = 2 := by omega
      all_goals exact (congrArg (exec · s) hc).trans rfl
    refine ⟨_, hexec.trans (live_timeWrite (by omega) h), ?_⟩
    rw [timeOp_capture he, written_time, written_win]
    simp [loadTime]
  · exact ⟨_, live_timeWriteM (by decide) h, timeOp_change_written (by decide) (by decide) hv⟩
  · exact ⟨_, live_timeWriteM (by decide) h, timeOp_change_written (by decide) (by decide) hv⟩
  · exact ⟨_, live_timeWriteM (by decide) h, timeOp_change_written (by decide) (by decide) hv⟩
  · exact (live_timeWriteM (by decide) h).trans (congrArg _ (timeOp_barred (by decide) (by decide) hv))

end Sys2Proof.Machine
end

section
/-! PROOFS. Three refutations in the tenancy and ring statements, each by a concrete state. -/

namespace Sys2Proof.Machine

/-! ### Forcing a fault while the start-up window holds a reset -/

/-- The start-up window alone holds tenant 0, an enabled tenant, in a reset that waits for its end; the fault record it
pushed last waits for its write. Management holds the bus. -/
def heldWithPush : State :=
  modTen 0 (fun x => { x with enable := true, inReset := true, stepped := false, frPush := some (⟨0, 0, 0, 0, 0, 0⟩, 0) })
    { State.reset with
      bus := { State.reset.bus with grant := some 0 }, time := { pll := true },
      start := { ready := true, checked := true, memInit := true, window := true } }

/-- The parity of the write of 5 to M_TENANT_CTL. -/
def forceFaultParity : CbPar := ⟨aparOf 0x3D false, parOf (word 5)⟩

theorem heldWithPush_performs : PerformsM heldWithPush forceFaultParity 0x3D 5 :=
  ⟨rfl, ⟨by decide, rfl, ⟨rfl, .inr rfl⟩, rfl⟩, rfl⟩

/-- Writing ENABLE first ends the reset, whose lost push enters fault cause 0; cause 9 then finds a fault already there and
stores no detail. -/
theorem heldWithPush_detail :
    (ten (tenantCtlWrite 0 5 (acknowledge none heldWithPush)) 0).detail = 0 := by decide

theorem exec_forceFault {s : State} {q : CbPar} (henable : (ten s s.mgmt.selTenant).enable = true)
    (h : PerformsM s q 0x3D 5) :
    exec (.forceFault q) s = .next (tenantCtlWrite s.mgmt.selTenant 5 (acknowledge none s)) := by
  refine (live_next s (tenantSet q 4) h.1).trans (congrArg _ ?_)
  rw [tenantSet, henable]
  exact (mgmtWrite_admitted (x := {}) (by decide) h.2.1).trans (regWrite_tenantCtl h.2.2)

/-- Refutes O18: a write of ENABLE and FORCE_FAULT that ends a reset with a pushed record loses the push first, so the
detail shown is the record's and not cause 9. -/
theorem not_managementCommandsATenant : ¬ Obligations.ManagementCommandsATenant := by
  unfold Obligations.ManagementCommandsATenant
  rintro ⟨hforce, -⟩
  obtain ⟨t, ht, -, hdetail, -⟩ :=
    hforce heldWithPush forceFaultParity 0 rfl (by decide) (by decide) heldWithPush_performs
  obtain rfl := Host.Outcome.next.inj ((exec_forceFault (by decide) heldWithPush_performs).symm.trans ht)
  rw [show (ten (tenantCtlWrite heldWithPush.mgmt.selTenant 5 (acknowledge none heldWithPush)) 0).detail = 0 from
    heldWithPush_detail] at hdetail
  exact absurd hdetail (by decide)

/-! ### Two entries under one ring number -/

/-- Tenant 1 in service, with a second entry for ring 0 behind the one that the device reads. -/
def ringTwice : State :=
  modLink 1 (fun l => { l with state := .l0, bme := true, mse := true })
    (modTen 1 (fun x => { x with
        inReset := false, enable := true, stepped := true, engineEn := true,
        rings := [(0, {}), (0, { preDue := some (0, 1) })] })
      { State.reset with
        time := { pll := true }, start := { ready := true, checked := true, memInit := true, window := false } })

theorem ringTwice_performs : Performs ringTwice .tenant (.bar0 1 15) 0x03 0 :=
  ⟨rfl, ⟨by decide, by decide, by decide, .inr (.inl rfl)⟩, by decide⟩

theorem ringTwice_kept : (0, { preDue := some (0, 1) }) ∈ (ten (engineWrite 1 false ringTwice) 1).rings := by decide

/-- Refutes O19: clearing ENGINE_EN drops the prefetch of each ring, but in a table that holds ring 0 twice only the entry
that stands for the ring changes. -/
theorem not_tenantsResetAndRecover : ¬ Obligations.TenantsResetAndRecover := by
  unfold Obligations.TenantsResetAndRecover
  rintro ⟨-, -, -, -, -, hengine⟩
  obtain ⟨t, ht, -, -, hpre⟩ := (hengine ringTwice (.bar0 1 15) 1 rfl).2.2 ringTwice_performs
  have hwrite : exec (.engineEnable (.bar0 1 15) false) ringTwice = .next (engineWrite 1 false ringTwice) :=
    (live_writeAt (x := {}) (by decide) ringTwice_performs).trans
      (congrArg _ ((regWrite_tControl ringTwice_performs.2.2).trans (if_neg (by decide))))
  obtain rfl := Host.Outcome.next.inj (hwrite.symm.trans ht)
  exact absurd (hpre (0, { preDue := some (0, 1) }) ringTwice_kept) (by decide)

/-! ### The cycles of a slot that a doorbell drops -/

/-- Ring 0 of tenant 0 has 8 slots, is empty and holds a slot beyond its tail with one step cycle; counter 1 counts the
void cycles of tenant 0. -/
def slotBeyond : State :=
  putRow 0x01 0 0 [0, 0, 0, 3] (setPw 0x610000 0x030003 (modRing 0 0 (fun x => { x with
    enable := true, prefetch := 1, slots := [⟨5, [], 0, true, 0, 1⟩] }) State.reset))

/-- The state that O21 states after a doorbell which moves the tail of that ring to 1. -/
def slotBeyondStated : State :=
  serve 0 0 (modRing 0 0 (fun x => { x with
    tail := 1, slots := x.slots.filter (fun y => decide (dist 8 x.head y.pos < 1)),
    preDue := some (1, x.prefetch) }) slotBeyond)

theorem slotBeyond_ring :
    ring slotBeyond 0 0 = { enable := true, prefetch := 1, slots := [⟨5, [], 0, true, 0, 1⟩] } := by decide

theorem slotBeyond_ringN : ringN slotBeyond 0 0 = 8 := by decide

/-- The doorbell counts the cycle of the slot it drops as void. -/
theorem slotBeyond_counted : tget (doorbell 0 0 1 slotBeyond).perf.cnt 0 0 = 1 := by decide

theorem slotBeyondStated_counted : tget slotBeyondStated.perf.cnt 0 0 = 0 := by decide

/-- Refutes O21: an accepted doorbell drops the slots beyond the new tail, and their cycles become void (R469); the
statement leaves the counters of void cycles as they are. -/
theorem not_doorbellsAndRingControlActOnRings : ¬ Obligations.DoorbellsAndRingControlActOnRings := by
  unfold Obligations.DoorbellsAndRingControlActOnRings
  rintro ⟨⟨-, -, hbell⟩, -⟩
  have haccept := (hbell slotBeyond 0 0 8 1 1 0 1 slotBeyond_ringN.symm (by decide)
    (by rw [slotBeyond_ring]; decide) (by rw [slotBeyond_ring]; decide)).2.2.2.2
  have hdoor : doorbell 0 0 1 slotBeyond = slotBeyondStated := by
    refine haccept ?_ ?_ ?_ ?_ ?_ ?_ <;> simp [slotBeyond_ring]
  have hcount := slotBeyond_counted
  rw [hdoor, slotBeyondStated_counted] at hcount
  exact absurd hcount (by decide)

end Sys2Proof.Machine
end

section
/-! PROOFS. Delivery of received frames, and the end of descriptor reads (chapters 6 and 7). -/

namespace Sys2Proof.Machine

variable {s : State} {k : Fin 4} {id : Nat} {rest : List Nat}

/-! ### Delivery -/

theorem exec_rxDelivery {r : Fin 64} {ecc : EccHit} (h : s.tap = false) :
    exec (.rxDelivery k r ecc) s = .next (rxDeliveryEffect k r ecc s) := live_next s (rxDeliveryEffect k r ecc) h

/-- The ring takes the frame into an entry. -/
def takesFrame (s : State) (t r : Nat) : Bool :=
  frameService s && (ring s t r).enable && !(ring s t r).stop && !(ring s t r).flush && (ten s t).engineEn

theorem takesFrame_iff {t r : Nat} : takesFrame s t r = true ↔ frameService s = true ∧ (ring s t r).enable = true ∧
    (ring s t r).stop = false ∧ (ring s t r).flush = false ∧ (ten s t).engineEn = true := by
  simp [takesFrame, and_assoc]

theorem cellsCorrected_none : cellsCorrected .none s = s := if_neg (by decide)

/-- Frame f of number id goes into entry e: what RX_DELIVERY does when the ring takes a frame and has an entry. -/
def rxInto (t r id : Nat) (f : GFrame) (e : Entry) (s : State) : State :=
  let pre := bitOf (entryDw0 e) 22
  let all := (if pre then rxPrologue f else []) ++
    (if bitOf (entryDw0 e) 21 then f.bytes else f.bytes.take (tagLen f.tag - 4))
  let room := bits (entryDw e 0 1) 0 16
  let trunc := decide (all.length > room)
  let s1 := entrySteps t r e.pos (1 + ((all.take room).length + 63) / 64) (fun y => { y with
    stage := .done,
    wb := bytesOf (setAt (e.slots.getD 0 []) 0 (BitVec.ofNat 32 (putBits (entryDw0 e) 31 1 0))) ++ rxSlot f trunc pre,
    useful := !trunc }) (devWrite t (entryDw e 0 2 + entryDw e 0 3 * 2 ^ 32) (all.take room) s)
  serve t r (release id (if trunc then countRing t r 2 1 s1
    else countRing t r 1 (tagLen f.tag) (countRing t r 0 1 s1)))

/-- A reference without an error goes into the next entry of a ring that takes frames, and is discarded otherwise. -/
theorem rxDelivery_clean {t r : Nat} (hrefs : (ring s t (68 + r)).refs = id :: rest) :
    rxDeliveryEffect t r .none s =
      (if takesFrame s t (68 + r) then nextEntry (ring s t (68 + r)) else none).elim
        (countRing t (68 + r) 2 1 (release id (modRing t (68 + r) (fun x => { x with refs := rest }) s)))
        (fun e => rxInto t (68 + r) id (frame s id) e (modRing t (68 + r) (fun x => { x with refs := rest }) s)) := by
  dsimp only [rxDeliveryEffect]
  rw [hrefs]
  refine (if_neg (by decide)).trans ?_
  rw [cellsCorrected_none, ← takesFrame]
  cases (if takesFrame s t (68 + r) then nextEntry (ring s t (68 + r)) else none) <;> rfl

theorem rxDelivery_ecc {t r : Nat} (hrefs : (ring s t (68 + r)).refs = id :: rest) :
    rxDeliveryEffect t r .glade s =
      release id (countRxEcc id (cellError id (modRing t (68 + r) (fun x => { x with refs := rest }) s))) := by
  dsimp only [rxDeliveryEffect]
  rw [hrefs]
  exact if_pos rfl

/-- Without prologue and FCS, a frame whose bytes fit the buffer goes there whole. -/
theorem rxInto_fits {t r : Nat} {f : GFrame} {e : Entry} (hpre : bitOf (entryDw0 e) 22 = false)
    (hfcs : bitOf (entryDw0 e) 21 = false) (hroom : tagLen f.tag - 4 ≤ bits (entryDw e 0 1) 0 16) :
    rxInto t r id f e s = serve t r (release id (countRing t r 1 (tagLen f.tag) (countRing t r 0 1
      (entrySteps t r e.pos (1 + ((f.bytes.take (tagLen f.tag - 4)).length + 63) / 64) (fun y => { y with
        stage := .done,
        wb := bytesOf (setAt (e.slots.getD 0 []) 0 (BitVec.ofNat 32 (putBits (entryDw0 e) 31 1 0))) ++ rxSlot f false false,
        useful := true })
      (devWrite t (entryDw e 0 2 + entryDw e 0 3 * 2 ^ 32) (f.bytes.take (tagLen f.tag - 4)) s))))) := by
  have hlen : (f.bytes.take (tagLen f.tag - 4)).length ≤ bits (entryDw e 0 1) 0 16 :=
    (List.length_take_le _ _).trans hroom
  have hfits := decide_eq_false (Nat.not_lt.2 hlen)
  simp only [rxInto, hpre, hfcs, Bool.false_eq_true, if_false, List.nil_append, List.take_of_length_le hlen, gt_iff_lt, hfits,
    Bool.not_false]

/-- Settles O24: the reference is taken into the next entry or discarded; the three ends of RX_DELIVERY. -/
theorem receivedFramesAreDelivered : Obligations.ReceivedFramesAreDelivered := by
  unfold Obligations.ReceivedFramesAreDelivered
  rintro s k r _ id rest htap rfl hrefs _ rfl
  refine ⟨fun h => ?_, ?_, ?_⟩
  · have hnone : (if takesFrame s k (68 + r) then nextEntry (ring s k (68 + r)) else none) = none := by
      obtain h | h | h | h | h | h := h <;> simp [takesFrame, h]
    rw [exec_rxDelivery htap, rxDelivery_clean hrefs, hnone]
    rfl
  · rw [exec_rxDelivery htap, rxDelivery_ecc hrefs]
  · rintro e _ _ _ hserv hen hstop hflush heng hnext hpre hfcs hroom rfl rfl rfl
    have htakes : takesFrame s k (68 + r) = true := takesFrame_iff.2 ⟨hserv, hen, hstop, hflush, heng⟩
    rw [exec_rxDelivery htap, rxDelivery_clean hrefs, if_pos htakes, hnext]
    exact congrArg _ (rxInto_fits hpre hfcs hroom)

/-! ### Reads of descriptors -/

section Reads

variable {r : Fin 132} {d : DescRead}

theorem exec_descriptorReadEnd {h : HostRead} (ht : s.tap = false) :
    exec (.descriptorReadEnd k r h) s = .next (descriptorReadEndEffect k r h s) :=
  live_next s (descriptorReadEndEffect k r h) ht

theorem exec_descriptorReadTimeout (ht : s.tap = false) :
    exec (.descriptorReadTimeout k r) s = .next (descriptorReadTimeoutEffect k r s) :=
  live_next s (descriptorReadTimeoutEffect k r) ht

theorem exec_recoveringOnset (ht : s.tap = false) :
    exec (.recoveringOnset k r) s = .next (recoveringOnsetEffect k r s) := live_next s (recoveringOnsetEffect k r) ht

theorem exec_ownReread (ht : s.tap = false) : exec (.ownReread k r) s = .next (ownRereadEffect k r s) :=
  live_next s (ownRereadEffect k r) ht

theorem exec_fetchTimeout (ht : s.tap = false) : exec (.fetchTimeout k r) s = .next (fetchTimeoutEffect k r s) :=
  live_next s (fetchTimeoutEffect k r) ht

theorem exec_writeBackHoldExpiry (ht : s.tap = false) :
    exec (.writeBackHoldExpiry k r) s = .next (writeBackHoldExpiryEffect k r s) :=
  live_next s (writeBackHoldExpiryEffect k r) ht

/-- The state on which a read's end acts: the read has gone, its replay has ended, RECOVERING is reviewed. -/
def readGone (t r : Nat) (s : State) : State :=
  recoverFix t r (replayEnd t r (modRing t r (fun x => { x with read := none }) s))

theorem ring_modRing_same (t r : Nat) (f : Ring → Ring) : ring (modRing t r f s) t r = f (ring s t r) := by
  rw [ring, modRing, ten_modTen_same]
  exact tget_tmod_same _ _ _ _

/-- A change of a ring depends on what it makes of that ring alone. -/
theorem modRing_congr {t r : Nat} {f g : Ring → Ring} (h : f (ring s t r) = g (ring s t r)) :
    modRing t r f s = modRing t r g s := by
  simp only [modRing, modTen, tmod]
  rw [show f (tget (tget s.tenants t {}).rings r {}) = g (tget (tget s.tenants t {}).rings r {}) from h]

theorem ring_of_tenants {s u : State} (h : u.tenants = s.tenants) (t r : Nat) : ring u t r = ring s t r := by
  simp only [ring, ten, h]

theorem head_readGone (t r : Nat) : (ring (readGone t r s) t r).head = (ring s t r).head := by
  rw [readGone, recoverFix, ring_modRing_same,
    ring_of_tenants ((replayEnd_ev (by decide) (.refl _)).kept .tenants), ring_modRing_same]

theorem ring_readServe (t a n who : Nat) (host : List Byte) (j r : Nat) :
    ring (readServe t a n who host s).2 j r = ring s j r :=
  ring_of_tenants ((readServe_ev (by decide) (.refl s)).kept .tenants) j r

theorem descriptorReadEnd_data {t r : Nat} {h : HostRead} {host got : List Byte} {v : State}
    (hread : (ring s t r).read = some d) (hout : readOutcome s t r h = .data host)
    (hserve : readServe t (slotAddr s t r d.pos) (16 * d.count) r host (readGone t r s) = (got, v)) :
    descriptorReadEndEffect t r h s = serve t r (modRing t r (fun x => { x with
      slots := x.slots.filter (fun y => decide (dist (ringN s t r) (ring s t r).head y.pos <
            dist (ringN s t r) (ring s t r).head d.pos))
        ++ (List.range d.count).map (fun i => ⟨adv (ringN s t r) d.pos i, dwordsOf 4 (got.drop (16 * i)),
            (ring s t r).nextRead, d.beyond, nowNs s, if i = 0 then d.cycles else 0⟩)
        ++ x.slots.filter (fun y => decide (dist (ringN s t r) (ring s t r).head d.pos + d.count ≤
            dist (ringN s t r) (ring s t r).head y.pos)),
      nextRead := x.nextRead + 1 }) v) := by
  dsimp only [descriptorReadEndEffect]
  rw [hread]
  dsimp only
  rw [hout]
  dsimp only
  have hhead : (ring v t r).head = (ring s t r).head := by
    have hring := ring_readServe (s := readGone t r s) t (slotAddr s t r d.pos) (16 * d.count) r host t r
    rw [hserve] at hring
    exact (congrArg Ring.head hring).trans (head_readGone t r)
  rw [← readGone, hserve]
  refine congrArg _ (modRing_congr ?_)
  simp only [hhead]

/-- A read that ends in UR (code 1) or CA (code 4) is a fault before the tail, and is dropped beyond it. -/
theorem descriptorReadEnd_bad {t r cpl : Nat} {h : HostRead} (hread : (ring s t r).read = some d)
    (hout : (readOutcome s t r h = .ur ∧ cpl = 1) ∨ (readOutcome s t r h = .ca ∧ cpl = 4)) :
    descriptorReadEndEffect t r h s =
      if d.beyond then serve t r (countRing t r 3 1 (voidCycles t d.cycles (readDrop t r (readGone t r s))))
      else tenantFault t 4 (if isRx r then r - 68 else r) (isRx r) cpl (slotAddr s t r d.pos % 2 ^ 32)
        (slotAddr s t r d.pos / 2 ^ 32) 0 (voidCycles t d.cycles (readDrop t r (readGone t r s))) := by
  dsimp only [descriptorReadEndEffect]
  rw [hread]
  dsimp only
  obtain ⟨hout, rfl⟩ | ⟨hout, rfl⟩ := hout <;> rw [hout] <;> rfl

theorem ring_perfAdd (c n t r : Nat) : ring (perfAdd c n s) t r = ring s t r :=
  ring_of_tenants ((perfAdd_ev (by decide) (.refl s)).kept .tenants) t r

theorem ring_ringTurn (t n j r : Nat) : ring (ringTurn t n s) j r = ring s j r :=
  ring_of_tenants ((ringTurn_ev (by decide) (.refl s)).kept .tenants) j r

/-- A change of a tenant that leaves its rings leaves every ring. -/
theorem ring_modTen_of_rings (t : Nat) {f : Tenant → Tenant} (hf : ∀ x, (f x).rings = x.rings) (j r : Nat) :
    ring (modTen t f s) j r = ring s j r := by
  by_cases h : j = t
  · rw [h, ring, ten_modTen_same, hf, ring]
  · rw [ring, ten_modTen_ne _ _ _ _ h, ring]

theorem ring_engineSteps (t k j r : Nat) : ring (engineSteps t k s) j r = ring s j r := by
  unfold engineSteps
  split
  · dsimp only
    split <;> simp only [ring_perfAdd] <;> exact ring_modTen_of_rings t (f := fun x => { x with ahead := x.ahead + k }) (fun _ => rfl) j r
  · rfl

theorem clk_perfAdd (c n : Nat) : (perfAdd c n s).clk = s.clk := (perfAdd_ev (by decide) (.refl s)).kept .clk

theorem clk_ringTurn (t n : Nat) : (ringTurn t n s).clk = s.clk := (ringTurn_ev (by decide) (.refl s)).kept .clk

theorem clk_engineSteps (t n : Nat) : (engineSteps t n s).clk = s.clk :=
  (engineSteps_ev (by decide) (.refl s)).kept .clk

theorem clk_modRing (t r : Nat) (f : Ring → Ring) : (modRing t r f s).clk = s.clk := rfl

theorem descriptorReadTimeout_reissued {t r : Nat} (hread : (ring s t r).read = some d) (hwaits : readWaits s t r = true)
    (hpast : d.since + cplTimeout s t ≤ s.clk) (hbefore : d.beyond = false) :
    descriptorReadTimeoutEffect t r s = perfAdd (0x0A0001 + 256 * t) 1 (engineSteps t 1 (modRing t r (fun x => { x with
      read := some { d with since := s.clk, reissued := true, cycles := d.cycles + 1 }, recovering := true })
      (ringTurn t 1 (perfAdd (0x0A0004 + 256 * t) 1 s)))) := by
  dsimp only [descriptorReadTimeoutEffect]
  rw [hread]
  refine (if_neg (by simp [hwaits])).trans ?_
  rw [waitUntil_past hpast, clk_perfAdd]
  exact if_neg (ne_true_of_eq_false hbefore)

theorem head_clockFix (t r : Nat) : (ring (clockFix t r s) t r).head = (ring s t r).head := by
  rw [clockFix, ring_modRing_same]
  split
  · rfl
  · split <;> split <;> rfl

/-- Settles O22: each end of a ring's reads and waits, as the effect of its command states it. -/
theorem ringReadsCompleteOrTimeOut : Obligations.RingReadsCompleteOrTimeOut := by
  unfold Obligations.RingReadsCompleteOrTimeOut
  refine ⟨?_, ?_⟩
  · rintro s k r d _ _ _ htap hread rfl rfl rfl
    refine ⟨?_, ?_, ?_, ?_⟩
    · rintro h host _ hout rfl
      exact ⟨_, _, rfl, (exec_descriptorReadEnd htap).trans (congrArg _ (descriptorReadEnd_data hread hout rfl))⟩
    · intro h cpl hout
      have hbad := (exec_descriptorReadEnd htap).trans (congrArg _ (descriptorReadEnd_bad hread hout))
      exact ⟨fun hb => hbad.trans (congrArg _ (if_neg (ne_true_of_eq_false hb))),
        fun hb => hbad.trans (congrArg _ (if_pos hb))⟩
    · intro hpast hwaits hbefore
      refine ⟨_, (exec_descriptorReadTimeout htap).trans
        (congrArg _ (descriptorReadTimeout_reissued hread hwaits hpast hbefore)), ?_, ?_, ?_, ?_⟩
      · rw [ring_perfAdd, ring_engineSteps, ring_modRing_same]
      · rw [ring_perfAdd, ring_engineSteps, ring_modRing_same]
      · rw [ring_perfAdd, ring_engineSteps, ring_modRing_same, ring_ringTurn, ring_perfAdd]
      · rw [clk_perfAdd, clk_engineSteps, clk_modRing, clk_ringTurn, clk_perfAdd]
    · intro since hold hpast
      rw [exec_recoveringOnset htap, recoveringOnsetEffect, hold]
      dsimp only
      rw [waitUntil_past hpast]
  · intro s k r since htap
    refine ⟨fun hown hpast => ?_, ?_, fun hheld hpast => ?_⟩
    · rw [exec_ownReread htap, ownRereadEffect, hown]
      dsimp only
      rw [waitUntil_past hpast]
    · rintro _ rfl hclock hpast
      have hclk : (clockFix k r s).clk = s.clk := rfl
      rw [exec_fetchTimeout htap, fetchTimeoutEffect]
      dsimp only
      rw [hclock]
      dsimp only
      rw [waitUntil_past (hclk ▸ hpast), head_clockFix]
      rfl
    · rw [exec_writeBackHoldExpiry htap, writeBackHoldExpiryEffect, hheld]
      dsimp only
      rw [waitUntil_past hpast]

end Reads

end Sys2Proof.Machine
end

section
/-! PROOFS. The transfer channels (chapter 13): commands, start checks, settling and ends. -/

namespace Sys2Proof.Machine

variable {s : State} {p : Path} {c : Nat}

/-! ### Reading a channel -/

/-- What is put last at a number stands. -/
theorem tput_tput {α : Type} (t : Tab α) (k : Nat) (a b : α) : tput (tput t k a) k b = tput t k b := by
  induction t with
  | nil => simp [tput]
  | cons x rest ih =>
    obtain ⟨j, w⟩ := x
    by_cases hj : j = k
    · simp [tput, hj]
    · by_cases hk : k < j
      · simp [tput, hj, hk]
      · simp [tput, hj, hk, ih]

theorem chan_of_chans {s u : State} (h : u.chans = s.chans) (d : Nat) : chan u d = chan s d := by simp only [chan, h]

@[simp] theorem chan_perfAdd (a n d : Nat) : chan (perfAdd a n s) d = chan s d :=
  chan_of_chans ((perfAdd_ev (by decide) (.refl s)).kept .chans) d

@[simp] theorem chan_raise (w n d : Nat) : chan (raise w n s) d = chan s d :=
  chan_of_chans ((raise_ev (by decide) (.refl s)).kept .chans) d

/-- Two changes of one channel are one change. -/
theorem modChan_modChan (f g : Chan → Chan) : modChan c f (modChan c g s) = modChan c (fun x => f (g x)) s := by
  simp only [modChan, tmod, tget_tput_same, tput_tput]

/-- A change of a channel depends on what it makes of that channel alone. -/
theorem modChan_congr {f g : Chan → Chan} (h : f (chan s c) = g (chan s c)) : modChan c f s = modChan c g s := by
  simp only [modChan, tmod]
  rw [show f (tget s.chans c {}) = g (tget s.chans c {}) from h]

/-! ### Bits of a control word -/

theorem bitOf_eq (x i : Nat) : bitOf x i = decide (x / 2 ^ i % 2 = 1) := Nat.testBit_eq_decide_div_mod_eq

theorem land_pow (x i : Nat) : x &&& 2 ^ i = x / 2 ^ i % 2 * 2 ^ i := by
  rw [Nat.and_two_pow, Nat.testBit_eq_decide_div_mod_eq]
  obtain h | h := Nat.mod_two_eq_zero_or_one (x / 2 ^ i) <;> simp [h]

/-- A bit that already stands is put without effect. -/
theorem putBits_same (x i : Nat) : putBits x i 1 (flag (bitOf x i) 0) = x := by
  have hle : x >>> i % 2 ^ 1 * 2 ^ i ≤ x := by
    rw [Nat.shiftRight_eq_div_pow]
    exact (Nat.mul_le_mul_right _ (Nat.mod_le _ _)).trans (Nat.div_mul_le_self _ _)
  have hbit : flag (bitOf x i) 0 % 2 ^ 1 = x >>> i % 2 ^ 1 := by
    rw [bitOf_eq, Nat.shiftRight_eq_div_pow, flag]
    obtain h | h := Nat.mod_two_eq_zero_or_one (x / 2 ^ i) <;> simp [h]
  rw [putBits, bits, hbit]
  omega

/-! ### Settling -/

/-- Nothing makes the channel stop. -/
theorem chanSettle_runs (hm : (chan s c).moved = false) (he : (chan s c).ending = none)
    (hp : chanPause (chan s c) = false) (hy : (chan s c).yielded = false) : chanSettle c s = s := by
  simp [chanSettle, hm, he, hp, hy]

/-- Reads are outstanding. -/
theorem chanSettle_reads (h : (chan s c).reads ≠ []) : chanSettle c s = s := by simp [chanSettle, h]

theorem chanSettle_idle (h : (chan s c).busy = false) : chanSettle c s = s := by simp [chanSettle, h]

/-- No host write is open, and no end is due. -/
theorem chanSettle_closed (hw : (chan s c).wrote = false) (he : (chan s c).ending = none) : chanSettle c s = s := by
  simp [chanSettle, hw, he]

/-- The end that is due comes when the reads are back and no host write is open. -/
theorem chanSettle_ends {e : Nat} (hb : (chan s c).busy = true) (hr : (chan s c).reads = [])
    (hw : (chan s c).wrote = false) (he : (chan s c).ending = some e) : chanSettle c s = endChan c e s := by
  simp [chanSettle, hb, hr, hw, he]

/-- Open host writes are closed by a read before the end that is due. -/
theorem chanSettle_closes {e : Nat} (hb : (chan s c).busy = true) (hr : (chan s c).reads = [])
    (hw : (chan s c).wrote = true) (he : (chan s c).ending = some e) (hi : canIssue s (chanHost s c) = true) :
    chanSettle c s = perfAdd (0x0A0001 + 256 * chanHost s c) 1
      (modChan c (fun x => { x with reads := [(.closing, s.clk)] }) s) := by
  simp [chanSettle, hb, hr, hw, he, hi]

/-! ### Ends -/

/-- A channel's registers at its end (R408, R409, R412). -/
def endedChan (err : Nat) (x : Chan) : Chan :=
  let back := decide (err ≠ 0)
  { x with
    src := if back then x.mark.1 else x.src, dst := if back then x.mark.2.1 else x.dst,
    count := if back then x.mark.2.2.1 else x.count, elem := if back then x.mark.2.2.2 else x.elem,
    ctl := putBits x.ctl 0 1 0, err := err, error := x.error || back, paused := false, done := true,
    busy := false, piece := none, pieces := [], reads := [], toRead := 0, bursts := [], wrote := false, moved := false,
    ending := none, yielded := false }

theorem chan_ite_raise (b : Prop) [Decidable b] (w n d : Nat) : chan (if b then raise w n s else s) d = chan s d := by
  split
  · exact chan_raise w n d
  · rfl

theorem chan_endChan (e d : Nat) : chan (endChan c e s) d = chan (modChan c (endedChan e) s) d := by
  unfold endChan
  cases chanOwner s c with
  | mgmt => exact chan_ite_raise ..
  | pairing => rfl
  | tenant t => exact (chan_ite_raise ..).trans (chan_ite_raise ..)

theorem chan_endChan_same (e : Nat) : chan (endChan c e s) c = endedChan e (chan s c) := by
  rw [chan_endChan, chan_modChan_same]

theorem chan_endChan_ne (e : Nat) {d : Nat} (h : d ≠ c) : chan (endChan c e s) d = chan s d := by
  rw [chan_endChan, chan_modChan_ne _ _ _ _ h]

/-! ### Commands -/

theorem live_rewriteAt {x : Extra} {k : Reach} {off set clear v : Nat} (ho : off < 256)
    (hv : v = (peek (pathWin s p) off s).toNat) (h : Performs s k p off ((v ||| set) - (v &&& clear))) :
    live (rewriteAt x k p off set clear) s =
      .next (regWrite x (pathWin s p) (pathNo p) off (word ((v ||| set) - (v &&& clear))) (written p s)) := by
  subst hv
  rw [live_next s _ h.1, rewriteAt]
  exact congrArg _ (writeAt_admitted ho h.2.1)

/-- A write of the control register by the owner of the selected channel. -/
theorem regWrite_ctl {w path : Nat} {d : Word} (h : winOpen s w = true) (hsel : selChan s w = some c)
    (hown : ownsChan s w c = true) : regWrite {} w path 0x30 d s = ctlWrite c d.toNat s := by
  rw [regWrite_xferCtl, if_pos h, hsel]
  exact if_pos hown

/-- A value written into a word is read back when it fits. -/
theorem toNat_word {v : Nat} (h : v < 2 ^ 24) : (word v).toNat = v := by
  rw [word, BitVec.toNat_ofNat, Nat.mod_eq_of_lt h]

section Commands

variable (hsel : selChan s (pathWin s p) = some c) (hown : ownsChan s (pathWin s p) c = true)

include hsel hown

theorem exec_xferStart {ctl : Word} (h : Performs s .any p 0x30 (ctl.toNat ||| 1)) :
    exec (.xferStart p ctl) s = .next (ctlWrite c (ctl.toNat ||| 1) (written p s)) := by
  refine (live_writeAt (x := {}) (by decide) h).trans (congrArg _ ?_)
  rw [regWrite_ctl (by simpa using h.2.2) (by simpa using hsel) (by simpa using hown),
    toNat_word (Nat.or_lt_two_pow ctl.isLt (by decide))]

variable {v : Nat} (hv : v = (peek (pathWin s p) 0x30 s).toNat)

include hv

theorem ctl_rewrite {set clear : Nat} (hset : set < 2 ^ 24) (h : Performs s .any p 0x30 ((v ||| set) - (v &&& clear))) :
    live (rewriteAt {} .any p 0x30 set clear) s = .next (ctlWrite c ((v ||| set) - (v &&& clear)) (written p s)) := by
  refine (live_rewriteAt (by decide) hv h).trans (congrArg _ ?_)
  have hlt : v < 2 ^ 24 := hv ▸ (peek (pathWin s p) 0x30 s).isLt
  rw [regWrite_ctl (by simpa using h.2.2) (by simpa using hsel) (by simpa using hown),
    toNat_word ((Nat.sub_le _ _).trans_lt (Nat.or_lt_two_pow hlt hset))]

theorem exec_xferPause (h : Performs s .any p 0x30 (v ||| 2)) :
    exec (.xferPause p) s = .next (ctlWrite c (v ||| 2) (written p s)) :=
  ctl_rewrite (clear := 0) hsel hown hv (by decide) (by simpa using h) |>.trans (by simp)

theorem exec_xferAbort (h : Performs s .any p 0x30 (v ||| 4)) :
    exec (.xferAbort p) s = .next (ctlWrite c (v ||| 4) (written p s)) :=
  ctl_rewrite (clear := 0) hsel hown hv (by decide) (by simpa using h) |>.trans (by simp)

theorem exec_xferResume (h : Performs s .any p 0x30 (v - (v &&& 2))) :
    exec (.xferResume p) s = .next (ctlWrite c (v - (v &&& 2)) (written p s)) :=
  ctl_rewrite (set := 0) hsel hown hv (by decide) (by simpa using h) |>.trans (by simp)

end Commands

theorem ctlWrite_abort {v : Nat} (hb : (chan s c).busy = true) (h2 : bitOf v 2 = true) :
    ctlWrite c v s = abortReq c (putPause c (bitOf v 1) s) := by simp [ctlWrite, hb, h2]

theorem ctlWrite_pause {v : Nat} (hb : (chan s c).busy = true) (h2 : bitOf v 2 = false) (h1 : bitOf v 1 = true)
    (hp : chanPause (chan s c) = false) : ctlWrite c v s = pauseChan c s := by simp [ctlWrite, hb, h2, h1, hp]

theorem ctlWrite_resume {v : Nat} (hb : (chan s c).busy = true) (h2 : bitOf v 2 = false) (h1 : bitOf v 1 = false)
    (hp : chanPause (chan s c) = true) : ctlWrite c v s = resumeChan c s := by simp [ctlWrite, hb, h2, h1, hp]

theorem ctlWrite_start {v : Nat} (hb : chanBusy s c = false) (h0 : bitOf v 0 = true) :
    ctlWrite c v s = startChan c (modChan c (fun x => { x with ctl := ctlStore v }) s) := by
  have hb' : (chan s c).busy = false := (Bool.or_eq_false_iff.1 hb).1
  simp [ctlWrite, hb, hb', h0]

/-- PAUSE as it stands is put without effect on the channel. -/
theorem chan_putPause_same {b : Bool} (h : b = chanPause (chan s c)) : chan (putPause c b s) c = chan s c := by
  subst h
  rw [putPause, chan_modChan_same, chanPause, putBits_same]

theorem chanOwner_of_params {u : State} (hp : u.params = s.params) (c : Nat) : chanOwner u c = chanOwner s c := by
  have hpn : ∀ id, pn u id = pn s id := fun id => by simp only [pn, pw, hp]
  unfold chanOwner pairOwner
  rw [hpn, hpn]

/-- The host link of a channel follows from its control word and its owner. -/
theorem chanHost_congr {u : State} (hp : u.params = s.params) (hc : (chan u c).ctl = (chan s c).ctl) :
    chanHost u c = chanHost s c := by
  simp only [chanHost, chanOwner_of_params hp, hc]

theorem canIssue_of_links {u : State} (h : u.links = s.links) (t : Nat) : canIssue u t = canIssue s t := by
  simp only [canIssue, linkUp, link, h]

/-! ### An end with a code -/

/-- A channel that must end: the first cause stands, and it reads no further (R411). -/
def endingChan (err : Nat) (x : Chan) : Chan := { x with ending := some (x.ending.getD err), toRead := 0, paused := false }

theorem endWith_eq (e : Nat) : endWith c e s = chanSettle c (modChan c (endingChan e) s) := rfl

/-- With its reads back and no host write open the channel ends at once. -/
theorem endWith_ends (e : Nat) (hb : (chan s c).busy = true) (hr : (chan s c).reads = []) (hw : (chan s c).wrote = false) :
    endWith c e s = endChan c ((chan s c).ending.getD e) (modChan c (endingChan e) s) := by
  rw [endWith_eq]
  exact chanSettle_ends (by rw [chan_modChan_same]; exact hb) (by rw [chan_modChan_same]; exact hr)
    (by rw [chan_modChan_same]; exact hw) (by rw [chan_modChan_same]; rfl)

theorem chan_endWith_ends (e : Nat) (hb : (chan s c).busy = true) (hr : (chan s c).reads = [])
    (hw : (chan s c).wrote = false) :
    chan (endWith c e s) c = endedChan ((chan s c).ending.getD e) (endingChan e (chan s c)) := by
  rw [endWith_ends e hb hr hw, chan_endChan_same, chan_modChan_same]

/-- With a read outstanding the channel waits for it. -/
theorem chan_endWith_reads (e : Nat) (hr : (chan s c).reads ≠ []) :
    chan (endWith c e s) c = endingChan e (chan s c) := by
  rw [endWith_eq, chanSettle_reads (by rw [chan_modChan_same]; exact hr), chan_modChan_same]

/-- Open host writes are closed by a read first. -/
theorem chan_endWith_closes (e : Nat) (hb : (chan s c).busy = true) (hr : (chan s c).reads = [])
    (hw : (chan s c).wrote = true) (hi : canIssue s (chanHost s c) = true) :
    chan (endWith c e s) c = { endingChan e (chan s c) with reads := [(.closing, s.clk)] } := by
  have hhost : chanHost (modChan c (endingChan e) s) c = chanHost s c :=
    chanHost_congr rfl (by rw [chan_modChan_same]; rfl)
  rw [endWith_eq, chanSettle_closes (e := (chan s c).ending.getD e) (by rw [chan_modChan_same]; exact hb)
    (by rw [chan_modChan_same]; exact hr) (by rw [chan_modChan_same]; exact hw) (by rw [chan_modChan_same]; rfl)
    (by rw [hhost, canIssue_of_links (modChan_links ..)]; exact hi), chan_perfAdd, chan_modChan_same, chan_modChan_same]
  rfl

/-! ### START, PAUSE and ABORT -/

theorem startError_empty (h : (chan s c).count = 0) : startError s c = 7 := by simp [startError, h]

theorem startError_space (hc : (chan s c).count ≠ 0)
    (h : spaceOpen s c (srcSpace (chan s c)) = false ∨ spaceOpen s c (dstSpace (chan s c)) = false) :
    startError s c = 6 := by
  obtain h | h := h <;> simp [startError, hc, h]

theorem startError_align (hc : (chan s c).count ≠ 0) (hs : srcSpace (chan s c) = 0) (hd : dstSpace (chan s c) = 0)
    (ho : spaceOpen s c 0 = true) (h : (chan s c).src % 16 ≠ 0 ∨ (chan s c).dst % 16 ≠ 0) : startError s c = 1 := by
  simp only [startError, hs, hd, ho, hc]
  simp [h]

theorem chan_pauseChan (h : (chan s c).reads ≠ [] ∨ ((chan s c).wrote = false ∧ (chan s c).ending = none)) :
    chan (pauseChan c s) c = { cutBurst (chan s c) with ctl := putBits (chan s c).ctl 1 1 1 } := by
  have hchan : chan (putPause c true (modChan c cutBurst s)) c =
      { cutBurst (chan s c) with ctl := putBits (chan s c).ctl 1 1 1 } := by
    rw [putPause, chan_modChan_same, chan_modChan_same]
    rfl
  have hsettle : chanSettle c (putPause c true (modChan c cutBurst s)) = putPause c true (modChan c cutBurst s) := by
    obtain h | ⟨hw, he⟩ := h
    · exact chanSettle_reads (by rw [hchan]; exact h)
    · exact chanSettle_closed (by rw [hchan]; exact hw) (by rw [hchan]; exact he)
  rw [pauseChan, hsettle, hchan]

theorem bitOf_setBit {v i j : Nat} : bitOf (v ||| 2 ^ i) j = (bitOf v j || decide (i = j)) := by
  simp [bitOf, Nat.testBit_or, Nat.testBit_two_pow]

theorem bitOf_clearPause (v : Nat) : bitOf (v - (v &&& 2)) 1 = false ∧ bitOf (v - (v &&& 2)) 2 = bitOf v 2 := by
  have hand : v &&& 2 = v / 2 % 2 * 2 := land_pow v 1
  simp only [bitOf_eq, hand, decide_eq_false_iff_not, decide_eq_decide]
  omega

/-- Settles O14: the four commands through the control register, the start checks, and PAUSE stored. -/
theorem channelCommandsFollowTheStartChecks : Obligations.ChannelCommandsFollowTheStartChecks := by
  unfold Obligations.ChannelCommandsFollowTheStartChecks
  refine ⟨?_, ?_, fun s c => ⟨startError_empty, startError_space, startError_align⟩, ?_, fun s c h => ?_, fun s c => ?_⟩
  · intro s p ctl c h hsel hown hbusy
    rw [exec_xferStart hsel hown h, ctlWrite_start (by simpa using hbusy) (by rw [← Nat.pow_zero 2, bitOf_setBit]; simp)]
  · rintro s _ c rfl
    refine ⟨fun h => ?_, fun hf hs => ⟨fun he => ?_, fun he => ?_⟩⟩
    · exact if_pos (by simpa using h)
    · exact (if_neg (by simp [hf, hs])).trans (if_neg (not_not.2 he))
    · exact (if_neg (by simp [hf, hs])).trans (if_pos he)
  · intro s p c v hsel hown hb hv hctl h2
    have hb' : (chan (written p s) c).busy = true := by simpa using hb
    have h1 : bitOf v 1 = chanPause (chan s c) := by rw [hctl, chanPause]
    refine ⟨fun h hp => ?_, fun h hp => ?_, fun h he => ?_⟩
    · have hstop : bitOf (v ||| 2) 2 = false := (bitOf_setBit (i := 1)).trans (by simp [h2])
      have hset : bitOf (v ||| 2) 1 = true := (bitOf_setBit (i := 1)).trans (by simp)
      rw [exec_xferPause hsel hown hv h, ctlWrite_pause hb' hstop hset (by simpa using hp)]
    · rw [exec_xferResume hsel hown hv h, ctlWrite_resume hb' ((bitOf_clearPause v).2.trans h2) (bitOf_clearPause v).1
        (by simpa using hp)]
    · have hkeep : bitOf (v ||| 4) 1 = chanPause (chan s c) := (bitOf_setBit (i := 2)).trans (by simp [h1])
      have hstop : bitOf (v ||| 4) 2 = true := (bitOf_setBit (i := 2)).trans (by simp)
      have hput : chan (putPause c (bitOf (v ||| 4) 1) (written p s)) c = chan s c := by
        rw [chan_putPause_same (by rw [hkeep, written_chan]), written_chan]
      refine ⟨_, exec_xferAbort hsel hown hv h, ?_⟩
      rw [ctlWrite_abort hb' hstop, abortReq, if_pos (by rw [hput]; exact hb)]
      refine ⟨fun hr hw => ?_, fun hr hw hi => ?_, fun hr => ?_⟩
      · rw [chan_endWith_ends 9 (by rw [hput]; exact hb) (by rw [hput]; exact hr) (by rw [hput]; exact hw), hput, he]
        exact ⟨rfl, rfl, rfl⟩
      · have hhost : chanHost (putPause c (bitOf (v ||| 4) 1) (written p s)) c = chanHost s c :=
          chanHost_congr written_params (by rw [hput])
        rw [chan_endWith_closes 9 (by rw [hput]; exact hb) (by rw [hput]; exact hr) (by rw [hput]; exact hw)
          (by rw [hhost]; exact (canIssue_of_links written_links _).trans hi), hput, endingChan, he]
        exact ⟨hb, rfl, congrArg (fun n => [(ChanRead.closing, n)]) written_clk⟩
      · rw [chan_endWith_reads 9 (by rw [hput]; exact hr), hput, endingChan, he]
        exact ⟨hb, rfl, rfl, rfl⟩
  · rw [chan_pauseChan h, chan_modChan_same]
  · rw [resumeChan, putPause, chan_modChan_same, chan_modChan_same]
    rfl

end Sys2Proof.Machine
end

section
/-! PROOFS. A running channel: requests, reads that end, and its own ends (chapter 13). -/

namespace Sys2Proof.Machine

variable {s : State} {c : Nat}

/-! ### Requests -/

theorem exec_xferPacedBurst {c : Fin 16} {io : BurstIo} (h : s.tap = false) :
    exec (.xferPacedBurst c io) s = .next (xferPacedBurstEffect c io s) := live_next s (xferPacedBurstEffect c io) h

/-- A channel that pairing does not take asks as its registers say. -/
theorem mayIssue_own {dreq : Bool} (hpair : c = 6 ∨ c = 7 → pairEnabled s = false) :
    mayIssue s c dreq = (chanReads (chan s c) && (!needsLine (chan s c) ||
      (lineAsserted s c dreq && decide (ahead (chan s c) + nextBurst (chan s c) ≤ 16384)))) := by
  unfold mayIssue
  by_cases h6 : c = 6
  · simp [h6, hpair (.inl h6)]
  · by_cases h7 : c = 7
    · simp [h7, hpair (.inr h7)]
    · simp [h6, h7]

theorem pacedBurst_own {io : BurstIo} (hpair : c = 6 ∨ c = 7 → pairEnabled s = false)
    (hmay : mayIssue s c io.dreq = true) (hch : chosen s c = true) :
    xferPacedBurstEffect c io s = oneRequest c io (if needsLine (chan s c) then
      modChan c (fun x => { x with toRead := nextBurst x, bursts := x.bursts ++ [nextBurst x] }) (countBurst c s)
      else s) := by
  unfold xferPacedBurstEffect
  by_cases h6 : c = 6
  · subst h6
    simp [hpair (.inl rfl), hmay, hch]
  · by_cases h7 : c = 7
    · subst h7
      simp [hpair (.inr rfl), hmay, hch]
    · simp [h6, h7, hmay, hch]

@[simp] theorem chan_countBurst (d : Nat) : chan (countBurst c s) d = chan s d := by
  unfold countBurst
  split <;> simp

theorem countBurst_params : (countBurst c s).params = s.params := (countBurst_ev (by decide) (.refl s)).kept .params

theorem countBurst_links : (countBurst c s).links = s.links := (countBurst_ev (by decide) (.refl s)).kept .links

theorem countBurst_clk : (countBurst c s).clk = s.clk := (countBurst_ev (by decide) (.refl s)).kept .clk

@[simp] theorem chan_lastChan (c d : Nat) : chan { s with lastChan := c } d = chan s d := rfl

/-- What a request leaves in the channel, and who was served last. -/
theorem issueRead_issues {r : ChanRead} (hi : canIssue s (chanHost s c) = true) :
    chan (issueRead c r s) c = { chan s c with reads := (chan s c).reads ++ [(r, s.clk)] }
      ∧ (issueRead c r s).lastChan = c := by
  have heq : issueRead c r s = { modChan c (fun x => { x with reads := x.reads ++ [(r, s.clk)] })
      (modLink (chanHost s c) (fun l => { l with share := 0 }) (perfAdd (0x0A0001 + 256 * chanHost s c) 1 s))
      with lastChan := c } := if_neg (by simp [hi])
  rw [heq]
  refine ⟨(chan_lastChan c c).trans ?_, rfl⟩
  rw [chan_modChan_same, chan_modLink, chan_perfAdd]

theorem oneRequest_host {io : BurstIo} (hs : srcSpace (chan s c) = 0) (hio : io.hit ≠ .buffer) :
    oneRequest c io s = hostRequest c s := by
  rw [oneRequest, if_pos hs, if_neg hio]

theorem hostRequest_elem (hw : wantsElem (chan s c) = true) (he : (chan s c).elem < 4096) :
    hostRequest c s = issueRead c .elem s := by
  rw [hostRequest, if_pos hw, if_neg (Nat.not_le.2 he)]

/-- Bytes of the next data read: within the request's limit, and up to the next 4 KiB boundary (R405). -/
def dataBytes (x : Chan) : Nat := min (min (requestBytes x) 512) (4096 - (nextData x).1 % 4096)

theorem hostRequest_data (hw : wantsElem (chan s c) = false) (hi : canIssue s (chanHost s c) = true) :
    chan (hostRequest c s) c = { noteRequest (dataBytes (chan s c)) (chan s c) with
        reads := (chan s c).reads ++ [(.data (dataBytes (chan s c)), s.clk)] }
      ∧ (hostRequest c s).lastChan = c := by
  have heq : hostRequest c s = issueRead c (.data (dataBytes (chan s c)))
      (modChan c (noteRequest (dataBytes (chan s c))) (countBurst c s)) := if_neg (by simp [hw])
  have hhost : chanHost (modChan c (noteRequest (dataBytes (chan s c))) (countBurst c s)) c = chanHost s c :=
    chanHost_congr countBurst_params (by rw [chan_modChan_same, chan_countBurst]; rfl)
  have hissue := issueRead_issues (c := c) (r := .data (dataBytes (chan s c)))
    (s := modChan c (noteRequest (dataBytes (chan s c))) (countBurst c s))
    (by rw [hhost]; exact (canIssue_of_links countBurst_links _).trans hi)
  rw [heq]
  refine ⟨hissue.1.trans ?_, hissue.2⟩
  rw [chan_modChan_same, chan_countBurst, modChan_clk, countBurst_clk]
  rfl

theorem dataBytes_pos {x : Chan} (h : 0 < requestBytes x) : 0 < dataBytes x := by
  have hpage := Nat.mod_lt (nextData x).1 (show 0 < 4096 by decide)
  simp only [dataBytes, lt_min_iff]
  omega

theorem requestBytes_le (x : Chan) : requestBytes x ≤ 16384 - ahead x := Nat.min_le_right _ _

theorem dataBytes_le (x : Chan) : dataBytes x ≤ requestBytes x := (Nat.min_le_left _ _).trans (Nat.min_le_left _ _)

/-- A channel that reads source data has some left to read, and room in its share. -/
theorem chanReads_data {x : Chan} (h : chanReads x = true) (hw : wantsElem x = false) : 0 < requestBytes x := by
  simp only [chanReads, hw, Bool.and_eq_true, Bool.false_eq_true, if_false] at h
  exact of_decide_eq_true h.2.1

theorem chanReads_elem {x : Chan} (h : chanReads x = true) (hw : wantsElem x = true) : x.busy = true ∧ x.reads = [] := by
  simp only [chanReads, hw, Bool.and_eq_true, if_true, beq_iff_eq] at h
  exact ⟨h.1.1.1.1, h.2.1⟩

theorem chanReads_of_mayIssue {dreq : Bool} (hpair : c = 6 ∨ c = 7 → pairEnabled s = false)
    (h : mayIssue s c dreq = true) : chanReads (chan s c) = true := by
  rw [mayIssue_own hpair, Bool.and_eq_true] at h
  exact h.1

theorem ahead_append (x : Chan) (n a : Nat) : ahead { x with reads := x.reads ++ [(.data n, a)] } = ahead x + n := by
  simp [ahead, ChanRead.bytes]

/-- A channel that begins a paced burst (R406). -/
def startBurst (x : Chan) : Chan := { x with toRead := nextBurst x, bursts := x.bursts ++ [nextBurst x] }

theorem nextBurst_pos {x : Chan} (h : 0 < 16 * x.count - ahead x) : 0 < nextBurst x := by
  have hburst : 0 < burstBytes x := Nat.mul_pos (by decide) (Nat.two_pow_pos _)
  exact lt_min hburst h

/-- The request of a burst just begun covers what is left of the burst. -/
theorem requestBytes_startBurst {x : Chan} (hp : x.piece = none) (hpos : 0 < nextBurst x)
    (hroom : ahead x + nextBurst x ≤ 16384) : requestBytes (startBurst x) = nextBurst x := by
  have hahead : ahead (startBurst x) = ahead x := rfl
  have hleft : (nextData (startBurst x)).2 = 16 * x.count - ahead x := by
    simp only [nextData, startBurst, hp]
    rfl
  have hle : nextBurst x ≤ 16 * x.count - ahead x := Nat.min_le_right _ _
  have htoRead : (startBurst x).toRead = nextBurst x := rfl
  rw [requestBytes, hleft, hahead, htoRead, if_neg hpos.ne']
  omega

theorem dataBytes_startBurst {x : Chan} (hp : x.piece = none) (hpos : 0 < nextBurst x)
    (hroom : ahead x + nextBurst x ≤ 16384) :
    dataBytes (startBurst x) = min (min (nextBurst x) 512) (4096 - (x.src + ahead x) % 4096) := by
  have haddr : (nextData (startBurst x)).1 = x.src + ahead x := by
    simp only [nextData, startBurst, hp]
    rfl
  rw [dataBytes, requestBytes_startBurst hp hpos hroom, haddr]

/-- A paced channel outside its list has source data left to read when it samples its line. -/
theorem left_of_chanReads {x : Chan} (h : chanReads x = true) (hsg : chanSg x = false) (hp : x.piece = none) :
    0 < 16 * x.count - ahead x := by
  have hpos := chanReads_data h (by simp [wantsElem, hsg])
  have hleft : (nextData x).2 = 16 * x.count - ahead x := by simp only [nextData, hp]
  rw [← hleft]
  exact hpos.trans_le ((Nat.min_le_left _ _).trans (Nat.min_le_right _ _))

/-- A paced channel that begins a burst reads its first bytes. -/
theorem pacedBurst_begins (hsrc : srcSpace (chan s c) = 0) (hsg : chanSg (chan s c) = false)
    (hi : canIssue s (chanHost s c) = true) {io : BurstIo} (hio : io.hit ≠ .buffer) :
    chan (oneRequest c io (modChan c startBurst (countBurst c s))) c =
      { noteRequest (dataBytes (startBurst (chan s c))) (startBurst (chan s c)) with
        reads := (chan s c).reads ++ [(.data (dataBytes (startBurst (chan s c))), s.clk)] } := by
  have hchan : chan (modChan c startBurst (countBurst c s)) c = startBurst (chan s c) := by
    rw [chan_modChan_same, chan_countBurst]
  have hhost : chanHost (modChan c startBurst (countBurst c s)) c = chanHost s c :=
    chanHost_congr countBurst_params (by rw [hchan]; rfl)
  have hwants : wantsElem (startBurst (chan s c)) = false := by
    have : chanSg (startBurst (chan s c)) = false := hsg
    simp [wantsElem, this]
  rw [oneRequest_host (by rw [hchan]; exact hsrc) hio, (hostRequest_data (by rw [hchan]; exact hwants)
    (by rw [hhost]; exact (canIssue_of_links countBurst_links _).trans hi)).1, hchan, modChan_clk, countBurst_clk]
  rfl

/-! ### Reads that end -/

/-- Where the earliest burst not complete starts, after the registers stand as they do (R412). -/
def markedChan (whole : Bool) (x : Chan) : Chan :=
  let edge := if whole || x.bursts == [] then (x.src, x.dst, x.count, x.elem) else x.edge
  { x with edge := edge, mark := if x.wrote then x.mark else edge }

theorem chan_chanMark (whole : Bool) : chan (chanMark c whole s) c = markedChan whole (chan s c) := by
  rw [chanMark, chan_modChan_same]
  rfl

theorem exec_xferReadEnd {c : Fin 16} {r : HostRead} {ecc : Bool} (h : s.tap = false) :
    exec (.xferReadEnd c r ecc) s = .next (xferReadEndEffect c r ecc s) := live_next s (xferReadEndEffect c r ecc) h

theorem exec_xferReadTimeout {c : Fin 16} (h : s.tap = false) :
    exec (.xferReadTimeout c) s = .next (xferReadTimeoutEffect c s) := live_next s (xferReadTimeoutEffect c) h

theorem exec_xferDrainEnd {c : Fin 16} (h : s.tap = false) :
    exec (.xferDrainEnd c) s = .next (xferDrainEndEffect c s) := live_next s (xferDrainEndEffect c) h

theorem exec_xferChannelEnd {c : Fin 16} {ecc : Bool} (h : s.tap = false) :
    exec (.xferChannelEnd ⟨c, ecc⟩) s = .next (channelEnd c ecc s) := live_next s (channelEnd c ecc) h

section ReadEnds

variable {what : ChanRead} {a : Nat} {rest : List (ChanRead × Nat)} {bytes : List Byte}
variable (hr : (chan s c).reads = (what, a) :: rest)

include hr

theorem readEnd_failed {r : HostRead} (h : r = .ur ∨ r = .ca) :
    (what ≠ .closing → xferReadEndEffect c r false s =
      endWith c 5 (modChan c (fun x => { x with reads := rest }) s))
    ∧ (what = .closing → xferReadEndEffect c r false s =
      endChan c ((chan s c).ending.getD 5) (modChan c (fun x => { x with reads := rest }) s)) := by
  unfold xferReadEndEffect
  dsimp only
  rw [hr]
  obtain rfl | rfl := h <;> cases what <;> simp

theorem readEnd_closing (hw : what = .closing) : xferReadEndEffect c (.data bytes) false s =
    chanSettle c (chanMark c false (modChan c (fun x => { x with reads := rest, wrote := false }) s)) := by
  subst hw
  rw [← modChan_modChan (fun x => { x with wrote := false }) (fun x => { x with reads := rest })]
  unfold xferReadEndEffect
  dsimp only
  rw [hr]

theorem readEnd_elem (hw : what = .elem) (he : (chan s c).ending = none) : xferReadEndEffect c (.data bytes) false s =
    chanSettle c (takeElem c bytes (modChan c (fun x => { x with reads := rest }) s)) := by
  subst hw
  unfold xferReadEndEffect
  dsimp only
  rw [hr, he]
  rfl

theorem readEnd_data {n : Nat} (hw : what = .data n) (hn : bytes.length = n) (he : (chan s c).ending = none) :
    xferReadEndEffect c (.data bytes) false s =
      chanSettle c (moveBytes c bytes false (modChan c (fun x => { x with reads := rest }) s)) := by
  subst hw
  have hall : bytes.take n ++ List.replicate (n - bytes.length) 0 = bytes := by simp [← hn]
  unfold xferReadEndEffect
  dsimp only
  rw [hr, he]
  exact congrArg (fun b => chanSettle c (moveBytes c b false (modChan c (fun x => { x with reads := rest }) s))) hall

theorem readTimeout_eq (hpast : a + cplTimeout s (chanHost s c) ≤ s.clk) :
    xferReadTimeoutEffect c s =
      (if what = .closing then endChan c ((chan s c).ending.getD 4) else endWith c 4)
        (modChan c (fun x => { x with reads := rest }) (perfAdd (0x0A0004 + 256 * chanHost s c) 1 s)) := by
  unfold xferReadTimeoutEffect
  dsimp only
  rw [hr]
  dsimp only
  rw [waitUntil_past hpast]
  cases what with
  | closing => rw [if_pos rfl]
  | elem => rw [if_neg nofun]
  | data n => rw [if_neg nofun]

end ReadEnds

/-- A list element whose address is not a multiple of 16 ends the channel with ALIGN. -/
theorem takeElem_align {bytes : List Byte} (h : leNat (bytes.take 8) % 16 ≠ 0) : takeElem c bytes s = endWith c 1 s :=
  if_pos h

theorem channelEnd_own {ecc : Bool} (hpair : c = 6 ∨ c = 7 → pairEnabled s = false) :
    channelEnd c ecc s = xferChannelEndEffect c s := by
  unfold channelEnd
  by_cases h6 : c = 6
  · simp [h6, hpair (.inl h6)]
  · by_cases h7 : c = 7
    · simp [h7, hpair (.inr h7)]
    · simp [h6, h7]

/-- Settles O15: the request that the read engine issues, and every end of a read and of the channel. -/
theorem runningChannelsAdvanceAndEnd : Obligations.RunningChannelsAdvanceAndEnd := by
  unfold Obligations.RunningChannelsAdvanceAndEnd
  refine ⟨?_, ?_, ?_, ?_, ?_, ?_, ?_, ?_, ?_⟩
  · intro s c io htap hpair hmay hch hsrc hi hio
    have hreads := chanReads_of_mayIssue hpair hmay
    have hmay' := hmay
    refine ⟨fun hl hw he => ?_, fun n hl hw hn => ?_, fun n hl hsg hp hn => ?_⟩
    · obtain ⟨hb, hr⟩ := chanReads_elem hreads hw
      have hissue := issueRead_issues (r := .elem) hi
      refine ⟨_, exec_xferPacedBurst htap, ?_⟩
      rw [pacedBurst_own hpair hmay hch, hl, if_neg Bool.false_ne_true, oneRequest_host hsrc hio, hostRequest_elem hw he,
        hissue.1, hr]
      exact ⟨rfl, rfl, hb, hissue.2⟩
    · have hpos := chanReads_data hreads hw
      have hroom := (dataBytes_le (chan s c)).trans (requestBytes_le (chan s c))
      have hdata := hostRequest_data hw hi
      change n = dataBytes (chan s c) at hn
      refine ⟨_, exec_xferPacedBurst htap, ?_⟩
      rw [pacedBurst_own hpair hmay hch, hl, if_neg Bool.false_ne_true, oneRequest_host hsrc hio, hdata.1, hn]
      refine ⟨rfl, dataBytes_pos hpos, ?_, rfl, rfl, rfl, hdata.2⟩
      have hahead := ahead_append (chan s c) (dataBytes (chan s c)) s.clk
      have hsum := requestBytes_le (chan s c)
      have hle : ahead (chan s c) + dataBytes (chan s c) ≤ 16384 := by omega
      exact hahead.le.trans hle
    · rw [mayIssue_own hpair, hreads, hl, Bool.true_and, Bool.not_true, Bool.false_or, Bool.and_eq_true] at hmay'
      obtain ⟨hline, hroom⟩ := hmay'
      have hpos := nextBurst_pos (left_of_chanReads hreads hsg hp)
      refine ⟨hline, _, exec_xferPacedBurst htap, ?_⟩
      rw [pacedBurst_own hpair hmay hch, if_pos hl]
      change (chan (oneRequest c io (modChan c startBurst (countBurst c s))) c).reads = _ ∧
        (chan (oneRequest c io (modChan c startBurst (countBurst c s))) c).bursts = _ ∧
        (chan (oneRequest c io (modChan c startBurst (countBurst c s))) c).toRead = _
      rw [pacedBurst_begins hsrc hsg hi hio, dataBytes_startBurst hp hpos (of_decide_eq_true hroom), ← hn]
      exact ⟨rfl, if_neg hpos.ne', rfl⟩
  · intro s c io htap hpair hl hline
    have hmay : mayIssue s c io.dreq = false := by rw [mayIssue_own hpair, hl, hline]; simp
    rw [exec_xferPacedBurst htap]
    exact congrArg _ (if_pos (by simp [hmay]))
  · intro s c a bytes htap hr hb hw he halign
    refine ⟨_, exec_xferReadEnd htap, ?_⟩
    have hend : chan (endWith c 1 (modChan c (fun x => { x with reads := [] }) s)) c =
        endedChan 1 (endingChan 1 { chan s c with reads := [] }) := by
      rw [chan_endWith_ends 1 (by rw [chan_modChan_same]; exact hb) (by rw [chan_modChan_same])
        (by rw [chan_modChan_same]; exact hw), chan_modChan_same, he]
      rfl
    rw [readEnd_elem hr rfl he, takeElem_align halign, chanSettle_idle (by rw [hend]; rfl), hend]
    exact ⟨rfl, rfl, rfl, by simp [endedChan]⟩
  · rintro s _ c what a rest r htap hr h rfl
    rw [exec_xferReadEnd htap]
    exact ⟨fun hw => congrArg _ ((readEnd_failed hr h).1 hw), fun hw => congrArg _ ((readEnd_failed hr h).2 hw)⟩
  · intro s c a b htap hr
    rw [exec_xferReadEnd htap, readEnd_closing hr rfl]
    refine ⟨fun e he hb => ⟨_, rfl, ?_⟩, fun he => congrArg _ ?_⟩
    · rw [chanSettle_ends (e := e), chan_endChan_same]
      · exact ⟨rfl, rfl, rfl⟩
      · rw [chan_chanMark, chan_modChan_same]
        exact hb
      · rw [chan_chanMark, chan_modChan_same]
        rfl
      · rw [chan_chanMark, chan_modChan_same]
        rfl
      · rw [chan_chanMark, chan_modChan_same]
        exact he
    · refine chanSettle_closed ?_ ?_
      · rw [chan_chanMark, chan_modChan_same]
        rfl
      · rw [chan_chanMark, chan_modChan_same]
        exact he
  · intro s c what a htap hr hb hw hpast
    refine ⟨_, exec_xferReadTimeout htap, ?_⟩
    rw [readTimeout_eq hr hpast]
    have hchan : chan (modChan c (fun x => { x with reads := [] })
        (perfAdd (0x0A0004 + 256 * chanHost s c) 1 s)) c = { chan s c with reads := [] } := by
      rw [chan_modChan_same, chan_perfAdd]
    by_cases hc : what = .closing
    · rw [if_pos hc, chan_endChan_same]
      exact ⟨rfl, rfl, rfl, rfl⟩
    · rw [if_neg hc, chan_endWith_ends 4 (by rw [hchan]; exact hb) (by rw [hchan])
        (by rw [hchan]; exact hw.resolve_left hc), hchan]
      exact ⟨rfl, rfl, rfl, rfl⟩
  · intro s c htap hb hp hm hr hw hpc he
    rw [exec_xferDrainEnd htap]
    exact congrArg _ (if_pos (by simp [hb, hp, hm, hr, hw, hpc, he]))
  · intro s c ecc htap hb hm hr hw he hpair
    rw [exec_xferChannelEnd htap, channelEnd_own hpair]
    exact congrArg _ (if_pos (by simp [hb, hm, hr, hw, he]))
  · intro s c e
    rw [chan_endChan_same]
    exact ⟨rfl, rfl, rfl, rfl, fun h => by simp [endedChan, h], fun h => by simp [endedChan, h],
      fun d hd => chan_endChan_ne e hd⟩

end Sys2Proof.Machine
end

section
/-! PROOFS. Where the data of a channel go (R403, R405). -/

namespace Sys2Proof.Machine

variable {s s1 : State} {c : Nat} {bytes : List Byte}

/-- The registers after n bytes have gone to the destination. -/
def movedChan (n : Nat) (x : Chan) : Chan :=
  { x with dst := (x.dst + n) % 2 ^ 64, src := (x.src + n) % 2 ^ 64, count := x.count - n / 16, bursts := popBurst n x.bursts }

/-- A channel whose data are all moved reads no further (R412). -/
def stopMoved (x : Chan) : Chan :=
  if x.moved || decide (x.count = 0) then { x with moved := true, toRead := 0, bursts := [] } else x

theorem scratch_perfAdd (a n : Nat) : (perfAdd a n s).scratch = s.scratch :=
  (perfAdd_ev (by decide) (.refl s)).kept .scratch

theorem store_perfAdd (a n : Nat) : (perfAdd a n s).store = s.store := (perfAdd_ev (by decide) (.refl s)).kept .store

theorem overlapFree_nil {a b : Nat} (h : (chan s c).pieces = []) : overlapFree c a b s = s := by
  rw [overlapFree, h]
  rfl

/-- The write of n bytes completes the earliest burst. -/
def wholeBurst (n : Nat) (x : Chan) : Bool :=
  match x.bursts with
  | b :: _ => decide (b ≤ n)
  | [] => true

/-- Outside a list: the registers advance on the state that the destination's write leaves. -/
theorem moveBytes_plain (hgo : dstSpace (chan s c) = 0 → canIssue s (chanHost s c) = true)
    (hw : spaceWrite c (dstSpace (chan s c)) (chan s c).dst bytes false s = some s1)
    (hpieces : (chan s1 c).pieces = []) (hp : (chan s c).piece = none) :
    moveBytes c bytes false s = chanMark c (wholeBurst bytes.length (chan s c)) (modChan c stopMoved
      (modChan c (fun x => { x with src := (x.src + bytes.length) % 2 ^ 64 })
        (perfAdd (0x070001 + 256 * c) bytes.length (modChan c (fun x => { x with
          dst := (x.dst + bytes.length) % 2 ^ 64, count := x.count - bytes.length / 16,
          bursts := popBurst bytes.length x.bursts }) s1)))) := by
  have hissue : ¬(dstSpace (chan s c) = 0 ∧ (!canIssue s (chanHost s c)) = true) := fun ⟨h0, h1⟩ => by
    simp [hgo h0] at h1
  unfold moveBytes
  dsimp only
  rw [if_neg hissue, hw]
  dsimp only
  rw [hp, overlapFree_nil (by rw [chan_perfAdd, chan_modChan_same]; exact hpieces)]
  rfl

theorem stopMoved_left {x : Chan} (hm : x.moved = false) (hc : x.count ≠ 0) : stopMoved x = x := if_neg (by simp [hm, hc])

/-- With data left to move the channel's registers advance, and nothing beyond the destination's write changes. -/
theorem moveBytes_advances (hgo : dstSpace (chan s c) = 0 → canIssue s (chanHost s c) = true)
    (hw : spaceWrite c (dstSpace (chan s c)) (chan s c).dst bytes false s = some s1)
    (hpieces : (chan s1 c).pieces = []) (hp : (chan s c).piece = none) (hm : (chan s1 c).moved = false)
    (hleft : bytes.length / 16 < (chan s1 c).count) :
    chan (moveBytes c bytes false s) c =
        markedChan (wholeBurst bytes.length (chan s c)) (movedChan bytes.length (chan s1 c))
      ∧ (∀ d, d ≠ c → chan (moveBytes c bytes false s) d = chan s1 d)
      ∧ (moveBytes c bytes false s).scratch = s1.scratch ∧ (moveBytes c bytes false s).store = s1.store := by
  rw [moveBytes_plain hgo hw hpieces hp]
  refine ⟨?_, fun d hd => ?_, ?_, ?_⟩
  · rw [chan_chanMark, chan_modChan_same, chan_modChan_same, chan_perfAdd, chan_modChan_same,
      stopMoved_left (by exact hm) (Nat.sub_ne_zero_of_lt hleft)]
    rfl
  · rw [chanMark, chan_modChan_ne _ _ _ _ hd, chan_modChan_ne _ _ _ _ hd, chan_modChan_ne _ _ _ _ hd, chan_perfAdd,
      chan_modChan_ne _ _ _ _ hd]
  · rw [chanMark, modChan_scratch, modChan_scratch, modChan_scratch, scratch_perfAdd, modChan_scratch]
  · rw [chanMark, modChan_store, modChan_store, modChan_store, store_perfAdd, modChan_store]

/-- The channel runs on after its data have gone: nothing makes it stop. -/
theorem settle_moved {whole : Bool} {n : Nat} {x : Chan} (hchan : chan s c = markedChan whole (movedChan n x))
    (hm : x.moved = false) (he : x.ending = none) (hp : chanPause x = false) (hy : x.yielded = false) :
    chanSettle c s = s :=
  chanSettle_runs (by rw [hchan]; exact hm) (by rw [hchan]; exact he) (by rw [hchan]; exact hp) (by rw [hchan]; exact hy)

theorem cellRead_cellsWrite {m : List Host.Cell} {d : Byte} (h : Memory.wf d m = true) (a b : Nat) (bs : List Byte) :
    cellRead d (cellsWrite d m a bs) b = if a ≤ b ∧ b < a + bs.length then bs.getD (b - a) 0 else cellRead d m b := by
  split
  · next hin =>
    have hlt : b - a < bs.length := by omega
    have hread := cellRead_cellsWrite_inside d bs m a (b - a) h hlt
    rw [Nat.add_sub_cancel' hin.1] at hread
    rw [hread, List.getD_eq_getElem _ _ hlt]
  · next hout => exact cellRead_cellsWrite_outside d bs m a b (by omega)

theorem postPieces_ev_refl (t n a : Nat) : Evolves 0x80900 s (postPieces t n a bytes s) :=
  postPieces_ev rfl (.refl s)

/-- The state in which a channel's only read has come back. -/
def readBack (c : Nat) (s : State) : State := modChan c (fun x => { x with reads := [] }) s

theorem chan_readBack : chan (readBack c s) c = { chan s c with reads := [] } := chan_modChan_same _ _ _

section

variable {n a0 : Nat} {w : Bool}
variable (hr : (chan s c).reads = [(.data n, a0)]) (hn : bytes.length = n) (he : (chan s c).ending = none)
  (hp : (chan s c).piece = none) (hps : (chan s c).pieces = []) (hm : (chan s c).moved = false)
  (hleft : n / 16 < (chan s c).count) (hpause : chanPause (chan s c) = false) (hy : (chan s c).yielded = false)

include hr hn he hp hps hm hleft hpause hy

/-- The end of the only read of a channel that runs on: what the destination's write leaves, with the registers advanced. -/
theorem dataEnd_advances (hgo : dstSpace (chan s c) = 0 → canIssue s (chanHost s c) = true)
    (hw : spaceWrite c (dstSpace (chan s c)) (chan s c).dst bytes false (readBack c s) = some s1)
    (hu : chan s1 c = { chan s c with reads := [], wrote := w }) :
    chan (xferReadEndEffect c (.data bytes) false s) c =
        markedChan (wholeBurst n (chan s c)) (movedChan n { chan s c with reads := [], wrote := w })
      ∧ (∀ d, d ≠ c → chan (xferReadEndEffect c (.data bytes) false s) d = chan s1 d)
      ∧ (xferReadEndEffect c (.data bytes) false s).scratch = s1.scratch
      ∧ (xferReadEndEffect c (.data bytes) false s).store = s1.store := by
  subst hn
  have hhost : chanHost (readBack c s) c = chanHost s c := chanHost_congr rfl (by rw [chan_readBack])
  have hgo' : dstSpace (chan (readBack c s) c) = 0 → canIssue (readBack c s) (chanHost (readBack c s) c) = true := by
    rw [chan_readBack, hhost]
    exact hgo
  have hadv := moveBytes_advances hgo' (by rw [chan_readBack]; exact hw) (by rw [hu]; exact hps)
    (by rw [chan_readBack]; exact hp) (by rw [hu]; exact hm) (by rw [hu]; exact hleft)
  have hsettle := settle_moved hadv.1 (by rw [hu]; exact hm) (by rw [hu]; exact he) (by rw [hu]; exact hpause)
    (by rw [hu]; exact hy)
  rw [readEnd_data hr rfl rfl he, ← readBack, hsettle, ← hu]
  rw [chan_readBack] at hadv
  exact hadv

end

/-- Settles O60: the write to the destination, and the registers that follow it. -/
theorem channelDataGoesToItsDestinationAlone : Obligations.ChannelDataGoesToItsDestinationAlone := by
  unfold Obligations.ChannelDataGoesToItsDestinationAlone
  intro s c n a0 bytes htap hr hn he hp hps hm hleft hpause hy hb hwf
  have hadv := fun {s1 : State} {w : Bool} => dataEnd_advances (s1 := s1) (w := w) hr hn he hp hps hm hleft hpause hy
  refine ⟨fun hd ho => ⟨_, exec_xferReadEnd htap, ?_⟩, fun hd hi => ⟨_, exec_xferReadEnd htap, ?_⟩⟩
  · have hwrite : spaceWrite c 2 (chan s c).dst bytes false (readBack c s) =
        some { readBack c s with scratch := cellsWrite 0 s.scratch (chan s c).dst bytes } := if_pos (by rw [hn]; exact ho)
    obtain ⟨hchan, hother, hscratch, -⟩ := hadv
      (s1 := { readBack c s with scratch := cellsWrite 0 s.scratch (chan s c).dst bytes }) (fun h => absurd (hd.symm.trans h) (by decide)) (by rw [hd]; exact hwrite)
      (chan_readBack (s := s) (c := c))
    rw [hchan, hscratch]
    refine ⟨fun a => ?_, rfl, rfl, rfl, hb, rfl, fun d hd => ?_⟩
    · rw [← hn]
      exact cellRead_cellsWrite hwf _ _ _
    · exact (hother d hd).trans (chan_modChan_ne s c d (fun x => { x with reads := [] }) hd)
  · have hpost := postPieces_ev_refl (s := readBack c s) (bytes := bytes) (chanHost (readBack c s) c)
      (bytes.length / 16 + 2) (chan s c).dst
    have hwrote : chan (modChan c (fun x => { x with wrote := true }) (postPieces (chanHost (readBack c s) c)
        (bytes.length / 16 + 2) (chan s c).dst bytes (readBack c s))) c = { chan s c with reads := [], wrote := true } := by
      rw [chan_modChan_same, chan_of_chans (hpost.frame .chans |>.resolve_left (by decide)), chan_readBack]
    obtain ⟨hchan, -, hscratch, hstore⟩ := hadv (fun _ => hi) (by rw [hd]; exact rfl) hwrote
    rw [hchan, hscratch, hstore, modChan_scratch, modChan_store]
    exact ⟨hpost.frame .scratch |>.resolve_left (by decide),
      congrArg Store.area (hpost.frame .store |>.resolve_left (by decide)), rfl, rfl, rfl⟩

end Sys2Proof.Machine
end

section
/-! PROOFS. Range maintenance and the Canopy's own ends (chapter 14). -/

namespace Sys2Proof.Machine

variable {s : State} {p : Path} {t w : Nat}

theorem win_of_wins {u : State} (h : u.wins = s.wins) (k : Nat) : win u k = win s k := by simp only [win, h]

@[simp] theorem win_raise (w n k : Nat) : win (raise w n s) k = win s k :=
  win_of_wins ((raise_ev (by decide) (.refl s)).kept .wins) k

/-! ### The end of an operation -/

theorem win_maintDone (e : Nat) : win (maintDone w e s) w = { win s w with
    canopyBusy := false, canopyDone := true, canopyErr := e,
    canopyError := (win s w).canopyError || decide (e ≠ 0) } := by
  rw [maintDone, win_raise, win_modWin_same]

/-! ### A new operation -/

/-- A maintenance OP of window w on the partition of tenant t, written with its ALL bit. -/
theorem regWrite_maintenance {op path : Nat} {t : Fin 4} {all : Bool} (h : winOpen s w = true) (h1 : 1 ≤ op) (h3 : op ≤ 3) :
    regWrite {} w path 0x34 (word (op + flag all 3 + 16 * t)) s =
      canopyOp w (if w = 0 then t.val else w - 1) op all s := by
  have ht := t.isLt
  have hflag : flag all 3 = if all then 8 else 0 := rfl
  have hv : (word (op + flag all 3 + 16 * t)).toNat = op + flag all 3 + 16 * t :=
    toNat_word (by rw [hflag]; split <;> omega)
  have hop : bits (op + flag all 3 + 16 * t) 0 3 = op := by
    simp only [bits, hflag]
    split <;> omega
  have hten : bits (op + flag all 3 + 16 * t) 4 2 = t := by
    simp only [bits, hflag, Nat.shiftRight_eq_div_pow]
    split <;> omega
  have hall : bitOf (op + flag all 3 + 16 * t) 3 = all := by
    rw [bitOf_eq, hflag]
    cases all <;> simp <;> omega
  rw [regWrite_canopyCmd, if_pos h, hv, hop, hten, hall]

theorem exec_maintenance {op : Nat} {t : Fin 4} {all : Bool} {c : Instr} (h1 : 1 ≤ op) (h3 : op ≤ 3)
    (hc : c = [Instr.canopyClean p t all, .canopyInvalidate p t all, .canopyCleanAndInvalidate p t all].getD (op - 1) c)
    (h : Performs s .any p 0x34 (op + flag all 3 + 16 * t)) :
    exec c s = .next (canopyOp (pathWin s p) (if pathWin s p = 0 then t.val else pathWin s p - 1) op all (written p s)) := by
  have hwrite := (live_writeAt (x := {}) (by decide) h).trans
    (congrArg _ (regWrite_maintenance (by simpa using h.2.2) h1 h3))
  rw [hc]
  obtain rfl | rfl | rfl : op = 1 ∨ op = 2 ∨ op = 3 := by omega
  all_goals exact hwrite

section Op

variable {op : Nat} {all : Bool} (h1 : 1 ≤ op) (h3 : op ≤ 3)

include h1 h3

theorem canopyOp_busy (hb : (win s w).canopyBusy = true) :
    canopyOp w t op all s = modWin w (fun x => { x with canopyOverrun := true }) s :=
  (if_neg (by omega)).trans (if_pos hb)

theorem canopyOp_fenced (hb : (win s w).canopyBusy = false) (hf : fenced s 18 = true) :
    canopyOp w t op all s = maintDone w 1 (modWin w (fun x => { x with canopyErr := 0 }) s) :=
  (if_neg (by omega)).trans ((if_neg (by simp [hb])).trans (if_pos hf))

theorem canopyOp_empty (hb : (win s w).canopyBusy = false) (hf : fenced s 18 = false) (ha : all = false)
    (hl : (win s w).canopyLen = 0) :
    canopyOp w t op all s = maintDone w 0 (modWin w (fun x => { x with canopyErr := 0 }) s) := by
  refine (if_neg (by omega)).trans ((if_neg (by simp [hb])).trans ((if_neg ?_).trans (if_pos ?_)))
  · exact ne_true_of_eq_false hf
  · simp [ha, hl]

/-- The operation that an OP of window w queues. -/
def queuedOp (w op : Nat) (all : Bool) (t : Nat) (s : State) : Maint :=
  ⟨w, op, all, (win s w).canopyBase / 64 * 64, (win s w).canopyLen.toNat, false, false, s.clk, maintCover s t,
    s.canopy.nextFill⟩

theorem canopyOp_queued (hb : (win s w).canopyBusy = false) (hf : fenced s 18 = false)
    (hl : all = true ∨ (win s w).canopyLen ≠ 0) :
    canopyOp w t op all s = maintStart t (setQueue t (maintQueue s t ++ [queuedOp w op all t s])
      (modWin w (fun x => { x with canopyBusy := true }) (modWin w (fun x => { x with canopyErr := 0 }) s))) := by
  refine (if_neg (by omega)).trans ((if_neg (by simp [hb])).trans ((if_neg ?_).trans (if_neg ?_)))
  · exact ne_true_of_eq_false hf
  · rintro ⟨ha, hlen⟩
    exact hl.elim (by simpa using ha) (absurd hlen)

end Op

theorem maintQueue_of_canopy {u : State} (h : u.canopy = s.canopy) (t : Nat) : maintQueue u t = maintQueue s t := by
  simp only [maintQueue, h]

@[simp] theorem maintQueue_setQueue (q : List Maint) : maintQueue (setQueue t q s) t = q := tget_tput_same _ _ _ _

/-- The first operation starts; every operation of the queue keeps what its OP named. -/
theorem maintQueue_maintStart : maintQueue (maintStart t s) t = maintQueue s t ∨
    ∃ m rest b n, maintQueue s t = m :: rest ∧
      maintQueue (maintStart t s) t = { m with started := true, wrote := b, since := n } :: rest := by
  unfold maintStart
  split
  · next m rest hq =>
    split
    · exact .inl rfl
    · refine .inr ⟨m, rest, (maintRun t m s).2, s.clk, hq, ?_⟩
      dsimp only
      split
      · rw [maintQueue_of_canopy ((perfAdd_ev (by decide) (.refl _)).kept .canopy), maintQueue_setQueue]
      · rw [maintQueue_setQueue]
  · exact .inl rfl

/-- The last operation of the queue keeps what its OP named when the first one starts. -/
theorem last_maintStart {m : Maint} (h : (maintQueue s t).getLast? = some m) :
    ∃ b n b', (maintQueue (maintStart t s) t).getLast? = some { m with started := b', wrote := b, since := n } := by
  obtain hq | ⟨m0, rest, b, n, hq, hq'⟩ := maintQueue_maintStart (s := s) (t := t)
  · exact ⟨m.wrote, m.since, m.started, by rw [hq, h]⟩
  · rw [hq] at h
    rw [hq']
    cases rest with
    | nil =>
      obtain rfl : m0 = m := by simpa using h
      exact ⟨b, n, true, rfl⟩
    | cons x xs => exact ⟨m.wrote, m.since, m.started, by simpa using h⟩

theorem last_queued (q : List Maint) (m : Maint) : ∃ b n b',
    (maintQueue (maintStart t (setQueue t (q ++ [m]) s)) t).getLast? =
      some { m with started := b', wrote := b, since := n } :=
  last_maintStart (by rw [maintQueue_setQueue, List.getLast?_concat])

theorem win_maintStart (k : Nat) : win (maintStart t s) k = win s k :=
  win_of_wins ((maintStart_ev (by decide) (.refl s)).kept .wins) k

theorem win_setQueue (q : List Maint) (k : Nat) : win (setQueue t q s) k = win s k := rfl

/-- Settles O16: the four answers to a maintenance OP, and its end. -/
theorem maintenanceJoinsThePartitionQueue : Obligations.MaintenanceJoinsThePartitionQueue := by
  unfold Obligations.MaintenanceJoinsThePartitionQueue
  refine ⟨?_, fun s w e => by rw [win_maintDone]; exact ⟨rfl, rfl, rfl, rfl⟩⟩
  rintro s p t all c op _ _ rfl h1 h3 hc h rfl
  rw [exec_maintenance h1 h3 hc h]
  have hfence : fenced (written p s) 18 = fenced s 18 := by cases p <;> rfl
  refine ⟨fun hb => congrArg _ (canopyOp_busy h1 h3 (by simpa using hb)),
    fun hb hf => congrArg _ (canopyOp_fenced h1 h3 (by simpa using hb) (hfence.trans hf)),
    fun hb hf ha hl => congrArg _ (canopyOp_empty h1 h3 (by simpa using hb) (hfence.trans hf) ha (by simpa using hl)),
    fun hb hf hl => ⟨_, rfl, ?_⟩⟩
  rw [canopyOp_queued h1 h3 (by simpa using hb) (hfence.trans hf) (by simpa using hl)]
  refine ⟨by rw [win_maintStart, win_setQueue, win_modWin_same], by
    rw [win_maintStart, win_setQueue, win_modWin_same, win_modWin_same], ?_⟩
  obtain ⟨b, n, b', hlast⟩ := last_queued _ _
  exact ⟨_, hlast, rfl, rfl, rfl, congrArg (fun x : Win => x.canopyBase / 64 * 64) (written_win _),
    congrArg (fun x : Win => x.canopyLen.toNat) (written_win _)⟩

/-! ### The Canopy's own ends -/

theorem exec_canopyOpEnd {t : Fin 4} {r : HostRead} (h : s.tap = false) :
    exec (.canopyOpEnd t r) s = .next (canopyOpEndEffect t r s) := live_next s (canopyOpEndEffect t r) h

theorem exec_canopyClosingReadTimeout {t : Fin 4} (h : s.tap = false) :
    exec (.canopyClosingReadTimeout t) s = .next (canopyClosingReadTimeoutEffect t s) :=
  live_next s (canopyClosingReadTimeoutEffect t) h

theorem exec_canopyFillEnd {t : Fin 4} {r : HostRead} (h : s.tap = false) :
    exec (.canopyFillEnd t r none) s = .next (canopyFillEndEffect t r s) := by
  rw [show exec (.canopyFillEnd t r none) s = execCanopyFillEnd t r none s from rfl, execCanopyFillEnd, live_next s _ h]

theorem exec_scratchWayConversionEnd (h : s.tap = false) :
    exec .scratchWayConversionEnd s = .next (onlyIf (!fenced s 18 && !s.power.asleep) convertWay s) := by
  rw [show exec .scratchWayConversionEnd s = execScratchWayConversionEnd s from rfl, execScratchWayConversionEnd,
    live_next s _ h]

section OpEnd

variable {m : Maint} {rest : List Maint} (hq : maintQueue s t = m :: rest) (hst : m.started = true)
  (hd : doomedFills s t = false)

include hq hst hd

theorem canopyOpEnd_unwritten {r : HostRead} (hw : m.wrote = false) : canopyOpEndEffect t r s = maintEnd t 0 s := by
  simp [canopyOpEndEffect, hq, hst, hd, hw]

theorem canopyOpEnd_read {r : HostRead} (hw : m.wrote = true) (hi : canIssue s t = true) :
    canopyOpEndEffect t r s = maintEnd t (match r with
      | .data _ => 0
      | _ => 2) s := by
  cases r <;> simp [canopyOpEndEffect, hq, hst, hd, hw, hi]

theorem canopyClosingReadTimeout_ends (hw : m.wrote = true) (hpast : m.since + cplTimeout s t ≤ s.clk) :
    canopyClosingReadTimeoutEffect t s = maintEnd t 2 (perfAdd (0x0A0004 + 256 * t) 1 s) := by
  simp [canopyClosingReadTimeoutEffect, hq, hst, hd, hw, waitUntil_past hpast]

end OpEnd

/-- The fill is a prefetch's or a partial write's. -/
def ownFill (t : Nat) (f : Fill) : Bool :=
  f.t == t && (match f.who with
    | .demand _ => false
    | _ => true)

theorem ownFill_of {f : Fill} (ht : f.t = t) (h : ∀ who, f.who ≠ .demand who) : ownFill t f = true := by
  cases hw : f.who with
  | demand who => exact absurd hw (h who)
  | prefetch => simp [ownFill, ht, hw]
  | merge off bytes => simp [ownFill, ht, hw]

/-- The oldest fill of a partition leaves the Canopy, with its data or without. -/
theorem canopyFillEnd_oldest {f : Fill} {rest : List Fill} (hf : s.canopy.fills = f :: rest) (ht : f.t = t)
    (hw : ∀ who, f.who ≠ .demand who) (r : HostRead) :
    canopyFillEndEffect t r s = (fun v : State => forEach ((ten v t).rings.filter fun e => isRx e.1 && e.2.entries != [])
      (fun (r, _) s => drain t r false s) v) (match r with
        | .data bytes => fillDone f ((bytes ++ List.replicate 256 0).take 256) (setFills rest s)
        | _ => setFills rest s) := by
  have hfind : (s.canopy.fills.find? (ownFill t)) = some f := by
    rw [hf, List.find?_cons_of_pos (ownFill_of ht hw)]
  have herase : s.canopy.fills.erase f = rest := by rw [hf, List.erase_cons_head]
  unfold canopyFillEndEffect
  split
  · next h => exact absurd (h.symm.trans hfind) nofun
  · next h =>
    obtain rfl := Option.some.inj (h.symm.trans hfind)
    rw [herase] <;> cases r <;> rfl

/-- The lines of a way are written back before the way is converted. -/
def wayBack (way : Nat) (s : State) : State :=
  forEach (s.canopy.lines.filter fun e => e.1 % 16 == way) (fun (key, l) s => writeBackLine (key / 1024) l 15 s) s

theorem scratch_wayBack (way : Nat) : (wayBack way s).scratch = s.scratch :=
  (forEach_ev (m := 0x80900) _ _ (fun _ _ hv => writeBackLine_ev rfl hv) (.refl s)).frame .scratch |>.resolve_left
    (by decide)

theorem convertWay_eq (h : s.canopy.ways < pn s 0x510000) :
    convertWay s = { wayBack (15 - s.canopy.ways) s with
      canopy := { (wayBack (15 - s.canopy.ways) s).canopy with
        lines := (wayBack (15 - s.canopy.ways) s).canopy.lines.filter (fun e => e.1 % 16 != 15 - s.canopy.ways),
        ways := s.canopy.ways + 1 },
      scratch := (wayBack (15 - s.canopy.ways) s).scratch.filter (fun c => c.1 / 65536 != s.canopy.ways) } :=
  if_neg (Nat.not_le.2 h)

/-- A way is converted: its lines are gone, and its scratch memory reads 0. -/
theorem convertWay_converts (h : s.canopy.ways < pn s 0x510000) :
    (convertWay s).canopy.ways = s.canopy.ways + 1
      ∧ (∀ e ∈ (convertWay s).canopy.lines, e.1 % 16 ≠ 15 - s.canopy.ways)
      ∧ ∀ a, cellRead 0 (convertWay s).scratch a =
          if a / 65536 = s.canopy.ways then 0 else cellRead 0 s.scratch a := by
  rw [convertWay_eq h]
  refine ⟨rfl, fun e he => ?_, fun a => ?_⟩
  · simpa using (List.mem_filter.1 he).2
  · refine (tget_filter_key (fun k => k / 65536 != s.canopy.ways) _ a 0).trans ?_
    rw [scratch_wayBack]
    by_cases ha : a / 65536 = s.canopy.ways <;> simp [ha, cellRead]

/-- Settles O17: the closing read, the oldest fill and the conversion of a way. -/
theorem canopyWorkCompletes : Obligations.CanopyWorkCompletes := by
  unfold Obligations.CanopyWorkCompletes
  refine ⟨?_, ?_, ?_, ?_⟩
  · intro s t m rest r htap hq hst hd
    refine ⟨fun hw => ?_, fun hw hi => ⟨?_, ?_, ?_⟩, fun hw hpast => ?_⟩
    · rw [exec_canopyOpEnd htap, canopyOpEnd_unwritten hq hst hd hw]
    · rw [exec_canopyOpEnd htap, canopyOpEnd_read hq hst hd hw hi]
    · rw [exec_canopyOpEnd htap, canopyOpEnd_read hq hst hd hw hi]
    · rw [exec_canopyOpEnd htap, canopyOpEnd_read hq hst hd hw hi]
    · rw [exec_canopyClosingReadTimeout htap, canopyClosingReadTimeout_ends hq hst hd hw hpast]
  · intro s t e m rest hq
    rw [maintEnd, hq]
  · rintro s t f rest bytes htap hlen hf ht hw _ _ rfl rfl
    have hbytes : (bytes ++ List.replicate 256 0).take 256 = bytes := List.take_left' hlen
    refine ⟨?_, ?_⟩
    · rw [exec_canopyFillEnd htap, canopyFillEnd_oldest hf ht hw]
      dsimp only
      rw [hbytes]
      rfl
    · rw [exec_canopyFillEnd htap, canopyFillEnd_oldest hf ht hw]
      rfl
  · intro s htap hf ha hlt
    refine ⟨convertWay s, ?_, convertWay_converts hlt⟩
    rw [exec_scratchWayConversionEnd htap, hf, ha]
    rfl

end Sys2Proof.Machine
end

section
/-! PROOFS. Flow control: pause frames received, and control frames sent (chapter 8). -/

namespace Sys2Proof.Machine

variable {s : State} {p : Nat}

/-! ### Ports that other operations keep -/

theorem port_of_ports {u : State} (h : u.ports = s.ports) (k : Nat) : port u k = port s k := by simp only [port, h]

@[simp] theorem port_countPort (i n k : Nat) : port (countPort p i n s) k = port s k :=
  port_of_ports ((countPort_ev (by decide) (.refl s)).kept .ports) k

@[simp] theorem clk_countPort (i n : Nat) : (countPort p i n s).clk = s.clk :=
  (countPort_ev (by decide) (.refl s)).kept .clk

@[simp] theorem port_bwCount (b : Bool) (n k : Nat) : port (bwCount p b n s) k = port s k :=
  port_of_ports ((bwCount_ev (by decide) (.refl s)).kept .ports) k

@[simp] theorem clk_bwCount (b : Bool) (n : Nat) : (bwCount p b n s).clk = s.clk :=
  (bwCount_ev (by decide) (.refl s)).kept .clk

/-! ### Received pauses -/

theorem mem_tput_self {α : Type} (t : Tab α) (k : Nat) (v : α) : (k, v) ∈ tput t k v := by
  induction t with
  | nil => simp [tput]
  | cons x rest ih =>
    obtain ⟨j, w⟩ := x
    by_cases hj : j = k
    · simp [tput, hj]
    · by_cases hk : k < j <;> simp [tput, hj, hk, ih]

theorem macControlReceive_pause {bs : List Byte} (h : be16 bs 14 = 1) :
    macControlReceive p bs s = if bitOf (pn s (0x100004 + 256 * p)) 1 then pauseFor p 8 (be16 bs 16) (countPort p 7 1 s)
      else countPort p 7 1 s := if_pos h

theorem macControlReceive_other {bs : List Byte} (h1 : be16 bs 14 ≠ 1) (hp : be16 bs 14 ≠ 0x0101) :
    macControlReceive p bs s = countPort p 9 1 s := (if_neg h1).trans (if_neg hp)

theorem paused_pauseFor (c quanta : Nat) : (port (pauseFor p c quanta s) p).paused =
    if quanta = 0 then (port s p).paused.filter (fun e => e.1 != c)
    else tput (port s p).paused c (s.clk + quantaTicks (port s p).speed quanta) := by
  rw [pauseFor, port_modPort_same]

/-! ### The end of a pause -/

theorem exec_pauseExpiry {p : Fin 32} {c : Fin 8} (h : s.tap = false) :
    exec (.pauseExpiry p c) s = .next (pauseExpiryEffect p c s) := live_next s (pauseExpiryEffect p c) h

/-- The pauses of class k end at an instant. -/
def endPause (p : Nat) (e : Nat × Nat) (s : State) : State :=
  modPort p (fun x => { x with paused := x.paused.filter (fun d => d.1 != e.1) }) (waitUntil e.2 s)

theorem endPause_past {e : Nat × Nat} (h : e.2 ≤ s.clk) : (endPause p e s).clk = s.clk ∧
    (port (endPause p e s) p).paused = (port s p).paused.filter (fun d => d.1 != e.1) := by
  rw [endPause, waitUntil_past h, port_modPort_same]
  exact ⟨rfl, rfl⟩

/-- The ends of pauses that have come: each takes the pauses of its class, and no time passes. -/
theorem pauses_end (l : List (Nat × Nat)) (s : State) (hpast : ∀ e ∈ l, e.2 ≤ s.clk) :
    (forEach l (endPause p) s).clk = s.clk ∧
      ∀ e, e ∈ (port (forEach l (endPause p) s) p).paused ↔ e ∈ (port s p).paused ∧ ∀ d ∈ l, e.1 ≠ d.1 := by
  induction l generalizing s with
  | nil => exact ⟨rfl, fun e => by simp [forEach]⟩
  | cons d rest ih =>
    obtain ⟨hnow, hpaused⟩ := endPause_past (p := p) (hpast d List.mem_cons_self)
    obtain ⟨hclk, hmem⟩ := ih (endPause p d s) (fun e he => hnow ▸ hpast e (List.mem_cons_of_mem _ he))
    refine ⟨hclk.trans hnow, fun e => (hmem e).trans ?_⟩
    rw [hpaused, List.mem_filter, List.forall_mem_cons, bne_iff_ne, and_assoc]

/-- The pauses of a class end, and those of every class (802.3x, class 8) with them. -/
theorem pauseExpiry_ends (c : Nat) (hpast : ∀ e ∈ (port s p).paused, e.2 ≤ s.clk) :
    (pauseExpiryEffect p c s).clk = s.clk ∧
      ∀ e, e ∈ (port (pauseExpiryEffect p c s) p).paused ↔ e ∈ (port s p).paused ∧ e.1 ≠ c ∧ e.1 ≠ 8 := by
  obtain ⟨hclk, hmem⟩ := pauses_end (p := p) ((port s p).paused.filter fun e => e.1 == c || e.1 == 8) s
    (fun e he => hpast e (List.mem_filter.1 he).1)
  refine ⟨hclk, fun e => (hmem e).trans (and_congr_right fun he => ⟨fun h => ?_, fun ⟨hc, h8⟩ d hd => ?_⟩)⟩
  · by_contra hcon
    exact h e (List.mem_filter.2 ⟨he, by simpa [Classical.not_and_iff_not_or_not, or_iff_not_imp_left] using hcon⟩) rfl
  · have hd' := (List.mem_filter.1 hd).2
    intro heq
    rw [← heq] at hd'
    simp [hc, h8] at hd'

/-! ### Control frames sent -/

theorem exec_macControlSend {p : Fin 32} (h : s.tap = false) :
    exec (.macControlSend p) s = .next (macControlSendEffect p s) := live_next s (macControlSendEffect p) h

theorem exec_pfcRefresh {p : Fin 32} (h : s.tap = false) : exec (.pfcRefresh p) s = .next (pfcRefreshEffect p s) :=
  live_next s (pfcRefreshEffect p) h

/-- A pause for every class is due, which goes before the classes' own (R254). -/
def pauseDue (s : State) (p : Nat) : Bool := (port s p).ctlDue.any fun e => e.1 == 8

/-- The due class goes out with the next control frame. -/
def goesOut (pause : Bool) (c : Nat) : Bool := if pause then c == 8 else decide (c < 8)

/-- The due frame goes: its classes are due no more, and their XOFF counts from now. -/
def ctlGone (s : State) (p : Nat) (x : Port) : Port :=
  { x with
    ctlDue := x.ctlDue.filter (fun e => !goesOut (pauseDue s p) e.1),
    xoff := x.xoff.map fun e => if goesOut (pauseDue s p) e.1 then (e.1, { e.2 with sentAt := s.clk }) else e }

theorem macControlSend_sends (hd : (port s p).ctlDue ≠ []) (hw : (port s p).wire = none) (hl : (port s p).link = true)
    (hs : s.safety.safe = false) (hq : disturbsLaunch s p = false) (hf : (port s p).freeAt ≤ s.clk) :
    macControlSendEffect p s = leaves p (controlFrame s p (pauseDue s p)) (bwCount p true 64
      (countPort p (if pauseDue s p then 18 else 19) 1 (modPort p (ctlGone s p) s))) := by
  have hnow : (if (port s p).wire.isNone && (port s p).ctlDue != [] then waitUntil (port s p).freeAt s else s) = s := by
    rw [waitUntil_past hf, ite_self]
  unfold macControlSendEffect
  dsimp only
  rw [hnow]
  exact if_neg (by simp [hd, hw, hl, hs, hq])

/-- A frame that leaves a port outside loopback. -/
theorem port_leaves (bytes : List Byte) (h : loopback s p = 0) : port (leaves p bytes s) p = { port s p with
    freeAt := s.clk + byteTicks (port s p).speed (8 + bytes.length) + byteTicks (port s p).speed 12,
    sent := (port s p).sent ++ [bytes] } := by
  have heq : leaves p bytes s = modPort p (fun x => { x with sent := x.sent ++ [bytes] })
      (modPort p (fun x => { x with
        freeAt := s.clk + byteTicks (port s p).speed (8 + bytes.length) + byteTicks x.speed 12 }) s) := if_pos h
  rw [heq, port_modPort_same, port_modPort_same]

theorem loopback_of_params {u : State} (h : u.params = s.params) (p : Nat) : loopback u p = loopback s p := by
  simp only [loopback, pn, pw, h]

theorem port_macControlSend (hd : (port s p).ctlDue ≠ []) (hw : (port s p).wire = none) (hl : (port s p).link = true)
    (hs : s.safety.safe = false) (hq : disturbsLaunch s p = false) (hb : loopback s p = 0)
    (hf : (port s p).freeAt ≤ s.clk) :
    port (macControlSendEffect p s) p = { ctlGone s p (port s p) with
      freeAt := s.clk + byteTicks (port s p).speed (8 + (controlFrame s p (pauseDue s p)).length)
        + byteTicks (port s p).speed 12,
      sent := (port s p).sent ++ [controlFrame s p (pauseDue s p)] } := by
  have hback : Evolves 0x80100 (modPort p (ctlGone s p) s) (bwCount p true 64
      (countPort p (if pauseDue s p then 18 else 19) 1 (modPort p (ctlGone s p) s))) :=
    bwCount_ev rfl (countPort_ev rfl (.refl _))
  have hparams := hback.frame .params |>.resolve_left (by decide)
  rw [macControlSend_sends hd hw hl hs hq hf, port_leaves _ ((loopback_of_params hparams p).trans hb), port_bwCount,
    port_countPort, port_modPort_same, clk_bwCount, clk_countPort]
  rfl

/-- Settles O28: received pauses and their ends, control frames sent, and the refresh of XOFF. -/
theorem flowControlPausesAndAnnounces : Obligations.FlowControlPausesAndAnnounces := by
  unfold Obligations.FlowControlPausesAndAnnounces
  refine ⟨fun s p bs => ⟨?_, ?_, ?_, macControlReceive_other⟩, ?_, ?_, ?_⟩
  · intro hop hflow
    rw [macControlReceive_pause hop, hflow]
    rfl
  · intro hop hflow hq
    rw [macControlReceive_pause hop, if_pos hflow, paused_pauseFor, if_neg hq.ne', clk_countPort, port_countPort]
    exact mem_tput_self _ _ _
  · intro hop hflow hq e he
    rw [macControlReceive_pause hop, if_pos hflow, paused_pauseFor, if_pos hq] at he
    simpa using (List.mem_filter.1 he).2
  · intro s p c htap hpast
    exact ⟨_, exec_pauseExpiry htap, pauseExpiry_ends c hpast⟩
  · intro s p htap hd hw hl hs hq hb hf
    refine ⟨_, exec_macControlSend htap, ?_⟩
    rw [port_macControlSend hd hw hl hs hq hb hf]
    refine ⟨rfl, rfl, fun ⟨d, hmem, h8⟩ e => ?_, fun hno e => ?_⟩
    · have hpause : pauseDue s p = true := List.any_eq_true.2 ⟨d, hmem, by simpa using h8⟩
      simp [ctlGone, goesOut, hpause]
    · have hpause : pauseDue s p = false := List.any_eq_false.2 fun d hmem => by simpa using hno d hmem
      simp only [ctlGone, goesOut, hpause, List.mem_filter]
      simp only [Bool.false_eq_true, if_false, Bool.not_eq_true', decide_eq_false_iff_not]
      exact and_congr_right fun he => by have := hno e he; omega
  · intro s p c x htap hx hpast
    rw [exec_pfcRefresh htap, pfcRefreshEffect]
    dsimp only
    rw [hx]
    dsimp only [List.foldl, forEach]
    rw [min_self, waitUntil_past hpast, if_pos hpast]

end Sys2Proof.Machine
end

section
/-! PROOFS. The Thicket: the frames it takes, what it refuses, delivery by DEFAULT_ACTION, and the ends of extended flow
lookups (chapter 9). -/

namespace Sys2Proof.Machine

variable {s u : State} {p : Nat} {item : RxItem} {rest : List RxItem}

/-! ### The frame taken -/

/-- The three EccHit values that the Thicket's own memories give, and none: the row errors apart. -/
theorem exec_thicketResolve {ecc : EccHit} (h : s.tap = false) (he : ∀ a i r, ecc ≠ .thicketRow a i r) :
    exec (.thicketResolve ecc) s = .next (thicketResolveEffect ecc s) := by
  rw [show exec (.thicketResolve ecc) s = execThicketResolve ecc s from rfl, execThicketResolve, live_next s _ h]
  cases ecc with
  | thicketRow a i r => exact absurd rfl (he a i r)
  | _ => rfl

/-- The state in which the Thicket treats the frame it has taken from port p. -/
def taken (p : Nat) (item : RxItem) (rest : List RxItem) (s : State) : State :=
  { modPort p (rxTake item s.clk rest) s with thicket := { s.thicket with last := p } }

theorem thicketResolve_takes {ecc : EccHit} (hlost : frameLost s = false) (hsleep : s.power.asleep = false)
    (hroom : s.thicket.waiting.length < 4) (hnext : thicketNext s = some p) (hrx : (port s p).rx = item :: rest) :
    thicketResolveEffect ecc s = treatFrame p item ecc (taken p item rest s) := by
  have hcond : ¬((frameLost s : Prop) ∨ (s.power.asleep : Prop) ∨ s.thicket.waiting.length ≥ 4) := by
    simp [hlost, hsleep, hroom]
  unfold thicketResolveEffect
  rw [if_neg hcond, hnext]
  dsimp only
  rw [hrx]
  rfl

/-! ### What the Thicket refuses -/

theorem treatFrame_barred (h : s.pair.role = 2 ∨ s.pair.role = 3 ∨ s.safety.safe = true) :
    treatFrame p item .none s = countPort p 11 1 s :=
  (if_neg (by decide)).trans ((if_neg (by decide)).trans (if_pos h))

/-- The frame passes the filters of its port (R277, R278). -/
def passes (s : State) (p : Nat) (bs : List Byte) : Bool :=
  addressOk s p bs && vlanOk s p ((parse bs).vid (pn s (0x100008 + 256 * p)))

theorem treatFrame_open (hrole : s.pair.role < 2) (hsafe : s.safety.safe = false) :
    treatFrame p item .none s = if passes s p item.bytes then lookUp p item s else countPort p 11 1 s := by
  have hserve : ¬(s.pair.role = 2 ∨ s.pair.role = 3 ∨ (s.safety.safe : Prop)) := by
    rw [hsafe]
    simp only [Bool.false_eq_true, or_false]
    omega
  unfold treatFrame passes
  rw [if_neg nofun, if_neg nofun, if_neg hserve]
  dsimp only
  cases addressOk s p item.bytes with
  | false => rfl
  | true => cases vlanOk s p ((parse item.bytes).vid (pn s (0x100008 + 256 * p))) <;> rfl

/-! ### DEFAULT_ACTION -/

/-- No rule wins and DEFAULT_ACTION asks for nothing: the frame is dropped and counted. -/
theorem resolveActions_nothing (row : Option Nat) :
    resolveActions p item row {} s = countPort p 12 1 (perfAdd 0x050001 1 s) := by
  simp [resolveActions, relayAsk]

theorem rx_xoffEnter (c : Nat) (refused : Option (Option Nat)) (k : Nat) :
    (port (xoffEnter p c refused s) k).rx = (port s k).rx := by
  unfold xoffEnter
  split
  · by_cases hk : k = p
    · subst hk
      rw [port_modPort_same]
    · rw [port_modPort_ne _ _ _ _ hk]
  · rfl

theorem rx_xoffJudge (c : Nat) (refused : Option (Option Nat)) (k : Nat) :
    (port (xoffJudge p c refused s) k).rx = (port s k).rx := by
  unfold xoffJudge
  generalize flowClasses c = l
  induction l generalizing s with
  | nil => rfl
  | cons j l ih =>
    refine (ih ..).trans ?_
    dsimp only
    split
    · exact rx_xoffEnter ..
    · rfl

theorem takeIn_kept (f : GFrame) : (takeIn f s).tenants = s.tenants ∧ (takeIn f s).ports = s.ports :=
  ⟨(takeIn_ev (by decide) (.refl s)).kept .tenants, (takeIn_ev (by decide) (.refl s)).kept .ports⟩

@[simp] theorem takeIn_nextFrame (f : GFrame) : (takeIn f s).nextFrame = s.nextFrame + 1 := by
  have hpeak : ∀ v : State, (peak v).nextFrame = v.nextFrame := fun v =>
    (peak_ev (by decide) (.refl v)).kept .nextFrame
  simp [takeIn, hpeak]

theorem modRing_nextFrame (t r : Nat) (f : Ring → Ring) : (modRing t r f s).nextFrame = s.nextFrame := rfl

theorem port_perfAdd (c n k : Nat) : port (perfAdd c n s) k = port s k :=
  port_of_ports ((perfAdd_ev (by decide) (.refl s)).kept .ports) k

/-- A frame that is only delivered joins its ring; its port's other frames stay. -/
theorem delivered_kept (row : Option Nat) {t k : Nat} (hadm : admits s (some t) (cellsFor item.bytes.length) = true) :
    (resolveActions p item row { deliver := some (t, k) } s).nextFrame = s.nextFrame + 1
      ∧ (ring (resolveActions p item row { deliver := some (t, k) } s) t (68 + k)).refs =
          (ring s t (68 + k)).refs ++ [s.nextFrame]
      ∧ (port (resolveActions p item row { deliver := some (t, k) } s) p).rx = (port s p).rx := by
  rw [resolveActions_of_deliver row hadm]
  refine ⟨?_, ?_, ?_⟩
  · rw [modRing_nextFrame, (xoffJudge_ev (by decide) (.refl _)).kept .nextFrame, takeIn_nextFrame, perfAdd_nextFrame]
  · rw [ring_modRing_same, ring_of_tenants ((xoffJudge_ev (by decide) (.refl _)).kept .tenants),
      ring_of_tenants (takeIn_kept _).1, ring_perfAdd]
  · have hring : ∀ (f : Ring → Ring) (v : State), port (modRing t (68 + k) f v) p = port v p := fun _ _ => rfl
    rw [hring, rx_xoffJudge, port_of_ports (takeIn_kept _).2, port_perfAdd]

/-- The delivery that DEFAULT_ACTION asks for. -/
def defaultDelivery (s : State) : Option (Nat × Nat) :=
  if bitOf (pn s 0x200005) 0 then some (bits (pn s 0x200005) 1 2, bits (pn s 0x200005) 3 6) else none

/-- DEFAULT_ACTION without a lookup: its delivery alone. -/
theorem actionsOf_default (h9 : bitOf (pn s 0x200005) 9 = false) :
    actionsOf s none = { deliver := defaultDelivery s } := by
  simp only [actionsOf, h9]
  rfl

theorem lookUp_default (hrule : ruleOf s p item = none) (h9 : bitOf (pn s 0x200005) 9 = false) :
    lookUp p item s = resolveActions p item none { deliver := defaultDelivery s } s := by
  have hact := actionsOf_default h9
  rw [lookUp_of_ext_false (by rw [hrule, hact]), hrule, hact]

/-- Settles O30: the frame's own errors, what is refused, and DEFAULT_ACTION. -/
theorem theThicketTreatsFramesInOrder : Obligations.TheThicketTreatsFramesInOrder := by
  unfold Obligations.TheThicketTreatsFramesInOrder
  rintro s p item rest _ u htap hlost hsleep hroom hnext hrx rfl hu
  change u = taken p item rest s at hu
  subst hu
  have htake := fun {ecc : EccHit} (he : ∀ a i r, ecc ≠ .thicketRow a i r) =>
    (exec_thicketResolve htap he).trans (congrArg _ (thicketResolve_takes hlost hsleep hroom hnext hrx))
  refine ⟨?_, ?_, fun h => ?_, fun hrole hsafe => ⟨fun hbar => ?_, fun hpass => ⟨?_, fun hrule => ⟨?_, ?_⟩⟩⟩⟩
  · exact (htake (by simp)).trans (congrArg _ (if_pos rfl))
  · exact (htake (by simp)).trans (congrArg _ ((if_neg nofun).trans (if_pos rfl)))
  · rw [htake (by simp), treatFrame_barred (s := taken p item rest s) h]
  · have hpass : passes (taken p item rest s) p item.bytes = false := hbar
    rw [htake (by simp), treatFrame_open (s := taken p item rest s) hrole hsafe, if_neg (ne_true_of_eq_false hpass)]
  · have hopen : passes (taken p item rest s) p item.bytes = true := hpass
    rw [htake (by simp), treatFrame_open (s := taken p item rest s) hrole hsafe, if_pos hopen]
  · intro h0 h9
    have hopen : passes (taken p item rest s) p item.bytes = true := hpass
    have hnone : ruleOf (taken p item rest s) p item = none := hrule
    have h0' : bitOf (pn (taken p item rest s) 0x200005) 0 = false := h0
    rw [htake (by simp), treatFrame_open (s := taken p item rest s) hrole hsafe, if_pos hopen, lookUp_default hnone h9, defaultDelivery,
      if_neg (ne_true_of_eq_false h0'), resolveActions_nothing]
  · intro t k h0 h9 ht hk hadm
    have hopen : passes (taken p item rest s) p item.bytes = true := hpass
    have hnone : ruleOf (taken p item rest s) p item = none := hrule
    have h0' : bitOf (pn (taken p item rest s) 0x200005) 0 = true := h0
    have hadm' : admits (taken p item rest s) (some t) (cellsFor item.bytes.length) = true := hadm
    have hdefault := lookUp_default hnone h9
    have hdeliver : defaultDelivery (taken p item rest s) = some (t, k) := by
      rw [defaultDelivery, if_pos h0', ht, hk]
      rfl
    rw [hdeliver] at hdefault
    obtain ⟨hnumber, hrefs, hport⟩ := delivered_kept (p := p) (k := k) none hadm'
    have hframe := frame_resolveActions_of_deliver (p := p) (k := k) none hadm'
    refine ⟨_, htake (by simp), ?_⟩
    rw [treatFrame_open (s := taken p item rest s) hrole hsafe, if_pos hopen, hdefault, hnumber, hrefs, hport]
    have hid : (taken p item rest s).nextFrame = s.nextFrame := rfl
    rw [← hid, hframe]
    exact ⟨rfl, rfl, rfl, rfl, rfl, congrArg Port.rx (port_modPort_same s p (rxTake item s.clk rest))⟩

/-! ### Extended flow lookups -/

section Lookups

variable {f : TFrame}

theorem exec_extFlowReadEnd {p : Fin 32} {r : ExtRead} {ecc : Bool} (h : s.tap = false) :
    exec (.extFlowReadEnd ⟨p, r, ecc⟩) s = .next (extFlowReadEndEffect p r ecc s) :=
  live_next s (extFlowReadEndEffect p r ecc) h

theorem extFlow_lost {r : ExtRead} {ecc : Bool} (h : frameLost s = true) : extFlowReadEndEffect p r ecc s = s := by
  unfold extFlowReadEndEffect
  split
  · rfl
  · exact if_pos h

/-- Without a usable unit there is no host read. -/
theorem lookUp_unusable (hext : (actionsOf s (ruleOf s p item)).ext = true) (hctl : bitOf (pn s 0x200000) 0 = true)
    (hudp : (parse item.bytes).udp = true)
    (h : fenced s 18 = true ∨ (ten s (flowTenant s)).inReset = true ∨ canIssue s (flowTenant s) = false) :
    lookUp p item s = settleFrame p item none (perfAdd 0x050002 1 s) := by
  refine (if_neg (by simp [hext, hctl, hudp])).trans (if_pos ?_)
  obtain h | h | h := h <;> simp [h]

/-- The frame leaves its lookup as a miss, which raises source 14. -/
def missFrame (p : Nat) (f : TFrame) (s : State) : State :=
  settleFrame p f.item none (raise 0 14 (readDrop f.tenant (lookupWho p) s))

variable (hlost : frameLost s = false) (hf : s.thicket.waiting.find? (fun f => f.port == p) = some f)

include hlost hf

theorem extFlow_ecc (r : ExtRead) : extFlowReadEndEffect p r true s =
    countPort p 14 1 (setMFault 3 10 31 0x48 0 false (readDrop f.tenant (lookupWho p) (leaveWaiting p s))) := by
  unfold extFlowReadEndEffect
  rw [hf]
  exact (if_neg (ne_true_of_eq_false hlost)).trans (if_pos rfl)

theorem extFlow_abandoned (r : ExtRead) (hreset : (ten s f.tenant).resets ≠ f.resets) :
    extFlowReadEndEffect p r false s = settleFrame p f.item none (leaveWaiting p s) := by
  unfold extFlowReadEndEffect
  rw [hf]
  exact (if_neg (ne_true_of_eq_false hlost)).trans ((if_neg Bool.false_ne_true).trans (if_pos hreset))

variable (hreset : (ten s f.tenant).resets = f.resets)

include hreset

theorem extFlow_failed {r : HostRead} (h : r = .ur ∨ r = .ca) :
    extFlowReadEndEffect p (.done r) false s = missFrame p f (leaveWaiting p s) := by
  unfold extFlowReadEndEffect
  rw [hf]
  refine (if_neg (ne_true_of_eq_false hlost)).trans ((if_neg Bool.false_ne_true).trans
    ((if_neg (not_not.2 hreset)).trans ?_))
  obtain rfl | rfl := h <;> rfl

theorem extFlow_timeout (hpast : f.readAt + cplTimeout s f.tenant ≤ s.clk) :
    extFlowReadEndEffect p .timeout false s =
      missFrame p f (perfAdd (0x0A0004 + 256 * f.tenant) 1 (leaveWaiting p s)) := by
  have hnow : waitUntil (f.readAt + cplTimeout s f.tenant) (leaveWaiting p s) = leaveWaiting p s := waitUntil_past hpast
  unfold extFlowReadEndEffect
  rw [hf]
  refine (if_neg (ne_true_of_eq_false hlost)).trans ((if_neg Bool.false_ne_true).trans
    ((if_neg (not_not.2 hreset)).trans ?_))
  dsimp only
  rw [hnow]
  rfl

theorem extFlow_data {host bytes : List Byte} {v : State}
    (h : readServe f.tenant f.addr 64 (lookupWho p) host (leaveWaiting p s) = (bytes, v)) :
    extFlowReadEndEffect p (.done (.data host)) false s = settleFrame p f.item (some (f.tenant, bytes)) v := by
  unfold extFlowReadEndEffect
  rw [hf]
  refine (if_neg (ne_true_of_eq_false hlost)).trans ((if_neg Bool.false_ne_true).trans
    ((if_neg (not_not.2 hreset)).trans ?_))
  dsimp only
  rw [h]

end Lookups

/-! ### The row a lookup reads -/

section Rows

variable {t : Nat} {q : Parsed} {bs row : List Byte} {a : Actions}

/-- A delivery of another tenant stands, whatever the row says. -/
theorem flowApply_other {hit : Bool} {x k : Nat} (h : flowHit q bs row = some hit) (hd : a.deliver = some (x, k))
    (hx : x ≠ t) : flowApply t q bs row a = a := by
  simp [flowApply, h, hd, hx]

/-- Within the owner's own deliveries the row decides. -/
theorem flowApply_mine {hit : Bool} (h : flowHit q bs row = some hit) (hd : ∀ x k, a.deliver = some (x, k) → x = t) :
    (flowApply t q bs row a).deliver = if hit then some (t, bits (leNat (slice row 40 4)) 16 6) else none := by
  cases hdel : a.deliver with
  | none => simp [flowApply, h, hdel]
  | some d => simp [flowApply, h, hdel, hd d.1 d.2 hdel]

end Rows

/-- Settles O31: each end of a waiting lookup, and what the row it read makes of the actions. -/
theorem extendedFlowLookupsEnd : Obligations.ExtendedFlowLookupsEnd := by
  unfold Obligations.ExtendedFlowLookupsEnd
  refine ⟨?_, ?_, ?_, ?_, ?_⟩
  · rintro s _ p f _ htap hlost hf rfl rfl
    refine ⟨fun r => ?_, fun hreset r => ?_, fun hreset => ⟨fun r h => ?_, fun hpast => ?_, fun host bytes v hv => ?_⟩⟩
    · rw [exec_extFlowReadEnd htap, extFlow_ecc hlost hf]
    · rw [exec_extFlowReadEnd htap, extFlow_abandoned hlost hf r hreset]
    · rw [exec_extFlowReadEnd htap, extFlow_failed hlost hf hreset h, missFrame]
    · rw [exec_extFlowReadEnd htap, extFlow_timeout hlost hf hreset hpast, missFrame]
    · rw [exec_extFlowReadEnd htap, extFlow_data hlost hf hreset hv.symm]
  · intro s p r ecc htap hlost
    rw [exec_extFlowReadEnd htap, extFlow_lost hlost]
  · intro s p item hext hctl hudp h
    exact lookUp_unusable hext hctl hudp h
  · rintro s p t item bytes _ rfl
    exact ⟨rfl, fun hext => by simp only [settleFrame, hext, if_true]⟩
  · intro t q bs row a
    refine ⟨fun h => by simp [flowApply, h], fun d x k h hd hx => flowApply_other h hd hx, fun h hd => ?_, fun h hd => ?_⟩
    · rw [flowApply_mine h hd, if_neg Bool.false_ne_true]
    · rw [flowApply_mine h hd, if_pos rfl]

end Sys2Proof.Machine
end

section
/-! PROOFS. Pulses and captures, the timebase PLL (chapter 10), and the presentation of sources (chapter 15). -/

namespace Sys2Proof.Machine

variable {s : State} {w : Nat}

/-! ### PPS_OUT -/

theorem exec_ppsOutPulse (h : s.tap = false) : exec .ppsOutPulse s = .next (ppsOutPulseEffect s) :=
  live_next s ppsOutPulseEffect h

theorem exec_ppsOutEnd (h : s.tap = false) : exec .ppsOutEnd s = .next (ppsOutEndEffect s) := live_next s ppsOutEndEffect h

theorem ppsOutPulse_due (hdue : s.time.ppsDue = true) : ppsOutPulseEffect s = ppsRise s :=
  congrArg ppsRise (if_neg (by simp [hdue]))

theorem ppsOutPulse_off (hoff : bitOf (pn s 0x300003) 0 = false) (hdue : s.time.ppsDue = false) :
    ppsOutPulseEffect s = s :=
  (congrArg ppsRise (if_neg (by simp [hoff]))).trans (if_pos (by simp [hdue]))

/-- A boundary that was reached by counting, awake and with the timebase in lock: PPS_OUT rises. -/
theorem ppsRise_rises (hdue : s.time.ppsDue = true) (ha : s.power.asleep = false) (hl : s.time.lost = false)
    (hon : bitOf (pn s 0x300003) 0 = true) : ppsRise s = { s with time := { s.time with
      ppsDue := false, ppsOut := some ((s.time.fixed + us (bits (pn s 0x300003) 8 16)) % 2 ^ 48) } } :=
  (if_neg (by simp [hdue])).trans (if_neg (by simp [ha, hl, hon]))

theorem ppsOutEnd_now (hout : s.time.ppsOut = some s.time.fixed) :
    ppsOutEndEffect s = { s with time := { s.time with ppsOut := none } } := by
  have hleft : (s.time.fixed + 2 ^ 48 - s.time.fixed) % 2 ^ 48 = 0 := by
    rw [Nat.add_sub_cancel_left, Nat.mod_self]
  unfold ppsOutEndEffect
  rw [hout]
  dsimp only
  rw [hleft, if_pos (Nat.zero_le _), wait_zero]

/-! ### Captures -/

theorem exec_ppsInCapture {e : Edge} (h : s.tap = false) : exec (.ppsInCapture e) s = .next (ppsInCaptureEffect e s) :=
  live_next s (ppsInCaptureEffect e) h

theorem exec_evtInCapture {i : Fin 2} {e : Edge} (h : s.tap = false) :
    exec (.evtInCapture i e) s = .next (evtInCaptureEffect i e s) := live_next s (evtInCaptureEffect i e) h

theorem capture_short {i : Nat} {e : Edge} (h : e.widthNs < 20) : capture i e s = s := if_pos (by simp [h])

theorem capture_close {i d at0 : Nat} {e : Edge} (hcap : s.time.cap.find? (fun c => c.1 == i) = some (i, d, at0))
    (hclose : s.clk ≤ at0 + us 1) : capture i e s = s := by
  unfold capture
  rw [hcap]
  exact if_pos (by simp [hclose])

/-- Input i is captured now: the state before its sources are raised. -/
def captured (i : Nat) (s : State) : State :=
  forAll 5 (fun w s => modWin w (fun x => { x with capNew := x.capNew ||| BitVec.ofNat 3 (2 ^ i) }) s)
    { s with time := { s.time with cap := tput s.time.cap i (s.time.dev, s.clk) } }

theorem capture_takes {i : Nat} {e : Edge} (hwide : 20 ≤ e.widthNs) (hpll : s.time.pll = true)
    (hcap : s.time.cap.find? (fun c => c.1 == i) = none) :
    capture i e s = raise 0 (16 + i) (raiseTenants (46 + i) (captured i s)) := by
  unfold capture
  rw [hcap]
  exact if_neg (by simp [hpll, Nat.not_lt.2 hwide])

/-- The sources of input i are raised. -/
def raised (i : Nat) (s : State) : State := raise 0 (16 + i) (raiseTenants (46 + i) s)

theorem raised_ev (i : Nat) : Evolves 0x100 s (raised i s) := raise_ev rfl (raiseTenants_ev rfl (.refl s))

/-- CAP_NEW of every window has bit i set. -/
def markNew (i : Nat) (s : State) : State :=
  forAll 5 (fun w s => modWin w (fun x => { x with capNew := x.capNew ||| BitVec.ofNat 3 (2 ^ i) }) s) s

theorem markNew_ev (i : Nat) : Evolves 0x10 s (markNew i s) :=
  forAll_ev 5 _ (fun _ _ hv => modWin_ev rfl hv) (.refl s)

theorem capNew_markNew {i : Nat} (hi : i < 3) (hw : w < 5) : (win (markNew i s) w).capNew.getLsbD i = true := by
  refine forAll_achieves (pre := fun _ => True) (post := fun v => (win v w).capNew.getLsbD i = true) hw
    (fun _ _ _ _ => trivial) (fun v _ => ?_) (fun j v hj hv => ?_) trivial
  · rw [win_modWin_same]
    exact getLsbD_orBit _ hi
  · rw [win_modWin_ne _ _ _ _ hj.symm]
    exact hv

/-- After a capture: the instant and the device time stand for the input, and every window is told. -/
theorem captured_reads {i : Nat} (hi : i < 3) :
    tget (raised i (captured i s)).time.cap i (0, 0) = (s.time.dev, s.clk)
      ∧ ∀ w, w < 5 → (win (raised i (captured i s)) w).capNew.getLsbD i = true := by
  have htime : (raised i (captured i s)).time = { s.time with cap := tput s.time.cap i (s.time.dev, s.clk) } :=
    ((raised_ev i).frame .time |>.resolve_left (by decide)).trans
      ((markNew_ev i).frame .time |>.resolve_left (by decide))
  refine ⟨?_, fun w hw => ?_⟩
  · rw [htime]
    exact tget_tput_same _ _ _ _
  · rw [win_of_wins ((raised_ev i).frame .wins |>.resolve_left (by decide))]
    exact capNew_markNew hi hw

theorem evtInCapture_ignored {i : Nat} {e : Edge}
    (h : bitOf (bits (pn s 0x300005) (2 * i) 2) (if e.falling then 1 else 0) = false ∨ e.widthNs < 20) :
    evtInCaptureEffect i e s = s := by
  refine if_neg ?_
  obtain h | h := h
  · simp [h]
  · simp [Nat.not_le.2 h]

theorem wake_awake {a b c : Nat} (h : s.power.asleep = false) : wake a b c s = s := if_pos (by simp [h])

/-- Awake, the selected edge is captured and wakes nothing. -/
theorem evtInCapture_takes {i : Nat} {e : Edge}
    (hsel : bitOf (bits (pn s 0x300005) (2 * i) 2) (if e.falling then 1 else 0) = true) (hwide : 20 ≤ e.widthNs)
    (hpll : s.time.pll = true) (ha : s.power.asleep = false) (hcap : s.time.cap.find? (fun c => c.1 == i) = none) :
    evtInCaptureEffect i e s = raised i (captured i s) := by
  have hawake : (raised i (captured i s)).power.asleep = false := by
    rw [(raised_ev i).frame .power |>.resolve_left (by decide)]
    exact (congrArg Power.asleep ((markNew_ev i).frame .power |>.resolve_left (by decide))).trans ha
  refine (if_pos (by simp [hsel, hwide])).trans ?_
  rw [capture_takes hwide hpll hcap, ← raised, wake_awake hawake, ite_self]

/-! ### The timebase PLL -/

theorem exec_timebasePllLock (h : s.tap = false) : exec .timebasePllLock s = .next (timebasePllLockEffect s) :=
  live_next s timebasePllLockEffect h

theorem exec_pllLockLoss (h : s.tap = false) : exec .pllLockLoss s = .next (pllLockLossEffect s) :=
  live_next s pllLockLossEffect h

/-- Loss of lock: LOST is set, and the fault leads to the device safe state. -/
theorem pllLockLoss_loses (hpll : s.time.pll = true) (hlost : s.time.lost = false) :
    (pllLockLossEffect s).time.lost = true ∧ (pllLockLossEffect s).safety.safe = true
      ∧ (pllLockLossEffect s).mgmt.fault.getLsbD 6 = true := by
  have heq : pllLockLossEffect s = safeFault 6 1 31 0 0 (drawn { s with
      time := { s.time with lost := true, dev := freeNat s % (2 ^ 48 * 65536000000000) } }) :=
    if_neg (by simp [hpll, hlost])
  rw [heq]
  refine ⟨?_, safeFault_safe _ _ _ _ _ _, ?_⟩
  · rw [(safeFault_ev (by decide) (.refl _)).kept .time]
    rfl
  · rw [safeFault_fault]
    exact getLsbD_orBit _ (by decide)

/-- Settles O34: PPS_OUT, the captures of both kinds of input, and the PLL. -/
theorem pulsesAreCapturedAndTheTimebaseLocks : Obligations.PulsesAreCapturedAndTheTimebaseLocks := by
  unfold Obligations.PulsesAreCapturedAndTheTimebaseLocks
  refine ⟨⟨?_, ?_, ?_, ?_, ?_⟩, ?_, ?_, ?_⟩
  · intro s htap hdue ha hl hon
    exact ⟨_, (exec_ppsOutPulse htap).trans (congrArg _ ((ppsOutPulse_due hdue).trans (ppsRise_rises hdue ha hl hon))),
      rfl, rfl, rfl⟩
  · intro s htap hoff hdue
    rw [exec_ppsOutPulse htap, ppsOutPulse_off hoff hdue]
  · intro s htap hout _
    rw [exec_ppsOutEnd htap, ppsOutEnd_now hout]
  · intro s e htap
    rw [exec_ppsInCapture htap]
    refine ⟨fun h => congrArg _ ?_, fun hon hedge hwide hpll => ⟨fun d at0 hcap hclose => congrArg _ ?_, fun hcap => ?_⟩⟩
    · unfold ppsInCaptureEffect
      obtain h | h | h := h
      · exact if_neg (by simp [h])
      · exact if_neg (by simp [h])
      · rw [capture_short h]
        exact ite_self _
    · unfold ppsInCaptureEffect
      rw [capture_close hcap hclose]
      exact ite_self _
    · have hsel : ppsInCaptureEffect e s = raised 2 (captured 2 s) :=
        (if_pos (by simp [hon, hedge])).trans (capture_takes hwide hpll hcap)
      rw [hsel]
      exact ⟨_, rfl, captured_reads (by decide)⟩
  · intro s i e htap
    rw [exec_evtInCapture htap]
    refine ⟨fun h => congrArg _ (evtInCapture_ignored h), fun hsel hwide hpll ha hcap => ?_⟩
    rw [evtInCapture_takes hsel hwide hpll ha hcap]
    exact ⟨_, rfl, captured_reads (i.isLt.trans (by decide))⟩
  · intro s htap hpll hfailed hrun
    rw [exec_timebasePllLock htap]
    exact congrArg _ (if_neg (by simp [hpll, hfailed, hrun]))
  · intro s htap h
    rw [exec_timebasePllLock htap]
    exact congrArg _ (if_pos (by obtain h | h := h <;> simp [h]))
  · intro s htap hpll hlost
    exact ⟨_, exec_pllLockLoss htap, pllLockLoss_loses hpll hlost⟩

/-! ### Presentation -/

theorem exec_presentation {w : Fin 5} (h : s.tap = false) : exec (.presentation w) s = .next (presentationEffect w s) :=
  live_next s (presentationEffect w) h

/-- Window w presents from now on. -/
def presentNow (w : Nat) (s : State) : State :=
  modWin w (fun x => { x with presenting := true, sinceClaim := 3, presentAt := some s.clk }) s

theorem presentation_idle (h : presentable s w = false ∨ (win s w).presenting = true) : presentationEffect w s = s :=
  if_pos (by obtain h | h := h <;> simp [h])

/-- Once MIN_GAP has passed the window presents; a T window with MSI enabled at both ends sends its message. -/
theorem presentation_presents (hp : presentable s w = true) (hn : (win s w).presenting = false)
    (hgap : ∀ at0, (win s w).presentAt = some at0 → at0 + us (pn s (0x600000 + 256 * w)) ≤ s.clk) :
    presentationEffect w s = if w ≠ 0 ∧ (win s w).msiEn ∧ (link s (w - 1)).msiEn then
      post (w - 1) (link s (w - 1)).msiAddr.toNat (leBytes 4 (link s (w - 1)).msiData.toNat) (presentNow w s)
      else presentNow w s := by
  have hmsi : (win (presentNow w s) w).msiEn = (win s w).msiEn := by rw [presentNow, win_modWin_same]
  unfold presentationEffect
  rw [if_neg (by simp [hp, hn])]
  cases hat : (win s w).presentAt with
  | none =>
    dsimp only
    rw [← presentNow, hmsi]
    rfl
  | some at0 =>
    dsimp only
    rw [waitUntil_past (hgap at0 hat), ← presentNow, hmsi]
    rfl

/-- Settles O36: a window presents when it may and its gap has passed, with its MSI where both ends enable it. -/
theorem windowsPresentTheirSources : Obligations.WindowsPresentTheirSources := by
  unfold Obligations.WindowsPresentTheirSources
  intro s w htap
  rw [exec_presentation htap]
  refine ⟨fun h => congrArg _ (presentation_idle h), fun hp hn hgap => ⟨_, _, rfl, rfl, fun h => ?_, fun hw h1 h2 => ?_⟩⟩
  · rw [presentation_presents hp hn hgap]
    refine if_neg fun ⟨hw, h1, h2⟩ => ?_
    obtain h | h | h := h
    · exact hw (by rw [h]; rfl)
    · exact Bool.false_ne_true (h.symm.trans h1)
    · exact Bool.false_ne_true (h.symm.trans h2)
  · rw [presentation_presents hp hn hgap]
    exact if_pos ⟨fun h => hw (Fin.ext h), h1, h2⟩

end Sys2Proof.Machine
end

section
/-! PROOFS. The Ride link (chapter 16): frames sent and received, acknowledgement, resending and the link's fall. -/

namespace Sys2Proof.Machine

variable {s t : State} {f : RideFrame}

/-! ### What the link's state rests on -/

theorem pairingLost_congr (hp : t.params = s.params) (hf : t.fences = s.fences) : pairingLost t = pairingLost s := by
  simp only [pairingLost, fenced, hp, hf]

theorem rideOpen_congr (hl : t.pair.link = s.pair.link) (hp : t.params = s.params) (hf : t.fences = s.fences)
    (hs : t.safety = s.safety) : rideOpen t = rideOpen s := by
  simp only [rideOpen, pairingLost_congr hp hf, hl, hs]

theorem rideOpen_iff : rideOpen s = true ↔ s.pair.link = true ∧ pairingLost s = false ∧ s.safety.safe = false := by
  simp [rideOpen, and_assoc]

theorem rideOpen_modPair {g : Pair → Pair} (h : (g s.pair).link = s.pair.link) :
    rideOpen (modPair g s) = rideOpen s :=
  rideOpen_congr (t := modPair g s) h rfl rfl rfl

theorem raise_pair (w n : Nat) (s : State) : (raise w n s).pair = s.pair := (raise_ev (by decide) (.refl s)).kept .pair

/-! ### Frames sent -/

theorem rideSend_open {type : Nat} {payload : List Byte} (h : rideOpen s = true) : rideSend type payload s =
    modPair (fun x => { x with
      sent := x.sent ++ [⟨rideHeader s type payload.length s.pair.seq s.pair.epoch, payload⟩] }) s := if_pos h

/-- An unsequenced frame leaves the pairing state but for the frames sent. -/
theorem rideSend_pair (type : Nat) (payload : List Byte) (s : State) :
    ∃ fs, (rideSend type payload s).pair = { s.pair with sent := fs } := by
  unfold rideSend
  split
  · exact ⟨_, rfl⟩
  · exact ⟨_, rfl⟩

theorem rideAck_pair (s : State) : ∃ fs, (rideAck s).pair = { s.pair with sent := fs } := by
  unfold rideAck
  split
  · exact rideSend_pair 5 [] s
  · exact ⟨_, rfl⟩

theorem rideTold_pair (s t : State) : ∃ fs, (rideTold s t).pair = { t.pair with sent := fs } := by
  unfold rideTold
  split
  · exact ⟨_, rfl⟩
  · exact rideAck_pair t

theorem rideNak_naked (h : s.pair.naked = true) : rideNak s = s := if_pos h

/-- The first NAK of a gap. -/
theorem rideNak_first (h : s.pair.naked = false) :
    rideNak s = rideSend 6 [] (modPair (fun x => { x with naked := true }) s) := if_neg (by simp [h])

/-- The pairing state after waiting frames have left: they are sent, and unacknowledged. -/
def pumped (q : Nat) (new : List RideOut) (x : Pair) : Pair :=
  { x with seq := q, sent := x.sent ++ new.map (·.frame), unacked := x.unacked ++ new, waiting := x.waiting.drop new.length }

theorem modPair_pumped_nil (s : State) : modPair (pumped s.pair.seq []) s = s := by simp [modPair, pumped]

theorem ridePump_idle (n : Nat) (h : s.pair.waiting = []) : ridePump n s = s := by
  cases n with
  | zero => rfl
  | succ n => rw [ridePump, h]

/-- The frame that leaves first. -/
def firstOut (ty e : Nat) (p : List Byte) (s : State) : RideOut :=
  ⟨⟨rideHeader s ty p.length s.pair.seq e, p⟩, s.clk, s.clk, 1⟩

theorem ridePump_succ {n ty e : Nat} {p : List Byte} {rest : List (Nat × Nat × List Byte)}
    (hw : s.pair.waiting = (ty, e, p) :: rest) (hc : rideCredit s = true) :
    ridePump (n + 1) s = ridePump n (modPair (pumped ((s.pair.seq + 1) % 65536) [firstOut ty e p s]) s) := by
  rw [ridePump, hw]
  refine (if_pos hc).trans (congrArg (ridePump n) ?_)
  simp [rideNew, modPair, pumped, firstOut, rideHeader, ownPrio, pn, pw, hw]

/-- Waiting frames leave, each at this instant and for the first time. -/
theorem ridePump_sends (n : Nat) (s : State) : ∃ q new, ridePump n s = modPair (pumped q new) s
    ∧ ∀ o ∈ new, o.count = 1 ∧ o.first = s.clk := by
  induction n generalizing s with
  | zero => exact ⟨_, [], (modPair_pumped_nil s).symm, by simp⟩
  | succ n ih =>
    cases hw : s.pair.waiting with
    | nil => exact ⟨_, [], (ridePump_idle (n + 1) hw).trans (modPair_pumped_nil s).symm, by simp⟩
    | cons w rest =>
      obtain ⟨ty, e, p⟩ := w
      cases hc : rideCredit s with
      | false =>
        refine ⟨_, [], Eq.trans ?_ (modPair_pumped_nil s).symm, by simp⟩
        rw [ridePump, hw]
        exact if_neg (by simp [hc])
      | true =>
        rw [ridePump_succ hw hc]
        obtain ⟨q, new, heq, hnew⟩ := ih (modPair (pumped ((s.pair.seq + 1) % 65536) [firstOut ty e p s]) s)
        refine ⟨q, firstOut ty e p s :: new, ?_, ?_⟩
        · rw [heq]
          simp [modPair, pumped]
        · intro o ho
          rcases List.mem_cons.mp ho with rfl | ho
          · exact ⟨rfl, rfl⟩
          · exact hnew o ho

/-! ### The fields every frame carries (R477, R478) -/

/-- The pairing state once the fields of a frame are read. -/
def fieldsTaken (f : RideFrame) (x : Pair) : Pair :=
  let a := f.hdr.ack.toNat
  let gone := x.unacked.filter fun o => below 65536 o.frame.hdr.seq.toNat a
  let done := gone.any fun o => o.frame.hdr.type == 4 && x.syncEnd == some o.frame.hdr.epoch.toNat
  { x with
    unacked := x.unacked.filter (fun o => !below 65536 o.frame.hdr.seq.toNat a),
    partnerCredit := f.hdr.credit.toNat, partnerRole := f.hdr.role.toNat, partnerPrio := f.hdr.priority.toNat,
    resyncAsked := x.resyncAsked || f.hdr.flags.getLsbD 1,
    synced := x.synced || done, syncEnd := if done then none else x.syncEnd }

theorem rideFields_eq (f : RideFrame) (s : State) :
    rideFields f s = rideMark (ridePump 64 (modPair (fieldsTaken f) s)) := rfl

theorem rideMark_pair (s : State) : (rideMark s).pair = s.pair := (rideMark_ev (by decide) (.refl s)).kept .pair

theorem rideFields_pair (f : RideFrame) (s : State) : ∃ q new,
    (rideFields f s).pair = pumped q new (fieldsTaken f s.pair) ∧ ∀ o ∈ new, o.count = 1 ∧ o.first = s.clk := by
  obtain ⟨q, new, heq, hnew⟩ := ridePump_sends 64 (modPair (fieldsTaken f) s)
  refine ⟨q, new, ?_, hnew⟩
  rw [rideFields_eq, rideMark_pair, heq]
  rfl

/-- With no frame waiting none leaves. -/
theorem rideFields_pair_idle (f : RideFrame) (h : s.pair.waiting = []) :
    (rideFields f s).pair = fieldsTaken f s.pair := by
  rw [rideFields_eq, rideMark_pair, ridePump_idle 64 (s := modPair (fieldsTaken f) s) h]
  rfl

theorem rideFields_frame (f : RideFrame) (s : State) : Evolves 0x8100000 s (rideFields f s) :=
  rideFields_ev (by decide) (.refl s)

theorem rideFields_params (f : RideFrame) (s : State) : (rideFields f s).params = s.params :=
  ((rideFields_frame f s).frame .params).resolve_left (by decide)

theorem rideFields_clk (f : RideFrame) (s : State) : (rideFields f s).clk = s.clk :=
  ((rideFields_frame f s).frame .clk).resolve_left (by decide)

theorem rideFields_fences (f : RideFrame) (s : State) : (rideFields f s).fences = s.fences :=
  ((rideFields_frame f s).frame .fences).resolve_left (by decide)

theorem rideFields_safety (f : RideFrame) (s : State) : (rideFields f s).safety = s.safety :=
  ((rideFields_frame f s).frame .safety).resolve_left (by decide)

theorem rideFields_link (f : RideFrame) (s : State) : (rideFields f s).pair.link = s.pair.link := by
  obtain ⟨q, new, heq, -⟩ := rideFields_pair f s
  rw [heq]
  rfl

theorem rideOpen_rideFields (f : RideFrame) (s : State) : rideOpen (rideFields f s) = rideOpen s :=
  rideOpen_congr (rideFields_link f s) (rideFields_params f s) (rideFields_fences f s) (rideFields_safety f s)

/-! ### Frames received (R478) -/

theorem rideReceive_closed {ty : Nat} {b : Bool} {act : State → State} (h : rideOpen s = false) :
    rideReceive ty b f act s = s := if_pos (by simp [h])

theorem rideReceive_illegal {ty : Nat} {b : Bool} {act : State → State} (h : rideOpen s = true)
    (hl : rideLegal ty f = false) : rideReceive ty b f act s = rideNak s :=
  (if_neg (by simp [h])).trans (if_pos (by simp [hl]))

theorem rideReceive_plain {ty : Nat} {act : State → State} (h : rideOpen s = true) (hl : rideLegal ty f = true) :
    rideReceive ty false f act s = act (rideFields f s) :=
  (if_neg (by simp [h])).trans ((if_neg (by simp [hl])).trans (if_pos rfl))

/-- The frame that comes next is received: ACK moves past it. -/
def rideTaken (f : RideFrame) (s : State) : State :=
  modPair (fun x => { x with ack := (x.ack + 1) % 65536, naked := false }) (rideFields f s)

theorem rideReceive_next {ty : Nat} {act : State → State} (h : rideOpen s = true) (hl : rideLegal ty f = true)
    (hq : f.hdr.seq.toNat = s.pair.ack) : rideReceive ty true f act s = rideAck (act (rideTaken f s)) :=
  (if_neg (by simp [h])).trans ((if_neg (by simp [hl])).trans ((if_neg (by decide)).trans (if_pos hq)))

theorem rideReceive_other {ty : Nat} {act : State → State} (h : rideOpen s = true) (hl : rideLegal ty f = true)
    (hq : f.hdr.seq.toNat ≠ s.pair.ack) : rideReceive ty true f act s =
      if above 65536 f.hdr.seq.toNat s.pair.ack then rideNak s else rideSend 5 [] s :=
  (if_neg (by simp [h])).trans ((if_neg (by simp [hl])).trans ((if_neg (by decide)).trans (if_neg hq)))

/-- A frame is received: a command is this rule for its type, its sequencing and its act. -/
def Receives (c : Instr) (ty : Nat) (sequenced : Bool) (f : RideFrame) (act : State → State) : Prop :=
  ∀ s : State, s.tap = false → exec c s = .next (rideReceive ty sequenced f act s)

theorem receives_data (f : RideFrame) (ecc : Bool) : Receives (.dataFrame f ecc) 3 true f (dataAct ecc f) :=
  fun s h => live_next s (dataFrameEffect f ecc) h

theorem receives_commit (f : RideFrame) (ecc : Bool) : Receives (.commitFrame ⟨f, ecc⟩) 4 true f (commitAct ecc f) :=
  fun s h => live_next s (commitFrameEffect f ecc) h

theorem receives_switchRequest (f : RideFrame) : Receives (.switchRequest f) 7 true f (switchRequestAct f) :=
  fun s h => live_next s (switchRequestEffect f) h

theorem receives_switchDone (f : RideFrame) : Receives (.switchDone f) 7 true f (switchDoneAct f) :=
  fun s h => live_next s (switchDoneEffect f) h

theorem receives_leave (f : RideFrame) : Receives (.leaveFrame f) 8 true f leaveAct :=
  fun s h => live_next s (leaveFrameEffect f) h

theorem receives_hello (f : RideFrame) : Receives (.helloFrame f) 1 false f (helloAct f) :=
  fun s h => live_next s (helloFrameEffect f) h

theorem receives_heartbeat (f : RideFrame) : Receives (.heartbeatFrame f) 2 false f (heartbeatAct f) :=
  fun s h => live_next s (heartbeatFrameEffect f) h

theorem receives_ack (f : RideFrame) : Receives (.ackFrame f) 5 false f id :=
  fun s h => live_next s (ackFrameEffect f) h

theorem receives_nak (f : RideFrame) : Receives (.nakFrame f) 6 false f (resendOr fun _ => true) :=
  fun s h => live_next s (nakFrameEffect f) h

/-- The commands of the sequenced frames, each with its type. -/
theorem receives_of_mem {ty : Nat} {c : Instr} (h : (ty, c) ∈ [(3, Instr.dataFrame f false), (3, .dataFrame f true),
    (4, .commitFrame ⟨f, false⟩), (4, .commitFrame ⟨f, true⟩), (7, .switchRequest f), (7, .switchDone f),
    (8, .leaveFrame f)]) : ∃ act, Receives c ty true f act := by
  simp only [List.mem_cons, Prod.mk.injEq, List.not_mem_nil, or_false] at h
  rcases h with ⟨rfl, rfl⟩ | ⟨rfl, rfl⟩ | ⟨rfl, rfl⟩ | ⟨rfl, rfl⟩ | ⟨rfl, rfl⟩ | ⟨rfl, rfl⟩ | ⟨rfl, rfl⟩
  · exact ⟨_, receives_data f false⟩
  · exact ⟨_, receives_data f true⟩
  · exact ⟨_, receives_commit f false⟩
  · exact ⟨_, receives_commit f true⟩
  · exact ⟨_, receives_switchRequest f⟩
  · exact ⟨_, receives_switchDone f⟩
  · exact ⟨_, receives_leave f⟩

/-- The commands of the unsequenced frames, each with its type. -/
theorem receives_of_mem_plain {ty : Nat} {c : Instr} (h : (ty, c) ∈ [(1, Instr.helloFrame f), (2, .heartbeatFrame f),
    (5, .ackFrame f), (6, .nakFrame f)]) : ∃ act, Receives c ty false f act := by
  simp only [List.mem_cons, Prod.mk.injEq, List.not_mem_nil, or_false] at h
  rcases h with ⟨rfl, rfl⟩ | ⟨rfl, rfl⟩ | ⟨rfl, rfl⟩ | ⟨rfl, rfl⟩
  · exact ⟨_, receives_hello f⟩
  · exact ⟨_, receives_heartbeat f⟩
  · exact ⟨_, receives_ack f⟩
  · exact ⟨_, receives_nak f⟩

/-! ### The bytes of a frame (R476) -/

theorem exec_discardedRideFrame {bytes : List Byte} (h : s.tap = false) :
    exec (.discardedRideFrame bytes) s = .next (discardedRideFrameEffect bytes s) :=
  live_next s (discardedRideFrameEffect bytes) h

/-- The sixteen header bytes of a frame (Table 16.2). -/
def headerBytes (h : RideHeader) : List Byte :=
  leBytes 1 h.type.toNat ++ leBytes 1 h.flags.toNat ++ leBytes 2 h.len ++ leBytes 2 h.seq.toNat
    ++ leBytes 2 h.ack.toNat ++ leBytes 4 h.epoch.toNat ++ leBytes 2 h.credit.toNat ++ leBytes 1 h.role.toNat
    ++ leBytes 1 h.priority.toNat

theorem headerBytes_length (h : RideHeader) : (headerBytes h).length = 16 := by
  simp [headerBytes]

theorem rideBytes_eq (f : RideFrame) : rideBytes f = headerBytes f.hdr ++ f.payload
    ++ leBytes 4 (crc32 (headerBytes f.hdr ++ f.payload)) := rfl

theorem byteAt_rideBytes (f : RideFrame) : byteAt (rideBytes f) 0 = f.hdr.type.toNat := by
  simp [rideBytes_eq, headerBytes, byteAt, leBytes]

theorem slice_rideBytes (f : RideFrame) : slice (rideBytes f) 2 2 = leBytes 2 f.hdr.len := by
  simp [rideBytes_eq, headerBytes, slice, leBytes]

/-- The bytes of a frame whose LEN is its payload's are good when TYPE and LEN are of Table 16.3. -/
theorem rideGood_rideBytes (hlen : f.hdr.len < 65536) (hp : f.payload.length = f.hdr.len) :
    rideGood (rideBytes f) = rideLegal f.hdr.type.toNat f := by
  have hsize : (headerBytes f.hdr ++ f.payload).length = 16 + f.hdr.len := by
    rw [List.length_append, headerBytes_length, hp]
  have hall : (rideBytes f).length = 20 + f.hdr.len := by
    rw [rideBytes_eq, List.length_append, hsize, leBytes_length]
    omega
  have hn : (rideBytes f).length - 4 = 16 + f.hdr.len := by omega
  have htake : (rideBytes f).take (16 + f.hdr.len) = headerBytes f.hdr ++ f.payload := by
    rw [rideBytes_eq, ← hsize, List.take_left]
  have hdrop : (rideBytes f).drop (16 + f.hdr.len) = leBytes 4 (crc32 (headerBytes f.hdr ++ f.payload)) := by
    rw [rideBytes_eq, ← hsize, List.drop_left]
  unfold rideGood rideLegal
  dsimp only
  rw [hn, htake, hdrop, leNat_leBytes 4 _ (crc32_lt _), slice_rideBytes, leNat_leBytes 2 _ hlen, byteAt_rideBytes, hall, hp]
  simp

/-! ### Resending (R480) -/

/-- A frame as it is sent again: RETRANSMIT and the fields of this instant. -/
def resentFrame (s : State) (o : RideOut) : RideFrame := { o.frame with hdr := { o.frame.hdr with
  flags := BitVec.ofNat 8 (1 + flag s.pair.resync 1), ack := BitVec.ofNat 16 s.pair.ack,
  credit := BitVec.ofNat 16 s.pair.credit } }

/-- Every unacknowledged frame is sent again, in order. -/
def resentAll (s : State) : State := modPair (fun x => { x with
  sent := x.sent ++ s.pair.unacked.map (resentFrame s),
  unacked := x.unacked.map fun o => { o with last := s.clk, count := o.count + 1 } }) s

theorem resentFrame_keeps (s : State) (o : RideOut) :
    ((resentFrame s o).hdr.type, (resentFrame s o).hdr.seq, (resentFrame s o).payload)
      = (o.frame.hdr.type, o.frame.hdr.seq, o.frame.payload) := rfl

theorem resentAll_sent_length (s : State) :
    (resentAll s).pair.sent.length = s.pair.sent.length + s.pair.unacked.length := by
  simp [resentAll, modPair]

/-- What is sent again carries the TYPE, SEQ and payload of what was sent. -/
theorem resentAll_sent (s : State) :
    (((resentAll s).pair.sent.drop s.pair.sent.length).map fun g => (g.hdr.type, g.hdr.seq, g.payload))
      = s.pair.unacked.map fun o => (o.frame.hdr.type, o.frame.hdr.seq, o.frame.payload) := by
  simp [resentAll, modPair, Function.comp_def, resentFrame]

theorem resendOr_within (h : ∀ o ∈ s.pair.unacked, o.count < 5 ∧ s.clk ≤ o.first + us 500) :
    resendOr (fun _ => true) s = resentAll s := by
  have hany : (s.pair.unacked.any fun o => true && (decide (o.count ≥ 5) || decide (s.clk > o.first + us 500))) = false := by
    rw [List.any_eq_false]
    intro o ho
    obtain ⟨hc, hf⟩ := h o ho
    simp only [Bool.true_and, Bool.or_eq_true, decide_eq_true_eq, not_or, not_le, not_lt, ge_iff_le, gt_iff_lt]
    exact ⟨hc, hf⟩
  unfold resendOr rideResend
  dsimp only
  rw [hany]
  simp only [resentAll, Bool.false_eq_true, if_false, if_true, List.filter_true]
  rfl

theorem resendOr_spent (h : ∃ o ∈ s.pair.unacked, 5 ≤ o.count ∨ o.first + us 500 < s.clk) :
    resendOr (fun _ => true) s = rideDown s := by
  have hany : (s.pair.unacked.any fun o => true && (decide (o.count ≥ 5) || decide (s.clk > o.first + us 500))) = true := by
    rw [List.any_eq_true]
    obtain ⟨o, ho, hspent⟩ := h
    exact ⟨o, ho, by simpa using hspent⟩
  unfold resendOr rideResend
  dsimp only
  rw [hany]
  rfl

theorem exec_retransmissionTimeout (h : s.tap = false) :
    exec .retransmissionTimeout s = .next (retransmissionTimeoutEffect s) := live_next s retransmissionTimeoutEffect h

theorem retransmissionTimeout_idle (h : s.pair.unacked = []) : retransmissionTimeoutEffect s = s := by
  rw [retransmissionTimeoutEffect, h]

theorem retransmissionTimeout_closed (h : rideOpen s = false) : retransmissionTimeoutEffect s = s := by
  unfold retransmissionTimeoutEffect
  split
  · rfl
  · exact if_neg (by simp [h])

theorem retransmissionTimeout_open {o : RideOut} {rest : List RideOut} (h : rideOpen s = true)
    (hu : s.pair.unacked = o :: rest) :
    retransmissionTimeoutEffect s = resendOr (fun _ => true) (waitUntil (o.last + us 100) s) := by
  rw [retransmissionTimeoutEffect, hu]
  exact if_pos h

theorem waitUntil_pair (n : Nat) (s : State) : (waitUntil n s).pair = s.pair :=
  (waitUntil_ev (by decide) (.refl s)).kept .pair

/-! ### The link's fall (R475, R490) -/

theorem abortChan_pair (c : Nat) (s : State) : (abortChan c s).pair = s.pair :=
  (abortChan_ev (by decide) (.refl s)).kept .pair

/-- The session is over: nothing of it waits or is unacknowledged. -/
def sessionOver (x : Pair) : Pair := { x with
  link := false, hello := false, unacked := [], waiting := [], naked := false, out := [], switchAsked := false }

theorem rideDown_pair (h : s.pair.link = true) : (rideDown s).pair = sessionOver (discardEpochs s).pair := by
  refine (congrArg State.pair (if_neg (by simp [h]) : rideDown s = _)).trans ?_
  dsimp only
  split
  · exact abortChan_pair 6 _
  · rfl

theorem rideDown_closed (h : s.pair.link = false) : rideDown s = s := if_pos (by simp [h])

/-- Settles O49: each frame is received by one rule (`rideReceive_closed`, `_illegal`, `_next`, `_other`, `_plain`), the
fields of a frame retire and grant as `rideFields_pair` says, and a resend is `resentAll` or the link's fall. -/
theorem rideFramesAreKeptInSequence : Obligations.RideFramesAreKeptInSequence := by
  unfold Obligations.RideFramesAreKeptInSequence
  refine ⟨fun s f htap => ⟨?_, ?_, ?_, ?_, ?_, ?_, ?_, ?_⟩, fun s u f htap hopen hu => ⟨?_, ?_, ?_, ?_⟩, ?_,
    fun s u o rest htap hopen hun hu => ⟨?_, ?_⟩, ?_⟩
  · refine fun hclosed => ⟨fun bytes => ?_, ?_⟩
    · rw [exec_discardedRideFrame htap]
      exact congrArg _ (if_neg (by simp [hclosed]))
    · rw [exec_retransmissionTimeout htap, retransmissionTimeout_closed hclosed]
  · intro hopen bytes
    rw [exec_discardedRideFrame htap, discardedRideFrameEffect, hopen]
    cases rideGood bytes <;> rfl
  · exact rideGood_rideBytes
  · intro ty c hc
    obtain ⟨act, hact⟩ := receives_of_mem hc
    rw [hact s htap]
    refine ⟨fun h => ?_, fun h hl => ?_, fun h hl hq => ?_⟩
    · rw [rideReceive_closed h]
    · rw [rideReceive_illegal h hl]
    · rw [rideReceive_other h hl hq]
  · intro ty c hc
    obtain ⟨act, hact⟩ := receives_of_mem_plain hc
    rw [hact s htap]
    refine ⟨fun h => ?_, fun h hl => ?_⟩
    · rw [rideReceive_closed h]
    · rw [rideReceive_illegal h hl]
  · exact fun _ => rideNak_naked
  · intro hopen hnaked
    rw [rideNak_first hnaked, rideSend_open ((rideOpen_modPair rfl).trans hopen)]
    exact ⟨_, rfl, rfl, rfl, rfl⟩
  · intro hopen
    rw [rideSend_open hopen]
    exact ⟨_, rfl, rfl, rfl, rfl, rfl⟩
  · intro hl
    rw [receives_ack f s htap, rideReceive_plain hopen hl, hu]
    rfl
  · obtain ⟨q, new, hpair, hnew⟩ := rideFields_pair f s
    rw [hu, hpair]
    exact ⟨rfl, rfl, rfl, rfl, rfl, new, rfl, rfl, rfl, hnew⟩
  · intro hl hwithin
    rw [receives_nak f s htap, rideReceive_plain hopen hl, ← hu, resendOr_within (s := u)]
    · refine ⟨_, rfl, ?_, ?_, resentAll_sent_length u, resentAll_sent u⟩
      · exact hu ▸ rideFields_link f s
      · rw [resentAll, hu, rideFields_clk]
        rfl
    · rw [hu, rideFields_clk, ← hu]
      exact hwithin
  · intro hl hspent
    rw [receives_nak f s htap, rideReceive_plain hopen hl, ← hu, resendOr_spent]
    rw [hu, rideFields_clk, ← hu]
    exact hspent
  · intro s htap hun
    rw [exec_retransmissionTimeout htap, retransmissionTimeout_idle hun]
  · intro hwithin
    have hpair : u.pair = s.pair := hu ▸ waitUntil_pair _ s
    have hall : u.pair.unacked = o :: rest := hpair ▸ hun
    rw [exec_retransmissionTimeout htap, retransmissionTimeout_open hopen hun, ← hu,
      resendOr_within (by rwa [hall])]
    refine ⟨_, rfl, ?_, (congrArg Pair.link hpair :), ?_, ?_⟩
    · exact congrArg (List.map fun x => { x with last := u.clk, count := x.count + 1 }) hall
    · rw [resentAll_sent_length, hall, hpair]
      rfl
    · rw [← hpair, resentAll_sent, hall]
  · intro hspent
    have hall : u.pair.unacked = o :: rest := by rw [hu, waitUntil_pair, hun]
    rw [exec_retransmissionTimeout htap, retransmissionTimeout_open hopen hun, ← hu,
      resendOr_spent (by rwa [hall])]
  · intro s hlink
    rw [rideDown_pair hlink]
    exact ⟨rfl, rfl, rfl⟩

end Sys2Proof.Machine
end

section
/-! PROOFS. Joining, roles, heartbeats and takeovers of a pair (chapter 16). -/

namespace Sys2Proof.Machine

variable {s t : State} {f : RideFrame}

/-! ### The pairing state after an operation that it shares -/

theorem pairAlarm_pair (s : State) : (pairAlarm s).pair = { s.pair with alarm := true } := raise_pair 0 9 _

theorem setRole_pair (r : Nat) (s : State) :
    ∃ at0 w, (setRole r s).pair = { s.pair with role := r, roleAt := at0, witness := w } := by
  unfold setRole
  split
  · next h => exact ⟨s.pair.roleAt, s.pair.witness, by rw [← h]⟩
  · exact ⟨_, _, raise_pair 0 9 _⟩

/-- What an ACTIVE begins with. -/
theorem becomeActive_pair (s : State) : ∃ x : Pair, (becomeActive s).pair = x ∧ x.role = 1 ∧ x.mirroring = true
    ∧ x.alarm = s.pair.alarm ∧ x.hello = s.pair.hello ∧ x.uid = s.pair.uid := by
  obtain ⟨at0, w, h⟩ := setRole_pair 1 s
  refine ⟨_, rfl, ?_⟩
  rw [becomeActive, syncStart, modPair_pair, modPair_pair, h]
  exact ⟨rfl, rfl, rfl, rfl, rfl⟩

/-- What a STANDBY begins with. -/
theorem becomeStandby_pair (s : State) : ∃ x : Pair, (becomeStandby s).pair = x ∧ x.role = 2 ∧ x.synced = false
    ∧ x.mirroring = false ∧ x.switching = 0 ∧ x.alarm = s.pair.alarm ∧ x.hello = s.pair.hello ∧ x.uid = s.pair.uid
    ∧ x.heartbeat = s.pair.heartbeat ∧ x.heartAt = s.pair.heartAt := by
  obtain ⟨at0, w, h⟩ := setRole_pair 2 (modPair (fun x => { x with
    mirroring := false, journal := [], syncLeft := none, out := [], switching := 0 }) s)
  refine ⟨_, rfl, ?_⟩
  rw [becomeStandby, modPair_pair, h]
  exact ⟨rfl, rfl, rfl, rfl, rfl, rfl, rfl, rfl, rfl⟩

/-! ### The end of an epoch in progress (R490) -/

theorem discardEpoch_none (h : s.pair.inEpoch = none) : discardEpoch s = s := by rw [discardEpoch, h]

theorem discardEpoch_some {e : EpochIn} (h : s.pair.inEpoch = some e) : discardEpoch s =
    abortChan 7 (bumpParam 0x700004 1 (drainBuffers (fun b => b.epoch == e.epoch)
      (modPair (fun x => { x with inEpoch := none, resync := true }) s))) := by rw [discardEpoch, h]

/-- The pairing state without an epoch in progress: a resync is asked for where there was one. -/
def epochGone (c : Nat) (bs : List RideBuf) (x : Pair) : Pair :=
  { x with inEpoch := none, resync := x.resync || x.inEpoch.isSome, credit := c, buffers := bs }

theorem epochGone_none {x : Pair} (h : x.inEpoch = none) : epochGone x.credit x.buffers x = x := by
  rw [epochGone, h, Option.isSome_none, Bool.or_false, ← h]

/-- An epoch's end frees buffers and grants their credits. -/
theorem discardEpoch_pair (s : State) : ∃ c bs, (discardEpoch s).pair = epochGone c bs s.pair := by
  cases h : s.pair.inEpoch with
  | none => exact ⟨_, _, (congrArg State.pair (discardEpoch_none h)).trans (epochGone_none h).symm⟩
  | some e =>
    refine ⟨(s.pair.credit + (s.pair.buffers.filter fun b => b.epoch == e.epoch).length) % 65536,
      s.pair.buffers.filter fun b => !(b.epoch == e.epoch), ?_⟩
    rw [discardEpoch_some h, abortChan_pair, epochGone, h, Option.isSome_some, Bool.or_true]
    rfl

theorem discardEpochs_pair (s : State) : ∃ c, (discardEpochs s).pair = epochGone c [] s.pair := by
  obtain ⟨c, bs, h⟩ := discardEpoch_pair s
  refine ⟨(c + (bs.filter fun _ => true).length) % 65536, ?_⟩
  rw [discardEpochs, drainBuffers, modPair_pair, h]
  simp [epochGone]

theorem pw_congr (h : t.params = s.params) (id : Nat) : pw t id = pw s id := by rw [pw, h, pw]

theorem abortChan_params (c : Nat) (s : State) : (abortChan c s).params = s.params :=
  (abortChan_ev (by decide) (.refl s)).kept .params

theorem pw_discardEpoch_ne {id : Nat} (h : id ≠ 0x700004) (s : State) : pw (discardEpoch s) id = pw s id := by
  cases he : s.pair.inEpoch with
  | none => rw [discardEpoch_none he]
  | some e =>
    rw [discardEpoch_some he, pw_congr (abortChan_params 7 _), bumpParam, pw_setPw_ne h]
    rfl

theorem pw_discardEpoch {e : EpochIn} (h : s.pair.inEpoch = some e) :
    pw (discardEpoch s) 0x700004 = word (stick 24 (pn s 0x700004) 1) := by
  rw [discardEpoch_some h, pw_congr (abortChan_params 7 _), bumpParam, pw_setPw_same]
  rfl

theorem rideDown_params (h : s.pair.link = true) : (rideDown s).params = (discardEpoch s).params := by
  refine (congrArg State.params (if_neg (by simp [h]) : rideDown s = _)).trans ?_
  dsimp only
  split
  · exact abortChan_params 6 _
  · rfl

/-! ### Joining (R475, R481) -/

theorem exec_rideLinkUp (h : s.tap = false) : exec .rideLinkUp s = .next (rideLinkUpEffect s) :=
  live_next s rideLinkUpEffect h

theorem exec_rideLinkDown (h : s.tap = false) : exec .rideLinkDown s = .next (rideDown s) := live_next s rideDown h

theorem exec_helloSend (h : s.tap = false) : exec .helloSend s = .next (helloSendEffect s) :=
  live_next s helloSendEffect h

/-- A session as it begins. -/
def sessionBegun (s : State) : State := modPair (fun x => { x with
  link := true, hello := false, seq := 0, ack := 0, credit := 0, partnerCredit := 0, unacked := [], waiting := [],
  buffers := [], naked := false, helloSent := s.clk }) s

theorem rideLinkUp_begins (hlink : s.pair.link = false) (hen : pairEnabled s = true) (hstart : s.pair.started = true)
    (hlost : pairingLost s = false) (hsafe : s.safety.safe = false) :
    rideLinkUpEffect s = rideSend 1 (helloPayload s) (sessionBegun s) :=
  if_neg (by simp [hlink, hen, hstart, hlost, hsafe])

theorem rideLinkUp_idle (h : s.pair.link = true ∨ pairEnabled s = false) : rideLinkUpEffect s = s :=
  if_pos (by rcases h with h | h <;> simp [h])

theorem helloSend_due (hopen : rideOpen s = true) (hhello : s.pair.hello = false) (hstart : s.pair.started = true)
    (hdue : s.pair.helloSent + us 100 ≤ s.clk) :
    helloSendEffect s = rideSend 1 (helloPayload s) (modPair (fun x => { x with helloSent := s.clk }) s) := by
  refine (if_neg (by simp [hopen, hhello, hstart])).trans ?_
  dsimp only
  rw [waitUntil_past hdue]

theorem helloSend_had (h : s.pair.hello = true) : helloSendEffect s = s := if_pos (by simp [h])

/-! ### The exchange of HELLO (R482) -/

/-- A HELLO of the partner has been seen, and answered. -/
def helloSeen (f : RideFrame) (s : State) : State := modPair (fun x => { x with
  hello := true, credit := if x.credit = 0 ∧ x.ack = 0 then 16 else x.credit, uid := leNat (f.payload.take 6),
  partnerStart := bitOf (byteAt f.payload 9) 0, left := false }) (rideSend 1 (helloPayload s) s)

theorem helloAct_first (hhello : s.pair.hello = false) (hstart : s.pair.started = true) : helloAct f s =
    rideAck (if slice f.payload 7 2 ≠ [0, 1] then pairAlarm (helloSeen f s)
      else resolveRoles (bitOf (byteAt f.payload 9) 1) (bitOf (byteAt f.payload 9) 0) f.hdr.priority.toNat
        (leNat (f.payload.take 6)) (helloSeen f s)) :=
  if_neg (by simp [hhello, hstart])

theorem helloSeen_pair (f : RideFrame) (s : State) : (helloSeen f s).pair.role = s.pair.role
    ∧ (helloSeen f s).pair.alarm = s.pair.alarm ∧ (helloSeen f s).pair.hello = true
    ∧ (helloSeen f s).pair.uid = leNat (f.payload.take 6) ∧ (helloSeen f s).pair.link = s.pair.link := by
  obtain ⟨fs, h⟩ := rideSend_pair 1 (helloPayload s) s
  rw [helloSeen, modPair_pair, h]
  exact ⟨rfl, rfl, rfl, rfl, rfl⟩

theorem rideSend_params (ty : Nat) (p : List Byte) (s : State) : (rideSend ty p s).params = s.params :=
  (rideSend_ev (by decide) (.refl s)).kept .params

theorem winsOver_congr (hr : t.pair.role = s.pair.role) (hp : t.params = s.params) (serving start : Bool)
    (prio uid : Nat) : winsOver t serving start prio uid = winsOver s serving start prio uid := by
  rw [winsOver, winsOver, ownPrio, ownPrio, hr, pn_eq_of_params_eq hp, pn_eq_of_params_eq hp]

theorem resolveRoles_wins {serving start : Bool} {prio uid : Nat} (h : winsOver s serving start prio uid = true) :
    resolveRoles serving start prio uid s =
      if serving && s.pair.role == 1 then pairAlarm (becomeActive s) else becomeActive s := if_pos h

theorem resolveRoles_yields {serving start : Bool} {prio uid : Nat} (h : winsOver s serving start prio uid = false)
    (hr : s.pair.role = 1) : resolveRoles serving start prio uid s = yieldRole s :=
  (if_neg (by simp [h])).trans (if_pos hr)

theorem resolveRoles_joins {serving start : Bool} {prio uid : Nat} (h : winsOver s serving start prio uid = false)
    (hr : s.pair.role = 0) : resolveRoles serving start prio uid s = becomeStandby s :=
  (if_neg (by simp [h])).trans ((if_neg (by omega)).trans (if_neg (by omega)))

theorem yieldRole_linked (h : s.pair.link = true) : yieldRole s = pairAlarm (becomeStandby s) :=
  congrArg pairAlarm (if_pos h)

/-- What the exchange of HELLO leaves, when the versions agree. -/
theorem helloAct_pair (hhello : s.pair.hello = false) (hstart : s.pair.started = true)
    (hver : slice f.payload 7 2 = [0, 1]) : ∃ fs, (helloAct f s).pair = { (resolveRoles (bitOf (byteAt f.payload 9) 1)
      (bitOf (byteAt f.payload 9) 0) f.hdr.priority.toNat (leNat (f.payload.take 6)) (helloSeen f s)).pair with sent := fs } := by
  rw [helloAct_first hhello hstart, if_neg (by simp [hver])]
  exact rideAck_pair _

theorem winsOver_helloSeen (f : RideFrame) (s : State) (serving start : Bool) (prio uid : Nat) :
    winsOver (helloSeen f s) serving start prio uid = winsOver s serving start prio uid :=
  winsOver_congr (helloSeen_pair f s).1 (rideSend_params _ _ s) serving start prio uid

theorem winsOver_rideFields (f : RideFrame) (s : State) (serving start : Bool) (prio uid : Nat)
    (hidle : s.pair.waiting = []) :
    winsOver (rideFields f s) serving start prio uid = winsOver s serving start prio uid :=
  winsOver_congr (by rw [rideFields_pair_idle f hidle, fieldsTaken]) (rideFields_params f s) serving start prio uid

/-- The winner of the exchange is ACTIVE; with ALARM when both were. -/
theorem resolveRoles_wins_pair {serving start : Bool} {prio uid : Nat} (h : winsOver s serving start prio uid = true) :
    ∃ x : Pair, (resolveRoles serving start prio uid s).pair = x ∧ x.role = 1 ∧ x.mirroring = true
      ∧ x.hello = s.pair.hello ∧ x.uid = s.pair.uid ∧ (serving = true → s.pair.role = 1 → x.alarm = true) := by
  obtain ⟨x, hx, hrole, hmir, -, hhello, huid⟩ := becomeActive_pair s
  rw [resolveRoles_wins h]
  split
  · rw [pairAlarm_pair, hx]
    exact ⟨_, rfl, hrole, hmir, hhello, huid, fun _ _ => rfl⟩
  · next hboth =>
    exact ⟨x, hx, hrole, hmir, hhello, huid, fun hs hr => absurd (by simp [hs, hr]) hboth⟩

theorem yieldRole_pair (s : State) : (yieldRole s).pair.hello = s.pair.hello ∧ (yieldRole s).pair.uid = s.pair.uid := by
  obtain ⟨x, hx, -, -, -, -, -, hhello, huid, -⟩ := becomeStandby_pair s
  rw [yieldRole, pairAlarm_pair]
  split
  · rw [hx]
    exact ⟨hhello, huid⟩
  · obtain ⟨at0, w, h⟩ := setRole_pair 3 (becomeStandby s)
    rw [h, hx]
    exact ⟨hhello, huid⟩

/-- Whatever the roles become, the partner stays known. -/
theorem resolveRoles_keeps (serving start : Bool) (prio uid : Nat) (s : State) :
    (resolveRoles serving start prio uid s).pair.hello = s.pair.hello
      ∧ (resolveRoles serving start prio uid s).pair.uid = s.pair.uid := by
  cases hwin : winsOver s serving start prio uid with
  | true =>
    obtain ⟨x, hx, -, -, hhello, huid, -⟩ := resolveRoles_wins_pair hwin
    rw [hx]
    exact ⟨hhello, huid⟩
  | false =>
    have hno : ¬ winsOver s serving start prio uid = true := by simp [hwin]
    unfold resolveRoles
    dsimp only
    rw [if_neg hno]
    split
    · exact yieldRole_pair s
    · split
      · exact ⟨rfl, rfl⟩
      · obtain ⟨x, hx, -, -, -, -, -, hhello, huid, -⟩ := becomeStandby_pair s
        rw [hx]
        exact ⟨hhello, huid⟩

/-- Settles O50: `sessionBegun`, `rideDown_pair` and `resolveRoles` say what each event leaves. -/
theorem pairsJoinAndResolveRoles : Obligations.PairsJoinAndResolveRoles := by
  unfold Obligations.PairsJoinAndResolveRoles
  refine ⟨fun s htap => ⟨?_, ?_, ?_, ?_, ?_, ?_⟩, fun s f serving start uid htap hopen hl hidle hhello hstart hu hst hse => ?_⟩
  · intro hlink hen hstart hlost hsafe
    have hopen : rideOpen (sessionBegun s) = true := rideOpen_iff.mpr ⟨rfl, hlost, hsafe⟩
    rw [exec_rideLinkUp htap, rideLinkUp_begins hlink hen hstart hlost hsafe, rideSend_open hopen]
    exact ⟨_, _, rfl, rfl, rfl, rfl, rfl, rfl, rfl, rfl, rfl⟩
  · intro h
    rw [exec_rideLinkUp htap, rideLinkUp_idle h]
  · intro hlink
    obtain ⟨c, hd⟩ := discardEpochs_pair s
    refine ⟨_, exec_rideLinkDown htap, ?_⟩
    rw [rideDown_pair hlink, hd]
    refine ⟨rfl, rfl, rfl, rfl, rfl, fun hsome => ⟨?_, ?_⟩⟩
    · rw [sessionOver, epochGone, hsome, Bool.or_true]
    · obtain ⟨e, he⟩ := Option.isSome_iff_exists.mp hsome
      rw [pw_congr (rideDown_params hlink), pw_discardEpoch he]
  · intro hlink
    rw [exec_rideLinkDown htap, rideDown_closed hlink]
  · intro hopen hhello hstart hdue
    rw [exec_helloSend htap, helloSend_due hopen hhello hstart hdue, rideSend_open ((rideOpen_modPair rfl).trans hopen)]
    exact ⟨_, _, rfl, rfl, rfl, rfl, rfl⟩
  · intro hhello
    rw [exec_helloSend htap, helloSend_had hhello]
  · have hpair := rideFields_pair_idle f hidle
    have hhello1 : (rideFields f s).pair.hello = false := by rw [hpair, fieldsTaken, hhello]
    have hstart1 : (rideFields f s).pair.started = true := by rw [hpair, fieldsTaken, hstart]
    have hrole : (helloSeen f (rideFields f s)).pair.role = s.pair.role := by
      rw [(helloSeen_pair f _).1, hpair, fieldsTaken]
    have halarm : (helloSeen f (rideFields f s)).pair.alarm = s.pair.alarm := by
      rw [(helloSeen_pair f _).2.1, hpair, fieldsTaken]
    have hlink : (helloSeen f (rideFields f s)).pair.link = true := by
      rw [(helloSeen_pair f _).2.2.2.2, rideFields_link, (rideOpen_iff.mp hopen).1]
    rw [receives_hello f s htap, rideReceive_plain hopen hl]
    refine ⟨fun hver => ⟨_, rfl, ?_⟩, fun hver => ⟨_, rfl, ?_⟩⟩
    · rw [helloAct_first hhello1 hstart1, if_pos hver]
      obtain ⟨fs, hfs⟩ := rideAck_pair (pairAlarm (helloSeen f (rideFields f s)))
      rw [hfs, pairAlarm_pair]
      exact ⟨hrole, rfl⟩
    · obtain ⟨fs, hfs⟩ := helloAct_pair (f := f) hhello1 hstart1 hver
      have hsame : winsOver (helloSeen f (rideFields f s)) serving start f.hdr.priority.toNat uid
          = winsOver s serving start f.hdr.priority.toNat uid :=
        (winsOver_helloSeen f _ _ _ _ _).trans (winsOver_rideFields f s _ _ _ _ hidle)
      rw [hfs, ← hse, ← hst, ← hu]
      refine ⟨?_, ?_, fun hwin => ?_, fun hlose hr => ?_, fun hlose hr => ?_⟩
      · exact (resolveRoles_keeps _ _ _ _ _).1.trans (helloSeen_pair f _).2.2.1
      · exact (resolveRoles_keeps _ _ _ _ _).2.trans ((helloSeen_pair f _).2.2.2.1.trans hu.symm)
      · obtain ⟨x, hx, hrole1, hmir, -, -, hboth⟩ := resolveRoles_wins_pair (hsame.trans hwin)
        rw [hx]
        exact ⟨hrole1, hmir, fun hserve hr => hboth hserve (hrole.trans hr)⟩
      · obtain ⟨x, hx, hrole2, hsync, -, -, hal, -⟩ := becomeStandby_pair (helloSeen f (rideFields f s))
        rw [resolveRoles_joins (hsame.trans hlose) (hrole.trans hr), hx]
        exact ⟨hrole2, hsync, hal.trans halarm⟩
      · obtain ⟨x, hx, hrole2, -⟩ := becomeStandby_pair (helloSeen f (rideFields f s))
        rw [resolveRoles_yields (hsame.trans hlose) (hrole.trans hr), yieldRole_linked hlink, pairAlarm_pair, hx]
        exact ⟨hrole2, rfl⟩

end Sys2Proof.Machine
end

section
/-! PROOFS. Heartbeats, time alignment, the witness windows and takeovers of a pair (chapter 16). -/

namespace Sys2Proof.Machine

variable {s t : State} {f : RideFrame}

/-! ### Heartbeats sent and missed (R495) -/

theorem exec_heartbeatSend (h : s.tap = false) : exec .heartbeatSend s = .next (heartbeatSendEffect s) :=
  live_next s heartbeatSendEffect h

theorem exec_heartbeatLoss (h : s.tap = false) : exec .heartbeatLoss s = .next (heartbeatLossEffect s) :=
  live_next s heartbeatLossEffect h

theorem exec_partnerBeaconLoss (h : s.tap = false) : exec .partnerBeaconLoss s = .next (partnerBeaconLossEffect s) :=
  live_next s partnerBeaconLossEffect h

theorem timeField_length (dev : Nat) : (timeField dev).length = 12 := by simp [timeField]

/-- The payload of a HEARTBEAT. -/
def heartPayload (s : State) : List Byte := timeField s.time.dev ++ timeField s.pair.heartTx ++ timeField s.pair.heartRx

theorem heartPayload_length (s : State) : (heartPayload s).length = 36 := by
  simp [heartPayload, timeField_length]

theorem heartPayload_time (s : State) : (heartPayload s).take 12 = timeField s.time.dev := by
  rw [heartPayload, List.append_assoc, ← timeField_length s.time.dev, List.take_left]

theorem heartbeatSend_due (hr : s.pair.role ≠ 0) (hopen : rideOpen s = true) (hdue : s.pair.heartSent + us 100 ≤ s.clk) :
    heartbeatSendEffect s = rideSend 2 (heartPayload s) (modPair (fun x => { x with heartSent := s.clk }) s) := by
  refine (if_neg (by simp [hr, hopen])).trans ?_
  dsimp only
  rw [waitUntil_past hdue]
  rfl

theorem heartbeatSend_idle (h : s.pair.role = 0 ∨ rideOpen s = false) : heartbeatSendEffect s = s :=
  if_pos (by rcases h with h | h <;> simp [h])

theorem heartbeatLoss_none (h : s.pair.heartbeat = false) : heartbeatLossEffect s = s := if_pos (by simp [h])

theorem serviceBegin_pair (s : State) : (serviceBegin s).pair = s.pair := (serviceBegin_ev (by decide) (.refl s)).kept .pair

/-- The partner's heartbeat is missed. -/
def heartLost (s : State) : State := modPair (fun x => { x with heartbeat := false }) s

/-- An ACTIVE goes on alone. -/
def serveAlone (s : State) : State := serviceBegin (modPair (fun x => { x with
  mirroring := false, journal := [], syncLeft := none, switching := 0 }) s)

theorem heartbeatLoss_due (hb : s.pair.heartbeat = true) (hdue : s.pair.heartAt + ms 3 ≤ s.clk) : heartbeatLossEffect s =
    if s.pair.role = 2 then modPair (fun x => { x with witness := some s.clk }) (heartLost s)
    else if s.pair.role = 1 then
      (if s.pair.left then serveAlone (heartLost s) else pairAlarm (serveAlone (heartLost s)))
    else heartLost s := by
  refine (if_neg (by simp [hb])).trans ?_
  dsimp only
  rw [waitUntil_past hdue]
  rfl

/-! ### Heartbeats received (R492 to R495) -/

/-- The partner's heartbeat is present. -/
def heartSeen (s : State) : State := modPair (fun x => { x with heartbeat := true, heartAt := s.clk }) s

/-- Its times are read, and the role goes on from it (Table 16.1). -/
def heartRead (f : RideFrame) (s : State) : State := modPair (fun x => { x with
  heartTx := fieldTime f.payload, heartRx := s.time.dev, left := false,
  witness := if x.role = 2 then none else x.witness }) (heartSeen s)

def heartRole (f : RideFrame) (s : State) : State :=
  if s.pair.role = 3 then becomeStandby (heartRead f s)
  else if s.pair.role = 1 ∧ (!s.pair.heartbeat) = true ∧ (!s.pair.mirroring) = true then syncStart (heartRead f s)
  else heartRead f s

/-- Half the offset that the four times of an exchange give (R492). -/
def heartOffset (f : RideFrame) (s : State) : Int := ((s.time.dev : Int) - fieldTime f.payload
  - ((fieldTime (f.payload.drop 24) : Int) - fieldTime (f.payload.drop 12))) / 2

theorem heartbeatAct_solo (h : s.pair.role = 0) : heartbeatAct f s = heartSeen s := if_pos h

theorem heartbeatAct_paired (h : s.pair.role ≠ 0) : heartbeatAct f s =
    if (heartRole f s).pair.role = 2 ∧ f.hdr.role = 1 ∧ fieldTime (f.payload.drop 12) ≠ 0
      then steer (heartOffset f s) (heartRole f s) else heartRole f s := if_neg h

theorem steer_pair (offset : Int) (s : State) : (steer offset s).pair = s.pair :=
  (steer_ev (by decide) (.refl s)).kept .pair

theorem heartbeatAct_pair (h : s.pair.role ≠ 0) : (heartbeatAct f s).pair = (heartRole f s).pair := by
  rw [heartbeatAct_paired h]
  split
  · exact steer_pair _ _
  · rfl

/-- The role after a heartbeat: a partitioned standby is a standby again, and an ACTIVE mirrors to a partner that is
back. -/
theorem heartRole_pair (f : RideFrame) (s : State) : ∃ x : Pair, (heartRole f s).pair = x ∧ x.heartbeat = true
    ∧ x.heartAt = s.clk ∧ (s.pair.role = 3 → x.role = 2) ∧ (s.pair.role ≠ 3 → x.role = s.pair.role)
    ∧ (s.pair.role = 1 → s.pair.heartbeat = false → x.mirroring = true) := by
  unfold heartRole
  split
  · next h3 =>
    obtain ⟨x, hx, hrole, -, -, -, -, -, -, hb, ha⟩ := becomeStandby_pair (heartRead f s)
    exact ⟨x, hx, hb, ha, fun _ => hrole, fun h => absurd h3 h, fun h => by omega⟩
  · next h3 =>
    split
    · exact ⟨_, rfl, rfl, rfl, fun h => absurd h h3, fun _ => rfl, fun _ _ => rfl⟩
    · next hno =>
      refine ⟨_, rfl, rfl, rfl, fun h => absurd h h3, fun _ => rfl, fun h hb => ?_⟩
      cases hm : s.pair.mirroring with
      | true => exact hm
      | false => exact absurd ⟨h, by simp [hb], by simp [hm]⟩ hno

/-- A heartbeat that is received. -/
theorem heartbeatAct_marks (f : RideFrame) (s : State) : ∃ x : Pair, (heartbeatAct f s).pair = x ∧ x.heartbeat = true
    ∧ x.heartAt = s.clk ∧ (s.pair.role = 3 → x.role = 2) ∧ (s.pair.role ≠ 3 → x.role = s.pair.role)
    ∧ (s.pair.role = 1 → s.pair.heartbeat = false → x.mirroring = true) := by
  by_cases h : s.pair.role = 0
  · rw [heartbeatAct_solo h]
    exact ⟨_, rfl, rfl, rfl, fun h3 => by omega, fun _ => rfl, fun h1 => by omega⟩
  · rw [heartbeatAct_pair h]
    exact heartRole_pair f s

theorem heartbeatAct_steers (h2 : s.pair.role = 2) (hf : f.hdr.role = 1) (ht : fieldTime (f.payload.drop 12) ≠ 0) :
    heartbeatAct f s = steer (heartOffset f s) (heartRead f s) := by
  have hrole : heartRole f s = heartRead f s := (if_neg (by omega)).trans (if_neg (by omega))
  rw [heartbeatAct_paired (by omega), hrole]
  exact if_pos ⟨h2, hf, ht⟩

theorem ofInt_lt (i : Int) : ofInt 24 i < 2 ^ 24 := by
  have hlt := Int.emod_lt_of_pos i (b := ((2 ^ 24 : Nat) : Int)) (by decide)
  have hge := Int.emod_nonneg i (b := ((2 ^ 24 : Nat) : Int)) (by decide)
  rw [ofInt]
  omega

theorem steer_slews {x : Int} (h : x.natAbs < 65536000) :
    pn (steer x s) 0x300002 = ofInt 24 (-(x / 65536)) ∧ (steer x s).time.dev = s.time.dev := by
  have heq : steer x s = slewWritten (phaseSlew s) (setPw 0x300002 (ofInt 24 (-(x / 65536))) s) := if_neg (by omega)
  have hp := ((slewWritten_ev (m := 0x40000) (old := phaseSlew s) (by decide)
    (.refl (setPw 0x300002 (ofInt 24 (-(x / 65536))) s))).frame .params).resolve_left (by decide)
  rw [heq]
  constructor
  · rw [pn_eq_of_params_eq hp, pn, pw_setPw_same, toNat_word (ofInt_lt _)]
  · rw [slewWritten]
    split <;> rfl

theorem steer_steps {x : Int} (h : 65536000 ≤ x.natAbs) :
    (steer x s).time.dev = ((s.time.dev : Int) - x).toNat % (2 ^ 48 * 65536000000000) := by
  have heq : steer x s = timeChange ((s.time.dev : Int) - x).toNat s := if_pos (by omega)
  rw [heq, timeChange_dev]

/-! ### Takeover, and SOLO (R498, R499) -/

theorem exec_witnessWindowExpiry (h : s.tap = false) :
    exec .witnessWindowExpiry s = .next (witnessWindowExpiryEffect s) := live_next s witnessWindowExpiryEffect h

theorem exec_partitionTimeout (h : s.tap = false) : exec .partitionTimeout s = .next (partitionTimeoutEffect s) :=
  live_next s partitionTimeoutEffect h

theorem witnessWindowExpiry_closed (h : s.pair.witness = none) : witnessWindowExpiryEffect s = s := by
  rw [witnessWindowExpiryEffect, h]

theorem witnessWindowExpiry_due {since : Nat} (h : s.pair.witness = some since) (hdue : since + ms 5 ≤ s.clk)
    (hr : s.pair.role = 2) : witnessWindowExpiryEffect s = standAlone s := by
  rw [witnessWindowExpiryEffect, h]
  exact (if_pos hr).trans (congrArg standAlone (waitUntil_past hdue))

theorem partitionTimeout_other (h : s.pair.role ≠ 3) : partitionTimeoutEffect s = s := if_neg h

theorem partitionTimeout_due (hr : s.pair.role = 3) (h1 : s.pair.roleAt + ms 5 ≤ s.clk)
    (h2 : s.pair.heartAt + ms 5 ≤ s.clk) (h3 : s.pair.beaconAt + ms 5 ≤ s.clk) :
    partitionTimeoutEffect s = standAlone s :=
  (if_pos hr).trans (congrArg standAlone (waitUntil_past (by omega)))

/-- A takeover up to its role: the epoch in progress is gone, and the wire records of the committed image are loaded. -/
def tookRole (s : State) : State :=
  let s1 := rideTold s (discardEpochs s)
  let s2 := if s1.pair.image = [] then s1 else forAll 32 (loadWire s1.pair.image) s1
  modPair (fun x => { x with resync := false, mirroring := false, boundaryAt := s.clk }) (setRole 1 s2)

/-- The rest of a takeover. -/
def tookService (image : List Byte) (s : State) : State :=
  serviceBegin (gateCatchUp (if image = [] then s else forAll 32 (xonRecord image) s))

theorem takeover_eq (counted : Bool) (s : State) : takeover counted s =
    tookService (rideTold s (discardEpochs s)).pair.image
      (if counted then bumpParam 0x700005 1 (tookRole s) else tookRole s) := rfl

theorem tookService_frame (image : List Byte) (s : State) : Evolves 0x4785f00 s (tookService image s) :=
  serviceBegin_ev (by decide) (gateCatchUp_ev (by decide) (.ite (.refl s)
    (forAll_ev _ _ (fun _ _ h => xonRecord_ev (by decide) h) (.refl s))))

theorem wiresLoaded_frame (image : List Byte) (s : State) :
    Evolves 0x4000 s (if image = [] then s else forAll 32 (loadWire image) s) :=
  .ite (.refl s) (forAll_ev _ _ (fun _ _ h => loadWire_ev (by decide) h) (.refl s))

theorem rideTold_params (s t : State) : (rideTold s t).params = t.params :=
  (rideTold_ev (by decide) (.refl t)).kept .params

theorem setRole_params {r : Nat} (h : r ≤ 3) (s : State) : (setRole r s).params = s.params :=
  (setRole_ev (by decide) h (.refl s)).kept .params

theorem tookRole_params (s : State) : (tookRole s).params = (discardEpoch s).params := by
  rw [tookRole, modPair_params, setRole_params (by decide), ((wiresLoaded_frame _ _).frame .params).resolve_left (by decide),
    rideTold_params]
  rfl

/-- The pairing state of the one that takes over. -/
theorem tookRole_pair (s : State) : ∃ x : Pair, (tookRole s).pair = x ∧ x.role = 1 ∧ x.alarm = s.pair.alarm
    ∧ x.link = s.pair.link := by
  obtain ⟨c, hd⟩ := discardEpochs_pair s
  obtain ⟨fs, ht⟩ := rideTold_pair s (discardEpochs s)
  obtain ⟨at0, w, hr⟩ := setRole_pair 1 (if (rideTold s (discardEpochs s)).pair.image = [] then rideTold s (discardEpochs s)
    else forAll 32 (loadWire (rideTold s (discardEpochs s)).pair.image) (rideTold s (discardEpochs s)))
  refine ⟨_, rfl, ?_⟩
  rw [tookRole, modPair_pair, hr, ((wiresLoaded_frame _ _).frame .pair).resolve_left (by decide), ht, hd]
  exact ⟨rfl, rfl, rfl⟩

theorem takeover_pair (counted : Bool) (s : State) : (takeover counted s).pair = (tookRole s).pair := by
  rw [takeover_eq, ((tookService_frame _ _).frame .pair).resolve_left (by decide)]
  cases counted <;> rfl

theorem takeover_counts (s : State) : pw (takeover true s) 0x700005 = word (stick 24 (pn s 0x700005) 1) := by
  have hp : (takeover true s).params = (bumpParam 0x700005 1 (tookRole s)).params :=
    ((tookService_frame _ _).frame .params).resolve_left (by decide)
  rw [pw_congr hp, bumpParam, pw_setPw_same, pn, pw_congr (tookRole_params s), pw_discardEpoch_ne (by decide)]
  rfl

theorem takeover_uncounted (s : State) : pw (takeover false s) 0x700005 = pw s 0x700005 := by
  have hp : (takeover false s).params = (tookRole s).params :=
    ((tookService_frame _ _).frame .params).resolve_left (by decide)
  rw [pw_congr hp, pw_congr (tookRole_params s), pw_discardEpoch_ne (by decide)]

/-- The pairing state as SOLO begins. -/
def soloBegun (x : Pair) : Pair := { x with
  started := false, hello := false, waiting := x.waiting.filter (fun w => w.1 == 8),
  witness := none, mirroring := false, journal := [], syncLeft := none, resyncAsked := false,
  out := [], syncEnd := none, synced := false, resync := false, image := [], switching := 0, switchAsked := false, left := false }

/-- SOLO with its channels ended, before frame service and the ports. -/
def soloRole (s : State) : State := setRole 0 (modPair soloBegun (rideTold s (discardEpochs s)))

def soloIdle (s : State) : State :=
  if pairEnabled s then abortChan 7 (abortChan 6 (soloRole s)) else soloRole s

def soloServed (s : State) : State :=
  if s.pair.role ≤ 1 ∧ s.pair.switching = 0 then soloIdle s else serviceBegin (soloIdle s)

theorem enterSolo_eq (ports : Bool) (s : State) :
    enterSolo ports s = if ports then forAll 32 portOff (soloServed s) else soloServed s := rfl

theorem soloIdle_frame (s : State) : Evolves 0x100100 (soloRole s) (soloIdle s) :=
  .ite (abortChan_ev (by decide) (abortChan_ev (by decide) (.refl _))) (.refl _)

theorem soloServed_frame (s : State) : Evolves 0x4785f00 (soloIdle s) (soloServed s) :=
  .ite (.refl _) (serviceBegin_ev (by decide) (.refl _))

theorem enterSolo_frame (ports : Bool) (s : State) : Evolves 0x485d80 (soloServed s) (enterSolo ports s) := by
  rw [enterSolo_eq]
  exact .ite (forAll_ev _ _ (fun _ _ h => portOff_ev (by decide) h) (.refl _)) (.refl _)

theorem soloRole_pair (s : State) : ∃ x : Pair, (soloRole s).pair = x ∧ x.role = 0 ∧ x.started = false
    ∧ x.alarm = s.pair.alarm ∧ x.link = s.pair.link := by
  obtain ⟨c, hd⟩ := discardEpochs_pair s
  obtain ⟨fs, ht⟩ := rideTold_pair s (discardEpochs s)
  obtain ⟨at0, w, hr⟩ := setRole_pair 0 (modPair soloBegun (rideTold s (discardEpochs s)))
  refine ⟨_, rfl, ?_⟩
  rw [soloRole, hr, modPair_pair, ht, hd]
  exact ⟨rfl, rfl, rfl, rfl⟩

theorem enterSolo_pair (ports : Bool) (s : State) : (enterSolo ports s).pair = (soloRole s).pair := by
  rw [((enterSolo_frame ports s).frame .pair).resolve_left (by decide),
    ((soloServed_frame s).frame .pair).resolve_left (by decide),
    ((soloIdle_frame s).frame .pair).resolve_left (by decide)]

theorem standAlone_synced (h : s.pair.synced = true) : standAlone s = takeover true s := if_pos h

theorem standAlone_unsynced (h : s.pair.synced = false) : standAlone s = pairAlarm (enterSolo true s) :=
  if_neg (by simp [h])

/-- A standby that stands alone with its sync complete takes over. -/
theorem standAlone_takes (h : s.pair.synced = true) : (standAlone s).pair.role = 1
    ∧ pw (standAlone s) 0x700005 = word (stick 24 (pn s 0x700005) 1) ∧ (standAlone s).pair.alarm = s.pair.alarm := by
  obtain ⟨x, hx, hrole, halarm, -⟩ := tookRole_pair s
  rw [standAlone_synced h, takeover_counts, takeover_pair, hx]
  exact ⟨hrole, rfl, halarm⟩

/-- Without it, it goes on in SOLO. -/
theorem standAlone_solo (h : s.pair.synced = false) : (standAlone s).pair.role = 0 ∧ (standAlone s).pair.alarm = true := by
  obtain ⟨x, hx, hrole, -⟩ := soloRole_pair s
  rw [standAlone_unsynced h, pairAlarm_pair, enterSolo_pair, hx]
  exact ⟨hrole, rfl⟩

/-- Settles O51: a heartbeat marks the partner present and steers (`heartbeatAct_marks`, `heartbeatAct_steers`), and a
standby that stands alone takes over or is SOLO (`standAlone_takes`, `standAlone_solo`). -/
theorem heartbeatsAndTakeovers : Obligations.HeartbeatsAndTakeovers := by
  unfold Obligations.HeartbeatsAndTakeovers
  refine ⟨fun s htap => ⟨?_, ?_⟩, fun s f x htap hopen hl hidle => ⟨?_, ?_⟩, fun s htap => ⟨?_, ?_, ?_⟩,
    fun s since htap hw hdue hr => ?_, ?_, ?_, fun s htap hr h1 h2 h3 => ?_⟩
  · intro h
    rw [exec_heartbeatSend htap, heartbeatSend_idle h]
  · intro hr hopen hdue
    rw [exec_heartbeatSend htap, heartbeatSend_due hr hopen hdue, rideSend_open ((rideOpen_modPair rfl).trans hopen)]
    exact ⟨_, _, rfl, rfl, rfl, heartPayload_length s, heartPayload_time s, rfl⟩
  · have hpair := rideFields_pair_idle f hidle
    rw [receives_heartbeat f s htap, rideReceive_plain hopen hl]
    refine ⟨_, rfl, ?_⟩
    obtain ⟨x, hx, hb, hat, h3, hn3, h1⟩ := heartbeatAct_marks f (rideFields f s)
    rw [hpair] at h3 hn3 h1
    rw [hx]
    exact ⟨hb, hat.trans (rideFields_clk f s), h3, hn3, h1⟩
  · intro hx hr hf ht
    have hpair := rideFields_pair_idle f hidle
    have htime : (rideFields f s).time = s.time := ((rideFields_frame f s).frame .time).resolve_left (by decide)
    have hoff : heartOffset f (rideFields f s) = x := by rw [heartOffset, htime, hx]
    rw [receives_heartbeat f s htap, rideReceive_plain hopen hl,
      heartbeatAct_steers (by rw [hpair, fieldsTaken, hr]) hf ht, hoff]
    refine ⟨_, rfl, fun hsmall => ?_, fun hbig => ?_⟩
    · obtain ⟨hslew, hdev⟩ := steer_slews (s := heartRead f (rideFields f s)) hsmall
      exact ⟨hslew, hdev.trans (congrArg Time.dev htime)⟩
    · exact (steer_steps hbig).trans (by rw [heartRead, modPair_time, heartSeen, modPair_time, htime])
  · intro h
    rw [exec_heartbeatLoss htap, heartbeatLoss_none h]
  · intro hb hdue
    have halone : (serveAlone (heartLost s)).pair = { s.pair with
        heartbeat := false, mirroring := false, journal := [], syncLeft := none, switching := 0 } := serviceBegin_pair _
    rw [exec_heartbeatLoss htap, heartbeatLoss_due hb hdue]
    refine ⟨_, rfl, ?_⟩
    by_cases h2 : s.pair.role = 2
    · rw [if_pos h2]
      exact ⟨rfl, rfl, fun _ => rfl, fun h1 => by omega⟩
    rw [if_neg h2]
    by_cases h1 : s.pair.role = 1
    · rw [if_pos h1]
      cases hleft : s.pair.left with
      | true =>
        rw [if_pos rfl, halone]
        exact ⟨rfl, rfl, fun h => absurd h h2, fun _ => ⟨rfl, by simp⟩⟩
      | false =>
        rw [if_neg (by decide), pairAlarm_pair, halone]
        exact ⟨rfl, rfl, fun h => absurd h h2, fun _ => ⟨rfl, by simp⟩⟩
    · rw [if_neg h1]
      exact ⟨rfl, rfl, fun h => absurd h h2, fun h => absurd h h1⟩
  · intro hdue
    rw [exec_partnerBeaconLoss htap, partnerBeaconLossEffect, waitUntil_past hdue]
  · rw [exec_witnessWindowExpiry htap, witnessWindowExpiry_due hw hdue hr]
    exact ⟨_, rfl, standAlone_takes, standAlone_solo⟩
  · intro s htap hw
    rw [exec_witnessWindowExpiry htap, witnessWindowExpiry_closed hw]
  · intro s htap hr
    rw [exec_partitionTimeout htap, partitionTimeout_other hr]
  · rw [exec_partitionTimeout htap, partitionTimeout_due hr h1 h2 h3]
    refine ⟨_, rfl, fun hsync => ?_, standAlone_solo⟩
    obtain ⟨hrole, hcount, -⟩ := standAlone_takes hsync
    exact ⟨hrole, hcount⟩

end Sys2Proof.Machine
end

section
/-! PROOFS. What of a port the end of its references leaves: flow control and the egress queues change alone (R29, R253). -/

namespace Sys2Proof.Machine

variable {s t u : State} {p : Nat} {α : Type}

/-- Every port keeps its reading g. -/
def PortsKeep (g : Port → α) (s t : State) : Prop := ∀ q, g (port t q) = g (port s q)

/-- A reading that XOFF and the flow control frames due do not change. -/
def FlowFree (g : Port → α) : Prop := ∀ (x : Port) xo due, g { x with xoff := xo, ctlDue := due } = g x

/-- A reading that the egress queues and the stage do not change. -/
def EgressFree (g : Port → α) : Prop := ∀ (x : Port) qs st, g { x with queues := qs, stage := st } = g x

namespace PortsKeep

variable {g : Port → α}

theorem refl (s : State) : PortsKeep g s s := fun _ => rfl

theorem trans (h : PortsKeep g s u) (k : PortsKeep g u t) : PortsKeep g s t := fun q => (k q).trans (h q)

theorem of_ports (h : t.ports = s.ports) : PortsKeep g s t := fun q => congrArg g (port_of_ports h q)

theorem modPort {f : Port → Port} (h : g (f (port s p)) = g (port s p)) : PortsKeep g s (modPort p f s) := by
  intro q
  by_cases hq : q = p
  · rw [hq, port_modPort_same, h]
  · rw [port_modPort_ne _ _ _ _ hq]

theorem ite {c : Prop} [Decidable c] (h : PortsKeep g s t) (k : PortsKeep g s u) :
    PortsKeep g s (if c then t else u) := by
  split
  · exact h
  · exact k

theorem forEach {β : Type} {f : β → State → State} (h : ∀ x v, PortsKeep g v (f x v)) (l : List β) (s : State) :
    PortsKeep g s (forEach l f s) := by
  induction l generalizing s with
  | nil => exact refl s
  | cons x l ih => exact (h x s).trans (ih (f x s))

theorem forAll {f : Nat → State → State} (h : ∀ i v, PortsKeep g v (f i v)) (n : Nat) (s : State) :
    PortsKeep g s (forAll n f s) := forEach h _ s

end PortsKeep

/-! ### References that complete -/

section
variable {g : Port → α}

theorem portsKeep_xoffLeave (h : FlowFree g) (p : Nat) (s : State) : PortsKeep g s (xoffLeave p s) := by
  refine PortsKeep.forEach (fun e v => ?_) _ s
  obtain ⟨c, x⟩ := e
  exact .ite (.modPort (h (port v p) _ _)) (.refl v)

theorem portsKeep_xoffReview (h : FlowFree g) (s : State) : PortsKeep g s (xoffReview s) :=
  PortsKeep.forEach (fun ⟨q, _⟩ v => portsKeep_xoffLeave h q v) _ s

theorem portsKeep_release (h : FlowFree g) (id : Nat) (s : State) : PortsKeep g s (release id s) := by
  unfold release
  dsimp only
  split
  · exact PortsKeep.trans (.of_ports rfl) (portsKeep_xoffReview h { s with frames := s.frames.filter (fun e => e.1 != id) })
  · exact .of_ports rfl

theorem ports_finishOrigin (o : Origin) (st : TxStatus) (len : Nat) (ts : Option Nat) (s : State) :
    (finishOrigin o st len ts s).ports = s.ports := (finishOrigin_ev (by decide) (.refl s)).kept .ports

theorem ports_endStaged (f : Staged) (st : TxStatus) (s : State) : (endStaged f st s).ports = s.ports :=
  (endStaged_ev (by decide) (.refl s)).kept .ports

theorem ports_countPort (i n : Nat) (s : State) : (countPort p i n s).ports = s.ports :=
  (countPort_ev (by decide) (.refl s)).kept .ports

theorem ports_raise (w n : Nat) (s : State) : (raise w n s).ports = s.ports := (raise_ev (by decide) (.refl s)).kept .ports

/-- What the discarded references of a port leave of every port. -/
theorem portsKeep_clearEgress (h : FlowFree g) (he : EgressFree g) (p : Nat) (st : TxStatus) (s : State) :
    PortsKeep g s (clearEgress p st s) := by
  unfold clearEgress
  refine PortsKeep.trans (PortsKeep.trans (.modPort (he (port s p) [] []))
    (PortsKeep.forEach (fun i v => ?_) _ _)) (PortsKeep.forEach (fun f v => ?_) _ _)
  · exact PortsKeep.trans (PortsKeep.trans (.of_ports (ports_finishOrigin i.origin st 0 none v))
      (portsKeep_release h i.frame _)) (.of_ports (ports_countPort 20 1 _))
  · exact PortsKeep.trans (.of_ports (ports_endStaged f st v)) (.of_ports (ports_countPort 20 1 _))

end

/-! ### The wire -/

/-- A port whose wire is cut: nothing is on it or held. -/
def wireCut (x : Port) : Port := { x with wire := none, held := none }

theorem ports_cutWire (p : Nat) (s : State) : (cutWire p s).ports = (modPort p wireCut s).ports := by
  unfold cutWire
  dsimp only
  exact (forEach_ev _ _ (fun f v h => countPort_ev (by decide) (endStaged_ev (by decide) h))
    (.refl (modPort p wireCut s))).kept .ports

theorem port_cutWire (p q : Nat) (s : State) :
    port (cutWire p s) q = if q = p then wireCut (port s p) else port s q := by
  rw [port_of_ports (ports_cutWire p s)]
  split
  · next h => rw [h, port_modPort_same]
  · next h => exact port_modPort_ne _ _ _ _ h

/-! ### A link that falls (R29, R244) -/

theorem linkDrop_down (h : (port s p).link = false) (cut : Bool) : linkDrop p cut s = s := if_pos (by simp [h])

/-- A port as its link falls. -/
def linkFallen (x : Port) : Port := { x with link := false, speed := 0, qualAt := none, paused := [], ctlDue := [] }

theorem linkDrop_up (h : (port s p).link = true) (cut : Bool) : linkDrop p cut s =
    clearEgress p .linkDown (if cut then cutWire p (countPort p 23 1 (raise 0 13 (modPort p linkFallen s)))
      else countPort p 23 1 (raise 0 13 (modPort p linkFallen s))) := if_neg (by simp [h])

theorem flowFree_link : FlowFree Port.link := fun _ _ _ => rfl

theorem egressFree_link : EgressFree Port.link := fun _ _ _ => rfl

/-- A link that falls is down, and every other link stands. -/
theorem linkDrop_link (p q : Nat) (cut : Bool) (s : State) :
    (port (linkDrop p cut s) q).link = if q = p then false else (port s q).link := by
  cases h : (port s p).link with
  | false =>
    rw [linkDrop_down h]
    split
    · next hq => rw [hq, h]
    · rfl
  | true =>
    have hports : (countPort p 23 1 (raise 0 13 (modPort p linkFallen s))).ports = (modPort p linkFallen s).ports :=
      (ports_countPort 23 1 _).trans (ports_raise 0 13 _)
    have hfall : (port (modPort p linkFallen s) q).link = if q = p then false else (port s q).link := by
      split
      · next hq =>
        rw [hq, port_modPort_same]
        rfl
      · next hq => rw [port_modPort_ne _ _ _ _ hq]
    rw [linkDrop_up h, portsKeep_clearEgress flowFree_link egressFree_link p .linkDown _ q]
    cases cut with
    | false =>
      rw [if_neg (by decide), port_of_ports hports, hfall]
    | true =>
      rw [if_pos rfl, port_cutWire, port_of_ports hports, port_of_ports hports]
      refine Eq.trans ?_ hfall
      split
      · next hq => rw [hq, wireCut]
      · rfl

theorem linkDrop_params (p : Nat) (cut : Bool) (s : State) : (linkDrop p cut s).params = s.params :=
  (linkDrop_ev (by decide) (.refl s)).kept .params

end Sys2Proof.Machine
end

section
/-! PROOFS. M_PAIR_CMD, switchovers and LEAVE (chapter 16). -/

namespace Sys2Proof.Machine

variable {s t : State} {f : RideFrame} {q : CbPar} {op p : Nat}

/-! ### M_PAIR_CMD -/

/-- A write of M_PAIR_CMD is the operation of its code. -/
theorem live_pairWrite (hop : op < 8) (h : PerformsM s q 0x44 op) :
    live (mgmtWrite {} q 0x44 op) s = .next (pairCommand op (acknowledge none s)) := by
  have hb : bits (word op).toNat 0 3 = op := by
    rw [toNat_word (by omega), bits]
    omega
  refine (live_mgmtWrite (by decide) h).trans (congrArg _ ?_)
  rw [regWrite_pairCmd (s := acknowledge none s) h.2.2, hb]

theorem pairCommand_join (hr : s.pair.role = 0) (hen : pairEnabled s = true) (hlost : pairingLost s = false)
    (hways : 2 ≤ s.canopy.pairWays.length) (hlink : s.pair.link = false) :
    pairCommand 1 s = modPair (fun x => { x with started := true, helloSent := s.clk }) s :=
  (if_neg (by simp [hr, hen, hlost])).trans ((if_neg (by omega)).trans (if_neg (by simp [modPair, hlink])))

theorem pairCommand_join_few (hr : s.pair.role = 0) (hen : pairEnabled s = true) (hlost : pairingLost s = false)
    (hways : s.canopy.pairWays.length < 2) : pairCommand 1 s = pairAlarm s :=
  (if_neg (by simp [hr, hen, hlost])).trans (if_pos hways)

theorem pairCommand_join_barred (h : s.pair.role ≠ 0 ∨ pairEnabled s = false) : pairCommand 1 s = s :=
  if_pos (by rcases h with h | h <;> simp [h])

theorem pairCommand_switch (h1 : s.pair.role = 1) (h2 : s.pair.partnerRole = 2) (h3 : s.pair.synced = true)
    (h4 : s.pair.heartbeat = true) (h5 : s.pair.mirroring = true) (h6 : s.pair.switching = 0) :
    pairCommand 2 s = modPair (fun x => { x with switching := 1 }) s := if_pos ⟨h1, h2, h3, h4, h5, h6⟩

theorem pairCommand_switch_barred (h : s.pair.role ≠ 1 ∨ s.pair.partnerRole ≠ 2 ∨ s.pair.synced = false
    ∨ s.pair.heartbeat = false) : pairCommand 2 s = s := by
  refine if_neg fun ⟨h1, h2, h3, h4, _⟩ => ?_
  rcases h with h | h | h | h
  · exact h h1
  · exact h h2
  · exact absurd h3 (by simp [h])
  · exact absurd h4 (by simp [h])

theorem pairCommand_leave (h : ¬ (s.pair.role = 0 ∨ leaveBarred s = true)) : pairCommand 3 s = leavePair s := if_neg h

theorem pairCommand_leave_barred (h : s.pair.role = 0 ∨ leaveBarred s = true) : pairCommand 3 s = s := if_pos h

/-! ### Ports in SOLO (R268, R473) -/

/-- PORT_CTL of port p. -/
def portCtl (p : Nat) : Nat := 0x100000 + 256 * p

theorem portOff_off (h : bitOf (pn s (portCtl p)) 0 = false) : portOff p s = s := if_neg (ne_true_of_eq_false h)

theorem portOff_on (h : bitOf (pn s (portCtl p)) 0 = true) : portOff p s =
    linkDrop p false (modPort p (fun x => { x with qualAt := none })
      (setPw (portCtl p) (putBits (pn s (portCtl p)) 0 1 0) s)) := if_pos h

theorem pw_portOff_ne {id : Nat} (h : id ≠ portCtl p) (s : State) : pw (portOff p s) id = pw s id := by
  cases hb : bitOf (pn s (portCtl p)) 0 with
  | false => rw [portOff_off hb]
  | true => rw [portOff_on hb, pw_congr (linkDrop_params p false _), pw_congr (modPort_params ..), pw_setPw_ne h]

theorem bitOf_clearFirst (x : Nat) : bitOf (word (putBits x 0 1 0)).toNat 0 = false := by
  rw [word, BitVec.toNat_ofNat, bitOf, Nat.testBit_mod_two_pow, testBit_putBits]
  simp

/-- The port is disabled. -/
theorem portOff_disables (p : Nat) (s : State) : bitOf (pn (portOff p s) (portCtl p)) 0 = false := by
  cases hb : bitOf (pn s (portCtl p)) 0 with
  | false => rw [portOff_off hb, hb]
  | true =>
    rw [portOff_on hb, pn, pw_congr (linkDrop_params p false _), pw_congr (modPort_params ..), pw_setPw_same]
    exact bitOf_clearFirst _

/-- Its link is down where it was enabled; every other link stands. -/
theorem portOff_link (p k : Nat) (s : State) : (port (portOff p s) k).link =
    if k = p ∧ bitOf (pn s (portCtl p)) 0 = true then false else (port s k).link := by
  cases hb : bitOf (pn s (portCtl p)) 0 with
  | false => rw [portOff_off hb, if_neg (by simp)]
  | true =>
    have hq : (port (modPort p (fun x => { x with qualAt := none })
        (setPw (portCtl p) (putBits (pn s (portCtl p)) 0 1 0) s)) k).link = (port s k).link :=
      PortsKeep.modPort (g := Port.link) (s := setPw (portCtl p) (putBits (pn s (portCtl p)) 0 1 0) s) rfl k
    rw [portOff_on hb, linkDrop_link, hq]
    simp

/-- Every port is disabled, and its link down where it was enabled. -/
theorem portsOff (hp : p < 32) (s : State) : bitOf (pn (forAll 32 portOff s) (portCtl p)) 0 = false
    ∧ (bitOf (pn s (portCtl p)) 0 = true → (port (forAll 32 portOff s) p).link = false) := by
  have hctl : ∀ i v, i ≠ p → pw (portOff i v) (portCtl p) = pw v (portCtl p) := fun i v hi =>
    pw_portOff_ne (by simp only [portCtl]; omega) v
  constructor
  · refine forAll_achieves (pre := fun _ => True) (post := fun v => bitOf (pn v (portCtl p)) 0 = false) hp
      (fun _ _ _ _ => trivial) (fun v _ => portOff_disables p v) (fun i v hi h => ?_) trivial
    rw [pn, hctl i v hi]
    exact h
  · intro hon
    refine forAll_achieves (pre := fun v => bitOf (pn v (portCtl p)) 0 = true)
      (post := fun v => (port v p).link = false) hp (fun i v hi h => ?_) (fun v h => ?_) (fun i v hi h => ?_) hon
    · rw [pn, hctl i v hi]
      exact h
    · rw [portOff_link, if_pos ⟨rfl, h⟩]
    · rw [portOff_link, if_neg (by simp [Ne.symm hi]), h]

theorem soloServed_pw {id : Nat} (h : id ≠ 0x700004) (s : State) : pw (soloServed s) id = pw s id := by
  rw [pw_congr (((soloServed_frame s).frame .params).resolve_left (by decide)),
    pw_congr (((soloIdle_frame s).frame .params).resolve_left (by decide)), soloRole,
    pw_congr (setRole_params (by decide) _), pw_congr (modPair_params ..), pw_congr (rideTold_params _ _)]
  exact pw_discardEpoch_ne h s

/-- A standby that leaves: every port is disabled. -/
theorem enterSolo_ports (hp : p < 32) (s : State) : bitOf (pn (enterSolo true s) (portCtl p)) 0 = false
    ∧ (bitOf (pn s (portCtl p)) 0 = true → (port (enterSolo true s) p).link = false) := by
  obtain ⟨hoff, hlink⟩ := portsOff hp (soloServed s)
  rw [enterSolo_eq]
  refine ⟨hoff, fun hon => hlink ?_⟩
  rw [pn, soloServed_pw (by simp only [portCtl]; omega)]
  exact hon

theorem rideQueue_frame (ty e : Nat) (b : List Byte) (s : State) : Evolves 0x8000000 s (rideQueue ty e b s) :=
  rideQueue_ev (by decide) (.refl s)

/-- A frame that is queued leaves the role and its alarm. -/
theorem rideQueue_pair (ty e : Nat) (b : List Byte) (s : State) : ∃ q new,
    (rideQueue ty e b s).pair = pumped q new { s.pair with waiting := s.pair.waiting ++ [(ty, e, b)] } := by
  obtain ⟨q, new, heq, -⟩ := ridePump_sends 64
    (modPair (fun x => { x with waiting := x.waiting ++ [(ty, e, b)] }) s)
  exact ⟨q, new, congrArg State.pair heq⟩

theorem leavePair_standby (h : standbyRole s = true) :
    leavePair s = enterSolo true (rideQueue 8 s.pair.epoch [] s) := if_pos h

theorem leavePair_other (h : standbyRole s = false) : leavePair s = enterSolo false s := if_neg (by simp [h])

theorem soloRole_frame (s : State) : Evolves 0x8100180 s (soloRole s) :=
  setRole_ev (by decide) (Nat.zero_le 3) (modPair_ev (f := soloBegun) (by decide) (fun _ h => h)
    (rideTold_ev (by decide) (discardEpochs_ev (by decide) (.refl s))))

/-- An ACTIVE that leaves with its channels alone: no port changes. -/
theorem enterSolo_active_ports (hr : s.pair.role ≤ 1) (hs : s.pair.switching = 0) :
    (enterSolo false s).ports = s.ports := by
  have hserved : soloServed s = soloIdle s := if_pos ⟨hr, hs⟩
  rw [enterSolo_eq, if_neg (by decide), hserved, ((soloIdle_frame s).frame .ports).resolve_left (by decide),
    ((soloRole_frame s).frame .ports).resolve_left (by decide)]

/-! ### Switchovers and LEAVE (R502, R503) -/

/-- The pairing state once the frame that comes next is received. -/
def frameTaken (f : RideFrame) (x : Pair) : Pair :=
  { fieldsTaken f x with ack := (x.ack + 1) % 65536, naked := false }

theorem rideTaken_pair (h : s.pair.waiting = []) : (rideTaken f s).pair = frameTaken f s.pair := by
  rw [rideTaken, modPair_pair, rideFields_pair_idle f h]
  rfl

theorem rideTaken_params (f : RideFrame) (s : State) : (rideTaken f s).params = s.params := rideFields_params f s

theorem exec_switchoverTimeout (h : s.tap = false) : exec .switchoverTimeout s = .next (switchoverTimeoutEffect s) :=
  live_next s switchoverTimeoutEffect h

/-- The switchover that the active asks for is recorded. -/
def switchAsking (f : RideFrame) (s : State) : State := modPair (fun x => { x with
  switchAsked := x.switchAsked || (x.role == 2 && byteAt f.payload 0 == 1) }) (rideGrant 1 s)

theorem switchAsking_params (f : RideFrame) (s : State) : (switchAsking f s).params = s.params := rfl

/-- The request comes next: it is recorded, and what a switchover rests on stands. -/
theorem switchAsking_pair (h : s.pair.waiting = []) : (switchAsking f (rideTaken f s)).pair.role = s.pair.role
    ∧ (switchAsking f (rideTaken f s)).pair.inEpoch = s.pair.inEpoch
    ∧ (switchAsking f (rideTaken f s)).pair.image = s.pair.image
    ∧ (switchAsking f (rideTaken f s)).pair.switchAsked
        = (s.pair.switchAsked || (s.pair.role == 2 && byteAt f.payload 0 == 1)) := by
  rw [switchAsking, rideGrant, modPair_pair, modPair_pair, rideTaken_pair h]
  exact ⟨rfl, rfl, rfl, rfl⟩

/-- The standby takes over from an active that hands over. -/
def switchOver (s : State) : State :=
  syncStart (rideQueue 7 s.pair.epoch [2, 0, 0, 0] (takeover false (modPair (fun x => { x with switchAsked := false }) s)))

theorem switchTry_ready (h1 : s.pair.switchAsked = true) (h2 : s.pair.role = 2)
    (h3 : bitOf (imageFlags s.pair.image) 2 = true) (h4 : s.pair.inEpoch = none) : switchTry s = switchOver s :=
  if_pos ⟨h1, h2, h3, h4⟩

theorem switchTry_waits (h : s.pair.switchAsked = false ∨ s.pair.inEpoch.isSome = true
    ∨ bitOf (imageFlags s.pair.image) 2 = false) : switchTry s = s := by
  refine if_neg fun ⟨h1, _, h3, h4⟩ => ?_
  rcases h with h | h | h
  · exact absurd h1 (by simp [h])
  · exact absurd h (by simp [h4])
  · exact absurd h3 (by simp [h])

theorem switchOver_pair (s : State) : (switchOver s).pair.role = 1 ∧ (switchOver s).pair.mirroring = true := by
  obtain ⟨x, hx, hrole, -⟩ := tookRole_pair (modPair (fun x => { x with switchAsked := false }) s)
  obtain ⟨q, new, hq⟩ := rideQueue_pair 7 s.pair.epoch [2, 0, 0, 0]
    (takeover false (modPair (fun x => { x with switchAsked := false }) s))
  rw [switchOver, syncStart, modPair_pair, hq, takeover_pair, hx]
  exact ⟨hrole, rfl⟩

theorem switchOver_uncounted (s : State) : pw (switchOver s) 0x700005 = pw s 0x700005 := by
  rw [switchOver, syncStart, pw_congr (modPair_params ..), pw_congr ((rideQueue_frame _ _ _ _).frame .params |>.resolve_left (by decide)),
    takeover_uncounted]
  rfl

theorem rideAck_params (s : State) : (rideAck s).params = s.params := (rideAck_ev (by decide) (.refl s)).kept .params

theorem switchDoneAct_done (h1 : s.pair.role = 1) (h2 : s.pair.switching = 2) (h3 : byteAt f.payload 0 = 2) :
    switchDoneAct f s = becomeStandby (rideGrant 1 s) := if_pos ⟨h1, h2, h3⟩

theorem switchoverTimeout_due (h : s.pair.switching = 2) (hdue : s.pair.switchAt + us (pn s 0x700003) ≤ s.clk) :
    switchoverTimeoutEffect s = pairAlarm (serviceBegin (modPair (fun x => { x with switching := 0 }) s)) := by
  refine (if_pos h).trans ?_
  rw [waitUntil_past hdue]

theorem leaveAct_active (h : s.pair.role = 1) : leaveAct s = serviceBegin (modPair (fun x => { x with
    mirroring := false, journal := [], syncLeft := none, out := [], left := true, hello := false, switching := 0 })
    (abortChan 6 (rideGrant 1 s))) := if_pos h

theorem leaveAct_other (h : s.pair.role ≠ 1) : leaveAct s = rideGrant 1 s := if_neg h

/-- What LEAVE leaves of the pairing state. -/
theorem leaveAct_pair (s : State) : ∃ x : Pair, (leaveAct s).pair = x ∧ x.role = s.pair.role ∧ x.alarm = s.pair.alarm
    ∧ x.credit = (s.pair.credit + 1) % 65536
    ∧ (s.pair.role = 1 → x.mirroring = false ∧ x.left = true ∧ x.out = []) := by
  by_cases h : s.pair.role = 1
  · rw [leaveAct_active h, serviceBegin_pair, modPair_pair, abortChan_pair]
    exact ⟨_, rfl, rfl, rfl, rfl, fun _ => ⟨rfl, rfl, rfl⟩⟩
  · rw [leaveAct_other h]
    exact ⟨_, rfl, rfl, rfl, rfl, fun h1 => absurd h1 h⟩

/-- Settles O48: M_PAIR_CMD is `pairCommand` (`live_pairWrite`); a standby that leaves disables every port
(`enterSolo_ports`), and the frames of a switchover do as `switchTry`, `switchDoneAct` and `leaveAct` say. -/
theorem pairingCommandsAndSwitchoversAct : Obligations.PairingCommandsAndSwitchoversAct := by
  unfold Obligations.PairingCommandsAndSwitchoversAct
  refine ⟨⟨fun s w q hw h => ⟨?_, ?_, ?_⟩, fun s w q hw h => ⟨?_, ?_⟩, fun s w q hw h => ⟨?_, ?_, ?_⟩, fun s w q hw h => ?_⟩,
    fun s f htap hopen hl hidle hq => ⟨?_, ?_, ?_⟩, fun s htap => ⟨?_, ?_⟩, fun s f htap hopen hl hidle hq => ?_⟩
  · intro hr hen hlost hways hlink
    subst hw
    exact (live_pairWrite (by decide) h).trans
      (congrArg _ (pairCommand_join (s := acknowledge none s) hr hen hlost hways hlink))
  · intro hr hen hlost hways
    subst hw
    exact (live_pairWrite (by decide) h).trans
      (congrArg _ (pairCommand_join_few (s := acknowledge none s) hr hen hlost hways))
  · intro hbar
    subst hw
    exact (live_pairWrite (by decide) h).trans (congrArg _ (pairCommand_join_barred (s := acknowledge none s) hbar))
  · intro h1 h2 h3 h4 h5 h6
    subst hw
    exact (live_pairWrite (by decide) h).trans
      (congrArg _ (pairCommand_switch (s := acknowledge none s) h1 h2 h3 h4 h5 h6))
  · intro hbar
    subst hw
    exact (live_pairWrite (by decide) h).trans (congrArg _ (pairCommand_switch_barred (s := acknowledge none s) hbar))
  · intro hbar
    subst hw
    exact (live_pairWrite (by decide) h).trans (congrArg _ (pairCommand_leave_barred (s := acknowledge none s) hbar))
  · intro hr
    subst hw
    have hstandby : standbyRole s = true := by rcases hr with h2 | h3 <;> simp [standbyRole, *]
    have hleave : pairCommand 3 (acknowledge none s)
        = enterSolo true (rideQueue 8 s.pair.epoch [] (acknowledge none s)) :=
      (pairCommand_leave (s := acknowledge none s) (by
        rcases hr with h2 | h3
        · simp [leaveBarred, acknowledge, modBus, h2]
        · simp [leaveBarred, acknowledge, modBus, h3])).trans (leavePair_standby (s := acknowledge none s) hstandby)
    have hparams : (rideQueue 8 s.pair.epoch [] (acknowledge none s)).params = s.params :=
      ((rideQueue_frame _ _ _ _).frame .params).resolve_left (by decide)
    obtain ⟨x, hx, hrole, hstart, -⟩ := soloRole_pair (rideQueue 8 s.pair.epoch [] (acknowledge none s))
    refine ⟨_, (live_pairWrite (by decide) h).trans (congrArg _ hleave), ?_⟩
    rw [enterSolo_pair, hx]
    refine ⟨hrole, hstart, fun p hp => (enterSolo_ports hp _).1, fun p hp hon => (enterSolo_ports hp _).2 ?_⟩
    rw [pn_eq_of_params_eq hparams]
    exact hon
  · intro hr hb hsw
    subst hw
    have hleave : pairCommand 3 (acknowledge none s) = enterSolo false (acknowledge none s) :=
      (pairCommand_leave (s := acknowledge none s) (by simp [leaveBarred, acknowledge, modBus, hr, hb])).trans
        (leavePair_other (s := acknowledge none s) (by simp [standbyRole, acknowledge, modBus, hr]))
    obtain ⟨x, hx, hrole, -⟩ := soloRole_pair (acknowledge none s)
    refine ⟨_, (live_pairWrite (by decide) h).trans (congrArg _ hleave), ?_, fun p => ?_⟩
    · rw [enterSolo_pair, hx, hrole]
    · exact congrArg Port.link (port_of_ports (enterSolo_active_ports (s := acknowledge none s) hr.le hsw) p)
  · subst hw
    exact live_pairWrite (by decide) h
  · intro hb hr hin hfin
    obtain ⟨fs, hack⟩ := rideAck_pair (switchRequestAct f (rideTaken f s))
    obtain ⟨hrole, hepoch, himage, hasked⟩ := switchAsking_pair (f := f) hidle
    have hover : switchRequestAct f (rideTaken f s) = switchOver (switchAsking f (rideTaken f s)) :=
      switchTry_ready (s := switchAsking f (rideTaken f s)) (hasked.trans (by simp [hr, hb])) (hrole.trans hr)
        (by rw [himage, hfin]) (hepoch.trans hin)
    obtain ⟨hdone, hmir⟩ := switchOver_pair (switchAsking f (rideTaken f s))
    refine ⟨_, (receives_switchRequest f s htap).trans (congrArg _ (rideReceive_next hopen hl hq)), ?_, ?_, ?_⟩
    · rw [hack, hover]
      dsimp only
      exact hdone
    · rw [hack, hover]
      dsimp only
      exact hmir
    · rw [pw_congr (rideAck_params (switchRequestAct f (rideTaken f s))), hover, switchOver_uncounted, pw_congr (switchAsking_params f _),
        pw_congr (rideTaken_params f s)]
  · intro hb hr hno
    obtain ⟨fs, hack⟩ := rideAck_pair (switchRequestAct f (rideTaken f s))
    obtain ⟨hrole, hepoch, himage, hasked⟩ := switchAsking_pair (f := f) hidle
    have hwait : switchRequestAct f (rideTaken f s) = switchAsking f (rideTaken f s) :=
      switchTry_waits (s := switchAsking f (rideTaken f s)) (.inr (by rwa [hepoch, himage]))
    refine ⟨_, (receives_switchRequest f s htap).trans (congrArg _ (rideReceive_next hopen hl hq)), ?_, ?_⟩
    · rw [hack, hwait]
      exact hrole.trans hr
    · rw [hack, hwait]
      exact hasked.trans (by simp [hr, hb])
  · intro hb hr hsw
    have htaken := rideTaken_pair (f := f) hidle
    obtain ⟨fs, hack⟩ := rideAck_pair (switchDoneAct f (rideTaken f s))
    obtain ⟨x, hx, hrole, hsync, hmir, hswitch, -⟩ := becomeStandby_pair (rideGrant 1 (rideTaken f s))
    refine ⟨_, (receives_switchDone f s htap).trans (congrArg _ (rideReceive_next hopen hl hq)), ?_⟩
    rw [hack, switchDoneAct_done (by rw [htaken]; exact hr) (by rw [htaken]; exact hsw) hb, hx]
    exact ⟨hrole, hmir, hswitch, hsync⟩
  · intro hsw
    rw [exec_switchoverTimeout htap]
    exact congrArg _ (if_neg hsw)
  · intro hsw hdue
    refine ⟨_, exec_switchoverTimeout htap, ?_⟩
    rw [switchoverTimeout_due hsw hdue, pairAlarm_pair, serviceBegin_pair]
    exact ⟨rfl, rfl, rfl⟩
  · have htaken := rideTaken_pair (f := f) hidle
    obtain ⟨fs, hack⟩ := rideAck_pair (leaveAct (rideTaken f s))
    obtain ⟨x, hx, hrole, halarm, hcredit, hactive⟩ := leaveAct_pair (rideTaken f s)
    rw [htaken] at hrole halarm hcredit hactive
    refine ⟨_, (receives_leave f s htap).trans (congrArg _ (rideReceive_next hopen hl hq)), ?_⟩
    rw [hack, hx]
    exact ⟨hrole, halarm, hcredit, hactive⟩

end Sys2Proof.Machine
end

section
/-! PROOFS. Epoch images sent and committed (chapter 16). -/

namespace Sys2Proof.Machine

variable {s t : State} {f : RideFrame}

/-! ### Boundaries of an ACTIVE (R483 to R487) -/

theorem exec_epochBoundary (h : s.tap = false) : exec .epochBoundary s = .next (epochBoundaryEffect s) :=
  live_next s epochBoundaryEffect h

/-- A boundary is counted. -/
def boundaryCounted (s : State) : State := modPair (fun x => { x with
  boundaryAt := x.boundaryAt + ms 1, epoch := (x.epoch + 1) % 2 ^ 32 }) s

theorem epochBoundary_other (h : s.pair.role ≠ 1) : epochBoundaryEffect s = s := if_pos (.inl h)

theorem epochBoundary_due (hr : s.pair.role = 1) (hl : pairingLost s = false) (hs : s.safety.safe = false)
    (hdue : s.pair.boundaryAt + ms 1 ≤ s.clk) : epochBoundaryEffect s = match stagingWay s with
      | some way => if s.pair.mirroring && rideOpen s then buildEpoch way (boundaryCounted s) else boundaryCounted s
      | none => boundaryCounted s := by
  refine (if_neg (by simp [hr, hl, hs])).trans ?_
  dsimp only
  rw [waitUntil_past hdue]
  rfl

theorem sendNext_pair (s : State) : (sendNext s).pair = s.pair := (sendNext_ev (by decide) (.refl s)).kept .pair

/-- An image is staged: the journal is in it. -/
theorem buildEpoch_pair (way : Nat) (s : State) : ∃ x o, (buildEpoch way s).pair = x ∧ x.epoch = s.pair.epoch
    ∧ x.out = s.pair.out ++ [o] ∧ o.epoch = s.pair.epoch ∧ o.way = way ∧ x.journal = [] := by
  have hask : (if s.pair.resyncAsked then syncStart s else s).pair.epoch = s.pair.epoch
      ∧ (if s.pair.resyncAsked then syncStart s else s).pair.out = s.pair.out := by
    split <;> exact ⟨rfl, rfl⟩
  unfold buildEpoch
  dsimp only
  rw [sendNext_pair]
  generalize (if s.pair.resyncAsked then syncStart s else s) = u at hask ⊢
  obtain ⟨hepoch, hout⟩ := hask
  rw [← hepoch, ← hout]
  split <;> exact ⟨_, _, rfl, rfl, rfl, rfl, rfl, rfl⟩

/-! ### A sequenced frame that leaves at once -/

theorem rideCredit_congr (hp : t.pair = s.pair) (hq : t.params = s.params) (hf : t.fences = s.fences)
    (hs : t.safety = s.safety) : rideCredit t = rideCredit s := by
  rw [rideCredit, rideCredit, rideOpen_congr (by rw [hp]) hq hf hs, hp]

/-- With a credit and nothing before it a frame leaves as it is queued. -/
theorem rideQueue_now {ty e : Nat} {b : List Byte} (hw : s.pair.waiting = []) (hc : rideCredit s = true) :
    rideQueue ty e b s = modPair (fun x => { x with
      seq := (s.pair.seq + 1) % 65536, sent := x.sent ++ [⟨rideHeader s ty b.length s.pair.seq e, b⟩],
      unacked := x.unacked ++ [firstOut ty e b s], waiting := [] }) s := by
  have hopen : rideOpen (modPair (fun x => { x with waiting := x.waiting ++ [(ty, e, b)] }) s) = rideOpen s :=
    rideOpen_modPair rfl
  have hcredit : rideCredit (modPair (fun x => { x with waiting := x.waiting ++ [(ty, e, b)] }) s) = true := by
    rw [rideCredit, hopen]
    exact hc
  rw [rideQueue, ridePump_succ (rest := []) (by rw [modPair_pair, hw]; rfl) hcredit, ridePump_idle 63 (by simp [modPair, pumped, hw])]
  simp [modPair, pumped, firstOut, rideHeader, ownPrio, pn, pw, hw]

/-! ### Channel 6 (R406, R408, R486) -/

theorem chan_rideMark (s : State) (c : Nat) : ∃ m, chan (rideMark s) c = { chan s c with mark := m } := by
  unfold rideMark
  split
  · exact ⟨_, rfl⟩
  · dsimp only
    split
    · by_cases h : c = 6
      · rw [h, chan_modChan_same]
        exact ⟨_, rfl⟩
      · rw [chan_modChan_ne _ _ _ _ h]
        exact ⟨_, rfl⟩
    · exact ⟨_, rfl⟩

/-- A burst of channel 6 that is queued as DATA. -/
def burstQueued (n : Nat) (o : EpochOut) (s : State) : State :=
  rideQueue 3 o.epoch (leBytes 4 (chan s 6).dst ++ leBytes 4 0 ++ cellsRead 0 s.scratch (chan s 6).src n) s

/-- The registers of a channel after n bytes. -/
def movedOn (n : Nat) (y : Chan) : Chan :=
  { y with src := y.src + n, dst := y.dst + n, count := y.count - n / 16, moved := decide (y.count ≤ n / 16) }

def burstSent (n : Nat) (o : EpochOut) (s : State) : State :=
  perfAdd 0x070602 1 (perfAdd 0x070601 n { burstQueued n o s with lastChan := 6 })

theorem rideBurst_sends {o : EpochOut} {rest : List EpochOut} (h : s.pair.out = o :: rest) : rideBurst .none s =
    rideMark (modChan 6 (movedOn (min 4096 (16 * (chan s 6).count)))
      (burstSent (min 4096 (16 * (chan s 6).count)) o s)) := by
  unfold rideBurst
  dsimp only
  rw [if_neg (by decide), if_neg (by decide), h]
  rfl

theorem burstSent_frame (n : Nat) (o : EpochOut) (s : State) : Evolves 0x280100 (burstQueued n o s) (burstSent n o s) :=
  perfAdd_ev (by decide) (perfAdd_ev (by decide) (.set_lastChan (by decide) (.refl _)))

theorem exec_burst6 {io : BurstIo} (h : s.tap = false) :
    exec (.xferPacedBurst 6 io) s = .next (xferPacedBurstEffect 6 io s) := live_next s (xferPacedBurstEffect 6 io) h

theorem exec_channelEnd {c : Fin 16} {ecc : Bool} (h : s.tap = false) :
    exec (.xferChannelEnd ⟨c, ecc⟩) s = .next (channelEnd c ecc s) := live_next s (channelEnd c ecc) h

/-- A ready burst of channel 6 that is chosen. -/
theorem xferPacedBurst_ride {io : BurstIo} (hen : pairEnabled s = true) (hready : rideReady s = true)
    (hch : chosen s 6 = true) : xferPacedBurstEffect 6 io s = rideBurst io.hit s := by
  have hmay : mayIssue s 6 io.dreq = true := (if_pos (by simp [hen])).trans hready
  exact (if_neg (by simp [hmay, hch])).trans (if_pos (by simp [hen]))

/-- The burst is one DATA frame, and the channel's registers go on. -/
theorem rideBurst_queues {o : EpochOut} {rest : List EpochOut} {n : Nat} (hout : s.pair.out = o :: rest)
    (hw : s.pair.waiting = []) (hc : rideCredit s = true) (hn : n = min 4096 (16 * (chan s 6).count)) :
    (∃ h, (rideBurst .none s).pair.sent = s.pair.sent ++ [h] ∧ h.hdr.type = 3
      ∧ h.payload.drop 8 = cellsRead 0 s.scratch (chan s 6).src n)
    ∧ (rideBurst .none s).pair.seq = (s.pair.seq + 1) % 65536
    ∧ (chan (rideBurst .none s) 6).src = (chan s 6).src + n
    ∧ (chan (rideBurst .none s) 6).count = (chan s 6).count - n / 16 := by
  have hpair : (burstSent n o s).pair = (burstQueued n o s).pair :=
    ((burstSent_frame n o s).frame .pair).resolve_left (by decide)
  have hchans : (burstSent n o s).chans = s.chans :=
    (((burstSent_frame n o s).frame .chans).resolve_left (by decide)).trans
      (((rideQueue_frame _ _ _ s).frame .chans).resolve_left (by decide))
  obtain ⟨m, hmark⟩ := chan_rideMark (modChan 6 (movedOn n) (burstSent n o s)) 6
  rw [rideBurst_sends hout, ← hn, rideMark_pair, modChan_pair, hpair, hmark, chan_modChan_same, chan_of_chans hchans,
    burstQueued, rideQueue_now hw hc]
  refine ⟨⟨_, rfl, rfl, ?_⟩, rfl, rfl, rfl⟩
  rw [List.drop_append_of_le_length (by simp)]
  simp [leBytes]

/-- Channel 6 with all its data acknowledged. -/
theorem rideChannelEnd_ends {o : EpochOut} (hb : (chan s 6).busy = true) (hm : (chan s 6).moved = true)
    (hout : s.pair.out = [o]) (hw : s.pair.waiting = []) (hu : s.pair.unacked = []) (hfin : bitOf o.flags 2 = false) :
    rideChannelEnd s = modPair (fun y => { y with out := [] }) (rideQueue 4 o.epoch
      (leBytes 4 o.len ++ leBytes 4 (crc32 (cellsRead 0 s.scratch (65536 * o.way) o.len))) (endChan 6 0 s)) := by
  unfold rideChannelEnd
  dsimp only
  rw [hout]
  dsimp only
  rw [if_neg (by simp [hb, hm, hw, hu]), if_neg (by simp [hfin])]
  rfl

theorem rideCredit_endChan (c e : Nat) (s : State) : rideCredit (endChan c e s) = rideCredit s :=
  have h := endChan_ev (m := 0x100100) (c := c) (err := e) (by decide) (.refl s)
  rideCredit_congr ((h.frame .pair).resolve_left (by decide)) ((h.frame .params).resolve_left (by decide))
    ((h.frame .fences).resolve_left (by decide)) ((h.frame .safety).resolve_left (by decide))

theorem endChan_pair (c e : Nat) (s : State) : (endChan c e s).pair = s.pair :=
  (endChan_ev (by decide) (.refl s)).kept .pair

/-- The channel is done, the image is sent, and COMMIT follows it. -/
theorem rideChannelEnd_commits {o : EpochOut} (hb : (chan s 6).busy = true) (hm : (chan s 6).moved = true)
    (hout : s.pair.out = [o]) (hw : s.pair.waiting = []) (hu : s.pair.unacked = []) (hfin : bitOf o.flags 2 = false)
    (hc : rideCredit s = true) : (chan (rideChannelEnd s) 6).busy = false ∧ (chan (rideChannelEnd s) 6).done = true
      ∧ (rideChannelEnd s).pair.out = [] ∧ ∃ h, (rideChannelEnd s).pair.sent = s.pair.sent ++ [h] ∧ h.hdr.type = 4
        ∧ h.payload = leBytes 4 o.len ++ leBytes 4 (crc32 (cellsRead 0 s.scratch (65536 * o.way) o.len)) := by
  have hcredit : rideCredit (endChan 6 0 s) = true := (rideCredit_endChan 6 0 s).trans hc
  have hwait : (endChan 6 0 s).pair.waiting = [] := by rw [endChan_pair, hw]
  have hchan : chan (endChan 6 0 s) 6 = endedChan 0 (chan s 6) := chan_endChan_same 0
  rw [rideChannelEnd_ends hb hm hout hw hu hfin, rideQueue_now hwait hcredit, ← endChan_pair 6 0 s]
  exact ⟨(congrArg Chan.busy hchan :), (congrArg Chan.done hchan :), rfl, _, rfl, rfl, rfl⟩

/-! ### The frames in the receive buffers (R488) -/

theorem chan_rideFields_ne {c : Nat} (h : c ≠ 6) (f : RideFrame) (s : State) : chan (rideFields f s) c = chan s c := by
  have hpump : ∀ v : State, chan (rideMark v) c = chan v c := by
    intro v
    unfold rideMark
    split
    · rfl
    · dsimp only
      split
      · exact chan_modChan_ne _ _ _ _ h
      · rfl
  rw [rideFields_eq, hpump]
  exact chan_of_chans ((ridePump_ev (by decide) (.refl (modPair (fieldsTaken f) s))).kept .chans) c

/-- What the receive buffers do not touch: the committed image and its bank, the sync, the role and its alarm. -/
def committed (x : Pair) : List Byte × Nat × Nat × Bool × Nat × Bool :=
  (x.image, x.bank, x.epoch, x.synced, x.role, x.alarm)

theorem committed_eq {x y : Pair} (h : committed x = committed y) : x.image = y.image ∧ x.bank = y.bank
    ∧ x.epoch = y.epoch ∧ x.synced = y.synced ∧ x.role = y.role ∧ x.alarm = y.alarm := by
  simpa [committed] using h

theorem programChan_pair (c src srcSp dst dstSp len : Nat) (s : State) :
    (programChan c src srcSp dst dstSp len s).pair = s.pair := (programChan_ev (by decide) (.refl s)).kept .pair

theorem discardEpoch_committed (s : State) : committed (discardEpoch s).pair = committed s.pair := by
  obtain ⟨c, bs, h⟩ := discardEpoch_pair s
  rw [h]
  rfl

theorem epochOpen_committed (epoch came : Nat) (bytes : List Byte) (s : State) :
    committed (epochOpen epoch came bytes s).pair = committed s.pair := by
  unfold epochOpen
  split
  · rfl
  · dsimp only
    split
    · exact discardEpoch_committed s
    · rw [programChan_pair]
      exact discardEpoch_committed s

theorem takeCommit_committed (epoch : Nat) (s : State) : committed (takeCommit epoch s).pair = committed s.pair := by
  unfold takeCommit
  split <;> rfl

theorem rideSettle_committed (n : Nat) (s : State) : committed (rideSettle n s).pair = committed s.pair := by
  induction n generalizing s with
  | zero => rfl
  | succ n ih =>
    rw [rideSettle]
    split
    · rfl
    · next b rest _ =>
      split
      · rfl
      · cases b with
        | commit => exact ih _
        | data epoch off came bytes =>
          have hopen : committed (if off = 0 then epochOpen epoch came bytes s else s).pair = committed s.pair := by
            split
            · exact epochOpen_committed epoch came bytes s
            · rfl
          dsimp only
          generalize (if off = 0 then epochOpen epoch came bytes s else s) = u at hopen ⊢
          split
          · exact (takeCommit_committed epoch u).trans hopen
          · exact (ih (dropBuffer u)).trans hopen

theorem epochOver_committed (s : State) : committed (epochOver s).pair = committed s.pair := rideSettle_committed _ s

theorem epochOver_empty (h : s.pair.buffers = []) : epochOver s = s := by rw [epochOver, h]; rfl

/-- A frame that waits for the epoch in progress to end. -/
theorem rideSettle_waits {n : Nat} {b : RideBuf} {rest : List RideBuf} (hb : s.pair.buffers = b :: rest)
    (h : (inProgress s b.epoch || epochClosing s) = true) : rideSettle (n + 1) s = s := by
  rw [rideSettle, hb]
  exact if_pos h

/-- The first DATA frame of an epoch opens it. -/
theorem rideSettle_opens {n epoch came : Nat} {bytes : List Byte} {rest : List RideBuf}
    (hb : s.pair.buffers = .data epoch 0 came bytes :: rest) (h : (inProgress s epoch || epochClosing s) = false)
    (hopen : inProgress (epochOpen epoch came bytes s) epoch = true) :
    rideSettle (n + 1) s = takeCommit epoch (epochOpen epoch came bytes s) := by
  rw [rideSettle, hb]
  refine (if_neg (ne_true_of_eq_false h)).trans ?_
  dsimp only
  rw [if_pos rfl, if_pos hopen]

theorem takeCommit_none {epoch off e came : Nat} {bytes : List Byte}
    (h : s.pair.buffers = [.data e off came bytes]) : takeCommit epoch s = s := by
  unfold takeCommit
  rw [h]
  rfl

/-- The epoch that a first DATA frame opens, with nothing committed yet. -/
theorem epochOpen_first {epoch came : Nat} {bytes : List Byte} (himage : s.pair.image = []) (hin : s.pair.inEpoch = none)
    (hways : 2 ≤ s.canopy.pairWays.length) (hmagic : byteAt bytes 0 = 0x45) (hlo : 800 ≤ leNat (slice bytes 8 4))
    (hhi : leNat (slice bytes 8 4) ≤ 65536) (hmod : leNat (slice bytes 8 4) % 16 = 0) :
    (epochOpen epoch came bytes s).pair = { s.pair with
      inEpoch := some ⟨epoch, leNat (slice bytes 8 4), 0, came, none⟩,
      resync := s.pair.resync && !bitOf (leNat (slice bytes 14 2)) 0 } := by
  unfold epochOpen
  rw [if_neg (by simp [himage])]
  dsimp only
  rw [if_pos himage, discardEpoch_none hin,
    if_neg (by simp only [hmagic, hmod, ne_eq, not_true_eq_false, false_or]; omega), programChan_pair]
  rfl

/-- DATA waits in a receive buffer. -/
def dataWaits (f : RideFrame) (s : State) : State := modPair (fun x => { x with
  buffers := x.buffers ++ [.data f.hdr.epoch.toNat (leNat (f.payload.take 4)) s.clk (f.payload.drop 8)] }) s

theorem dataAct_standby (h : standbyRole s = true) : dataAct false f s = epochOver (dataWaits f s) :=
  (if_neg (by decide)).trans (if_neg (by simp [h]))

theorem dataAct_other (h : standbyRole s = false) : dataAct false f s = rideGrant 1 s :=
  (if_neg (by decide)).trans (if_pos (by simp [h]))

theorem rideTaken_clk (f : RideFrame) (s : State) : (rideTaken f s).clk = s.clk := rideFields_clk f s

theorem rideTaken_canopy (f : RideFrame) (s : State) : (rideTaken f s).canopy = s.canopy :=
  ((rideFields_frame f s).frame .canopy).resolve_left (by decide)

theorem rideTaken_scratch (f : RideFrame) (s : State) : (rideTaken f s).scratch = s.scratch :=
  ((rideFields_frame f s).frame .scratch).resolve_left (by decide)

theorem chan_rideTaken_ne {c : Nat} (h : c ≠ 6) (f : RideFrame) (s : State) : chan (rideTaken f s) c = chan s c :=
  chan_rideFields_ne h f s

theorem inProgress_congr (h : t.pair.inEpoch = s.pair.inEpoch) (e : Nat) : inProgress t e = inProgress s e := by
  rw [inProgress, h, inProgress]

theorem epochClosing_congr (h : t.pair.inEpoch = s.pair.inEpoch) (hc : chan t 7 = chan s 7) :
    epochClosing t = epochClosing s := by rw [epochClosing, h, hc, epochClosing]

/-- The first DATA frame of an epoch, with nothing committed or waiting, opens it and waits for channel 7. -/
theorem dataAct_opens (hst : standbyRole s = true) (hin : s.pair.inEpoch = none) (himage : s.pair.image = [])
    (hways : 2 ≤ s.canopy.pairWays.length) (hbuf : s.pair.buffers = []) (hoff : leNat (f.payload.take 4) = 0)
    (hmagic : byteAt (f.payload.drop 8) 0 = 0x45) (hlo : 800 ≤ leNat (slice (f.payload.drop 8) 8 4))
    (hhi : leNat (slice (f.payload.drop 8) 8 4) ≤ 65536) (hmod : leNat (slice (f.payload.drop 8) 8 4) % 16 = 0) :
    ∃ e : EpochIn, (dataAct false f s).pair.inEpoch = some e ∧ e.epoch = f.hdr.epoch.toNat
      ∧ e.len = leNat (slice (f.payload.drop 8) 8 4) ∧ e.bank = 0 ∧ e.commit = none ∧ e.since = s.clk
      ∧ (dataAct false f s).pair.buffers = [.data f.hdr.epoch.toNat 0 s.clk (f.payload.drop 8)]
      ∧ (dataAct false f s).pair.ack = s.pair.ack := by
  have hwait : (dataWaits f s).pair.buffers = [.data f.hdr.epoch.toNat 0 s.clk (f.payload.drop 8)] := by
    rw [dataWaits, modPair_pair, hbuf, hoff]
    rfl
  have hidle : (inProgress (dataWaits f s) f.hdr.epoch.toNat || epochClosing (dataWaits f s)) = false := by
    simp [inProgress, epochClosing, dataWaits, modPair, hin]
  have hopen := epochOpen_first (s := dataWaits f s) (epoch := f.hdr.epoch.toNat) (came := s.clk) himage hin hways hmagic
    hlo hhi hmod
  have hprog : inProgress (epochOpen f.hdr.epoch.toNat s.clk (f.payload.drop 8) (dataWaits f s)) f.hdr.epoch.toNat = true := by
    rw [inProgress, hopen]
    exact beq_self_eq_true _
  have hact : dataAct false f s = epochOpen f.hdr.epoch.toNat s.clk (f.payload.drop 8) (dataWaits f s) := by
    rw [dataAct_standby hst, epochOver, hwait, List.length_singleton, rideSettle_opens hwait hidle hprog]
    exact takeCommit_none (by rw [hopen]; exact hwait)
  rw [hact, hopen]
  exact ⟨_, rfl, rfl, rfl, rfl, rfl, rfl, hwait, rfl⟩

/-- A DATA frame of the next epoch waits while one ends. -/
theorem dataAct_waits (hst : standbyRole s = true) (hclose : epochClosing s = true) (hbuf : s.pair.buffers = []) :
    dataAct false f s = dataWaits f s := by
  have hwait : (dataWaits f s).pair.buffers = [.data f.hdr.epoch.toNat (leNat (f.payload.take 4)) s.clk (f.payload.drop 8)] := by
    rw [dataWaits, modPair_pair, hbuf]
    rfl
  have hends : epochClosing (dataWaits f s) = true := hclose
  rw [dataAct_standby hst, epochOver, hwait, List.length_singleton, rideSettle_waits hwait (by simp [hends])]

/-! ### COMMIT (R489) -/

/-- COMMIT of the epoch in progress has come. -/
def commitCame (f : RideFrame) (s : State) : State := modPair (fun x => { x with
  inEpoch := x.inEpoch.map fun e => { e with commit := some (leNat (f.payload.take 4), leNat (slice f.payload 4 4)) } })
  (rideGrant 1 s)

theorem commitAct_current {ecc : Bool} (h : inProgress s f.hdr.epoch.toNat = true) :
    commitAct ecc f s = epochOver (switchTry (commitTry ecc (commitCame f s))) := if_pos h

/-- The bank of an epoch in progress, as it reads. -/
def bankImage (e : EpochIn) (s : State) : List Byte :=
  cellsRead 0 s.scratch (65536 * s.canopy.pairWays.getD e.bank 0) e.len

/-- The bank becomes the committed image. -/
def bankTaken (e : EpochIn) (s : State) : State := modPair (fun x => { x with
  inEpoch := none, bank := e.bank, image := bankImage e s, epoch := e.epoch,
  synced := (x.synced || bitOf (imageFlags (bankImage e s)) 1) && !bitOf (imageFlags (bankImage e s)) 3 }) s

/-- A complete epoch is judged by its LEN, the end of channel 7 and its CRC. -/
theorem commitTry_judged {e : EpochIn} {len crc : Nat} (hin : s.pair.inEpoch = some e) (hc : e.commit = some (len, crc))
    (hb : (chan s 7).busy = false) : commitTry false s =
      if len = e.len ∧ (chan s 7).done ∧ (chan s 7).err = 0 ∧ crc32 (bankImage e s) = crc
        then applyJournal (bankImage e s) (bankTaken e s) else discardEpoch s := by
  have hread : bankRead s = true := by simp [bankRead, hin, hc, hb]
  unfold commitTry
  rw [if_neg (by simp [hread]), if_neg (by decide), hin]
  dsimp only
  rw [hc]
  rfl

theorem commitTry_ecc {e : EpochIn} (hin : s.pair.inEpoch = some e) (hc : e.commit.isSome = true)
    (hb : (chan s 7).busy = false) : commitTry true s = pairFault (setMFault 3 22 31 0x70 0 false s) :=
  (if_neg (by simp [bankRead, hin, hc, hb])).trans (if_pos rfl)

/-- An image with no record changes nothing. -/
theorem applyJournal_none {image : List Byte} (h : leNat (slice image 12 2) = 0) : applyJournal image s = s := by
  rw [applyJournal, h]
  rfl

/-- The epoch in progress, its COMMIT come. -/
def withCommit (f : RideFrame) (e : EpochIn) : EpochIn :=
  { e with commit := some (leNat (f.payload.take 4), leNat (slice f.payload 4 4)) }

/-- COMMIT of the epoch in progress comes next: what the judgement rests on. -/
theorem commitCame_pair {e : EpochIn} (h : s.pair.waiting = []) (hin : s.pair.inEpoch = some e) :
    ∃ x, (commitCame f (rideTaken f s)).pair = x ∧ x.inEpoch = some (withCommit f e) ∧ x.buffers = s.pair.buffers
      ∧ x.switchAsked = s.pair.switchAsked ∧ x.image = s.pair.image := by
  rw [commitCame, rideGrant, modPair_pair, modPair_pair, rideTaken_pair h]
  refine ⟨_, rfl, ?_, rfl, rfl, rfl⟩
  exact congrArg (Option.map (withCommit f)) hin

theorem chan_commitCame (f : RideFrame) (s : State) : chan (commitCame f (rideTaken f s)) 7 = chan s 7 :=
  (chan_of_chans (s := rideTaken f s) (u := commitCame f (rideTaken f s)) rfl 7).trans
    (chan_rideTaken_ne (by decide) f s)

theorem bankImage_commitCame (e : EpochIn) (f : RideFrame) (s : State) :
    bankImage (withCommit f e) (commitCame f (rideTaken f s)) = bankImage e s := by
  have hc : (commitCame f (rideTaken f s)).canopy = s.canopy := rideTaken_canopy f s
  have hs : (commitCame f (rideTaken f s)).scratch = s.scratch := rideTaken_scratch f s
  rw [bankImage, hc, hs]
  rfl

theorem commitAct_next {e : EpochIn} {ecc : Bool} (h : s.pair.waiting = []) (hin : s.pair.inEpoch = some e)
    (he : e.epoch = f.hdr.epoch.toNat) : commitAct ecc f (rideTaken f s)
      = epochOver (switchTry (commitTry ecc (commitCame f (rideTaken f s)))) := by
  refine commitAct_current (s := rideTaken f s) ?_
  have hsame : (rideTaken f s).pair.inEpoch = some e := by
    rw [rideTaken_pair h]
    exact hin
  rw [inProgress, hsame]
  exact beq_iff_eq.mpr he

/-! ### The end of an epoch whose COMMIT does not come (R490) -/

theorem exec_epochTimeout (h : s.tap = false) : exec .epochTimeout s = .next (epochTimeoutEffect s) :=
  live_next s epochTimeoutEffect h

theorem epochTimeout_committed {e : EpochIn} (hin : s.pair.inEpoch = some e) (hc : e.commit.isSome = true) :
    epochTimeoutEffect s = s := by
  rw [epochTimeoutEffect, hin]
  exact if_pos hc

theorem epochTimeout_due {e : EpochIn} (hin : s.pair.inEpoch = some e) (hc : e.commit = none)
    (hdue : e.since + us (pn s 0x700003) ≤ s.clk) :
    epochTimeoutEffect s = rideTold s (epochOver (discardEpoch s)) := by
  unfold epochTimeoutEffect
  rw [hin]
  refine (if_neg (by simp [hc])).trans ?_
  dsimp only
  rw [waitUntil_past hdue]

/-- An epoch discarded with nothing behind it. -/
theorem epochOver_discarded {e : EpochIn} (hin : s.pair.inEpoch = some e) (hb : s.pair.buffers = []) :
    (epochOver (discardEpoch s)).pair.inEpoch = none ∧ (epochOver (discardEpoch s)).pair.resync = true
      ∧ pw (epochOver (discardEpoch s)) 0x700004 = word (stick 24 (pn s 0x700004) 1) := by
  have hbuf : (discardEpoch s).pair.buffers = [] := by
    rw [discardEpoch_some hin, abortChan_pair]
    show s.pair.buffers.filter _ = []
    rw [hb]
    rfl
  obtain ⟨c, bs, h⟩ := discardEpoch_pair s
  rw [epochOver_empty hbuf, pw_discardEpoch hin, h]
  exact ⟨rfl, by rw [epochGone, hin, Option.isSome_some, Bool.or_true], rfl⟩

/-- A pairing fault: SOLO, with ALARM and its cause. -/
theorem pairFault_solo (s : State) : (pairFault s).pair.role = 0 ∧ (pairFault s).pair.alarm = true
    ∧ (pairFault s).mgmt.fault.getLsbD 11 = true := by
  obtain ⟨x, hx, hrole, -⟩ := soloRole_pair (setMFault 11 23 31 0 0 false s)
  refine ⟨?_, ?_, ?_⟩
  · rw [pairFault, pairAlarm_pair, enterSolo_pair, hx]
    exact hrole
  · rw [pairFault, pairAlarm_pair]
  · rw [pairFault, pairAlarm, raise_mgmt, modPair_mgmt,
      (enterSolo_ev (ports := true) (by decide) (.refl (setMFault 11 23 31 0 0 false s))).kept .mgmt, setMFault_fault]
    simp

/-- Settles O52: a boundary is counted and staged (`buildEpoch_pair`), channel 6 sends and ends (`rideBurst_queues`,
`rideChannelEnd_ends`), the first DATA frame opens an epoch (`epochOpen_first`), and COMMIT has it judged
(`commitTry_judged`), with what waits behind it left alone (`epochOver_committed`). -/
theorem epochsAreSentAndCommitted : Obligations.EpochsAreSentAndCommitted := by
  unfold Obligations.EpochsAreSentAndCommitted
  refine ⟨fun s htap => ⟨fun hr => ?_, fun hr hl hs hdue => ⟨fun hno => ?_, fun k hk hmir hopen => ?_⟩⟩,
    fun s n io htap hen hio hch hb hm he hy hc hw hout hn => ?_,
    fun s o ecc htap hen hb hm hout hw hu hfin hc => ?_,
    fun s f bs htap hopen hl hidle hq hbs => ⟨fun hr => ?_, fun hr hin himage hways hbuf hoff hmagic hlo hhi hmod => ?_,
      fun hr hclose hprog hbuf => ?_⟩,
    fun s f e image htap hopen hl hidle hq hin hepoch hb7 hask himage => ⟨fun hlen hdone herr hcrc hrec => ?_, fun hcrc => ?_, ?_⟩,
    fun s e htap hin => ⟨fun hc => ?_, fun hc hdue => ?_⟩⟩
  · rw [exec_epochBoundary htap, epochBoundary_other hr]
  · rw [exec_epochBoundary htap, epochBoundary_due hr hl hs hdue]
    split
    · next way hway =>
      rw [if_neg]
      · rfl
      · rcases hno with h | h | h
        · exact absurd hway (by simp [h])
        · simp [h]
        · simp [h]
    · rfl
  · obtain ⟨x, o, hx, hepoch, hout, ho, hway, hj⟩ := buildEpoch_pair k (boundaryCounted s)
    refine ⟨_, o, exec_epochBoundary htap, ?_⟩
    rw [epochBoundary_due hr hl hs hdue, hk]
    dsimp only
    rw [if_pos (by simp [hmir, hopen]), hx]
    exact ⟨hepoch, hout, ho.trans hepoch.symm, hway, hj⟩
  · obtain ⟨o, rest, ho⟩ := List.exists_cons_of_ne_nil hout
    obtain ⟨⟨h, hsent, htype, hpay⟩, hseq, hsrc, hcount⟩ := rideBurst_queues ho hw hc hn
    have hready : rideReady s = true := by simp [rideReady, hb, hm, he, hy, hc, hout]
    refine ⟨_, h, (exec_burst6 htap).trans (congrArg _ ((xferPacedBurst_ride hen hready hch).trans (by rw [hio]))), ?_⟩
    exact ⟨hsent, htype, hpay, hseq, hsrc, hcount⟩
  · obtain ⟨hbusy, hdone, hnone, h, hsent, htype, hpay⟩ := rideChannelEnd_commits hb hm hout hw hu hfin hc
    exact ⟨_, h, (exec_channelEnd htap).trans (congrArg _ (if_pos (by simp [hen]))), hbusy, hdone, hnone, hsent, htype, hpay⟩
  · have htaken := rideTaken_pair (f := f) hidle
    have hother : standbyRole (rideTaken f s) = false := by
      rw [standbyRole, htaken]
      show (s.pair.role == 2 || s.pair.role == 3) = false
      simp only [Bool.or_eq_false_iff, beq_eq_false_iff_ne]
      omega
    obtain ⟨fs, hack⟩ := rideAck_pair (dataAct false f (rideTaken f s))
    refine ⟨_, (receives_data f false s htap).trans (congrArg _ (rideReceive_next hopen hl hq)), ?_⟩
    rw [hack, dataAct_other hother, rideGrant, modPair_pair, htaken]
    exact ⟨rfl, rfl, rfl⟩
  · subst hbs
    have htaken := rideTaken_pair (f := f) hidle
    obtain ⟨fs, hack⟩ := rideAck_pair (dataAct false f (rideTaken f s))
    obtain ⟨e, he, hepoch, hlen, hbank, hcommit, hsince, hbuffers, hnext⟩ := dataAct_opens (s := rideTaken f s) (f := f)
      (by rw [standbyRole, htaken]; exact hr) (by rw [htaken]; exact hin) (by rw [htaken]; exact himage)
      (by rw [rideTaken_canopy]; exact hways) (by rw [htaken]; exact hbuf) hoff hmagic hlo hhi hmod
    rw [rideTaken_clk] at hsince hbuffers
    refine ⟨_, e, (receives_data f false s htap).trans (congrArg _ (rideReceive_next hopen hl hq)), ?_⟩
    rw [hack]
    exact ⟨he, hepoch, hlen, hbank, hcommit, hsince, hbuffers, hnext.trans (by rw [htaken]; rfl)⟩
  · subst hbs
    have htaken := rideTaken_pair (f := f) hidle
    have hact : dataAct false f (rideTaken f s) = dataWaits f (rideTaken f s) := dataAct_waits (s := rideTaken f s)
      (by rw [standbyRole, htaken]; exact hr)
      ((epochClosing_congr (by rw [htaken]; rfl) (chan_rideTaken_ne (by decide) f s)).trans hclose)
      (by rw [htaken]; exact hbuf)
    obtain ⟨fs, hack⟩ := rideAck_pair (dataAct false f (rideTaken f s))
    refine ⟨_, (receives_data f false s htap).trans (congrArg _ (rideReceive_next hopen hl hq)), ?_⟩
    rw [hack, hact, dataWaits, modPair_pair, htaken, rideTaken_clk]
    exact ⟨rfl, rfl, congrArg (· ++ _) hbuf, rfl⟩
  · obtain ⟨x, hx, hcin, hbufs, hasked, -⟩ := commitCame_pair (f := f) hidle hin
    have hbank := (bankImage_commitCame e f s).trans himage.symm
    have hchan := chan_commitCame f s
    have htry : commitTry false (commitCame f (rideTaken f s))
        = bankTaken (withCommit f e) (commitCame f (rideTaken f s)) := by
      rw [commitTry_judged (by rw [hx]; exact hcin) rfl (by rw [hchan]; exact hb7), hbank, hchan,
        if_pos ⟨hlen, hdone, herr, hcrc.symm⟩]
      exact applyJournal_none hrec
    have hact : commitAct false f (rideTaken f s)
        = epochOver (bankTaken (withCommit f e) (commitCame f (rideTaken f s))) := by
      rw [commitAct_next hidle hin hepoch, htry]
      refine congrArg epochOver (switchTry_waits (.inl ?_))
      rw [bankTaken, modPair_pair, hx]
      exact hasked.trans hask
    obtain ⟨fs, hack⟩ := rideAck_pair (commitAct false f (rideTaken f s))
    obtain ⟨himg, hbk, hep, hsync, -⟩ := committed_eq
      (epochOver_committed (bankTaken (withCommit f e) (commitCame f (rideTaken f s))))
    refine ⟨_, (receives_commit f false s htap).trans (congrArg _ (rideReceive_next hopen hl hq)), ?_⟩
    rw [hack, hact]
    refine ⟨fun hbuf => ?_, himg.trans hbank, hbk, hep, fun h1 h3 => hsync.trans ?_⟩
    · rw [epochOver_empty]
      · rfl
      · rw [bankTaken, modPair_pair, hx]
        exact hbufs.trans hbuf
    · rw [bankTaken, modPair_pair, hbank, h1, h3]
      simp
  · obtain ⟨x, hx, hcin, hbufs, hasked, himg⟩ := commitCame_pair (f := f) hidle hin
    have hbank := (bankImage_commitCame e f s).trans himage.symm
    have hact : commitAct false f (rideTaken f s) = epochOver (discardEpoch (commitCame f (rideTaken f s))) := by
      rw [commitAct_next hidle hin hepoch, commitTry_judged (by rw [hx]; exact hcin) rfl (by rw [chan_commitCame]; exact hb7),
        hbank, if_neg fun h => hcrc h.2.2.2.symm]
      refine congrArg epochOver (switchTry_waits (.inl ?_))
      obtain ⟨c, bs, hd⟩ := discardEpoch_pair (commitCame f (rideTaken f s))
      rw [hd, epochGone, hx]
      exact hasked.trans hask
    obtain ⟨fs, hack⟩ := rideAck_pair (commitAct false f (rideTaken f s))
    obtain ⟨hkept, -⟩ := committed_eq ((epochOver_committed (discardEpoch (commitCame f (rideTaken f s)))).trans
      (discardEpoch_committed _))
    refine ⟨_, (receives_commit f false s htap).trans (congrArg _ (rideReceive_next hopen hl hq)), ?_⟩
    rw [hack, hact]
    refine ⟨hkept.trans (by rw [hx, himg]), fun hbuf => ?_⟩
    obtain ⟨hnone, hre, hpw⟩ := epochOver_discarded (s := commitCame f (rideTaken f s)) (e := withCommit f e)
      (by rw [hx]; exact hcin) (by rw [hx]; exact hbufs.trans hbuf)
    refine ⟨hnone, hre, (pw_congr (rideAck_params _) _).trans (hpw.trans ?_)⟩
    rw [pn_eq_of_params_eq (show (commitCame f (rideTaken f s)).params = s.params from rideTaken_params f s)]
  · obtain ⟨x, hx, hcin, -⟩ := commitCame_pair (f := f) hidle hin
    have htry := commitTry_ecc (s := commitCame f (rideTaken f s)) (e := withCommit f e) (by rw [hx]; exact hcin) rfl
      (by rw [chan_commitCame]; exact hb7)
    obtain ⟨hrole, halarm, hfault⟩ := pairFault_solo (setMFault 3 22 31 0x70 0 false (commitCame f (rideTaken f s)))
    have hact : commitAct true f (rideTaken f s)
        = epochOver (pairFault (setMFault 3 22 31 0x70 0 false (commitCame f (rideTaken f s)))) := by
      rw [commitAct_next hidle hin hepoch, htry]
      exact congrArg epochOver (if_neg fun h => absurd (hrole.symm.trans h.2.1) (by decide))
    obtain ⟨fs, hack⟩ := rideAck_pair (commitAct true f (rideTaken f s))
    obtain ⟨-, -, -, -, hr, hal⟩ := committed_eq (epochOver_committed
      (pairFault (setMFault 3 22 31 0x70 0 false (commitCame f (rideTaken f s)))))
    refine ⟨_, (receives_commit f true s htap).trans (congrArg _ (rideReceive_next hopen hl hq)), ?_⟩
    rw [(rideAck_ev (by decide) (.refl (commitAct true f (rideTaken f s)))).kept .mgmt, hack, hact,
      (epochOver_ev (by decide) (.refl _)).kept .mgmt]
    exact ⟨hr.trans hrole, hal.trans halarm, hfault⟩
  · rw [exec_epochTimeout htap, epochTimeout_committed hin hc]
  · refine ⟨_, exec_epochTimeout htap, ?_⟩
    obtain ⟨fs, htold⟩ := rideTold_pair s (epochOver (discardEpoch s))
    have hkept := (epochOver_committed (discardEpoch s)).trans (discardEpoch_committed s)
    rw [epochTimeout_due hin hc hdue, htold]
    refine ⟨congrArg Prod.fst hkept, fun hbuf => ?_⟩
    obtain ⟨hnone, hre, hpw⟩ := epochOver_discarded hin hbuf
    exact ⟨hnone, hre, (pw_congr (rideTold_params _ _) _).trans hpw⟩

end Sys2Proof.Machine
end

section
/-! PROOFS. What building, closing and retiring in the store leave of it (chapters 11 and 12). -/

namespace Sys2Proof.Machine

variable {s t u : State} {k : Nat}

/-! ### Judging HEALTH and the protected fraction (R351, R390) -/

/-- The store but for what MEDIUM 5 and the cap change: MEDIUM, the streams, the segments with their pages, and the cap's
own bits. -/
def judgedPart (x : Store) : Store :=
  { x with medium := 0, streams := [], segs := [], pages := [], capReached := false, beyond := false }

/-- What a judgement of HEALTH and of the protected fraction leaves: the rest of the store, the parameters but for HEALTH
and SPARE_BLOCKS, and, where MEDIUM stands, the segments and pages. -/
structure Judged (s t : State) : Prop where
  store : judgedPart t.store = judgedPart s.store
  pw : ∀ id, id ≠ 0x410007 → id ≠ 0x410008 → pw t id = pw s id
  medium : t.store.medium = s.store.medium ∨ (s.store.medium = 3 ∧ t.store.medium = 5)
  segs : t.store.medium = s.store.medium → t.store.segs = s.store.segs ∧ t.store.pages = s.store.pages

namespace Judged

theorem refl (s : State) : Judged s s := ⟨rfl, fun _ _ _ => rfl, .inl rfl, fun _ => ⟨rfl, rfl⟩⟩

theorem trans (h : Judged s u) (k : Judged u t) : Judged s t := by
  refine ⟨k.store.trans h.store, fun id h7 h8 => (k.pw id h7 h8).trans (h.pw id h7 h8), ?_, fun hsame => ?_⟩
  · rcases h.medium with hm | ⟨hm, hm'⟩
    · rcases k.medium with km | ⟨km, km'⟩
      · exact .inl (km.trans hm)
      · exact .inr ⟨hm ▸ km, km'⟩
    · rcases k.medium with km | ⟨km, -⟩
      · exact .inr ⟨hm, km.trans hm'⟩
      · omega
  · have hmid : u.store.medium = s.store.medium := by
      rcases h.medium with hm | ⟨hm, hm'⟩
      · exact hm
      · rcases k.medium with km | ⟨km, -⟩ <;> omega
    obtain ⟨h1, h2⟩ := h.segs hmid
    obtain ⟨k1, k2⟩ := k.segs (hsame.trans hmid.symm)
    exact ⟨k1.trans h1, k2.trans h2⟩

/-- A field that a judgement leaves. -/
theorem keeps {β : Type} (h : Judged s t) (g : Store → β) (hg : ∀ x, g x = g (judgedPart x)) : g t.store = g s.store := by
  rw [hg t.store, h.store, ← hg]

theorem cmd (h : Judged s t) : t.store.cmd = s.store.cmd := h.keeps Store.cmd fun _ => rfl
theorem blocks (h : Judged s t) : t.store.blocks = s.store.blocks := h.keeps Store.blocks fun _ => rfl
theorem erasing (h : Judged s t) : t.store.erasing = s.store.erasing := h.keeps Store.erasing fun _ => rfl
theorem journal (h : Judged s t) : t.store.journal = s.store.journal := h.keeps Store.journal fun _ => rfl
theorem label (h : Judged s t) : t.store.label = s.store.label := h.keeps Store.label fun _ => rfl

theorem block (h : Judged s t) (b : Nat) : block t b = block s b := by
  rw [Machine.block, h.blocks, Machine.block]

/-- The parameters and the store stand. -/
theorem of_same (hp : t.params = s.params) (hs : t.store = s.store) : Judged s t :=
  ⟨by rw [hs], fun id _ _ => pw_congr hp id, .inl (by rw [hs]), fun _ => by rw [hs]; exact ⟨rfl, rfl⟩⟩

/-- The streams, the cap's bits, and what closes at MEDIUM 5 change alone. -/
theorem of_worn (hp : t.params = s.params) (hs : judgedPart t.store = judgedPart s.store) (hm : s.store.medium = 3)
    (hm' : t.store.medium = 5) : Judged s t :=
  ⟨hs, fun id _ _ => pw_congr hp id, .inr ⟨hm, hm'⟩, fun h => by omega⟩

end Judged

theorem raise_params (w n : Nat) (s : State) : (raise w n s).params = s.params :=
  (raise_ev (by decide) (.refl s)).kept .params

theorem raise_store (w n : Nat) (s : State) : (raise w n s).store = s.store := (raise_ev (by decide) (.refl s)).kept .store

theorem judged_raise (w n : Nat) (s : State) : Judged s (raise w n s) := .of_same (raise_params w n s) (raise_store w n s)

theorem putHealth_store (s : State) : (putHealth s).store = s.store := by
  unfold putHealth
  dsimp only
  split
  · exact raise_store 0 12 _
  · rfl

theorem pw_putHealth {id : Nat} (h7 : id ≠ 0x410007) (h8 : id ≠ 0x410008) (s : State) : pw (putHealth s) id = pw s id := by
  have hset : pw (setPw 0x410007 (spareBlocks s) (setPw 0x410008 (healthOf s) s)) id = pw s id := by
    rw [pw_setPw_ne h7, pw_setPw_ne h8]
  unfold putHealth
  dsimp only
  split
  · rw [pw_congr (raise_params 0 12 _), hset]
  · exact hset

theorem judged_putHealth (s : State) : Judged s (putHealth s) :=
  ⟨by rw [putHealth_store], fun _ h7 h8 => pw_putHealth h7 h8 s, .inl (by rw [putHealth_store]),
    fun _ => by rw [putHealth_store]; exact ⟨rfl, rfl⟩⟩

/-- Closing a segment short changes the streams, the segments and the pages. -/
theorem closeShort_store (g : Segment) (s : State) : judgedPart (closeShort g s).store = judgedPart s.store
    ∧ (closeShort g s).store.medium = s.store.medium ∧ (closeShort g s).params = s.params := ⟨rfl, rfl, rfl⟩

theorem wornOut_store (s : State) : judgedPart (wornOut s).store = judgedPart s.store ∧ (wornOut s).store.medium = 5
    ∧ (wornOut s).params = s.params := by
  unfold wornOut
  dsimp only
  generalize hl : s.store.segs.filter _ = l
  clear hl
  have hall : ∀ (l : List Segment) (v : State), judgedPart (forEach l closeShort v).store = judgedPart v.store
      ∧ (forEach l closeShort v).store.medium = v.store.medium ∧ (forEach l closeShort v).params = v.params := by
    intro l
    induction l with
    | nil => exact fun v => ⟨rfl, rfl, rfl⟩
    | cons g l ih =>
      intro v
      obtain ⟨h1, h2, h3⟩ := ih (closeShort g v)
      obtain ⟨k1, k2, k3⟩ := closeShort_store g v
      exact ⟨h1.trans k1, h2.trans k2, h3.trans k3⟩
  exact hall l _

theorem judged_judgeHealth (s : State) : Judged s (judgeHealth s) := by
  unfold judgeHealth
  split
  · exact .refl s
  · dsimp only
    split
    · next h =>
      obtain ⟨h1, h2, h3⟩ := wornOut_store (putHealth s)
      exact (judged_putHealth s).trans (.of_worn h3 h1 (by rw [putHealth_store]; exact h.2) h2)
    · exact judged_putHealth s

/-- The store as the cap has it. -/
def capped (s : State) : Store := { s.store with
  capReached := decide (s.store.medium = 3) && !mayProtect s, beyond := s.store.beyond && overCap s,
  streams := s.store.streams.map fun e => (e.1, capState s.store.beyond (overCap s) e.2) }

theorem capReview_store (s : State) : (capReview s).store = capped s := by
  unfold capReview
  dsimp only
  split
  · exact raise_store 0 12 _
  · rfl

theorem capReview_params (s : State) : (capReview s).params = s.params := (capReview_ev (by decide) (.refl s)).kept .params

theorem capReview_segs (s : State) : (capReview s).store.segs = s.store.segs := by rw [capReview_store, capped]

theorem judged_capReview (s : State) : Judged s (capReview s) :=
  ⟨by rw [capReview_store]; rfl, fun id _ _ => pw_congr (capReview_params s) id, .inl (by rw [capReview_store]; rfl),
    fun _ => by rw [capReview_store]; exact ⟨rfl, rfl⟩⟩

/-! ### Retiring and erasing blocks (R371, R380, R381) -/

/-- A block at its new STATE, before a spare takes its place. -/
def retiring (b st : Nat) (s : State) : State :=
  modJournal (fun j => { j with bad := j.bad.filter (· != b) })
    (modBlock b (fun x => { x with state := st, pending := false }) s)

/-- One spare block becomes free. -/
def spareTaken (s : State) : State :=
  match (List.range s.store.blocks.length).find? fun i => (block s i).state == 3 with
  | some i => modBlock i (fun x => { x with state := 0 }) s
  | none => s

theorem retire_eq (b st : Nat) (s : State) : retire b st s = capReview (judgeHealth (spareTaken (retiring b st s))) := rfl

theorem judged_retire (b st : Nat) (s : State) : Judged (spareTaken (retiring b st s)) (retire b st s) :=
  (judged_judgeHealth _).trans (judged_capReview _)

/-- The erase of a block is issued. -/
def eraseIssued (b : Nat) (s : State) : State :=
  nandIssue [.blockErase b] (modStore (fun x => { x with erasing := x.erasing ++ [b] })
    (modBlock b (fun x => { x with
      eraseCount := min 16777215 (x.eraseCount + 1), prot := false, pending := false, maxCorr := 0, age := 0 }) s))

theorem eraseIssue_cases (b : Nat) (s : State) : eraseIssue b s = retire b 5 s ∨ eraseIssue b s = retire b 6 s
    ∨ eraseIssue b s = judgeHealth (eraseIssued b s) := by
  rw [show eraseIssue b s = if goesBad s b then retire b 5 s else if (block s b).eraseCount ≥ pn s 0x410005
    then retire b 6 s else judgeHealth (eraseIssued b s) from rfl]
  split
  · exact .inl rfl
  · split
    · exact .inr (.inl rfl)
    · exact .inr (.inr rfl)

/-! ### What the build of a page leaves (R334, R343) -/

/-- The store but for what the build of pages changes. -/
def builtPart (x : Store) : Store :=
  { x with medium := 0, streams := [], segs := [], pages := [], capReached := false, beyond := false, blocks := [],
           erasing := [], journal := none, nand := [], recent := [] }

/-- What the build of pages leaves: the rest of the store, the parameters but for HEALTH and SPARE_BLOCKS, and MEDIUM but
for the step from 3 to 5. -/
structure Built (s t : State) : Prop where
  store : builtPart t.store = builtPart s.store
  pw : ∀ id, id ≠ 0x410007 → id ≠ 0x410008 → pw t id = pw s id
  medium : t.store.medium = s.store.medium ∨ (s.store.medium = 3 ∧ t.store.medium = 5)

namespace Built

theorem refl (s : State) : Built s s := ⟨rfl, fun _ _ _ => rfl, .inl rfl⟩

theorem trans (h : Built s u) (k : Built u t) : Built s t := by
  refine ⟨k.store.trans h.store, fun id h7 h8 => (k.pw id h7 h8).trans (h.pw id h7 h8), ?_⟩
  rcases h.medium with hm | ⟨hm, hm'⟩
  · rcases k.medium with km | ⟨km, km'⟩
    · exact .inl (km.trans hm)
    · exact .inr ⟨hm ▸ km, km'⟩
  · rcases k.medium with km | ⟨km, -⟩
    · exact .inr ⟨hm, km.trans hm'⟩
    · omega

theorem of_judged (h : Judged s t) : Built s t :=
  ⟨by
    have hb : ∀ x, builtPart x = builtPart (judgedPart x) := fun _ => rfl
    rw [hb t.store, h.store, ← hb], h.pw, h.medium⟩

theorem keeps {β : Type} (h : Built s t) (g : Store → β) (hg : ∀ x, g x = g (builtPart x)) : g t.store = g s.store := by
  rw [hg t.store, h.store, ← hg]

theorem cmd (h : Built s t) : t.store.cmd = s.store.cmd := h.keeps Store.cmd fun _ => rfl

/-- The store and the parameters stand. -/
theorem of_same (hp : t.params = s.params) (hs : t.store = s.store) : Built s t :=
  ⟨by rw [hs], fun id _ _ => pw_congr hp id, .inl (by rw [hs])⟩

/-- A change of the store in what building changes. -/
theorem of_store (hp : t.params = s.params) (hs : builtPart t.store = builtPart s.store)
    (hm : t.store.medium = s.store.medium) : Built s t := ⟨hs, fun id _ _ => pw_congr hp id, .inl hm⟩

theorem ite {c : Prop} [Decidable c] (h : Built s t) (k : Built s u) : Built s (if c then t else u) := by
  split
  · exact h
  · exact k

theorem forEach {α : Type} {f : α → State → State} (h : ∀ x v, Built v (f x v)) (l : List α) (s : State) :
    Built s (forEach l f s) := by
  induction l generalizing s with
  | nil => exact refl s
  | cons x l ih => exact (h x s).trans (ih (f x s))

end Built

/-- A change of the store in what building changes. -/
theorem built_modStore (f : Store → Store) (s : State) (hf : ∀ x, builtPart (f x) = builtPart x)
    (hm : ∀ x, (f x).medium = x.medium) : Built s (modStore f s) := .of_store rfl (hf _) (hm _)

theorem built_modStream (k : Nat) (f : Stream → Stream) (s : State) : Built s (modStream k f s) := .of_store rfl rfl rfl

theorem built_modSeg (k q : Nat) (f : Segment → Segment) (s : State) : Built s (modSeg k q f s) := .of_store rfl rfl rfl

theorem built_modBlock (b : Nat) (f : BlockState → BlockState) (s : State) : Built s (modBlock b f s) := .of_store rfl rfl rfl

theorem built_modJournal (f : Journal → Journal) (s : State) : Built s (modJournal f s) := .of_store rfl rfl rfl

theorem built_raise (w n : Nat) (s : State) : Built s (raise w n s) := .of_judged (judged_raise w n s)

theorem built_closeGap (k : Nat) (s : State) : Built s (closeGap k s) := by
  unfold closeGap
  dsimp only
  split
  · exact .refl s
  · exact built_modStream k _ s

theorem built_release (id : Nat) (s : State) : Built s (release id s) :=
  .of_same ((release_ev (by decide) (.refl s)).kept .params) ((release_ev (by decide) (.refl s)).kept .store)

theorem built_perfAdd (code n : Nat) (s : State) : Built s (perfAdd code n s) :=
  .of_same ((perfAdd_ev (by decide) (.refl s)).kept .params) (store_perfAdd code n)

theorem built_putRowWord (t i r n k w : Nat) (s : State) : Built s (putRowWord t i r n k w s) :=
  .of_same ((putRowWord_ev (by decide) (.refl s)).kept .params) ((putRowWord_ev (by decide) (.refl s)).kept .store)

theorem built_dropRecord (k cause : Nat) (s : State) : Built s (dropRecord k cause s) :=
  (built_putRowWord 0x08 0 k 12 10 _ s).trans (built_modStream k _ _)

theorem built_dropWaiting (k : Nat) (cause : Option Nat) (s : State) : Built s (dropWaiting k cause s) := by
  unfold dropWaiting
  refine (built_modStream k _ s).trans (Built.forEach (fun w v => ?_) _ _)
  cases w with
  | frame id since =>
    cases cause with
    | none => exact built_release id v
    | some c => exact (built_dropRecord k c v).trans (built_release id _)
  | marker => exact .refl v

theorem built_stopStream (k : Nat) (s : State) : Built s (stopStream k s) :=
  (built_modStream k _ s).trans (built_dropWaiting k (some 2) _)

theorem built_spareTaken (s : State) : Built s (spareTaken s) := by
  unfold spareTaken
  split
  · exact built_modBlock _ _ s
  · exact .refl s

theorem built_retire (b st : Nat) (s : State) : Built s (retire b st s) :=
  (built_modBlock b _ s).trans ((built_modJournal _ _).trans
    ((built_spareTaken (retiring b st s)).trans (.of_judged (judged_retire b st s))))

theorem built_eraseIssue (b : Nat) (s : State) : Built s (eraseIssue b s) := by
  obtain h | h | h := eraseIssue_cases b s
  · rw [h]
    exact built_retire b 5 s
  · rw [h]
    exact built_retire b 6 s
  · rw [h]
    exact Built.trans (u := eraseIssued b s) (.of_store rfl rfl rfl) (.of_judged (judged_judgeHealth (eraseIssued b s)))

theorem built_dropSeg (g : Segment) (s : State) : Built s (dropSeg g s) := by
  unfold dropSeg
  refine Built.trans ?_ (built_eraseIssue g.block _)
  exact built_modStore _ s (fun _ => rfl) fun _ => rfl

theorem built_queueMarker (k trig outcome row start stop : Nat) (s : State) :
    Built s (queueMarker k trig outcome row start stop s) := (built_closeGap k s).trans (built_modStream k _ _)

theorem built_curtail (k : Nat) (s : State) : Built s (curtail k s) := by
  unfold curtail
  split
  · exact .refl s
  · dsimp only
    refine Built.trans ?_ (built_raise 0 12 _)
    refine Built.trans ?_ (built_queueMarker k _ 2 _ _ _ _)
    refine Built.trans ?_ (built_modStream k _ _)
    exact built_modStore _ s (fun _ => rfl) fun _ => rfl

theorem built_protectSeg (k q : Nat) (s : State) : Built s (protectSeg k q s).1 := by
  unfold protectSeg
  split
  · exact .refl s
  · split
    · exact built_modSeg k q _ s
    · split
      · exact .refl s
      · dsimp only
        refine Built.trans ?_ (.of_judged (judged_capReview _))
        refine Built.trans (u := modSeg k q _ s) ?_ (built_modStore _ _ (fun _ => rfl) fun _ => rfl)
        exact built_modSeg k q _ s

/-- The state with a new segment of stream `k` in block `b`, before its window protects it. -/
def opened (k b : Nat) (s : State) : State :=
  modJournal (fun j => { j with fresh := j.fresh.filter (· != k) })
    (modStream k (fun x => { x with newest := (stream s k).newest + 1, fresh := false })
      (modBlock b (fun y => { y with state := 1, age := 0, maxCorr := 0, pending := false })
        (modStore (fun y => { y with segs := y.segs ++ [{ stream := k, seq := (stream s k).newest + 1, block := b, flags := if (stream s k).fresh then 1 else 0, prevChain := if (stream s k).fresh then List.replicate 32 0 else (stream s k).chain }] }) s)))

/-- A new segment is protected by its stream's window, or ends it. -/
def windowTaken (k q : Nat) (s : State) : State :=
  if (protectSeg k q s).2 then (protectSeg k q s).1 else curtail k (protectSeg k q s).1

theorem openIn_eq (k b : Nat) (s : State) : openIn k b s =
    if (stream s k).window.isSome then windowTaken k ((stream s k).newest + 1) (opened k b s) else opened k b s := by
  unfold openIn windowTaken
  dsimp only
  cases (stream s k).window with
  | none => rfl
  | some w =>
    refine Eq.trans (b := if (protectSeg k ((stream s k).newest + 1) (opened k b s)).2 then _ else _) ?_ rfl
    show (match protectSeg k ((stream s k).newest + 1) (opened k b s) with
      | (s3, true) => s3
      | (s3, false) => curtail k s3) = _
    cases hp : protectSeg k ((stream s k).newest + 1) (opened k b s) with
    | mk v r => cases r <;> rfl

theorem built_opened (k b : Nat) (s : State) : Built s (opened k b s) := by
  unfold opened
  refine Built.trans ?_ (built_modJournal _ _)
  refine Built.trans ?_ (built_modStream k _ _)
  refine Built.trans ?_ (built_modBlock b _ _)
  exact built_modStore _ s (fun _ => rfl) fun _ => rfl

theorem built_openIn (k b : Nat) (s : State) : Built s (openIn k b s) := by
  have hp := (built_opened k b s).trans (built_protectSeg k ((stream s k).newest + 1) (opened k b s))
  rw [openIn_eq]
  exact .ite (.ite hp (hp.trans (built_curtail k _))) (built_opened k b s)

/-! ### Building records, closing segments, programming pages (R339 to R343, R349) -/

theorem built_needSeg (k : Nat) (s : State) : Built s (needSeg k s).1 := by
  unfold needSeg
  dsimp only
  split
  · exact (built_stopStream k s).trans (built_raise 0 12 _)
  · split
    · cases leastWorn s with
      | none => exact .refl s
      | some b => exact built_openIn k b s
    · split
      · exact .refl s
      · split
        · exact built_stopStream k s
        · cases reusable s k with
          | none =>
            dsimp only
            split
            · exact .refl s
            · exact built_stopStream k s
          | some g =>
            dsimp only
            cases leastWorn (dropSeg g s) with
            | none => exact built_dropSeg g s
            | some b =>
              dsimp only
              split
              · exact (built_dropSeg g s).trans (built_openIn k b _)
              · exact built_dropSeg g s

theorem built_closeSeg (k : Nat) (s : State) : Built s (closeSeg k s) := by
  unfold closeSeg
  split
  · exact .refl s
  · dsimp only
    refine Built.trans ?_ (built_modStream k _ _)
    refine Built.trans (u := modSeg k _ _ s) ?_ (built_modStore _ _ (fun _ => rfl) fun _ => rfl)
    exact built_modSeg k _ _ s

theorem built_buildItem (k : Nat) (s : State) : Built s (buildItem k .none s).1 := by
  have hgap : Built s (if (stream s k).wait.any WaitItem.isFrame then s
      else if (stream s k).wait = [] then s else closeGap k s) := .ite (.refl s) (.ite (.refl s) (built_closeGap k s))
  unfold buildItem
  dsimp only
  generalize (if (stream s k).wait.any WaitItem.isFrame then s
      else if (stream s k).wait = [] then s else closeGap k s) = v at hgap ⊢
  split
  · exact hgap
  · split
    · exact hgap
    · split
      · contradiction
      · contradiction
      · split
        · exact hgap.trans (built_needSeg k v)
        · split
          · exact hgap.trans (built_closeSeg k v)
          · split <;> dsimp only
            · refine Built.trans ?_ (built_perfAdd _ _ _)
              refine Built.trans ?_ (built_release _ _)
              refine Built.trans (u := modStream k _ _) ?_ (built_modStore _ _ (fun _ => rfl) fun _ => rfl)
              refine Built.trans ?_ (built_modStream k _ _)
              refine Built.trans (u := modSeg k _ _ v) ?_ (built_modStore _ _ (fun _ => rfl) fun _ => rfl)
              exact hgap.trans (built_modSeg k _ _ v)
            · refine Built.trans ?_ (built_perfAdd _ _ _)
              refine Built.trans ?_ (built_modStream k _ _)
              refine Built.trans (u := modSeg k _ _ v) ?_ (built_modStore _ _ (fun _ => rfl) fun _ => rfl)
              exact hgap.trans (built_modSeg k _ _ v)

theorem built_buildLoop (k : Nat) (all : Bool) (fuel : Nat) (s : State) : Built s (buildLoop k all .none fuel s) := by
  induction fuel generalizing s with
  | zero => exact .refl s
  | succ fuel ih =>
    have hitem := built_buildItem k s
    unfold buildLoop
    cases hi : buildItem k .none s with
    | mk v more =>
      rw [hi] at hitem
      cases more with
      | false => exact hitem
      | true => exact .ite hitem (hitem.trans (ih v))

theorem built_settleStream (k : Nat) (s : State) : Built s (settleStream k s) := by
  refine Built.trans ?_ (built_closeSeg k _)
  exact .ite (built_buildLoop k true _ s) (.ite (built_dropWaiting k (some 2) s) (.refl s))

theorem built_pageDone (p : Page) (s : State) : Built s (pageDone p s) := by
  unfold pageDone
  dsimp only
  refine Built.trans ?_ (built_modSeg _ _ _ _)
  refine Built.trans ?_ (built_perfAdd _ _ _)
  exact built_modStore _ s (fun _ => rfl) fun _ => rfl

theorem built_dogRestart (k : Nat) (s : State) : Built s (dogRestart k s) := built_modStream k _ s

theorem built_flushPages (want : Nat → Bool) (s : State) : Built s (flushPages want s) :=
  .forEach (fun p v => (built_pageDone p v).trans (built_dogRestart p.stream _)) _ s

end Sys2Proof.Machine
end

section
/-! PROOFS. The commands of M_STORE_CMD as they start (chapter 11): O42. -/

namespace Sys2Proof.Machine

variable {s : State} {q : CbPar} {op k key v e : Nat} {d : Discovery}

/-- A sparse family with every value changed. -/
theorem tget_map_value {α : Type} (t : Tab α) (f : α → α) (k : Nat) (d : α) (hd : f d = d) :
    tget (t.map fun e => (e.1, f e.2)) k d = f (tget t k d) := by
  induction t with
  | nil => exact hd.symm
  | cons e t ih =>
    simp only [List.map_cons, tget]
    split
    · rfl
    · exact ih

/-- A write of M_STORE_CMD is `storeCommand` on the acknowledged state. -/
theorem live_storeWrite (hv : v < 2 ^ 24) (h : PerformsM s q 0x4C v) : live (mgmtWrite { disc := d } q 0x4C v) s =
    .next (storeCommand (bits v 0 4) (bits v 4 6) (bits v 16 8) d (acknowledge none s)) := by
  refine (live_mgmtWrite (by decide) h).trans (congrArg _ ?_)
  rw [regWrite_storeCmd (s := acknowledge none s) h.2.2, toNat_word hv]

/-- Without a discovery, the write of a command for stream k. -/
theorem live_streamWrite {k : Fin 64} (hop : op < 16) (h : PerformsM s q 0x4C (op + 16 * k)) :
    live (mgmtWrite {} q 0x4C (op + 16 * k)) s = .next (storeCommand op k 0 .absent (acknowledge none s)) := by
  have hk := k.isLt
  refine (live_storeWrite (d := .absent) (by omega) h).trans ?_
  have h0 : bits (op + 16 * k) 0 4 = op := by rw [bits]; omega
  have h4 : bits (op + 16 * k) 4 6 = k := by rw [bits]; omega
  have h16 : bits (op + 16 * k) 16 8 = 0 := by rw [bits]; omega
  rw [h0, h4, h16]

/-! ### What M_STORE_CMD does with a command (R356) -/

theorem storeCommand_overrun (h1 : op ≠ 0) (h7 : op ≤ 7) (hc : s.store.cmd.isSome = true) :
    storeCommand op k key d s = modStore (fun x => { x with overrun := true }) s :=
  (if_neg (by omega)).trans (if_pos hc)

/-- A command whose condition fails ends at once. -/
theorem storeCommand_fails (h1 : op ≠ 0) (h7 : op ≤ 7) (hc : s.store.cmd = none) (he : storeCond s op key = e)
    (h0 : e ≠ 0) : storeCommand op k key d s = storeDone e s := by
  refine ((if_neg (by omega)).trans (if_neg (by simp [hc]))).trans ?_
  dsimp only
  rw [he]
  exact if_pos h0

theorem storeCommand_lock (hc : s.store.cmd = none) (he : storeCond s 3 key = 0) : storeCommand 3 k key d s =
    storeDone (if (lockTrigger k 3 0 (nowNs s) s).2 = 1 then 4 else 0) (lockTrigger k 3 0 (nowNs s) s).1 := by
  refine ((if_neg (by omega)).trans (if_neg (by simp [hc]))).trans ?_
  exact (if_neg (by simp [he])).trans (if_pos rfl)

/-- A command whose condition holds begins. -/
theorem storeCommand_begins (h1 : op ≠ 0) (h7 : op ≤ 7) (h3 : op ≠ 3) (hc : s.store.cmd = none)
    (he : storeCond s op key = 0) : storeCommand op k key d s =
      storeBegin op k d (modStore (fun x => { x with cmd := some (op, k, d) }) s) := by
  refine ((if_neg (by omega)).trans (if_neg (by simp [hc]))).trans ?_
  exact (if_neg (by simp [he])).trans (if_neg h3)

/-! ### The parts of a format as it begins (R366, R372) -/

theorem storeDone_store (e : Nat) (s : State) : (storeDone e s).store =
    { s.store with cmd := none, done := true, err := e, error := s.store.error || decide (e ≠ 0) } := raise_store 0 12 _

theorem storeGone_store (m : Nat) (s : State) : (storeGone m s).store = { s.store with medium := m, mountDue := false } := by
  unfold storeGone
  dsimp only
  split <;> rfl

theorem mountFail_store (e : Nat) (c : Bool) (s : State) : (mountFail e c s).store =
    { (clearMedium s).store with medium := 6, mountDue := false, err := e, error := s.store.error || c } := by
  refine (raise_store 0 12 _).trans ?_
  rw [modStore, storeGone_store]
  rfl

theorem formatBegin_none (hd : acceptCart d = none) :
    formatBegin d s = storeDone 8 (mountFail 8 true (nandIssue (probeCmds (targetsOf d)) s)) := by
  unfold formatBegin
  dsimp only
  rw [hd]

/-- Every stream is offline. -/
def allOffline (x : Store) : Store := { x with streams := x.streams.map fun e => (e.1, { e.2 with state := 0 }) }

theorem formatBegin_some {c : Cartridge} {g : Geometry} (hd : acceptCart d = some (c, g)) :
    formatBegin d s = modStore allOffline (discover c g true (nandIssue (probeCmds (targetsOf d)) s)) := by
  unfold formatBegin
  dsimp only
  rw [hd]
  rfl

theorem discover_store (c : Cartridge) (g : Geometry) (f : Bool) (s : State) : ∃ cs, (discover c g f s).store =
    { s.store with nand := s.store.nand ++ cs, geometry := some g, uniqueId := uniqueIdOf c } := ⟨_, rfl⟩

theorem discover_pageSize (c : Cartridge) (g : Geometry) (f : Bool) (s : State) :
    pw (discover c g f s) 0x410002 = word g.pageSize := by
  unfold discover
  dsimp only
  generalize (if fenced s 18 then [] else _) = ways
  show pw (setPw 0x410009 _ _) _ = _
  rw [pw_setPw_ne (by decide) _ _]
  show pw (setPw 0x410000 _ (setPw 0x410004 _ (setPw 0x410003 _ (setPw 0x410002 _ _)))) _ = _
  rw [pw_setPw_ne (by decide) _ _, pw_setPw_ne (by decide) _ _, pw_setPw_ne (by decide) _ _, pw_setPw_same]

/-- A page size of an accepted geometry. -/
theorem acceptCart_pageSize {c : Cartridge} {g : Geometry} (hd : acceptCart d = some (c, g)) : g.pageSize < 2 ^ 24 := by
  cases d with
  | absent => cases hd
  | found x =>
    have hok : geometryOk g = true := by
      unfold acceptCart at hd
      split at hd
      · contradiction
      · split at hd
        · split at hd
          · next h =>
            injection hd with hd
            injection hd with _ hg
            exact hg ▸ h
          · contradiction
        · contradiction
    simp only [geometryOk, Bool.and_eq_true, Bool.or_eq_true, beq_iff_eq] at hok
    omega

/-! ### A stream goes online or offline (R351, R356) -/

theorem stream_modStream (k : Nat) (f : Stream → Stream) (s : State) : stream (modStream k f s) k = f (stream s k) :=
  tget_tmod_same _ _ _ _

theorem stream_capReview (k : Nat) (s : State) :
    stream (capReview s) k = capState s.store.beyond (overCap s) (stream s k) := by
  rw [stream, capReview_store]
  exact tget_map_value _ _ _ _ (by simp [capState])

theorem overCap_modStream (k : Nat) (f : Stream → Stream) (s : State) : overCap (modStream k f s) = overCap s := rfl

theorem capState_offline {x : Stream} {b o : Bool} (h : x.state = 0) : (capState b o x).state = 0 := by
  simp [capState, h]

/-- Within the cap's terms no lock was granted beyond, a running stream goes on. -/
theorem capState_within {x : Stream} {o : Bool} (h : x.state ≠ 3) : capState false o x = x := by
  simp [capState, h]

theorem capState_stops {x : Stream} (h : x.state = 1) (hw : x.window = none) : (capState true true x).state = 3 := by
  simp [capState, h, hw]

/-! ### O42 -/

theorem execStoreFormat_performed (h : PerformsM s q 0x4C 0x5C0001) :
    exec (.storeFormat q d) s = .next (storeCommand 1 0 0x5C d (acknowledge none s)) := live_storeWrite (by decide) h

theorem execStoreAdopt_performed (h : PerformsM s q 0x4C 0x5C0002) :
    exec (.storeAdopt q d) s = .next (storeCommand 2 0 0x5C d (acknowledge none s)) := live_storeWrite (by decide) h

theorem execStoreSuspend_performed (h : PerformsM s q 0x4C 6) :
    exec (.storeSuspend q) s = .next (storeCommand 6 0 0 .absent (acknowledge none s)) :=
  live_storeWrite (d := .absent) (by decide) h

theorem execStoreResume_performed (h : PerformsM s q 0x4C 7) :
    exec (.storeResume q d) s = .next (storeCommand 7 0 0 d (acknowledge none s)) := live_storeWrite (by decide) h

/-- A format that cannot take the cartridge ends with MEDIUM 6 and ERR 8. -/
theorem formatBegin_none_ends (hd : acceptCart d = none) (s : State) : (formatBegin d s).store.medium = 6
    ∧ (formatBegin d s).store.err = 8 ∧ (formatBegin d s).store.error = true ∧ (formatBegin d s).store.done = true
    ∧ (formatBegin d s).store.cmd = none := by
  rw [formatBegin_none hd, storeDone_store, mountFail_store]
  exact ⟨rfl, rfl, Bool.or_true _, rfl, rfl⟩

/-- A format that takes the cartridge has its geometry, and every stream offline. -/
theorem formatBegin_some_begins {c : Cartridge} {g : Geometry} (hd : acceptCart d = some (c, g)) (s : State) :
    (formatBegin d s).store.cmd = s.store.cmd ∧ (formatBegin d s).store.geometry = some g
      ∧ (∀ k, (stream (formatBegin d s) k).state = 0) ∧ pn (formatBegin d s) 0x410002 = g.pageSize := by
  rw [formatBegin_some hd]
  generalize hv : nandIssue (probeCmds (targetsOf d)) s = v
  have hcmd : v.store.cmd = s.store.cmd := hv ▸ rfl
  obtain ⟨cs, hst⟩ := discover_store c g true v
  refine ⟨?_, ?_, fun k => ?_, ?_⟩
  · show (discover c g true v).store.cmd = _
    rw [hst]
    exact hcmd
  · show (discover c g true v).store.geometry = _
    rw [hst]
  · exact congrArg Stream.state (tget_map_value _ (fun x : Stream => { x with state := 0 }) k {} rfl)
  · show (pw (discover c g true v) 0x410002).toNat = _
    rw [discover_pageSize, toNat_word (acceptCart_pageSize hd)]

/-- Every stream's waiting records are built and its open segment closes. -/
theorem built_settleAll (l : Tab Stream) (s : State) : Built s (forEach l (fun (i, _) s => settleStream i s) s) :=
  .forEach (fun e v => built_settleStream e.1 v) l s

/-- A stream that changes, by the cap's terms. -/
theorem stream_capReview_modStream (k : Nat) (s : State) (x : Stream → Stream) :
    stream (capReview (modStream k x s)) k = capState s.store.beyond (overCap s) (x (stream s k)) := by
  rw [stream_capReview, overCap_modStream, stream_modStream]
  rfl

/-- Settles O42: each command's OP is the low nibble it writes; its condition either fails, and `storeCommand` is
`storeDone`, or holds, and it is `storeBegin`. -/
theorem storeCommandsStartUnderTheirConditions : Obligations.StoreCommandsStartUnderTheirConditions := by
  intro s w q hw hf
  subst hw
  have hcond : ∀ op key e, (fenced s 17 = false → storeCond s op key = e) → storeCond (acknowledge none s) op key = e :=
    fun op key e h => h hf
  refine ⟨fun d h hc => ⟨fun h0 h3 => ?_, fun hm => ?_⟩, fun d h hc => ⟨fun hm => ?_, fun hm => ?_⟩,
    fun k h hc => ⟨fun hm => ?_, fun hm => ?_⟩, fun k h hc hm => ⟨fun hk => ?_, fun hk => ?_⟩, fun k h hc hm => ?_,
    fun h hc => ⟨fun hm => ?_, fun hm => ?_⟩, fun d h hc => ⟨fun hm => ?_, fun hm => ?_⟩, fun h hc => ?_⟩
  · have hexec := (execStoreFormat_performed (d := d) h).trans (congrArg _
      (storeCommand_begins (by decide) (by decide) (by decide) hc
        (hcond 1 0x5C 0 fun hf => by simp [storeCond, hf, h0, h3])))
    exact ⟨fun hd => ⟨_, hexec, formatBegin_none_ends hd _⟩, fun c g hd => ⟨_, hexec, formatBegin_some_begins hd _⟩⟩
  · exact (execStoreFormat_performed (d := d) h).trans (congrArg _ (storeCommand_fails (by decide) (by decide) hc
      (hcond 1 0x5C 2 fun hf => by simp [storeCond, hf, hm]) (by decide)))
  · exact (execStoreAdopt_performed (d := d) h).trans (congrArg _ (storeCommand_begins (by decide) (by decide) (by decide)
      hc (hcond 2 0x5C 0 fun hf => by simp [storeCond, hf, hm])))
  · exact (execStoreAdopt_performed (d := d) h).trans (congrArg _ (storeCommand_fails (by decide) (by decide) hc
      (hcond 2 0x5C 2 fun hf => by simp [storeCond, hf, hm]) (by decide)))
  · exact (live_streamWrite (by decide) h).trans (congrArg _ (storeCommand_lock hc
      (hcond 3 0 0 fun hf => by simp [storeCond, hf, hm])))
  · exact (live_streamWrite (by decide) h).trans (congrArg _ (storeCommand_fails (by decide) (by decide) hc
      (hcond 3 0 2 fun hf => by simp [storeCond, hf, hm]) (by decide)))
  · have hexec := (live_streamWrite (by decide) h).trans (congrArg _
      (storeCommand_begins (by decide) (by decide) (by decide) hc
        (hcond 4 0 0 fun hf => by simp [storeCond, hf, hm, hk])))
    refine ⟨_, hexec, fun hb h3 => ?_, fun hb ho h0 hwin => ?_, (judged_capReview _).cmd⟩
    · refine (congrArg Stream.state (stream_capReview_modStream k _ _)).trans ?_
      show (capState s.store.beyond _ { stream s k with state := if (stream s k).state = 0 then 1 else (stream s k).state }).state = _
      rw [hb, capState_within]
      dsimp only
      split <;> omega
    · refine (congrArg Stream.state (stream_capReview_modStream k _ _)).trans ?_
      show (capState s.store.beyond (overCap s) { stream s k with state := if (stream s k).state = 0 then 1 else (stream s k).state }).state = _
      rw [hb, ho]
      exact capState_stops (if_pos h0) hwin
  · exact (live_streamWrite (by decide) h).trans (congrArg _ (storeCommand_fails (by decide) (by decide) hc
      (hcond 4 0 3 fun hf => by simp [storeCond, hf, hm, hk]) (by decide)))
  · have hcond5 : storeCond s 5 0 = 0 := by
      rcases hm with hm | hm <;> simp [storeCond, hf, hm]
    refine ⟨_, (live_streamWrite (by decide) h).trans (congrArg _
      (storeCommand_begins (by decide) (by decide) (by decide) hc hcond5)), ?_, ?_⟩
    · refine (congrArg Stream.state (stream_capReview k _)).trans (capState_offline ?_)
      exact congrArg Stream.state (stream_modStream k _ _)
    · refine (judged_capReview _).cmd.trans ?_
      exact Built.cmd (.ite (built_settleStream k _) (.refl _))
  · exact ⟨_, (execStoreSuspend_performed h).trans (congrArg _
      (storeCommand_begins (by decide) (by decide) (by decide) hc (hcond 6 0 0 fun hf => by simp [storeCond, hf, hm]))),
      (built_settleAll _ _).cmd⟩
  · exact (execStoreSuspend_performed h).trans (congrArg _ (storeCommand_fails (by decide) (by decide) hc
      (hcond 6 0 2 fun hf => by simp [storeCond, hf, hm]) (by decide)))
  · exact (execStoreResume_performed (d := d) h).trans (congrArg _ (storeCommand_begins (by decide) (by decide) (by decide)
      hc (hcond 7 0 0 fun hf => by simp [storeCond, hf, hm])))
  · exact (execStoreResume_performed (d := d) h).trans (congrArg _ (storeCommand_fails (by decide) (by decide) hc
      (hcond 7 0 2 fun hf => by simp [storeCond, hf, hm]) (by decide)))
  · exact (execStoreSuspend_performed h).trans (congrArg _ (storeCommand_overrun (by decide) (by decide) hc))

end Sys2Proof.Machine
end

section
/-! PROOFS. Mounts, formats and the ends of store commands (chapters 11 and 12): O43. -/

namespace Sys2Proof.Machine

variable {s t u : State} {d : Discovery} {c : Cartridge} {g : Geometry} {l : Label} {o : StoreOutcome} {k : Nat}

/-! ### Changes of the streams alone -/

/-- Of the parameters and the store only the streams changed. -/
structure StreamsAlone (s t : State) : Prop where
  params : t.params = s.params
  store : t.store = { s.store with streams := t.store.streams }

namespace StreamsAlone

theorem refl (s : State) : StreamsAlone s s := ⟨rfl, rfl⟩

theorem trans (h : StreamsAlone s u) (k : StreamsAlone u t) : StreamsAlone s t :=
  ⟨k.params.trans h.params, by rw [k.store, h.store]⟩

theorem forEach {α : Type} {f : α → State → State} (h : ∀ x v, StreamsAlone v (f x v)) (l : List α) (s : State) :
    StreamsAlone s (forEach l f s) := by
  induction l generalizing s with
  | nil => exact refl s
  | cons x l ih => exact (h x s).trans (ih (f x s))

theorem forAll {f : Nat → State → State} (h : ∀ x v, StreamsAlone v (f x v)) (n : Nat) (s : State) :
    StreamsAlone s (forAll n f s) := forEach h _ s

end StreamsAlone

theorem streamsAlone_modStream (k : Nat) (f : Stream → Stream) (s : State) : StreamsAlone s (modStream k f s) := ⟨rfl, rfl⟩

/-- The segments a mount finds. -/
def foundSegs (fs : List FoundSegment) (s : State) : List Segment :=
  fs.map fun f => if f.closed then loadSeg s f else recoverSeg s f

theorem foundSegs_length (fs : List FoundSegment) (s : State) : (foundSegs fs s).length = fs.length := List.length_map _

/-- The segments a mount finds are loaded; no page waits. -/
theorem loadSegments_loads (fs : List FoundSegment) (fresh : List Nat) (s : State) : (loadSegments fs fresh s).store =
    { s.store with segs := foundSegs fs s, pages := [], streams := (loadSegments fs fresh s).store.streams } := by
  have h : StreamsAlone (modStore (fun x => { x with segs := foundSegs fs s, pages := [] }) s) (loadSegments fs fresh s) := by
    refine .forAll (fun k v => ?_) 64 _
    split
    · exact .refl v
    · exact streamsAlone_modStream k _ v
  exact h.store

theorem loadSegments_params (fs : List FoundSegment) (fresh : List Nat) (s : State) :
    (loadSegments fs fresh s).params = s.params := (loadSegments_ev (by decide) (.refl s)).kept .params

/-- Streams that return leave MEDIUM and ERR. -/
theorem streamsReturn_leaves (former : Tab Stream) (s : State) :
    (streamsReturn former s).store.medium = s.store.medium ∧ (streamsReturn former s).store.err = s.store.err := by
  unfold streamsReturn
  split
  · have h : StreamsAlone s (forEach former (fun (k, x) s => modStream k (fun y => { y with state := x.state, window := x.window }) s) s) :=
      .forEach (fun e v => streamsAlone_modStream e.1 _ v) former s
    rw [capReview_store, capped, h.store]
    exact ⟨rfl, rfl⟩
  · exact ⟨rfl, rfl⟩

/-- The cap's review leaves the rest of the store. -/
theorem capReview_keeps {β : Type} (f : Store → β)
    (hf : ∀ x st r b, f { x with streams := st, capReached := r, beyond := b } = f x) (s : State) :
    f (capReview s).store = f s.store := by
  rw [capReview_store]
  exact hf _ _ _ _

/-! ### HEALTH and the journal a mount goes by (R371, R390) -/

theorem healthOf_congr (hb : t.store.blocks = s.store.blocks) (hl : t.store.label = s.store.label)
    (hp : pn t 0x410005 = pn s 0x410005) : healthOf t = healthOf s := by rw [healthOf, healthOf, hb, hl, hp]

theorem loadJournal_label (g : Geometry) (c : Cartridge) (l : Label) (s : State) : (loadJournal g c l s).label = l := by
  unfold loadJournal
  dsimp only
  split
  · split
    · next h => exact h.1
    · rfl
  · rfl

/-! ### A mount that completes (R366) -/

/-- The block table, the journal and the image area of the cartridge are taken. -/
def tableTaken (g : Geometry) (j : Journal) (c : Cartridge) (s : State) : State :=
  powerFrom j.powered (modStore (fun x => { x with
    label := some j.label, journal := some { j with blocks := freeEmpty c.segments j.blocks }, blocks := unmapBeyond (mappedBlocks s g) (freeEmpty c.segments j.blocks), erasing := [],
    uncorr := [], area := cellsWrite 0xFF [] 0 (c.image.take 0x40000), areaNext := none, scanAt := 0 }) s)

/-- The segments are loaded and HEALTH is judged, before MEDIUM shows it. -/
def segmentsTaken (g : Geometry) (j : Journal) (c : Cartridge) (s : State) : State :=
  loadSegments c.segments j.fresh (setPw 0x420002 1 (putHealth (tableTaken g j c s)))

/-- MEDIUM takes its value and the cap is reviewed. -/
def shown (m : Nat) (s : State) : State := capReview (modStore (fun x => { x with medium := m }) s)

theorem completeMount_eq (g : Geometry) (j : Journal) (c : Cartridge) (s : State) : completeMount g j c s =
    shown (if healthOf (tableTaken g j c s) = 10000 then 5 else 3) (segmentsTaken g j c s) := rfl

theorem shown_keeps {β : Type} (f : Store → β)
    (hf : ∀ x m st r b, f { x with medium := m, streams := st, capReached := r, beyond := b } = f x) (m : Nat) (s : State) :
    f (shown m s).store = f s.store :=
  (capReview_keeps f (fun x st r b => hf x x.medium st r b) _).trans
    (hf s.store m s.store.streams s.store.capReached s.store.beyond)

theorem shown_medium (m : Nat) (s : State) : (shown m s).store.medium = m :=
  capReview_keeps Store.medium (fun _ _ _ _ => rfl) _

theorem shown_label (m : Nat) (s : State) : (shown m s).store.label = s.store.label :=
  shown_keeps Store.label (fun _ _ _ _ _ => rfl) m s

theorem shown_blocks (m : Nat) (s : State) : (shown m s).store.blocks = s.store.blocks :=
  shown_keeps Store.blocks (fun _ _ _ _ _ => rfl) m s

theorem shown_segs (m : Nat) (s : State) : (shown m s).store.segs = s.store.segs :=
  shown_keeps Store.segs (fun _ _ _ _ _ => rfl) m s

theorem shown_pages (m : Nat) (s : State) : (shown m s).store.pages = s.store.pages :=
  shown_keeps Store.pages (fun _ _ _ _ _ => rfl) m s

theorem shown_params (m : Nat) (s : State) : (shown m s).params = s.params := capReview_params _

theorem tableTaken_label (g : Geometry) (j : Journal) (c : Cartridge) (s : State) :
    (tableTaken g j c s).store.label = some j.label := by
  unfold tableTaken powerFrom modStore
  rfl

theorem tableTaken_params (g : Geometry) (j : Journal) (c : Cartridge) (s : State) :
    (tableTaken g j c s).params = s.params := by
  unfold tableTaken powerFrom modStore
  rfl

theorem segmentsTaken_store (g : Geometry) (j : Journal) (c : Cartridge) (s : State) : ∃ gs st,
    (segmentsTaken g j c s).store = { (tableTaken g j c s).store with segs := gs, pages := [], streams := st }
      ∧ gs.length = c.segments.length := by
  have h := loadSegments_loads c.segments j.fresh (setPw 0x420002 1 (putHealth (tableTaken g j c s)))
  have hput : (setPw 0x420002 1 (putHealth (tableTaken g j c s))).store = (tableTaken g j c s).store := putHealth_store _
  rw [hput] at h
  exact ⟨_, _, h, foundSegs_length _ _⟩

theorem pw_segmentsTaken {id : Nat} (h7 : id ≠ 0x410007) (h8 : id ≠ 0x410008) (h2 : id ≠ 0x420002) :
    pw (segmentsTaken g j c s) id = pw s id := by
  refine (pw_congr (loadSegments_params _ _ _) id).trans ?_
  rw [pw_setPw_ne h2]
  exact (pw_putHealth h7 h8 _).trans (pw_congr (tableTaken_params _ _ _ _) id)

theorem pw_segmentsTaken_scan : pw (segmentsTaken g j c s) 0x420002 = word 1 :=
  (pw_congr (loadSegments_params _ _ _) _).trans (pw_setPw_same _ _ _)

/-- What a mount that completes shows. -/
theorem completeMount_mounts (g : Geometry) (j : Journal) (c : Cartridge) (s : State) :
    (completeMount g j c s).store.label = some j.label
      ∧ (completeMount g j c s).store.segs.length = c.segments.length ∧ (completeMount g j c s).store.pages = []
      ∧ pw (completeMount g j c s) 0x420002 = word 1
      ∧ (completeMount g j c s).store.medium = if healthOf (completeMount g j c s) = 10000 then 5 else 3 := by
  obtain ⟨gs, st, hst, hl⟩ := segmentsTaken_store g j c s
  rw [completeMount_eq]
  generalize hm : (if healthOf (tableTaken g j c s) = 10000 then 5 else 3) = m
  have hlabel : (shown m (segmentsTaken g j c s)).store.label = (tableTaken g j c s).store.label := by
    rw [shown_label, hst]
  have hhealth : healthOf (shown m (segmentsTaken g j c s)) = healthOf (tableTaken g j c s) := by
    refine healthOf_congr (by rw [shown_blocks, hst]) hlabel (congrArg BitVec.toNat ((pw_congr (shown_params _ _) _).trans ?_))
    exact (pw_segmentsTaken (by decide) (by decide) (by decide)).trans (pw_congr (tableTaken_params _ _ _ _).symm _)
  refine ⟨hlabel.trans (tableTaken_label g j c s), ?_, ?_, (pw_congr (shown_params _ _) _).trans pw_segmentsTaken_scan, ?_⟩
  · rw [shown_segs, hst]
    exact hl
  · rw [shown_pages, hst]
  · rw [shown_medium, hhealth, hm]

/-! ### The stages of a mount (R366) -/

/-- A mount begins: the medium is cleared and the cartridge is probed. -/
def mountBegun (d : Discovery) (s : State) : State :=
  nandIssue (probeCmds (targetsOf d)) (setPw 0x420002 0 (clearMedium (modStore (fun x => { x with
    mountDue := false, pollAt := s.clk }) (if s.store.medium = 4 then recordTime (ageCatchUp s) else s))))

theorem mountApply_absent {b : Bool} (h : targetsOf d = 0) : mountApply d b s = storeGone 0 (mountBegun d s) := if_pos h

theorem mountApply_found {b : Bool} (ht : targetsOf d ≠ 0) : mountApply d b s = match acceptCart d with
    | none => mountFail 8 b (mountBegun d s)
    | some (c, g) => match chooseLabel (uniqueIdOf c) c.labels with
      | none => modStore (fun x => { x with medium := 1 }) (discover c g false (mountBegun d s))
      | some l => if ownLabel l then completeMount g (loadJournal g c l (discover c g false (mountBegun d s))) c (discover c g false (mountBegun d s))
        else modStore (fun x => { x with medium := 2, label := some l }) (discover c g false (mountBegun d s)) := if_neg ht

theorem mountApply_rejected {b : Bool} (ht : targetsOf d ≠ 0) (h : acceptCart d = none) :
    mountApply d b s = mountFail 8 b (mountBegun d s) := by rw [mountApply_found ht, h]

/-! ### Pages that are programmed, and the medium suspended -/

theorem modSeg_pages (k q : Nat) (f : Segment → Segment) (s : State) : (modSeg k q f s).store.pages = s.store.pages := rfl

theorem dogRestart_pages (k : Nat) (s : State) : (dogRestart k s).store.pages = s.store.pages := rfl

theorem pageDone_pages (p : Page) (s : State) : (pageDone p s).store.pages = s.store.pages.filter fun q => q != p := by
  unfold pageDone
  dsimp only
  rw [modSeg_pages, store_perfAdd]
  rfl

theorem forEach_cons {α : Type} (x : α) (l : List α) (f : α → State → State) (s : State) :
    forEach (x :: l) f s = forEach l f (f x s) := rfl

/-- A page left after pages were programmed is none of them. -/
theorem mem_pages_programmed {p : Page} (l : List Page) (s : State)
    (h : p ∈ (forEach l (fun p s => dogRestart p.stream (pageDone p s)) s).store.pages) : p ∈ s.store.pages ∧ p ∉ l := by
  induction l generalizing s with
  | nil => exact ⟨h, List.not_mem_nil⟩
  | cons x l ih =>
    rw [forEach_cons] at h
    obtain ⟨hin, hnot⟩ := ih _ h
    rw [dogRestart_pages, pageDone_pages, List.mem_filter] at hin
    simp only [bne_iff_ne] at hin
    exact ⟨hin.1, by simp [hin.2, hnot]⟩

/-- No page of the streams flushed is left. -/
theorem mem_flushPages {want : Nat → Bool} {p : Page} (h : p ∈ (flushPages want s).store.pages) : want p.stream = false := by
  obtain ⟨hin, hnot⟩ := mem_pages_programmed _ s h
  simp only [List.mem_filter, not_and, Bool.not_eq_true] at hnot
  exact hnot hin

theorem flushPages_all (s : State) : (flushPages (fun _ => true) s).store.pages = [] :=
  List.eq_nil_iff_forall_not_mem.mpr fun _ h => Bool.noConfusion (mem_flushPages h)

theorem suspended_store (s : State) : (suspended s).store = { (recordTime s).store with medium := 4 } := by
  unfold suspended
  dsimp only
  split <;> rfl

theorem suspended_ends (s : State) : (suspended s).store.medium = 4 ∧ (suspended s).store.pages = s.store.pages := by
  rw [suspended_store]
  exact ⟨rfl, rfl⟩

/-! ### The end of a format (R372) -/

/-- What the cartridge of a format says of itself. -/
def formatOld (g : Geometry) (c : Cartridge) (s : State) : Option Journal :=
  (chooseLabel (uniqueIdOf c) c.labels).map fun l => loadJournal g c l s

/-- The medium is cleared and its good blocks are erased. -/
def formatCleared (g : Geometry) (c : Cartridge) (s : State) : State :=
  nandIssue ((goodBlocks (formatErase s g (formatOld g c s) c [])).map .blockErase)
    (modStore (fun x => { x with geometry := some g }) (clearMedium s))

/-- FORMATS of the label a format writes. -/
def nextFormats (l : Option Label) : Nat :=
  match l with
  | some l => (l.formats + 1) % 65536
  | none => 1

/-- The label a format writes. -/
def formatLabel (g : Geometry) (c : Cartridge) (z : Layout) (s : State) : Label :=
  { formats := nextFormats (chooseLabel (uniqueIdOf c) c.labels), cartId := (uniqueIdOf c).getD (List.replicate 16 0), owner := BitVec.ofNat 48 Config.uid, formatSec := formatSec s, blocks := blockCount g, reserve := z.reserve, system := z.system.length }

/-- Powered seconds a journal brings. -/
def oldPowered (j : Option Journal) : Nat :=
  match j with
  | some j => j.powered
  | none => 0

/-- The medium is labelled, and HEALTH judged. -/
def formatLabelled (g : Geometry) (c : Cartridge) (bs : List BlockState) (z : Layout) (s : State) : State :=
  putHealth (powerFrom (oldPowered (formatOld g c s)) (modStore (fun x => { x with
    label := some (formatLabel g c z s), journal := some { label := formatLabel g c z s, blocks := formatTable bs z, powered := oldPowered (formatOld g c s), fresh := List.range 64, bad := [], system := z.system }, blocks := formatTable bs z, area := [], areaNext := none }) (formatCleared g c s)))

theorem formatApply_some (hd : acceptCart d = some (c, g)) : formatApply d o s =
    match formatLayout g (unmapBeyond (mappedBlocks s g) (formatErase s g (formatOld g c s) c o.eraseFails)) o.labelFails with
    | .error e => storeDone e (modStore (fun x => { x with medium := 1 }) (formatCleared g c s))
    | .ok z => storeDone 0 (shown (if healthOf (formatLabelled g c (unmapBeyond (mappedBlocks s g) (formatErase s g (formatOld g c s) c o.eraseFails)) z s) = 10000 then 5 else 3)
        (formatLabelled g c (unmapBeyond (mappedBlocks s g) (formatErase s g (formatOld g c s) c o.eraseFails)) z s)) := by
  unfold formatApply
  rw [hd]
  rfl

theorem formatLabelled_store (g : Geometry) (c : Cartridge) (bs : List BlockState) (z : Layout) (s : State) :
    (formatLabelled g c bs z s).store.label = some (formatLabel g c z s)
      ∧ (formatLabelled g c bs z s).store.blocks = formatTable bs z ∧ (formatLabelled g c bs z s).store.segs = [] := by
  rw [formatLabelled, putHealth_store]
  exact ⟨rfl, rfl, rfl⟩

theorem ownLabel_formatLabel (g : Geometry) (c : Cartridge) (z : Layout) (s : State) :
    ownLabel (formatLabel g c z s) = true := by simp [ownLabel, formatLabel]

theorem three_or_five (p : Prop) [Decidable p] : (if p then 5 else 3) = 3 ∨ (if p then 5 else 3) = 5 := by
  split <;> simp

/-! ### The end of an adopt (R373) -/

/-- The label an adopt writes. -/
def adoptLabel (l : Label) (s : State) : Label :=
  { l with owner := BitVec.ofNat 48 Config.uid, formats := (l.formats + 1) % 65536, formatSec := formatSec s }

/-- The journal an adopt goes on with. -/
def adoptJournal (g : Geometry) (c : Cartridge) (l : Label) (s : State) : Journal :=
  { loadJournal g c l s with label := adoptLabel l s, fresh := List.range 64 }

theorem ownLabel_adoptLabel (l : Label) (s : State) : ownLabel (adoptLabel l s) = true := by simp [ownLabel, adoptLabel]

theorem adoptLabel_keeps (l : Label) (s : State) : (adoptLabel l s).formats = (l.formats + 1) % 65536
    ∧ (adoptLabel l s).reserve = l.reserve ∧ (adoptLabel l s).cartId = l.cartId := by
  unfold adoptLabel
  exact ⟨rfl, rfl, rfl⟩

theorem adoptApply_rejected (hd : acceptCart d = none) : adoptApply d o s = storeDone 10 s := by
  unfold adoptApply
  rw [hd]

theorem adoptApply_unlabelled (hd : acceptCart d = some (c, g)) (hl : chooseLabel (uniqueIdOf c) c.labels = none) :
    adoptApply d o s = storeDone 10 s := by
  unfold adoptApply
  rw [hd]
  dsimp only
  rw [hl]

/-- With every label block good, an adopt is the mount with the new label. -/
theorem adoptApply_good (hd : acceptCart d = some (c, g)) (hl : chooseLabel (uniqueIdOf c) c.labels = some l)
    (ho : o.labelFails = []) : adoptApply d o s = storeDone 0 (completeMount g (adoptJournal g c l s) c s) := by
  unfold adoptApply
  rw [hd]
  dsimp only
  rw [hl]
  dsimp only
  generalize hv : completeMount g _ c s = v
  have hmount : completeMount g (adoptJournal g c l s) c s = v := hv
  rw [hmount, ho, List.filter_eq_nil_iff.mpr (by simp), List.foldl_nil]
  exact if_pos rfl

/-! ### O43 -/

theorem exec_storeCommandEnd (h : s.tap = false) (o : StoreOutcome) :
    exec (.storeCommandEnd o) s = .next (storeCommandEndEffect o s) := live_next s (storeCommandEndEffect o) h

theorem storeCommandEnd_idle (h : s.store.cmd = none) : storeCommandEndEffect o s =
    s := by
  unfold storeCommandEndEffect
  rw [h]

theorem storeCommandEnd_format (h : s.store.cmd = some (1, k, d)) : storeCommandEndEffect o s =
    formatApply d o s := by
  unfold storeCommandEndEffect
  rw [h]
  rfl

theorem storeCommandEnd_adopt (h : s.store.cmd = some (2, k, d)) : storeCommandEndEffect o s =
    adoptApply d o s := by
  unfold storeCommandEndEffect
  rw [h]
  rfl

theorem storeCommandEnd_online (h : s.store.cmd = some (4, k, d)) : storeCommandEndEffect o s =
    storeDone 0 s := by
  unfold storeCommandEndEffect
  rw [h]
  rfl

theorem storeCommandEnd_offline (h : s.store.cmd = some (5, k, d)) : storeCommandEndEffect o s =
    storeDone 0 (flushPages (· == k) s) := by
  unfold storeCommandEndEffect
  rw [h]
  rfl

theorem storeCommandEnd_suspend (h : s.store.cmd = some (6, k, d)) : storeCommandEndEffect o s =
    storeDone 0 (suspended (flushPages (fun _ => true) s)) := by
  unfold storeCommandEndEffect
  rw [h]
  rfl

theorem storeCommandEnd_resume (h : s.store.cmd = some (7, k, d)) : storeCommandEndEffect o s =
    storeDone (if (mountApply d true s).store.medium = 6 then (mountApply d true s).store.err else 0)
      (streamsReturn s.store.streams (mountApply d true s)) := by
  unfold storeCommandEndEffect
  rw [h]
  rfl

/-- Settles O43: the command in progress decides which of `formatApply`, `adoptApply`, `flushPages` and `mountApply` ends
it. -/
theorem storeCommandsEnd : Obligations.StoreCommandsEnd := by
  refine ⟨fun s h hc o => ?_, fun s k d o h => ⟨fun hc => ?_, fun hc => ?_, fun hc => ?_⟩,
    fun s k d o h => ⟨fun hc hd => ?_, fun hc ht => ?_, fun hc ht hd => ?_⟩,
    fun s k d o c g l bs h hc hd hl hbs => ?_, fun s k d o h hc => ⟨fun hd => ?_, fun c g hd => ⟨fun hl => ?_, fun l hl ho => ?_⟩⟩⟩
  · exact (exec_storeCommandEnd h o).trans (congrArg _ (storeCommandEnd_idle hc))
  · exact (exec_storeCommandEnd h o).trans (congrArg _ (storeCommandEnd_online hc))
  · refine ⟨_, (exec_storeCommandEnd h o).trans (congrArg _ (storeCommandEnd_offline hc)), ?_⟩
    rw [storeDone_store]
    refine ⟨rfl, rfl, rfl, fun p hp => ?_⟩
    simpa using mem_flushPages hp
  · refine ⟨_, (exec_storeCommandEnd h o).trans (congrArg _ (storeCommandEnd_suspend hc)), ?_⟩
    rw [storeDone_store]
    obtain ⟨hm, hp⟩ := suspended_ends (flushPages (fun _ => true) s)
    exact ⟨rfl, rfl, rfl, hp.trans (flushPages_all s), hm⟩
  · refine ⟨_, (exec_storeCommandEnd h o).trans (congrArg _ (storeCommandEnd_format hc)), ?_⟩
    unfold formatApply
    rw [hd]
    dsimp only
    rw [storeDone_store, mountFail_store]
    exact ⟨rfl, rfl, Bool.or_true _, rfl, rfl⟩
  · refine ⟨_, (exec_storeCommandEnd h o).trans (congrArg _ (storeCommandEnd_resume hc)), ?_⟩
    rw [storeDone_store]
    dsimp only
    rw [(streamsReturn_leaves _ _).1, mountApply_absent ht, storeGone_store]
    exact ⟨rfl, rfl, rfl⟩
  · refine ⟨_, (exec_storeCommandEnd h o).trans (congrArg _ (storeCommandEnd_resume hc)), ?_⟩
    rw [storeDone_store]
    dsimp only
    rw [(streamsReturn_leaves _ _).1, mountApply_rejected ht hd, mountFail_store]
    exact ⟨rfl, rfl, rfl, Bool.or_true _⟩
  · subst hl hbs
    have hend := ((exec_storeCommandEnd h o).trans (congrArg _ (storeCommandEnd_format hc))).trans
      (congrArg _ (formatApply_some hd))
    refine ⟨fun z hz => ?_, fun e he => ?_⟩
    · rw [formatOld, hz] at hend
      refine ⟨_, formatLabel g c z s, hend, ?_⟩
      obtain ⟨hlab, hbl, hsegs⟩ := formatLabelled_store g c (unmapBeyond (mappedBlocks s g) (formatErase s g (formatOld g c s) c o.eraseFails)) z s
      rw [storeDone_store]
      dsimp only
      rw [shown_segs, shown_blocks, shown_medium, shown_label]
      exact ⟨hsegs, hbl, rfl, rfl, three_or_five _, hlab, ownLabel_formatLabel g c z s, rfl, rfl⟩
    · rw [formatOld, he] at hend
      refine ⟨_, hend, ?_⟩
      rw [storeDone_store]
      exact ⟨rfl, rfl, rfl, rfl⟩
  · exact ((exec_storeCommandEnd h o).trans (congrArg _ (storeCommandEnd_adopt hc))).trans
      (congrArg _ (adoptApply_rejected hd))
  · exact ((exec_storeCommandEnd h o).trans (congrArg _ (storeCommandEnd_adopt hc))).trans
      (congrArg _ (adoptApply_unlabelled hd hl))
  · refine ⟨_, adoptLabel l s, ((exec_storeCommandEnd h o).trans (congrArg _ (storeCommandEnd_adopt hc))).trans
      (congrArg _ (adoptApply_good hd hl ho)), ?_⟩
    obtain ⟨hlab, hsegs, -, -, hm⟩ := completeMount_mounts g (adoptJournal g c l s) c s
    have hready : (completeMount g (adoptJournal g c l s) c s).store.medium = 3
        ∨ (completeMount g (adoptJournal g c l s) c s).store.medium = 5 := by
      rw [hm]
      exact three_or_five _
    obtain ⟨hformats, hreserve, hid⟩ := adoptLabel_keeps l s
    rw [storeDone_store]
    generalize completeMount g (adoptJournal g c l s) c s = t at hlab hsegs hready ⊢
    clear hm
    exact ⟨hlab, ownLabel_adoptLabel l s, hformats, hreserve, hid, hready, hsegs, rfl, rfl⟩

end Sys2Proof.Machine
end

section
/-! PROOFS. Pages read, mounts, polls and the scan (chapter 12): O46. -/

namespace Sys2Proof.Machine

variable {s t u : State} {b i : Nat}

/-! ### The block table -/

theorem setAt_eq_set {α : Type} (l : List α) (i : Nat) (v : α) : setAt l i v = l.set i v := by
  induction l generalizing i with
  | nil => rfl
  | cons x l ih =>
    cases i with
    | zero => rfl
    | succ i => exact congrArg (x :: ·) (ih i)

theorem block_of_blocks (h : t.store.blocks = s.store.blocks) (b : Nat) : block t b = block s b := by
  rw [block, h, block]

theorem block_modBlock_ne {c : Nat} (h : c ≠ b) (f : BlockState → BlockState) (s : State) :
    block (modBlock b f s) c = block s c := by
  show (setAt _ _ _).getD _ _ = _
  rw [setAt_eq_set, List.getD_eq_getElem?_getD, List.getElem?_set_ne h.symm, ← List.getD_eq_getElem?_getD]
  rfl

theorem block_modBlock_same (h : b < s.store.blocks.length) (f : BlockState → BlockState) :
    block (modBlock b f s) b = f (block s b) := by
  show (setAt _ _ _).getD _ _ = _
  rw [setAt_eq_set, List.getD_eq_getElem?_getD, List.getElem?_set_self h]
  rfl

/-- Beyond the table there is nothing to change. -/
theorem block_modBlock_beyond (h : s.store.blocks.length ≤ b) (f : BlockState → BlockState) (c : Nat) :
    block (modBlock b f s) c = block s c := by
  show (setAt _ _ _).getD _ _ = _
  rw [setAt_eq_set, List.set_eq_of_length_le h]
  rfl

/-! ### What reading a page changes (R378, R379, R384) -/

/-- The store but for the commands issued, the block table with its journal, and the blocks noted uncorrectable. -/
def readPart (x : Store) : Store := { x with nand := [], blocks := [], journal := none, uncorr := [] }

/-- Pages were read: of the store only the noted errors changed, and MAX_CORR rose. -/
structure PagesRead (s t : State) : Prop where
  params : t.params = s.params
  store : readPart t.store = readPart s.store
  length : t.store.blocks.length = s.store.blocks.length
  state : ∀ b, (block t b).state = (block s b).state
  maxCorr : ∀ b, (block s b).maxCorr ≤ (block t b).maxCorr
  uncorr : ∀ b ∈ s.store.uncorr, b ∈ t.store.uncorr

namespace PagesRead

theorem refl (s : State) : PagesRead s s := ⟨rfl, rfl, rfl, fun _ => rfl, fun _ => Nat.le_refl _, fun _ h => h⟩

theorem trans (h : PagesRead s u) (k : PagesRead u t) : PagesRead s t :=
  ⟨k.params.trans h.params, k.store.trans h.store, k.length.trans h.length, fun b => (k.state b).trans (h.state b),
    fun b => (h.maxCorr b).trans (k.maxCorr b), fun b hb => k.uncorr b (h.uncorr b hb)⟩

theorem keeps {β : Type} (h : PagesRead s t) (f : Store → β) (hf : ∀ x, f x = f (readPart x)) : f t.store = f s.store := by
  rw [hf t.store, h.store, ← hf]

/-- The store and the parameters stand. -/
theorem of_same (hp : t.params = s.params) (hs : t.store = s.store) : PagesRead s t := by
  have hb : ∀ b, block t b = block s b := fun b => block_of_blocks (by rw [hs]) b
  exact ⟨hp, by rw [hs], by rw [hs], fun b => by rw [hb], fun b => by rw [hb], fun b h => by rw [hs]; exact h⟩

end PagesRead

theorem pagesRead_nandIssue (cs : List NandCmd) (s : State) : PagesRead s (nandIssue cs s) :=
  ⟨rfl, rfl, rfl, fun _ => rfl, fun _ => Nat.le_refl _, fun _ h => h⟩

theorem pagesRead_perfAdd (a n : Nat) (s : State) : PagesRead s (perfAdd a n s) :=
  .of_same ((perfAdd_ev (by decide) (.refl s)).kept .params) (store_perfAdd a n)

/-- A block whose STATE stands while its MAX_CORR rises. -/
theorem pagesRead_modBlock (b : Nat) (f : BlockState → BlockState) (hf : ∀ x, (f x).state = x.state ∧ x.maxCorr ≤ (f x).maxCorr)
    (s : State) : PagesRead s (modBlock b f s) := by
  have hblock : ∀ c, block (modBlock b f s) c = block s c ∨ block (modBlock b f s) c = f (block s c) := by
    intro c
    by_cases hc : c = b
    · subst hc
      by_cases hl : c < s.store.blocks.length
      · exact .inr (block_modBlock_same hl f)
      · exact .inl (block_modBlock_beyond (Nat.le_of_not_lt hl) f c)
    · exact .inl (block_modBlock_ne hc f s)
  refine ⟨rfl, rfl, ?_, fun c => ?_, fun c => ?_, fun c h => h⟩
  · show (setAt _ _ _).length = _
    rw [setAt_eq_set, List.length_set]
  · rcases hblock c with h | h
    · rw [h]
    · rw [h, (hf _).1]
  · rcases hblock c with h | h
    · rw [h]
    · rw [h]
      exact (hf _).2

/-- A block is noted uncorrectable. -/
def noted (b : Nat) (s : State) : State :=
  modStore (fun x => { x with uncorr := if x.uncorr.contains b then x.uncorr else x.uncorr ++ [b] }) s

theorem mem_noted (b : Nat) (s : State) : b ∈ (noted b s).store.uncorr := by
  show b ∈ (if s.store.uncorr.contains b then s.store.uncorr else s.store.uncorr ++ [b])
  split
  · next h => exact List.contains_iff_mem.mp h
  · exact List.mem_append_right _ (List.mem_singleton_self b)

theorem pagesRead_noted (b : Nat) (s : State) : PagesRead s (noted b s) := by
  refine ⟨rfl, rfl, rfl, fun _ => rfl, fun _ => Nat.le_refl _, fun c h => ?_⟩
  show c ∈ (if s.store.uncorr.contains b then s.store.uncorr else s.store.uncorr ++ [b])
  split
  · exact h
  · exact List.mem_append_left _ h

/-- The commands of a read are issued, its counts kept and its block judged. -/
def readKept (b i : Nat) (r : PageRead) (s : State) : State :=
  let g := readWalk s b i (pageWords s b i) r 17 0 []
  modBlock b (fun x => { x with maxCorr := max x.maxCorr g.worst, pending := x.pending || decide (g.level > 0) })
    (nandIssue (g.cmds ++ restoreOps g.cmds) (perfAdd 0x080004 ((g.words.map fun w => (w.map (·.1)).getD 0).sum)
      (if g.level > 0 then perfAdd 0x080003 1 s else s)))

theorem readPage_eq (b i : Nat) (r : PageRead) (s : State) : readPage b i r s =
    (if (readWalk s b i (pageWords s b i) r 17 0 []).data.isNone then noted b (readKept b i r s) else readKept b i r s,
      (readWalk s b i (pageWords s b i) r 17 0 []).data) := by
  unfold readPage readKept
  dsimp only
  generalize readWalk s b i (pageWords s b i) r 17 0 [] = g
  rfl

theorem pagesRead_readKept (b i : Nat) (r : PageRead) (s : State) : PagesRead s (readKept b i r s) := by
  unfold readKept
  dsimp only
  generalize readWalk s b i (pageWords s b i) r 17 0 [] = g
  have hretry : PagesRead s (if g.level > 0 then perfAdd 0x080003 1 s else s) := by
    split
    · exact pagesRead_perfAdd _ _ s
    · exact .refl s
  refine PagesRead.trans ?_ (pagesRead_modBlock b _ ?_ _)
  · exact (hretry.trans (pagesRead_perfAdd _ _ _)).trans (pagesRead_nandIssue _ _)
  · exact fun x => ⟨rfl, Nat.le_max_left _ _⟩

theorem pagesRead_readPage (b i : Nat) (r : PageRead) (s : State) : PagesRead s (readPage b i r s).1 := by
  rw [readPage_eq]
  dsimp only
  split
  · exact (pagesRead_readKept b i r s).trans (pagesRead_noted b _)
  · exact pagesRead_readKept b i r s

/-- A read without data notes its block. -/
theorem readPage_notes {r : PageRead} (h : (readPage b i r s).2 = none) : b ∈ (readPage b i r s).1.store.uncorr := by
  rw [readPage_eq] at h ⊢
  dsimp only at h ⊢
  rw [h]
  exact mem_noted b _

theorem readPages_cons (b i : Nat) (l : List (Nat × Nat)) (rs : List PageRead) (s : State) :
    (readPages ((b, i) :: l) rs s).1 = (readPages l rs.tail (readPage b i (rs.headD ⟨[]⟩) s).1).1
      ∧ ((readPages ((b, i) :: l) rs s).2 = none ↔ (readPage b i (rs.headD ⟨[]⟩) s).2 = none
        ∨ (readPages l rs.tail (readPage b i (rs.headD ⟨[]⟩) s).1).2 = none) := by
  refine ⟨rfl, ?_⟩
  rw [readPages]
  dsimp only
  split
  · next h1 h2 =>
    rw [h1, h2]
    simp
  · next h =>
    refine ⟨fun _ => ?_, fun _ => rfl⟩
    cases hx : (readPage b i (rs.headD ⟨[]⟩) s).2 with
    | none => exact .inl rfl
    | some x =>
      cases hy : (readPages l rs.tail (readPage b i (rs.headD ⟨[]⟩) s).1).2 with
      | none => exact .inr rfl
      | some y => exact absurd hy (h x y hx)

theorem pagesRead_readPages (l : List (Nat × Nat)) (rs : List PageRead) (s : State) :
    PagesRead s (readPages l rs s).1 := by
  induction l generalizing rs s with
  | nil => exact .refl s
  | cons p l ih =>
    obtain ⟨b, i⟩ := p
    rw [(readPages_cons b i l rs s).1]
    exact (pagesRead_readPage b i _ s).trans (ih _ _)

/-- Where a page of block b has an uncorrectable codeword, and all pages are of b, block b is noted. -/
theorem readPages_notes (l : List (Nat × Nat)) (rs : List PageRead) (hl : ∀ p ∈ l, p.1 = b)
    (h : (readPages l rs s).2 = none) : b ∈ (readPages l rs s).1.store.uncorr := by
  induction l generalizing rs s with
  | nil => exact nomatch h
  | cons p l ih =>
    obtain ⟨c, i⟩ := p
    obtain rfl : c = b := hl _ List.mem_cons_self
    obtain ⟨hs, hnone⟩ := readPages_cons c i l rs s
    rw [hs]
    rcases hnone.mp h with h | h
    · exact (pagesRead_readPages l _ _).uncorr c (readPage_notes h)
    · exact ih _ (fun p hp => hl p (List.mem_cons_of_mem _ hp)) h

section
variable {d : Discovery} {c : Cartridge} {g : Geometry} {l : Label}

/-! ### What a mount comes to (R366) -/

/-- A cartridge that is accepted answers. -/
theorem acceptCart_answers (h : acceptCart d = some (c, g)) : targetsOf d ≠ 0 := by
  cases d with
  | absent => exact nomatch h
  | found x =>
    intro h0
    have hnil : x.targets = [] := by
      rw [targetsOf] at h0
      exact List.length_eq_zero_iff.mp (by omega)
    simp [acceptCart, geometryOf, hnil] at h

theorem acceptCart_pages (h : acceptCart d = some (c, g)) : g.pages < 2 ^ 24 := by
  cases d with
  | absent => exact nomatch h
  | found x =>
    have hok : geometryOk g = true := by
      unfold acceptCart at h
      split at h
      · contradiction
      · split at h
        · split at h
          · next hg =>
            injection h with h
            injection h with _ hgg
            exact hgg ▸ hg
          · contradiction
        · contradiction
    simp only [geometryOk, Bool.and_eq_true, decide_eq_true_eq] at hok
    omega

theorem discover_pages (c : Cartridge) (g : Geometry) (f : Bool) (s : State) :
    pw (discover c g f s) 0x410003 = word g.pages := by
  unfold discover
  dsimp only
  generalize (if fenced s 18 then [] else _) = ways
  show pw (setPw 0x410009 _ _) _ = _
  rw [pw_setPw_ne (by decide) _ _]
  show pw (setPw 0x410000 _ (setPw 0x410004 _ (setPw 0x410003 _ _))) _ = _
  rw [pw_setPw_ne (by decide) _ _, pw_setPw_ne (by decide) _ _, pw_setPw_same]

theorem mountApply_unlabelled {b : Bool} (hd : acceptCart d = some (c, g))
    (hl : chooseLabel (uniqueIdOf c) c.labels = none) :
    mountApply d b s = modStore (fun x => { x with medium := 1 }) (discover c g false (mountBegun d s)) := by
  rw [mountApply_found (acceptCart_answers hd), hd]
  dsimp only
  rw [hl]

theorem mountApply_foreign {b : Bool} (hd : acceptCart d = some (c, g))
    (hl : chooseLabel (uniqueIdOf c) c.labels = some l) (ho : ownLabel l = false) : mountApply d b s =
      modStore (fun x => { x with medium := 2, label := some l }) (discover c g false (mountBegun d s)) := by
  rw [mountApply_found (acceptCart_answers hd), hd]
  dsimp only
  rw [hl]
  exact if_neg (by simp [ho])

theorem mountApply_own {b : Bool} (hd : acceptCart d = some (c, g))
    (hl : chooseLabel (uniqueIdOf c) c.labels = some l) (ho : ownLabel l = true) : mountApply d b s =
      completeMount g (loadJournal g c l (discover c g false (mountBegun d s))) c (discover c g false (mountBegun d s)) := by
  rw [mountApply_found (acceptCart_answers hd), hd]
  dsimp only
  rw [hl]
  exact if_pos ho

/-- The end of a mount: nothing is left to resume. -/
def mountOver (s : State) : State := { s with power := { s.power with resume := false } }

theorem execMediumMount_idle (h : s.tap = false) (hm : s.store.mountDue = false) : exec (.mediumMount d) s = .next s :=
  (live_next s (mediumMountEffect d) h).trans (congrArg _ (if_neg (by simp [hm])))

theorem execMediumMount_due (h : s.tap = false) (hm : s.store.mountDue = true) (hf : fenced s 17 = false)
    (hs : s.safety.safe = false) (ha : s.power.asleep = false) (hr : s.power.resume = false) :
    exec (.mediumMount d) s = .next (mountOver (mountApply d false s)) := by
  refine (live_next s (mediumMountEffect d) h).trans (congrArg _ ?_)
  unfold mediumMountEffect
  rw [if_pos (by simp [hm, hf, hs, ha]), hr]
  rfl

theorem healthOf_mountOver (s : State) : healthOf (mountOver s) = healthOf s := healthOf_congr rfl rfl rfl

end

/-! ### The presence poll, the scan and a busy target (R368, R386, R393) -/

theorem storeCut_leaves (s : State) : (storeCut s).store.medium = s.store.medium ∧ (storeCut s).store.segs = s.store.segs
    ∧ (storeCut s).store.blocks = s.store.blocks ∧ (storeCut s).mgmt = s.mgmt := by
  refine ⟨?_, ?_, ?_, (storeCut_ev (by decide) (.refl s)).kept .mgmt⟩ <;> rw [storeCut] <;> split
  · rw [storeDone_store]
  · rfl
  · rw [storeDone_store]
  · rfl
  · rw [storeDone_store]
  · rfl

/-- A poll that is due: READ ID is issued. -/
def idRead (s : State) : State := nandIssue [.readId 0] (modStore (fun x => { x with pollAt := s.clk }) s)

theorem execPresencePoll_barred (h : s.tap = false) (sig : Bool)
    (hb : s.store.medium = 3 ∨ s.store.medium = 4 ∨ s.start.window = true) : exec (.presencePoll sig) s = .next s := by
  refine (live_next s (presencePollEffect sig) h).trans (congrArg _ (if_pos ?_))
  rcases hb with hb | hb | hb
  · exact .inl hb
  · exact .inr (.inl hb)
  · exact .inr (.inr (.inr (.inl hb)))

theorem execPresencePoll_due (h : s.tap = false) (sig : Bool) (hf : fenced s 17 = false) (hw : s.start.window = false)
    (ha : s.power.asleep = false) (hp : s.store.pollAt + ms 1000 ≤ s.clk) (h3 : s.store.medium ≠ 3)
    (h4 : s.store.medium ≠ 4) : exec (.presencePoll sig) s = .next (
      if !sig then (if s.store.medium = 0 then idRead s else storeCut (storeGone 0 (clearMedium (idRead s))))
      else if s.store.medium = 0 then modStore (fun x => { x with mountDue := true }) (idRead s)
      else idRead s) := by
  refine (live_next s (presencePollEffect sig) h).trans (congrArg _ ?_)
  refine (if_neg (by simp [h3, h4, hf, hw, ha])).trans ?_
  rw [waitUntil_past hp]
  rfl

/-- A fault of the store ends recording with MEDIUM 6 and M_FAULT.STORE. -/
theorem storeFault_fault (s : State) :
    (storeFault s).store.medium = 6 ∧ (storeFault s).mgmt.fault = s.mgmt.fault ||| BitVec.ofNat 12 (2 ^ 10) := by
  obtain ⟨hm, -, -, hg⟩ := storeCut_leaves (storeGone 6 (discardRefs (setMFault 10 20 31 0 0 false s)))
  refine ⟨hm.trans ?_, (congrArg (·.fault) hg).trans ?_⟩
  · rw [storeGone_store]
  · have hgone := (storeGone_ev (m' := 6) (by decide) (.refl (discardRefs (setMFault 10 20 31 0 0 false s)))).kept .mgmt
    have hrefs := (discardRefs_ev (by decide) (.refl (setMFault 10 20 31 0 0 false s))).kept .mgmt
    rw [hgone, hrefs, setMFault_fault]

/-- A block read without data is noted as bad. -/
def scanned (b : Nat) (got : Option (List Byte)) (u : State) : State :=
  modStore (fun x => { x with scanAt := b + 1 }) (if got.isNone then badBlock b u else u)

theorem scanned_leaves (b : Nat) (got : Option (List Byte)) (u : State) : (scanned b got u).params = u.params
    ∧ (scanned b got u).store = { u.store with scanAt := b + 1 } := by
  have hbad : (badBlock b u).params = u.params ∧ (badBlock b u).store = u.store :=
    ⟨(badBlock_ev (by decide) (.refl u)).kept .params, (badBlock_ev (by decide) (.refl u)).kept .store⟩
  unfold scanned
  split
  · exact ⟨hbad.1, congrArg (fun x : Store => { x with scanAt := b + 1 }) hbad.2⟩
  · exact ⟨rfl, rfl⟩

/-- The pages the scan samples: the first, the middle and the last. -/
def sampled (b : Nat) (ps : List Nat) : List (Nat × Nat) :=
  [ps.head?, ps[ps.length / 2]?, ps.getLast?].filterMap (Option.map fun i => (b, i))

theorem sampled_eq (b : Nat) (ps : List Nat) :
    ([ps.head?, ps[ps.length / 2]?, ps.getLast?].filterMap id).map (fun i => (b, i)) = sampled b ps := by
  rw [List.map_filterMap]
  rfl

theorem fst_of_mem_sampled {ps : List Nat} {p : Nat × Nat} (h : p ∈ sampled b ps) : p.1 = b := by
  obtain ⟨x, -, hx⟩ := List.mem_filterMap.mp h
  cases x with
  | none => exact nomatch hx
  | some i => exact (congrArg Prod.fst (Option.some.inj hx)).symm

theorem scanBlock_congr (hb : t.store.blocks = s.store.blocks) (he : t.store.erasing = s.store.erasing) (n : Nat) :
    scanBlock t n = scanBlock s n := by
  rw [scanBlock, scanBlock, hb, he]
  exact congrArg (List.find? · _) (funext fun b => by rw [block_of_blocks hb])

theorem execPowerUpScan_runs (h : s.tap = false) (hr : storeReads s = true) (hs : bitOf (pn s 0x420002) 0 = true)
    (x y z : PageRead) : exec (.powerUpScan x y z) s = .next (match scanBlock s s.store.scanAt with
      | none => setPw 0x420002 2 s
      | some b =>
        let r := readPages (sampled b (programmedPages s b)) [x, y, z] s
        if (scanBlock (scanned b r.2 r.1) (b + 1)).isNone then setPw 0x420002 2 (scanned b r.2 r.1) else scanned b r.2 r.1) := by
  refine (live_next s (powerUpScanEffect [x, y, z]) h).trans (congrArg _ ?_)
  refine (if_neg (by simp [hr, hs])).trans ?_
  cases scanBlock s s.store.scanAt with
  | none => rfl
  | some b =>
    dsimp only
    rw [sampled_eq]
    rfl

theorem pn_of_pw {id n : Nat} (hp : t.params = s.params) (h : pw s id = word n) (hn : n < 2 ^ 24) : pn t id = n := by
  rw [pn, pw_congr hp, h, toNat_word hn]

/-- Settles O46: a mount ends in the stage its cartridge allows (`mountApply_…`); the poll and the scan change what they
read (`PagesRead`); a busy target is `storeFault`. -/
theorem theMediumIsMountedAndWatched : Obligations.TheMediumIsMountedAndWatched := by
  refine ⟨fun s d h hm => execMediumMount_idle h hm,
    fun s d h hm hf hs ha hr => ⟨fun ht => ?_, fun ht hd => ?_, fun c g hd => ⟨fun hl => ?_, fun l hl => ⟨fun ho => ?_, fun ho => ?_⟩⟩⟩,
    fun s sig h hb => execPresencePoll_barred h sig hb, fun s h hf hw ha hp => ⟨fun hm => ?_, fun hm => ?_⟩,
    fun s x y z h hr hscan => ⟨fun hnone => ?_, fun b ps u got hb hps hread => ?_⟩, fun s k h => ⟨fun hu => ?_, fun hu => ?_⟩⟩
  · refine ⟨_, execMediumMount_due h hm hf hs ha hr, ?_⟩
    rw [mountApply_absent ht, mountOver, storeGone_store]
    exact ⟨rfl, rfl⟩
  · refine ⟨_, execMediumMount_due h hm hf hs ha hr, ?_⟩
    rw [mountApply_rejected ht hd, mountOver, mountFail_store]
    exact ⟨rfl, rfl, rfl⟩
  · refine ⟨_, execMediumMount_due h hm hf hs ha hr, ?_⟩
    rw [mountApply_unlabelled hd hl]
    have hsize := discover_pageSize c g false (mountBegun d s)
    have hpages := discover_pages c g false (mountBegun d s)
    generalize discover c g false (mountBegun d s) = v at hsize hpages ⊢
    exact ⟨rfl, pn_of_pw (s := v) rfl hsize (acceptCart_pageSize hd), pn_of_pw (s := v) rfl hpages (acceptCart_pages hd)⟩
  · refine ⟨_, execMediumMount_due h hm hf hs ha hr, ?_⟩
    rw [mountApply_foreign hd hl ho]
    generalize discover c g false (mountBegun d s) = v
    exact ⟨rfl, rfl⟩
  · refine ⟨_, execMediumMount_due h hm hf hs ha hr, ?_⟩
    rw [healthOf_mountOver, mountApply_own hd hl ho]
    generalize hv : discover c g false (mountBegun d s) = v
    obtain ⟨hlab, hsegs, hpages, hpw, hmed⟩ := completeMount_mounts g (loadJournal g c l v) c v
    rw [loadJournal_label] at hlab
    generalize completeMount g (loadJournal g c l v) c v = w at hlab hsegs hpages hpw hmed ⊢
    exact ⟨hlab, hsegs, hpages, pn_of_pw (s := w) rfl hpw (by decide), hmed⟩
  · refine ⟨_, execPresencePoll_due h true hf hw ha hp (by omega) (by omega), ?_⟩
    rw [if_neg (by decide), if_pos hm]
    exact ⟨rfl, hm⟩
  · refine ⟨_, execPresencePoll_due h false hf hw ha hp (by omega) (by omega), ?_⟩
    rw [if_pos (by decide), if_neg (by omega)]
    obtain ⟨hmed, hsegs, hblocks, -⟩ := storeCut_leaves (storeGone 0 (clearMedium (idRead s)))
    rw [hmed, hsegs, hblocks, storeGone_store]
    exact ⟨rfl, rfl, rfl⟩
  · refine (execPowerUpScan_runs h hr hscan x y z).trans (congrArg _ ?_)
    rw [hnone]
  · have hexec := execPowerUpScan_runs h hr hscan x y z
    rw [hb] at hexec
    dsimp only at hexec
    have hred := pagesRead_readPages (sampled b ps) [x, y, z] s
    have hnote := readPages_notes (s := s) (sampled b ps) [x, y, z] fun p hp => fst_of_mem_sampled hp
    have hread' : readPages (sampled b ps) [x, y, z] s = (u, got) := hread.symm
    rw [← hps, hread'] at hexec
    rw [hread'] at hred hnote
    dsimp only at hexec hred hnote
    obtain ⟨hparams, hstore⟩ := scanned_leaves b got u
    have hnext : scanBlock (scanned b got u) (b + 1) = scanBlock u (b + 1) :=
      scanBlock_congr (by rw [hstore]) (by rw [hstore]) _
    rw [hnext] at hexec
    have hrose : (block s b).maxCorr ≤ (block (scanned b got u) b).maxCorr := by
      have hblock : block (scanned b got u) b = block u b := block_of_blocks (by rw [hstore]) b
      rw [hblock]
      exact hred.maxCorr b
    have hmark : b ∈ (scanned b got u).store.uncorr ∨ got.isSome = true := by
      cases got with
      | none => exact .inl (by rw [hstore]; exact hnote rfl)
      | some x => exact .inr rfl
    refine ⟨_, hexec, ?_⟩
    split
    · refine ⟨by rw [setPw, hstore], by rw [setPw, hstore], hrose, hmark, ?_⟩
      exact pn_of_pw rfl (pw_setPw_same _ _ _) (by decide)
    · refine ⟨by rw [hstore], by rw [hstore], hrose, hmark, ?_⟩
      exact congrArg BitVec.toNat (pw_congr (hparams.trans hred.params) _)
  · obtain ⟨hm, hfault⟩ := storeFault_fault s
    refine ⟨_, (live_next s (targetBusyTimeoutEffect k) h).trans (congrArg _ (if_pos hu)), hm, ?_⟩
    rw [hfault]
    exact getLsbD_orBit _ (by decide)
  · exact (live_next s (targetBusyTimeoutEffect k) h).trans (congrArg _ (if_neg (by simp [hu])))

end Sys2Proof.Machine
end

section
/-! PROOFS. Event locks: their windows, what they protect, and the holds that follow (chapter 11): O45. -/

namespace Sys2Proof.Machine

variable {s t u : State} {k trig row q : Nat}

/-! ### The configuration fields of a stream row that locks go by (Table 11.7) -/

/-- The trigger fields of the 64 stream rows and the cap policy stand. -/
structure FieldsKept (s t : State) : Prop where
  trig : ∀ j, j < 64 → ∀ lo n, rowField t j 1 lo n = rowField s j 1 lo n
  policy : ∀ j, rowField t j 0 20 1 = rowField s j 0 20 1

namespace FieldsKept

theorem refl (s : State) : FieldsKept s s := ⟨fun _ _ _ _ => rfl, fun _ => rfl⟩

theorem trans (h : FieldsKept s u) (k : FieldsKept u t) : FieldsKept s t :=
  ⟨fun j hj lo n => (k.trig j hj lo n).trans (h.trig j hj lo n), fun j => (k.policy j).trans (h.policy j)⟩

theorem of_tables (h : t.tables = s.tables) : FieldsKept s t := by
  have hw : ∀ j i, rowWord t 0x08 0 j i = rowWord s 0x08 0 j i := fun j i => by rw [rowWord, rowAt, h, rowWord, rowAt]
  exact ⟨fun j _ lo n => by rw [rowField, hw, rowField], fun j => by rw [rowField, hw, rowField]⟩

theorem ite {c : Prop} [Decidable c] (h : FieldsKept s t) (k : FieldsKept s u) : FieldsKept s (if c then t else u) := by
  split
  · exact h
  · exact k

end FieldsKept

/-- A source row that keeps its bit 20 leaves the fields, wherever a stream row of that key would stand. -/
theorem fieldsKept_putSrc {n v : Nat} (hv : bits v 20 1 = bits (srcRow s 0 n) 20 1) (hn : n < 2 ^ 24) :
    FieldsKept s (putSrc 0 n v s) := by
  refine ⟨fun j hj lo m => ?_, fun j => ?_⟩
  · have hkey : rowKey 0x08 0 j ≠ rowKey 0x0C 0 n := by
      simp only [rowKey]
      omega
    rw [rowField, rowWord, putSrc, rowAt_putRow_ne _ _ _ _ _ _ _ _ hkey, rowField, rowWord]
  · by_cases hkey : rowKey 0x08 0 j = rowKey 0x0C 0 n
    · have hrow : ∀ x : State, rowWord x 0x08 0 j 0 = srcRow x 0 n := fun x => by
        rw [rowWord, rowAt, hkey, srcRow, rowWord, rowAt]
      rw [rowField, hrow, bits_srcRow_putSrc (by decide), hv, rowField, hrow]
    · rw [rowField, rowWord, putSrc, rowAt_putRow_ne _ _ _ _ _ _ _ _ hkey, rowField, rowWord]

theorem fieldsKept_raise (n : Nat) (hn : n < 2 ^ 24) (s : State) : FieldsKept s (raise 0 n s) := by
  unfold raise
  dsimp only
  refine .ite (.ite ?_ ?_) (.refl s) <;>
    exact fieldsKept_putSrc (by rw [bits_putBits_disjoint (by decide), bits_putBits_disjoint (by decide)]) hn

/-- A word past the second of a stream row leaves the first two. -/
theorem rowSet_getD {ws : List Word} {n i j : Nat} (v : Word) (h : j ≠ i) : (rowSet ws n i v).getD j 0 = ws.getD j 0 := by
  rw [rowSet, setAt_eq_set, List.getD_eq_getElem?_getD, List.getElem?_set_ne h.symm, List.getD_eq_getElem?_getD]
  by_cases hj : j < ws.length
  · rw [List.getElem?_append_left hj]
  · rw [List.getElem?_append_right (by omega), List.getElem?_eq_none (by omega : ws.length ≤ j), List.getElem?_replicate]
    split <;> rfl

theorem fieldsKept_putRowWord (k n i v : Nat) (hi : 2 ≤ i) (s : State) : FieldsKept s (putRowWord 0x08 0 k n i v s) := by
  have hw : ∀ j m, m < 2 → rowWord (putRowWord 0x08 0 k n i v s) 0x08 0 j m = rowWord s 0x08 0 j m := by
    intro j m hm
    by_cases hj : j = k
    · subst hj
      rw [rowWord, putRowWord, rowAt_putRow_same, rowSet_getD _ (by omega), rowWord]
    · have hkey : rowKey 0x08 0 j ≠ rowKey 0x08 0 k := by simpa [rowKey] using hj
      rw [rowWord, putRowWord, rowAt_putRow_ne _ _ _ _ _ _ _ _ hkey, rowWord]
  exact ⟨fun j _ lo m => by rw [rowField, hw j 1 (by decide), rowField],
    fun j => by rw [rowField, hw j 0 (by decide), rowField]⟩

theorem fieldsKept_queueMarker (k trig outcome row a b : Nat) (s : State) :
    FieldsKept s (queueMarker k trig outcome row a b s) :=
  .of_tables ((queueMarker_ev (by decide) (.refl s)).kept .tables)

theorem fieldsKept_capReview (s : State) : FieldsKept s (capReview s) := by
  unfold capReview
  dsimp only
  refine .ite (FieldsKept.trans ?_ (fieldsKept_raise 12 (by decide) _)) (.of_tables rfl)
  exact .of_tables rfl

theorem fieldsKept_curtail (k : Nat) (s : State) : FieldsKept s (curtail k s) := by
  unfold curtail
  split
  · exact .refl s
  · dsimp only
    refine FieldsKept.trans ?_ (fieldsKept_raise 12 (by decide) _)
    refine FieldsKept.trans ?_ (fieldsKept_queueMarker k _ 2 _ _ _ _)
    exact .of_tables rfl

theorem fieldsKept_protectSeg (k q : Nat) (s : State) : FieldsKept s (protectSeg k q s).1 := by
  unfold protectSeg
  split
  · exact .refl s
  · split
    · exact .of_tables rfl
    · split
      · exact .refl s
      · dsimp only
        refine FieldsKept.trans ?_ (fieldsKept_capReview _)
        exact .of_tables rfl

theorem protectAll_cons (k q : Nat) (l : List Nat) (s : State) : protectAll k (q :: l) s =
    if (protectSeg k q s).2 then protectAll k l (protectSeg k q s).1 else curtail k (protectSeg k q s).1 := by
  rw [protectAll]
  split <;> next h => rw [h]; rfl

theorem fieldsKept_protectAll (k : Nat) (l : List Nat) (s : State) : FieldsKept s (protectAll k l s) := by
  induction l generalizing s with
  | nil => exact .refl s
  | cons q l ih =>
    rw [protectAll_cons]
    exact .ite ((fieldsKept_protectSeg k q s).trans (ih _)) ((fieldsKept_protectSeg k q s).trans (fieldsKept_curtail k _))

/-! ### The stages of an event lock (R348 to R351) -/

/-- From when a lock at t covers. -/
def lockStart (k t : Nat) (s : State) : Nat := t - rowField s k 2 12 12 * 1000000000

/-- Until when a lock at t covers. -/
def lockStop (k t : Nat) (s : State) : Nat := t + rowField s k 2 0 12 * 1000000000

/-- The window opens and is counted. -/
def windowOpened (k trig row t : Nat) (s : State) : State :=
  let s1 := modStream k (fun x => { x with window := some (lockStart k t s, lockStop k t s), windowBy := (trig, row) }) s
  putRowWord 0x08 0 k 12 11 (stick 24 (rowWord s1 0x08 0 k 11) 1) s1

/-- SEQ of each segment a window covers. -/
def coveredSeqs (k start : Nat) (s : State) : List Nat :=
  (((held s k).filter fun g => !g.closed || decide (start ≤ g.lastTs.1 * 1000000000 + g.lastTs.2)).map (·.seq)).mergeSort (· ≤ ·)

/-- What the window covers is protected. -/
def coveredProtected (k trig row t : Nat) (s : State) : State :=
  protectAll k (coveredSeqs k (lockStart k t s) (windowOpened k trig row t s)) (windowOpened k trig row t s)

/-- The lock's marker is queued, where its window still stands. -/
def lockMarked (k trig row t : Nat) (s : State) : State :=
  if (stream (coveredProtected k trig row t s) k).window.isSome then
    queueMarker k trig 0 row (lockStart k t s) (lockStop k t s) (coveredProtected k trig row t s)
  else coveredProtected k trig row t s

theorem lockTrigger_moved {a b t : Nat} (h : (stream s k).window = some (a, b)) : lockTrigger k trig row t s =
    (queueMarker k trig 3 row a (max b (lockStop k t s))
      (modStream k (fun x => { x with window := some (a, max b (lockStop k t s)) }) s), 3) := by
  unfold lockTrigger
  dsimp only
  rw [h]
  rfl

theorem lockTrigger_barred {t : Nat} (h : (stream s k).window = none) (hp : rowField s k 0 20 1 = 0)
    (hm : mayProtect s = false) : lockTrigger k trig row t s =
      (raise 0 12 (queueMarker k trig 1 row (lockStart k t s) (lockStop k t s) s), 1) := by
  unfold lockTrigger
  dsimp only
  rw [h]
  exact if_pos ⟨hp, by simp [hm]⟩

/-- The lock of an offline stream leaves no window open. -/
def offlineClosed (k : Nat) (s : State) (v : State) : State :=
  modStore (fun y => { y with segs := y.segs.map fun g =>
    if g.stream = k ∧ g.prot ∧ g.holdAt = none then
      { g with holdAt := some ((poweredSec s : Int) + rowField s k 2 0 12) } else g })
    (modStream k (fun x => { x with window := none }) v)

theorem lockTrigger_opens {t : Nat} (h : (stream s k).window = none)
    (hp : ¬ (rowField s k 0 20 1 = 0 ∧ mayProtect s = false)) : lockTrigger k trig row t s =
      (capReview (if (stream s k).state = 0 then offlineClosed k s (lockMarked k trig row t s) else lockMarked k trig row t s), 0) := by
  unfold lockTrigger
  dsimp only
  rw [h]
  exact if_neg fun ⟨h1, h2⟩ => hp ⟨h1, by simpa using h2⟩

theorem fieldsKept_windowOpened (k trig row t : Nat) (s : State) : FieldsKept s (windowOpened k trig row t s) := by
  unfold windowOpened
  dsimp only
  refine FieldsKept.trans ?_ (fieldsKept_putRowWord k 12 11 _ (by decide) _)
  exact .of_tables rfl

theorem fieldsKept_lockMarked (k trig row t : Nat) (s : State) : FieldsKept s (lockMarked k trig row t s) := by
  have h : FieldsKept s (coveredProtected k trig row t s) :=
    (fieldsKept_windowOpened k trig row t s).trans (fieldsKept_protectAll k _ _)
  exact .ite (h.trans (fieldsKept_queueMarker k trig 0 row _ _ _)) h

theorem fieldsKept_lockTrigger (k trig row t : Nat) (s : State) : FieldsKept s (lockTrigger k trig row t s).1 := by
  cases hw : (stream s k).window with
  | some w =>
    rw [lockTrigger_moved (a := w.1) (b := w.2) hw]
    refine FieldsKept.trans ?_ (fieldsKept_queueMarker k trig 3 row _ _ _)
    exact .of_tables rfl
  | none =>
    by_cases hp : rowField s k 0 20 1 = 0 ∧ mayProtect s = false
    · rw [lockTrigger_barred hw hp.1 hp.2]
      exact (fieldsKept_queueMarker k trig 1 row _ _ s).trans (fieldsKept_raise 12 (by decide) _)
    · rw [lockTrigger_opens hw hp]
      have h := fieldsKept_lockMarked k trig row t s
      refine FieldsKept.trans (.ite (h.trans ?_) h) (fieldsKept_capReview _)
      exact .of_tables rfl

/-! ### The window of a stream -/

theorem window_queueMarker (k trig outcome row a b : Nat) (s : State) :
    (stream (queueMarker k trig outcome row a b s) k).window = (stream s k).window := by
  have hgap : (stream (closeGap k s) k).window = (stream s k).window := by
    unfold closeGap
    dsimp only
    split
    · rfl
    · rw [stream_modStream]
  unfold queueMarker
  dsimp only
  rw [stream_modStream]
  exact hgap

theorem window_capReview (k : Nat) (s : State) : (stream (capReview s) k).window = (stream s k).window := by
  rw [stream_capReview, capState]
  split
  · rfl
  · split <;> rfl

theorem segs_queueMarker (k trig outcome row a b : Nat) (s : State) :
    (queueMarker k trig outcome row a b s).store.segs = s.store.segs := by
  unfold queueMarker
  dsimp only
  show (closeGap k s).store.segs = _
  unfold closeGap
  dsimp only
  split <;> rfl

/-! ### What a lock protects (R349, R351) -/

/-- A segment under a lock. -/
def guarded (g : Segment) : Segment := { g with prot := true, holdAt := none }

/-- Segments of a stream whose SEQ is in a list, under a lock. -/
def guardAll (k : Nat) (l : List Nat) (gs : List Segment) : List Segment :=
  gs.map fun g => if g.stream = k ∧ g.seq ∈ l then guarded g else g

theorem guardAll_cons (k q : Nat) (l : List Nat) (gs : List Segment) :
    guardAll k (q :: l) gs = guardAll k l (guardAll k [q] gs) := by
  rw [guardAll, guardAll, guardAll, List.map_map]
  refine List.map_congr_left fun g _ => ?_
  by_cases hk : g.stream = k <;> by_cases hq : g.seq = q <;> by_cases hl : g.seq ∈ l <;>
    simp [hk, hq, hl, guarded, Function.comp]

theorem map_seq_guardAll (k : Nat) (l : List Nat) (gs : List Segment) :
    ((guardAll k l gs).filter fun g => g.stream == k).map (·.seq) = (gs.filter fun g => g.stream == k).map (·.seq) := by
  induction gs with
  | nil => rfl
  | cons g gs ih =>
    have hg : ∀ p : Prop, [Decidable p] → (if p then guarded g else g).stream = g.stream ∧ (if p then guarded g else g).seq = g.seq :=
      fun p _ => by split <;> exact ⟨rfl, rfl⟩
    obtain ⟨h1, h2⟩ := hg (g.stream = k ∧ g.seq ∈ l)
    have hcons : guardAll k l (g :: gs) = (if g.stream = k ∧ g.seq ∈ l then guarded g else g) :: guardAll k l gs := rfl
    rw [hcons, List.filter_cons, List.filter_cons, h1]
    split
    · rw [List.map_cons, List.map_cons, h2, ih]
    · exact ih

/-- Under CAP_POLICY 1 a segment whose SEQ is its own is protected. -/
theorem protectSeg_protects (hp : rowField s k 0 20 1 = 1) (hn : ((held s k).map (·.seq)).Nodup) :
    (protectSeg k q s).2 = true ∧ (protectSeg k q s).1.store.segs = guardAll k [q] s.store.segs := by
  have hkey : ∀ g : Segment, (g.stream == k && g.seq == q) = true ↔ g.stream = k ∧ g.seq ∈ [q] := by simp
  unfold protectSeg
  cases hf : s.store.segs.find? (fun g => g.stream == k && g.seq == q) with
  | none =>
    refine ⟨rfl, ((List.map_congr_left fun g hg => ?_).trans (List.map_id _)).symm⟩
    exact if_neg fun h => (List.find?_eq_none.mp hf g hg) ((hkey g).mpr h)
  | some g =>
    dsimp only
    have hmem := List.mem_of_find?_eq_some hf
    have hsel := List.find?_some hf
    have hg := (hkey g).mp hsel
    by_cases hprot : g.prot = true
    · rw [if_pos hprot]
      refine ⟨rfl, List.map_congr_left fun g' hg' => ?_⟩
      by_cases hsel : g'.stream = k ∧ g'.seq = q
      · have hin : ∀ x ∈ s.store.segs, x.stream = k → x ∈ held s k := fun x hx hxk => List.mem_filter.mpr ⟨hx, by simp [hxk]⟩
        have heq : g' = g := List.inj_on_of_nodup_map hn (hin g' hg' hsel.1) (hin g hmem hg.1)
          (hsel.2.trans (List.mem_singleton.mp hg.2).symm)
        rw [if_pos hsel, if_pos ⟨hsel.1, List.mem_singleton.mpr hsel.2⟩, heq, guarded, ← hprot]
      · rw [if_neg hsel, if_neg fun h => hsel ⟨h.1, List.mem_singleton.mp h.2⟩]
    · rw [if_neg hprot, if_neg (by simp [hp])]
      refine ⟨rfl, (capReview_segs _).trans (List.map_congr_left fun g' _ => ?_)⟩
      simp [guarded]

theorem protectAll_protects (l : List Nat) (hp : rowField s k 0 20 1 = 1) (hn : ((held s k).map (·.seq)).Nodup) :
    (protectAll k l s).store.segs = guardAll k l s.store.segs := by
  induction l generalizing s with
  | nil => exact ((List.map_congr_left fun g _ => if_neg fun h => List.not_mem_nil h.2).trans (List.map_id _)).symm
  | cons q l ih =>
    obtain ⟨hok, hsegs⟩ := protectSeg_protects (q := q) hp hn
    have hn' : ((held (protectSeg k q s).1 k).map (·.seq)).Nodup := by
      rw [held, hsegs, map_seq_guardAll]
      exact hn
    rw [protectAll_cons, if_pos hok, ih (((fieldsKept_protectSeg k q s).policy k).trans hp) hn', hsegs]
    exact (guardAll_cons k q l _).symm

/-! ### Time that passes -/

theorem wait_clk (n : Nat) (s : State) : (wait n s).clk = s.clk + n := by
  unfold wait
  dsimp only
  split
  · rfl
  · generalize hv : ({ s with clk := s.clk + n } : State) = v
    have hclk : v.clk = s.clk + n := hv ▸ rfl
    have h1 : (droopTicks (s.time.fixed % 500000) n (perfTicks n (timeTicks n v))).clk = s.clk + n := by
      rw [(droopTicks_ev (by decide) (.refl _)).kept .clk, (perfTicks_ev (by decide) (.refl _)).kept .clk,
        (timeTicks_ev (by decide) (.refl _)).kept .clk, hclk]
    generalize droopTicks (s.time.fixed % 500000) n (perfTicks n (timeTicks n v)) = w at h1
    have h2 : (if countsEngine w = true then forAll 4 (engineTicks n) w else w).clk = s.clk + n := by
      split
      · have hev : Evolves (allBut .clk) w (forAll 4 (engineTicks n) w) :=
          forAll_ev 4 _ (fun t v hv => engineTicks_ev (by decide) hv) (.refl w)
        exact (hev.kept .clk).trans h1
      · exact h1
    generalize (if countsEngine w = true then forAll 4 (engineTicks n) w else w) = x at h2 ⊢
    split
    · rw [(gateCatchUp_ev (by decide) (.refl _)).kept .clk, h2]
    · exact h2

theorem waitUntil_clk (n : Nat) (s : State) : (waitUntil n s).clk = max s.clk n := by
  rw [waitUntil, wait_clk]
  omega

theorem waitUntil_store (n : Nat) (s : State) : (waitUntil n s).store = s.store :=
  (waitUntil_ev (by decide) (.refl s)).kept .store

theorem waitDev_store (n : Nat) (s : State) : (waitDev n s).store = s.store :=
  (waitDev_ev (by decide) (.refl s)).kept .store

/-! ### One of many -/

theorem forAll_succ (n : Nat) (f : Nat → State → State) (s : State) : forAll (n + 1) f s = f n (forAll n f s) := by
  rw [forAll, List.range_succ, List.foldl_append]
  rfl

/-- An operation that changes nothing at any number. -/
theorem forAll_id {n : Nat} {f : Nat → State → State} (h : ∀ j, j < n → f j s = s) : forAll n f s = s := by
  induction n with
  | zero => rfl
  | succ n ih => rw [forAll_succ, ih fun j hj => h j (by omega), h n (by omega)]

/-- An operation that acts at one number alone. -/
theorem forAll_at {n i : Nat} {f : Nat → State → State} (hi : i < n) (hs : ∀ j, j < n → j ≠ i → f j s = s)
    (ht : ∀ j, j < n → j ≠ i → f j (f i s) = f i s) : forAll n f s = f i s := by
  induction n with
  | zero => exact absurd hi (Nat.not_lt_zero i)
  | succ n ih =>
    rw [forAll_succ]
    by_cases hn : i = n
    · rw [forAll_id fun j hj => hs j (by omega) (by omega), hn]
    · rw [ih (by omega) (fun j hj => hs j (by omega)) fun j hj => ht j (by omega), ht n (by omega) (Ne.symm hn)]

/-! ### The holds that follow a window (R349, R350) -/

/-- A segment whose window ends begins its hold. -/
def holdBegun (k : Nat) (at0 : Int) (g : Segment) : Segment :=
  if g.stream = k ∧ g.prot ∧ g.holdAt = none then { g with holdAt := some at0 } else g

theorem holdBegun_keeps (k : Nat) (e : Int) (g : Segment) : (holdBegun k e g).stream = g.stream
    ∧ (holdBegun k e g).seq = g.seq ∧ (holdBegun k e g).prot = g.prot := by
  unfold holdBegun
  split <;> exact ⟨rfl, rfl, rfl⟩

/-- A protected segment of the stream has a hold: its own, or the one that begins. -/
theorem holdBegun_holdAt {e : Int} {g : Segment} (hk : g.stream = k) (hp : g.prot = true) :
    (holdBegun k e g).holdAt = some (g.holdAt.getD e) := by
  unfold holdBegun
  cases hh : g.holdAt with
  | none => rw [if_pos ⟨hk, hp, rfl⟩]; rfl
  | some x => rw [if_neg fun h => nomatch h.2.2]; exact hh

/-- The window closes once its end has come. -/
def windowRunOut (k stop : Nat) (s : State) : State :=
  capReview (modStream k (fun x => { x with window := none })
    (modStore (fun x => { x with segs := x.segs.map (holdBegun k (poweredSec (waitDev (stop * 65536) s))) })
      (waitDev (stop * 65536) s)))

theorem execLockWindowEnd_closes {k : Fin 64} {a b : Nat} (h : s.tap = false) (hw : (stream s k).window = some (a, b)) :
    exec (.lockWindowEnd k) s = .next (windowRunOut k b s) := by
  refine (live_next s (lockWindowEndEffect k) h).trans (congrArg _ ?_)
  unfold lockWindowEndEffect
  rw [hw]
  rfl

theorem windowRunOut_clk (k stop : Nat) (s : State) : (windowRunOut k stop s).clk = (waitDev (stop * 65536) s).clk :=
  (capReview_ev (by decide) (.refl _)).kept .clk

theorem windowRunOut_segs (k stop : Nat) (s : State) : (windowRunOut k stop s).store.segs =
    s.store.segs.map (holdBegun k (poweredSec (windowRunOut k stop s))) := by
  have hclk := windowRunOut_clk k stop s
  have hsec : poweredSec (windowRunOut k stop s) = poweredSec (waitDev (stop * 65536) s) := by
    rw [poweredSec, poweredSec, hclk]
    unfold windowRunOut
    rw [capReview_keeps Store.powered fun _ _ _ _ => rfl, capReview_keeps Store.poweredAt fun _ _ _ _ => rfl]
    rfl
  rw [hsec]
  unfold windowRunOut
  rw [capReview_segs]
  show (waitDev (stop * 65536) s).store.segs.map _ = _
  rw [waitDev_store]

/-- Ends of the holds of a stream. -/
def holdEnds (k : Nat) (s : State) : List Int := (held s k).filterMap fun g => if g.prot then g.holdAt else none

theorem mem_holdEnds {e : Int} : e ∈ holdEnds k s ↔ ∃ g ∈ held s k, g.prot = true ∧ g.holdAt = some e := by
  rw [holdEnds, List.mem_filterMap]
  refine exists_congr fun g => and_congr_right fun _ => ?_
  cases g.prot <;> simp

/-- The least of a list that begins with e. -/
theorem foldl_min_eq {l : List Int} {e m : Int} (hm : m ∈ e :: l) (hle : ∀ x ∈ e :: l, m ≤ x) : l.foldl min e = m := by
  induction l generalizing e with
  | nil => exact (List.mem_singleton.mp hm).symm
  | cons x l ih =>
    refine ih (e := min e x) ?_ ?_
    · rcases List.mem_cons.mp hm with h | h
      · have hx : m ≤ x := hle x (by simp)
        exact List.mem_cons.mpr (.inl (by omega))
      · rcases List.mem_cons.mp h with h | h
        · have he : m ≤ e := hle e List.mem_cons_self
          exact List.mem_cons.mpr (.inl (by omega))
        · exact List.mem_cons_of_mem _ h
    · intro y hy
      rcases List.mem_cons.mp hy with h | h
      · have he : m ≤ e := hle e List.mem_cons_self
        have hx : m ≤ x := hle x (by simp)
        omega
      · exact hle y (by simp [h])

/-- A segment whose hold ran out by an instant. -/
def holdOver (k : Nat) (days : Nat) (due : Int) (g : Segment) : Segment :=
  match g.holdAt with
  | some h => if g.stream = k ∧ g.prot ∧ h + (days : Int) * 86400 ≤ due then { g with prot := false, holdAt := none } else g
  | none => g

/-- At the end of the earliest hold, that hold alone is over. -/
theorem holdOver_earliest {e : Int} {g : Segment} (days : Nat)
    (hle : g.stream = k → g.prot = true → ∀ x, g.holdAt = some x → e ≤ x) : holdOver k days (e + (days : Int) * 86400) g =
      if g.stream = k ∧ g.prot = true ∧ g.holdAt = some e then { g with prot := false, holdAt := none } else g := by
  have hdue : ∀ x : Int, x + (days : Int) * 86400 ≤ e + (days : Int) * 86400 ↔ x ≤ e := fun x => by omega
  unfold holdOver
  cases hh : g.holdAt with
  | none => simp
  | some x =>
    dsimp only
    by_cases hsel : g.stream = k ∧ g.prot = true ∧ x = e
    · obtain ⟨hk, hp, rfl⟩ := hsel
      rw [if_pos ⟨hk, hp, (hdue x).mpr (Int.le_refl x)⟩, if_pos ⟨hk, hp, rfl⟩]
    · rw [if_neg fun hc => hsel ⟨hc.1, hc.2.1, Int.le_antisymm ((hdue x).mp hc.2.2) (hle hc.1 hc.2.1 x hh)⟩,
        if_neg fun hc => hsel ⟨hc.1, hc.2.1, Option.some.inj hc.2.2⟩]

theorem execHoldExpiry_idle {k : Fin 64} (h : s.tap = false)
    (hd : rowField s k 3 0 16 = 0 ∨ ∀ g ∈ held s k, g.prot = true → g.holdAt = none) : exec (.holdExpiry k) s = .next s := by
  refine (live_next s (holdExpiryEffect k) h).trans (congrArg _ ?_)
  unfold holdExpiryEffect
  dsimp only
  split
  · rfl
  · next e es hends =>
    rcases hd with hd | hd
    · exact if_pos hd
    · have hends' : holdEnds k s = e :: es := hends
      obtain ⟨g, hg, hp, he⟩ := mem_holdEnds.mp (hends' ▸ List.mem_cons_self)
      exact absurd (hd g hg hp) (by simp [he])

/-- Holds of a stream run out at an instant. -/
def holdsRunOut (k days : Nat) (due : Int) (s : State) : State :=
  capReview (modStore (fun x => { x with segs := x.segs.map (holdOver k days due) }) (waitUntil (poweredAt s due.toNat) s))

theorem holdsRunOut_clk (k days : Nat) (due : Int) (s : State) :
    (holdsRunOut k days due s).clk = max s.clk (poweredAt s due.toNat) := by
  rw [holdsRunOut, (capReview_ev (by decide) (.refl _)).kept .clk, modStore_clk, waitUntil_clk]

theorem holdsRunOut_segs (k days : Nat) (due : Int) (s : State) :
    (holdsRunOut k days due s).store.segs = s.store.segs.map (holdOver k days due) := by
  refine (capReview_segs _).trans ?_
  show (waitUntil _ s).store.segs.map _ = _
  rw [waitUntil_store]

theorem execHoldExpiry_due {k : Fin 64} {e : Int} (h : s.tap = false) (hd : rowField s k 3 0 16 ≠ 0)
    (he : ∃ g ∈ held s k, g.prot = true ∧ g.holdAt = some e)
    (hle : ∀ g ∈ held s k, g.prot = true → ∀ x, g.holdAt = some x → e ≤ x) : exec (.holdExpiry k) s =
      .next (holdsRunOut k (rowField s k 3 0 16) (e + (rowField s k 3 0 16 : Int) * 86400) s) := by
  refine (live_next s (holdExpiryEffect k) h).trans (congrArg _ ?_)
  have hmem := mem_holdEnds.mpr he
  have hmin : ∀ x ∈ holdEnds k s, e ≤ x := fun x hx => by
    obtain ⟨g, hg, hp, hx⟩ := mem_holdEnds.mp hx
    exact hle g hg hp x hx
  unfold holdExpiryEffect
  dsimp only
  split
  · next hnil =>
    have hno : holdEnds k s = [] := hnil
    exact absurd (hno ▸ hmem) List.not_mem_nil
  · next x xs hends =>
    have hends' : holdEnds k s = x :: xs := hends
    rw [if_neg hd, foldl_min_eq (hends' ▸ hmem) (hends' ▸ hmin)]
    rfl

/-! ### O45 -/

theorem held_windowOpened (k trig row t : Nat) (s : State) : held (windowOpened k trig row t s) k = held s k := rfl

theorem window_windowOpened (k trig row t : Nat) (s : State) :
    (stream (windowOpened k trig row t s) k).window = some (lockStart k t s, lockStop k t s) :=
  congrArg Stream.window (stream_modStream k _ s)

/-- With no segment held, the window of a running stream stands open. -/
theorem lockTrigger_opens_empty {t : Nat} (hw : (stream s k).window = none) (h1 : (stream s k).state = 1)
    (hnil : held s k = []) (hp : ¬ (rowField s k 0 20 1 = 0 ∧ mayProtect s = false)) :
    (lockTrigger k trig row t s).2 = 0
      ∧ (stream (lockTrigger k trig row t s).1 k).window = some (lockStart k t s, lockStop k t s) := by
  have hcov : coveredProtected k trig row t s = windowOpened k trig row t s := by
    rw [coveredProtected, coveredSeqs, held_windowOpened, hnil, List.filter_nil, List.map_nil, List.mergeSort_nil]
    rfl
  rw [lockTrigger_opens hw hp, if_neg (by omega)]
  refine ⟨rfl, (window_capReview k _).trans ?_⟩
  rw [lockMarked, hcov, window_windowOpened, if_pos Option.isSome_some, window_queueMarker, window_windowOpened]

/-- Under CAP_POLICY 1 a lock protects the segments its window covers. -/
theorem lockTrigger_segs {t : Nat} (hw : (stream s k).window = none) (h1 : (stream s k).state = 1)
    (hp : rowField s k 0 20 1 = 1) (hn : ((held s k).map (·.seq)).Nodup) :
    (lockTrigger k trig row t s).1.store.segs =
      guardAll k (coveredSeqs k (lockStart k t s) (windowOpened k trig row t s)) s.store.segs := by
  have hopen : rowField (windowOpened k trig row t s) k 0 20 1 = 1 :=
    ((fieldsKept_windowOpened k trig row t s).policy k).trans hp
  have hcov : (coveredProtected k trig row t s).store.segs = _ :=
    protectAll_protects (coveredSeqs k (lockStart k t s) (windowOpened k trig row t s)) hopen hn
  rw [lockTrigger_opens hw (by omega), if_neg (by omega)]
  refine (capReview_segs _).trans ?_
  rw [lockMarked]
  split
  · exact (segs_queueMarker _ _ _ _ _ _ _).trans hcov
  · exact hcov

theorem mem_coveredSeqs {g : Segment} {t : Nat} (hg : g ∈ held s k) (h : g.closed = false
    ∨ lockStart k t s ≤ g.lastTs.1 * 1000000000 + g.lastTs.2) :
    g.seq ∈ coveredSeqs k (lockStart k t s) (windowOpened k trig row t s) := by
  rw [coveredSeqs, List.mem_mergeSort, held_windowOpened]
  refine List.mem_map.mpr ⟨g, List.mem_filter.mpr ⟨hg, ?_⟩, rfl⟩
  rcases h with h | h <;> simp [h]

theorem execStoreTrigEdge_acts {k : Fin 2} (h : s.tap = false) (hf : fenced s 17 = false) :
    exec (.storeTrigEdge k) s = .next (forAll 64 (fun i s =>
      if rowField s i 1 (22 + k) 1 = 1 then (lockTrigger i k 0 (nowNs s) s).1 else s) s) :=
  (live_next s (storeTrigEdgeEffect k) h).trans (congrArg _ (if_neg (by simp [hf])))

/-- Settles O45: a lock acts by whether its stream has a window and by the cap (`lockTrigger_…`); under CAP_POLICY 1 it
guards each segment it covers (`protectAll_protects`), and the window's end and the earliest hold are maps over the
segments. -/
theorem eventLocksProtectAndExpire : Obligations.EventLocksProtectAndExpire := by
  refine ⟨fun s k trig row now a b hw => ?_, fun s k trig row now hw hp hm => ?_, fun s k trig row now hw h1 hnil hp => ?_,
    fun s k trig row now hw h1 hp hn g hg hcov => ?_,
    fun s k h => ⟨fun hf => ?_, fun hf => ⟨execStoreTrigEdge_acts h hf, fun hno => ?_, fun i hi hone => ?_⟩⟩,
    fun s k h => ⟨fun hw => ?_, fun a b hw => ?_⟩, fun s k days h hd => ⟨fun hidle => ?_, fun e h0 he hle => ?_⟩⟩
  · rw [lockTrigger_moved hw]
    refine ⟨rfl, (window_queueMarker _ _ _ _ _ _ _).trans ?_⟩
    rw [stream_modStream, lockStop]
  · rw [lockTrigger_barred hw hp hm]
    refine ⟨rfl, ?_⟩
    dsimp only
    rw [raise_store, segs_queueMarker]
  · have hopen : ¬ (rowField s k 0 20 1 = 0 ∧ mayProtect s = false) := by
      rintro ⟨h0, hbar⟩
      rcases hp with hp | hp
      · exact absurd hbar (by simp [hp])
      · omega
    have hwin := lockTrigger_opens_empty (trig := trig) (row := row) (t := now) hw h1 hnil hopen
    rw [lockStart, lockStop] at hwin
    exact hwin
  · refine ⟨guarded g, List.mem_filter.mpr ⟨?_, (List.mem_filter.mp hg).2⟩, rfl, rfl, rfl, rfl⟩
    rw [lockTrigger_segs hw h1 hp hn]
    have hk : g.stream = k := by simpa using (List.mem_filter.mp hg).2
    exact List.mem_map.mpr ⟨g, (List.mem_filter.mp hg).1, if_pos ⟨hk, mem_coveredSeqs hg (by rw [lockStart]; exact hcov)⟩⟩
  · exact (live_next s (storeTrigEdgeEffect k) h).trans (congrArg _ (if_pos hf))
  · exact (execStoreTrigEdge_acts h hf).trans (congrArg _ (forAll_id fun j hj => if_neg (hno j hj)))
  · have hkept := fieldsKept_lockTrigger i k 0 (nowNs s) s
    have hat := forAll_at (s := s) (f := fun i s => if rowField s i 1 (22 + k) 1 = 1 then (lockTrigger i k 0 (nowNs s) s).1 else s)
      hi (fun j hj hne => if_neg fun h1 => hne ((hone j hj).mp h1)) fun j hj hne => by
        rw [if_pos ((hone i hi).mpr rfl), hkept.trig j hj]
        exact if_neg fun h1 => hne ((hone j hj).mp h1)
    refine (execStoreTrigEdge_acts h hf).trans (congrArg _ (hat.trans ?_))
    exact if_pos ((hone i hi).mpr rfl)
  · refine (live_next s (lockWindowEndEffect k) h).trans (congrArg _ ?_)
    unfold lockWindowEndEffect
    rw [hw]
  · refine ⟨_, execLockWindowEnd_closes h hw, ?_, windowRunOut_clk k b s, fun g hg hp => ?_, fun g hg hp => ?_⟩
    · refine (window_capReview _ _).trans ?_
      rw [stream_modStream]
    · obtain ⟨hmem, hstream⟩ := List.mem_filter.mp hg
      rw [windowRunOut_segs] at hmem
      obtain ⟨g0, -, rfl⟩ := List.mem_map.mp hmem
      obtain ⟨hs0, -, hp0⟩ := holdBegun_keeps k (poweredSec (windowRunOut k b s)) g0
      rw [holdBegun_holdAt (hs0.symm.trans (by simpa using hstream)) (hp0.symm.trans hp)]
      rfl
    · obtain ⟨hmem, hstream⟩ := List.mem_filter.mp hg
      obtain ⟨hs0, hq0, hp0⟩ := holdBegun_keeps k (poweredSec (windowRunOut k b s)) g
      refine ⟨holdBegun k (poweredSec (windowRunOut k b s)) g, List.mem_filter.mpr ⟨?_, by rw [hs0]; exact hstream⟩, hq0,
        hp0.trans hp, holdBegun_holdAt (by simpa using hstream) hp⟩
      rw [windowRunOut_segs]
      exact List.mem_map_of_mem hmem
  · subst hd
    exact execHoldExpiry_idle h hidle
  · subst hd
    refine ⟨_, execHoldExpiry_due h h0 he hle, holdsRunOut_clk _ _ _ s, ?_⟩
    rw [holdsRunOut_segs]
    refine List.map_congr_left fun g hg => holdOver_earliest _ fun hk hp x hx => ?_
    exact hle g (List.mem_filter.mpr ⟨hg, by simp [hk]⟩) hp x hx

end Sys2Proof.Machine
end

section
/-! PROOFS. Blocks moved, retired, erased and journalled (chapter 12): O47. -/

namespace Sys2Proof.Machine

variable {s t u : State} {b : Nat}

/-! ### Blocks of STATE 0 -/

/-- The block the free-block search prefers has STATE 0. -/
theorem freeBlock_free {better : Nat → Nat → Bool} {f : Nat} (h : freeBlock s better = some f) :
    f < s.store.blocks.length ∧ (block s f).state = 0 := by
  have hfold : ∀ (l : List Nat) (best : Option Nat), (∀ x ∈ l, x < s.store.blocks.length) →
      (∀ x, best = some x → x < s.store.blocks.length ∧ (block s x).state = 0) →
      ∀ x, l.foldl (fun best b =>
        let x := block s b
        if x.state ≠ 0 ∨ s.store.erasing.contains b then best
        else match best with
          | some a => if better x.eraseCount (block s a).eraseCount then some b else best
          | none => some b) best = some x → x < s.store.blocks.length ∧ (block s x).state = 0 := by
    intro l
    induction l with
    | nil => exact fun best _ hb x hx => hb x hx
    | cons i l ih =>
      intro best hl hb x hx
      refine ih _ (fun y hy => hl y (List.mem_cons_of_mem _ hy)) (fun y hy => ?_) x hx
      dsimp only at hy
      split at hy
      · exact hb y hy
      · next hfree =>
        have hi : i < s.store.blocks.length ∧ (block s i).state = 0 :=
          ⟨hl i List.mem_cons_self, Decidable.not_not.mp fun hne => hfree (.inl hne)⟩
        split at hy
        · split at hy
          · exact Option.some.inj hy ▸ hi
          · exact hb y hy
        · exact Option.some.inj hy ▸ hi
  exact hfold _ none (fun x hx => List.mem_range.mp hx) (fun x hx => nomatch hx) f h

/-- The greatest erase count of a list is at least each of its own. -/
theorem le_foldl_max {l : List BlockState} {x : BlockState} (hx : x ∈ l) (m : Nat) :
    x.eraseCount ≤ l.foldl (fun m x => max m x.eraseCount) m := by
  have hgrows : ∀ (l : List BlockState) (m : Nat), m ≤ l.foldl (fun m x => max m x.eraseCount) m := by
    intro l
    induction l with
    | nil => exact fun m => Nat.le_refl m
    | cons y l ih => exact fun m => (Nat.le_max_left m _).trans (ih _)
  induction l generalizing m with
  | nil => exact nomatch hx
  | cons y l ih =>
    rcases List.mem_cons.mp hx with rfl | h
    · exact (Nat.le_max_right m _).trans (hgrows l _)
    · exact ih h _

/-- Erase counts of the free and the written blocks. -/
theorem eraseCount_le_of_free (hb : b < s.store.blocks.length) (h0 : (block s b).state = 0) : (block s b).eraseCount ≤
    (s.store.blocks.filter fun x => decide (x.state ≤ 1)).foldl (fun m x => max m x.eraseCount) 0 := by
  refine le_foldl_max (List.mem_filter.mpr ⟨?_, by simp [h0]⟩) 0
  rw [block, List.getD_eq_getElem?_getD, List.getElem?_eq_getElem hb]
  exact List.getElem_mem hb

/-! ### A block that retires (R380 to R382) -/

theorem spareTaken_leaves (s : State) : (spareTaken s).store.erasing = s.store.erasing ∧ (spareTaken s).store.segs = s.store.segs
    ∧ (spareTaken s).store.medium = s.store.medium := by
  unfold spareTaken
  split <;> exact ⟨rfl, rfl, rfl⟩

/-- The spare taken is no block of another STATE. -/
theorem block_spareTaken (h : (block s b).state ≠ 3) : block (spareTaken s) b = block s b := by
  unfold spareTaken
  split
  · next i hi =>
    have h3 := List.find?_some hi
    refine block_modBlock_ne (fun hbi => h ?_) _ s
    rw [hbi]
    exact beq_iff_eq.mp h3
  · rfl

/-- A retired block has its STATE. -/
theorem retire_state (hb : b < s.store.blocks.length) {st : Nat} (h3 : st ≠ 3) : (block (retire b st s) b).state = st := by
  have hst : (block (retiring b st s) b).state = st := by
    exact congrArg BlockState.state (block_modBlock_same hb fun x => { x with state := st, pending := false })
  rw [(judged_retire b st s).block, block_spareTaken (by rw [hst]; exact h3), hst]

theorem retire_erasing (b st : Nat) (s : State) : (retire b st s).store.erasing = s.store.erasing :=
  (judged_retire b st s).erasing.trans (spareTaken_leaves _).1

/-- Where MEDIUM stands, retiring leaves the segments. -/
theorem retire_segs {st : Nat} (h : (retire b st s).store.medium = s.store.medium) :
    (retire b st s).store.segs = s.store.segs := by
  obtain ⟨-, hsegs, hmed⟩ := spareTaken_leaves (retiring b st s)
  exact ((judged_retire b st s).segs (h.trans hmed.symm)).1.trans hsegs

theorem eraseIssue_segs (h : (eraseIssue b s).store.medium = s.store.medium) :
    (eraseIssue b s).store.segs = s.store.segs := by
  obtain h' | h' | h' := eraseIssue_cases b s
  · rw [h'] at h ⊢
    exact retire_segs h
  · rw [h'] at h ⊢
    exact retire_segs h
  · rw [h'] at h ⊢
    exact ((judged_judgeHealth (eraseIssued b s)).segs h).1

/-! ### A block that moves (R344, R384) -/

/-- What block a holds stands in block b, before a is erased. -/
def moved (a b : Nat) (s : State) : State :=
  modJournal (fun j => { j with system := j.system.map fun i => if i = a then b else i })
    (modStore (fun x => { x with segs := x.segs.map fun g => if g.block = a then { g with block := b } else g })
      (modBlock b (fun y => { y with state := (block s a).state, age := 0, maxCorr := 0, pending := false }) s))

theorem moveBlock_eq (a b : Nat) (s : State) : moveBlock a b s = eraseIssue a (moved a b s) := rfl

theorem built_moveBlock (a b : Nat) (s : State) : Built s (moveBlock a b s) := by
  rw [moveBlock_eq]
  refine Built.trans ?_ (built_eraseIssue a _)
  unfold moved
  refine Built.trans ?_ (built_modJournal _ _)
  refine Built.trans (u := modBlock b _ s) ?_ (built_modStore _ _ (fun _ => rfl) fun _ => rfl)
  exact built_modBlock b _ s

theorem moveBlock_segs {a : Nat} (h : (moveBlock a b s).store.medium = s.store.medium) : (moveBlock a b s).store.segs =
    s.store.segs.map fun g => if g.block = a then { g with block := b } else g :=
  (eraseIssue_segs (b := a) (s := moved a b s) h).trans rfl

/-- What the move of a block does, by what reading it gave. -/
theorem copyBlock_of_read {a : Nat} {rs : List PageRead} {failed : Bool} {got : Option (List Byte)}
    (h : readPages ((programmedPages s a).map fun i => (a, i)) rs s = (u, got)) : copyBlock a b rs failed s =
      if got.isNone then (badBlock a u, false)
      else if failed then (retire b 5 (nandIssue ((programmedPages s a).map fun i => .pageProgram b i) u), false)
        else (moveBlock a b (nandIssue ((programmedPages s a).map fun i => .pageProgram b i) u), true) := by
  unfold copyBlock
  dsimp only
  rw [h]

theorem execCoppiceRefresh_idle {rs : List PageRead} {failed : Bool} (h : s.tap = false) (hidle : storeReads s = false
    ∨ wantsRefresh s b = false ∨ mayRefresh s b = false ∨ leastWorn s = none) :
    exec (.coppiceRefresh b ⟨rs, failed⟩) s = .next s := by
  refine (live_next s (coppiceRefreshEffect b rs failed) h).trans (congrArg _ ?_)
  unfold coppiceRefreshEffect
  rcases hidle with hr | hr | hr | hr
  · rw [if_pos (.inl (by simp [hr]))]
  · rw [if_pos (.inr (.inl (by simp [hr])))]
  · rw [if_pos (.inr (.inr (by simp [hr])))]
  · rw [hr]
    exact ite_self _

theorem execCoppiceRefresh_moves {rs : List PageRead} {failed : Bool} {f : Nat} (h : s.tap = false)
    (hr : storeReads s = true) (hw : wantsRefresh s b = true) (hm : mayRefresh s b = true) (hf : leastWorn s = some f) :
    exec (.coppiceRefresh b ⟨rs, failed⟩) s = .next (if (copyBlock b f rs failed s).2 then
      bumpParam 0x420003 1 (copyBlock b f rs failed s).1 else (copyBlock b f rs failed s).1) := by
  refine (live_next s (coppiceRefreshEffect b rs failed) h).trans (congrArg _ ?_)
  unfold coppiceRefreshEffect
  rw [if_neg (by simp [hr, hw, hm]), hf]
  dsimp only
  split <;> next hc => rw [hc]; rfl

/-- A move that is made: the count rises, and the segments move where MEDIUM stands. -/
theorem refresh_moves {f : Nat} (h : (bumpParam 0x420003 1 (moveBlock b f u)).store.medium = u.store.medium) :
    (bumpParam 0x420003 1 (moveBlock b f u)).store.segs =
      u.store.segs.map fun g => if g.block = b then { g with block := f } else g := moveBlock_segs h

theorem refresh_counts (f : Nat) (u : State) :
    pw (bumpParam 0x420003 1 (moveBlock b f u)) 0x420003 = word (stick 24 (pn u 0x420003) 1) := by
  have hpn : pn (moveBlock b f u) 0x420003 = pn u 0x420003 :=
    congrArg BitVec.toNat ((built_moveBlock b f u).pw _ (by decide) (by decide))
  rw [bumpParam, pw_setPw_same, hpn]

/-- Segments whose block is the source go to the destination, and no other changes. -/
theorem mem_map_move {f : Nat} {gs : List Segment} :
    (∀ g ∈ gs, g.block = b → ∃ h ∈ gs.map fun g => if g.block = b then { g with block := f } else g,
      h.block = f ∧ h.stream = g.stream ∧ h.seq = g.seq ∧ h.data = g.data ∧ h.prot = g.prot)
    ∧ ∀ h ∈ gs.map fun g => if g.block = b then { g with block := f } else g, h.block = b → b = f := by
  refine ⟨fun g hg hb => ⟨_, List.mem_map_of_mem hg, ?_⟩, fun h hh hb => ?_⟩
  · rw [if_pos hb]
    exact ⟨rfl, rfl, rfl, rfl, rfl⟩
  · obtain ⟨g, -, rfl⟩ := List.mem_map.mp hh
    by_cases hg : g.block = b
    · rw [if_pos hg] at hb
      exact hb.symm
    · rw [if_neg hg] at hb
      exact absurd hb hg

/-! ### Erases that end (R380) -/

/-- The erase of a block is over. -/
def eraseOver (b : Nat) (s : State) : State :=
  modStore (fun x => { x with erasing := x.erasing.filter (· != b), uncorr := x.uncorr.filter (· != b) }) s

theorem not_mem_eraseOver (b : Nat) (s : State) : b ∉ (eraseOver b s).store.erasing := fun h => by
  have h := (List.mem_filter.mp h).2
  simp at h

theorem execBlockEraseEnd_erasing {x : Bool} (h : s.tap = false) (hb : b ∈ s.store.erasing) :
    exec (.blockEraseEnd b x) s = .next (if (systemList s).contains b then
        (if x then (replaceSystem b 5 (eraseOver b s)).1 else eraseOver b s)
      else if x then retire b 5 (eraseOver b s)
      else capReview (modBlock b (fun x => { x with state := 0 }) (eraseOver b s))) :=
  (live_next s (blockEraseEndEffect b x) h).trans (congrArg _ (if_neg (by simp [hb])))

/-- A system block that is replaced has its STATE, and another stands in its place. -/
theorem replaceSystem_retires (hb : b < s.store.blocks.length) : (block (replaceSystem b 5 s).1 b).state = 5
    ∧ (replaceSystem b 5 s).1.store.erasing = s.store.erasing := by
  have hst := retire_state (s := s) hb (st := 5) (by decide)
  unfold replaceSystem
  dsimp only
  cases hl : leastWorn (retire b 5 s) with
  | none => exact ⟨hst, retire_erasing b 5 s⟩
  | some f =>
    have hne : b ≠ f := fun hbf => by
      have h0 := (freeBlock_free hl).2
      rw [← hbf, hst] at h0
      exact absurd h0 (by decide)
    dsimp only
    refine ⟨?_, retire_erasing b 5 s⟩
    exact (congrArg BlockState.state (block_modBlock_ne hne (fun y => { y with state := 2, age := 0, maxCorr := 0, pending := false }) _)).trans hst

/-! ### The journal of the powered time (R371) -/

/-- The journal keeps its powered time, its label and the size of the system area. -/
def JournalKept (s t : State) : Prop := ∀ j, s.store.journal = some j → ∃ m, t.store.journal = some m
  ∧ m.powered = j.powered ∧ m.label = j.label ∧ m.system.length = j.system.length

namespace JournalKept

theorem refl (s : State) : JournalKept s s := fun j hj => ⟨j, hj, rfl, rfl, rfl⟩

theorem trans (h : JournalKept s u) (k : JournalKept u t) : JournalKept s t := fun j hj => by
  obtain ⟨m, hm, hp, hl, hs⟩ := h j hj
  obtain ⟨n, hn, kp, kl, ks⟩ := k m hm
  exact ⟨n, hn, kp.trans hp, kl.trans hl, ks.trans hs⟩

theorem of_eq (h : t.store.journal = s.store.journal) : JournalKept s t := fun j hj => ⟨j, h.trans hj, rfl, rfl, rfl⟩

end JournalKept

theorem journalKept_modJournal (f : Journal → Journal)
    (hf : ∀ j, (f j).powered = j.powered ∧ (f j).label = j.label ∧ (f j).system.length = j.system.length) (s : State) :
    JournalKept s (modJournal f s) := fun j hj => ⟨f j, congrArg (Option.map f) hj, hf j⟩

theorem journalKept_modBlock (b : Nat) (f : BlockState → BlockState) (s : State) : JournalKept s (modBlock b f s) :=
  fun _ hj => ⟨_, congrArg (Option.map (Journal.note b (f (block s b)))) hj, rfl, rfl, rfl⟩

theorem journalKept_retire (b st : Nat) (s : State) : JournalKept s (retire b st s) := by
  have hretiring : JournalKept s (retiring b st s) := by
    unfold retiring
    refine (journalKept_modBlock b _ s).trans (journalKept_modJournal _ ?_ _)
    exact fun j => ⟨rfl, rfl, rfl⟩
  have hspare : JournalKept (retiring b st s) (spareTaken (retiring b st s)) := by
    unfold spareTaken
    split
    · exact journalKept_modBlock _ _ _
    · exact .refl _
  exact (hretiring.trans hspare).trans (.of_eq (judged_retire b st s).journal)

theorem journalKept_replaceSystem (b st : Nat) (s : State) : JournalKept s (replaceSystem b st s).1 := by
  have hr := journalKept_retire b st s
  unfold replaceSystem
  dsimp only
  split
  · exact hr
  · dsimp only
    refine hr.trans ((journalKept_modBlock _ _ _).trans (journalKept_modJournal _ ?_ _))
    exact fun j => ⟨rfl, rfl, List.length_map _⟩

theorem journalKept_journalWrite (s : State) : JournalKept s (journalWrite s) := by
  have hdrawn : JournalKept s (drawn s) := .of_eq rfl
  unfold journalWrite
  split
  · exact hdrawn.trans (journalKept_replaceSystem _ 5 _)
  · exact hdrawn

/-- The journal records the powered time. -/
theorem recordTime_journal {j : Journal} (hj : s.store.journal = some j) : ∃ m, (recordTime s).store.journal = some m
    ∧ m.powered = poweredSec s ∧ m.label = j.label ∧ m.system = j.system :=
  ⟨_, congrArg (Option.map _) hj, rfl, rfl, rfl⟩

/-- Settles O47: a move is `readPages` and then `moveBlock` or `retire`; the segments it leaves follow from where MEDIUM
stands (`eraseIssue_segs`), and a block that retires is never the free block that replaces it. -/
theorem blocksAreCaredFor : Obligations.BlocksAreCaredFor := by
  refine ⟨fun s b rs failed h => ⟨execCoppiceRefresh_idle h, fun f ps u got hr hw hm hf hps hread => ?_⟩,
    fun s a b rs failed ps u got h hmed hr ha hb hl hlt hps hread => ?_,
    fun s b h => ⟨fun hno x => ?_, fun hb hlen => ⟨⟨_, execBlockEraseEnd_erasing h hb, ?_⟩, ⟨_, execBlockEraseEnd_erasing h hb, ?_⟩⟩⟩,
    fun s h => ⟨fun hnil => ?_, fun ha => ?_, fun hne ha hp => ?_⟩, fun s h => ⟨fun hr => ?_, fun hr hne hp => ?_⟩⟩
  · subst hps
    have hcopy := copyBlock_of_read (b := f) (failed := failed) hread.symm
    have hexec := execCoppiceRefresh_moves (rs := rs) (failed := failed) h hr hw hm hf
    have hred := pagesRead_readPages ((programmedPages s b).map fun i => (b, i)) rs s
    have hnote := readPages_notes (s := s) ((programmedPages s b).map fun i => (b, i)) rs fun p hp => by
      obtain ⟨i, -, rfl⟩ := List.mem_map.mp hp
      rfl
    rw [← hread] at hred hnote
    dsimp only at hred hnote
    rw [hcopy] at hexec
    cases got with
    | none => exact ⟨_, hexec, rfl, hnote rfl, hred.keeps Store.segs fun _ => rfl⟩
    | some x =>
      cases failed with
      | true => exact ⟨_, hexec, rfl⟩
      | false =>
        have hmoved : exec (.coppiceRefresh b ⟨rs, false⟩) s = .next (bumpParam 0x420003 1
            (moveBlock b f (nandIssue ((programmedPages s b).map fun i => .pageProgram f i) u))) := hexec
        refine ⟨_, hmoved, ?_⟩
        dsimp only
        rw [if_neg (by decide)]
        refine ⟨(refresh_counts f _).trans (congrArg (fun n => word (stick 24 n 1)) (congrArg BitVec.toNat (pw_congr hred.params _))), fun hsame => ?_⟩
        have hu : u.store.segs = s.store.segs := hred.keeps Store.segs fun _ => rfl
        have hum : u.store.medium = s.store.medium := hred.keeps Store.medium fun _ => rfl
        have hsegs := refresh_moves (u := nandIssue ((programmedPages s b).map fun i => .pageProgram f i) u) (hsame.trans hum.symm)
        have hsegs' := hsegs.trans (congrArg (List.map _) hu)
        rw [hsegs']
        exact mem_map_move
  · subst hps
    have hcopy := copyBlock_of_read (b := b) (failed := failed) hread.symm
    obtain ⟨hblen, hb0⟩ := freeBlock_free hb
    have hmax := eraseCount_le_of_free hblen hb0
    refine (live_next s (wearLevellingMoveEffect rs failed) h).trans (congrArg _ ?_)
    unfold wearLevellingMoveEffect
    rw [ha, hb]
    dsimp only
    rw [if_neg (by simp only [hmed, hr]; simp; omega), hl]
    dsimp only
    rw [hcopy]
    cases got with
    | none => rfl
    | some x => cases failed <;> rfl
  · exact (live_next s (blockEraseEndEffect b x) h).trans (congrArg _ (if_pos (by simp [hno])))
  · by_cases hsys : (systemList s).contains b = true
    · rw [if_pos hsys, if_pos hsys, if_neg (by decide)]
      exact ⟨not_mem_eraseOver b s, rfl⟩
    · rw [if_neg hsys, if_neg hsys, if_neg (by decide)]
      refine ⟨?_, ?_⟩
      · rw [(judged_capReview _).erasing]
        exact not_mem_eraseOver b s
      · rw [(judged_capReview _).block]
        exact congrArg BlockState.state (block_modBlock_same (s := eraseOver b s) hlen fun x => { x with state := 0 })
  · by_cases hsys : (systemList s).contains b = true
    · rw [if_pos hsys, if_pos rfl]
      obtain ⟨hst, he⟩ := replaceSystem_retires (s := eraseOver b s) hlen
      exact ⟨hst, by rw [he]; exact not_mem_eraseOver b s⟩
    · rw [if_neg hsys, if_pos rfl]
      exact ⟨retire_state (s := eraseOver b s) hlen (by decide), by rw [retire_erasing]; exact not_mem_eraseOver b s⟩
  · exact (live_next s ageDayEffect h).trans (congrArg _ (if_pos (.inl hnil)))
  · exact (live_next s ageDayEffect h).trans (congrArg _ (if_pos (.inr ha)))
  · refine (live_next s ageDayEffect h).trans (congrArg _ ((if_neg (by simp [hne, ha])).trans ?_))
    rw [waitUntil_past hp]
    rfl
  · exact (live_next s poweredTimeJournalEffect h).trans (congrArg _ (if_pos (.inl (by simp [hr]))))
  · have hexec : exec .poweredTimeJournal s =
        .next (journalWrite (recordTime (modStore (fun x => { x with hours := x.hours + 1 }) s))) := by
      refine (live_next s poweredTimeJournalEffect h).trans (congrArg _ ((if_neg (by simp [hr, hne])).trans ?_))
      rw [waitUntil_past hp]
    refine ⟨hexec, fun j hj => ?_⟩
    obtain ⟨i, hi, ipow, ilab, isys⟩ := recordTime_journal (s := modStore (fun x => { x with hours := x.hours + 1 }) s) hj
    obtain ⟨m, hm, hpow, hlab, hsys⟩ := journalKept_journalWrite _ i hi
    exact ⟨_, m, hexec, hm, hpow.trans ipow, hlab.trans ilab, hsys.trans (congrArg List.length isys)⟩

end Sys2Proof.Machine
end

section
/-! PROOFS. Records built into pages, pages programmed, and the write watchdog (chapter 11): O44. -/

namespace Sys2Proof.Machine

variable {s t u : State} {k id since : Nat} {g : Segment} {r : List Byte} {ts : Nat} {p : Page}

/-! ### The bytes of a record (R337, R339) -/

/-- The bytes of a record before its padding. -/
def recordBody (type : Nat) (tag : List Word) (ts rseq : Nat) (payload : List Byte) : List Byte :=
  leBytes 2 (32 + payload.length) ++ [BitVec.ofNat 8 type, 0] ++ tagBytes tag ++ leBytes 6 (secNs ts).1
    ++ leBytes 4 (secNs ts).2 ++ leBytes 2 (ts % 65536) ++ leBytes 4 rseq ++ payload

theorem recordBytes_eq (type : Nat) (tag : List Word) (ts rseq : Nat) (payload : List Byte) :
    recordBytes_ type tag ts rseq payload = recordBody type tag ts rseq payload
      ++ List.replicate ((4 - (recordBody type tag ts rseq payload).length % 4) % 4) 0 := rfl

theorem length_recordBody (type : Nat) (tag : List Word) (ts rseq : Nat) (payload : List Byte) :
    (recordBody type tag ts rseq payload).length = 20 + (tagBytes tag).length + payload.length := by
  simp only [recordBody, List.length_append, leBytes_length, List.length_cons, List.length_nil]
  omega

theorem length_recordBytes (type : Nat) (tag : List Word) (ts rseq : Nat) (payload : List Byte) :
    (recordBytes_ type tag ts rseq payload).length = (recordBytes_ type tag ts 0 payload).length
      ∧ (recordBytes_ type tag ts rseq payload).length % 4 = 0 ∧ 0 < (recordBytes_ type tag ts rseq payload).length := by
  have hlen : ∀ n, (recordBytes_ type tag ts n payload).length = 20 + (tagBytes tag).length + payload.length
      + (4 - (20 + (tagBytes tag).length + payload.length) % 4) % 4 := fun n => by
    rw [recordBytes_eq, List.length_append, List.length_replicate, length_recordBody]
  rw [hlen, hlen]
  refine ⟨rfl, ?_, ?_⟩ <;> omega

/-- The length of a waiting item's record does not depend on its index, is a multiple of 4 and not 0. -/
theorem length_itemRecord (s : State) (w : WaitItem) (n : Nat) : (itemRecord s w n).1.length = (itemRecord s w 0).1.length
    ∧ (itemRecord s w n).1.length % 4 = 0 ∧ 0 < (itemRecord s w n).1.length := by
  cases w with
  | frame id since => exact length_recordBytes _ _ _ _ _
  | marker type payload ts since => exact length_recordBytes _ _ _ _ _

theorem length_fillRecord {n : Nat} (h : 3 ≤ n) : (fillRecord n).length = n := by
  simp only [fillRecord, List.length_append, leBytes_length, List.length_replicate, List.length_cons, List.length_nil]
  omega

/-! ### The open segment as a record joins it (R340) -/

/-- A search that a change of every element leaves as it was. -/
theorem find?_map_keeps {α : Type} (l : List α) (c : α → Bool) (f : α → α) (hc : ∀ x, c (f x) = c x) :
    (l.map f).find? c = (l.find? c).map f := by
  rw [List.find?_map]
  exact congrArg (Option.map f) (congrArg (List.find? · l) (funext hc))

/-- The open segment after a change of it that keeps its stream and that it is open. -/
theorem openSeg_modSeg (hg : openSeg s k = some g) (f : Segment → Segment)
    (hf : ∀ x, (f x).stream = x.stream ∧ (f x).closed = x.closed) : openSeg (modSeg k g.seq f s) k = some (f g) := by
  have hfind : s.store.segs.find? (fun x => x.stream == k && !x.closed) = some g := hg
  have hsel := List.find?_some hfind
  have hk : g.stream = k := by simpa using (Bool.and_eq_true_iff.mp hsel).1
  refine (find?_map_keeps _ _ (fun x => if x.stream = k ∧ x.seq = g.seq then f x else x) fun x => ?_).trans ?_
  · by_cases hx : x.stream = k ∧ x.seq = g.seq
    · rw [if_pos hx, (hf x).1, (hf x).2]
    · rw [if_neg hx]
  · rw [hfind]
    exact congrArg some (if_pos ⟨hk, rfl⟩)

/-- A segment with a frame's record. -/
def joined (r : List Byte) (ts : Nat) (g : Segment) : Segment :=
  { g with data := g.data ++ r, records := g.records + 1, flags := g.flags ||| 0, lastTs := secNs ts, firstTs := if g.records = 0 then secNs ts else g.firstTs }

/-- A frame's record is in the open segment, and its pages are ready. -/
def recordJoined (k : Nat) (g : Segment) (r : List Byte) (ts : Nat) (s : State) : State :=
  modStore (fun x => { x with pages := x.pages ++ newPages k g.seq g.data.length (g.data.length + r.length) (pageSize s) })
    (modSeg k g.seq (joined r ts) s)

/-- A frame's record is built and its reference completes. -/
def frameBuilt (k id : Nat) (g : Segment) (r : List Byte) (ts : Nat) (s : State) : State :=
  perfAdd 0x080001 1 (release id (modStore (fun x => { x with
    recent := (x.recent.filter fun e => decide (s.clk < e.1 + 500000000)) ++ [(s.clk, tagLen (frame s id).tag)] })
    (modStream k (fun x => { x with wait := [] }) (recordJoined k g r ts s))))

theorem buildItem_frame (hw : (stream s k).wait = [.frame id since]) (hb : buildBarred s k = false)
    (hg : openSeg s k = some g) (hr : itemRecord s (.frame id since) g.records = (r, ts))
    (hl : g.data.length + r.length ≤ imageLen s) : buildItem k .none s = (frameBuilt k id g r ts s, true) := by
  have hgap : (if (stream s k).wait.any WaitItem.isFrame then s
      else if (stream s k).wait = [] then s else closeGap k s) = s := by
    rw [hw]
    rfl
  unfold buildItem
  dsimp only
  rw [hgap, if_neg (by simp [hb]), hw]
  dsimp only
  rw [hg]
  dsimp only
  rw [hr]
  dsimp only
  rw [if_neg (by omega)]
  unfold frameBuilt recordJoined joined
  rfl

theorem frameBuilt_store (k id : Nat) (g : Segment) (r : List Byte) (ts : Nat) (s : State) : ∃ n,
    (frameBuilt k id g r ts s).store =
      { (modStream k (fun x => { x with wait := [] }) (recordJoined k g r ts s)).store with recent := n } := by
  unfold frameBuilt
  rw [store_perfAdd, (release_ev (by decide) (.refl _)).kept .store]
  exact ⟨_, rfl⟩

theorem frameBuilt_params (k id : Nat) (g : Segment) (r : List Byte) (ts : Nat) (s : State) :
    (frameBuilt k id g r ts s).params = s.params := by
  have hjoined : (recordJoined k g r ts s).params = s.params := by
    rw [recordJoined, modStore_params]
    exact modStore_params s _
  have hpopped : ∀ f, (modStream k f (recordJoined k g r ts s)).params = (recordJoined k g r ts s).params :=
    fun f => modStore_params _ _
  unfold frameBuilt
  rw [(perfAdd_ev (by decide) (.refl _)).kept .params, (release_ev (by decide) (.refl _)).kept .params, modStore_params,
    hpopped, hjoined]

theorem frameBuilt_openSeg (hg : openSeg s k = some g) : openSeg (frameBuilt k id g r ts s) k = some (joined r ts g) := by
  obtain ⟨n, hst⟩ := frameBuilt_store k id g r ts s
  have hopen := openSeg_modSeg hg (joined r ts) fun x => ⟨rfl, rfl⟩
  unfold openSeg at hopen ⊢
  rw [hst]
  exact hopen

theorem frameBuilt_stream (k id : Nat) (g : Segment) (r : List Byte) (ts : Nat) (s : State) :
    stream (frameBuilt k id g r ts s) k = { stream s k with wait := [] } := by
  obtain ⟨n, hst⟩ := frameBuilt_store k id g r ts s
  rw [stream, hst]
  exact stream_modStream k (fun x => { x with wait := [] }) (recordJoined k g r ts s)

theorem frameBuilt_pages (k id : Nat) (g : Segment) (r : List Byte) (ts : Nat) (s : State) :
    (frameBuilt k id g r ts s).store.pages = s.store.pages
      ++ newPages k g.seq g.data.length (g.data.length + r.length) (pageSize s)
    ∧ (frameBuilt k id g r ts s).store.medium = s.store.medium := by
  obtain ⟨n, hst⟩ := frameBuilt_store k id g r ts s
  rw [hst]
  exact ⟨rfl, rfl⟩

/-- With nothing waiting, nothing is built. -/
theorem buildItem_idle (hw : (stream s k).wait = []) : buildItem k .none s = (s, false) := by
  have hgap : (if (stream s k).wait.any WaitItem.isFrame then s
      else if (stream s k).wait = [] then s else closeGap k s) = s := by
    rw [hw]
    rfl
  unfold buildItem
  dsimp only
  rw [hgap]
  split
  · rfl
  · rw [hw]

/-! ### Pages that a build completes (R334, R339) -/

/-- A build that reaches the end of the page makes a page ready. -/
theorem newPages_grows {q a n size : Nat} (h0 : 0 < size) (h : size ≤ a % size + n) :
    0 < (newPages k q a (a + n) size).length := by
  have hdiv : a / size + 1 ≤ (a + n) / size := by
    rw [Nat.le_div_iff_mul_le h0, Nat.add_mul, Nat.one_mul]
    have hmod := Nat.div_add_mod' a size
    omega
  rw [newPages, if_neg (by omega), List.length_map, List.length_range]
  omega

/-- A build within the page makes none ready. -/
theorem newPages_within {q a n size : Nat} (h : a % size + n < size) : newPages k q a (a + n) size = [] := by
  have hdiv : (a + n) / size = a / size := by
    have hmod := Nat.div_add_mod' a size
    refine Nat.div_eq_of_lt_le ?_ ?_
    · omega
    · rw [Nat.add_mul, Nat.one_mul]
      omega
  rw [newPages, if_neg (by omega), hdiv, Nat.sub_self]
  rfl

theorem buildLoop_stops {n : Nat} {all : Bool} {v : State} (h : buildItem k .none s = (v, false)) :
    buildLoop k all .none (n + 1) s = v := by rw [buildLoop, h]

theorem buildLoop_turns {n : Nat} {v : State} (h : buildItem k .none s = (v, true)) : buildLoop k false .none (n + 1) s =
    if v.store.pages.length > s.store.pages.length then v else buildLoop k false .none n v := by
  rw [buildLoop, h]
  simp

/-- A segment filled up to the end of its page. -/
def filled (room : Nat) (g : Segment) : Segment := { g with data := g.data ++ fillRecord room }

theorem fillPage_fills (hg : openSeg s k = some g) (h0 : 0 < pageSize s) (hm : g.data.length % pageSize s ≠ 0) :
    openSeg (fillPage k s) k = some (filled (pageSize s - g.data.length % pageSize s) g)
      ∧ stream (fillPage k s) k = stream s k := by
  have hfill : fillPage k s = modStore (fun x => { x with
      pages := x.pages ++ newPages k g.seq g.data.length (g.data.length + (pageSize s - g.data.length % max 1 (pageSize s))) (pageSize s) })
        (modSeg k g.seq (filled (pageSize s - g.data.length % max 1 (pageSize s))) s) := by
    unfold fillPage
    rw [hg]
    exact if_neg (by omega)
  have hopen := openSeg_modSeg hg (filled (pageSize s - g.data.length % max 1 (pageSize s))) fun x => ⟨rfl, rfl⟩
  have hmax : max 1 (pageSize s) = pageSize s := by omega
  rw [hmax] at hfill hopen
  rw [hfill]
  exact ⟨hopen, rfl⟩

/-- Filling a page of whole words ends on its boundary. -/
theorem length_filled {a size : Nat} (h0 : 0 < size) (ha : a % 4 = 0) (hs : size % 4 = 0) :
    (a + (fillRecord (size - a % size)).length) % size = 0 := by
  have hlt := Nat.mod_lt a h0
  have hword : a % size % 4 = 0 := by
    rw [Nat.mod_mod_of_dvd a (Nat.dvd_of_mod_eq_zero hs)]
    exact ha
  rw [length_fillRecord (by omega)]
  have hmod := Nat.div_add_mod' a size
  have hsum : a + (size - a % size) = (a / size + 1) * size := by
    rw [Nat.add_mul, Nat.one_mul]
    omega
  rw [hsum, Nat.mul_mod_left]

/-! ### The page the store programs next (R335) -/

/-- The search for the next page, from a best so far. -/
def bestPage (s : State) (best : Option Page) (p : Page) : Option Page :=
  if !mayProgram s p then best
  else match best with
    | some b => if pagePriority s p < pagePriority s b then some p else best
    | none => some p

theorem nextPage_eq (s : State) : nextPage s = s.store.pages.foldl (bestPage s) none := rfl

/-- The page found is one of the pages that may be programmed, and of the least PRIORITY among them. -/
theorem foldl_bestPage (l : List Page) (best : Option Page) : (∀ p, l.foldl (bestPage s) best = some p →
      (best = some p ∨ (p ∈ l ∧ mayProgram s p = true))
      ∧ (∀ b, best = some b → pagePriority s p ≤ pagePriority s b)
      ∧ ∀ q ∈ l, mayProgram s q = true → pagePriority s p ≤ pagePriority s q)
    ∧ (l.foldl (bestPage s) best = none → best = none ∧ ∀ q ∈ l, mayProgram s q = false) := by
  induction l generalizing best with
  | nil =>
    refine ⟨fun p hp => ⟨.inl hp, fun b hb => ?_, fun q hq => nomatch hq⟩, fun h => ⟨h, fun q hq => nomatch hq⟩⟩
    rw [Option.some.inj (hb.symm.trans hp)]
  | cons x l ih =>
    obtain ⟨hsome, hnone⟩ := ih (bestPage s best x)
    have hstep : (mayProgram s x = false ∧ bestPage s best x = best)
        ∨ (mayProgram s x = true ∧ ∃ y, bestPage s best x = some y ∧ (y = x ∨ best = some y)
          ∧ pagePriority s y ≤ pagePriority s x ∧ ∀ b, best = some b → pagePriority s y ≤ pagePriority s b) := by
      cases hx : mayProgram s x with
      | false => exact .inl ⟨rfl, by simp [bestPage, hx]⟩
      | true =>
        refine .inr ⟨rfl, ?_⟩
        cases best with
        | none => exact ⟨x, by simp [bestPage, hx], .inl rfl, Nat.le_refl _, fun b hb => nomatch hb⟩
        | some b =>
          by_cases hlt : pagePriority s x < pagePriority s b
          · exact ⟨x, by simp [bestPage, hx, hlt], .inl rfl, Nat.le_refl _, fun c hc => Option.some.inj hc ▸ hlt.le⟩
          · exact ⟨b, by simp [bestPage, hx, hlt], .inr rfl, Nat.le_of_not_lt hlt, fun c hc => Option.some.inj hc ▸ Nat.le_refl _⟩
    refine ⟨fun p hp => ?_, fun h => ?_⟩
    · obtain ⟨hfrom, hbest, hleast⟩ := hsome p hp
      rcases hstep with ⟨hx, hsame⟩ | ⟨hx, y, hy, hyfrom, hyx, hyb⟩
      · rw [hsame] at hfrom hbest
        refine ⟨hfrom.imp_right fun h => ⟨List.mem_cons_of_mem _ h.1, h.2⟩, hbest, fun q hq hm => ?_⟩
        rcases List.mem_cons.mp hq with rfl | hq
        · simp [hx] at hm
        · exact hleast q hq hm
      · have hpy := hbest y hy
        refine ⟨?_, fun b hb => hpy.trans (hyb b hb), fun q hq hm => ?_⟩
        · rcases hfrom with hfrom | hfrom
          · rcases hyfrom with hyx' | hyb'
            · exact .inr ⟨List.mem_cons.mpr (.inl ((Option.some.inj (hfrom.symm.trans hy)).trans hyx')),
                (Option.some.inj (hfrom.symm.trans hy)).trans hyx' ▸ hx⟩
            · exact .inl (hyb'.trans (hy.symm.trans hfrom))
          · exact .inr ⟨List.mem_cons_of_mem _ hfrom.1, hfrom.2⟩
        · rcases List.mem_cons.mp hq with rfl | hq
          · exact hpy.trans hyx
          · exact hleast q hq hm
    · obtain ⟨hbest, hrest⟩ := hnone h
      rcases hstep with ⟨hx, hsame⟩ | ⟨-, y, hy, -⟩
      · refine ⟨hsame ▸ hbest, fun q hq => ?_⟩
        rcases List.mem_cons.mp hq with rfl | hq
        · exact hx
        · exact hrest q hq
      · exact nomatch hy.symm.trans hbest

theorem nextPage_chosen (h : nextPage s = some p) : p ∈ s.store.pages ∧ mayProgram s p = true
    ∧ ∀ q ∈ s.store.pages, mayProgram s q = true → pagePriority s p ≤ pagePriority s q := by
  obtain ⟨hfrom, -, hleast⟩ := (foldl_bestPage s.store.pages none).1 p h
  rcases hfrom with hfrom | hfrom
  · exact nomatch hfrom
  · exact ⟨hfrom.1, hfrom.2, hleast⟩

theorem nextPage_none (h : ∀ q ∈ s.store.pages, mayProgram s q = false) : nextPage s = none := by
  cases hp : nextPage s with
  | none => rfl
  | some p =>
    obtain ⟨hmem, hmay, -⟩ := nextPage_chosen hp
    exact absurd hmay (by simp [h p hmem])

theorem mayProgram_ready (hm : s.store.medium = 3) : mayProgram s p = !p.issued := by simp [mayProgram, hm]

/-! ### A program that fails (R380) -/

/-- The page is to be programmed again, in the free block. -/
def continued (p : Page) (g : Segment) (b : Nat) (s : State) : State :=
  modSeg g.stream g.seq (fun g => { g with block := b })
    (modStore (fun x => { x with pages := x.pages.map fun q => if q = p then { q with issued := false } else q })
      (modBlock b (fun y => { y with state := 1, age := 0, maxCorr := 0, pending := false }) s))

theorem relocate_eq {b : Nat} (hg : s.store.segs.find? (fun g => g.stream == p.stream && g.seq == p.seq) = some g)
    (hh : storeHeld s = false) (hm : s.store.medium = 3) (hl : leastWorn s = some b) : relocate p s =
      if g.progd = 0 then retire g.block 5 (continued p g b s)
      else dogRestart p.stream (retire g.block 5 (continued p g b s)) := by
  unfold relocate
  rw [hg]
  dsimp only
  rw [if_neg (by simp [hh, hm]), hl]
  rfl

theorem retire_pages {b st : Nat} (h : (retire b st s).store.medium = s.store.medium) :
    (retire b st s).store.pages = s.store.pages := by
  have hspare : (spareTaken (retiring b st s)).store.pages = s.store.pages
      ∧ (spareTaken (retiring b st s)).store.medium = s.store.medium := by
    unfold spareTaken
    split <;> exact ⟨rfl, rfl⟩
  exact ((judged_retire b st s).segs (h.trans hspare.2.symm)).2.trans hspare.1

/-- What a segment that continues in a free block shows. -/
theorem retire_continued {b : Nat} (hp : p ∈ s.store.pages)
    (hg : s.store.segs.find? (fun g => g.stream == p.stream && g.seq == p.seq) = some g)
    (hm : s.store.medium = 3) (hlen : g.block < s.store.blocks.length) :
    (block (retire g.block 5 (continued p g b s)) g.block).state = 5
      ∧ ((retire g.block 5 (continued p g b s)).store.medium = 3 →
        { p with issued := false } ∈ (retire g.block 5 (continued p g b s)).store.pages
        ∧ ∃ h, (retire g.block 5 (continued p g b s)).store.segs.find? (fun g => g.stream == p.stream && g.seq == p.seq) = some h
          ∧ h.block = b) := by
  have hlen' : g.block < (continued p g b s).store.blocks.length := by
    show g.block < (setAt _ _ _).length
    rw [setAt_eq_set, List.length_set]
    exact hlen
  refine ⟨retire_state hlen' (by decide), fun hmed => ?_⟩
  have hmed' : (retire g.block 5 (continued p g b s)).store.medium = (continued p g b s).store.medium := hmed.trans hm.symm
  rw [retire_pages hmed', retire_segs hmed']
  refine ⟨List.mem_map.mpr ⟨p, hp, if_pos rfl⟩, { g with block := b }, ?_, rfl⟩
  refine (find?_map_keeps s.store.segs _ (fun x => if x.stream = g.stream ∧ x.seq = g.seq then { x with block := b } else x)
    fun x => ?_).trans ?_
  · by_cases hx : x.stream = g.stream ∧ x.seq = g.seq
    · rw [if_pos hx]
    · rw [if_neg hx]
  · rw [hg]
    exact congrArg some (if_pos ⟨rfl, rfl⟩)

/-! ### The write watchdog (R360) -/

theorem isFrame_of_isLock {w : WaitItem} (h : w.isLock = true) : w.isFrame = false := by
  cases w with
  | frame id since => exact nomatch h
  | marker type payload ts since => rfl

theorem stream_modStream_ne {j : Nat} (h : j ≠ k) (f : Stream → Stream) (s : State) :
    stream (modStream k f s) j = stream s j := tget_tmod_ne _ _ _ _ _ h

theorem stream_of_streams (h : t.store.streams = s.store.streams) (j : Nat) : stream t j = stream s j := by
  rw [stream, h, stream]

theorem dropWaiting_store (k : Nat) (s : State) : (dropWaiting k none s).store = (modStream k (fun x =>
    { ungap (stream s k).wait x with wait := (stream s k).wait.filter WaitItem.isLock, dogAt := none }) s).store := by
  have hrel : ∀ (l : List WaitItem) (v : State), (forEach l (fun w s => match w with
      | .frame id _ => release id (match (none : Option Nat) with
        | some c => dropRecord k c s
        | none => s)
      | .marker _ _ _ _ => s) v).store = v.store := by
    intro l
    induction l with
    | nil => exact fun v => rfl
    | cons w l ih =>
      intro v
      rw [forEach_cons]
      refine (ih _).trans ?_
      cases w with
      | frame id since => exact (release_ev (by decide) (.refl v)).kept .store
      | marker type payload ts since => rfl
  exact hrel _ _

/-- No frame waits for stream j. -/
def frameless (j : Nat) (s : State) : Prop := ∀ w ∈ (stream s j).wait, w.isFrame = false

theorem frameless_dropWaiting (k : Nat) (s : State) : frameless k (dropWaiting k none s) := by
  intro w hw
  rw [stream, dropWaiting_store] at hw
  have hstream := stream_modStream k (fun x => { ungap (stream s k).wait x with wait := (stream s k).wait.filter WaitItem.isLock, dogAt := none }) s
  rw [stream] at hstream
  rw [hstream] at hw
  exact isFrame_of_isLock (List.mem_filter.mp hw).2

theorem frameless_dropWaiting_of {j : Nat} (k : Nat) (h : frameless j s) : frameless j (dropWaiting k none s) := by
  by_cases hj : j = k
  · exact hj ▸ frameless_dropWaiting k s
  · have hsame : stream (dropWaiting k none s) j = stream s j := by
      rw [stream, dropWaiting_store]
      exact stream_modStream_ne hj _ s
    intro w hw
    exact h w (hsame ▸ hw)

theorem frameless_dropAll {j : Nat} (l : Tab Stream) (s : State) (h : (∃ e ∈ l, e.1 = j) ∨ frameless j s) :
    frameless j (forEach l (fun (k, _) s => dropWaiting k none s) s) := by
  induction l generalizing s with
  | nil =>
    rcases h with ⟨e, he, -⟩ | h
    · exact nomatch he
    · exact h
  | cons x l ih =>
    rw [forEach_cons]
    refine ih _ ?_
    rcases h with ⟨e, he, hj⟩ | h
    · rcases List.mem_cons.mp he with rfl | he
      · exact .inr (hj ▸ frameless_dropWaiting e.1 s)
      · exact .inl ⟨e, he, hj⟩
    · exact .inr (frameless_dropWaiting_of x.1 h)

/-- Once the store discards its references, no frame waits and no page. -/
theorem discardRefs_empties (s : State) : (∀ j, frameless j (discardRefs s)) ∧ (discardRefs s).store.pages = [] := by
  refine ⟨fun j => frameless_dropAll _ _ ?_, ?_⟩
  · by_cases hj : ∃ e ∈ s.store.streams, e.1 = j
    · exact .inl hj
    · refine .inr fun w hw => ?_
      have hnone : tget s.store.streams j ({} : Stream) = {} := tget_below _ _ _ fun e he hej => hj ⟨e, he, hej⟩
      have hstream : stream (modStore (fun x => { x with pages := [] }) s) j = {} := hnone
      rw [hstream] at hw
      exact nomatch hw
  · have hpages : ∀ (l : Tab Stream) (v : State), (forEach l (fun (k, _) s => dropWaiting k none s) v).store.pages = v.store.pages := by
      intro l
      induction l with
      | nil => exact fun v => rfl
      | cons x l ih =>
        intro v
        rw [forEach_cons]
        refine (ih _).trans ?_
        show (dropWaiting x.1 none v).store.pages = _
        rw [dropWaiting_store]
        rfl
    exact hpages _ _

theorem storeCut_waits (s : State) : (storeCut s).store.pages = s.store.pages
    ∧ (storeCut s).store.streams = s.store.streams := by
  rw [storeCut]
  split
  · rw [storeDone_store]
    exact ⟨rfl, rfl⟩
  · exact ⟨rfl, rfl⟩

theorem storeFault_empties (s : State) : (storeFault s).store.pages = [] ∧ ∀ j, frameless j (storeFault s) := by
  obtain ⟨hframes, hnone⟩ := discardRefs_empties (setMFault 10 20 31 0 0 false s)
  obtain ⟨hpages, hstreams⟩ := storeCut_waits (storeGone 6 (discardRefs (setMFault 10 20 31 0 0 false s)))
  rw [storeGone_store] at hpages hstreams
  refine ⟨hpages.trans hnone, fun j w hw => hframes j w ?_⟩
  have hstream : stream (storeFault s) j = stream (discardRefs (setMFault 10 20 31 0 0 false s)) j :=
    stream_of_streams hstreams j
  rw [← hstream]
  exact hw

/-! ### O44 -/

theorem execPageBuild_idle {k : Fin 64} (h : s.tap = false) (hb : buildBarred s k = true) :
    exec (.pageBuild k .none) s = .next s := (live_next s (pageBuildEffect k .none) h).trans (congrArg _ (if_pos (.inl hb)))

theorem execRecordWaitExpiry_idle {k : Fin 64} (h : s.tap = false) (ho : oldestWait s k = none) :
    exec (.recordWaitExpiry ⟨k, .none⟩) s = .next s := by
  refine (live_next s (recordWaitExpiryEffect k .none) h).trans (congrArg _ ?_)
  unfold recordWaitExpiryEffect
  rw [ho]

theorem buildBarred_ready (hm : s.store.medium = 3) (h3 : (stream s k).state ≠ 3) : buildBarred s k = false := by
  simp [buildBarred, hm, h3]

/-- The bytes one waiting frame brings. -/
theorem waitingBytes_frame {n : Nat} (hw : (stream s k).wait = [.frame id since])
    (hr : (r, ts) = itemRecord s (.frame id since) n) : waitingBytes s k = r.length := by
  have hlen := (length_itemRecord s (.frame id since) n).1
  rw [← hr] at hlen
  rw [waitingBytes, hw]
  simpa using hlen.symm

theorem pageFill_of_open (hg : openSeg s k = some g) (h0 : 0 < pageSize s) : pageFill s k = g.data.length % pageSize s := by
  rw [pageFill, hg]
  dsimp only
  congr 1
  omega

/-- A build that completes a page. -/
theorem execPageBuild_builds {k : Fin 64} (h : s.tap = false) (hm : s.store.medium = 3) (h3 : (stream s k).state ≠ 3)
    (hf : fenced s 17 = false) (hw : (stream s k).wait = [.frame id since]) (hg : openSeg s k = some g)
    (hr : (r, ts) = itemRecord s (.frame id since) g.records) (hl : g.data.length + r.length ≤ imageLen s)
    (h0 : 0 < pageSize s) (hfull : pageSize s ≤ pageFill s k + waitingBytes s k) :
    exec (.pageBuild k .none) s = .next (frameBuilt k id g r ts s)
      ∧ s.store.pages.length < (frameBuilt k id g r ts s).store.pages.length := by
  have hgrow : s.store.pages.length < (frameBuilt k id g r ts s).store.pages.length := by
    rw [waitingBytes_frame hw hr, pageFill_of_open hg h0] at hfull
    have hnew := newPages_grows (k := k) (q := g.seq) h0 hfull
    rw [(frameBuilt_pages k id g r ts s).1, List.length_append]
    omega
  refine ⟨(live_next s (pageBuildEffect k .none) h).trans (congrArg _ ?_), hgrow⟩
  have hitem := buildItem_frame hw (buildBarred_ready hm h3) hg hr.symm hl
  unfold pageBuildEffect
  rw [if_neg (by simp [buildBarred_ready hm h3, hf]), if_pos (.inl hfull), buildLoop_turns hitem, if_pos hgrow]
  exact if_pos hgrow

/-- A page whose oldest frame has waited its time is built and filled. -/
theorem execRecordWaitExpiry_fills {k : Fin 64} (h : s.tap = false) (hm : s.store.medium = 3) (h3 : (stream s k).state ≠ 3)
    (hf : fenced s 17 = false) (hw : (stream s k).wait = [.frame id since]) (hg : openSeg s k = some g)
    (hr : (r, ts) = itemRecord s (.frame id since) g.records) (hl : g.data.length + r.length ≤ imageLen s)
    (h0 : 0 < pageSize s) (hdue : since + ms 10 ≤ s.clk) (hpart : pageFill s k + r.length < pageSize s) :
    exec (.recordWaitExpiry ⟨k, .none⟩) s = .next (fillPage k (frameBuilt k id g r ts s)) := by
  refine (live_next s (recordWaitExpiryEffect k .none) h).trans (congrArg _ ?_)
  rw [pageFill_of_open hg h0] at hpart
  have hsame : (frameBuilt k id g r ts s).store.pages = s.store.pages := by
    rw [(frameBuilt_pages k id g r ts s).1, newPages_within hpart, List.append_nil]
  have hitem := buildItem_frame hw (buildBarred_ready hm h3) hg hr.symm hl
  have hidle := buildItem_idle (s := frameBuilt k id g r ts s) (k := k) (by rw [frameBuilt_stream])
  have hold : oldestWait s k = some since := by
    rw [oldestWait, hw]
    rfl
  have hgrown : ¬ (frameBuilt k id g r ts s).store.pages.length > s.store.pages.length := by
    rw [hsame]
    exact Nat.lt_irrefl _
  have hloop : buildLoop k false .none (2 * (stream s k).wait.length + 4) s = frameBuilt k id g r ts s := by
    rw [buildLoop_turns hitem, if_neg hgrown]
    exact buildLoop_stops hidle
  unfold recordWaitExpiryEffect
  rw [hold]
  dsimp only
  rw [waitUntil_past hdue, if_neg (by simp [buildBarred_ready hm h3, hf]), hloop]
  exact if_neg hgrown

/-- Settles O44: one frame's record is one turn of `buildLoop` (`buildItem_frame`); the next page is the best of a fold, a
failed program retires the block after its segment has moved, and the watchdog is `storeFault`. -/
theorem recordsAreBuiltAndProgrammed : Obligations.RecordsAreBuiltAndProgrammed := by
  refine ⟨fun s k id since g r ts h hm h3 hf hw hg hr hl h0 => ⟨fun hfull => ?_, fun hpart hrefs => ?_, fun hdue hpart ha hs => ?_⟩,
    fun s k h => ⟨fun ho => execRecordWaitExpiry_idle h ho, fun hm => execPageBuild_idle h (by simp [buildBarred, hm])⟩,
    fun s h hm hf => ⟨fun p hp => ?_, fun hall => ?_⟩, fun s p hm hp => ?_,
    fun s k p h hp => ⟨?_, fun g b hg hh hm hl hlen hne => ?_⟩, fun s k since h hd hst hm hu hdue => ?_⟩
  · obtain ⟨hexec, hgrow⟩ := execPageBuild_builds h hm h3 hf hw hg hr hl h0 hfull
    refine ⟨_, joined r ts g, hexec, frameBuilt_openSeg hg, rfl, rfl, rfl, rfl, ?_, hgrow⟩
    rw [frameBuilt_stream]
  · refine (live_next s (pageBuildEffect k .none) h).trans (congrArg _ ?_)
    unfold pageBuildEffect
    rw [if_neg (by simp [buildBarred_ready hm h3, hf])]
    exact if_neg (by omega)
  · have hexec := execRecordWaitExpiry_fills h hm h3 hf hw hg hr hl h0 hdue hpart
    obtain ⟨-, hword, hpos⟩ := length_itemRecord s (.frame id since) g.records
    rw [← hr] at hword hpos
    have hsize : pageSize (frameBuilt k id g r ts s) = pageSize s :=
      congrArg BitVec.toNat (pw_congr (frameBuilt_params k id g r ts s) _)
    have hlen : (joined r ts g).data.length = g.data.length + r.length := List.length_append
    rw [pageFill_of_open hg h0] at hpart
    have hmod : (joined r ts g).data.length % pageSize s ≠ 0 := by
      rw [hlen, Nat.add_mod, Nat.mod_eq_of_lt (by omega : r.length < pageSize s), Nat.mod_eq_of_lt hpart]
      dsimp only at hpos
      omega
    obtain ⟨hopen, hstream⟩ := fillPage_fills (frameBuilt_openSeg (id := id) (r := r) (ts := ts) hg) (by rw [hsize]; exact h0) (by rw [hsize]; exact hmod)
    rw [hsize] at hopen
    refine ⟨_, _, hexec, hopen, rfl, ?_, ?_, ?_⟩
    · show ((g.data ++ r) ++ fillRecord _).take (g.data.length + r.length) = _
      exact List.take_left' List.length_append
    · show (((joined r ts g).data ++ fillRecord _).length) % _ = 0
      rw [List.length_append]
      exact length_filled h0 (by dsimp only at hword; omega) hs
    · rw [hstream, frameBuilt_stream]
  · obtain ⟨hmem, hmay, hleast⟩ := nextPage_chosen hp
    rw [mayProgram_ready hm] at hmay
    refine ⟨(live_next s pageProgramEffect h).trans (congrArg _ ?_), hmem, by simpa using hmay, fun q hq hi => ?_⟩
    · unfold pageProgramEffect
      rw [if_neg (by simp [hf]), hp]
    · exact hleast q hq (by rw [mayProgram_ready hm, hi]; rfl)
  · refine (live_next s pageProgramEffect h).trans (congrArg _ ?_)
    unfold pageProgramEffect
    rw [if_neg (by simp [hf]), nextPage_none fun q hq => by rw [mayProgram_ready hm, hall q hq]; rfl]
  · obtain ⟨hmem, hmay, -⟩ := nextPage_chosen hp
    simp only [mayProgram, hm, Bool.and_eq_true, Bool.or_eq_true, decide_eq_true_eq, Bool.not_eq_true'] at hmay
    obtain ⟨hi, h3 | h5⟩ := hmay
    · exact absurd h3 (by decide)
    · exact ⟨hmem, hi, h5.2⟩
  · refine (live_next s (pageProgramEndEffect k false) h).trans (congrArg _ ?_)
    unfold pageProgramEndEffect
    rw [hp]
    rfl
  · have hexec : exec (.pageProgramEnd k true) s = .next (relocate p s) := by
      refine (live_next s (pageProgramEndEffect k true) h).trans (congrArg _ ?_)
      unfold pageProgramEndEffect
      rw [hp]
      rfl
    obtain ⟨hst, hcont⟩ := retire_continued (b := b) (List.mem_of_find?_eq_some hp) hg hm hlen
    refine ⟨_, hexec, ?_⟩
    rw [relocate_eq hg hh hm hl]
    split
    · exact ⟨hst, hcont⟩
    · exact ⟨hst, hcont⟩
  · obtain ⟨hm6, hfault⟩ := storeFault_fault s
    obtain ⟨hpages, hframes⟩ := storeFault_empties s
    refine ⟨_, (live_next s (streamWriteWatchdogEffect k) h).trans (congrArg _ ?_), hm6, hpages, ?_, hframes⟩
    · unfold streamWriteWatchdogEffect
      rw [hd]
      dsimp only
      rw [if_neg (by simp [hst, hm, hu]), waitUntil_past hdue]
    · rw [hfault]
      exact getLsbD_orBit _ (by decide)

end Sys2Proof.Machine
end

section
/-! PROOFS. What the entry into the device safe state does (chapter 18): O37. -/

namespace Sys2Proof.Machine

variable {s t u v : State} {α : Type} {g : Port → α} {k p c : Nat}

/-! ### Ports as references end and the store builds (R29, R253) -/

theorem port_map_values (f : Port → Port) (hf : f {} = {}) (h : t.ports = s.ports.map fun e => (e.1, f e.2)) (q : Nat) :
    port t q = f (port s q) := by
  rw [port, h]
  exact tget_map_value _ f q {} hf

theorem portsKeep_modStore (f : Store → Store) (s : State) : PortsKeep g s (modStore f s) := .of_ports rfl

theorem portsKeep_modStream (k : Nat) (f : Stream → Stream) (s : State) : PortsKeep g s (modStream k f s) := .of_ports rfl

theorem portsKeep_modSeg (k q : Nat) (f : Segment → Segment) (s : State) : PortsKeep g s (modSeg k q f s) := .of_ports rfl

theorem portsKeep_modRing (t r : Nat) (f : Ring → Ring) (s : State) : PortsKeep g s (modRing t r f s) := .of_ports rfl

theorem portsKeep_dropRefs (h : FlowFree g) (t r : Nat) (s : State) : PortsKeep g s (dropRefs t r s) := by
  refine PortsKeep.trans (.of_ports rfl) (PortsKeep.forEach (fun id v => ?_) _ (modRing t r (fun x => { x with refs := [] }) s))
  exact (portsKeep_release h id v).trans (.of_ports ((countRing_ev (by decide) (.refl _)).kept .ports))

/-- The queues without the items that a test selects. -/
def itemsGone (test : EgItem → Bool) (x : Port) : Port :=
  { x with queues := x.queues.map fun q => (q.1, q.2.filter fun i => !test i) }

theorem portsKeep_dropItems (h : FlowFree g) (he : EgressFree g) (test : EgItem → Bool) (s : State) :
    PortsKeep g s (dropItems test s) := by
  have hgone : PortsKeep g s { s with ports := s.ports.map fun e => (e.1, itemsGone test e.2) } := fun q => by
    rw [port_map_values (itemsGone test) rfl rfl]
    exact he (port s q) _ (port s q).stage
  exact hgone.trans (PortsKeep.forEach (fun (i : EgItem) v => portsKeep_release h i.frame v) _ _)

theorem portsKeep_ringAbandon (h : FlowFree g) (he : EgressFree g) (t r : Nat) (s : State) :
    PortsKeep g s (ringAbandon t r s) := by
  unfold ringAbandon
  dsimp only
  refine PortsKeep.trans ?_ (portsKeep_modRing t r _ _)
  refine PortsKeep.trans ?_ (.of_ports ((voidCycles_ev (by decide) (.refl _)).kept .ports))
  refine PortsKeep.trans ?_ (portsKeep_dropRefs h t r _)
  refine PortsKeep.trans ?_ (portsKeep_dropItems h he _ _)
  refine .of_ports (((countRing_ev (by decide) (.refl _)).kept .ports).trans ?_)
  refine ((modTen_ev (m := allBut .ports) (by decide) (.refl _)).kept .ports).trans ?_
  exact ((readDrop_ev (by decide) (.refl _)).kept .ports).trans ((dropFetched_ev (by decide) (.refl s)).kept .ports)

theorem portsKeep_dropWaiting (h : FlowFree g) (k : Nat) (cause : Option Nat) (s : State) :
    PortsKeep g s (dropWaiting k cause s) := by
  unfold dropWaiting
  refine PortsKeep.trans (.of_ports rfl) (PortsKeep.forEach (fun w v => ?_) _ (modStream k _ s))
  cases w with
  | frame id since =>
    cases cause with
    | none => exact portsKeep_release h id v
    | some c =>
      exact PortsKeep.trans (.of_ports ((dropRecord_ev (by decide) (.refl v)).kept .ports)) (portsKeep_release h id _)
  | marker type payload ts since => exact .refl v

theorem portsKeep_stopStream (h : FlowFree g) (k : Nat) (s : State) : PortsKeep g s (stopStream k s) := by
  unfold stopStream
  refine PortsKeep.trans ?_ (portsKeep_dropWaiting h k (some 2) _)
  exact portsKeep_modStream k _ s

theorem portsKeep_openIn (k b : Nat) (s : State) : PortsKeep g s (openIn k b s) :=
  .of_ports ((openIn_ev (by decide) (.refl s)).kept .ports)

theorem portsKeep_dropSeg (x : Segment) (s : State) : PortsKeep g s (dropSeg x s) :=
  .of_ports ((dropSeg_ev (by decide) (.refl s)).kept .ports)

theorem portsKeep_needSeg (h : FlowFree g) (k : Nat) (s : State) : PortsKeep g s (needSeg k s).1 := by
  unfold needSeg
  dsimp only
  split
  · exact (portsKeep_stopStream h k s).trans (.of_ports (ports_raise 0 12 _))
  · split
    · cases leastWorn s with
      | none => exact .refl s
      | some b => exact portsKeep_openIn k b s
    · split
      · exact .refl s
      · split
        · exact portsKeep_stopStream h k s
        · cases reusable s k with
          | none =>
            dsimp only
            split
            · exact .refl s
            · exact portsKeep_stopStream h k s
          | some x =>
            dsimp only
            cases leastWorn (dropSeg x s) with
            | none => exact portsKeep_dropSeg x s
            | some b =>
              dsimp only
              split
              · exact (portsKeep_dropSeg x s).trans (portsKeep_openIn k b _)
              · exact portsKeep_dropSeg x s

theorem portsKeep_perfAdd (a n : Nat) (s : State) : PortsKeep g s (perfAdd a n s) :=
  .of_ports ((perfAdd_ev (by decide) (.refl s)).kept .ports)

theorem portsKeep_closeSeg (k : Nat) (s : State) : PortsKeep g s (closeSeg k s) :=
  .of_ports ((closeSeg_ev (by decide) (.refl s)).kept .ports)

theorem portsKeep_buildItem (h : FlowFree g) (k : Nat) (s : State) : PortsKeep g s (buildItem k .none s).1 := by
  have hgap : PortsKeep g s (if (stream s k).wait.any WaitItem.isFrame then s
      else if (stream s k).wait = [] then s else closeGap k s) :=
    .ite (.refl s) (.ite (.refl s) (.of_ports ((closeGap_ev (by decide) (.refl s)).kept .ports)))
  unfold buildItem
  dsimp only
  generalize (if (stream s k).wait.any WaitItem.isFrame then s
      else if (stream s k).wait = [] then s else closeGap k s) = v at hgap ⊢
  split
  · exact hgap
  · split
    · exact hgap
    · split
      · contradiction
      · contradiction
      · split
        · exact hgap.trans (portsKeep_needSeg h k v)
        · split
          · exact hgap.trans (portsKeep_closeSeg k v)
          · split <;> dsimp only
            · refine PortsKeep.trans ?_ (portsKeep_perfAdd _ _ _)
              refine PortsKeep.trans ?_ (portsKeep_release h _ _)
              refine PortsKeep.trans ?_ (portsKeep_modStore _ _)
              refine PortsKeep.trans ?_ (portsKeep_modStream k _ _)
              refine PortsKeep.trans ?_ (portsKeep_modStore _ _)
              exact hgap.trans (portsKeep_modSeg k _ _ v)
            · refine PortsKeep.trans ?_ (portsKeep_perfAdd _ _ _)
              refine PortsKeep.trans ?_ (portsKeep_modStream k _ _)
              refine PortsKeep.trans ?_ (portsKeep_modStore _ _)
              exact hgap.trans (portsKeep_modSeg k _ _ v)

theorem portsKeep_buildLoop (h : FlowFree g) (k : Nat) (all : Bool) (fuel : Nat) (s : State) :
    PortsKeep g s (buildLoop k all .none fuel s) := by
  induction fuel generalizing s with
  | zero => exact .refl s
  | succ fuel ih =>
    have hitem := portsKeep_buildItem h k s
    unfold buildLoop
    cases hi : buildItem k .none s with
    | mk v more =>
      rw [hi] at hitem
      cases more with
      | false => exact hitem
      | true => exact .ite hitem (hitem.trans (ih v))

theorem portsKeep_settleStream (h : FlowFree g) (k : Nat) (s : State) : PortsKeep g s (settleStream k s) := by
  refine PortsKeep.trans ?_ (portsKeep_closeSeg k _)
  exact .ite (portsKeep_buildLoop h k true _ s) (.ite (portsKeep_dropWaiting h k (some 2) s) (.refl s))

theorem portsKeep_suspendNow (h : FlowFree g) (s : State) : PortsKeep g s (suspendNow s) := by
  have hsettle : PortsKeep g s (forEach s.store.streams (fun (i, _) s => settleStream i s) s) :=
    .forEach (fun (e : Nat × Stream) v => portsKeep_settleStream h e.1 v) _ s
  unfold suspendNow
  split
  · exact .refl s
  · dsimp only
    refine PortsKeep.trans (hsettle.trans ?_) (.of_ports rfl)
    exact .of_ports (((suspended_ev (by decide) (.refl _)).kept .ports).trans
      ((flushPages_ev (by decide) (.refl _)).kept .ports))

/-! ### The wire of a port (R29, R156) -/

/-- Nothing is on the wire of port p or held there. -/
def WireFree (p : Nat) (s : State) : Prop := (port s p).wire = none ∧ (port s p).held = none

/-- What is on a wire or held. -/
def wireReading (x : Port) : Option Staged × Option Staged := (x.wire, x.held)

theorem flowFree_wire : FlowFree wireReading := fun _ _ _ => rfl

theorem egressFree_wire : EgressFree wireReading := fun _ _ _ => rfl

theorem WireFree.of_keep (h : WireFree p s) (hk : PortsKeep wireReading s t) : WireFree p t := by
  have hp := hk p
  exact ⟨(congrArg Prod.fst hp).trans h.1, (congrArg Prod.snd hp).trans h.2⟩

/-- A port whose frames of tenant t have lost their entries. -/
def orphaned (t : Nat) (x : Port) : Port :=
  { x with stage := x.stage.map (orphan t), wire := x.wire.map (orphan t), held := x.held.map (orphan t) }

theorem WireFree.orphanFrames (h : WireFree p s) (t : Nat) : WireFree p (orphanFrames t s) := by
  have hport : port (Machine.orphanFrames t s) p = orphaned t (port s p) := port_map_values (orphaned t) rfl rfl p
  rw [WireFree, hport, orphaned, h.1, h.2]
  exact ⟨rfl, rfl⟩

theorem WireFree.cutWire (h : WireFree p s) (q : Nat) : WireFree p (cutWire q s) := by
  rw [WireFree, port_cutWire]
  split
  · exact ⟨rfl, rfl⟩
  · exact h

theorem wireFree_cutWire (p : Nat) (s : State) : WireFree p (cutWire p s) := by
  rw [WireFree, port_cutWire, if_pos rfl]
  exact ⟨rfl, rfl⟩

/-! ### A tenant reset as it begins (R155, R156) -/

/-- Tenant t as its reset begins. -/
def resetBegun (t : Nat) (s : State) : State :=
  modTen t (fun x => { x with inReset := true, stepped := false, engineEn := false, resets := x.resets + 1 }) s

/-- The rings of a tenant are abandoned as its reset begins. -/
def ringsAbandoned (t : Nat) (s : State) : State :=
  forEach (ten s t).rings (fun (r, _) s => ringAbandon t r s) s

theorem tenantResetStart_held (h : (ten s k).inReset = true) : tenantResetStart k s = s := if_pos h

theorem tenantResetStart_free (h : (ten s k).inReset = false) : tenantResetStart k s = breakLocks (k + 1)
    (modTen k (fun x => { x with staging := [] }) (orphanFrames k (ringsAbandoned k (pushAbandon k (abortPair k (resetBegun k s)))))) :=
  if_neg (by simp [h])

theorem holdKept_tenantResetStart (h : (ten s k).inReset = false) : HoldKept (resetBegun k s) (tenantResetStart k s) := by
  rw [tenantResetStart_free h]
  have hpair : HoldKept (resetBegun k s) (abortPair k (resetBegun k s)) :=
    (HoldKept.refl _).elsewhere (abortPair_ev rfl (.refl _))
  have hrings : HoldKept (resetBegun k s) (ringsAbandoned k (pushAbandon k (abortPair k (resetBegun k s)))) :=
    (hpair.trans (holdKept_pushAbandon k _)).trans
      (holdKept_forEach (fun (e : Nat × Ring) v => holdKept_ringAbandon k e.1 v) _ _)
  refine HoldKept.elsewhere ?_ (breakLocks_ev rfl (.refl _))
  exact (hrings.elsewhere (orphanFrames_ev rfl (.refl _))).set_tenant k fun _ => rfl

/-- Whether a tenant is in reset once a tenant's reset has begun. -/
theorem inReset_tenantResetStart (t k : Nat) (s : State) :
    (ten (tenantResetStart t s) k).inReset = if k = t then true else (ten s k).inReset := by
  cases h : (ten s t).inReset with
  | true =>
    rw [tenantResetStart_held h]
    split
    · next hk => rw [hk, h]
    · rfl
  | false =>
    have hbits := congrArg (fun b => b.2.2) ((holdKept_tenantResetStart h).bits k)
    refine hbits.trans ?_
    split
    · next hk =>
      rw [hk]
      exact congrArg Tenant.inReset (ten_modTen_same _ _ _)
    · next hk => exact congrArg Tenant.inReset (ten_modTen_ne _ _ _ _ hk)

theorem WireFree.tenantResetStart (h : WireFree p s) (t : Nat) : WireFree p (tenantResetStart t s) := by
  cases hin : (ten s t).inReset with
  | true => rwa [tenantResetStart_held hin]
  | false =>
    rw [tenantResetStart_free hin]
    have hbegun : WireFree p (pushAbandon t (abortPair t (resetBegun t s))) := by
      refine h.of_keep (.of_ports ?_)
      exact ((pushAbandon_ev (by decide) (.refl _)).kept .ports).trans ((abortPair_ev (by decide) (.refl _)).kept .ports)
    have hrings : WireFree p (ringsAbandoned t (pushAbandon t (abortPair t (resetBegun t s)))) :=
      hbegun.of_keep (.forEach (fun (e : Nat × Ring) v => portsKeep_ringAbandon flowFree_wire egressFree_wire t e.1 v) _ _)
    exact (hrings.orphanFrames t).of_keep (.of_ports ((breakLocks_ev (by decide) (.refl _)).kept .ports))

theorem chans_ringsAbandoned (t : Nat) (s : State) : (ringsAbandoned t s).chans = s.chans := by
  have hev : Evolves (allBut .chans) s (ringsAbandoned t s) :=
    forEach_ev _ _ (fun (e : Nat × Ring) v hv => ringAbandon_ev (by decide) hv) (.refl s)
  exact hev.kept .chans

/-! ### Channels that end with ABORTED (R549, Table 13.5) -/

/-- Channel c, where it was busy at s, is busy yet or has ended with ABORTED. -/
def AbortedFrom (c : Nat) (s v : State) : Prop := (chan s c).busy = true → (chan v c).busy = true ∨ (chan v c).err = 9

theorem chan_abortChan_same (c : Nat) (s : State) : (chan (abortChan c s) c).busy = false
    ∧ ((chan s c).busy = true → (chan (abortChan c s) c).err = 9)
    ∧ ((chan s c).busy = false → chan (abortChan c s) c = chan s c) := by
  unfold abortChan
  split
  · next h =>
    rw [chan_endChan_same]
    exact ⟨rfl, fun _ => rfl, fun h0 => absurd h (by simp [h0])⟩
  · next h =>
    have h0 : (chan s c).busy = false := by simpa using h
    exact ⟨h0, fun h1 => absurd h1 h, fun _ => rfl⟩

theorem chan_abortChan_ne {d : Nat} (h : c ≠ d) (s : State) : chan (abortChan d s) c = chan s c := by
  unfold abortChan
  split
  · exact chan_endChan_ne _ h
  · rfl

theorem AbortedFrom.abortChan (h : AbortedFrom c s v) (d : Nat) : AbortedFrom c s (abortChan d v) := by
  by_cases hd : c = d
  · subst hd
    obtain ⟨-, herr, hsame⟩ := chan_abortChan_same c v
    intro hb
    cases hv : (chan v c).busy with
    | true => exact .inr (herr hv)
    | false =>
      rw [hsame hv]
      exact h hb
  · intro hb
    rw [chan_abortChan_ne hd]
    exact h hb

theorem AbortedFrom.of_chans (h : AbortedFrom c s u) (hc : v.chans = u.chans) : AbortedFrom c s v := fun hb => by
  rw [chan_of_chans hc]
  exact h hb

theorem AbortedFrom.tenantResetStart (h : AbortedFrom c s v) (t : Nat) : AbortedFrom c s (tenantResetStart t v) := by
  cases hin : (ten v t).inReset with
  | true => rwa [tenantResetStart_held hin]
  | false =>
    rw [tenantResetStart_free hin]
    have hbegun : AbortedFrom c s (resetBegun t v) := h.of_chans rfl
    have hpair : AbortedFrom c s (abortPair t (resetBegun t v)) := by
      unfold abortPair
      split
      · exact (hbegun.abortChan _).abortChan _
      · exact hbegun
    refine hpair.of_chans ?_
    rw [(breakLocks_ev (by decide) (.refl _)).kept .chans, (modTen_ev (m := allBut .chans) (by decide) (.refl _)).kept .chans,
      (orphanFrames_ev (by decide) (.refl _)).kept .chans, chans_ringsAbandoned]
    exact (pushAbandon_ev (by decide) (.refl _)).kept .chans

/-! ### The entry into the device safe state (R549) -/

/-- The tenants are in reset and the wires are cut. -/
def tenantsStopped (s : State) : State :=
  forAll 4 (fun t s => tenantResetStart t s) (forAll 32 (fun p s => cutWire p s) s)

theorem safeActions_eq (s : State) : safeActions s = suspendNow (abortAll (tenantsStopped s)) := rfl

theorem safeActions_inReset (hk : k < 4) (s : State) : (ten (safeActions s) k).inReset = true := by
  have hstopped : (ten (tenantsStopped s) k).inReset = true := by
    refine forAll_achieves (pre := fun _ => True) (post := fun v => (ten v k).inReset = true) hk (fun _ _ _ _ => trivial)
      (fun v _ => ?_) (fun i v hi hv => ?_) trivial
    · rw [inReset_tenantResetStart, if_pos rfl]
    · rw [inReset_tenantResetStart]
      split
      · rfl
      · exact hv
  have hkept : (safeActions s).tenants = (tenantsStopped s).tenants := by
    rw [safeActions_eq, (suspendNow_ev (by decide) (.refl _)).kept .tenants, (abortAll_ev (by decide) (.refl _)).kept .tenants]
  rw [ten, hkept]
  exact hstopped

theorem safeActions_wireFree (hp : p < 32) (s : State) : WireFree p (safeActions s) := by
  have hcut : WireFree p (forAll 32 (fun p s => cutWire p s) s) :=
    forAll_achieves (pre := fun _ => True) (post := WireFree p) hp (fun _ _ _ _ => trivial)
      (fun v _ => wireFree_cutWire p v) (fun i v _ hv => hv.cutWire i) trivial
  have hstopped : WireFree p (tenantsStopped s) :=
    forAll_achieves (k := 0) (pre := WireFree p) (post := WireFree p) (by decide) (fun i v _ hv => hv.tenantResetStart i)
      (fun v hv => hv.tenantResetStart 0) (fun i v _ hv => hv.tenantResetStart i) hcut
  refine hstopped.of_keep (PortsKeep.trans (.of_ports ?_) (portsKeep_suspendNow flowFree_wire _))
  exact (abortAll_ev (by decide) (.refl _)).kept .ports

theorem safeActions_aborted (hc : c < 16) (s : State) : (chan (safeActions s) c).busy = false
    ∧ ((chan s c).busy = true → (chan (safeActions s) c).err = 9) := by
  have hcut : AbortedFrom c s (forAll 32 (fun p s => cutWire p s) s) := by
    have hev : Evolves (allBut .chans) s (forAll 32 (fun p s => cutWire p s) s) :=
      forAll_ev 32 _ (fun p v hv => cutWire_ev (by decide) hv) (.refl s)
    exact AbortedFrom.of_chans (u := s) (fun hb => .inl hb) (hev.kept .chans)
  have hstopped : AbortedFrom c s (tenantsStopped s) :=
    forAll_achieves (k := 0) (pre := AbortedFrom c s) (post := AbortedFrom c s) (by decide)
      (fun i v _ hv => hv.tenantResetStart i) (fun v hv => hv.tenantResetStart 0)
      (fun i v _ hv => hv.tenantResetStart i) hcut
  have hall : (chan (abortAll (tenantsStopped s)) c).busy = false
      ∧ ((chan s c).busy = true → (chan (abortAll (tenantsStopped s)) c).err = 9) := by
    refine forAll_achieves (pre := AbortedFrom c s)
      (post := fun v => (chan v c).busy = false ∧ ((chan s c).busy = true → (chan v c).err = 9)) hc
      (fun i v _ hv => hv.abortChan i) (fun v hv => ?_) (fun i v hi hv => ?_) hstopped
    · obtain ⟨hbusy, -, -⟩ := chan_abortChan_same c v
      refine ⟨hbusy, fun hb => ?_⟩
      rcases hv.abortChan c hb with h | h
      · exact absurd h (by simp [hbusy])
      · exact h
    · rw [chan_abortChan_ne (Ne.symm hi)]
      exact hv
  have hkept : (safeActions s).chans = (abortAll (tenantsStopped s)).chans := by
    rw [safeActions_eq, (suspendNow_ev (by decide) (.refl _)).kept .chans]
  rw [chan_of_chans hkept]
  exact hall

theorem dog_of_flags (h : safetyFlags t = safetyFlags s) : t.safety.dog = s.safety.dog := (congrArg Safety.dog h :)

theorem enterSafe_dog (h : s.safety.safe = false) : (enterSafe s).safety.dog = none := by
  rw [enterSafe_of_not_safe h]
  rw [dog_of_flags (safetyFlags_safeActions (safeEntered s))]
  rfl

theorem safeFault_dog (cause a b info addr : Nat) (h : s.safety.safe = false) :
    (safeFault cause a b info addr s).safety.dog = none := by
  refine enterSafe_dog (Eq.trans ?_ h)
  exact safe_eq_of_flags (safetyFlags_setMFault _ _ _ _ _ _ s)

/-- The first cause of M_FAULT latches its detail. -/
theorem setMFault_detail (cause a b info addr : Nat) (safe : Bool) (h : s.mgmt.fault = 0) :
    (setMFault cause a b info addr safe s).mgmt.detail = word (cause * 2 ^ 19 + a * 2 ^ 14 + b * 2 ^ 9 + info) := by
  unfold setMFault
  dsimp only
  rw [logFault_mgmt, if_pos h]
  split
  · rfl
  · rw [raise_mgmt]

/-! ### The supervisors (R547 to R550) -/

theorem live_safetyWrite {q : CbPar} {n : Nat} (hn : n < 2 ^ 24) (h : PerformsM s q 0x49 n) :
    live (mgmtWrite {} q 0x49 n) s = .next (safetyCommand n (acknowledge none s)) := by
  refine (live_mgmtWrite (by decide) h).trans (congrArg _ ?_)
  rw [regWrite_safetyCmd (s := acknowledge none s) h.2.2, toNat_word hn]
  rfl

theorem safetyCommand_enter (s : State) : safetyCommand 0x3C0002 s = enterSafe s := by
  have hop : bits 0x3C0002 0 2 = 2 := by decide
  have hkey : bits 0x3C0002 16 8 = 0x3C := by decide
  unfold safetyCommand
  rw [hop, hkey]
  exact if_pos rfl

theorem watchdogService_armed (hr : s.start.ready = true) (hs : s.safety.safe = false) (ha : s.power.asleep = false) :
    watchdogService s = modSafety (fun x => { x with dog := some (s.time.fixed, pn s 0x900003) }) s :=
  if_pos (by simp [hr, hs, ha])

theorem watchdogService_barred (h : s.safety.safe = true ∨ s.power.asleep = true) : watchdogService s = s := by
  refine if_neg ?_
  rcases h with h | h <;> simp [h]

/-- A handshake that times out, with the reset that the control island's part in it brings. -/
theorem handshakeFault_fields (a b : Nat) (s : State) : (handshakeFault a b s).mgmt = (safeFault 0 a b 0 b s).mgmt
    ∧ (handshakeFault a b s).safety.safe = true
    ∧ (s.safety.safe = false → a = 0 ∨ b = 0 → (handshakeFault a b s).safety.resetFrom = some s.clk) := by
  have hclk : (safeFault 0 a b 0 b s).clk = s.clk := (safeFault_ev (by decide) (.refl s)).kept .clk
  unfold handshakeFault
  dsimp only
  split
  · exact ⟨rfl, safeFault_safe 0 a b 0 b s, fun _ _ => congrArg some hclk⟩
  · next hnot =>
    refine ⟨rfl, safeFault_safe 0 a b 0 b s, fun hs hab => absurd ?_ hnot⟩
    rcases hab with h | h <;> simp [hs, h]

/-- Settles O37: the entry cuts the wires, begins the tenants' resets and ends the channels, and what follows in it keeps
that (`safeActions_…`); its causes are `safeFault`. -/
theorem theSafeStateIsEnteredOnItsCauses : Obligations.TheSafeStateIsEnteredOnItsCauses := by
  refine ⟨fun s q h => ⟨fun hs ha => ?_, fun hbar => ?_⟩, fun s q h hs => ?_, fun s since period h hd hdue hs => ?_,
    fun s h hd => ?_, fun s a b h hr hp ha hb hne => ?_, fun s i h => live_next s id h⟩
  · exact (live_safetyWrite (by decide) h).trans (congrArg _ (watchdogService_armed (s := acknowledge none s) h.2.2 hs ha))
  · exact (live_safetyWrite (by decide) h).trans (congrArg _ (watchdogService_barred (s := acknowledge none s) hbar))
  · have hsafe : (acknowledge none s).safety.safe = false := hs
    refine ⟨_, (live_safetyWrite (by decide) h).trans (congrArg _ (safetyCommand_enter _)), ?_⟩
    refine ⟨enterSafe_safe _, ?_, enterSafe_dog hsafe, ?_⟩
    · rw [enterSafe_start, if_neg (by simp [hsafe])]
    · rw [enterSafe_of_not_safe hsafe]
      exact ⟨fun k hk => safeActions_inReset hk _, fun c hc => (safeActions_aborted hc _).1,
        fun c hc => (safeActions_aborted hc (safeEntered (acknowledge none s))).2, fun p hp => safeActions_wireFree hp _⟩
  · have hexec : exec .safetyWatchdogExpiry s = .next (safeFault 7 24 31 0 0 s) := by
      refine (live_next s safetyWatchdogExpiryEffect h).trans (congrArg _ ?_)
      unfold safetyWatchdogExpiryEffect
      rw [hd]
      dsimp only
      rw [Nat.sub_eq_zero_of_le hdue, wait_zero]
    refine ⟨_, hexec, ?_, safeFault_safe _ _ _ _ _ s, safeFault_dog _ _ _ _ _ hs⟩
    rw [safeFault_fault]
    exact getLsbD_orBit _ (by decide)
  · refine (live_next s safetyWatchdogExpiryEffect h).trans (congrArg _ ?_)
    unfold safetyWatchdogExpiryEffect
    rw [hd]
  · have hab : (a.val != b.val) = true := bne_iff_ne.mpr fun hval => hne (Fin.ext hval)
    obtain ⟨hmgmt, hsafe, hreset⟩ := handshakeFault_fields a b s
    refine ⟨_, (live_next s (handshakeTimeoutEffect a b) h).trans (congrArg _ (if_pos (by simp [hr, hp, ha, hb, hab]))), ?_,
      hsafe, fun hs h0 => hreset hs ?_, fun h0 => ?_⟩
    · rw [hmgmt, safeFault_fault]
      exact getLsbD_orBit _ (by decide)
    · exact h0.imp (congrArg Fin.val) (congrArg Fin.val)
    · rw [hmgmt, safeFault, enterSafe_mgmt, setMFault_detail _ _ _ _ _ _ h0, Nat.zero_mul, Nat.zero_add, Nat.add_zero]

end Sys2Proof.Machine
end

section
/-! PROOFS. O10: device and management resets. -/

namespace Sys2Proof.Machine

open Host

/-! ### The write of M_CONTROL that resets (R85) -/

theorem trimWrite_same {s : State} {on : Bool} (h : s.mgmt.trim = on) : trimWrite on s = s := if_pos h

/-- A keyed write of M_CONTROL with one more bit, by the management master. -/
theorem live_controlSet {x : Extra} {s : State} {q : CbPar} {bit v : Nat} (hadd : 0xC30000 + bit + flag s.mgmt.trim 3 = v)
    (hv : v < 2 ^ 24) (h : PerformsM s q 0x03 v) :
    live (controlSet x q bit) s = .next (controlWrite x v (acknowledge none s)) := by
  refine (live_next s (controlSet x q bit) h.1).trans (congrArg _ ?_)
  rw [controlSet, hadd]
  refine (mgmtWrite_admitted (x := x) (by decide) h.2.1).trans ?_
  rw [regWrite_control (s := acknowledge none s) h.2.2, toNat_word hv]

theorem flag_cases (b : Bool) : flag b 3 = 0 ∧ b = false ∨ flag b 3 = 8 ∧ b = true := by
  cases b
  · exact .inl ⟨rfl, rfl⟩
  · exact .inr ⟨rfl, rfl⟩

/-- What the bits of a keyed write of M_CONTROL say, TRIM in bit 3. -/
structure Keyed (v bit : Nat) (trim : Bool) : Prop where
  small : v < 2 ^ 24
  dev : devResetSet v = (bit == 1)
  key : bits v 16 8 = 0xC3
  mgmt : bitOf v 1 = (bit == 2)
  sleep : bitOf v 2 = (bit == 4)
  trim : trim = bitOf v 3

theorem keyed_dev (b : Bool) : Keyed (0xC30001 + flag b 3) 1 b := by
  obtain ⟨hb, rfl⟩ | ⟨hb, rfl⟩ := flag_cases b <;> rw [hb] <;>
    exact ⟨by decide, by decide, by decide, by decide, by decide, by decide⟩

theorem keyed_mgmt (b : Bool) : Keyed (0xC30002 + flag b 3) 2 b := by
  obtain ⟨hb, rfl⟩ | ⟨hb, rfl⟩ := flag_cases b <;> rw [hb] <;>
    exact ⟨by decide, by decide, by decide, by decide, by decide, by decide⟩

theorem keyed_sleep (b : Bool) : Keyed (0xC30004 + flag b 3) 4 b := by
  obtain ⟨hb, rfl⟩ | ⟨hb, rfl⟩ := flag_cases b <;> rw [hb] <;>
    exact ⟨by decide, by decide, by decide, by decide, by decide, by decide⟩

/-- DEV_RESET with its KEY is a device reset (R568). -/
theorem exec_devReset {s : State} {q : CbPar} (h : PerformsM s q 0x03 (0xC30001 + flag s.mgmt.trim 3)) :
    exec (.devReset q) s = .next (internalReset (acknowledge none s)) := by
  have hk := keyed_dev s.mgmt.trim
  refine (live_controlSet (by omega) hk.small h).trans (congrArg _ ?_)
  have hset : devResetSet (0xC30001 + flag s.mgmt.trim 3) = true := hk.dev
  rw [controlWrite, if_pos hset]

/-- MGMT_RESET with its KEY, TRIM as it stands, is the management reset alone (R85). -/
theorem exec_mgmtReset {s : State} {q : CbPar} (h : PerformsM s q 0x03 (0xC30002 + flag s.mgmt.trim 3)) :
    exec (.mgmtReset q) s = .next (mgmtResetStart (acknowledge none s)) := by
  have hk := keyed_mgmt s.mgmt.trim
  refine (live_controlSet (by omega) hk.small h).trans (congrArg _ ?_)
  obtain ⟨-, hdev, hkey, hmgmt, hsleep, htrim⟩ := hk
  have hsame : trimWrite (bitOf (0xC30002 + flag s.mgmt.trim 3) 3) (acknowledge none s) = acknowledge none s :=
    trimWrite_same htrim
  rw [controlWrite, hsame]
  simp [hdev, hkey, hmgmt, hsleep]

/-! ### What a device reset leaves (R562) -/

theorem link_perst_deviceReset (start : Start) (s : State) (t : Nat) :
    (link (deviceReset start s) t).perst = (link s t).perst :=
  (congrArg Link.perst (tget_map_value s.links (fun x => { perst := x.perst }) t {} rfl) :)

theorem pn_deviceReset_kept {id : Nat} (h : keptParam id = true) (start : Start) (s : State) :
    pn (deviceReset start s) id = pn s id := by
  rw [pn, pw_deviceReset, if_pos h, pn]

theorem pn_deviceReset_reset {id : Nat} (h : keptParam id = false) (start : Start) (s : State) :
    pn (deviceReset start s) id = (paramReset id).toNat := by
  rw [pn, pw_deviceReset, h]
  rfl

/-- The safety island's reset is the device reset, 100 ms after the entry (R550). -/
theorem exec_safetyReset_due {s : State} {since : Nat} (h : s.safety.resetFrom = some since)
    (hdue : since + ms 100 ≤ s.clk) : exec .safetyReset s = .next (internalReset s) := by
  have heffect : safetyResetEffect s = internalReset (waitUntil (since + ms 100) s) := by
    unfold safetyResetEffect
    rw [h]
  rw [waitUntil_past hdue] at heffect
  exact congrArg Outcome.next heffect

/-! ### The parts of a management reset (R163) -/

/-- A parameter write that waits for channels completes first. -/
def handedOver (s : State) : State :=
  match s.mgmt.handover with
  | some (id, v) => handOwner (forEach (movedChannels s id v) abortChan s)
  | none => s

/-- Channel c returns to its reset state when management owns it. -/
def mgmtChanReset (c : Nat) (s : State) : State :=
  if chanOwner s c = .mgmt then modChan c (fun _ => {}) (abortChan c s) else s

/-- What a management reset ends: its channels, an image load, its Canopy operations, and its locks. -/
def mgmtCut (s : State) : State :=
  breakLocks 0 (mgmtCanopyEnd (unyield { forAll 16 mgmtChanReset s with image := {} }))

/-- The registers of management after its reset. -/
def mgmtKept (m : Mgmt) : Mgmt :=
  { scratch := m.scratch, fault := m.fault, detail := m.detail, trim := m.trim, mgmtReset := true }

/-- The window M and management's registers as a management reset leaves them. -/
def mgmtCleared (m : Mgmt) (u : State) : State := { windowReset 0 u with mgmt := mgmtKept m }

/-- Every tenant's RESET bit clears. -/
def resetBitsCleared (s : State) : State := forAll 4 (fun t s => modTen t (fun x => { x with reset := false }) s) s

theorem mgmtResetStart_begun {s : State} (h : s.mgmt.mgmtReset = false) :
    mgmtResetStart s = idleSources 0 (resetBitsCleared (mgmtCleared s.mgmt (mgmtCut (handedOver s)))) := by
  unfold mgmtResetStart
  rw [if_neg (by simp [h])]
  rfl

/-! #### Its end: sources and RESET bits -/

theorem resetBitsCleared_ev {m : Nat} {z0 s : State} (hm : Within 0x400 m) (hev : Evolves m z0 s) :
    Evolves m z0 (resetBitsCleared s) :=
  forAll_ev _ _ (fun _ _ h => modTen_ev (hm.of (by decide)) h) hev

/-- What follows the cleared registers leaves all but the table rows and the tenants. -/
theorem idleSources_resetBits_ev (w : Nat) (s : State) : Evolves 0x500 s (idleSources w (resetBitsCleared s)) :=
  idleSources_ev rfl (resetBitsCleared_ev rfl (.refl s))

/-- A source is made idle, its ENABLE and MODE kept. -/
def idleSource (w n : Nat) (s : State) : State :=
  if srcRow s w n % 2 ^ 22 = 0 then s else putSrc w n (putBits (srcRow s w n) 0 22 0) s

theorem idleSources_eq (w : Nat) (s : State) : idleSources w s = forAll 62 (fun i s => idleSource w (i + 1) s) s := by
  rw [idleSources, sources, List.foldl_map]
  rfl

theorem srcRow_idleSource_ne {w n k : Nat} (h : k ≠ n) (s : State) : srcRow (idleSource w n s) w k = srcRow s w k := by
  unfold idleSource
  split
  · rfl
  · exact srcRow_putSrc_ne h

theorem srcRow_idleSource_same (w n : Nat) (s : State) : srcRow (idleSource w n s) w n % 2 ^ 22 = 0 := by
  unfold idleSource
  split
  · assumption
  · rw [srcRow_putSrc_same]
    have hbits : bits (putBits (srcRow s w n) 0 22 0) 0 22 = 0 := bits_putBits_same (by decide)
    rw [bits, Nat.shiftRight_zero] at hbits
    omega

/-- Each of the sources 1 to 62 of a window is idle. -/
theorem srcRow_idleSources {w n : Nat} (h1 : 1 ≤ n) (h62 : n ≤ 62) (s : State) :
    srcRow (idleSources w s) w n % 2 ^ 22 = 0 := by
  obtain ⟨k, rfl⟩ : ∃ k, n = k + 1 := ⟨n - 1, by omega⟩
  rw [idleSources_eq]
  refine forAll_achieves (pre := fun _ => True) (post := fun v => srcRow v w (k + 1) % 2 ^ 22 = 0) (by omega)
    (fun _ _ _ _ => trivial) (fun v _ => srcRow_idleSource_same w _ v) (fun i v hi hv => ?_) trivial
  rw [srcRow_idleSource_ne (by omega), hv]

/-- A number whose low 22 bits are 0 has none of its bits 0 to 21. -/
theorem bitOf_of_low_zero {v i : Nat} (h : v % 2 ^ 22 = 0) (hi : i < 22) : bitOf v i = false := by
  have hbit := Nat.testBit_mod_two_pow v 22 i
  rw [h, Nat.zero_testBit, decide_eq_true hi, Bool.true_and] at hbit
  exact hbit.symm

/-! #### Its locks (R161) -/

/-- The turn of lock k: a lock of window w becomes free and BROKEN. -/
def breakLock (w k : Nat) (s : State) : State :=
  let l := lock s k
  if l.owner = some w then
    forAll 5 (fun v s => if l.waiting.getLsbD v then raise v (brokenSource v) s else s)
      (modLock k (fun l => { l with owner := none, broken := true }) s)
  else s

theorem breakLocks_eq (w : Nat) (s : State) : breakLocks w s = forAll 16 (breakLock w) s := rfl

theorem lock_of_locks {s u : State} (h : u.locks = s.locks) (k : Nat) : lock u k = lock s k := by simp only [lock, h]

theorem lock_forAll_raise (p : Nat → Bool) (f : Nat → Nat) (k : Nat) (s : State) :
    lock (forAll 5 (fun v s => if p v then raise v (f v) s else s) s) k = lock s k :=
  lock_of_locks ((forAll_ev (m := allBut .locks) 5 (fun v s => if p v then raise v (f v) s else s)
    (fun _ _ h => Evolves.ite (raise_ev (by decide) h) h) (.refl s)).kept .locks) k

theorem lock_breakLock_same {w k : Nat} (s : State) : lock (breakLock w k s) k
    = if (lock s k).owner = some w then { lock s k with owner := none, broken := true } else lock s k := by
  unfold breakLock
  dsimp only
  split
  · rw [lock_forAll_raise, lock_modLock_same]
  · rfl

theorem lock_breakLock_ne {w j k : Nat} (h : k ≠ j) (s : State) : lock (breakLock w j s) k = lock s k := by
  unfold breakLock
  dsimp only
  split
  · rw [lock_forAll_raise, lock_modLock_ne _ _ _ _ h]
  · rfl

/-- A lock that the window does not hold stays as it is. -/
theorem lock_breakLocks_other {w k : Nat} {s : State} (h : (lock s k).owner ≠ some w) :
    lock (breakLocks w s) k = lock s k := by
  rw [breakLocks_eq, forAll]
  refine List.foldlRecOn (motive := fun v => lock v k = lock s k) _ _ rfl fun v hv j _ => ?_
  by_cases hj : k = j
  · rw [← hj, lock_breakLock_same, hv, if_neg h]
  · rw [lock_breakLock_ne hj, hv]

/-- A lock that the window holds becomes free and BROKEN. -/
theorem lock_breakLocks_own {w k : Nat} {s : State} (hk : k < 16) (h : (lock s k).owner = some w) :
    lock (breakLocks w s) k = { lock s k with owner := none, broken := true } := by
  rw [breakLocks_eq]
  refine forAll_achieves (pre := fun v => lock v k = lock s k)
    (post := fun v => lock v k = { lock s k with owner := none, broken := true }) hk (fun j v hj hv => ?_)
    (fun v hv => ?_) (fun j v hj hv => ?_) rfl
  · rw [lock_breakLock_ne hj.symm, hv]
  · rw [lock_breakLock_same, hv, if_pos h]
  · rw [lock_breakLock_ne hj.symm, hv]

/-! #### Its channels -/

theorem mgmtChanReset_ev {m c : Nat} {z0 s : State} (hm : Within 0x100100 m) (hev : Evolves m z0 s) :
    Evolves m z0 (mgmtChanReset c s) :=
  Evolves.ite (modChan_ev (hm.of (by decide)) (abortChan_ev hm hev)) hev

theorem chan_mgmtChanReset_same {c : Nat} {s : State} (h : chanOwner s c = .mgmt) : chan (mgmtChanReset c s) c = {} := by
  rw [mgmtChanReset, if_pos h, chan_modChan_same]

theorem chan_mgmtChanReset_ne {c d : Nat} (h : c ≠ d) (s : State) : chan (mgmtChanReset d s) c = chan s c := by
  unfold mgmtChanReset
  split
  · rw [chan_modChan_ne _ _ _ _ h, chan_abortChan_ne h]
  · rfl

/-- Every channel of management is as at reset. -/
theorem chan_mgmtChansReset {c : Nat} {s : State} (hc : c < 16) (h : chanOwner s c = .mgmt) :
    chan (forAll 16 mgmtChanReset s) c = {} :=
  forAll_achieves (pre := fun v => chanOwner v c = .mgmt) (post := fun v => chan v c = {}) hc
    (fun _ v _ hv => (chanOwner_of_params
      ((mgmtChanReset_ev (m := allBut .params) (by decide) (.refl v)).kept .params) c).trans hv)
    (fun _ hv => chan_mgmtChanReset_same hv) (fun _ v hi hv => (chan_mgmtChanReset_ne hi.symm v).trans hv) h

theorem chan_unyield (s : State) (c : Nat) : chan (unyield s) c = { chan s c with yielded := false } :=
  tget_map_value s.chans (fun x => { x with yielded := false }) c {} rfl

/-- What has ended before the locks break. -/
def mgmtEnded (s : State) : State := { forAll 16 mgmtChanReset s with image := {} }

theorem mgmtCut_ev (s : State) : Evolves 0x580b00 (mgmtEnded s) (mgmtCut s) := by
  unfold mgmtCut
  exact breakLocks_ev rfl (mgmtCanopyEnd_ev rfl (unyield_ev rfl (.refl (mgmtEnded s))))

theorem image_mgmtCut (s : State) : (mgmtCut s).image = {} := ((mgmtCut_ev s).frame .image).resolve_left (by decide)

theorem chan_mgmtCut (s : State) (c : Nat) :
    chan (mgmtCut s) c = { chan (forAll 16 mgmtChanReset s) c with yielded := false } := by
  have hev : Evolves (allBut .chans) (unyield (mgmtEnded s)) (mgmtCut s) := by
    unfold mgmtCut
    exact breakLocks_ev (by decide) (mgmtCanopyEnd_ev (by decide) (.refl _))
  rw [chan_of_chans (hev.kept .chans), chan_unyield]
  rfl

theorem lock_beforeBreak (s : State) (k : Nat) : lock (mgmtCanopyEnd (unyield (mgmtEnded s))) k = lock s k := by
  have hlocks : (forAll 16 mgmtChanReset s).locks = s.locks :=
    (forAll_ev (m := allBut .locks) 16 mgmtChanReset (fun _ _ h => mgmtChanReset_ev (by decide) h) (.refl s)).kept .locks
  have hend : Evolves (allBut .locks) (mgmtEnded s) (mgmtCanopyEnd (unyield (mgmtEnded s))) :=
    mgmtCanopyEnd_ev (by decide) (unyield_ev (by decide) (.refl _))
  rw [lock_of_locks (hend.kept .locks)]
  exact lock_of_locks hlocks k

theorem lock_mgmtCut_own {s : State} {k : Nat} (hk : k < 16) (h : (lock s k).owner = some 0) :
    lock (mgmtCut s) k = { lock s k with owner := none, broken := true } := by
  have h' : (lock (mgmtCanopyEnd (unyield (mgmtEnded s))) k).owner = some 0 := by rw [lock_beforeBreak, h]
  exact (lock_breakLocks_own hk h').trans (by rw [lock_beforeBreak])

theorem lock_mgmtCut_other {s : State} {k : Nat} (h : (lock s k).owner ≠ some 0) : lock (mgmtCut s) k = lock s k := by
  have h' : (lock (mgmtCanopyEnd (unyield (mgmtEnded s))) k).owner ≠ some 0 := by rwa [lock_beforeBreak]
  exact (lock_breakLocks_other h').trans (lock_beforeBreak s k)

/-! #### What it leaves -/

theorem mgmtCleared_window (m : Mgmt) (u : State) : win (mgmtCleared m u) 0 = {} := win_modWin_same (s := u) 0 fun _ => {}

/-- The last steps of a management reset. -/
def mgmtRenewed (m : Mgmt) (u : State) : State := idleSources 0 (resetBitsCleared (mgmtCleared m u))

/-- The last steps leave what was ended as it is. -/
theorem mgmtRenewed_ev (m : Mgmt) (u : State) : Evolves 0x500 (mgmtCleared m u) (mgmtRenewed m u) :=
  idleSources_resetBits_ev 0 (mgmtCleared m u)

theorem mgmtRenewed_mgmt (m : Mgmt) (u : State) : (mgmtRenewed m u).mgmt = mgmtKept m :=
  ((mgmtRenewed_ev m u).frame .mgmt).resolve_left (by decide)

theorem mgmtRenewed_window (m : Mgmt) (u : State) : win (mgmtRenewed m u) 0 = {} := by
  rw [win_of_wins (((mgmtRenewed_ev m u).frame .wins).resolve_left (by decide)), mgmtCleared_window]

theorem mgmtRenewed_image (m : Mgmt) (u : State) : (mgmtRenewed m u).image = u.image :=
  ((mgmtRenewed_ev m u).frame .image).resolve_left (by decide)

theorem mgmtRenewed_locks (m : Mgmt) (u : State) : (mgmtRenewed m u).locks = u.locks :=
  ((mgmtRenewed_ev m u).frame .locks).resolve_left (by decide)

theorem mgmtRenewed_chans (m : Mgmt) (u : State) : (mgmtRenewed m u).chans = u.chans :=
  ((mgmtRenewed_ev m u).frame .chans).resolve_left (by decide)

/-- What a management reset leaves in t: the registers m, and the channels and locks from those of the state u in which a
waiting parameter write has taken place. -/
structure MgmtReset (m : Mgmt) (u t : State) : Prop where
  mgmt : t.mgmt = mgmtKept m
  window : win t 0 = {}
  image : t.image = {}
  channels : ∀ c, c < 16 → chanOwner u c = .mgmt → chan t c = {}
  broken : ∀ k, k < 16 → (lock u k).owner = some 0 → (lock t k).owner = none ∧ (lock t k).broken = true
  others : ∀ k, (lock u k).owner ≠ some 0 → lock t k = lock u k
  idle : ∀ n, 1 ≤ n → n ≤ 62 → srcRow t 0 n % 2 ^ 22 = 0

theorem mgmtReset_renewed (m : Mgmt) (u : State) : MgmtReset m u (mgmtRenewed m (mgmtCut u)) := by
  refine ⟨mgmtRenewed_mgmt m _, mgmtRenewed_window m _, (mgmtRenewed_image m _).trans (image_mgmtCut u),
    fun c hc ho => ?_, fun k hk ho => ?_, fun k ho => ?_, fun n h1 h62 => srcRow_idleSources h1 h62 _⟩
  · rw [chan_of_chans (mgmtRenewed_chans m _), chan_mgmtCut, chan_mgmtChansReset hc ho]
  · rw [lock_of_locks (mgmtRenewed_locks m _), lock_mgmtCut_own hk ho]
    exact ⟨rfl, rfl⟩
  · rw [lock_of_locks (mgmtRenewed_locks m _), lock_mgmtCut_other ho]

/-- MGMT_RESET: the state of a management reset, with no write waiting from the state at the access. -/
theorem mgmtReset_mgmtResetStart {s : State} (h : s.mgmt.mgmtReset = false) :
    MgmtReset s.mgmt (handedOver (acknowledge none s)) (mgmtResetStart (acknowledge none s)) := by
  rw [mgmtResetStart_begun (s := acknowledge none s) h]
  exact mgmtReset_renewed s.mgmt (handedOver (acknowledge none s))

theorem handedOver_none {s : State} (h : s.mgmt.handover = none) : handedOver s = s := by
  rw [handedOver, h]

/-- Settles O10: a device reset is `deviceReset`, whose parts are read off; a management reset ends what `MgmtReset` names
and idles the sources of its window. -/
theorem deviceAndManagementResetsActAsStated : Obligations.DeviceAndManagementResetsActAsStated := by
  unfold Obligations.DeviceAndManagementResetsActAsStated
  refine ⟨⟨fun s q h => exec_devReset h, fun s since h hdue => exec_safetyReset_due h hdue, fun s => ?_⟩,
    fun s q h hm => ?_, fun s htap => ?_⟩
  case refine_1 =>
    exact ⟨rfl, rfl, rfl, rfl, rfl, rfl, rfl, rfl, rfl, rfl, rfl, rfl, rfl, rfl, rfl, rfl, rfl, rfl, rfl, rfl, rfl, rfl,
      fun id h => pn_deviceReset_kept h _ s, fun id h => pn_deviceReset_reset h _ s,
      link_perst_deviceReset _ s⟩
  case refine_2 =>
    have hreset := mgmtReset_mgmtResetStart hm
    refine ⟨_, exec_mgmtReset h, ?_⟩
    have hfree : s.mgmt.handover = none → handedOver (acknowledge none s) = acknowledge none s :=
      handedOver_none (s := acknowledge none s)
    generalize handedOver (acknowledge none s) = u at hreset hfree
    generalize mgmtResetStart (acknowledge none s) = t at hreset
    obtain ⟨hmgmt, hwindow, himage, hchannels, hbroken, hothers, hidle⟩ := hreset
    rw [hmgmt]
    refine ⟨rfl, hwindow, rfl, rfl, rfl, rfl, rfl, rfl, rfl, himage, fun hnone => ?_, fun n h1 h62 => ?_⟩
    · obtain rfl := hfree hnone
      exact ⟨hchannels, hbroken, hothers⟩
    · have hlow := hidle n h1 h62
      refine ⟨bitOf_of_low_zero hlow (by decide), bitOf_of_low_zero hlow (by decide), bitOf_of_low_zero hlow (by decide), ?_⟩
      rw [bits, Nat.shiftRight_zero]
      omega
  case refine_3 => exact live_next s mgmtResetEndEffect htap

end Sys2Proof.Machine
end

section
/-! PROOFS. O41: images load and end. -/

namespace Sys2Proof.Machine

open Host

/-! ### Parameters that no tenant's reset touches (R156, R141) -/

/-- A parameter item outside those that a tenant reset returns, and outside GLADE_PEAK. -/
def ApartFromTenants (id : Nat) : Prop := id < 0x030002 ∨ 0x030308 < id ∧ id < 0x600100 ∨ 0x600400 < id

/-- What every turn of a round over the numbers below n keeps, the round keeps. -/
theorem forAll_keeps {α : Type} {g : State → α} {f : Nat → State → State} {n : Nat}
    (hf : ∀ i v, i < n → g (f i v) = g v) (s : State) : g (forAll n f s) = g s := by
  induction n with
  | zero => rfl
  | succ n ih => rw [forAll_succ, hf n _ n.lt_succ_self, ih fun i v hi => hf i v (by omega)]

section

variable {s : State} {id t : Nat}

theorem pw_peak (h : ApartFromTenants id) (s : State) : pw (peak s) id = pw s id := by
  refine forAll_keeps (g := fun v => pw v id) (fun i v hi => ?_) s
  dsimp only
  split
  · exact pw_setPw_ne (by unfold ApartFromTenants at h; omega) _ _
  · rfl

theorem pw_tenantParams (ht : t < 4) (h : ApartFromTenants id) (s : State) : pw (tenantParams t s) id = pw s id := by
  have hret : returnedParam t id = false := by
    unfold ApartFromTenants at h
    simp only [returnedParam, Bool.or_eq_false_iff, Bool.and_eq_false_iff, decide_eq_false_iff_not,
      beq_eq_false_iff_ne]
    omega
  have hkeep := tget_filter_key (fun id => !returnedParam t id) s.params id (paramReset id)
  rw [hret] at hkeep
  exact (pw_peak h _).trans hkeep

/-- What the steps of a tenant reset clear before its parameters return. -/
def resetCleared (t : Nat) (s : State) : State :=
  clearTable 0x01 t (clearTable 0x0B t (clearTable 0x0D t (clearTable 0x0C (t + 1) (windowReset (t + 1) (partitionReset t
    (forEach (ten s t).rings (fun (r, _) s => ringAbandon t r s) (pushAbandon t s)))))))

theorem resetCleared_params (t : Nat) (s : State) : (resetCleared t s).params = s.params := by
  have hev : Evolves (allBut .params) s (resetCleared t s) := by
    unfold resetCleared
    refine clearTable_ev (by decide) (clearTable_ev (by decide) (clearTable_ev (by decide) (clearTable_ev (by decide)
      (windowReset_ev (by decide) (partitionReset_ev (by decide) ?_)))))
    exact forEach_ev _ _ (fun ⟨_, _⟩ _ h => ringAbandon_ev (by decide) h) (pushAbandon_ev (by decide) (.refl s))
  exact hev.kept .params

/-- The two channels of a tenant's pair return to their reset state. -/
def pairCleared (t : Nat) (s : State) : State :=
  match tenantPair s t with
  | some p => modChan (8 + 2 * p) (fun _ => {}) (modChan (9 + 2 * p) (fun _ => {}) s)
  | none => s

theorem pairCleared_params (t : Nat) (s : State) : (pairCleared t s).params = s.params := by
  unfold pairCleared
  split <;> rfl

theorem tenantResetSteps_eq (t : Nat) (s : State) :
    tenantResetSteps t s = pairCleared t (modTen t tenantStepped (tenantParams t (resetCleared t s))) := rfl

theorem tenantResetSteps_params (t : Nat) (s : State) :
    (tenantResetSteps t s).params = (tenantParams t (resetCleared t s)).params := by
  rw [tenantResetSteps_eq, pairCleared_params, modTen_params]

theorem pw_tenantResetSteps (ht : t < 4) (h : ApartFromTenants id) (s : State) :
    pw (tenantResetSteps t s) id = pw s id := by
  rw [pw_congr (tenantResetSteps_params t s), pw_tenantParams ht h, pw_congr (resetCleared_params t s)]

theorem pw_tenantResetEnd (ht : t < 4) (h : ApartFromTenants id) (s : State) :
    pw (tenantResetEnd t s) id = pw s id := by
  have hsteps : pw (stepsDone t s) id = pw s id := by
    unfold stepsDone
    split
    · rfl
    · exact pw_tenantResetSteps ht h s
  obtain hc | hc | hc := tenantResetEnd_cases t s
  · rw [hc]
  · rw [hc, hsteps]
  · rw [hc, pw_congr ((raise_ev (by decide) (.refl _)).kept .params)]
    exact hsteps

theorem pw_releaseTenants (held : Nat → Bool) (h : ApartFromTenants id) (s : State) :
    pw (releaseTenants held s) id = pw s id := by
  refine forAll_keeps (g := fun v => pw v id) (fun i v hi => ?_) s
  split
  · exact pw_tenantResetEnd hi h v
  · rfl

theorem pw_closeWindow (h : ApartFromTenants id) (s : State) : pw (closeWindow s) id = pw s id := by
  unfold closeWindow
  split
  · rfl
  · dsimp only
    split
    · rfl
    · exact pw_releaseTenants _ h _

end

/-! ### The start of a load (R124 to R126) -/

/-- The source of a load is chosen. -/
def sourceChosen (fromStore : Bool) (s : State) : State := { s with image := { s.image with fromStore := fromStore } }

theorem regWrite_load {u : State} {x : Extra} {v : Nat} {fromStore : Bool} (hr : u.start.ready = true)
    (h0 : bitOf v 0 = true) (h1 : bitOf v 1 = fromStore) (h8 : bitOf v 8 = false) (hv : v < 2 ^ 24) :
    regWrite x 0 0 0x50 (word v) u
      = imageStart fromStore x.host x.areaBad (sourceChosen fromStore u) := by
  have hd : (word v).toNat = v := toNat_word hv
  rw [regWrite_imageCmd hr (by rw [hd]; exact h0), hd, h1, h8, Bool.not_false, Bool.and_true, sourceChosen]

/-- The state in which a load starts. -/
def loadAsked (fromStore : Bool) (s : State) : State := sourceChosen fromStore (acknowledge none s)

/-- LOAD 1 by the management master starts the load. -/
theorem exec_imageLoad {s : State} {q : CbPar} {r : HostRead} {fromStore areaBad : Bool}
    (h : PerformsM s q 0x50 (1 + flag fromStore 1)) :
    exec (.imageLoad q fromStore ⟨r, areaBad⟩) s = .next (imageStart fromStore r areaBad (loadAsked fromStore s)) := by
  refine (live_mgmtWrite (x := { host := r, areaBad := areaBad }) (by decide) h).trans (congrArg _ ?_)
  refine regWrite_load (u := acknowledge none s) h.2.2 ?_ ?_ ?_ ?_ <;> cases fromStore <;> decide

/-! #### Channels held by the load -/

/-- A channel that settles is left as it is, ends, or has its closing read outstanding. -/
theorem chan_chanSettle_same (c : Nat) (s : State) :
    chan (chanSettle c s) c = chan s c ∨ (∃ e, chan (chanSettle c s) c = endedChan e (chan s c))
      ∨ chan (chanSettle c s) c = { chan s c with reads := [(.closing, s.clk)] } := by
  unfold chanSettle
  dsimp only
  split
  · exact .inl rfl
  · split
    · split
      · exact .inr (.inl ⟨_, chan_endChan_same _⟩)
      · exact .inr (.inr (by rw [chan_perfAdd, chan_modChan_same]))
    · split
      · exact .inr (.inl ⟨_, chan_endChan_same _⟩)
      · exact .inl rfl

theorem chan_chanSettle_ne {c d : Nat} (h : d ≠ c) (s : State) : chan (chanSettle c s) d = chan s d := by
  unfold chanSettle
  dsimp only
  split
  · rfl
  · split
    · split
      · exact chan_endChan_ne _ h
      · rw [chan_perfAdd, chan_modChan_ne _ _ _ _ h]
    · split
      · exact chan_endChan_ne _ h
      · rfl

/-- A channel that settles stays marked as held while it runs. -/
theorem yielded_chanSettle {c : Nat} {s : State} (h : (chan s c).yielded = true)
    (hb : (chan (chanSettle c s) c).busy = true) : (chan (chanSettle c s) c).yielded = true := by
  obtain hc | ⟨e, hc⟩ | hc := chan_chanSettle_same c s
  · rw [hc, h]
  · rw [hc] at hb
    exact absurd hb nofun
  · rw [hc]
    exact h

/-- The turn of channel c as a load holds the running channels. -/
def yieldChannel (c : Nat) (s : State) : State :=
  if (chan s c).busy then chanSettle c (modChan c (fun x => { cutBurst x with yielded := true }) s) else s

theorem yieldChannels_eq (s : State) : yieldChannels s = forAll 16 yieldChannel s := rfl

theorem yielded_yieldChannel {c : Nat} (s : State) (hb : (chan (yieldChannel c s) c).busy = true) :
    (chan (yieldChannel c s) c).yielded = true := by
  cases hc : (chan s c).busy with
  | true =>
    rw [yieldChannel, if_pos hc] at hb ⊢
    exact yielded_chanSettle (by rw [chan_modChan_same]) hb
  | false =>
    rw [yieldChannel, if_neg (by simp [hc]), hc] at hb
    exact absurd hb nofun

theorem chan_yieldChannel_ne {c d : Nat} (h : d ≠ c) (s : State) : chan (yieldChannel c s) d = chan s d := by
  unfold yieldChannel
  split
  · rw [chan_chanSettle_ne h, chan_modChan_ne _ _ _ _ h]
  · rfl

/-- Every channel that still runs is held. -/
theorem yielded_yieldChannels {c : Nat} (hc : c < 16) (s : State) (hb : (chan (yieldChannels s) c).busy = true) :
    (chan (yieldChannels s) c).yielded = true := by
  have hheld : (chan (forAll 16 yieldChannel s) c).busy = true → (chan (forAll 16 yieldChannel s) c).yielded = true :=
    forAll_achieves (pre := fun _ => True) (post := fun v => (chan v c).busy = true → (chan v c).yielded = true) hc
      (fun _ _ _ _ => trivial) (fun v _ => yielded_yieldChannel v)
      (fun i v hi hv => by rw [chan_yieldChannel_ne hi.symm]; exact hv) trivial
  exact hheld hb

theorem fenced_yieldChannels (s : State) (u : Nat) : fenced (yieldChannels s) u = fenced s u := by
  have hev := yieldChannels_ev (m := 0x180100) rfl (.refl s)
  have hfences : (yieldChannels s).fences = s.fences := (hev.frame .fences).resolve_left (by decide)
  have hparams : (yieldChannels s).params = s.params := (hev.frame .params).resolve_left (by decide)
  simp only [fenced, hfences, hparams]

/-! #### The judgement -/

theorem imageSource_closed {fromStore areaBad : Bool} {r : HostRead} {s : State} (h : fenced s 19 = true) :
    imageSource fromStore r areaBad s = none := by
  simp [imageSource, sourceOpen, h]

theorem imageSource_hostError {areaBad : Bool} (s : State) : imageSource false .ur areaBad s = none := by
  simp [imageSource]

theorem imageSource_areaBad {r : HostRead} (s : State) : imageSource true r true s = none := by
  simp [imageSource]

/-- The bytes of a load, its verdict and where it fails. -/
def imageJudged (fromStore : Bool) (r : HostRead) (areaBad : Bool) (s : State) : List Byte × Nat × Nat :=
  match imageSource fromStore r areaBad s with
  | none => ([], 6, 0xFFFFFF)
  | some bs => (bs, imageVerdict bs s)

theorem imageJudged_unread {fromStore areaBad : Bool} {r : HostRead} {s : State}
    (h : fenced s 19 = true ∨ fromStore = false ∧ r = .ur ∨ fromStore = true ∧ areaBad = true) :
    (imageJudged fromStore r areaBad s).2.1 = 6 := by
  have hnone : imageSource fromStore r areaBad s = none := by
    obtain hf | ⟨rfl, rfl⟩ | ⟨rfl, rfl⟩ := h
    · exact imageSource_closed hf
    · exact imageSource_hostError s
    · exact imageSource_areaBad s
  rw [imageJudged, hnone]

/-- A load that waits for the channels it holds. -/
def loading (fromStore : Bool) (j : List Byte × Nat × Nat) (s : State) : State :=
  { s with image := { load := true, fromStore := fromStore, done := s.image.done, result := s.image.result,
                      bytes := j.1, verdict := j.2.1, failAt := j.2.2 } }

theorem imageStart_busy {fromStore areaBad : Bool} {r : HostRead} {s : State} (hl : s.image.load = false)
    (hs : s.safety.safe = false) (h0 : (chan s 0).busy = true) :
    imageStart fromStore r areaBad s = imageDone 7 0xFFFFFF 0 0 (sourceChosen fromStore s) := by
  unfold imageStart
  exact (if_neg (by simp [hl, hs])).trans (if_pos h0)

theorem imageStart_free {fromStore areaBad : Bool} {r : HostRead} {s : State} (hl : s.image.load = false)
    (hs : s.safety.safe = false) (h0 : (chan s 0).busy = false) :
    imageStart fromStore r areaBad s
      = loading fromStore (imageJudged fromStore r areaBad (yieldChannels (sourceChosen fromStore s)))
          (yieldChannels (sourceChosen fromStore s)) := by
  have hbusy : ¬(chan s 0).busy = true := fun hb => absurd (h0.symm.trans hb) nofun
  unfold imageStart sourceChosen
  rw [if_neg (by simp [hl, hs])]
  dsimp only
  rw [if_neg hbusy]
  generalize yieldChannels _ = u
  unfold imageJudged loading
  cases imageSource fromStore r areaBad u <;> rfl

/-! ### The end of a load (R132) -/

/-- The registers of a load that has ended. -/
def loadEnded (fromStore : Bool) (result : Nat) : Image := { fromStore := fromStore, done := true, result := result }

/-- The parameters that a load's end writes. -/
def loadCounted (failAt applied clamped : Nat) (s : State) : State :=
  setPw 0x010003 applied (setPw 0x010004 clamped (setPw 0x010005 failAt s))

/-- A load has ended, before its fault or the close of the start-up window. -/
def loadShown (result failAt applied clamped : Nat) (s : State) : State :=
  raise 0 22 (unyield { loadCounted failAt applied clamped s with image := loadEnded s.image.fromStore result })

theorem imageDone_eq (result failAt applied clamped : Nat) (s : State) : imageDone result failAt applied clamped s
    = if result ≠ 0 then setMFault 8 0 31 0 0 false (loadShown result failAt applied clamped s)
      else closeWindow (loadShown result failAt applied clamped s) := rfl

theorem raise_image (w n : Nat) (s : State) : (raise w n s).image = s.image :=
  (raise_ev (m := allBut .image) (by decide) (.refl s)).kept .image

theorem raise_start (w n : Nat) (s : State) : (raise w n s).start = s.start :=
  (raise_ev (m := allBut .start) (by decide) (.refl s)).kept .start

section

variable {result failAt applied clamped : Nat} {s : State}

theorem loadShown_image : (loadShown result failAt applied clamped s).image = loadEnded s.image.fromStore result :=
  raise_image ..

theorem loadShown_start : (loadShown result failAt applied clamped s).start = s.start := raise_start ..

theorem loadShown_mgmt : (loadShown result failAt applied clamped s).mgmt = s.mgmt := raise_mgmt ..

theorem loadShown_params :
    (loadShown result failAt applied clamped s).params = (loadCounted failAt applied clamped s).params := raise_params ..

theorem pn_loadCounted_applied : pn (loadCounted failAt applied clamped s) 0x010003 = (word applied).toNat :=
  congrArg BitVec.toNat (pw_setPw_same _ _ _)

theorem pw_loadCounted_failAt : pw (loadCounted failAt applied clamped s) 0x010005 = word failAt := by
  rw [loadCounted, pw_setPw_ne (by decide), pw_setPw_ne (by decide), pw_setPw_same]

theorem imageDone_image : (imageDone result failAt applied clamped s).image = loadEnded s.image.fromStore result := by
  rw [imageDone_eq]
  split
  · exact ((setMFault_ev (m := allBut .image) (by decide) (.refl _)).kept .image).trans loadShown_image
  · exact ((closeWindow_ev (m := allBut .image) (by decide) (.refl _)).kept .image).trans loadShown_image

/-- A load that ends with an error sets M_FAULT.IMAGE and leaves the start-up window. -/
theorem imageDone_fails (h : result ≠ 0) : (imageDone result failAt applied clamped s).mgmt.fault.getLsbD 8 = true
    ∧ (imageDone result failAt applied clamped s).start = s.start
    ∧ (imageDone result failAt applied clamped s).params = (loadCounted failAt applied clamped s).params := by
  rw [imageDone_eq, if_pos h]
  refine ⟨?_, (setMFault_start ..).trans loadShown_start, (setMFault_params ..).trans loadShown_params⟩
  rw [setMFault_fault]
  exact getLsbD_orBit _ (by decide)

/-- A good load closes the start-up window. -/
theorem imageDone_good (h : result = 0) :
    imageDone result failAt applied clamped s = closeWindow (loadShown result failAt applied clamped s) := by
  rw [imageDone_eq, if_neg (not_not_intro h)]

end

theorem closeWindow_open (s : State) : (closeWindow s).start.window = false := by
  cases hw : s.start.window with
  | true => exact closeWindow_window hw
  | false =>
    unfold closeWindow
    rw [if_pos (by rw [hw]; rfl), hw]

theorem exec_imageLoadEnd {ecc : Option Nat} {s : State} (h : s.tap = false) :
    exec (.imageLoadEnd ecc) s = .next (imageLoadEndEffect ecc s) := live_next s (imageLoadEndEffect ecc) h

section

variable {ecc : Option Nat} {s : State}

theorem imageLoadEnd_waits (h : s.image.load = false ∨ undrained s = true) : imageLoadEndEffect ecc s = s := by
  unfold imageLoadEndEffect
  exact if_pos (h.imp_left fun hl => by rw [hl]; rfl)

theorem imageLoadEnd_ready (hl : s.image.load = true) (hd : undrained s = false) :
    ¬((!s.image.load) = true ∨ undrained s = true) := by simp [hl, hd]

theorem imageLoadEnd_judged (hl : s.image.load = true) (hd : undrained s = false) (hv : s.image.verdict ≠ 0) :
    imageLoadEndEffect ecc s = imageDone s.image.verdict s.image.failAt 0 0 s := by
  unfold imageLoadEndEffect
  exact (if_neg (imageLoadEnd_ready hl hd)).trans (if_pos hv)

theorem imageLoadEnd_closed (hl : s.image.load = true) (hd : undrained s = false) (hv : s.image.verdict = 0)
    (hs : sourceOpen s.image.fromStore s = false) : imageLoadEndEffect ecc s = imageDone 6 0xFFFFFF 0 0 s := by
  unfold imageLoadEndEffect
  exact (if_neg (imageLoadEnd_ready hl hd)).trans ((if_neg (not_not_intro hv)).trans (if_pos (by rw [hs]; rfl)))

/-- An image that is applied: where the run of its operations stops. -/
def imageRan (ecc : Option Nat) (s : State) : ImageRun × Option (Nat × Nat) :=
  imageRun ecc ((imageOps s.image.bytes).getD []) ⟨[], s, 0, 0⟩

/-- The end of a load whose operations have run. -/
def imageApplied (out : ImageRun × Option (Nat × Nat)) : State :=
  match out.2 with
  | none => imageDone 0 0xFFFFFF out.1.applied out.1.clamped out.1.state
  | some (off, r) => imageDone r off out.1.applied out.1.clamped
      (if r = 6 then setMFault 3 21 31 0x68 0 false out.1.state else out.1.state)

theorem imageLoadEnd_applied (hl : s.image.load = true) (hd : undrained s = false) (hv : s.image.verdict = 0)
    (hs : sourceOpen s.image.fromStore s = true) : imageLoadEndEffect ecc s = imageApplied (imageRan ecc s) := by
  unfold imageLoadEndEffect
  exact (if_neg (imageLoadEnd_ready hl hd)).trans ((if_neg (not_not_intro hv)).trans (if_neg (by rw [hs]; nofun)))

theorem imageApplied_image (out : ImageRun × Option (Nat × Nat)) :
    (imageApplied out).image.load = false ∧ (imageApplied out).image.done = true := by
  unfold imageApplied
  split <;> rw [imageDone_image] <;> exact ⟨rfl, rfl⟩

theorem imageRan_empty (h : imageOps s.image.bytes = some []) : imageRan none s = (⟨[], s, 0, 0⟩, none) := by
  rw [imageRan, h]
  rfl

end

/-- Settles O41: every end of a load is `imageDone`, whose registers are `loadEnded`; a load holds the channels by
`yieldChannel`, after which one runs only as held. -/
theorem imagesLoadAndEnd : Obligations.ImagesLoadAndEnd := by
  unfold Obligations.ImagesLoadAndEnd
  refine ⟨fun s q r fromStore areaBad h hl hs => ⟨fun hb => ?busy, fun hb => ?free⟩,
    fun s htap hw => (exec_imageLoadEnd htap).trans (congrArg _ (imageLoadEnd_waits hw)),
    fun s htap hl hd => ⟨fun hv => ?judged, fun hv => ?ends, fun hv hs => ?closed, fun hv hs hops => ?good⟩⟩
  case busy =>
    have hstart : imageStart fromStore r areaBad (loadAsked fromStore s)
        = imageDone 7 0xFFFFFF 0 0 (sourceChosen fromStore (loadAsked fromStore s)) := imageStart_busy hl hs hb
    have hfails := imageDone_fails (result := 7) (failAt := 0xFFFFFF) (applied := 0) (clamped := 0)
      (s := sourceChosen fromStore (loadAsked fromStore s)) (by decide)
    refine ⟨_, (exec_imageLoad h).trans (congrArg _ hstart), ?_⟩
    rw [imageDone_image]
    exact ⟨rfl, rfl, rfl, hfails.1⟩
  case free =>
    have hstart : imageStart fromStore r areaBad (loadAsked fromStore s)
        = loading fromStore (imageJudged fromStore r areaBad (yieldChannels (sourceChosen fromStore (loadAsked fromStore s))))
            (yieldChannels (sourceChosen fromStore (loadAsked fromStore s))) := imageStart_free hl hs hb
    have hexec := (exec_imageLoad h).trans (congrArg _ hstart)
    have hmgmt : (yieldChannels (sourceChosen fromStore (loadAsked fromStore s))).mgmt = s.mgmt :=
      (yieldChannels_ev (m := allBut .mgmt) (by decide) (.refl _)).kept .mgmt
    have hheld := fun c hc => yielded_yieldChannels (c := c) hc (sourceChosen fromStore (loadAsked fromStore s))
    have hfences : fenced (yieldChannels (sourceChosen fromStore (loadAsked fromStore s))) 19 = fenced s 19 :=
      fenced_yieldChannels _ 19
    generalize yieldChannels (sourceChosen fromStore (loadAsked fromStore s)) = v at hexec hmgmt hheld hfences
    refine ⟨_, hexec, rfl, rfl, congrArg Mgmt.fault hmgmt, fun c hc _ hrun => hheld c hc hrun, fun hbad => ?_⟩
    exact imageJudged_unread (hbad.imp_left hfences.trans)
  case judged =>
    obtain ⟨hfault, hstart, hparams⟩ := imageDone_fails (failAt := s.image.failAt) (applied := 0) (clamped := 0) (s := s) hv
    refine ⟨_, (exec_imageLoadEnd htap).trans (congrArg _ (imageLoadEnd_judged hl hd hv)), ?_⟩
    rw [imageDone_image, pn, pw_congr hparams, pw_congr hparams, pw_loadCounted_failAt, hstart]
    exact ⟨rfl, rfl, rfl, hfault, rfl, pn_loadCounted_applied, rfl⟩
  case ends =>
    cases hs : sourceOpen s.image.fromStore s with
    | true =>
      exact ⟨_, (exec_imageLoadEnd htap).trans (congrArg _ (imageLoadEnd_applied hl hd hv hs)), imageApplied_image _⟩
    | false =>
      refine ⟨_, (exec_imageLoadEnd htap).trans (congrArg _ (imageLoadEnd_closed hl hd hv hs)), ?_⟩
      rw [imageDone_image]
      exact ⟨rfl, rfl⟩
  case closed =>
    obtain ⟨hfault, hstart, -⟩ := imageDone_fails (result := 6) (failAt := 0xFFFFFF) (applied := 0) (clamped := 0) (s := s)
      (by decide)
    refine ⟨_, (exec_imageLoadEnd htap).trans (congrArg _ (imageLoadEnd_closed hl hd hv hs)), ?_⟩
    rw [imageDone_image, hstart]
    exact ⟨rfl, hfault, rfl⟩
  case good =>
    have hend : imageLoadEndEffect none s = imageDone 0 0xFFFFFF 0 0 s := by
      rw [imageLoadEnd_applied hl hd hv hs, imageRan_empty hops]
      rfl
    refine ⟨_, (exec_imageLoadEnd htap).trans (congrArg _ hend), congrArg Image.result imageDone_image, ?_⟩
    rw [imageDone_good rfl]
    have hparams := loadShown_params (result := 0) (failAt := 0xFFFFFF) (applied := 0) (clamped := 0) (s := s)
    refine ⟨closeWindow_open _, ?_, ?_⟩
    · rw [pn, pw_closeWindow (.inl (by decide)), pw_congr hparams]
      exact pn_loadCounted_applied
    · rw [pn, pw_closeWindow (.inl (by decide)), pw_congr hparams, pw_loadCounted_failAt]
      rfl

end Sys2Proof.Machine
end

section
/-! PROOFS. What a fence and the actions of the safe state keep of the safety island and of its parameters (chapter 18). -/

namespace Sys2Proof.Machine

open Host

variable {s t u : State} {id : Nat}

/-! ### Tenant faults of a ring that is served (R145, R182) -/

theorem safetyFlags_pushStart (t : Nat) (r : FaultRec) (s : State) : safetyFlags (pushStart t r s) = safetyFlags s := by
  unfold pushStart
  dsimp only
  split
  · exact (holdKept_pushFail t r s).flags
  · exact safetyFlags_of_evolves (m := 0x80d00) (perfAdd_ev rfl (modTen_ev rfl (post_ev rfl (.refl s))))

theorem flags_ite_apply {c : Prop} [Decidable c] {f : State → State} (hf : ∀ v, safetyFlags (f v) = safetyFlags v)
    (v : State) : safetyFlags (if c then f v else v) = safetyFlags v := by
  split
  · exact hf v
  · rfl

theorem safetyFlags_tenantFault (t bit ringNo : Nat) (rx : Bool) (cpl arg0 arg1 info : Nat) (s : State) :
    safetyFlags (tenantFault t bit ringNo rx cpl arg0 arg1 info s) = safetyFlags s := by
  unfold tenantFault
  refine (flags_ite_apply (f := faultActions t) (fun v => safetyFlags_of_evolves (m := 0x585f00)
    (faultActions_ev rfl (.refl v))) _).trans ?_
  refine (flags_ite_apply (f := raise 0 (3 + t)) (safetyFlags_raise _ _) _).trans ?_
  refine (flags_ite_apply (f := raise (t + 1) 4) (safetyFlags_raise _ _) _).trans ?_
  rw [safetyFlags_raise]
  split
  · exact safetyFlags_logFault ..
  · split
    · exact safetyFlags_logFault ..
    · exact (safetyFlags_pushStart ..).trans (safetyFlags_logFault ..)

/-- A step of the parse keeps the safety island's flags. -/
theorem flags_left_ite {c : Prop} [Decidable c] {p q : ParseStep} (hp : safetyFlags p.left = safetyFlags s)
    (hq : safetyFlags q.left = safetyFlags s) : safetyFlags (if c then p else q).left = safetyFlags s := by
  split
  · exact hp
  · exact hq

theorem safetyFlags_parseOne (t r : Nat) (s : State) : safetyFlags (parseOne t r s).left = safetyFlags s := by
  have hdrop : ∀ n lo hi, safetyFlags (dropSlots t r n lo hi s) = safetyFlags s := fun _ _ _ =>
    safetyFlags_of_evolves (m := 0x80500) (dropSlots_ev rfl (.refl s))
  have hzero : safetyFlags (ownZero t r s) = safetyFlags s :=
    safetyFlags_of_evolves (m := 0x80500) (ownZero_ev rfl (.refl s))
  unfold parseOne
  dsimp only
  split
  · rfl
  · refine flags_left_ite rfl (flags_left_ite (flags_left_ite (hdrop _ _ _) hzero) (flags_left_ite rfl
      (flags_left_ite (safetyFlags_tenantFault ..) (flags_left_ite (safetyFlags_tenantFault ..) (flags_left_ite rfl
      (flags_left_ite (hdrop _ _ _) (flags_left_ite rfl ?_)))))))
    split
    · exact safetyFlags_tenantFault ..
    · exact safetyFlags_of_evolves (m := 0x80500) (takeEntry_ev rfl (.refl s))

theorem safetyFlags_parseLoop (t r n : Nat) (s : State) : safetyFlags (parseLoop t r n s) = safetyFlags s := by
  induction n generalizing s with
  | zero => rfl
  | succ n ih =>
    have hone := safetyFlags_parseOne t r s
    unfold parseLoop
    split <;> rename_i he <;> rw [he] at hone
    · exact hone
    · exact (ih _).trans hone

theorem safetyFlags_serve (t r : Nat) (s : State) : safetyFlags (serve t r s) = safetyFlags s := by
  have hloop := safetyFlags_parseLoop t r ((ring s t r).slots.length + 1) s
  have hend : Evolves 0x780f00 (parseLoop t r ((ring s t r).slots.length + 1) s) (serve t r s) := by
    unfold serve
    exact fetchNext_ev rfl (drain_ev rfl (.refl _))
  rw [safetyFlags_of_evolves hend, hloop]

theorem safetyFlags_forEach {α : Type} {f : α → State → State} (hf : ∀ x v, safetyFlags (f x v) = safetyFlags v)
    (l : List α) (s : State) : safetyFlags (forEach l f s) = safetyFlags s := by
  induction l generalizing s with
  | nil => rfl
  | cons x l ih => rw [forEach_cons, ih, hf]

theorem safetyFlags_serviceBegin (s : State) : safetyFlags (serviceBegin s) = safetyFlags s := by
  refine safetyFlags_forAll (fun t v => ?_) 4 s
  unfold linkServe
  split
  · exact safetyFlags_forEach (fun ⟨r, _⟩ v => safetyFlags_serve t r v) _ v
  · rfl

/-! ### What a fence keeps (R22) -/

/-- The parameters in which the checks report: FENCE_SELF, the self-check's report and PROBE_STAT. -/
def Watched (id : Nat) : Prop := id = 0xA00001 ∨ id = 0x900001 ∨ id = 0x900002 ∨ id = 0x200007

theorem Watched.apart (h : Watched id) : ApartFromTenants id := by
  unfold Watched at h
  unfold ApartFromTenants
  omega

/-- The report of the checks is as it was. -/
structure ChecksKept (s t : State) : Prop where
  flags : safetyFlags t = safetyFlags s
  pw : ∀ id, Watched id → pw t id = pw s id

namespace ChecksKept

theorem refl (s : State) : ChecksKept s s := ⟨rfl, fun _ _ => rfl⟩

theorem trans (h : ChecksKept s u) (k : ChecksKept u t) : ChecksKept s t :=
  ⟨k.flags.trans h.flags, fun id hid => (k.pw id hid).trans (h.pw id hid)⟩

/-- A change of neither the parameters nor the safety island. -/
theorem of_evolves {m : Nat} (h : Evolves m s t) (h26 : m.testBit 26 = false := by decide)
    (h7 : m.testBit 7 = false := by decide) : ChecksKept s t :=
  ⟨safetyFlags_of_evolves h h26, fun id _ => pw_congr ((h.frame .params).resolve_left (ne_true_of_eq_false h7)) id⟩

/-- A change of the safety island's log alone, as far as the two go. -/
theorem of_params (hf : safetyFlags t = safetyFlags s) (hp : t.params = s.params) : ChecksKept s t :=
  ⟨hf, fun id _ => pw_congr hp id⟩

theorem of_same (hs : t.safety = s.safety) (hp : t.params = s.params) : ChecksKept s t :=
  of_params (safetyFlags_eq_of_safety_eq hs) hp

theorem ite {c : Prop} [Decidable c] (ht : ChecksKept s t) (hu : ChecksKept s u) : ChecksKept s (if c then t else u) := by
  split
  · exact ht
  · exact hu

theorem set_param {n v : Nat} (hn : ¬ Watched n) (s : State) : ChecksKept s (setPw n v s) :=
  ⟨rfl, fun _ hid => pw_setPw_ne (fun h => hn (by rwa [← h])) v s⟩

theorem forAll {n : Nat} {f : Nat → State → State} (hf : ∀ i v, i < n → ChecksKept v (f i v)) (s : State) :
    ChecksKept s (forAll n f s) := by
  induction n with
  | zero => exact .refl s
  | succ n ih => exact (ih fun i v hi => hf i v (by omega)).trans (by rw [forAll_succ]; exact hf n _ n.lt_succ_self)

end ChecksKept

theorem tenantResetStart_params (t : Nat) (s : State) : (tenantResetStart t s).params = s.params :=
  (tenantResetStart_ev (by decide) (.refl s)).kept .params

theorem checksKept_tenantResetStart (t : Nat) (s : State) : ChecksKept s (tenantResetStart t s) :=
  .of_params (safetyFlags_tenantResetStart t s) (tenantResetStart_params t s)

theorem checksKept_fenceQuad (q : Nat) (s : State) : ChecksKept s (fenceQuad q s) :=
  .of_evolves (m := 0x48dd00) (fenceQuad_ev rfl (.refl s))

theorem checksKept_fenceBank (b : Nat) (s : State) : ChecksKept s (fenceBank b s) :=
  .of_evolves (m := 0x2485d00) (fenceBank_ev rfl (.refl s))

theorem checksKept_fenceTenant (t : Nat) (s : State) : ChecksKept s (fenceTenant t s) :=
  (checksKept_tenantResetStart t s).trans (.of_same rfl rfl)

/-- A scan in progress is over. -/
def scanOver (s : State) : State := if bitOf (pn s 0x420002) 0 then setPw 0x420002 0 s else s

theorem checksKept_scanOver (s : State) : ChecksKept s (scanOver s) :=
  .ite (.set_param (n := 0x420002) (by unfold Watched; omega) s) (.refl s)

/-- MEDIUM becomes m. -/
def mediumGone (m : Nat) (s : State) : State := modStore (fun x => { x with medium := m, mountDue := false }) s

/-- The store holds no scratch way. -/
def noStoreWays (s : State) : State := { s with canopy := { s.canopy with storeWays := [] } }

theorem storeGone_eq (m : Nat) (s : State) :
    storeGone m s = setPw 0x410009 0 (noStoreWays (scanOver (mediumGone m s))) := rfl

theorem checksKept_storeGone (m : Nat) (s : State) : ChecksKept s (storeGone m s) := by
  have hgone : ChecksKept s (mediumGone m s) := .of_same rfl rfl
  have hways : ∀ v, ChecksKept v (noStoreWays v) := fun _ => .of_same rfl rfl
  rw [storeGone_eq]
  exact ((hgone.trans (checksKept_scanOver _)).trans (hways _)).trans
    (.set_param (n := 0x410009) (by unfold Watched; omega) _)

theorem checksKept_fenceStore (s : State) : ChecksKept s (fenceStore s) := by
  have hrefs : ChecksKept s (discardRefs s) := .of_evolves (m := 0x2005100) (discardRefs_ev rfl (.refl s))
  exact (hrefs.trans (checksKept_storeGone 0 _)).trans (.of_same rfl rfl)

/-- The Canopy holds nothing. -/
def canopyEmptied (s : State) : State :=
  { setPw 0x410009 0 s with scratch := [], canopy := { s.canopy with
    lines := [], fills := [], reads := [], queues := [], ways := 0, storeWays := [], pairWays := [] } }

theorem fenceCanopy_eq (s : State) : fenceCanopy s
    = forEach (s.canopy.queues.flatMap fun e => e.2) (fun m s => maintDone m.win 1 s) (canopyEmptied s) := rfl

theorem checksKept_fenceCanopy (s : State) : ChecksKept s (fenceCanopy s) := by
  have hempty : ChecksKept (setPw 0x410009 0 s) (canopyEmptied s) := .of_same rfl rfl
  rw [fenceCanopy_eq]
  refine ((ChecksKept.set_param (n := 0x410009) (by unfold Watched; omega) s).trans hempty).trans ?_
  exact .of_evolves (m := 0x110) (forEach_ev _ _ (fun _ _ h => maintDone_ev rfl h) (.refl _))

theorem safetyFlags_soloServed (s : State) : safetyFlags (soloServed s) = safetyFlags s := by
  have hrole : safetyFlags (soloRole s) = safetyFlags s := safetyFlags_of_evolves (soloRole_frame s)
  have hidle : safetyFlags (soloIdle s) = safetyFlags s := (safetyFlags_of_evolves (soloIdle_frame s)).trans hrole
  unfold soloServed
  split
  · exact hidle
  · exact (safetyFlags_serviceBegin _).trans hidle

theorem checksKept_portOff {p : Nat} {s : State} (hp : p < 32) : ChecksKept s (portOff p s) :=
  ⟨safetyFlags_of_evolves (m := 0x485d80) (portOff_ev rfl (.refl s)),
    fun id hid => pw_portOff_ne (by unfold Watched at hid; simp only [portCtl]; omega) s⟩

theorem checksKept_enterSolo (ports : Bool) (s : State) : ChecksKept s (enterSolo ports s) := by
  have hserved : ChecksKept s (soloServed s) :=
    ⟨safetyFlags_soloServed s, fun id hid => soloServed_pw (by unfold Watched at hid; omega) s⟩
  rw [enterSolo_eq]
  exact .ite (hserved.trans (.forAll (fun _ _ => checksKept_portOff) _)) hserved

theorem checksKept_fencePair (s : State) : ChecksKept s (fencePair s) := by
  unfold fencePair
  split
  · exact .of_same rfl rfl
  · exact (checksKept_enterSolo _ s).trans (.of_same rfl rfl)

theorem checksKept_abortAll (s : State) : ChecksKept s (abortAll s) :=
  .of_evolves (m := 0x100100) (abortAll_ev rfl (.refl s))

/-- No unit's fence touches the report of the checks. -/
theorem checksKept_fenceUnit (n : Nat) (s : State) : ChecksKept s (fenceUnit n s) := by
  unfold fenceUnit
  exact .ite (checksKept_fenceQuad n s) (.ite (checksKept_fenceBank _ s) (.ite (checksKept_fenceTenant _ s)
    (.ite (.of_same rfl rfl) (.ite (checksKept_fenceStore s)
    (.ite ((checksKept_fenceCanopy s).trans (checksKept_fencePair _))
    (.ite ((checksKept_abortAll s).trans (checksKept_fencePair _)) (.ite (checksKept_fencePair s) (.refl s))))))))

theorem checksKept_fenceNew (m : Nat) (was : Nat → Bool) (s : State) : ChecksKept s (fenceNew m was s) :=
  .forAll (fun n v _ => .ite (checksKept_fenceUnit n v) (.refl v)) s

/-! ### The device safe state (R549) -/

theorem Watched.suspended (h : Watched id) (s : State) : pw (suspended s) id = pw s id := by
  unfold Machine.suspended
  dsimp only
  split
  · exact (pw_congr rfl id).trans (pw_setPw_ne (by unfold Watched at h; omega) 0 s)
  · exact pw_congr rfl id

theorem pw_suspendNow (h : Watched id) (s : State) : pw (suspendNow s) id = pw s id := by
  have hpages := ((built_settleAll s.store.streams s).trans (built_flushPages (fun _ => true) _)).pw id
    (by unfold Watched at h; omega) (by unfold Watched at h; omega)
  unfold suspendNow
  split
  · rfl
  · exact (h.suspended _).trans hpages

theorem checksKept_safeActions (s : State) : ChecksKept s (safeActions s) := by
  have hcut : ChecksKept s (forAll 32 (fun p s => cutWire p s) s) :=
    .of_evolves (m := 0x484d00) (forAll_ev _ _ (fun _ _ h => cutWire_ev rfl h) (.refl s))
  have hstopped : ChecksKept s (tenantsStopped s) :=
    hcut.trans (.forAll (fun t v _ => checksKept_tenantResetStart t v) _)
  refine ⟨safetyFlags_safeActions s, fun id hid => ?_⟩
  rw [safeActions_eq, pw_suspendNow hid]
  exact (hstopped.trans (checksKept_abortAll _)).pw id hid

/-- The entry into the safe state leaves every parameter of the checks. -/
theorem pw_enterSafe (h : Watched id) (s : State) : pw (enterSafe s) id = pw s id := by
  cases hs : s.safety.safe with
  | true => rw [enterSafe_of_safe hs]
  | false =>
    rw [enterSafe_of_not_safe hs, (checksKept_safeActions _).pw id h]
    rfl

/-- The entry changes only the safe state and the watchdog of what the safety island shows. -/
theorem safetyFlags_enterSafe (s : State) : ∃ x : Safety, safetyFlags (enterSafe s) = x
    ∧ x.testFail = (safetyFlags s).testFail ∧ x.fttiMiss = (safetyFlags s).fttiMiss
    ∧ x.scDone = (safetyFlags s).scDone ∧ x.scPass = (safetyFlags s).scPass := by
  cases hs : s.safety.safe with
  | true => exact ⟨_, rfl, by rw [enterSafe_of_safe hs], by rw [enterSafe_of_safe hs], by rw [enterSafe_of_safe hs],
      by rw [enterSafe_of_safe hs]⟩
  | false =>
    refine ⟨_, rfl, ?_⟩
    rw [enterSafe_of_not_safe hs, safetyFlags_safeActions]
    exact ⟨rfl, rfl, rfl, rfl⟩

/-! ### A wake-up (R521) -/

theorem checksKept_tenantResetEnd {t : Nat} (ht : t < 4) (s : State) : ChecksKept s (tenantResetEnd t s) :=
  ⟨safetyFlags_tenantResetEnd t s, fun _ hid => pw_tenantResetEnd ht hid.apart s⟩

theorem pw_wakeExit (h : Watched id) (s : State) : pw (wakeExit s) id = pw s id := by
  unfold wakeExit
  dsimp only
  rw [(ChecksKept.of_evolves (m := 0x485d00) (forAll_ev _ _ (fun _ _ h => laneReview_ev rfl h) (.refl _))).pw id h,
    (ChecksKept.forAll (fun t v ht => checksKept_tenantResetEnd ht v) _).pw id h,
    pw_congr (raise_params ..), (ChecksKept.of_evolves (m := 0x48dd00) (trimApply_ev rfl (.refl _))).pw id h]
  exact (ChecksKept.of_evolves (m := 0x2000000) (sleepCounted_ev rfl (.refl s))).pw id h

theorem pw_becomeReady (h : Watched id) (s : State) : pw (becomeReady s) id = pw s id := by
  obtain ⟨hr, -⟩ | hr | hr := becomeReady_cases s
  · rw [hr]
  · rw [hr]
    rfl
  · rw [hr, pw_wakeExit h]
    rfl

end Sys2Proof.Machine
end

section
/-! PROOFS. O38: periodic tests, the self-check and READY (chapters 18 and 19). -/

namespace Sys2Proof.Machine

open Host

variable {s t u : State} {id c i : Nat}

/-! ### Parameters as time passes -/

theorem pw_ite_apply {p : Prop} [Decidable p] {f : State → State} (hf : ∀ v, pw (f v) id = pw v id) (v : State) :
    pw (if p then f v else v) id = pw v id := by
  split
  · exact hf v
  · rfl

theorem pw_stretchIsland (h : ∀ i, id ≠ 0x800002 + 256 * i) (f n i : Nat) (d : Droop) (s : State) :
    pw (stretchIsland f n i d s) id = pw s id := by
  have hover : ∀ k, pw (stretchOver i k s) id = pw s id := by
    intro k
    unfold stretchOver
    split
    · rfl
    · rw [pw_congr ((forAll_ev (m := allBut .params) _ _ (fun _ _ h => raise_ev (by decide) h) (.refl _)).kept .params)]
      exact pw_setPw_ne (h i) _ s
  unfold stretchIsland
  dsimp only
  split
  · split
    · rfl
    · rfl
  · exact hover _

theorem pw_droopTicks (h : ∀ i, id ≠ 0x800002 + 256 * i) (f n : Nat) (s : State) : pw (droopTicks f n s) id = pw s id := by
  have hall : ∀ (l : Tab Droop) (v : State), pw (forEach l (fun (i, d) s => stretchIsland f n i d s) v) id = pw v id := by
    intro l
    induction l with
    | nil => exact fun _ => rfl
    | cons x l ih => exact fun v => by rw [forEach_cons, ih, pw_stretchIsland h]
  exact hall s.droop s

theorem pw_timeTicks (h : id ≠ 0x300002) (n : Nat) (s : State) : pw (timeTicks n s) id = pw s id := by
  have hpush : ∀ a b c d v, (segPush a b c d v).params = v.params := fun _ _ _ _ v =>
    (segPush_ev (by decide) (.refl v)).kept .params
  unfold timeTicks
  refine (pw_ite_apply (f := raise 0 23) (fun v => pw_congr (raise_params ..) id) _).trans ?_
  dsimp only
  split
  · refine pw_congr ?_ id
    change State.params (ite ..) = _
    split
    · rfl
    · exact hpush ..
  · refine (pw_setPw_ne h _ _).trans (pw_congr ?_ id)
    change State.params (ite ..) = _
    split
    · exact hpush ..
    · exact (hpush ..).trans (hpush ..)

/-- Time leaves every parameter but PHASE_SLEW and STRETCH_OVER. -/
theorem pw_wait (hs : id ≠ 0x300002) (hd : ∀ i, id ≠ 0x800002 + 256 * i) (n : Nat) (s : State) :
    pw (wait n s) id = pw s id := by
  unfold wait
  dsimp only
  split
  · rfl
  · generalize hv : ({ s with clk := s.clk + n } : State) = v
    have hpar : v.params = s.params := hv ▸ rfl
    have h1 : pw (droopTicks (s.time.fixed % 500000) n (perfTicks n (timeTicks n v))) id = pw s id := by
      rw [pw_droopTicks hd, pw_congr ((perfTicks_ev (by decide) (.refl _)).kept .params),
        pw_timeTicks hs, pw_congr hpar]
    generalize droopTicks (s.time.fixed % 500000) n (perfTicks n (timeTicks n v)) = w at h1
    have h2 : pw (if countsEngine w = true then forAll 4 (engineTicks n) w else w) id = pw s id := by
      split
      · have hev : Evolves (allBut .params) w (forAll 4 (engineTicks n) w) :=
          forAll_ev 4 _ (fun t v hv => engineTicks_ev (by decide) hv) (.refl w)
        exact (pw_congr (hev.kept .params) _).trans h1
      · exact h1
    generalize (if countsEngine w = true then forAll 4 (engineTicks n) w else w) = x at h2 ⊢
    split
    · rw [pw_congr ((gateCatchUp_ev (by decide) (.refl _)).kept .params), h2]
    · exact h2

theorem pw_waitUntil (n : Nat) (s : State) : pw (waitUntil n s) 0xA00001 = pw s 0xA00001 :=
  pw_wait (by decide) (fun i h => by omega) _ s

/-! ### A test's turn (R542) -/

/-- The turn of a test changes neither management nor FENCE_SELF, and only the half-period and the tests' instants of the
safety island. -/
structure TurnTaken (s t : State) : Prop where
  mgmt : t.mgmt = s.mgmt
  fenceSelf : pw t 0xA00001 = pw s 0xA00001
  misses : t.safety.misses = s.safety.misses
  clk : s.clk ≤ t.clk

namespace TurnTaken

theorem refl (s : State) : TurnTaken s s := ⟨rfl, rfl, rfl, le_rfl⟩

theorem trans (h : TurnTaken s u) (k : TurnTaken u t) : TurnTaken s t :=
  ⟨k.mgmt.trans h.mgmt, k.fenceSelf.trans h.fenceSelf, k.misses.trans h.misses, h.clk.trans k.clk⟩

end TurnTaken

theorem turnTaken_rollHalf (s : State) : TurnTaken s (rollHalf s) := by
  unfold rollHalf
  dsimp only
  split
  · exact .refl s
  · exact ⟨rfl, rfl, rfl, le_rfl⟩

theorem turnTaken_waitUntil (n : Nat) (s : State) : TurnTaken s (waitUntil n s) where
  mgmt := (waitUntil_ev (by decide) (.refl s)).kept .mgmt
  fenceSelf := pw_waitUntil n s
  misses := congrArg Safety.misses ((waitUntil_ev (m := allBut .safety) (by decide) (.refl s)).kept .safety)
  clk := by rw [waitUntil_clk]; exact le_max_left ..

/-- The half-period in which the test falls: the next one where the checker was tested in this. -/
def turnHalf (c i : Nat) (s : State) : State :=
  if s.safety.tested.contains (c, i) then rollHalf (waitUntil (halfEnd s) s) else s

/-- The instant of the test in its half-period. -/
def turnOffset (c i : Nat) (s : State) : Nat :=
  min (tget s.safety.offsets (25 * c + i) (s.clk - halfStart s)) (s.safety.halfLen - ms 1)

/-- The test is noted in its half-period. -/
def turnNoted (c i off : Nat) (s : State) : State :=
  modSafety (fun x => { x with tested := (c, i) :: x.tested, offsets := tput x.offsets (25 * c + i) off }) s

theorem testTurn_eq (c i : Nat) (s : State) : testTurn c i s = turnNoted c i (turnOffset c i (turnHalf c i (rollHalf s)))
    (waitUntil (halfStart (turnHalf c i (rollHalf s)) + turnOffset c i (turnHalf c i (rollHalf s)))
      (turnHalf c i (rollHalf s))) := rfl

theorem turnTaken_turnHalf (c i : Nat) (s : State) : TurnTaken s (turnHalf c i s) := by
  unfold turnHalf
  split
  · exact (turnTaken_waitUntil _ s).trans (turnTaken_rollHalf _)
  · exact .refl s

theorem turnTaken_testTurn (c i : Nat) (s : State) : TurnTaken s (testTurn c i s) := by
  have hnoted : ∀ off v, TurnTaken v (turnNoted c i off v) := fun _ _ => ⟨rfl, rfl, rfl, le_rfl⟩
  rw [testTurn_eq]
  exact (((turnTaken_rollHalf s).trans (turnTaken_turnHalf c i _)).trans (turnTaken_waitUntil _ _)).trans (hnoted _ _)

/-- A checker tested in the present half-period waits for the next (assumption 71). -/
theorem testTurn_waits (hc : s.clk < halfEnd s) (ht : (c, i) ∈ s.safety.tested) : halfEnd s ≤ (testTurn c i s).clk := by
  have hroll : rollHalf s = s := if_pos hc
  have hhalf : turnHalf c i s = rollHalf (waitUntil (halfEnd s) s) := if_pos (List.contains_iff_mem.2 ht)
  have hwait : halfEnd s ≤ (turnHalf c i (rollHalf s)).clk := by
    rw [hroll, hhalf]
    refine le_trans ?_ (turnTaken_rollHalf _).clk
    rw [waitUntil_clk]
    exact le_max_right ..
  rw [testTurn_eq]
  exact hwait.trans (turnTaken_waitUntil _ _).clk

/-! ### A failed test (R544) -/

/-- What a failed test of a checker leaves: M_FAULT.PERIODIC_TEST and TEST_FAIL, FTTI_MISS as it was, and the device safe
state or the fence of the checker's unit. -/
structure TestFailed (c i : Nat) (s t : State) : Prop where
  fault : t.mgmt.fault.getLsbD 5 = true
  testFail : t.safety.testFail = true
  fttiMiss : t.safety.fttiMiss = s.safety.fttiMiss
  safe : checkerSafe c i = true → t.safety.safe = true
  fence : checkerSafe c i = false → word (pn t 0xA00001) = word (pn s 0xA00001 ||| checkerFence c i)
  probe : checkerSafe c i = false → pw t 0x200007 = pw s 0x200007

theorem reportTest_bit (c i : Nat) (s : State) : (reportTest c i s).mgmt.fault.getLsbD 5 = true := by
  rw [reportTest_fault, BitVec.getLsbD_or]
  simp

theorem fenceSelf_mgmt (m : Nat) (s : State) : (fenceSelf m s).mgmt = s.mgmt :=
  ((fenceSelf_ev (m := 0xefadf90) rfl (.refl s)).frame .mgmt).resolve_left (by decide)

theorem safetyFlags_fenceSelf (m : Nat) (s : State) : safetyFlags (fenceSelf m s) = safetyFlags s :=
  (checksKept_fenceNew m _ _).flags

theorem pw_fenceSelf_self (m : Nat) (s : State) : pw (fenceSelf m s) 0xA00001 = word (pn s 0xA00001 ||| m) :=
  ((checksKept_fenceNew m _ _).pw _ (.inl rfl)).trans (pw_setPw_same ..)

theorem pw_fenceSelf_probe (m : Nat) (s : State) : pw (fenceSelf m s) 0x200007 = pw s 0x200007 :=
  ((checksKept_fenceNew m _ _).pw _ (.inr (.inr (.inr rfl)))).trans (pw_setPw_ne (by decide) _ _)

theorem word_pn (s : State) (id : Nat) : word (pn s id) = pw s id := word_toNat _

theorem testFailed_failTest (c i : Nat) (s : State) : TestFailed c i s (failTest c i s) := by
  have hflags := safetyFlags_reportTest c i s
  have hbit := reportTest_bit c i s
  have hpar := reportTest_params c i s
  unfold failTest
  dsimp only
  generalize reportTest c i s = u at hflags hbit hpar
  have hfail : u.safety.testFail = true := (congrArg Safety.testFail hflags :)
  have hmiss : u.safety.fttiMiss = s.safety.fttiMiss := (congrArg Safety.fttiMiss hflags :)
  cases hs : checkerSafe c i with
  | true =>
    rw [if_pos rfl]
    obtain ⟨x, hx, htest, hftti, -, -⟩ := safetyFlags_enterSafe u
    have hmgmt := enterSafe_mgmt u
    have hsafe := enterSafe_safe u
    generalize enterSafe u = t at hx hmgmt hsafe
    subst hx
    exact ⟨by rw [hmgmt, hbit], htest.trans hfail, hftti.trans hmiss, fun _ => hsafe,
      fun h => absurd (hs.symm.trans h) nofun, fun h => absurd (hs.symm.trans h) nofun⟩
  | false =>
    rw [if_neg Bool.false_ne_true]
    split
    · next hf =>
      refine ⟨hbit, hfail, hmiss, fun h => absurd (hs.symm.trans h) nofun, fun _ => ?_, fun _ => pw_congr hpar _⟩
      rw [hf, Nat.or_zero, pn_eq_of_params_eq hpar]
    · have hmgmt := fenceSelf_mgmt (checkerFence c i) u
      have hkept := safetyFlags_fenceSelf (checkerFence c i) u
      have hself := pw_fenceSelf_self (checkerFence c i) u
      have hprobe := pw_fenceSelf_probe (checkerFence c i) u
      generalize fenceSelf (checkerFence c i) u = t at hmgmt hkept hself hprobe
      refine ⟨by rw [hmgmt, hbit], (congrArg Safety.testFail hkept :).trans hfail,
        (congrArg Safety.fttiMiss hkept :).trans hmiss, fun h => absurd (hs.symm.trans h) nofun, fun _ => ?_, fun _ => hprobe.trans (pw_congr hpar _)⟩
      rw [word_pn, hself, pn_eq_of_params_eq hpar]

/-! ### Periodic tests (R542 to R545) -/

theorem exec_periodicTest (c : Fin 48) (i : Fin 25) (e : TestEnd) (h : s.tap = false) :
    exec (.periodicTest c i e) s = .next (periodicTestEffect c i e s) := live_next s (periodicTestEffect c i e) h

theorem periodicTest_skipped {e : TestEnd} (h : testSkipped s c i = true) : periodicTestEffect c i e s = s := if_pos h

theorem periodicTest_pass (h : testSkipped s c i = false) :
    periodicTestEffect c i .pass s = setMisses c 0 (testTurn c i s) := if_neg (by simp [h])

theorem periodicTest_corrected (h : testSkipped s c i = false) :
    periodicTestEffect c i .corrected s = perfAdd 0x040004 1 (setMisses c 0 (testTurn c i s)) := if_neg (by simp [h])

theorem periodicTest_struck {cell : Fin 49152} (h : testSkipped s c i = false) :
    periodicTestEffect c i (.struck cell) s = testStrike cell (setMisses c 0 (testTurn c i s)) := if_neg (by simp [h])

theorem periodicTest_fail (h : testSkipped s c i = false) :
    periodicTestEffect c i .fail s = failTest c i (setMisses c 0 (testTurn c i s)) := if_neg (by simp [h])

/-- A miss shows at the end of the half-period. -/
def missShown (c i : Nat) (s : State) : State :=
  logFault 3 4 0 (checkerIsland c i) c 0 false
    (safetySets s.safety.fttiMiss (fun x => { x with fttiMiss := true }) (waitUntil (halfEnd s) s))

theorem periodicTest_miss (h : testSkipped s c i = false) : periodicTestEffect c i .miss s
    = if tget (testTurn c i s).safety.misses c 0 + 1 ≥ 2 then failTest c i (setMisses c 0 (missShown c i (testTurn c i s)))
      else setMisses c (tget (testTurn c i s).safety.misses c 0 + 1) (missShown c i (testTurn c i s)) :=
  if_neg (by simp [h])

theorem setMisses_misses (c n : Nat) (s : State) : tget (setMisses c n s).safety.misses c 0 = n :=
  tget_tput_same ..

theorem missShown_fields (c i : Nat) (s : State) : (missShown c i s).mgmt = s.mgmt
    ∧ (missShown c i s).safety.fttiMiss = true := by
  have hflags : safetyFlags (missShown c i s)
      = { (waitUntil (halfEnd s) s).safety with fttiMiss := true, logOrder := [] } :=
    (safetyFlags_logFault ..).trans (safetyFlags_safetySets ..)
  refine ⟨?_, (congrArg Safety.fttiMiss hflags :)⟩
  rw [missShown, logFault_mgmt, safetySets_mgmt]
  exact (waitUntil_ev (by decide) (.refl s)).kept .mgmt

theorem exec_detectorDisagreement (i : Fin 25) (h : s.tap = false) :
    exec (.detectorDisagreement i) s = .next (detectorDisagreementEffect i s) := live_next s (detectorDisagreementEffect i) h

theorem detectorDisagreement_fails (hi : i ≠ 1) (hf : allFenced s (islandFence i) = false) :
    detectorDisagreementEffect i s = failTest 40 i s := if_neg (by simp [hi, hf])

theorem checkerSafe_detector (i : Nat) : checkerSafe 40 i = (i == 0 || i == 24) := by
  simp [checkerSafe]

theorem checkerFence_detector (i : Nat) : checkerFence 40 i = islandFence i := rfl

theorem exec_knownAnswerProbe (passed : Bool) (h : s.tap = false) :
    exec (.knownAnswerProbe passed) s = .next (knownAnswerProbeEffect passed s) :=
  live_next s (knownAnswerProbeEffect passed) h

theorem knownAnswerProbe_passed (h : testSkipped s 22 0 = false) : knownAnswerProbeEffect true s = setPw 0x200007 1 s :=
  (if_neg (by simp [h])).trans (if_pos rfl)

theorem knownAnswerProbe_failed (h : testSkipped s 22 0 = false) :
    knownAnswerProbeEffect false s = failTest 22 0 (setPw 0x200007 0 s) :=
  (if_neg (by simp [h])).trans (if_neg Bool.false_ne_true)

/-- A failed probe clears PROBE_STAT and fences the Thicket. -/
theorem knownAnswerProbe_reports (s : State) : pn (failTest 22 0 (setPw 0x200007 0 s)) 0x200007 = 0
    ∧ (failTest 22 0 (setPw 0x200007 0 s)).mgmt.fault.getLsbD 5 = true
    ∧ bitOf (pn (failTest 22 0 (setPw 0x200007 0 s)) 0xA00001) 16 = true := by
  have hfailed := testFailed_failTest 22 0 (setPw 0x200007 0 s)
  generalize failTest 22 0 (setPw 0x200007 0 s) = t at hfailed
  refine ⟨?_, hfailed.fault, ?_⟩
  · rw [pn, hfailed.probe (by decide), pw_setPw_same]
    rfl
  · have hword : pw t 0xA00001 = word (pn (setPw 0x200007 0 s) 0xA00001 ||| 2 ^ 16) :=
      (word_pn t _).symm.trans (hfailed.fence (by decide))
    have hn : (pn (setPw 0x200007 0 s) 0xA00001 ||| 2 ^ 16) < 2 ^ 24 := Nat.or_lt_two_pow (BitVec.isLt _) (by decide)
    rw [pn, hword, toNat_word hn, bitOf, Nat.testBit_or, Nat.testBit_two_pow_self, Bool.or_true]

/-! ### READY (R570) -/

/-- READY sets when the self-check and memory initialisation have ended, and nothing else of these shows. -/
theorem becomeReady_checked (s : State) : (becomeReady s).start.checked = s.start.checked
    ∧ (becomeReady s).start.faultN = s.start.faultN
    ∧ (s.start.checked = true → s.start.memInit = true → (becomeReady s).start.ready = true) := by
  obtain ⟨h, hbar⟩ | h | h := becomeReady_cases s
  · rw [h]
    exact ⟨rfl, rfl, fun hc hm => by simpa [hc, hm] using hbar⟩
  · rw [h]
    exact ⟨rfl, rfl, fun _ _ => rfl⟩
  · rw [h, wakeExit_start]
    exact ⟨rfl, rfl, fun _ _ => rfl⟩

theorem exec_memoryInitialisationEnd (h : s.tap = false) :
    exec .memoryInitialisationEnd s = .next (memoryInitialisationEndEffect s) :=
  live_next s memoryInitialisationEndEffect h

/-- The state in which memory initialisation has ended. -/
def memInited (s : State) : State := { s with start := { s.start with memInit := true } }

theorem memoryInitialisationEnd_running (h : running s = true) :
    memoryInitialisationEndEffect s = becomeReady (memInited s) := if_pos h

theorem becomeReady_memInited (hr : s.start.ready = false) (hw : s.power.waking = false) :
    becomeReady (memInited s) = { s with start := (if s.start.checked || s.start.pllFailed
      then { s.start with memInit := true, ready := true, readyAt := s.clk } else { s.start with memInit := true }) } := by
  have hneg : ∀ b : Bool, ¬((memInited s).start.ready = true ∨ (!(memInited s).start.memInit) = true ∨ (!b) = true)
      ↔ b = true := fun b => by simp [memInited, hr]
  have hend : ((memInited s).start.checked || (memInited s).start.pllFailed) = (s.start.checked || s.start.pllFailed) := rfl
  unfold becomeReady
  rw [hend]
  cases hc : s.start.checked || s.start.pllFailed with
  | false => exact if_pos (.inr (.inr rfl))
  | true =>
    rw [if_neg ((hneg true).2 rfl)]
    simp [memInited, hw]

/-! ### The self-check (R540, R541) -/

/-- The fence and the report of the self-check. -/
def selfFenced (fence report : Nat) (s : State) : State :=
  fenceNew fence (fenced s) (setWide 0x900001 2 report (setPw 0xA00001 fence s))

/-- The self-check has ended: its status bits, and FAULT_N as the safe state has it. -/
def selfChecked (done pass : Bool) (s : State) : State :=
  let u := safetySets done (fun x => { x with scDone := true, scPass := pass }) s
  { u with start := { u.start with checked := true, faultN := u.safety.safe } }

/-- The one failed checker is reported by M_FAULT, and by the safe state where its table says so. -/
def selfReported (c i : Nat) (l : Nat × Nat) (s : State) : State :=
  let u := setMFault 4 (checkerIsland l.1 l.2) 31 l.1 0 (checkerSafe c i && !s.safety.safe) (selfFenced (checkerFence c i) (2 ^ c) s)
  if checkerSafe c i then enterSafe u else u

theorem selfCheckEnd_none (hc : s.start.checked = false) (hp : s.start.pllFailed = false) (hl : s.time.pll = true)
    (hr : running s = true) :
    selfCheckEndEffect [] s = becomeReady (selfChecked s.safety.scDone true (selfFenced 0 0 s)) := by
  unfold selfCheckEndEffect
  exact if_neg (by simp [hc, hp, hl, hr])

theorem selfCheckEnd_one (c i : Nat) (hc : s.start.checked = false) (hp : s.start.pllFailed = false)
    (hl : s.time.pll = true) (hr : running s = true) : ∃ l, selfCheckEndEffect [(c, i)] s
      = becomeReady (selfChecked s.safety.scDone false (selfReported c i l s)) := by
  refine ⟨if c < 48 then (c, i) else (48, 0), ?_⟩
  unfold selfCheckEndEffect
  rw [if_neg (by simp [hc, hp, hl, hr])]
  simp only [List.foldl_cons, List.foldl_nil, List.any_cons, List.any_nil, Bool.or_false, Nat.zero_or, selfReported,
    selfChecked, selfFenced, reduceCtorEq, if_false, decide_false]

/-- No unit is fenced by an empty mask. -/
theorem fenceNew_zero (was : Nat → Bool) (s : State) : fenceNew 0 was s = s := by
  refine forAll_id fun n _ => ?_
  simp [bitOf]

theorem pwide_setWide {v : Nat} (hv : v < 2 ^ 48) (s : State) : pwide (setWide 0x900001 2 v s) 0x900001 2 = v := by
  have hlow : pw (setWide 0x900001 2 v s) 0x900001 = word (v >>> 0) :=
    (pw_setPw_ne (by decide) _ _).trans (pw_setPw_same ..)
  have hhigh : pw (setWide 0x900001 2 v s) 0x900002 = word (v >>> 24) := pw_setPw_same ..
  have hwide : pwide (setWide 0x900001 2 v s) 0x900001 2
      = (pw (setWide 0x900001 2 v s) 0x900001).toNat + 2 ^ 24 * ((pw (setWide 0x900001 2 v s) 0x900002).toNat + 2 ^ 24 * 0) :=
    rfl
  rw [hwide, hlow, hhigh, word, word, BitVec.toNat_ofNat, BitVec.toNat_ofNat, Nat.shiftRight_zero,
    Nat.shiftRight_eq_div_pow]
  omega

/-- The two words of the self-check's report. -/
theorem pwide_congr (hl : pw t 0x900001 = pw s 0x900001) (hh : pw t 0x900002 = pw s 0x900002) :
    pwide t 0x900001 2 = pwide s 0x900001 2 := by
  have hwide : ∀ v : State, pwide v 0x900001 2 = (pw v 0x900001).toNat + 2 ^ 24 * ((pw v 0x900002).toNat + 2 ^ 24 * 0) :=
    fun _ => rfl
  rw [hwide, hwide, hl, hh]

/-- What the self-check shows in t where u stands before its end: the status bits, the parameters of the checks, M_FAULT and
FAULT_N. -/
structure SelfShown (pass : Bool) (u t : State) : Prop where
  scDone : t.safety.scDone = true
  scPass : t.safety.scPass = pass
  safe : t.safety.safe = u.safety.safe
  pw : ∀ id, Watched id → pw t id = pw u id
  mgmt : t.mgmt = u.mgmt
  checked : t.start.checked = true
  faultN : t.start.faultN = u.safety.safe
  ready : u.start.memInit = true → t.start.ready = true

theorem selfShown_becomeReady (done pass : Bool) (u : State) :
    SelfShown pass u (becomeReady (selfChecked done pass u)) := by
  have hflags : safetyFlags (selfChecked done pass u) = { u.safety with scDone := true, scPass := pass, logOrder := [] } :=
    safetyFlags_safetySets done (fun x => { x with scDone := true, scPass := pass }) u
  have hpar : (selfChecked done pass u).params = u.params :=
    (safetySets_ev (m := allBut .params) (by decide) (.refl u)).kept .params
  have hmgmt : (selfChecked done pass u).mgmt = u.mgmt := safetySets_mgmt ..
  have hstart : (safetySets done (fun x => { x with scDone := true, scPass := pass }) u).start = u.start :=
    (safetySets_ev (m := allBut .start) (by decide) (.refl u)).kept .start
  have hsafe : (selfChecked done pass u).safety.safe = u.safety.safe := (congrArg Safety.safe hflags :)
  have hfault : (selfChecked done pass u).start.faultN = u.safety.safe := hsafe
  have hmem : (selfChecked done pass u).start.memInit = u.start.memInit := (congrArg Start.memInit hstart :)
  have hchecked : (selfChecked done pass u).start.checked = true := rfl
  generalize selfChecked done pass u = w at *
  obtain ⟨hc, hf, hready⟩ := becomeReady_checked w
  have hend := (safetyFlags_becomeReady w).trans hflags
  have hpw := fun id h => (pw_becomeReady (id := id) h w).trans (pw_congr hpar id)
  have hm := becomeReady_mgmt w
  generalize becomeReady w = t at *
  exact ⟨(congrArg Safety.scDone hend :), (congrArg Safety.scPass hend :), (congrArg Safety.safe hend :), hpw,
    hm.trans hmgmt, hc.trans hchecked, hf.trans hfault, fun hi => hready hchecked (hmem.trans hi)⟩

theorem selfFenced_mgmt (fence report : Nat) (s : State) : (selfFenced fence report s).mgmt = s.mgmt :=
  ((fenceNew_ev (m := 0xefadf90) rfl (.refl _)).frame .mgmt).resolve_left (by decide)

theorem selfFenced_start (fence report : Nat) (s : State) : (selfFenced fence report s).start = s.start :=
  ((fenceNew_ev (m := 0xefadf90) rfl (.refl _)).frame .start).resolve_left (by decide)

theorem pwide_selfFenced {report : Nat} (fence : Nat) (hr : report < 2 ^ 48) (s : State) :
    pwide (selfFenced fence report s) 0x900001 2 = report := by
  have hkept := checksKept_fenceNew fence (fenced s) (setWide 0x900001 2 report (setPw 0xA00001 fence s))
  exact (pwide_congr (hkept.pw _ (.inr (.inl rfl))) (hkept.pw _ (.inr (.inr (.inl rfl))))).trans (pwide_setWide hr _)

/-- What the report of a failed checker leaves before the self-check's end. -/
theorem selfReported_fields {c : Nat} (hc : c < 48) (i : Nat) (l : Nat × Nat) (s : State) :
    pwide (selfReported c i l s) 0x900001 2 = 2 ^ c ∧ (selfReported c i l s).mgmt.fault.getLsbD 4 = true
    ∧ (checkerSafe c i = true → (selfReported c i l s).safety.safe = true)
    ∧ (selfReported c i l s).start.memInit = s.start.memInit := by
  have hwide : pwide (selfFenced (checkerFence c i) (2 ^ c) s) 0x900001 2 = 2 ^ c :=
    pwide_selfFenced _ (Nat.pow_lt_pow_right (by decide) hc) s
  have hstart := selfFenced_start (checkerFence c i) (2 ^ c) s
  unfold selfReported
  dsimp only
  generalize selfFenced (checkerFence c i) (2 ^ c) s = v at hwide hstart
  have hfault : (setMFault 4 (checkerIsland l.1 l.2) 31 l.1 0 (checkerSafe c i && !s.safety.safe) v).mgmt.fault.getLsbD 4
      = true := by
    rw [setMFault_fault]
    exact getLsbD_orBit _ (by decide)
  have hpar := setMFault_params 4 (checkerIsland l.1 l.2) 31 l.1 0 (checkerSafe c i && !s.safety.safe) v
  have hst := setMFault_start 4 (checkerIsland l.1 l.2) 31 l.1 0 (checkerSafe c i && !s.safety.safe) v
  generalize setMFault 4 (checkerIsland l.1 l.2) 31 l.1 0 (checkerSafe c i && !s.safety.safe) v = u at hfault hpar hst
  have hu : pwide u 0x900001 2 = 2 ^ c := (pwide_congr (pw_congr hpar _) (pw_congr hpar _)).trans hwide
  cases hs : checkerSafe c i with
  | false => exact ⟨hu, hfault, nofun, congrArg Start.memInit (hst.trans hstart)⟩
  | true =>
    rw [if_pos rfl, enterSafe_mgmt, enterSafe_start]
    refine ⟨?_, hfault, fun _ => enterSafe_safe u, ?_⟩
    · exact (pwide_congr (pw_enterSafe (.inr (.inl rfl)) u) (pw_enterSafe (.inr (.inr (.inl rfl))) u)).trans hu
    · have hmem : u.start.memInit = s.start.memInit := congrArg Start.memInit (hst.trans hstart)
      split
      · exact hmem
      · exact hmem

/-- Settles O38: a test's turn is `TurnTaken`, a failed test `TestFailed`, and the self-check shows what stands before its
end (`SelfShown`), which no fence touches (`ChecksKept`). -/
theorem checksReactAsTheirTableSays : Obligations.ChecksReactAsTheirTableSays := by
  unfold Obligations.ChecksReactAsTheirTableSays
  refine ⟨fun s c i htap h e => (exec_periodicTest c i e htap).trans (congrArg _ (periodicTest_skipped h)),
    fun s c i htap h => ?periodic, fun s i htap hi hf => ?detector, fun s htap h => ?probe,
    fun s htap hc hp hl hr => ?selfCheck, fun s htap hr hready hw => ?memory⟩
  case periodic =>
    have hturn := turnTaken_testTurn c i s
    have hwaits := testTurn_waits (s := s) (c := c) (i := i)
    have hpass := (exec_periodicTest c i .pass htap).trans (congrArg _ (periodicTest_pass h))
    have hcorrected := (exec_periodicTest c i .corrected htap).trans (congrArg _ (periodicTest_corrected h))
    have hstruck := fun cell => (exec_periodicTest c i (.struck cell) htap).trans (congrArg _ (periodicTest_struck h))
    have hfail := (exec_periodicTest c i .fail htap).trans (congrArg _ (periodicTest_fail h))
    have hmiss := (exec_periodicTest c i .miss htap).trans (congrArg _ (periodicTest_miss h))
    generalize testTurn c i s = u at *
    refine ⟨⟨_, hpass, setMisses_misses .., congrArg Mgmt.fault hturn.mgmt, hwaits⟩, hcorrected, hstruck, ?_,
      fun hm => ?_, fun hm => ?_⟩
    · have hfailed := testFailed_failTest c i (setMisses c 0 u)
      refine ⟨_, hfail, hfailed.fault, hfailed.testFail, hfailed.safe, fun hs => ?_⟩
      have hself : pn (setMisses c 0 u) 0xA00001 = pn s 0xA00001 := congrArg BitVec.toNat hturn.fenceSelf
      rw [hfailed.fence hs, hself]
    · rw [hturn.misses, hm, if_neg (by decide)] at hmiss
      obtain ⟨hmgmt, hftti⟩ := missShown_fields c i u
      exact ⟨_, hmiss, hftti, setMisses_misses .., congrArg Mgmt.fault (hmgmt.trans hturn.mgmt)⟩
    · rw [hturn.misses, if_pos (Nat.succ_le_succ hm)] at hmiss
      have hfailed := testFailed_failTest c i (setMisses c 0 (missShown c i u))
      exact ⟨_, hmiss, hfailed.fttiMiss.trans (missShown_fields c i u).2, hfailed.fault, hfailed.testFail⟩
  case detector =>
    have hfailed := testFailed_failTest 40 i s
    refine ⟨_, (exec_detectorDisagreement i htap).trans (congrArg _ (detectorDisagreement_fails ?_ hf)), hfailed.fault,
      hfailed.testFail, fun hd => hfailed.safe ?_, fun h0 h24 => hfailed.fence ?_⟩
    · exact fun h => hi (Fin.ext h)
    · obtain rfl | rfl := hd <;> rfl
    · rw [checkerSafe_detector, Bool.or_eq_false_iff, beq_eq_false_iff_ne, beq_eq_false_iff_ne]
      exact ⟨fun h => h0 (Fin.ext h), fun h => h24 (Fin.ext h)⟩
  case probe =>
    exact ⟨(exec_knownAnswerProbe true htap).trans (congrArg _ (knownAnswerProbe_passed h)),
      _, (exec_knownAnswerProbe false htap).trans (congrArg _ (knownAnswerProbe_failed h)), knownAnswerProbe_reports s⟩
  case selfCheck =>
    refine ⟨?_, fun c i => ?_⟩
    · have hshown := selfShown_becomeReady s.safety.scDone true (selfFenced 0 0 s)
      have hexec := (live_next s (selfCheckEndEffect []) htap).trans (congrArg _ (selfCheckEnd_none hc hp hl hr))
      have hwide : pwide (selfFenced 0 0 s) 0x900001 2 = 0 := pwide_selfFenced 0 (by decide) s
      have hself : pw (selfFenced 0 0 s) 0xA00001 = 0 := by
        rw [selfFenced, fenceNew_zero]
        exact (pw_setPw_ne (by decide) _ _).trans ((pw_setPw_ne (by decide) _ _).trans (pw_setPw_same ..))
      have hmgmt := selfFenced_mgmt 0 0 s
      have hstart := selfFenced_start 0 0 s
      generalize selfFenced 0 0 s = u at *
      generalize becomeReady (selfChecked s.safety.scDone true u) = t at *
      refine ⟨t, hexec, hshown.scDone, hshown.scPass, ?_, ?_, hshown.checked, ?_, fun hm => hshown.ready ?_⟩
      · exact (pwide_congr (hshown.pw _ (.inr (.inl rfl))) (hshown.pw _ (.inr (.inr (.inl rfl))))).trans hwide
      · rw [pn, hshown.pw _ (.inl rfl), hself]
        rfl
      · rw [hshown.mgmt, hmgmt]
      · rw [hstart, hm]
    · obtain ⟨l, hend⟩ := selfCheckEnd_one c.val i.val hc hp hl hr
      have hexec := (live_next s (selfCheckEndEffect [(c.val, i.val)]) htap).trans (congrArg _ hend)
      obtain ⟨hwide, hfault, hsafe, hmem⟩ := selfReported_fields c.isLt i.val l s
      generalize selfReported c.val i.val l s = u at *
      have hshown := selfShown_becomeReady s.safety.scDone false u
      generalize becomeReady (selfChecked s.safety.scDone false u) = t at *
      refine ⟨t, hexec, hshown.scDone, hshown.scPass, ?_, ?_, fun hs => ⟨?_, ?_⟩, fun hm => hshown.ready (hmem.trans hm)⟩
      · exact (pwide_congr (hshown.pw _ (.inr (.inl rfl))) (hshown.pw _ (.inr (.inr (.inl rfl))))).trans hwide
      · rw [hshown.mgmt, hfault]
      · rw [hshown.safe, hsafe hs]
      · rw [hshown.faultN, hsafe hs]
  case memory =>
    refine (exec_memoryInitialisationEnd htap).trans (congrArg _ ?_)
    rw [memoryInitialisationEnd_running hr, becomeReady_memInited hready hw]

end Sys2Proof.Machine
end

section
/-! PROOFS. What a tenant's paths keep while the device writes back for it: its link but for the writes it posts, and its
registers but for its rings (chapters 6 and 14). -/

namespace Sys2Proof.Machine

open Host

variable {s t u : State} {c : Prop}

/-- A link without the writes it has posted. -/
def linkCore (l : Link) : Link := { l with posted := [] }

/-- A tenant without its rings, and without the cycles counted ahead of their time. -/
def tenantCore (x : Tenant) : Tenant := { x with rings := [], ahead := 0 }

/-- Every link is as it was but for the writes it posts, every tenant but for its rings. -/
structure PathsKept (s t : State) : Prop where
  ten : ∀ k, tenantCore (ten t k) = tenantCore (ten s k)
  link : ∀ k, linkCore (link t k) = linkCore (link s k)

namespace PathsKept

theorem refl (s : State) : PathsKept s s := ⟨fun _ => rfl, fun _ => rfl⟩

theorem trans (h : PathsKept s u) (k : PathsKept u t) : PathsKept s t :=
  ⟨fun i => (k.ten i).trans (h.ten i), fun i => (k.link i).trans (h.link i)⟩

theorem ite [Decidable c] (h : PathsKept s t) (k : PathsKept s u) : PathsKept s (if c then t else u) := by
  split
  · exact h
  · exact k

/-- A change of other parts alone. -/
theorem of_evolves {m : Nat} (h : Evolves m s t) (h10 : m.testBit 10 = false := by decide)
    (h11 : m.testBit 11 = false := by decide) : PathsKept s t := by
  have ht : t.tenants = s.tenants := (h.frame .tenants).resolve_left (ne_true_of_eq_false h10)
  have hl : t.links = s.links := (h.frame .links).resolve_left (ne_true_of_eq_false h11)
  exact ⟨fun k => by rw [Machine.ten, ht, Machine.ten], fun k => by rw [Machine.link, hl, Machine.link]⟩

theorem forEach {α : Type} {f : α → State → State} (hf : ∀ x v, PathsKept v (f x v)) (l : List α) (s : State) :
    PathsKept s (forEach l f s) := by
  induction l generalizing s with
  | nil => exact .refl s
  | cons x l ih => exact (hf x s).trans (by rw [forEach_cons]; exact ih _)

theorem forAll {n : Nat} {f : Nat → State → State} (hf : ∀ i v, PathsKept v (f i v)) (s : State) :
    PathsKept s (forAll n f s) := .forEach hf _ s

theorem inReset (h : PathsKept s t) (k : Nat) : (Machine.ten t k).inReset = (Machine.ten s k).inReset :=
  (congrArg Tenant.inReset (h.ten k) :)

theorem state (h : PathsKept s t) (k : Nat) : (Machine.link t k).state = (Machine.link s k).state :=
  (congrArg Link.state (h.link k) :)

theorem bme (h : PathsKept s t) (k : Nat) : (Machine.link t k).bme = (Machine.link s k).bme :=
  (congrArg Link.bme (h.link k) :)

end PathsKept

theorem pathsKept_modLink (t : Nat) {f : Link → Link} (hf : ∀ x, linkCore (f x) = linkCore x) (s : State) :
    PathsKept s (modLink t f s) := by
  refine ⟨fun _ => rfl, fun k => ?_⟩
  by_cases hk : k = t
  · rw [hk, link_modLink_same, hf]
  · rw [link_modLink_ne _ _ _ _ hk]

theorem pathsKept_modTen (t : Nat) {f : Tenant → Tenant} (hf : ∀ x, tenantCore (f x) = tenantCore x) (s : State) :
    PathsKept s (modTen t f s) := by
  refine ⟨fun k => ?_, fun _ => rfl⟩
  by_cases hk : k = t
  · rw [hk, ten_modTen_same, hf]
  · rw [ten_modTen_ne _ _ _ _ hk]

theorem pathsKept_modRing (t r : Nat) (f : Ring → Ring) (s : State) : PathsKept s (modRing t r f s) :=
  pathsKept_modTen t (f := fun x => { x with rings := tmod x.rings r {} f }) (fun _ => rfl) s

theorem pathsKept_perfAdd (a n : Nat) (s : State) : PathsKept s (perfAdd a n s) :=
  .of_evolves (m := 0x80100) (perfAdd_ev rfl (.refl s))

theorem pathsKept_raise (w n : Nat) (s : State) : PathsKept s (raise w n s) :=
  .of_evolves (m := 0x100) (raise_ev rfl (.refl s))

/-! ### The Canopy writes for a tenant (R424 to R429) -/

theorem pathsKept_post (t a : Nat) (b : List Byte) (s : State) : PathsKept s (post t a b s) := by
  unfold post
  split
  · exact (pathsKept_modLink t (f := fun l => { l with posted := l.posted ++ [(BitVec.ofNat 64 a, b)] }) (fun _ => rfl) s).trans
      (pathsKept_perfAdd _ _ _)
  · exact .refl s

theorem pathsKept_writeBackLine (t : Nat) (l : Line) (m : BitVec 4) (s : State) :
    PathsKept s (writeBackLine t l m s) :=
  .forAll (fun _ v => .ite ((pathsKept_post t _ _ v).trans (pathsKept_perfAdd _ _ _)) (.refl v)) s

theorem pathsKept_putLine (key : Nat) (l : Line) (s : State) : PathsKept s (putLine key l s) :=
  .of_evolves (m := 0x400000) (putLine_ev rfl (.refl s))

theorem pathsKept_evict (t key : Nat) (s : State) : PathsKept s (evict t key s) := by
  unfold evict
  split
  · exact (pathsKept_writeBackLine t _ _ s).trans (pathsKept_putLine _ _ _)
  · exact .refl s

theorem pathsKept_takeWay (t base : Nat) (s : State) : PathsKept s (takeWay t base s).2 := by
  unfold takeWay
  split
  · exact .refl s
  · split
    · exact .refl s
    · exact pathsKept_evict t _ s

theorem pathsKept_plruTouch (set way : Nat) (s : State) : PathsKept s (plruTouch set way s) :=
  .of_evolves (m := 0x400000) (plruTouch_ev rfl (.refl s))

theorem pathsKept_touchLine (t a w : Nat) (f : Line → Line) (s : State) : PathsKept s (touchLine t a w f s) := by
  unfold touchLine
  dsimp only
  split
  · exact (pathsKept_putLine _ _ s).trans (pathsKept_plruTouch _ _ _)
  · exact (((pathsKept_takeWay t _ s).trans (pathsKept_evict t _ _)).trans (pathsKept_putLine _ _ _)).trans
      (pathsKept_plruTouch _ _ _)

theorem pathsKept_startFill (t base : Nat) (secs : BitVec 4) (who : FillFor) (w : Nat) (s : State) :
    PathsKept s (startFill t base secs who w s) :=
  (pathsKept_takeWay t base s).trans ⟨fun _ => rfl, fun _ => rfl⟩

theorem pathsKept_hitTouch (hit : Option (Nat × Line)) (s : State) : PathsKept s (hitTouch hit s) :=
  .of_evolves (m := 0x400000) (hitTouch_ev rfl (.refl s))

theorem pathsKept_hitPut (hit : Option (Nat × Line)) (key : Nat) (l : Line) (s : State) :
    PathsKept s (putLine key l (hitTouch hit s)) := (pathsKept_hitTouch hit s).trans (pathsKept_putLine key l _)

theorem pathsKept_writeLine (t a : Nat) (b : List Byte) (s : State) : PathsKept s (writeLine t a b s) := by
  unfold writeLine
  dsimp only
  split
  · exact pathsKept_post t a b s
  · refine .trans ?_ (pathsKept_post t a b _)
    split
    · exact pathsKept_hitPut _ _ _ s
    · exact .refl s
  · refine .trans ?_ (pathsKept_post t a b _)
    split
    · exact pathsKept_hitPut _ _ _ s
    · exact .refl s
  · have hstream : ∀ x, PathsKept s { s with canopy := { s.canopy with stream := x } } := fun _ =>
      ⟨fun _ => rfl, fun _ => rfl⟩
    have hfetch : ∀ (k : Nat) (who : FillFor) (v : State), PathsKept v
        (if canIssue v t then perfAdd (0x0A0001 + 256 * t) 1 (startFill t (lineBase a) (BitVec.ofNat 4 (2 ^ k)) who (modeOf s t a).1 v)
          else startFill t (lineBase a) (BitVec.ofNat 4 (2 ^ k)) who (modeOf s t a).1 v) := fun k who v =>
      .ite ((pathsKept_startFill ..).trans (pathsKept_perfAdd _ _ _)) (pathsKept_startFill ..)
    refine .ite (.trans ?_ (pathsKept_post t a b _)) ?_
    · split
      · exact (hstream _).trans (pathsKept_hitPut _ _ _ _)
      · exact hstream _
    · refine .trans ?_ (.forAll (fun k v => .ite (hfetch k _ v) (.refl v)) _)
      exact .ite (hstream _) ((hstream _).trans (pathsKept_touchLine ..))

theorem pathsKept_devWrite (t a : Nat) (b : List Byte) (s : State) : PathsKept s (devWrite t a b s) :=
  .trans (u := setFills (s.canopy.fills.map (mergeNewer t a b)) s) (.of_evolves (m := 0x400000) (setFills_ev rfl (.refl s)))
    (.forEach (fun ⟨_, _, _⟩ v => pathsKept_writeLine t _ _ v) _ _)

theorem pathsKept_cleanRange (t a n : Nat) (s : State) : PathsKept s (cleanRange t a n s) := by
  refine .forEach (fun ⟨base, lo, hi⟩ v => ?_) _ s
  dsimp only
  split
  · exact .refl v
  · exact (pathsKept_writeBackLine t _ _ v).trans (pathsKept_putLine _ _ _)

theorem pathsKept_entryWrite (t a : Nat) (b : List Byte) (s : State) : PathsKept s (entryWrite t a b s) :=
  .ite (pathsKept_post t a b s) (pathsKept_devWrite t a b s)

/-! ### The ring engine writes back (R191 to R193) -/

theorem pathsKept_engineSteps (t k : Nat) (s : State) : PathsKept s (engineSteps t k s) := by
  have hahead : PathsKept s (perfAdd (0x030000 + 256 * t + 1) k (modTen t (fun x => { x with ahead := x.ahead + k }) s)) :=
    (pathsKept_modTen t (f := fun x => { x with ahead := x.ahead + k }) (fun _ => rfl) s).trans (pathsKept_perfAdd _ _ _)
  unfold engineSteps
  exact .ite (.ite (hahead.trans (pathsKept_perfAdd _ _ _)) hahead) (.refl s)

theorem pathsKept_entrySteps (t r pos k : Nat) (f : Entry → Entry) (s : State) :
    PathsKept s (entrySteps t r pos k f s) := (pathsKept_modRing t r _ s).trans (pathsKept_engineSteps t k _)

theorem pathsKept_ledger (t : Nat) (e : Entry) (s : State) : PathsKept s (ledger t e s) := pathsKept_perfAdd _ _ s

theorem pathsKept_handOver (t r : Nat) (g : List Entry) (s : State) : PathsKept s (handOver t r g s) := by
  unfold handOver
  split
  · exact .refl s
  · dsimp only
    refine .trans ?_ (.forEach (fun e v => .ite ((pathsKept_ledger t e v).trans (pathsKept_raise _ _ _))
      (pathsKept_ledger t e v)) _ _)
    refine .trans ?_ (pathsKept_modRing t r _ _)
    refine .trans ?_ (pathsKept_entryWrite t _ _ _)
    exact .forEach (fun e v => .ite (pathsKept_cleanRange t _ _ v) (.refl v)) _ s

theorem pathsKept_drainLoop (t r : Nat) (force : Bool) (n : Nat) (s : State) : PathsKept s (drainLoop t r force n s) := by
  induction n generalizing s with
  | zero => exact .refl s
  | succ n ih =>
    unfold drainLoop
    dsimp only
    exact .ite (.refl s) (.ite ((pathsKept_handOver t r _ s).trans (ih _)) (.ite (.refl s) (pathsKept_modRing t r _ s)))

theorem pathsKept_drain (t r : Nat) (force : Bool) (s : State) : PathsKept s (drain t r force s) := by
  have hclock : ∀ v, PathsKept v (clockFix t r v) := fun v => pathsKept_modRing t r _ v
  have hstop : ∀ v, PathsKept v (stopCheck t r v) := fun v => .ite (pathsKept_modRing t r _ v) (.refl v)
  exact ((pathsKept_drainLoop t r _ _ s).trans (hclock _)).trans (hstop _)

theorem pathsKept_countRing (t r i n : Nat) (s : State) : PathsKept s (countRing t r i n s) :=
  .of_evolves (m := 0x100) (countRing_ev rfl (.refl s))

theorem pathsKept_finishTx (t r pos : Nat) (st : TxStatus) (len : Nat) (ts : Option Nat) (s : State) :
    PathsKept s (finishTx t r pos st len ts s) := by
  unfold finishTx
  split
  · exact .refl s
  · refine .trans ?_ (pathsKept_drain t r false _)
    refine .trans (pathsKept_entrySteps t r pos 1 _ s) (.ite ?_ (pathsKept_countRing ..))
    exact (pathsKept_countRing ..).trans (pathsKept_countRing ..)

theorem pathsKept_finishOrigin (o : Origin) (st : TxStatus) (len : Nat) (ts : Option Nat) (s : State) :
    PathsKept s (finishOrigin o st len ts s) := by
  unfold finishOrigin
  split
  · exact pathsKept_finishTx ..
  · exact .refl s

/-! ### Ports discard what they hold (R29, R268) -/

theorem pathsKept_endStaged (f : Staged) (st : TxStatus) (s : State) : PathsKept s (endStaged f st s) :=
  pathsKept_finishOrigin ..

theorem pathsKept_countPort (p i n : Nat) (s : State) : PathsKept s (countPort p i n s) :=
  .of_evolves (m := 0x100) (countPort_ev rfl (.refl s))

theorem pathsKept_release (id : Nat) (s : State) : PathsKept s (release id s) :=
  .of_evolves (m := 0x5000) (release_ev rfl (.refl s))

theorem pathsKept_modPort (p : Nat) (f : Port → Port) (s : State) : PathsKept s (modPort p f s) :=
  ⟨fun _ => rfl, fun _ => rfl⟩

theorem pathsKept_clearEgress (p : Nat) (st : TxStatus) (s : State) : PathsKept s (clearEgress p st s) := by
  unfold clearEgress
  refine .trans ?_ (.forEach (fun f v => (pathsKept_endStaged f st v).trans (pathsKept_countPort ..)) _ _)
  refine .trans (pathsKept_modPort p _ s) (.forEach (fun i v => ?_) _ _)
  exact ((pathsKept_finishOrigin ..).trans (pathsKept_release _ _)).trans (pathsKept_countPort ..)

theorem pathsKept_cutWire (p : Nat) (s : State) : PathsKept s (cutWire p s) :=
  (pathsKept_modPort p _ s).trans (.forEach (fun f v => (pathsKept_endStaged f .aborted v).trans (pathsKept_countPort ..)) _ _)

theorem pathsKept_linkDrop (p : Nat) (cut : Bool) (s : State) : PathsKept s (linkDrop p cut s) := by
  have hfall : ∀ v, PathsKept v (countPort p 23 1 (raise 0 13 v)) := fun v =>
    (pathsKept_raise 0 13 v).trans (pathsKept_countPort ..)
  unfold linkDrop
  refine .ite (.refl s) (.trans ?_ (pathsKept_clearEgress p _ _))
  have hs2 := (pathsKept_modPort p (fun x => { x with link := false, speed := 0, qualAt := none, paused := [], ctlDue := [] }) s).trans
    (hfall _)
  exact .ite (hs2.trans (pathsKept_cutWire p _)) hs2

theorem pathsKept_linkReview (p : Nat) (s : State) : PathsKept s (linkReview p s) :=
  .ite (.ite (pathsKept_modPort p _ s) (.ite (.refl s) (pathsKept_modPort p _ s)))
    ((pathsKept_modPort p _ s).trans (pathsKept_linkDrop p true _))

theorem pathsKept_laneReview (q : Nat) (s : State) : PathsKept s (laneReview q s) :=
  .forAll (fun i v => pathsKept_linkReview (4 * q + i) v) s

end Sys2Proof.Machine
end

section
/-! PROOFS. O11: TRIM and SLEEP (chapter 17). -/

namespace Sys2Proof.Machine

open Host

variable {s t u : State} {q : CbPar}

/-! ### TRIM (R514, R515) -/

/-- The turn of lane l as TRIM is applied. -/
def trimLane (l : Nat) (s : State) : State :=
  let want := s.mgmt.trim && bitOf (pn s 0x80FF02) l
  if want && !(lane s l).down then
    laneReview l (modLane l (fun x => { x with down := true, signal := false, lock := false }) s)
  else if !want && (lane s l).down && !s.power.asleep then modLane l (fun x => { x with down := false }) s
  else s

theorem trimApply_eq (s : State) : trimApply s = forAll 8 trimLane s := rfl

theorem lane_laneReview (l k : Nat) (s : State) : lane (laneReview l s) k = lane s k := by
  rw [lane, (laneReview_ev (m := allBut .lanes) (by decide) (.refl s)).kept .lanes, lane]

theorem lane_trimLane_ne {l k : Nat} (h : k ≠ l) (s : State) : lane (trimLane l s) k = lane s k := by
  unfold trimLane
  dsimp only
  split
  · rw [lane_laneReview, lane_modLane_ne _ _ _ _ h]
  · split
    · rw [lane_modLane_ne _ _ _ _ h]
    · rfl

/-- What decides whether a lane is down: TRIM with TRIM_QUADS, and the sleep. -/
structure TrimKept (s t : State) : Prop where
  mgmt : t.mgmt = s.mgmt
  params : t.params = s.params
  power : t.power = s.power

theorem trimKept_trimLane (l : Nat) (s : State) : TrimKept s (trimLane l s) := by
  have hev : Evolves 0x48dd00 s (trimLane l s) :=
    Evolves.ite (laneReview_ev rfl (modLane_ev rfl (.refl s))) (Evolves.ite (modLane_ev rfl (.refl s)) (.refl s))
  exact ⟨(hev.frame .mgmt).resolve_left (by decide), (hev.frame .params).resolve_left (by decide),
    (hev.frame .power).resolve_left (by decide)⟩

theorem TrimKept.trans (h : TrimKept s u) (k : TrimKept u t) : TrimKept s t :=
  ⟨k.mgmt.trans h.mgmt, k.params.trans h.params, k.power.trans h.power⟩

theorem trimLane_down {l : Nat} (ht : s.mgmt.trim = true) (hq : bitOf (pn s 0x80FF02) l = true) :
    (lane (trimLane l s) l).down = true := by
  unfold trimLane
  dsimp only
  rw [ht, hq]
  cases hd : (lane s l).down
  · rw [if_pos (by rfl), lane_laneReview, lane_modLane_same]
  · rw [if_neg (by decide), if_neg (by simp), hd]

theorem trimLane_up {l : Nat} (ht : s.mgmt.trim = false) (hs : s.power.asleep = false) :
    (lane (trimLane l s) l).down = false := by
  unfold trimLane
  dsimp only
  rw [ht, hs]
  cases hd : (lane s l).down
  · rw [if_neg (by simp), if_neg (by simp), hd]
  · rw [if_neg (by simp), if_pos (by simp), lane_modLane_same]

/-- A lane of TRIM_QUADS is down once TRIM is applied. -/
theorem trimApply_down {l : Nat} (hl : l < 8) (ht : s.mgmt.trim = true) (hq : bitOf (pn s 0x80FF02) l = true) :
    (lane (trimApply s) l).down = true := by
  rw [trimApply_eq]
  refine forAll_achieves (pre := TrimKept s) (post := fun v => (lane v l).down = true) hl
    (fun i v _ hv => hv.trans (trimKept_trimLane i v)) (fun v hv => trimLane_down (by rw [hv.mgmt, ht]) ?_)
    (fun i v hi hv => by rw [lane_trimLane_ne hi.symm, hv]) ⟨rfl, rfl, rfl⟩
  rw [pn_eq_of_params_eq hv.params, hq]

/-- Without TRIM no lane is down, unless the device sleeps. -/
theorem trimApply_up {l : Nat} (hl : l < 8) (ht : s.mgmt.trim = false) (hs : s.power.asleep = false) :
    (lane (trimApply s) l).down = false := by
  rw [trimApply_eq]
  exact forAll_achieves (pre := TrimKept s) (post := fun v => (lane v l).down = false) hl
    (fun i v _ hv => hv.trans (trimKept_trimLane i v))
    (fun v hv => trimLane_up (by rw [hv.mgmt, ht]) (by rw [hv.power, hs]))
    (fun i v hi hv => by rw [lane_trimLane_ne hi.symm, hv]) ⟨rfl, rfl, rfl⟩

theorem trimApply_mgmt (s : State) : (trimApply s).mgmt = s.mgmt :=
  (trimApply_ev (m := allBut .mgmt) (by decide) (.refl s)).kept .mgmt

/-- A write of M_CONTROL without its KEY changes TRIM alone. -/
theorem controlWrite_trim {v : Nat} {on : Bool} (hk : bits v 16 8 ≠ 0xC3) (hb : bitOf v 3 = on) :
    controlWrite {} v s = trimWrite on s := by
  have hdev : devResetSet v = false := by
    rw [devResetSet, beq_eq_false_iff_ne.2 hk, Bool.false_and]
  rw [controlWrite, hdev, hb]
  simp [hk]

theorem trimWrite_changes {on : Bool} (h : s.mgmt.trim ≠ on) :
    trimWrite on s = trimApply { s with mgmt := { s.mgmt with trim := on } } := if_neg h

/-- A write of M_CONTROL by the management master. -/
theorem live_controlWrite {x : Extra} {v : Nat} (hv : v < 2 ^ 24) (h : PerformsM s q 0x03 v) :
    live (mgmtWrite x q 0x03 v) s = .next (controlWrite x v (acknowledge none s)) := by
  refine (live_mgmtWrite (by decide) h).trans (congrArg _ ?_)
  rw [regWrite_control (s := acknowledge none s) h.2.2, toNat_word hv]

/-! ### SLEEP (R516, R517) -/

/-- Sleep is entered: READY clears, and the device is asleep. -/
def sleepMarked (s : State) : State :=
  { s with
    start := { s.start with ready := false }, mgmt := { s.mgmt with sleep := true },
    power := { s.power with asleep := true, waking := false, sleepAt := s.clk, resume := decide (s.store.medium = 3) } }

/-- Every tenant is in its reset, every host link in Detect. -/
def tenantsHalted (s : State) : State := forAll 4 (fun t s => linkReset t (tenantResetStart t s)) s

/-- Ports, channels, the Canopy and the scratch ways hold nothing. -/
def sleepEmptied (s : State) : State := canopyEmpty (abortAll (forAll 32 sleepPort s))

/-- The watchdog stops and the store suspends. -/
def sleepSuspended (s : State) : State := modSafety (fun x => { x with dog := none }) (suspendNow s)

/-- The lanes that cannot wake the device go down. -/
def lanesSlept (s : State) : State :=
  forAll 8 (fun l s => if wakeLane s l then s
    else laneReview l (modLane l (fun x => { x with down := true, signal := false, lock := false }) s)) s

/-- Every frame is gone. -/
def framesGone (s : State) : State :=
  { discardRefs s with
    frames := [], thicket := { s.thicket with waiting := [] }, time := { s.time with ppsOut := none, ppsDue := false } }

theorem sleepEntry_enters {good : Bool} (hb : sleepBarred s = false) (ha : s.power.asleep = false) : sleepEntry good s
    = framesGone (lanesSlept (sleepSuspended (sleepEmptied (tenantsHalted (recordWrite good (sleepMarked s)))))) := by
  unfold sleepEntry
  rw [if_neg (by simp [hb, ha])]
  rfl

theorem tenantsHalted_ev (s : State) : Evolves 0x4585f00 s (tenantsHalted s) :=
  forAll_ev _ _ (fun _ _ h => linkReset_ev rfl (tenantResetStart_ev rfl h)) (.refl s)

theorem sleepEmptied_ev (s : State) : Evolves 0xd85d10 s (sleepEmptied s) :=
  canopyEmpty_ev rfl (abortAll_ev rfl (forAll_ev _ _ (fun _ _ h => sleepPort_ev rfl h) (.refl s)))

theorem lanesSlept_ev (s : State) : Evolves 0x48dd00 s (lanesSlept s) :=
  forAll_ev _ _ (fun _ _ h => Evolves.ite h (laneReview_ev rfl (modLane_ev rfl h))) (.refl s)

theorem discardRefs_frame (s : State) : Evolves 0x2005100 s (discardRefs s) := discardRefs_ev rfl (.refl s)

/-- A tenant is in its reset, and its link as a reset leaves it. -/
def HaltedPath (k : Nat) (s : State) : Prop :=
  (ten s k).inReset = true ∧ (link s k).state = .detect ∧ (link s k).bme = false

theorem HaltedPath.of_keep {k : Nat} (h : HaltedPath k s) (hk : PathsKept s t) : HaltedPath k t :=
  ⟨(hk.inReset k).trans h.1, (hk.state k).trans h.2.1, (hk.bme k).trans h.2.2⟩

theorem link_tenantResetStart (t k : Nat) (s : State) : link (tenantResetStart t s) k = link s k := by
  rw [link, (tenantResetStart_ev (m := allBut .links) (by decide) (.refl s)).kept .links, link]

theorem haltedPath_tenantsHalted {k : Nat} (hk : k < 4) (s : State) : HaltedPath k (tenantsHalted s) := by
  refine forAll_achieves (pre := fun _ => True) (post := HaltedPath k) hk (fun _ _ _ _ => trivial) (fun v _ => ?_)
    (fun i v hi hv => ?_) trivial
  · refine ⟨?_, ?_, ?_⟩
    · exact (inReset_tenantResetStart k k v).trans (if_pos rfl)
    · exact congrArg Link.state (link_modLink_same ..)
    · exact congrArg Link.bme (link_modLink_same ..)
  · obtain ⟨hin, hstate, hbme⟩ := hv
    have hlink : link (linkReset i (tenantResetStart i v)) k = link v k :=
      (link_modLink_ne _ _ _ _ hi.symm).trans (link_tenantResetStart i k v)
    refine ⟨?_, by rw [hlink, hstate], by rw [hlink, hbme]⟩
    have hten : (ten (linkReset i (tenantResetStart i v)) k).inReset = if k = i then true else (ten v k).inReset :=
      inReset_tenantResetStart i k v
    rw [hten, if_neg hi.symm, hin]

theorem pathsKept_sleepEmptied (s : State) : PathsKept s (sleepEmptied s) := by
  have hport : ∀ p v, PathsKept v (sleepPort p v) := fun p v =>
    (pathsKept_modPort p _ v).trans (pathsKept_clearEgress p .linkDown _)
  refine (PathsKept.forAll (n := 32) hport s).trans (.of_evolves (m := 0xd00110) ?_)
  exact canopyEmpty_ev rfl (abortAll_ev rfl (.refl _))

theorem pathsKept_lanesSlept (s : State) : PathsKept s (lanesSlept s) :=
  .forAll (fun l v => .ite (.refl v) (PathsKept.trans (u := modLane l _ v) ⟨fun _ => rfl, fun _ => rfl⟩
    (pathsKept_laneReview l _))) s

theorem pathsKept_framesGone (s : State) : PathsKept s (framesGone s) :=
  (PathsKept.of_evolves (discardRefs_frame s)).trans ⟨fun _ => rfl, fun _ => rfl⟩

theorem pathsKept_sleepSuspended (s : State) : PathsKept s (sleepSuspended s) :=
  (PathsKept.of_evolves (suspendNow_buildParts s)).trans ⟨fun _ => rfl, fun _ => rfl⟩

/-- What the entry into sleep leaves in t, from the state u in which the record is written. -/
structure Slept (u t : State) : Prop where
  power : t.power = u.power
  mgmt : t.mgmt = u.mgmt
  start : t.start = u.start
  frames : t.frames = []
  scratch : t.scratch = []
  dog : t.safety.dog = none
  testFail : t.safety.testFail = u.safety.testFail
  halted : ∀ k, k < 4 → HaltedPath k t

theorem safetyFlags_tenantsHalted (s : State) : safetyFlags (tenantsHalted s) = safetyFlags s :=
  safetyFlags_forAll (fun t v => (safetyFlags_of_evolves (m := 0x800) (linkReset_ev rfl (.refl _))).trans
    (safetyFlags_tenantResetStart t v)) 4 s

theorem canopyEmpty_scratch (s : State) : (canopyEmpty s).scratch = [] := by
  unfold canopyEmpty
  exact (forEach_ev (m := allBut .scratch) _ _ (fun _ _ h => maintDone_ev (by decide) h) (.refl _)).kept .scratch

theorem sleepSuspended_frame (s : State) : ∃ v, Evolves buildParts s v ∧ sleepSuspended s
    = modSafety (fun x => { x with dog := none }) v := ⟨_, suspendNow_buildParts s, rfl⟩

/-- The parts that no step of the entry into sleep changes. -/
structure SleepKept (s t : State) : Prop where
  power : t.power = s.power
  mgmt : t.mgmt = s.mgmt
  start : t.start = s.start

theorem SleepKept.trans (h : SleepKept s u) (k : SleepKept u t) : SleepKept s t :=
  ⟨k.power.trans h.power, k.mgmt.trans h.mgmt, k.start.trans h.start⟩

theorem SleepKept.of_evolves {m : Nat} (h : Evolves m s t) (h28 : m.testBit 28 = false := by decide)
    (h5 : m.testBit 5 = false := by decide) (h29 : m.testBit 29 = false := by decide) : SleepKept s t :=
  ⟨(h.frame .power).resolve_left (ne_true_of_eq_false h28), (h.frame .mgmt).resolve_left (ne_true_of_eq_false h5),
    (h.frame .start).resolve_left (ne_true_of_eq_false h29)⟩

theorem sleepKept_sleepSuspended (s : State) : SleepKept s (sleepSuspended s) :=
  (SleepKept.of_evolves (suspendNow_buildParts s)).trans ⟨rfl, rfl, rfl⟩

theorem sleepKept_framesGone (s : State) : SleepKept s (framesGone s) :=
  (SleepKept.of_evolves (discardRefs_frame s)).trans ⟨rfl, rfl, rfl⟩

/-- From the suspension on the scratch ways and the safety island stay as they are. -/
theorem sleepSuspended_leaves (s : State) : (sleepSuspended s).scratch = s.scratch ∧ (sleepSuspended s).safety.dog = none
    ∧ (sleepSuspended s).safety.testFail = s.safety.testFail := by
  have hscratch : (suspendNow s).scratch = s.scratch := ((suspendNow_buildParts s).frame .scratch).resolve_left (by decide)
  have hsafety : (suspendNow s).safety = s.safety := ((suspendNow_buildParts s).frame .safety).resolve_left (by decide)
  have htest : (suspendNow s).safety.testFail = s.safety.testFail := congrArg Safety.testFail hsafety
  exact ⟨hscratch, rfl, htest⟩

theorem framesGone_leaves (s : State) : (framesGone (lanesSlept s)).scratch = s.scratch
    ∧ (framesGone (lanesSlept s)).safety = s.safety := by
  have hscratch : (lanesSlept s).scratch = s.scratch := ((lanesSlept_ev s).frame .scratch).resolve_left (by decide)
  have hsafety : (lanesSlept s).safety = s.safety := ((lanesSlept_ev s).frame .safety).resolve_left (by decide)
  generalize lanesSlept s = v at hscratch hsafety
  have hs : (discardRefs v).scratch = v.scratch := ((discardRefs_frame v).frame .scratch).resolve_left (by decide)
  have hf : (discardRefs v).safety = v.safety := ((discardRefs_frame v).frame .safety).resolve_left (by decide)
  exact ⟨hs.trans hscratch, hf.trans hsafety⟩

theorem testFail_of_flags (h : safetyFlags t = safetyFlags s) : t.safety.testFail = s.safety.testFail :=
  (congrArg Safety.testFail h :)

theorem slept_enters (u : State) : Slept u (framesGone (lanesSlept (sleepSuspended (sleepEmptied (tenantsHalted u))))) := by
  have hkept : SleepKept u (framesGone (lanesSlept (sleepSuspended (sleepEmptied (tenantsHalted u))))) :=
    ((((SleepKept.of_evolves (tenantsHalted_ev u)).trans (.of_evolves (sleepEmptied_ev _))).trans
      (sleepKept_sleepSuspended _)).trans (.of_evolves (lanesSlept_ev _))).trans (sleepKept_framesGone _)
  have hpaths : PathsKept (tenantsHalted u)
      (framesGone (lanesSlept (sleepSuspended (sleepEmptied (tenantsHalted u))))) :=
    (((pathsKept_sleepEmptied _).trans (pathsKept_sleepSuspended _)).trans (pathsKept_lanesSlept _)).trans
      (pathsKept_framesGone _)
  obtain ⟨hscratch, hsafety⟩ := framesGone_leaves (sleepSuspended (sleepEmptied (tenantsHalted u)))
  obtain ⟨hscratch', hdog, htest⟩ := sleepSuspended_leaves (sleepEmptied (tenantsHalted u))
  have hempty : (sleepEmptied (tenantsHalted u)).scratch = [] := canopyEmpty_scratch _
  have hflags : safetyFlags (sleepEmptied (tenantsHalted u)) = safetyFlags u :=
    (safetyFlags_of_evolves (sleepEmptied_ev _)).trans (safetyFlags_tenantsHalted u)
  refine ⟨hkept.power, hkept.mgmt, hkept.start, rfl, hscratch.trans (hscratch'.trans hempty), ?_, ?_,
    fun k hk => (haltedPath_tenantsHalted hk u).of_keep hpaths⟩
  · rw [hsafety, hdog]
  · have hend : (sleepEmptied (tenantsHalted u)).safety.testFail = u.safety.testFail := testFail_of_flags hflags
    exact ((congrArg Safety.testFail hsafety :).trans htest).trans hend

theorem setMFault_sleep (cause a b info addr : Nat) (safe : Bool) (s : State) :
    (setMFault cause a b info addr safe s).mgmt.sleep = s.mgmt.sleep := by
  unfold setMFault
  dsimp only
  rw [logFault_mgmt]
  have hdetail : ∀ d : Word,
      (if s.mgmt.fault = 0 then { s with mgmt := { s.mgmt with detail := d } } else s).mgmt.sleep = s.mgmt.sleep := fun d => by
    split
    · rfl
    · rfl
  split
  · exact hdetail _
  · rw [raise_mgmt]
    exact hdetail _

theorem reportTest_sleep (c i : Nat) (s : State) : (reportTest c i s).mgmt.sleep = s.mgmt.sleep := by
  rw [reportTest, safetySets_mgmt, setMFault_sleep]

/-- SLEEP with its KEY, TRIM as it stands, is the entry into sleep, or nothing where R516 bars it. -/
theorem exec_depotSleep {good : Bool} (h : PerformsM s q 0x03 (0xC30004 + flag s.mgmt.trim 3)) :
    exec (.depotSleep ⟨q, good⟩) s = .next (if sleepBarred s then acknowledge none s else sleepEntry good (acknowledge none s)) := by
  have hk := keyed_sleep s.mgmt.trim
  refine (live_controlSet (x := { nvBad := !good }) (by omega) hk.small h).trans (congrArg _ ?_)
  obtain ⟨-, hdev, hkey, hmgmt, hsleep, htrim⟩ := hk
  have hsame : trimWrite (bitOf (0xC30004 + flag s.mgmt.trim 3) 3) (acknowledge none s) = acknowledge none s :=
    trimWrite_same htrim
  have hbar : sleepBarred (acknowledge none s) = sleepBarred s := rfl
  rw [controlWrite, hsame, hbar]
  cases hb : sleepBarred s <;> simp [hdev, hkey, hmgmt, hsleep]

/-- Settles O11: TRIM turns each lane of `trimApply`; the entry into sleep leaves what `Slept` names. -/
theorem trimAndSleepPowerDown : Obligations.TrimAndSleepPowerDown := by
  unfold Obligations.TrimAndSleepPowerDown
  refine ⟨fun s q h ht => ?trim, fun s q h ht ha => ?restart, fun s q h hb ha good => ?sleep, fun s q h hb good => ?barred⟩
  case trim =>
    have hexec : exec (.trimEntry q) s = .next (trimApply { acknowledge none s with mgmt := { s.mgmt with trim := true } }) := by
      refine (live_controlWrite (by decide) h).trans (congrArg _ ?_)
      rw [controlWrite_trim (on := true) (by decide) (by decide)]
      exact trimWrite_changes (s := acknowledge none s) (fun hon => absurd (ht.symm.trans hon) nofun)
    refine ⟨_, hexec, ?_, fun l hl hq => trimApply_down hl rfl hq⟩
    rw [trimApply_mgmt]
  case restart =>
    have hexec : exec (.trimExit q) s = .next (trimApply { acknowledge none s with mgmt := { s.mgmt with trim := false } }) := by
      refine (live_controlWrite (by decide) h).trans (congrArg _ ?_)
      rw [controlWrite_trim (on := false) (by decide) (by decide)]
      exact trimWrite_changes (s := acknowledge none s) (fun hon => absurd (ht.symm.trans hon) nofun)
    refine ⟨_, hexec, ?_, fun l hl => trimApply_up hl rfl ha⟩
    rw [trimApply_mgmt]
  case sleep =>
    have hslept := slept_enters (recordWrite good (sleepMarked (acknowledge none s)))
    have hentry : sleepEntry good (acknowledge none s) = _ := sleepEntry_enters (s := acknowledge none s) hb ha
    have hexec := exec_depotSleep (good := good) h
    rw [hb, if_neg Bool.false_ne_true, hentry] at hexec
    have hpower := recordWrite_power good (sleepMarked (acknowledge none s))
    have hstart := recordWrite_start good (sleepMarked (acknowledge none s))
    have hsleep : (recordWrite good (sleepMarked (acknowledge none s))).mgmt.sleep = true := by
      cases good
      · exact (reportTest_sleep 44 0 _).trans rfl
      · rfl
    have hfails : good = false → (recordWrite good (sleepMarked (acknowledge none s))).mgmt.fault.getLsbD 5 = true
        ∧ (recordWrite good (sleepMarked (acknowledge none s))).safety.testFail = true := by
      rintro rfl
      exact recordWrite_false_reports _
    generalize recordWrite good (sleepMarked (acknowledge none s)) = u at *
    generalize framesGone (lanesSlept (sleepSuspended (sleepEmptied (tenantsHalted u)))) = t at *
    obtain ⟨hp, hm, hst, hframes, hscratch, hdog, htest, hhalted⟩ := hslept
    refine ⟨t, hexec, ?_, ?_, ?_, ?_, ?_, ?_, hframes, hscratch, hdog, fun hg => ?_, hhalted⟩
    · rw [hp, hpower]
      rfl
    · rw [hm, hsleep]
    · rw [hst, hstart]
      rfl
    · rw [hp, hpower]
      rfl
    · rw [hp, hpower]
      rfl
    · rw [hp, hpower]
      rfl
    · rw [hm, htest]
      exact hfails hg
  case barred => rw [exec_depotSleep h, hb, if_pos rfl]

end Sys2Proof.Machine
end

section
/-! PROOFS. O26: links of the ports (chapter 8). -/

namespace Sys2Proof.Machine

open Host

variable {s t u : State} {p k : Nat} {α : Type} {g : Port → α}

/-! ### A port that is emptied (R29) -/

/-- A port whose egress is empty. -/
def egressCleared (x : Port) : Port := { x with queues := [], stage := [] }

/-- Once its queues and its stage are empty, the references that end leave each port's reading. -/
theorem portsKeep_egressCleared (h : FlowFree g) (p : Nat) (st : TxStatus) (s : State) :
    PortsKeep g (modPort p egressCleared s) (clearEgress p st s) := by
  unfold clearEgress
  refine PortsKeep.trans (PortsKeep.forEach (fun i v => ?_) _ _) (PortsKeep.forEach (fun f v => ?_) _ _)
  · exact PortsKeep.trans (PortsKeep.trans (.of_ports (ports_finishOrigin i.origin st 0 none v))
      (portsKeep_release h i.frame _)) (.of_ports (ports_countPort 20 1 _))
  · exact PortsKeep.trans (.of_ports (ports_endStaged f st v)) (.of_ports (ports_countPort 20 1 _))

/-- What a port holds, and its link. -/
def portHeld (x : Port) : Bool × Option Staged × Option Staged × Tab (List EgItem) × List Staged :=
  (x.link, x.wire, x.held, x.queues, x.stage)

theorem flowFree_held : FlowFree portHeld := fun _ _ _ => rfl

/-- A link that falls leaves its port empty. -/
theorem linkDrop_held (h : (port s p).link = true) :
    portHeld (port (linkDrop p true s) p) = (false, none, none, [], []) := by
  have hports : (countPort p 23 1 (raise 0 13 (modPort p linkFallen s))).ports = (modPort p linkFallen s).ports :=
    (ports_countPort 23 1 _).trans (ports_raise 0 13 _)
  rw [linkDrop_up h, if_pos rfl, portsKeep_egressCleared flowFree_held p .linkDown _ p, port_modPort_same, port_cutWire,
    if_pos rfl, port_of_ports hports, port_modPort_same]
  rfl

/-! ### Judging the conditions (R243) -/

/-- A port whose 1 ms has begun at an instant, or not. -/
def qualifying (at0 : Option Nat) (x : Port) : Port := { x with qualAt := at0 }

theorem linkReview_met (h : linkCond s p = true) : linkReview p s
    = if (port s p).link then modPort p (fun x => { x with speed := runSpeed s p }) s
      else if (port s p).qualAt.isSome then s else modPort p (qualifying (some s.clk)) s := if_pos h

theorem linkReview_unmet (h : linkCond s p = false) :
    linkReview p s = linkDrop p true (modPort p (qualifying none) s) := if_neg (by simp [h])

/-- A reading of what no judgement of a link changes. -/
def LinkFree (g : Port → α) : Prop :=
  ∀ (x : Port) link speed qual pa wire held,
    g { x with link := link, speed := speed, qualAt := qual, paused := pa, wire := wire, held := held } = g x

theorem portsKeep_linkDrop (hf : FlowFree g) (he : EgressFree g) (hl : LinkFree g) (p : Nat) (s : State) :
    PortsKeep g s (linkDrop p true s) := by
  cases h : (port s p).link with
  | false =>
    rw [linkDrop_down h]
    exact .refl s
  | true =>
    have hports : (countPort p 23 1 (raise 0 13 (modPort p linkFallen s))).ports = (modPort p linkFallen s).ports :=
      (ports_countPort 23 1 _).trans (ports_raise 0 13 _)
    rw [linkDrop_up h, if_pos rfl]
    refine PortsKeep.trans ?_ (portsKeep_clearEgress hf he p .linkDown _)
    refine PortsKeep.trans ?_ (PortsKeep.trans (.modPort (f := wireCut) ?_) (.of_ports (ports_cutWire p _)))
    · refine PortsKeep.trans (.modPort (f := linkFallen) (s := s) ?_) (.of_ports hports)
      exact (hf _ (port s p).xoff []).trans (hl (port s p) false 0 none [] (port s p).wire (port s p).held)
    · exact hl _ _ _ _ _ none none

theorem portsKeep_linkReview (hf : FlowFree g) (he : EgressFree g) (hl : LinkFree g) (p : Nat) (s : State) :
    PortsKeep g s (linkReview p s) := by
  have hqual : ∀ q v, PortsKeep g v (modPort p (qualifying q) v) := fun q v => .modPort (hl _ _ _ q _ _ _)
  cases h : linkCond s p with
  | true =>
    rw [linkReview_met h]
    exact .ite (.modPort (hl _ _ (runSpeed s p) _ _ _ _)) (.ite (.refl s) (hqual _ s))
  | false =>
    rw [linkReview_unmet h]
    exact (hqual none s).trans (portsKeep_linkDrop hf he hl p _)

/-- A port whose conditions fail has no link after the judgement; every other link stands. -/
theorem linkReview_link (p q : Nat) (s : State) :
    (port (linkReview p s) q).link = if q = p ∧ linkCond s p = false then false else (port s q).link := by
  have hmod : ∀ f : Port → Port, (∀ x, (f x).link = x.link) → (port (modPort p f s) q).link = (port s q).link := by
    intro f hf
    by_cases hq : q = p
    · rw [hq, port_modPort_same, hf]
    · rw [port_modPort_ne _ _ _ _ hq]
  cases h : linkCond s p with
  | true =>
    have hstands : ¬(q = p ∧ true = false) := fun h => absurd h.2 nofun
    rw [linkReview_met h, if_neg hstands]
    split
    · exact hmod (fun x => { x with speed := runSpeed s p }) fun _ => rfl
    · split
      · rfl
      · exact hmod (qualifying (some s.clk)) fun _ => rfl
  | false =>
    rw [linkReview_unmet h, linkDrop_link, hmod (qualifying none) fun _ => rfl]
    simp

theorem linkReview_params (p : Nat) (s : State) : (linkReview p s).params = s.params :=
  (linkReview_ev (by decide) (.refl s)).kept .params

theorem linkReview_lanes (p : Nat) (s : State) : (linkReview p s).lanes = s.lanes :=
  (linkReview_ev (by decide) (.refl s)).kept .lanes

/-- A port that qualifies anew, or no more, after its judgement. -/
theorem linkReview_qualAt_unmet (h : linkCond s p = false) : (port (linkReview p s) p).qualAt = none := by
  have hq : (port (modPort p (qualifying none) s) p).qualAt = none := by rw [port_modPort_same]; rfl
  have hfree : FlowFree Port.qualAt := fun _ _ _ => rfl
  rw [linkReview_unmet h]
  cases hl : (port (modPort p (qualifying none) s) p).link with
  | false => rw [linkDrop_down hl, hq]
  | true =>
    generalize modPort p (qualifying none) s = v at hl hq ⊢
    have hports : (countPort p 23 1 (raise 0 13 (modPort p linkFallen v))).ports = (modPort p linkFallen v).ports :=
      (ports_countPort 23 1 _).trans (ports_raise 0 13 _)
    rw [linkDrop_up hl, if_pos rfl, portsKeep_clearEgress hfree (fun _ _ _ => rfl) p .linkDown _ p, port_cutWire, if_pos rfl,
      port_of_ports hports, port_modPort_same]
    rfl

theorem linkReview_qualAt_met (h : linkCond s p = true) (hl : (port s p).link = false) (hq : (port s p).qualAt = none) :
    (port (linkReview p s) p).qualAt = some s.clk := by
  rw [linkReview_met h, if_neg (by simp [hl]), if_neg (by simp [hq]), port_modPort_same]
  rfl

/-! ### Lanes (R271, R243) -/

theorem laneReview_lanes (q : Nat) (s : State) : (laneReview q s).lanes = s.lanes :=
  (laneReview_ev (by decide) (.refl s)).kept .lanes

/-- Without lane or lock a port not in MAC loopback has no link. -/
theorem linkCond_dark (hs : (lane s (p / 4)).signal = false) (hl : loopback s p ≠ 1) : linkCond s p = false := by
  simp [linkCond, hs, hl]

/-- What the judgement of a lane's ports looks at beside the ports. -/
structure LaneKept (s t : State) : Prop where
  lanes : t.lanes = s.lanes
  params : t.params = s.params

/-- After the judgement of a lane without signal none of its ports has a link, but those in MAC loopback. -/
theorem laneReview_dark {q i : Nat} (hi : i < 4) (hs : (lane s q).signal = false) (hl : loopback s (4 * q + i) ≠ 1) :
    (port (laneReview q s) (4 * q + i)).link = false := by
  refine forAll_achieves (pre := LaneKept s) (post := fun v => (port v (4 * q + i)).link = false) hi
    (fun j v _ hv => ⟨(linkReview_lanes _ v).trans hv.lanes, (linkReview_params _ v).trans hv.params⟩) (fun v hv => ?_)
    (fun j v hj hv => ?_) ⟨rfl, rfl⟩
  · have hdark : linkCond v (4 * q + i) = false := by
      refine linkCond_dark ?_ (by rwa [loopback_of_params hv.params])
      rw [lane, hv.lanes, show (4 * q + i) / 4 = q by omega]
      exact hs
    rw [linkReview_link, if_pos ⟨rfl, hdark⟩]
  · rw [linkReview_link, if_neg (fun h => hj (by omega)), hv]

theorem exec_laneSignalLoss (q : Fin 8) (h : s.tap = false) :
    exec (.laneSignalLoss q) s = .next (laneSignalLossEffect q s) := live_next s (laneSignalLossEffect q) h

theorem exec_laneLockAcquired (q : Fin 8) (h : s.tap = false) :
    exec (.laneLockAcquired q) s = .next (laneLockAcquiredEffect q s) := live_next s (laneLockAcquiredEffect q) h

/-- The state in which a lane that has acquired its lock is judged. -/
def laneLocked (q : Nat) (s : State) : State :=
  modLane q (fun x => { x with signal := true, lock := true }) (drawn (setPw (0x110003 + 256 * q) (freeNat s) s))

theorem laneLockAcquired_powered {q : Nat} (h0 : pn s (0x110000 + 256 * q) ≠ 0) (hd : (lane s q).down = false)
    (hf : fenced s q = false) : laneLockAcquiredEffect q s = laneReview q (laneLocked q s) := by
  unfold laneLockAcquiredEffect
  exact if_neg (by simp [h0, hd, hf])

/-! ### LINK_UP and LINK_DOWN -/

theorem exec_linkUp (p : Fin 32) (h : s.tap = false) : exec (.linkUp p) s = .next (linkUpEffect p s) :=
  live_next s (linkUpEffect p) h

theorem exec_linkDown (p : Fin 32) (h : s.tap = false) : exec (.linkDown p) s = .next (linkDownEffect p s) :=
  live_next s (linkDownEffect p) h

theorem linkUp_due {since : Nat} (h : (port s p).qualAt = some since) (hdue : since + ms 1 ≤ s.clk)
    (ha : s.power.asleep = false) : linkUpEffect p s
      = raise 0 13 (modPort p (fun x => { x with link := true, speed := runSpeed s p, qualAt := none }) s) := by
  have hpower : (raise 0 13 (modPort p (fun x => { x with link := true, speed := runSpeed s p, qualAt := none }) s)).power
      = s.power := (raise_ev (m := allBut .power) (by decide) (.refl _)).kept .power
  unfold linkUpEffect
  rw [h]
  dsimp only
  rw [waitUntil_past hdue, hpower, ha]
  exact if_neg (by simp)

/-- What a port holds once its conditions have failed. -/
theorem linkDown_held (h : (port s p).link = true) :
    portHeld (port (linkDownEffect p s) p) = (false, none, none, [], []) := by
  have hup : (port (modPort p (qualifying none) s) p).link = true := by rw [port_modPort_same]; exact h
  have hheld := linkDrop_held hup
  have hdown : (port (linkDrop p true (modPort p (qualifying none) s)) p).link = false := congrArg Prod.fst hheld
  have heq : linkDownEffect p s = linkReview p (linkDrop p true (modPort p (qualifying none) s)) := rfl
  have hqual : ∀ q v, portHeld (port (modPort p (qualifying q) v) p) = portHeld (port v p) := fun q v => by
    rw [port_modPort_same]
    rfl
  rw [heq]
  generalize linkDrop p true (modPort p (qualifying none) s) = v at hheld hdown
  cases hc : linkCond v p with
  | true =>
    rw [linkReview_met hc, if_neg (by simp [hdown])]
    split
    · exact hheld
    · rw [hqual, hheld]
  | false =>
    have hstill : (port (modPort p (qualifying none) v) p).link = false := by rw [port_modPort_same]; exact hdown
    rw [linkReview_unmet hc, linkDrop_down hstill, hqual, hheld]

/-! ### In-band words (R241, R242) -/

/-- The in-band word of a port. -/
def inBandWord (x : Port) : Bool × Nat × Bool := (x.inLink, x.inSpeed, x.inHalf)

theorem portsKeep_inBand (p : Nat) (s : State) : PortsKeep inBandWord s (linkReview p s) :=
  portsKeep_linkReview (fun _ _ _ => rfl) (fun _ _ _ => rfl) (fun _ _ _ _ _ _ _ => rfl) p s

theorem exec_inBandLinkChange (p : Fin 32) (up : Bool) (speed : Fin 6) (half : Bool) (h : s.tap = false) :
    exec (.inBandLinkChange p up speed half) s = .next (inBandLinkChangeEffect p up speed half s) :=
  live_next s (inBandLinkChangeEffect p up speed half) h

/-! ### MDIO (R263 to R265) -/

theorem exec_mdioPoll (k : Fin 2) (a : MdioAnswer) (h : s.tap = false) :
    exec (.mdioPoll k a) s = .next (mdioPollEffect k a s) := live_next s (mdioPollEffect k a) h

/-- What a read shows of port p and of master k. -/
def mdioShown (k p : Nat) (bad up : Bool) (sent : List Bool) (s : State) : State :=
  modPort p (fun x => { x with mdioUp := up }) { s with mdio := tput s.mdio k ⟨bad, some p, true, sent⟩ }

/-- The state in which the port that has been read is judged: its frame has taken its time. -/
def mdioRead (k p : Nat) (bad up : Bool) (s : State) : State :=
  mdioShown k p bad up (mdioBits s k p)
    (wait (((mdioBits s k p).length + 18) * 500000 / max 1 (pn s (0x120000 + 256 * k))) s)

/-- The answer is no word of a PHY. -/
def mdioBad : MdioAnswer → Bool
  | .noTurnaround => true
  | .value v => v == 0xFFFF

/-- The link status that an answer shows. -/
def mdioUpOf : MdioAnswer → Bool
  | .noTurnaround => false
  | .value v => v != 0xFFFF && v.getLsbD 2

/-- The link status and the fault of an answer, as the master takes them. -/
def mdioAnswered (a : MdioAnswer) : Bool × Bool :=
  match a with
  | .noTurnaround => (false, true)
  | .value v => if v = 0xFFFF then (false, true) else (v.getLsbD 2, false)

theorem mdioAnswered_eq (a : MdioAnswer) : mdioAnswered a = (mdioUpOf a, mdioBad a) := by
  cases a with
  | noTurnaround => rfl
  | value v =>
    by_cases hv : v = 0xFFFF
    · subst hv
      rfl
    · rw [mdioAnswered, if_neg hv, mdioUpOf, mdioBad, bne_iff_ne.2 hv, beq_eq_false_iff_ne.2 hv, Bool.true_and]

/-- A master that polls one port reads it. -/
theorem mdioPoll_single (h : mdioPorts s k = [p]) (a : MdioAnswer) :
    mdioPollEffect k a s = linkReview p (mdioRead k p (mdioBad a) (mdioUpOf a) s) := by
  have hfirst : ∀ l, (([p].find? fun p => decide (l < p)).orElse fun _ => [p].head?) = some p := by
    intro l
    cases hl : decide (l < p) <;> simp [List.find?, hl]
  have hanswer : mdioRead k p (mdioBad a) (mdioUpOf a) s = mdioRead k p (mdioAnswered a).2 (mdioAnswered a).1 s := by
    rw [mdioAnswered_eq]
  rw [hanswer]
  unfold mdioPollEffect
  dsimp only
  rw [h]
  cases (tget s.mdio k {}).last with
  | none =>
    dsimp only [List.head?_cons]
    unfold mdioRead mdioShown mdioAnswered
    cases a <;> dsimp only
  | some l =>
    dsimp only
    rw [hfirst l]
    unfold mdioRead mdioShown mdioAnswered
    cases a <;> dsimp only

theorem mdioPoll_none (h : mdioPorts s k = []) (a : MdioAnswer) :
    mdioPollEffect k a s = { s with mdio := tput s.mdio k { tget s.mdio k {} with owns := false } } := by
  unfold mdioPollEffect
  dsimp only
  rw [h]
  cases (tget s.mdio k {}).last with
  | none => dsimp only [List.head?_nil]
  | some l => dsimp only [List.find?_nil, List.head?_nil, Option.orElse_none]

/-- The one port that a master polls. -/
theorem mdioPorts_single (hp : p < 32)
    (h : ∀ i, i < 32 → (polled s i && bits (pn s (0x10000D + 256 * i)) 5 1 == k) = (i == p)) : mdioPorts s k = [p] := by
  have hfilter : mdioPorts s k = (List.range 32).filter (· == p) := List.filter_congr fun i hi => h i (List.mem_range.1 hi)
  rw [hfilter, List.filter_beq, List.count_eq_one_of_mem List.nodup_range (List.mem_range.2 hp)]
  rfl

theorem mdioStat_owned (h : (tget s.mdio k {}).owns = true ∨ mdioPorts s k ≠ []) : mdioStat s k % 2 = 1 := by
  have hown : ((tget s.mdio k {}).owns || mdioPorts s k != []) = true := by
    rw [Bool.or_eq_true, bne_iff_ne]
    exact h
  unfold mdioStat
  dsimp only
  rw [hown]
  cases (tget s.mdio k {}).noResp <;> rfl

theorem mdioStat_free (h : (tget s.mdio k {}).owns = false) (hp : mdioPorts s k = []) : mdioStat s k % 2 = 0 := by
  unfold mdioStat
  dsimp only
  rw [h, hp]
  cases (tget s.mdio k {}).noResp <;> rfl

/-- A polled port whose PHY reports no link has none, but in MAC loopback. -/
theorem linkCond_noPhy (hp : polled s p = true) (hu : (port s p).mdioUp = false) (hl : loopback s p ≠ 1) :
    linkCond s p = false := by
  simp [linkCond, hp, hu, hl]

theorem mdioShown_params (bad up : Bool) (sent : List Bool) (s : State) : (mdioShown k p bad up sent s).params = s.params :=
  rfl

theorem port_mdioShown (bad up : Bool) (sent : List Bool) (s : State) :
    (port (mdioShown k p bad up sent s) p).mdioUp = up := by rw [mdioShown, port_modPort_same]

theorem mdio_mdioShown (bad up : Bool) (sent : List Bool) (s : State) :
    tget (mdioShown k p bad up sent s).mdio k {} = ⟨bad, some p, true, sent⟩ := tget_tput_same ..

/-- A parameter that time does not change. -/
theorem pn_mdioRead {id : Nat} (h : id < 0x300000) (bad up : Bool) : pn (mdioRead k p bad up s) id = pn s id := by
  rw [mdioRead, pn_eq_of_params_eq (mdioShown_params ..), pn, pw_wait (by omega) (fun i hi => by omega), pn]

theorem polled_mdioRead {q : Nat} (hq : q < 32) (bad up : Bool) : polled (mdioRead k p bad up s) q = polled s q := by
  have hmode : laneMode (mdioRead k p bad up s) q = laneMode s q := pn_mdioRead (by omega) ..
  have hon : portEnabled (mdioRead k p bad up s) q = portEnabled s q :=
    congrArg (bitOf · 0) (pn_mdioRead (by omega) ..)
  unfold polled available
  simp only [hmode, hon]

theorem loopback_mdioRead {q : Nat} (hq : q < 32) (bad up : Bool) : loopback (mdioRead k p bad up s) q = loopback s q := by
  simp only [loopback]
  rw [pn_mdioRead (by omega)]

theorem port_mdioRead (bad up : Bool) : (port (mdioRead k p bad up s) p).mdioUp = up := port_mdioShown ..

theorem mdio_mdioRead (bad up : Bool) : tget (mdioRead k p bad up s).mdio k {} = ⟨bad, some p, true, mdioBits s k p⟩ :=
  mdio_mdioShown ..

/-- What a poll leaves: the port's link status, and the master's registers. -/
theorem mdioPoll_leaves (h : mdioPorts s k = [p]) (a : MdioAnswer) :
    (port (mdioPollEffect k a s) p).mdioUp = mdioUpOf a
    ∧ tget (mdioPollEffect k a s).mdio k {} = ⟨mdioBad a, some p, true, mdioBits s k p⟩ := by
  rw [mdioPoll_single h]
  refine ⟨?_, ?_⟩
  · rw [portsKeep_linkReview (g := Port.mdioUp) (fun _ _ _ => rfl) (fun _ _ _ => rfl) (fun _ _ _ _ _ _ _ => rfl) p _ p]
    exact port_mdioRead ..
  · rw [(linkReview_ev (m := allBut .mdio) (by decide) (.refl _)).kept .mdio]
    exact mdio_mdioRead ..

/-- Settles O26: a judgement (`linkReview`) is the fall of the link (`linkDrop_held`), the begin of the 1 ms or nothing, and
leaves what no link condition speaks of (`portsKeep_linkReview`). -/
theorem portLinksFollowTheirConditions : Obligations.PortLinksFollowTheirConditions := by
  unfold Obligations.PortLinksFollowTheirConditions
  refine ⟨fun s p htap => ⟨fun since hq hdue ha => (exec_linkUp p htap).trans (congrArg _ (linkUp_due hq hdue ha)),
    fun hl => ?down⟩, fun s q htap => ⟨?dark, fun h0 hd hf => ?locked⟩, fun s p up half speed htap => ?inBand,
    fun s k p htap hpoll => ?mdio, fun s k a htap hnone => ?silent⟩
  case down =>
    have hheld := linkDown_held hl
    refine ⟨_, exec_linkDown p htap, ?_⟩
    generalize linkDownEffect p s = t at hheld
    obtain ⟨hlink, hwire, hheldP, hqueues, hstage⟩ : (port t p).link = false ∧ (port t p).wire = none
        ∧ (port t p).held = none ∧ (port t p).queues = [] ∧ (port t p).stage = [] := by
      simpa [portHeld] using hheld
    exact ⟨hlink, hwire, hheldP, fun c => by rw [queueOf, hqueues]; rfl, hstage⟩
  case dark =>
    have hlanes : lane (laneSignalLossEffect q s) q
        = { lane s q with signal := false, lock := false } := by
      rw [lane, laneSignalLossEffect, laneReview_lanes]
      exact lane_modLane_same ..
    refine ⟨_, exec_laneSignalLoss q htap, congrArg Lane.signal hlanes, congrArg Lane.lock hlanes, fun i hi hl => ?_⟩
    refine laneReview_dark hi ?_ hl
    rw [lane_modLane_same]
  case locked =>
    have hlanes : lane (laneReview q (laneLocked q s)) q = { lane s q with signal := true, lock := true } := by
      rw [lane, laneReview_lanes]
      exact lane_modLane_same ..
    refine ⟨_, (exec_laneLockAcquired q htap).trans (congrArg _ (laneLockAcquired_powered h0 hd hf)),
      congrArg Lane.signal hlanes, congrArg Lane.lock hlanes⟩
  case inBand =>
    have hword := portsKeep_inBand p (modPort p (fun x => { x with inLink := up, inSpeed := speed, inHalf := half }) s) p
    have hport := port_modPort_same (s := s) p fun x => { x with inLink := up, inSpeed := speed, inHalf := half }
    have hlink := linkReview_link p p (modPort p (fun x => { x with inLink := up, inSpeed := speed, inHalf := half }) s)
    refine ⟨_, _, rfl, exec_inBandLinkChange p up speed half htap, ?_⟩
    have hclk : (modPort p (fun x => { x with inLink := up, inSpeed := speed, inHalf := half }) s).clk = s.clk := rfl
    have heq : inBandLinkChangeEffect p up speed half s
        = linkReview p (modPort p (fun x => { x with inLink := up, inSpeed := speed, inHalf := half }) s) := rfl
    rw [heq]
    generalize modPort p (fun x => { x with inLink := up, inSpeed := speed, inHalf := half }) s = u at *
    rw [hport] at hword hlink
    obtain ⟨hin, hspeed, hhalf⟩ : (port (linkReview p u) p).inLink = up ∧ (port (linkReview p u) p).inSpeed = speed
        ∧ (port (linkReview p u) p).inHalf = half := by simpa [inBandWord] using hword
    refine ⟨hin, hspeed, hhalf, fun hc => ⟨?_, linkReview_qualAt_unmet hc⟩, fun hc => ?_, fun hc hl hq => ?_⟩
    · rw [hlink, if_pos ⟨rfl, hc⟩]
    · rw [hlink, if_neg fun h => absurd (h.2.symm.trans hc) nofun]
    · rw [linkReview_qualAt_met hc (by rw [hport]; exact hl) (by rw [hport]; exact hq), hclk]
  case mdio =>
    have hports := mdioPorts_single p.isLt hpoll
    have hleaves := fun a => mdioPoll_leaves (s := s) hports a
    refine ⟨fun v hv => ?_, fun a ha => ?_, fun a => ?_⟩
    · obtain ⟨hup, hmdio⟩ := hleaves (.value v)
      refine ⟨_, exec_mdioPoll k (.value v) htap, ?_, ?_⟩
      · rw [hup, mdioUpOf, bne_iff_ne.2 hv, Bool.true_and]
      · rw [hmdio, mdioBad, beq_eq_false_iff_ne.2 hv]
    · obtain ⟨hup, hmdio⟩ := hleaves a
      obtain ⟨hbad, hno⟩ : mdioBad a = true ∧ mdioUpOf a = false := by obtain rfl | rfl := ha <;> exact ⟨rfl, rfl⟩
      refine ⟨_, exec_mdioPoll k a htap, by rw [hup, hno], by rw [hmdio, hbad], fun hl => ?_⟩
      have hpolled : polled s p = true := by
        have hself := hpoll p p.isLt
        rw [beq_self_eq_true, Bool.and_eq_true] at hself
        exact hself.1
      have hcond : linkCond (mdioRead k p (mdioBad a) (mdioUpOf a) s) p = false :=
        linkCond_noPhy (by rw [polled_mdioRead p.isLt, hpolled]) (by rw [port_mdioRead, hno])
          (by rwa [loopback_mdioRead p.isLt])
      rw [mdioPoll_single hports, linkReview_link, if_pos ⟨rfl, hcond⟩]
    · have howns : (tget (mdioPollEffect k a s).mdio k {}).owns = true := by rw [(hleaves a).2]
      exact ⟨_, exec_mdioPoll k a htap, mdioStat_owned (.inr (by rw [hports]; nofun)), mdioStat_owned (.inl howns)⟩
  case silent =>
    refine ⟨_, (exec_mdioPoll k a htap).trans (congrArg _ (mdioPoll_none hnone a)), mdioStat_free ?_ hnone, fun p => rfl⟩
    exact congrArg Mdio.owns (tget_tput_same ..)

end Sys2Proof.Machine
end

section
/-! PROOFS. What the rings, the faults and the Canopy of a tenant keep of its link, and what the treatment of a frame keeps
of a tenant (chapters 5, 6, 9 and 14). -/

namespace Sys2Proof.Machine

open Host

variable {s t u : State} {c : Prop}

/-! ### Links -/

/-- A link without the writes it has posted, and without its turns between engine and channels. -/
def linkStill (l : Link) : Link := { l with posted := [], share := 0 }

/-- Every link is as it was, but for what it posts and whose turn it is. -/
structure LinksKept (s t : State) : Prop where
  still : ∀ k, linkStill (link t k) = linkStill (link s k)

namespace LinksKept

theorem refl (s : State) : LinksKept s s := ⟨fun _ => rfl⟩

theorem trans (h : LinksKept s u) (k : LinksKept u t) : LinksKept s t := ⟨fun i => (k.still i).trans (h.still i)⟩

theorem ite [Decidable c] (h : LinksKept s t) (k : LinksKept s u) : LinksKept s (if c then t else u) := by
  split
  · exact h
  · exact k

theorem of_links (h : t.links = s.links) : LinksKept s t := ⟨fun k => by rw [link, h, link]⟩

theorem of_paths (h : PathsKept s t) : LinksKept s t :=
  ⟨fun k => (congrArg (fun l : Link => { l with share := 0 }) (h.link k) :)⟩

theorem of_evolves {m : Nat} (h : Evolves m s t) (h11 : m.testBit 11 = false := by decide) : LinksKept s t :=
  of_links ((h.frame .links).resolve_left (ne_true_of_eq_false h11))

theorem forEach {α : Type} {f : α → State → State} (hf : ∀ x v, LinksKept v (f x v)) (l : List α) (s : State) :
    LinksKept s (forEach l f s) := by
  induction l generalizing s with
  | nil => exact .refl s
  | cons x l ih => exact (hf x s).trans (by rw [forEach_cons]; exact ih _)

theorem forAll {n : Nat} {f : Nat → State → State} (hf : ∀ i v, LinksKept v (f i v)) (s : State) :
    LinksKept s (forAll n f s) := .forEach hf _ s

theorem state (h : LinksKept s t) (k : Nat) : (link t k).state = (link s k).state := (congrArg Link.state (h.still k) :)

theorem bme (h : LinksKept s t) (k : Nat) : (link t k).bme = (link s k).bme := (congrArg Link.bme (h.still k) :)

theorem mse (h : LinksKept s t) (k : Nat) : (link t k).mse = (link s k).mse := (congrArg Link.mse (h.still k) :)

theorem crs (h : LinksKept s t) (k : Nat) : (link t k).crs = (link s k).crs := (congrArg Link.crs (h.still k) :)

theorem command (h : LinksKept s t) (k : Nat) : (link t k).command = (link s k).command :=
  (congrArg Link.command (h.still k) :)

end LinksKept

theorem linksKept_modLink (t : Nat) {f : Link → Link} (hf : ∀ x, linkStill (f x) = linkStill x) (s : State) :
    LinksKept s (modLink t f s) := by
  refine ⟨fun k => ?_⟩
  by_cases hk : k = t
  · rw [hk, link_modLink_same, hf]
  · rw [link_modLink_ne _ _ _ _ hk]

theorem linksKept_modTen (t : Nat) (f : Tenant → Tenant) (s : State) : LinksKept s (modTen t f s) := .of_links rfl

theorem linksKept_ite_apply [Decidable c] {f : State → State} (hf : ∀ v, LinksKept v (f v)) (v : State) :
    LinksKept v (if c then f v else v) := .ite (hf v) (.refl v)

/-! ### The ring engine reads (R182 to R186, R415, R425) -/

theorem pathsKept_streamReset (t w : Nat) (s : State) : PathsKept s (streamReset t w s) := ⟨fun _ => rfl, fun _ => rfl⟩

theorem pathsKept_readLine (t who : Nat) (l : Nat × Nat × Nat) (s : State) : PathsKept s (readLine t who l s) := by
  have hread : PathsKept s (perfAdd (0x060001 + 256 * t) (ones 4 (hitMask s t l.1 l.2.1 l.2.2).toNat)
      (streamReset t (modeOf s t l.1).1 s)) := (pathsKept_streamReset t _ s).trans (pathsKept_perfAdd _ _ _)
  have htouch : ∀ set way, PathsKept s (if hitMask s t l.1 l.2.1 l.2.2 = 0 then _ else plruTouch set way _) := fun set way =>
    .ite hread (hread.trans (pathsKept_plruTouch set way _))
  have hmiss : ∀ a n who w v, PathsKept s v → PathsKept s (startFill t l.1 a who w (perfAdd (0x060002 + 256 * t) n v)) :=
    fun a n who w v hv => (hv.trans (pathsKept_perfAdd _ n v)).trans (pathsKept_startFill t l.1 a who w _)
  unfold readLine
  dsimp only
  refine .ite (.refl s) (.ite ?_ (hmiss _ _ _ _ _ ?_))
  all_goals
    split
    · exact htouch _ _
    · exact hread

theorem pathsKept_prefetchNext (t : Nat) (l : Nat × Nat × Nat) (s : State) : PathsKept s (prefetchNext t l s) := by
  have hfill := (pathsKept_perfAdd (0x060004 + 256 * t) 1 s).trans
    (pathsKept_startFill t (l.1 + 256) 15 .prefetch (modeOf s t l.1).1 _)
  unfold prefetchNext
  exact .ite (.ite (hfill.trans (pathsKept_perfAdd _ _ _)) hfill) (.refl s)

theorem pathsKept_readIssue (t a n who : Nat) (s : State) : PathsKept s (readIssue t a n who s) := by
  unfold readIssue
  dsimp only
  have hend : PathsKept s (creadEnd t who s) := .of_evolves (m := 0x400000) (creadEnd_ev rfl (.refl s))
  refine .trans ?_ (.forEach (fun l v => pathsKept_prefetchNext t l v) _ _)
  have hlines : ∀ v, PathsKept s v → PathsKept s (forEach (linesOf a n) (readLine t who) v) := fun v hv =>
    hv.trans (.forEach (fun l w => pathsKept_readLine t who l w) _ v)
  refine .ite (.trans ?_ (pathsKept_perfAdd _ _ _)) ?_
  · exact hlines _ (.ite hend (hend.trans ⟨fun _ => rfl, fun _ => rfl⟩))
  · exact hlines _ (.ite hend (hend.trans ⟨fun _ => rfl, fun _ => rfl⟩))

theorem linksKept_endWith (c e : Nat) (s : State) : LinksKept s (endWith c e s) :=
  .of_evolves (m := 0x180100) (endWith_ev rfl (.refl s))

theorem linksKept_perfAdd (a n : Nat) (s : State) : LinksKept s (perfAdd a n s) :=
  .of_paths (pathsKept_perfAdd a n s)

theorem linksKept_issueRead (c : Nat) (r : ChanRead) (s : State) : LinksKept s (issueRead c r s) := by
  unfold issueRead
  refine .ite (linksKept_endWith c 4 s) ?_
  have hnote : ∀ f v, LinksKept v { modChan c f v with lastChan := c } := fun _ _ => .of_links rfl
  refine .trans (.trans (linksKept_perfAdd (0x0A0001 + 256 * chanHost s c) 1 s) ?_) (hnote _ _)
  exact linksKept_modLink _ (f := fun l => { l with share := 0 }) (fun _ => rfl) _

theorem linksKept_hostRequest (c : Nat) (s : State) : LinksKept s (hostRequest c s) := by
  have hburst : LinksKept s (countBurst c s) := .of_evolves (m := 0x80100) (countBurst_ev rfl (.refl s))
  have hnote : ∀ n v, LinksKept v (modChan c (noteRequest n) v) := fun _ _ => .of_links rfl
  unfold hostRequest
  exact .ite (.ite (linksKept_endWith c 3 s) (linksKept_issueRead c _ s))
    ((hburst.trans (hnote _ _)).trans (linksKept_issueRead c _ _))

theorem linksKept_ringTurn (t n : Nat) (s : State) : LinksKept s (ringTurn t n s) := by
  induction n generalizing s with
  | zero => exact .refl s
  | succ n ih =>
    unfold ringTurn
    refine .trans ?_ (ih _)
    split
    · exact linksKept_modLink t (f := fun l => { l with share := 0 }) (fun _ => rfl) s
    · next c _ =>
      refine .trans (linksKept_ite_apply (c := (link s t).share ≥ 7) (linksKept_hostRequest c) s) ?_
      exact linksKept_modLink t (f := fun l => { l with share := l.share + 1 }) (fun _ => rfl) _

theorem linksKept_ringRead (t a n who : Nat) (s : State) : LinksKept s (ringRead t a n who s) :=
  (linksKept_ringTurn t _ s).trans (.of_paths (pathsKept_readIssue t a n who _))

theorem linksKept_fetchNext (t r : Nat) (s : State) : LinksKept s (fetchNext t r s) := by
  have hgo : ∀ f a n, LinksKept s (ringRead t a n r (engineSteps t 1 (modRing t r f s))) := fun f a n =>
    (LinksKept.of_paths ((pathsKept_modRing t r f s).trans (pathsKept_engineSteps t 1 _))).trans
      (linksKept_ringRead t a n r _)
  unfold fetchNext
  dsimp only
  refine .ite (.refl s) (.ite (hgo _ _ _) ?_)
  split
  · exact .ite (hgo _ _ _) (.refl s)
  · exact .refl s

/-! ### A tenant fault leaves the links (R145, R147) -/

theorem linksKept_raise (w n : Nat) (s : State) : LinksKept s (raise w n s) := .of_paths (pathsKept_raise w n s)

theorem linksKept_flushStart (t r : Nat) (s : State) : LinksKept s (flushStart t r s) := by
  have hfetched : ∀ v, LinksKept v (dropFetched t r v) := fun v => .of_evolves (m := 0x480500) (dropFetched_ev rfl (.refl v))
  have hfix : ∀ v, LinksKept v (recoverFix t r v) := fun v => .of_paths (pathsKept_modRing t r _ v)
  have hread : ∀ v, LinksKept v (readDrop t 200 v) := fun v => .of_evolves (m := 0x400000) (readDrop_ev rfl (.refl v))
  have hrefs : ∀ v, LinksKept v (dropRefs t r v) := fun v => .of_evolves (m := 0x5500) (dropRefs_ev rfl (.refl v))
  have hqueued : ∀ v, LinksKept v (dropQueued t r .flushed v) := fun v =>
    (LinksKept.of_evolves (m := 0x5000) (dropItems_ev rfl (.refl v))).trans
      (.forEach (fun (i : EgItem) w => .of_paths (pathsKept_finishOrigin i.origin _ _ _ w)) _ _)
  have hdrain : ∀ v, LinksKept v (drain t r true v) := fun v => .of_paths (pathsKept_drain t r true v)
  unfold flushStart
  dsimp only
  refine .trans (.trans (.trans ?_ (hqueued _)) (hrefs _)) (hdrain _)
  refine .trans (.trans ?_ (hfix _)) (.forEach (fun f w => (hread w).trans (.of_paths (pathsKept_finishTx ..))) _ _)
  exact .trans (.trans (linksKept_modTen t _ s) (hfetched _)) (linksKept_modTen t _ _)

theorem linksKept_flushEnd (t r : Nat) (s : State) : LinksKept s (flushEnd t r s) := by
  have hclock : ∀ w, LinksKept w (clockFix t r w) := fun w => .of_paths (pathsKept_modRing t r _ w)
  have hstop : ∀ w, LinksKept w (stopCheck t r w) := fun w => linksKept_ite_apply (fun v => .of_paths (pathsKept_modRing t r _ v)) w
  have hended : ∀ f w, LinksKept w (stopCheck t r (clockFix t r (modRing t r f w))) := fun f w =>
    ((LinksKept.of_paths (pathsKept_modRing t r f w)).trans (hclock _)).trans (hstop _)
  unfold flushEnd
  exact .trans (.of_paths (pathsKept_drain t r true s)) (linksKept_ite_apply (hended _) _)

theorem linksKept_flushNow (t r : Nat) (s : State) : LinksKept s (flushNow t r s) :=
  (linksKept_flushStart t r s).trans (linksKept_flushEnd t r _)

theorem linksKept_faultActions (t : Nat) (s : State) : LinksKept s (faultActions t s) := by
  have hbreak : ∀ v, LinksKept v (breakLocks (t + 1) v) := fun v => .of_evolves (m := 0x300) (breakLocks_ev rfl (.refl v))
  have hpair : ∀ v, LinksKept v (faultPair t v) := fun v => .of_evolves (m := 0x180100) (faultPair_ev rfl (.refl v))
  have hstop : ∀ v, LinksKept v (stoppedCheck t v) := fun v => .of_evolves (m := 0x400) (stoppedCheck_ev rfl (.refl v))
  have hflush : ∀ r v, LinksKept v (if (ring v t r).flush then v else flushNow t r v) := fun r v =>
    .ite (.refl v) (linksKept_flushNow t r v)
  unfold faultActions
  refine .trans (.trans (.trans ?_ (.forAll (fun r v => hflush r v) _)) (hpair _)) (hstop _)
  exact .trans (linksKept_modTen t _ s) (hbreak _)

theorem linksKept_pushFail (t : Nat) (r : FaultRec) (s : State) : LinksKept s (pushFail t r s) :=
  .of_evolves (m := 0x4000500) (pushFail_ev rfl (.refl s))

theorem linksKept_pushStart (t : Nat) (r : FaultRec) (s : State) : LinksKept s (pushStart t r s) := by
  unfold pushStart
  refine .ite (linksKept_pushFail t r s) ?_
  exact ((LinksKept.of_paths (pathsKept_post t _ _ s)).trans (linksKept_modTen t _ _)).trans (linksKept_perfAdd _ _ _)

theorem linksKept_tenantFault (t bit ringNo : Nat) (rx : Bool) (cpl arg0 arg1 info : Nat) (s : State) :
    LinksKept s (tenantFault t bit ringNo rx cpl arg0 arg1 info s) := by
  have hlog : ∀ c a i v, LinksKept v (logFault 1 c t a i 0 false v) := fun c a i v =>
    .of_evolves (m := 0x4000100) (logFault_ev rfl (.refl v))
  have hlogged : ∀ f a i, LinksKept s (logFault 1 bit t a i 0 false (modTen t f s)) := fun f a i =>
    LinksKept.trans (linksKept_modTen t f s) (hlog ..)
  unfold tenantFault
  refine .trans ?_ (linksKept_ite_apply (linksKept_faultActions t) _)
  refine .trans ?_ (linksKept_ite_apply (linksKept_raise 0 (3 + t)) _)
  refine .trans ?_ (linksKept_ite_apply (linksKept_raise (t + 1) 4) _)
  refine .trans ?_ (linksKept_raise (t + 1) 1 _)
  have hdetail : ∀ f v, LinksKept s v → LinksKept s (modTen t f v) := fun f v h => h.trans (linksKept_modTen t f v)
  refine .ite (hdetail _ _ (hlogged _ _ _)) (.ite (hdetail _ _ (hdetail _ _ (hlogged _ _ _))) ?_)
  exact .trans (hdetail _ _ (hlogged _ _ _)) (linksKept_pushStart ..)

theorem linksKept_pushFailEnter (t : Nat) (s : State) : LinksKept s (pushFailEnter t s) := by
  unfold pushFailEnter
  split
  · exact .refl s
  · exact (linksKept_pushFail t _ s).trans (linksKept_ite_apply (linksKept_faultActions t) _)

theorem linksKept_linkDownCause (t : Nat) (s : State) : LinksKept s (linkDownCause t s) :=
  .ite (linksKept_tenantFault ..) (.refl s)

/-! ### Rings that are served leave the links (R178, R182) -/

theorem linksKept_left_ite {c : Prop} [Decidable c] {p q : ParseStep} (hp : LinksKept s p.left)
    (hq : LinksKept s q.left) : LinksKept s (if c then p else q).left := by
  split
  · exact hp
  · exact hq

theorem linksKept_parseOne (t r : Nat) (s : State) : LinksKept s (parseOne t r s).left := by
  have hdrop : ∀ n lo hi, LinksKept s (dropSlots t r n lo hi s) := fun _ _ _ =>
    .of_evolves (m := 0x80500) (dropSlots_ev rfl (.refl s))
  have hzero : LinksKept s (ownZero t r s) := .of_evolves (m := 0x80500) (ownZero_ev rfl (.refl s))
  unfold parseOne
  dsimp only
  split
  · exact .refl s
  · refine linksKept_left_ite (.refl s) (linksKept_left_ite (linksKept_left_ite (hdrop _ _ _) hzero)
      (linksKept_left_ite (.refl s) (linksKept_left_ite (linksKept_tenantFault ..)
      (linksKept_left_ite (linksKept_tenantFault ..) (linksKept_left_ite (.refl s)
      (linksKept_left_ite (hdrop _ _ _) (linksKept_left_ite (.refl s) ?_)))))))
    split
    · exact linksKept_tenantFault ..
    · exact .of_evolves (m := 0x80500) (takeEntry_ev rfl (.refl s))

theorem linksKept_parseLoop (t r n : Nat) (s : State) : LinksKept s (parseLoop t r n s) := by
  induction n generalizing s with
  | zero => exact .refl s
  | succ n ih =>
    have hone := linksKept_parseOne t r s
    unfold parseLoop
    split <;> rename_i he <;> rw [he] at hone
    · exact hone
    · exact hone.trans (ih _)

theorem linksKept_serve (t r : Nat) (s : State) : LinksKept s (serve t r s) :=
  ((linksKept_parseLoop t r _ s).trans (.of_paths (pathsKept_drain t r false _))).trans (linksKept_fetchNext t r _)

theorem linksKept_linkServe (t : Nat) (s : State) : LinksKept s (linkServe t s) :=
  .ite (.forEach (fun ⟨r, _⟩ v => linksKept_serve t r v) _ s) (.refl s)

/-! ### Bus Master Enable clears (R146) -/

theorem pathsKept_maintRun (t : Nat) (m : Maint) (s : State) : PathsKept s (maintRun t m s).1 := by
  have hfills : ∀ f v, PathsKept v (setFills f v) := fun f v => .of_evolves (m := 0x400000) (setFills_ev rfl (.refl v))
  unfold maintRun
  refine .trans (.forEach (fun ⟨key, l⟩ v => ?_) _ s) (hfills _ _)
  exact .trans (.ite (pathsKept_writeBackLine t l _ v) (.refl v)) (pathsKept_putLine key _ _)

theorem pathsKept_maintStart (t : Nat) (s : State) : PathsKept s (maintStart t s) := by
  have hset : ∀ q v, PathsKept v (setQueue t q v) := fun q v => .of_evolves (m := 0x400000) (setQueue_ev rfl (.refl v))
  unfold maintStart
  split
  · refine .ite (.refl s) ?_
    have hcount : ∀ b : Bool, ∀ v, PathsKept v (if b then perfAdd (0x0A0001 + 256 * t) 1 v else v) := fun b v =>
      .ite (pathsKept_perfAdd _ 1 v) (.refl v)
    exact ((pathsKept_maintRun t _ s).trans (hset _ _)).trans (hcount _ _)
  · exact .refl s

theorem pathsKept_maintEnd (t err : Nat) (s : State) : PathsKept s (maintEnd t err s) := by
  unfold maintEnd
  split
  · refine .trans (.trans ?_ (.of_evolves (m := 0x110) (maintDone_ev rfl (.refl _)))) (pathsKept_maintStart t _)
    exact .of_evolves (m := 0x400000) (setQueue_ev rfl (.refl s))
  · exact .refl s

theorem pathsKept_maintCut (t : Nat) (s : State) : PathsKept s (maintCut t s) := by
  unfold maintCut
  split
  · exact .ite (pathsKept_maintEnd t 2 s) (.refl s)
  · exact .refl s

theorem pathsKept_linkChannels (t : Nat) (s : State) : PathsKept s (linkChannels t s) :=
  .of_evolves (m := 0x180100) (linkChannels_ev rfl (.refl s))

/-- All that follows on the clearing of Bus Master Enable. -/
def masterOff (t : Nat) (s : State) : State :=
  lookupsMiss t (maintCut t (linkChannels t (linkDownCause t (pushFailEnter t s))))

theorem linksKept_masterOff (t : Nat) (s : State) : LinksKept s (masterOff t s) := by
  have hdown := (linksKept_pushFailEnter t s).trans (linksKept_linkDownCause t _)
  have hcut := (hdown.trans (.of_paths (pathsKept_linkChannels t _))).trans (.of_paths (pathsKept_maintCut t _))
  exact hcut.trans (.of_evolves (m := 0x24a7584) (lookupsMiss_ev rfl (.refl _)))

end Sys2Proof.Machine
end

section
/-! PROOFS. O25: host links are reset and configured (chapters 3, 5 and 19). -/

namespace Sys2Proof.Machine

open Host

variable {s t u : State}

/-! ### The treatment of a frame leaves a tenant but for its rings (R285 to R288) -/

theorem pathsKept_resolveActions (port : Nat) (item : RxItem) (row : Option Nat) (a : Actions) (s : State) :
    PathsKept s (resolveActions port item row a s) := by
  have hlock : ∀ k r ts v, PathsKept v (lockTrigger k 2 r ts v).1 := fun k r ts v =>
    .of_evolves (m := 0x2000100) (lockTrigger_ev rfl (.refl v))
  have hpay : ∀ k n v, PathsKept v (recordPay k n v) := fun k n v => .of_evolves (m := 0x2000000) (recordPay_ev rfl (.refl v))
  have hdrop : ∀ k n v, PathsKept v (dropRecord k n v) := fun k n v => .of_evolves (m := 0x2000100) (dropRecord_ev rfl (.refl v))
  have hask : ∀ j n b v, PathsKept v (relayAsk j port n b v).1 := fun j n b v =>
    .of_evolves (m := 0x20080) (relayAsk_ev rfl (.refl v))
  have hxoff : ∀ c r v, PathsKept v (xoffJudge port c r v) := fun c r v => .of_evolves (m := 0x4000) (xoffJudge_ev rfl (.refl v))
  have htake : ∀ f v, PathsKept v (takeIn f v) := fun f v => .of_evolves (m := 0x83184) (takeIn_ev rfl (.refl v))
  have hrecord : ∀ k n v, PathsKept v (recordFrame k n v) := fun k n v =>
    .of_evolves (m := 0x2000000) (recordFrame_ev rfl (.refl v))
  have hrelay : ∀ j n l c v, PathsKept v (relayQueue j n l c v) := fun j n l c v =>
    .of_evolves (m := 0x5100) (relayQueue_ev rfl (.refl v))
  unfold resolveActions
  extract_lets q len lockNow s1 deliver
  have h1 : PathsKept s s1 := by
    refine (pathsKept_perfAdd 0x050001 1 s).trans ?_
    dsimp only [s1, lockNow]
    split
    · exact .ite (.refl _) (hlock ..)
    · exact .refl _
  split
  rename_i s2 rec heq2
  have h2 : PathsKept s s2 := by
    refine h1.trans ?_
    split at heq2
    · cases heq2
      exact .refl _
    · split at heq2 <;> cases heq2
      · exact hpay ..
      · exact hdrop ..
  split
  rename_i s3 relay heq3
  have h3 : PathsKept s s3 := h2.trans (by simpa only [heq3] using hask (if a.drop then none else a.relay) len true s2)
  split
  rename_i s4 mirror heq4
  have h4 : PathsKept s s4 := h3.trans (by simpa only [heq4] using hask (if a.drop then none else a.mirror) len false s3)
  refine h4.trans ?_
  clear heq2 heq3 heq4
  dsimp only
  refine .ite (pathsKept_countPort ..) (.ite ?_ ?_)
  · exact ((pathsKept_countPort _ 13 1 s4).trans (pathsKept_perfAdd _ _ _)).trans (hxoff _ _ _)
  · have hin : ∀ f c, PathsKept s4 (xoffJudge port c none (takeIn f s4)) := fun f c => (htake f s4).trans (hxoff _ _ _)
    have hqueued : ∀ f c t k g, PathsKept s4 (modRing t (68 + k) g (xoffJudge port c none (takeIn f s4))) :=
      fun f c t k g => (hin f c).trans (pathsKept_modRing ..)
    clear_value deliver
    refine .ite (.trans (.ite (.trans ?_ (hrelay ..)) ?_) (hrelay ..)) (.ite (.trans ?_ (hrelay ..)) ?_)
    all_goals
      cases rec <;> rcases deliver with _ | ⟨t, k⟩
      · exact hin _ _
      · exact hqueued ..
      · exact (hin _ _).trans (hrecord ..)
      · exact (hqueued ..).trans (hrecord ..)

theorem pathsKept_settleFrame (p : Nat) (item : RxItem) (hit : Option (Nat × List Byte)) (s : State) :
    PathsKept s (settleFrame p item hit s) := by
  unfold settleFrame
  split <;> exact pathsKept_resolveActions ..

theorem pathsKept_lookupsMiss (t : Nat) (s : State) : PathsKept s (lookupsMiss t s) := by
  refine .forEach (fun f v => .trans (.trans (u := leaveWaiting f.port v) ?_ ?_) (pathsKept_settleFrame ..)) _ s
  · exact .of_evolves (m := 0x20000) (leaveWaiting_ev rfl (.refl v))
  · exact .of_evolves (m := 0x400000) (readDrop_ev rfl (.refl _))

/-! ### Resets of a link (R146, R155, R576) -/

variable {k : Nat}

/-- PERST_N is asserted on the link as a reset leaves it. -/
def perstTaken (k : Nat) (s : State) : State :=
  modTen k (fun x => { x with linkHold := false }) (raise 0 (3 + k) (modLink k (fun l => { l with perst := true }) (linkTaken k s)))

/-- A link as its reset leaves it. -/
def Taken (l : Link) : Prop := l.state = .detect ∧ l.bme = false ∧ l.mse = false ∧ l.msiEn = false

theorem link_raise (w n : Nat) (s : State) (i : Nat) : link (raise w n s) i = link s i := by
  rw [link, (raise_ev (m := allBut .links) (by decide) (.refl s)).kept .links, link]

theorem link_linkTaken (k : Nat) (s : State) : link (linkTaken k s) k = link (linkReset k s) k := by
  have hmoved : ∀ v, link (linkMoved k v) k = link v k := fun v => (link_raise ..).trans (link_raise ..)
  unfold linkTaken
  dsimp only
  split
  · exact hmoved _
  · rfl

theorem taken_linkTaken (k : Nat) (s : State) : Taken (link (linkTaken k s) k) := by
  rw [link_linkTaken, linkReset, link_modLink_same]
  exact ⟨rfl, rfl, rfl, rfl⟩

theorem link_perstTaken (k : Nat) (s : State) : (link (perstTaken k s) k).perst = true ∧ Taken (link (perstTaken k s) k) := by
  rw [perstTaken, link_modTen, link_raise, link_modLink_same]
  exact ⟨rfl, taken_linkTaken k s⟩

theorem inReset_begun (k : Nat) (s : State) : (ten (tenantResetStart k s) k).inReset = true :=
  (inReset_tenantResetStart k k s).trans (if_pos rfl)

/-- The hold of a link outlives the start of the reset. -/
theorem linkHold_tenantResetStart (k : Nat) (s : State) : (ten (tenantResetStart k s) k).linkHold = (ten s k).linkHold := by
  cases h : (ten s k).inReset with
  | true => rw [tenantResetStart_held h]
  | false =>
    have hkept := congrArg (fun b => b.2.1) ((holdKept_tenantResetStart h).bits k)
    refine Eq.trans hkept ?_
    rw [resetBegun, ten_modTen_same]
    rfl

theorem perstNAssert_taken (hp : (link s k).perst = false) :
    ∃ t, perstNAssertEffect k s = t ∧ (link t k).perst = true ∧ (link t k).state = .detect ∧ (link t k).bme = false
      ∧ (link t k).mse = false ∧ (link t k).msiEn = false ∧ (ten t k).inReset = true ∧ tenantHeld t k = true := by
  have heff : perstNAssertEffect k s = tenantResetStart k (perstTaken k s) := if_neg (ne_true_of_eq_false hp)
  obtain ⟨hperst, hstate, hbme, hmse, hmsi⟩ := link_perstTaken k s
  refine ⟨_, heff, ?_⟩
  rw [tenantHeld, link_tenantResetStart, hperst]
  exact ⟨rfl, hstate, hbme, hmse, hmsi, inReset_begun k _, rfl⟩

/-- The reset of a link that came over it is held until the link is back. -/
def hotTaken (k : Nat) (s : State) : State := modTen k (fun x => { x with linkHold := true }) (linkTaken k s)

theorem hotReset_taken (hup : linkUp s k = true) :
    ∃ t, hotResetEffect k s = t ∧ (link t k).state = .detect ∧ (link t k).bme = false ∧ (link t k).mse = false
      ∧ (ten t k).inReset = true ∧ (ten t k).linkHold = true := by
  have heff : hotResetEffect k s = tenantResetStart k (hotTaken k s) := if_neg (by simp [hup])
  obtain ⟨hstate, hbme, hmse, -⟩ := taken_linkTaken k s
  refine ⟨_, heff, ?_⟩
  rw [link_tenantResetStart, linkHold_tenantResetStart, hotTaken, link_modTen, ten_modTen_same]
  exact ⟨hstate, hbme, hmse, inReset_begun k _, rfl⟩

/-- A function-level reset leaves a link trained, with its Command register and MSI capability clear. -/
def flrLink (l : Link) : Link := { l with bme := false, mse := false, command := 0, msiEn := false }

theorem functionLevelReset_taken (hup : linkUp s k = true) :
    ∃ t, functionLevelResetEffect k s = t ∧ (link t k).state = (link s k).state ∧ (link t k).bme = false
      ∧ (link t k).mse = false ∧ (link t k).msiEn = false ∧ (ten t k).inReset = true
      ∧ (ten t k).linkHold = (ten s k).linkHold := by
  have heff : functionLevelResetEffect k s = tenantResetStart k (modLink k flrLink s) := if_neg (by simp [hup])
  refine ⟨_, heff, ?_⟩
  rw [link_tenantResetStart, linkHold_tenantResetStart, link_modLink_same, ten_modLink]
  exact ⟨rfl, rfl, rfl, rfl, inReset_begun k _, rfl⟩

/-! ### Configuration requests (R146, R458, R576) -/

/-- A request that succeeds shows no Retry Status. -/
def retryOver (k : Nat) (s : State) : State := modLink k (fun l => { l with crs := false }) s

/-- A dword that a configuration read of a register may return. -/
def cfgWord (r : CfgReg) (l : Link) (any : Nat) : Nat :=
  match r with
  | .deviceCapabilities => putBits any 28 1 1
  | .command => putBits any 0 16 (l.command.toNat + flag l.bme 2 + flag l.mse 1)
  | .other => any

theorem cfgRead_eq (r : CfgReg) (s : State) : cfgRead k r s
    = modLink k (fun l => { l with cfg := some (BitVec.ofNat 32 (cfgWord r (link s k) (freeNat s % 2 ^ 32))) }) (drawn s) := by
  cases r <;> rfl

/-- Bus Master Enable and Memory Space Enable at their places in Command. -/
theorem cfgWord_command (l : Link) (any : Nat) (h : l.command &&& 6 = 0) :
    (BitVec.ofNat 32 (cfgWord .command l any)).getLsbD 2 = l.bme
      ∧ (BitVec.ofNat 32 (cfgWord .command l any)).getLsbD 1 = l.mse := by
  have hclear : ∀ i, (6 : Nat).testBit i = true → i < 16 → l.command.toNat.testBit i = false := fun i hi hlt => by
    have hbit := congrArg (fun b => b.getLsbD i) h
    simpa [BitVec.getLsbD, hi, hlt] using hbit
  have h1 := hclear 1 (by decide) (by decide)
  have h2 := hclear 2 (by decide) (by decide)
  simp only [Nat.testBit_eq_decide_div_mod_eq, decide_eq_false_iff_not] at h1 h2
  simp only [cfgWord, BitVec.getLsbD_ofNat, testBit_putBits]
  simp only [Nat.testBit_eq_decide_div_mod_eq]
  cases l.bme <;> cases l.mse <;> simp [flag] <;> omega

theorem configurationRequest_retry (hup : linkUp s k = true) (hr : s.start.ready = false) (c : CfgRequest) :
    configurationRequestEffect k c s = modLink k (fun l => { l with crs := true }) s :=
  (if_neg (by simp [hup])).trans (if_pos (by simp [hr]))

theorem configurationRequest_read (hup : linkUp s k = true) (hr : s.start.ready = true) (r : CfgReg) :
    configurationRequestEffect k (.read r) s = cfgRead k r (retryOver k s) :=
  (if_neg (by simp [hup])).trans (if_neg (by simp [hr]))

theorem configurationRequest_msi (hup : linkUp s k = true) (hr : s.start.ready = true) (en : Bool) (a : BitVec 64)
    (d : Dword) : configurationRequestEffect k (.msi en a d) s
      = modLink k (fun l => { l with msiEn := en, msiAddr := a, msiData := d }) (retryOver k s) :=
  (if_neg (by simp [hup])).trans (if_neg (by simp [hr]))

/-- The Command register but for its two enables is as the request writes it. -/
def commandSet (k : Nat) (mse : Bool) (rest : BitVec 16) (s : State) : State :=
  modLink k (fun l => { l with mse := mse, command := rest &&& ~~~6 }) (retryOver k s)

theorem busMasterOff_set (h : (link s k).bme = true) :
    busMasterOff k s = masterOff k (modLink k (fun l => { l with bme := false }) s) := if_neg (by simp [h])

theorem busMasterOff_clear (h : (link s k).bme = false) : busMasterOff k s = s := if_pos (by simp [h])

theorem busMasterOn_set (h : (link s k).bme = true) : busMasterOn k s = s := if_pos h

theorem busMasterOn_clear (h : (link s k).bme = false) :
    busMasterOn k s = linkServe k (modLink k (fun l => { l with bme := true }) s) := if_neg (ne_true_of_eq_false h)

/-- Whatever it sets off, a write of Bus Master Enable shows in the link alone that bit. -/
theorem busMaster_written (b : Bool) (s : State) :
    (link (if b then busMasterOn k s else busMasterOff k s) k).bme = b
      ∧ (link (if b then busMasterOn k s else busMasterOff k s) k).command = (link s k).command
      ∧ (link (if b then busMasterOn k s else busMasterOff k s) k).mse = (link s k).mse
      ∧ (link (if b then busMasterOn k s else busMasterOff k s) k).crs = (link s k).crs := by
  have hset : ∀ t, LinksKept (modLink k (fun l => { l with bme := b }) s) t → (link t k).bme = b
      ∧ (link t k).command = (link s k).command ∧ (link t k).mse = (link s k).mse ∧ (link t k).crs = (link s k).crs := by
    intro t ht
    rw [ht.bme, ht.command, ht.mse, ht.crs, link_modLink_same]
    exact ⟨rfl, rfl, rfl, rfl⟩
  cases b with
  | true =>
    rw [if_pos rfl]
    cases h : (link s k).bme with
    | true =>
      rw [busMasterOn_set h]
      exact ⟨h, rfl, rfl, rfl⟩
    | false =>
      rw [busMasterOn_clear h]
      exact hset _ (linksKept_linkServe k _)
  | false =>
    rw [if_neg Bool.false_ne_true]
    cases h : (link s k).bme with
    | true =>
      rw [busMasterOff_set h]
      exact hset _ (linksKept_masterOff k _)
    | false =>
      rw [busMasterOff_clear h]
      exact ⟨h, rfl, rfl, rfl⟩

theorem configurationRequest_command (hup : linkUp s k = true) (hr : s.start.ready = true) (bme mse : Bool) (rest : BitVec 16) :
    configurationRequestEffect k (.command bme mse rest) s
      = if bme then busMasterOn k (commandSet k mse rest s) else busMasterOff k (commandSet k mse rest s) :=
  (if_neg (by simp [hup])).trans (if_neg (by simp [hr]))

theorem link_commandSet (k : Nat) (mse : Bool) (rest : BitVec 16) (s : State) :
    link (commandSet k mse rest s) k = { link s k with crs := false, mse := mse, command := rest &&& ~~~6 } := by
  rw [commandSet, retryOver, link_modLink_same, link_modLink_same]

/-! ### Bus Master Enable clears with no ring enabled (R146) -/

theorem pushFailEnter_none (h : (ten s k).frPush = none) : pushFailEnter k s = s := by
  unfold pushFailEnter
  rw [h]

theorem linkDownCause_idle (h : ∀ e ∈ (ten s k).rings, e.2.enable = false) : linkDownCause k s = s :=
  if_neg (by simpa using h)

theorem masterOff_idle (hr : ∀ e ∈ (ten s k).rings, e.2.enable = false) (hp : (ten s k).frPush = none) :
    masterOff k s = lookupsMiss k (maintCut k (linkChannels k s)) := by
  rw [masterOff, pushFailEnter_none hp, linkDownCause_idle hr]

theorem chan_endWith_ne {c d : Nat} (e : Nat) (h : d ≠ c) : chan (endWith c e s) d = chan s d := by
  rw [endWith_eq, chan_chanSettle_ne h, chan_modChan_ne _ _ _ _ h]

/-- A channel of a link without Bus Master Enable ends at once, or when the reads it waits for are back. -/
def Cut (x y : Chan) : Prop :=
  (x.reads = [] → y.busy = false ∧ y.err = 4) ∧ (x.reads ≠ [] → y.busy = true ∧ y.ending = some 4)

theorem cut_endWith {c : Nat} (hb : (chan s c).busy = true) (he : (chan s c).ending = none)
    (hi : canIssue s (chanHost s c) = false) : Cut (chan s c) (chan (endWith c 4 s) c) := by
  have hx : chan (modChan c (endingChan 4) s) c = endingChan 4 (chan s c) := chan_modChan_same ..
  have hend : (endingChan 4 (chan s c)).ending = some 4 := congrArg some (by rw [he]; rfl)
  have hhost : chanHost (modChan c (endingChan 4) s) c = chanHost s c := by
    rw [chanHost, chanOwner_of_params (s := s) (u := modChan c (endingChan 4) s) rfl, hx, chanHost]
    rfl
  have hissue : canIssue (modChan c (endingChan 4) s) (chanHost (modChan c (endingChan 4) s) c) = false := by
    rw [hhost, canIssue_of_links (s := s) (u := modChan c (endingChan 4) s) rfl, hi]
  rw [endWith_eq]
  refine ⟨fun hr => ?_, fun hr => ?_⟩
  · have hends : chanSettle c (modChan c (endingChan 4) s) = endChan c 4 (modChan c (endingChan 4) s) := by
      cases hw : (chan s c).wrote with
      | false => exact chanSettle_ends (by rw [hx]; exact hb) (by rw [hx]; exact hr) (by rw [hx]; exact hw) (by rw [hx]; exact hend)
      | true =>
        have hb' : (endingChan 4 (chan s c)).busy = true := hb
        have hr' : (endingChan 4 (chan s c)).reads = [] := hr
        have hw' : (endingChan 4 (chan s c)).wrote = true := hw
        simp [chanSettle, hx, hb', hr', hw', hend, hissue]
    rw [hends, chan_endChan_same]
    exact ⟨rfl, rfl⟩
  · rw [chanSettle_reads (by rw [hx]; exact hr), hx]
    exact ⟨hb, hend⟩

/-- Every channel that uses the host through a link that issues nothing is cut. -/
theorem cut_linkChannels {c : Nat} (hc : c < 16) (hi : canIssue s k = false) (hb : (chan s c).busy = true)
    (hk : chanHost s c = k) (hh : srcSpace (chan s c) = 0 ∨ dstSpace (chan s c) = 0) (he : (chan s c).ending = none) :
    Cut (chan s c) (chan (linkChannels k s) c) := by
  unfold linkChannels
  refine forAll_achieves (pre := fun v => chan v c = chan s c ∧ v.params = s.params ∧ v.links = s.links)
    (post := fun v => Cut (chan s c) (chan v c)) hc (fun i v hne hv => ?_) (fun v hv => ?_) (fun i v hne hv => ?_) ⟨rfl, rfl, rfl⟩
  · obtain ⟨hchan, hpar, hlinks⟩ := hv
    dsimp only
    split
    · have hpar' : (endWith i 4 v).params = v.params := (endWith_ev (m := allBut .params) (by decide) (.refl v)).kept .params
      have hlinks' : (endWith i 4 v).links = v.links := (endWith_ev (m := allBut .links) (by decide) (.refl v)).kept .links
      exact ⟨(chan_endWith_ne 4 hne.symm).trans hchan, hpar'.trans hpar, hlinks'.trans hlinks⟩
    · exact ⟨hchan, hpar, hlinks⟩
  · obtain ⟨hchan, hpar, hlinks⟩ := hv
    have hhost : chanHost v c = k := by
      rw [chanHost, chanOwner_of_params hpar, hchan]
      exact hk
    have htaken : ((chan v c).busy && chanHost v c == k && (srcSpace (chan v c) == 0 || dstSpace (chan v c) == 0)) = true := by
      simpa [hchan, hb, hhost] using hh
    dsimp only
    rw [if_pos htaken, ← hchan]
    refine cut_endWith (by rw [hchan]; exact hb) (by rw [hchan]; exact he) ?_
    rw [hhost, canIssue_of_links hlinks, hi]
  · dsimp only
    split
    · rw [chan_endWith_ne 4 hne.symm]
      exact hv
    · exact hv

/-- Bus Master Enable clears with no ring enabled and no push in flight: the channels of the link end, and no cause. -/
theorem busMasterOff_idle (hb : (link s k).bme = true) (hr : ∀ e ∈ (ten s k).rings, e.2.enable = false)
    (hp : (ten s k).frPush = none) :
    ∃ t, busMasterOff k s = t ∧ (link t k).bme = false ∧ (link t k).state = (link s k).state
      ∧ (ten t k).fault = (ten s k).fault
      ∧ ∀ c, c < 16 → (chan s c).busy = true → chanHost s c = k → srcSpace (chan s c) = 0 ∨ dstSpace (chan s c) = 0 →
          (chan s c).ending = none → Cut (chan s c) (chan t c) := by
  let s0 := modLink k (fun l => { l with bme := false }) s
  have hlink : link s0 k = { link s k with bme := false } := link_modLink_same ..
  have hissue : canIssue s0 k = false := by rw [canIssue, hlink, Bool.and_false]
  refine ⟨_, (busMasterOff_set hb).trans (masterOff_idle (s := s0) hr hp), ?_⟩
  have hcut := pathsKept_maintCut k (linkChannels k s0)
  have hkept := ((pathsKept_linkChannels k s0).trans hcut).trans (pathsKept_lookupsMiss k _)
  have hchans : (lookupsMiss k (maintCut k (linkChannels k s0))).chans = (linkChannels k s0).chans :=
    Eq.trans ((lookupsMiss_ev (m := allBut .chans) (by decide) (.refl _)).kept .chans)
      ((maintCut_ev (m := allBut .chans) (by decide) (.refl _)).kept .chans)
  generalize lookupsMiss k (maintCut k (linkChannels k s0)) = t at hkept hchans
  refine ⟨(hkept.bme k).trans (by rw [hlink]), (hkept.state k).trans (by rw [hlink]),
    (congrArg Tenant.fault (hkept.ten k) :), fun c hc hbusy hhost hspace hend => ?_⟩
  rw [chan_of_chans hchans]
  exact cut_linkChannels (s := s0) hc hissue hbusy hhost hspace hend

/-! ### The state of a link (R146, R461, R576) -/

/-- A link goes to a state. -/
def linkTo (k : Nat) (st : LinkState) (s : State) : State := modLink k (fun l => { l with state := st }) s

/-- L0 and L1 are the states in which a link is up. -/
def UpState (st : LinkState) : Prop := st = .l0 ∨ st = .l1

theorem linkUp_eq (h : UpState (link s k).state) : linkUp s k = true := by
  unfold linkUp
  rcases h with h | h <;> rw [h]

theorem linkUp_iff : linkUp s k = true ↔ UpState (link s k).state := by
  refine ⟨fun h => ?_, linkUp_eq⟩
  unfold linkUp at h
  split at h
  · next h0 => exact .inl h0
  · next h1 => exact .inr h1
  · exact absurd h Bool.false_ne_true

theorem linkUp_linkTo_iff {st : LinkState} : linkUp (linkTo k st s) k = true ↔ UpState st := by
  rw [linkUp_iff, linkTo, link_modLink_same]

/-- Nothing bars the link, and its state is another. -/
theorem stateChange_open {st : LinkState} (hb : linkBarred s k = false) (hne : (link s k).state ≠ st) :
    ¬ (linkBarred s k || (link s k).state == st) = true := by simp [hb, hne]

theorem stateChange_within {st : LinkState} (hb : linkBarred s k = false) (hst : UpState st) (hup : linkUp s k = true) :
    (link (hostLinkStateChangeEffect k st s) k).state = st := by
  by_cases hsame : (link s k).state = st
  · have heff : hostLinkStateChangeEffect k st s = s := if_pos (by simp [hsame])
    rw [heff, hsame]
  · have heff : hostLinkStateChangeEffect k st s = linkTo k st s :=
      (if_neg (stateChange_open hb hsame)).trans
        (if_pos (by rw [hup, beq_iff_eq]; exact (linkUp_linkTo_iff.mpr hst).symm))
    rw [heff, linkTo, link_modLink_same]

theorem linkMoved_linkTo (k : Nat) (st : LinkState) (s : State) : linkMoved k (linkTo k st s)
    = raise 0 (3 + k) (raise (k + 1) 3 (modLink k (fun l => { l with state := st }) s)) := rfl

theorem stateChange_falls {st : LinkState} (hb : linkBarred s k = false) (hst : ¬ UpState st) (hup : linkUp s k = true)
    (hr : ∀ e ∈ (ten s k).rings, e.2.enable = false) (hp : (ten s k).frPush = none) :
    hostLinkStateChangeEffect k st s = linkMoved k (linkTo k st s) := by
  have hne : (link s k).state ≠ st := fun h => hst (h ▸ linkUp_iff.mp hup)
  have hdown : linkUp (linkTo k st s) k = false := Bool.eq_false_iff.mpr fun h => hst (linkUp_linkTo_iff.mp h)
  have heff : hostLinkStateChangeEffect k st s = linkDownCause k (pushFailEnter k (linkMoved k (linkTo k st s))) :=
    (if_neg (stateChange_open hb hne)).trans <|
      (if_neg (by rw [hup, beq_iff_eq]; exact fun h => absurd (h.trans hdown) (by decide))).trans
        (if_neg (ne_true_of_eq_false hdown))
  have hten : ten (linkMoved k (linkTo k st s)) k = ten s k := (ten_raise ..).trans (ten_raise ..)
  rw [heff, pushFailEnter_none (by rw [hten]; exact hp), linkDownCause_idle (by rw [hten]; exact hr)]

theorem stateChange_rises {st : LinkState} (hb : linkBarred s k = false) (hst : UpState st) (hup : linkUp s k = false) :
    hostLinkStateChangeEffect k st s
      = linkServe k (modTen k (fun x => { x with linkHold := false }) (linkMoved k (linkTo k st s))) := by
  have hnow := linkUp_linkTo_iff (s := s) (k := k) |>.mpr hst
  have hne : (link s k).state ≠ st := fun h => absurd (hup.symm.trans (linkUp_eq (h ▸ hst))) (by decide)
  exact (if_neg (stateChange_open hb hne)).trans <|
    (if_neg (by rw [hup, beq_iff_eq]; exact fun h => absurd (h.trans hnow) (by decide))).trans (if_pos hnow)

theorem linkTrainingStart_detect (hb : linkBarred s k = false) (hd : (link s k).state = .detect) :
    linkTrainingStartEffect k s = modLink k (fun l => { l with state := .training }) s := if_pos (by simp [hb, hd])

/-! ### O25 -/

/-- Settles O25: a reset keeps the link it begins with (`link_tenantResetStart`), and all that Bus Master Enable sets off keeps
the rest of the link (`LinksKept`). -/
theorem hostLinkEventsResetAndConfigure : Obligations.HostLinkEventsResetAndConfigure := by
  unfold Obligations.HostLinkEventsResetAndConfigure
  refine ⟨fun s k ht hp => ?_, fun s k ht hp => ?_, fun s k ht hup => ⟨?_, ?_, fun kind => ?_, ?_⟩,
    fun s k ht hup => ⟨fun hr c => ?_, fun hr r => ?_, fun hr en a d => ?_, fun hr bme mse rest => ?_⟩,
    fun s k ht hb hr hp => ?_, fun s k ht hb => ⟨fun hd => ?_, fun rings => ?_, fun st hst hup => ?_, fun st h0 h1 hup hr hp => ?_,
      fun st hst hup => ?_⟩⟩
  · obtain ⟨t, he, h⟩ := perstNAssert_taken hp
    exact ⟨t, (live_next s (perstNAssertEffect k) ht).trans (congrArg _ he), h⟩
  · exact (live_next s (perstNDeassertEffect k) ht).trans (congrArg _ (if_pos hp))
  · obtain ⟨t, he, h⟩ := hotReset_taken hup
    exact ⟨t, (live_next s (hotResetEffect k) ht).trans (congrArg _ he), h⟩
  · obtain ⟨t, he, h⟩ := functionLevelReset_taken hup
    exact ⟨t, (live_next s (functionLevelResetEffect k) ht).trans (congrArg _ he), h⟩
  · exact (live_next s (bar0UnsupportedRequestEffect k) ht).trans (congrArg _ (if_pos hup))
  · exact (live_next s (onlyIf (linkUp s k) (aerLog k)) ht).trans (congrArg _ (if_pos hup))
  · exact (live_next s (configurationRequestEffect k c) ht).trans (congrArg _ (configurationRequest_retry hup hr c))
  · refine ⟨_, BitVec.ofNat 32 (cfgWord r (link (retryOver k s) k) (freeNat (retryOver k s) % 2 ^ 32)),
      (live_next s (configurationRequestEffect k (.read r)) ht).trans
        (congrArg _ ((configurationRequest_read hup hr r).trans (cfgRead_eq r _))), ?_⟩
    have hretry : link (retryOver k s) k = { link s k with crs := false } := link_modLink_same ..
    rw [link_modLink_same, link_drawn, hretry]
    refine ⟨rfl, rfl, rfl, fun hcap => ?_, fun hcmd hclear => ?_⟩
    · subst hcap
      simp [cfgWord, BitVec.getLsbD_ofNat, testBit_putBits]
    · subst hcmd
      exact cfgWord_command { link s k with crs := false } _ hclear
  · exact (live_next s (configurationRequestEffect k (.msi en a d)) ht).trans (congrArg _ (configurationRequest_msi hup hr en a d))
  · obtain ⟨hbme, hcommand, hmse, hcrs⟩ := busMaster_written bme (commandSet k mse rest s) (k := k)
    rw [link_commandSet] at hcommand hmse hcrs
    exact ⟨_, (live_next s (configurationRequestEffect k (.command bme mse rest)) ht).trans
      (congrArg _ (configurationRequest_command hup hr bme mse rest)), hcommand, hbme, hmse, hcrs⟩
  · obtain ⟨t, he, h⟩ := busMasterOff_idle hb hr hp
    exact ⟨t, (live_next s (busMasterOff k) ht).trans (congrArg _ he), h⟩
  · exact (live_next s (linkTrainingStartEffect k) ht).trans (congrArg _ (linkTrainingStart_detect hb hd))
  · exact (live_next s _ ht).trans (congrArg _ (if_pos (by simp [hb])))
  · exact ⟨_, live_next s (hostLinkStateChangeEffect k st) ht, stateChange_within hb hst hup⟩
  · have hst : ¬ UpState st := fun h => h.elim h0 h1
    exact (live_next s (hostLinkStateChangeEffect k st) ht).trans
      (congrArg _ ((stateChange_falls hb hst hup hr hp).trans (linkMoved_linkTo ..)))
  · exact (live_next s (hostLinkStateChangeEffect k st) ht).trans
      (congrArg _ ((stateChange_rises hb hst hup).trans (by rw [linkMoved_linkTo])))

end Sys2Proof.Machine
end

section
/-! PROOFS. O23: transmission, from the schedule to the Glade (chapters 5 to 7). -/

namespace Sys2Proof.Machine

open Host

variable {s t u : State} {k r : Nat} {e : Entry} {f : TxStage}

/-! ### The schedule (R195 to R197) -/

/-- The engine takes a frame of the ring it chooses. -/
theorem txSchedule_free {o : Option Nat} {v : State} (hu : u = txCatchUp k s) (hg : ∀ f ∈ (ten u k).staging, f.complete = true)
    (hs : stagingUse u k ≤ 9244) (hc : chooseRing k u = (o, v)) : txScheduleEffect k s = o.elim v (takeFrame k · v) := by
  have hfree : ¬ ((ten u k).staging.any (fun f => !f.complete) || decide (stagingUse u k + 9244 > 18488)) = true := by
    simp only [Bool.or_eq_true, List.any_eq_true, Bool.not_eq_true', decide_eq_true_eq, not_or, not_exists, not_and]
    exact ⟨fun f hf => by simp [hg f hf], by omega⟩
  unfold txScheduleEffect
  dsimp only
  rw [← hu, if_neg hfree, hc]
  cases o <;> rfl

theorem chooseRing_strict (h : [64, 65, 66, 67].find? (fun r => eligible u k r) = some r) : chooseRing k u = (some r, u) := by
  unfold chooseRing
  rw [h]

theorem chooseRing_weighted (h : [64, 65, 66, 67].find? (fun r => eligible u k r) = none) (hr : r < 64)
    (he : eligible u k r = true) : chooseRing k u = drr k 1400 u := by
  unfold chooseRing
  rw [h]
  exact if_pos (List.any_eq_true.mpr ⟨r, List.mem_range.mpr hr, he⟩)

theorem chooseRing_none (h : ∀ r, r < 68 → eligible u k r = false) : chooseRing k u = (none, u) := by
  have hstrict : [64, 65, 66, 67].find? (fun r => eligible u k r) = none := by
    simp [h 64, h 65, h 66, h 67]
  have hweighted : ¬ (List.range 64).any (fun r => eligible u k r) = true := by
    simp only [List.any_eq_true, List.mem_range, not_exists, not_and]
    exact fun r hr => by simp [h r (by omega)]
  unfold chooseRing
  rw [hstrict]
  exact if_neg hweighted

/-! ### The head frame of a ring (R142, R220) -/

/-- Its launch lies more than a second after the prologue was read. -/
def launchFar (e : Entry) : Bool :=
  match launchOf e with
  | some l => decide (l > e.proNs + 1000000000)
  | none => false

theorem takeFrame_next (h : nextEntry (ring s k r) = some e) : takeFrame k r s =
    if !bitOf (pwide s (0x030009 + 256 * k) 2) (txPort s k r e) then serve k r (finishTx k r e.pos .barred 0 none s)
    else if launchFar e then serve k r (finishTx k r e.pos .launchRange 0 none s)
    else readBuffer k (modTen k (fun x => { x with staging := x.staging ++ [⟨r, e.pos, txBuffers e, [], false, s.clk⟩] })
      (entrySteps k r e.pos 1 (fun x => { x with stage := .gathering }) (drrPay k r (txLen e) s))) := by
  unfold takeFrame
  rw [h]
  rfl

theorem takeFrame_barred (h : nextEntry (ring s k r) = some e)
    (hb : bitOf (pwide s (0x030009 + 256 * k) 2) (txPort s k r e) = false) :
    takeFrame k r s = serve k r (finishTx k r e.pos .barred 0 none s) :=
  (takeFrame_next h).trans (if_pos (by simp [hb]))

theorem takeFrame_far {l : Nat} (h : nextEntry (ring s k r) = some e)
    (hb : bitOf (pwide s (0x030009 + 256 * k) 2) (txPort s k r e) = true) (hl : launchOf e = some l)
    (hfar : e.proNs + 1000000000 < l) : takeFrame k r s = serve k r (finishTx k r e.pos .launchRange 0 none s) :=
  (takeFrame_next h).trans ((if_neg (by simp [hb])).trans (if_pos (by simp [launchFar, hl, hfar])))

theorem takeFrame_gathers (h : nextEntry (ring s k r) = some e)
    (hb : bitOf (pwide s (0x030009 + 256 * k) 2) (txPort s k r e) = true)
    (hnear : ∀ l, launchOf e = some l → l ≤ e.proNs + 1000000000) :
    takeFrame k r s = readBuffer k (modTen k (fun x => { x with
      staging := x.staging ++ [⟨r, e.pos, txBuffers e, [], false, s.clk⟩] })
      (entrySteps k r e.pos 1 (fun x => { x with stage := .gathering }) (drrPay k r (txLen e) s))) := by
  have hfar : ¬ launchFar e = true := by
    unfold launchFar
    split
    · next l hl => simpa using hnear l hl
    · exact Bool.false_ne_true
  exact (takeFrame_next h).trans ((if_neg (by simp [hb])).trans (if_neg hfar))

/-! ### The buffers of a frame (R211, R219) -/

section
variable {a : Addr} {n : Nat} {rest : List (Addr × Nat)} (hf : (ten s k).staging.find? (fun f => !f.complete) = some f)
  (hbufs : f.bufs = (a, n) :: rest)
include hf hbufs

theorem txBufferReadEnd_failed {h : HostRead} {cpl : Nat}
    (hc : (readOutcome s k 200 h = .ur ∧ cpl = 1) ∨ (readOutcome s k 200 h = .ca ∧ cpl = 4)) :
    txBufferReadEndEffect k h s = tenantFault k 4 f.ring false cpl (a.toNat % 2 ^ 32) (a.toNat / 2 ^ 32) 0
      (readDrop k 200 (replayEnd k f.ring s)) := by
  unfold txBufferReadEndEffect
  rw [hf]
  dsimp only
  rw [hbufs]
  rcases hc with ⟨hc, rfl⟩ | ⟨hc, rfl⟩ <;> dsimp only <;> rw [hc]

theorem txBufferReadTimeout_due (hp : f.readAt + cplTimeout s k ≤ s.clk) (hw : readWaits s k 200 = true) :
    txBufferReadTimeoutEffect k s = tenantFault k 3 f.ring false 0 (a.toNat % 2 ^ 32) (a.toNat / 2 ^ 32) 0
      (readDrop k 200 (perfAdd (0x0A0004 + 256 * k) 1 s)) := by
  unfold txBufferReadTimeoutEffect
  rw [hf]
  dsimp only
  rw [hbufs, hw]
  dsimp only
  rw [waitUntil_past hp]
  exact if_neg (by decide)

/-- The frame a ring gathers, put in the place of its gathering. -/
def gathered (k : Nat) (f g : TxStage) (s : State) : State :=
  modTen k (fun x => { x with staging := x.staging.map fun h => if h.ring = f.ring then g else h }) s

theorem txBufferReadEnd_last {h : HostRead} {host : List Byte} {e' : Entry} (ho : readOutcome s k 200 h = .data host)
    (hrest : rest = [])
    (he : (ring (entrySteps k f.ring f.pos ((n + 63) / 64) id (readServe k a.toNat n 200 host (replayEnd k f.ring s)).2)
      k f.ring).entries.find? (fun e => e.pos == f.pos) = some e') (hp : prologue e' = none) :
    txBufferReadEndEffect k h s = entrySteps k f.ring f.pos 1 (fun e => { e with stage := .staged })
      (recoverFix k f.ring (gathered k f
        { f with bufs := [], bytes := f.bytes ++ (readServe k a.toNat n 200 host (replayEnd k f.ring s)).1, complete := true }
        (entrySteps k f.ring f.pos ((n + 63) / 64) id (readServe k a.toNat n 200 host (replayEnd k f.ring s)).2))) := by
  subst hrest
  unfold txBufferReadEndEffect
  rw [hf]
  dsimp only
  rw [hbufs]
  dsimp only
  rw [ho]
  dsimp only
  rw [he]
  have hbuild : ∀ b v, buildBytes e' b v = (b, v) := fun b v => by
    unfold buildBytes
    rw [hp]
  dsimp only
  rw [hbuild]
  rfl

end

/-- A ring's one entry is found at its position, with the cycles of its steps. -/
theorem find_entrySteps (m : Nat) (hone : (ring s k r).entries = [e]) :
    (ring (entrySteps k r e.pos m id s) k r).entries.find? (fun x => x.pos == e.pos) = some { e with cycles := e.cycles + m } := by
  have hring : (ring (entrySteps k r e.pos m id s) k r).entries
      = (ring (modEntry k r e.pos (fun x => { id x with cycles := x.cycles + m }) s) k r).entries :=
    congrArg Ring.entries (ring_engineSteps ..)
  rw [hring, modEntry, ring_modRing_same, hone]
  simp

/-- A tenant's staging is as it was, wherever its paths are kept. -/
theorem PathsKept.staging (h : PathsKept s t) (i : Nat) : (Machine.ten t i).staging = (Machine.ten s i).staging :=
  (congrArg Tenant.staging (h.ten i) :)

/-- The gathered frame takes the place of its gathering. -/
theorem mem_staging_gathered (g : TxStage) (hf : f ∈ (ten s k).staging) : g ∈ (ten (gathered k f g s) k).staging := by
  rw [gathered, ten_modTen_same]
  exact List.mem_map.mpr ⟨f, hf, if_pos rfl⟩

/-- The last buffer's data makes a whole frame of the gathering. -/
theorem mem_staging_last {m : Nat} {g : TxStage} {v : State} (hv : v.tenants = s.tenants) (hf : f ∈ (ten s k).staging) :
    g ∈ (ten (entrySteps k f.ring f.pos 1 (fun e => { e with stage := .staged }) (recoverFix k f.ring (gathered k f g
      (entrySteps k f.ring f.pos m id v)))) k).staging := by
  have hend : PathsKept (gathered k f g (entrySteps k f.ring f.pos m id v)) (entrySteps k f.ring f.pos 1
      (fun e => { e with stage := .staged }) (recoverFix k f.ring (gathered k f g (entrySteps k f.ring f.pos m id v)))) :=
    .trans (pathsKept_modRing k f.ring _ _) (pathsKept_entrySteps ..)
  rw [hend.staging]
  refine mem_staging_gathered g ?_
  rw [(pathsKept_entrySteps k f.ring f.pos m id v).staging, ten, hv]
  exact hf

/-! ### Admission to the Glade (R139, R143, R198) -/

/-- The frame that a tenant's entry makes in the Glade. -/
def gladeFrame (s : State) (k r : Nat) (e : Entry) (f : TxStage) : GFrame :=
  ⟨txTag s k r e, padded f.bytes, cellsFor (tagLen (txTag s k r e)), [], 1, some k, none, 0⟩

/-- The Glade holds the frame, the staging of its ring is empty and its entry waits for the wire. -/
def inGlade (s : State) (k r : Nat) (e : Entry) (f : TxStage) : State :=
  entrySteps k r e.pos 1 (fun x => { x with stage := .queued })
    (modTen k (fun x => { x with staging := x.staging.filter fun g => g.ring != r }) (takeIn (gladeFrame s k r e f) s))

/-- The bucket of the frame's port pays for it, where the port is shaped. -/
def bucketPaid (s : State) (k r : Nat) (e : Entry) (v : State) : State :=
  if pn s (0x030020 + 256 * k + txPort s k r e) = 0 then v else modTen k (fun x => { x with
    buckets := tput x.buckets (txPort s k r e) (bucketTake (tget (ten s k).buckets (txPort s k r e) {})
      (pn s (0x030020 + 256 * k + txPort s k r e)) (pn s (0x03000B + 256 * k)) s.clk (tagLen (txTag s k r e) + 20)) }) v

/-- Where the frame came from, as its reference bears it. -/
def txOrigin (k r : Nat) (e : Entry) : Origin :=
  let (d0, d1) := match prologue e with
    | some (a, b, _, _) => (a, b)
    | none => (0, 0)
  .tenant k r e.pos (bitOf d0 21) (bits d0 17 2) (bits d1 24 8) (bits d1 12 10)

theorem txGladeAdmission_full (hf : (ten s k).staging.find? (fun f => f.ring == r && f.complete) = some f)
    (he : (ring s k r).entries.find? (fun e => e.stage == .staged) = some e)
    (hbar : fenced s 8 = true ∨ admits s (some k) (cellsFor (tagLen (txTag s k r e))) = false) :
    txGladeAdmissionEffect k r s = s := by
  unfold txGladeAdmissionEffect
  rw [hf, he]
  exact if_pos (by rcases hbar with h | h <;> simp [h])

theorem txGladeAdmission_open (hf : (ten s k).staging.find? (fun f => f.ring == r && f.complete) = some f)
    (he : (ring s k r).entries.find? (fun e => e.stage == .staged) = some e) (hfence : fenced s 8 = false)
    (hadm : admits s (some k) (cellsFor (tagLen (txTag s k r e))) = true)
    (hopen : portOpen (bucketPaid s k r e (inGlade s k r e f)) (txPort s k r e) = true) :
    txGladeAdmissionEffect k r s = enqueue (txPort s k r e) (txClass s k r e)
      ⟨s.nextFrame, txOrigin k r e, launchOf e, f.bytes.length⟩ (bucketPaid s k r e (inGlade s k r e f)) := by
  unfold txGladeAdmissionEffect
  rw [hf, he]
  exact (if_neg (by simp [hfence, hadm])).trans (if_pos hopen)

theorem tget_params_peak {id : Nat} {d : Word} (h : ∀ i, id ≠ 0x030002 + 256 * i) (s : State) :
    tget (peak s).params id d = tget s.params id d := by
  refine forAll_keeps (g := fun v => tget v.params id d) (fun i v _ => ?_) s
  dsimp only
  split
  · exact tget_tput_ne _ _ _ _ _ (h i)
  · rfl

/-- The Glade's intake fences and unfences nothing. -/
theorem fenced_takeIn (g : GFrame) (s : State) (n : Nat) : fenced (takeIn g s) n = fenced s n := by
  have hfences : (takeIn g s).fences = s.fences := (takeIn_ev (m := allBut .fences) (by decide) (.refl s)).kept .fences
  have hself : tget (takeIn g s).params 0xA00001 0 = tget s.params 0xA00001 0 := by
    rw [takeIn]
    simp only [perfAdd_params]
    exact tget_params_peak (by omega) _
  rw [fenced, hfences, hself, fenced]

/-- Of what admission looks at, the frame's entry and bucket are no part. -/
theorem bucketPaid_apart (e : Entry) (v : State) : (bucketPaid s k r e v).ports = v.ports
    ∧ (bucketPaid s k r e v).frames = v.frames ∧ (bucketPaid s k r e v).nextFrame = v.nextFrame
    ∧ (bucketPaid s k r e v).params = v.params ∧ (bucketPaid s k r e v).fences = v.fences
    ∧ (ten (bucketPaid s k r e v) k).staging = (ten v k).staging := by
  unfold bucketPaid
  split
  · exact ⟨rfl, rfl, rfl, rfl, rfl, rfl⟩
  · exact ⟨rfl, rfl, rfl, rfl, rfl, by rw [ten_modTen_same]⟩

/-- What the Glade and its tenant hold after the intake; no port, fence or parameter of a fence is touched. -/
theorem inGlade_apart (s : State) (k r : Nat) (e : Entry) (f : TxStage) : (inGlade s k r e f).ports = s.ports
    ∧ (inGlade s k r e f).frames
        = tput s.frames s.nextFrame { gladeFrame s k r e f with cells := pickCells s (gladeFrame s k r e f).ncells [] }
    ∧ (inGlade s k r e f).nextFrame = s.nextFrame + 1
    ∧ (∀ n, fenced (inGlade s k r e f) n = fenced s n)
    ∧ (ten (inGlade s k r e f) k).staging = (ten s k).staging.filter fun g => g.ring != r := by
  obtain ⟨htenants, hports⟩ := takeIn_kept (s := s) (gladeFrame s k r e f)
  have hsteps : ∀ v, Evolves 0x80500 v (entrySteps k r e.pos 1 (fun x => { x with stage := .queued }) v) := fun v =>
    entrySteps_ev rfl (.refl v)
  rw [← takeIn_frames]
  have hfences := fun n => fenced_takeIn (gladeFrame s k r e f) s n
  have hnext := takeIn_nextFrame (s := s) (gladeFrame s k r e f)
  unfold inGlade
  generalize takeIn (gladeFrame s k r e f) s = v at htenants hports hfences hnext
  have hev := hsteps (modTen k (fun x => { x with staging := x.staging.filter fun g => g.ring != r }) v)
  refine ⟨((hev.frame .ports).resolve_left (by decide)).trans hports, (hev.frame .frames).resolve_left (by decide),
    ((hev.frame .nextFrame).resolve_left (by decide)).trans hnext, fun n => ?_, ?_⟩
  · have hf := (hev.frame .fences).resolve_left (by decide)
    have hp := (hev.frame .params).resolve_left (by decide)
    rw [← hfences n]
    simp only [fenced]
    rw [hf, hp]
    rfl
  · rw [(pathsKept_entrySteps ..).staging, ten_modTen_same, ten, htenants, ten]

theorem queueOf_enqueue (p c : Nat) (i : EgItem) (s : State) : queueOf (enqueue p c i s) p c = queueOf s p c ++ [i] := by
  rw [queueOf, enqueue, setClassQueue, port_modPort_same]
  exact tget_tput_same ..

/-- An open port takes the frame that the Glade has let in. -/
theorem txGladeAdmission_admits (hf : (ten s k).staging.find? (fun f => f.ring == r && f.complete) = some f)
    (he : (ring s k r).entries.find? (fun e => e.stage == .staged) = some e) (hfence : fenced s 8 = false)
    (hadm : admits s (some k) (cellsFor (tagLen (txTag s k r e))) = true) (hopen : portOpen s (txPort s k r e) = true) :
    ∃ t, txGladeAdmissionEffect k r s = t ∧ t.nextFrame = s.nextFrame + 1
      ∧ (frame t s.nextFrame).bytes = padded f.bytes ∧ (frame t s.nextFrame).tag = txTag s k r e
      ∧ (frame t s.nextFrame).charge = some k ∧ (frame t s.nextFrame).refs = 1
      ∧ (∀ g ∈ (ten t k).staging, g.ring ≠ r)
      ∧ ∃ i, queueOf t (txPort s k r e) (txClass s k r e)
            = queueOf s (txPort s k r e) (txClass s k r e) ++ [i] ∧ i.frame = s.nextFrame := by
  obtain ⟨hports, hframes, hnext, hfenced, hstaging⟩ := inGlade_apart s k r e f
  obtain ⟨bports, bframes, bnext, bparams, bfences, bstaging⟩ := bucketPaid_apart (s := s) (k := k) (r := r) e (inGlade s k r e f)
  have hopen' : portOpen (bucketPaid s k r e (inGlade s k r e f)) (txPort s k r e) = true := by
    rw [← hopen, portOpen, portOpen, port_of_ports (bports.trans hports), ← hfenced]
    simp only [fenced]
    rw [bparams, bfences]
  refine ⟨_, txGladeAdmission_open hf he hfence hadm hopen', ?_⟩
  generalize bucketPaid s k r e (inGlade s k r e f) = v at bports bframes bnext bstaging
  have hframe : frame (enqueue (txPort s k r e) (txClass s k r e) ⟨s.nextFrame, txOrigin k r e, launchOf e, f.bytes.length⟩ v)
      s.nextFrame = { gladeFrame s k r e f with cells := pickCells s (gladeFrame s k r e f).ncells [] } := by
    rw [frame, (enqueue_ev (m := allBut .frames) (by decide) (.refl v)).kept .frames, bframes, hframes, tget_tput_same]
  rw [hframe]
  refine ⟨(bnext.trans hnext :), rfl, rfl, rfl, rfl, fun g hg => ?_,
    ⟨s.nextFrame, txOrigin k r e, launchOf e, f.bytes.length⟩, ?_, rfl⟩
  · have hg' : g ∈ (ten v k).staging := hg
    rw [bstaging, hstaging] at hg'
    simpa using (List.mem_filter.mp hg').2
  · rw [queueOf_enqueue, queueOf, queueOf, port_of_ports (bports.trans hports)]

/-! ### O23 -/

/-- Settles O23: a served ring keeps its staging (`PathsKept`), and the Glade takes the frame before its entry and bucket
change (`inGlade`). -/
theorem transmitFramesAreGatheredAndAdmitted : Obligations.TransmitFramesAreGatheredAndAdmitted := by
  unfold Obligations.TransmitFramesAreGatheredAndAdmitted
  refine ⟨fun s u k ht hu hg hs => ⟨fun r hr => ?_, fun r r' v h0 hr he hd => ?_, fun hn => ?_⟩,
    fun s k r e h => ⟨takeFrame_barred h, fun l hb hl hfar => takeFrame_far h hb hl hfar, takeFrame_gathers h⟩,
    fun s k f a n rest ht hf hb u hu => ?_, fun s k r f e ht hf he => ⟨fun hbar => ?_, fun hfence hadm hopen => ?_⟩⟩
  · exact (live_next s (txScheduleEffect k) ht).trans (congrArg _ (txSchedule_free hu hg hs (chooseRing_strict hr)))
  · exact (live_next s (txScheduleEffect k) ht).trans
      (congrArg _ (txSchedule_free hu hg hs ((chooseRing_weighted h0 hr he).trans hd)))
  · exact (live_next s (txScheduleEffect k) ht).trans (congrArg _ (txSchedule_free hu hg hs (chooseRing_none hn)))
  · subst hu
    refine ⟨fun h cpl hc => ?_, fun hp hw => ?_, fun h host e ho hrest hone hpos hpro => ?_⟩
    · exact (live_next s (txBufferReadEndEffect k h) ht).trans (congrArg _ (txBufferReadEnd_failed hf hb hc))
    · exact (live_next s (txBufferReadTimeoutEffect k) ht).trans (congrArg _ (txBufferReadTimeout_due hf hb hp hw))
    · have htenants : (readServe k a.toNat n 200 host (replayEnd k f.ring s)).2.tenants = s.tenants :=
        ((readServe_ev (by decide) (.refl _)).kept .tenants).trans ((replayEnd_ev (by decide) (.refl s)).kept .tenants)
      have hfind := find_entrySteps (s := (readServe k a.toNat n 200 host (replayEnd k f.ring s)).2) (k := k) (r := f.ring)
        ((n + 63) / 64) ((congrArg Ring.entries (ring_of_tenants htenants k f.ring)).trans hone)
      rw [hpos] at hfind
      exact ⟨_, (live_next s (txBufferReadEndEffect k h) ht).trans (congrArg _ (txBufferReadEnd_last hf hb ho hrest hfind hpro)),
        mem_staging_last htenants (List.mem_of_find?_eq_some hf)⟩
  · exact (live_next s (txGladeAdmissionEffect k r) ht).trans (congrArg _ (txGladeAdmission_full hf he hbar))
  · obtain ⟨t, heff, h⟩ := txGladeAdmission_admits hf he hfence hadm hopen
    exact ⟨t, (live_next s (txGladeAdmissionEffect k r) ht).trans (congrArg _ heff), h⟩

end Sys2Proof.Machine
end

section
/-! PROOFS. What of the ports a served ring and passing time leave: flow control, the egress queues and the gates change
alone (chapters 6, 8 and 10). -/

namespace Sys2Proof.Machine

open Host

variable {s t u : State} {p : Nat} {α : Type} {g : Port → α}

/-- A change of other parts than the ports. -/
theorem PortsKeep.of_evolves {m : Nat} (h : Evolves m s t) (h14 : m.testBit 14 = false := by decide) : PortsKeep g s t :=
  .of_ports ((h.frame .ports).resolve_left (ne_true_of_eq_false h14))

/-! ### Rings that are served (R147, R178, R202) -/

theorem portsKeep_ite_apply {c : Prop} [Decidable c] {f : State → State} (hf : ∀ v, PortsKeep g v (f v)) (v : State) :
    PortsKeep g v (if c then f v else v) := .ite (hf v) (.refl v)

section
variable (hf : FlowFree g) (he : EgressFree g)
include hf he

theorem portsKeep_flushStart (k r : Nat) (s : State) : PortsKeep g s (flushStart k r s) := by
  have hfetched : ∀ v, PortsKeep g v (dropFetched k r v) := fun v => .of_evolves (m := 0x480500) (dropFetched_ev rfl (.refl v))
  have hfix : ∀ v, PortsKeep g v (recoverFix k r v) := fun v => portsKeep_modRing k r _ v
  have hstaged : ∀ (x : TxStage) v, PortsKeep g v (finishTx k r x.pos .flushed 0 none (readDrop k 200 v)) := fun x v =>
    .of_ports ((finishTx_ev (m := allBut .ports) (by decide) (readDrop_ev (by decide) (.refl v))).kept .ports)
  have hqueued : ∀ v, PortsKeep g v (dropQueued k r .flushed v) := fun v =>
    (portsKeep_dropItems hf he _ v).trans (.forEach (fun (i : EgItem) w => .of_ports (ports_finishOrigin i.origin ..)) _ _)
  have hdrain : ∀ v, PortsKeep g v (drain k r true v) := fun v => .of_evolves (m := 0x480d00) (drain_ev rfl (.refl v))
  have hten : ∀ f v, PortsKeep g v (modTen k f v) := fun _ _ => .of_ports rfl
  unfold flushStart
  dsimp only
  refine .trans (.trans (.trans ?_ (hqueued _)) (portsKeep_dropRefs hf k r _)) (hdrain _)
  refine .trans (.trans ?_ (hfix _)) (.forEach hstaged _ _)
  exact .trans (.trans (portsKeep_modRing k r _ s) (hfetched _)) (hten _ _)

theorem portsKeep_flushNow (k r : Nat) (s : State) : PortsKeep g s (flushNow k r s) :=
  (portsKeep_flushStart hf he k r s).trans (.of_ports ((flushEnd_ev (m := allBut .ports) (by decide) (.refl _)).kept .ports))

theorem portsKeep_faultActions (k : Nat) (s : State) : PortsKeep g s (faultActions k s) := by
  have hbreak : ∀ v, PortsKeep g v (breakLocks (k + 1) v) := fun v => .of_evolves (m := 0x300) (breakLocks_ev rfl (.refl v))
  have hpair : ∀ v, PortsKeep g v (faultPair k v) := fun v => .of_evolves (m := 0x180100) (faultPair_ev rfl (.refl v))
  have hstop : ∀ v, PortsKeep g v (stoppedCheck k v) := fun v => .of_evolves (m := 0x400) (stoppedCheck_ev rfl (.refl v))
  have hflush : ∀ r v, PortsKeep g v (if (ring v k r).flush then v else flushNow k r v) := fun r v =>
    .ite (.refl v) (portsKeep_flushNow hf he k r v)
  have hten : ∀ f v, PortsKeep g v (modTen k f v) := fun _ _ => .of_ports rfl
  unfold faultActions
  exact .trans (.trans (.trans (.trans (hten _ s) (hbreak _)) (.forAll hflush _ _)) (hpair _)) (hstop _)

theorem portsKeep_tenantFault (k bit ringNo : Nat) (rx : Bool) (cpl arg0 arg1 info : Nat) (s : State) :
    PortsKeep g s (tenantFault k bit ringNo rx cpl arg0 arg1 info s) := by
  have hlog : ∀ c a i v, PortsKeep g v (logFault 1 c k a i 0 false v) := fun c a i v =>
    .of_evolves (m := 0x4000100) (logFault_ev rfl (.refl v))
  have hten : ∀ f v, PortsKeep g s v → PortsKeep g s (modTen k f v) := fun f v h => h.trans (.of_ports rfl)
  have hlogged : ∀ f a i, PortsKeep g s (logFault 1 bit k a i 0 false (modTen k f s)) := fun f a i =>
    (hten f s (.refl s)).trans (hlog _ _ _ _)
  have hpush : ∀ r v, PortsKeep g v (pushStart k r v) := fun r v =>
    .of_ports ((pushStart_ev (m := allBut .ports) (by decide) (.refl v)).kept .ports)
  have hraise : ∀ w n v, PortsKeep g v (raise w n v) := fun w n v => .of_ports (ports_raise w n v)
  unfold tenantFault
  refine .trans ?_ (portsKeep_ite_apply (portsKeep_faultActions hf he k) _)
  refine .trans ?_ (portsKeep_ite_apply (hraise 0 (3 + k)) _)
  refine .trans ?_ (portsKeep_ite_apply (hraise (k + 1) 4) _)
  refine .trans ?_ (hraise (k + 1) 1 _)
  refine .ite (hten _ _ (hlogged _ _ _)) (.ite (hten _ _ (hten _ _ (hlogged _ _ _))) ?_)
  exact .trans (hten _ _ (hlogged _ _ _)) (hpush _ _)

omit hf he in
theorem portsKeep_left_ite {c : Prop} [Decidable c] {a b : ParseStep} (ha : PortsKeep g s a.left)
    (hb : PortsKeep g s b.left) : PortsKeep g s (if c then a else b).left := by
  split
  · exact ha
  · exact hb

theorem portsKeep_parseOne (k r : Nat) (s : State) : PortsKeep g s (parseOne k r s).left := by
  have hdrop : ∀ n lo hi, PortsKeep g s (dropSlots k r n lo hi s) := fun _ _ _ =>
    .of_evolves (m := 0x80500) (dropSlots_ev rfl (.refl s))
  have hzero : PortsKeep g s (ownZero k r s) := .of_evolves (m := 0x80500) (ownZero_ev rfl (.refl s))
  have hfault : ∀ v lap, PortsKeep g s (tenantFault k 6 (if isRx r then r - 68 else r) (isRx r) 0 lap v 0 s) := fun v lap =>
    portsKeep_tenantFault hf he k 6 _ _ _ _ _ _ s
  unfold parseOne
  dsimp only
  split
  · exact .refl s
  · refine portsKeep_left_ite (.refl s) (portsKeep_left_ite (portsKeep_left_ite (hdrop _ _ _) hzero)
      (portsKeep_left_ite (.refl s) (portsKeep_left_ite (hfault _ _) (portsKeep_left_ite (hfault _ _)
      (portsKeep_left_ite (.refl s) (portsKeep_left_ite (hdrop _ _ _) (portsKeep_left_ite (.refl s) ?_)))))))
    split
    · exact hfault _ _
    · exact .of_evolves (m := 0x80500) (takeEntry_ev rfl (.refl s))

theorem portsKeep_parseLoop (k r n : Nat) (s : State) : PortsKeep g s (parseLoop k r n s) := by
  induction n generalizing s with
  | zero => exact .refl s
  | succ n ih =>
    have hone := portsKeep_parseOne hf he k r s
    unfold parseLoop
    split <;> rename_i heq <;> rw [heq] at hone
    · exact hone
    · exact hone.trans (ih _)

theorem portsKeep_serve (k r : Nat) (s : State) : PortsKeep g s (serve k r s) :=
  ((portsKeep_parseLoop hf he k r _ s).trans (.of_evolves (m := 0x480d00) (drain_ev rfl (.refl _)))).trans
    (.of_evolves (m := 0x780d00) (fetchNext_ev rfl (.refl _)))

end

/-! ### Time that passes (R317, R319) -/

/-- A reading that the gates do not change. -/
def GateFree (g : Port → α) : Prop := ∀ (x : Port) y, g { x with gate := y } = g x

section
variable (hg : GateFree g)
include hg

theorem portsKeep_gateCatchUp (s : State) : PortsKeep g s (gateCatchUp s) := by
  refine .forAll (fun i v => ?_) 32 s
  split
  · exact .ite (.trans (.modPort (hg (port v i) _)) (.of_ports (ports_raise 0 19 _))) (.refl v)
  · exact .refl v

/-- The clocks, counters and islands of a span of ticks. -/
def ticked (n : Nat) (s : State) : State :=
  let s2 := droopTicks (s.time.fixed % 500000) n (perfTicks n (timeTicks n { s with clk := s.clk + n }))
  if countsEngine s2 then forAll 4 (engineTicks n) s2 else s2

omit hg in
theorem wait_eq (n : Nat) (s : State) : wait n s = if n = 0 ∨ !s.time.pll then { s with clk := s.clk + n }
    else if (ticked n s).ports.any (fun e => e.2.gate.swapAt.isSome) then gateCatchUp (ticked n s) else ticked n s := rfl

omit hg in
theorem ports_ticked (n : Nat) (s : State) : (ticked n s).ports = s.ports := by
  have hclk : Evolves (allBut .ports) s { s with clk := s.clk + n } := .set_clk (by decide) (.refl s)
  have hdroop := droopTicks_ev (f := s.time.fixed % 500000) (n := n) (by decide)
    (perfTicks_ev (n := n) (by decide) (timeTicks_ev (n := n) (by decide) hclk))
  unfold ticked
  dsimp only
  split
  · exact (forAll_ev 4 (engineTicks n) (fun _ _ h => engineTicks_ev (by decide) h) hdroop).kept .ports
  · exact hdroop.kept .ports

theorem portsKeep_wait (n : Nat) (s : State) : PortsKeep g s (wait n s) := by
  rw [wait_eq]
  exact .ite (.of_ports rfl) (.trans (.of_ports (ports_ticked n s)) (portsKeep_ite_apply (portsKeep_gateCatchUp hg) _))

theorem portsKeep_waitUntil (n : Nat) (s : State) : PortsKeep g s (waitUntil n s) := portsKeep_wait hg _ s

theorem portsKeep_waitDev (n : Nat) (s : State) : PortsKeep g s (waitDev n s) := by
  unfold waitDev
  dsimp only
  have hslew : ∀ c : Bool, PortsKeep g s (if c then wait (slewLeft s) s else s) := fun c =>
    .ite (portsKeep_wait hg _ s) (.refl s)
  exact .ite (hslew _) ((hslew _).trans (portsKeep_wait hg _ _))

end

end Sys2Proof.Machine
end

section
/-! PROOFS. O32: the egress copies, starts and ends frames (chapters 7, 10 and 16). -/

namespace Sys2Proof.Machine

open Host

variable {s t u v : State} {p c : Nat} {i : EgItem} {rest : List EgItem} {f : Staged}

/-! ### Tags (R10) -/

theorem egressTag_relay (w0 : Word) (tag : List Word) : (egressTag .relay (w0 :: tag)).drop 1 = tag
    ∧ bits ((egressTag .relay (w0 :: tag)).getD 0 0).toNat 21 3 = 2
    ∧ ((egressTag .relay (w0 :: tag)).getD 0 0).toNat % 2 ^ 21 = w0.toNat % 2 ^ 21 := by
  have htag : egressTag .relay (w0 :: tag) = word (putBits w0.toNat 21 3 2) :: tag := rfl
  have hlow : bits (putBits w0.toNat 21 3 2) 0 21 = bits w0.toNat 0 21 := bits_putBits_disjoint (.inl (by decide))
  have hkind : bits (putBits w0.toNat 21 3 2) 21 3 = 2 := bits_putBits_same (by decide)
  have hword : (word (putBits w0.toNat 21 3 2)).toNat = putBits w0.toNat 21 3 2 % 2 ^ 24 := by simp [word]
  rw [htag]
  refine ⟨rfl, ?_, ?_⟩
  · rw [List.getD_cons_zero, hword]
    simp only [bits] at hkind ⊢
    omega
  · rw [List.getD_cons_zero, hword]
    simp only [bits] at hlow
    omega

/-! ### A due head is copied into the stage (R15, R321, R324) -/

/-- The head of a class is due. -/
def headDue (s : State) (p c : Nat) : Bool :=
  match queueOf s p c with
  | i :: _ => due s p c i
  | [] => false

/-- The highest class whose head is due. -/
def dueClass (s : State) (p : Nat) : Option Nat := [7, 6, 5, 4, 3, 2, 1, 0].find? fun c => headDue s p c

/-- A launch time has passed. -/
def launchLate (s : State) (o : Option Nat) : Bool :=
  match o with
  | some l => decide (l * 65536 < s.time.dev)
  | none => false

/-- The frame of a reference as the stage holds it. -/
def stagedOf (s : State) (c : Nat) (i : EgItem) : Staged :=
  { cls := c, origin := i.origin, launch := i.launch, supplied := i.supplied, bytes := (frame s i.frame).bytes,
    tag := egressTag i.origin (frame s i.frame).tag }

/-- A staged frame's entry is in the egress. -/
def entryStaged (o : Origin) (s : State) : State :=
  match o with
  | .tenant t r pos _ _ _ _ => modEntry t r pos (fun e => { e with stage := .egress }) s
  | _ => s

theorem egressCopy_closed (h : 2 ≤ (port s p).stage.length ∨ 2 ≤ s.pair.role) : egressCopyEffect p .none s = s := if_pos h

section
variable (hr : s.pair.role < 2) (hl : (port s p).stage.length < 2) (hc : dueClass s p = some c) (hq : queueOf s p c = i :: rest)
include hr hl hc hq

theorem egressCopy_due : egressCopyEffect p .none s =
    if launchLate s i.launch then finishOrigin i.origin .launchMissed 0 none (release i.frame (setClassQueue p c rest s))
    else entryStaged i.origin (modPort p (fun x => { x with stage := x.stage ++ [stagedOf s c i] })
      (release i.frame (setClassQueue p c rest s))) := by
  unfold egressCopyEffect
  refine (if_neg (by omega)).trans ?_
  split
  · next h => exact nomatch (h.symm.trans hc)
  · next c' h =>
    obtain rfl : c' = c := Option.some.inj (h.symm.trans hc)
    rw [hq]
    rfl

theorem egressCopy_late {l : Nat} (hi : i.launch = some l) (hlate : l * 65536 < s.time.dev) :
    egressCopyEffect p .none s
      = finishOrigin i.origin .launchMissed 0 none (release i.frame (setClassQueue p c rest s)) :=
  (egressCopy_due hr hl hc hq).trans (if_pos (by simp [launchLate, hi, hlate]))

theorem egressCopy_stages (hi : ∀ l, i.launch = some l → s.time.dev ≤ l * 65536) :
    ∃ t, egressCopyEffect p .none s = t ∧ (port t p).stage = (port s p).stage ++ [stagedOf s c i] ∧ queueOf t p c = rest := by
  have hlate : ¬ launchLate s i.launch = true := by
    unfold launchLate
    split
    · next l h => simpa using hi l h
    · exact Bool.false_ne_true
  refine ⟨_, (egressCopy_due hr hl hc hq).trans (if_neg hlate), ?_⟩
  have hstaged : ∀ o v, (entryStaged o v).ports = v.ports := fun o v => by
    unfold entryStaged
    split <;> rfl
  have hkept := portsKeep_release (g := fun x : Port => (x.stage, x.queues)) (fun _ _ _ => rfl) i.frame (setClassQueue p c rest s) p
  rw [queueOf, port_of_ports (hstaged ..), port_modPort_same]
  generalize release i.frame (setClassQueue p c rest s) = v at hkept
  obtain ⟨hstage, hqueues⟩ := Prod.mk.inj hkept
  rw [setClassQueue, port_modPort_same] at hstage hqueues
  refine ⟨by rw [hstage], ?_⟩
  rw [hqueues]
  exact tget_tput_same ..

end

/-! ### A staged frame starts (R247, R322, R323) -/

/-- A port but for its gate. -/
def ungated (x : Port) : Port := { x with gate := {} }

theorem gateFree_ungated : GateFree ungated := fun _ _ => rfl

/-- The port, seen at a later instant, is the one it was but for its gate. -/
def SamePort (p : Nat) (s u : State) : Prop := ungated (port u p) = ungated (port s p)

theorem SamePort.stage (h : SamePort p s u) : (port u p).stage = (port s p).stage := (congrArg Port.stage h :)

theorem SamePort.speed (h : SamePort p s u) : (port u p).speed = (port s p).speed := (congrArg Port.speed h :)

theorem samePort_waitUntil (n : Nat) (s : State) : SamePort p s (waitUntil n s) :=
  portsKeep_waitUntil gateFree_ungated n s p

theorem samePort_waitDev (n : Nat) (s : State) : SamePort p s (waitDev n s) := portsKeep_waitDev gateFree_ungated n s p

theorem startGrain_pos (n : Nat) : 0 < startGrain n := by
  unfold startGrain
  split <;> decide

/-- The entry of a frame that has started. -/
def entryOnWire (o : Origin) (s : State) : State :=
  match o with
  | .tenant t r pos _ _ _ _ => modEntry t r pos (fun e => { e with stage := .wire }) s
  | _ => s

theorem port_entryOnWire (o : Origin) (s : State) : port (entryOnWire o s) p = port s p := by
  unfold entryOnWire
  split <;> rfl

/-- The frame that a start puts on the wire. -/
def startedFrame (p : Nat) (f : Staged) (base : Nat) (s : State) : Staged :=
  onWire s p f (s.clk * 131072 + freeNat s % startGrain (port s p).speed - (s.time.dev - base))

theorem startFrame_eq (p : Nat) (f : Staged) (base : Nat) (s : State) : startFrame p f base s = entryOnWire f.origin
    (modPort p (fun x => { x with stage := x.stage.erase f, wire := some (startedFrame p f base s) }) (drawn s)) := rfl

/-- A frame starts on a wire, somewhere within G of its base instant. -/
theorem port_startFrame (p : Nat) (f : Staged) (base : Nat) (s : State) : ∃ delta, delta < startGrain (port s p).speed
    ∧ port (startFrame p f base s) p = { port s p with
        stage := (port s p).stage.erase f, wire := some (onWire s p f (s.clk * 131072 + delta - (s.time.dev - base))) } := by
  refine ⟨freeNat s % startGrain (port s p).speed, Nat.mod_lt _ (startGrain_pos _), ?_⟩
  rw [startFrame_eq, port_entryOnWire, port_modPort_same]
  rfl

/-- The frame that starts, and what its port is left with. -/
def Started (s u : State) (p : Nat) (f : Staged) (lo : Nat) (t : State) : Prop :=
  ∃ w, (port t p).wire = some w ∧ (port t p).stage = (port s p).stage.erase f ∧ w.cls = f.cls ∧ w.origin = f.origin
    ∧ w.bytes = f.bytes ∧ w.clkAt = u.clk ∧ w.speed = (port s p).speed ∧ lo ≤ w.startAt
    ∧ w.startAt < lo + startGrain (port s p).speed

/-- A frame read from the stage starts at the present instant, or as much earlier as its base was passed by. -/
theorem started_readStaged {base : Nat} (hp : SamePort p s u) : Started s u p f (u.clk * 131072 - (u.time.dev - base))
    (readStaged p f base .none u) := by
  obtain ⟨delta, hdelta, hport⟩ := port_startFrame p f base u
  have hread : readStaged p f base .none u = startFrame p f base u := if_neg nofun
  rw [hread]
  generalize startFrame p f base u = t at hport
  refine ⟨onWire u p f (u.clk * 131072 + delta - (u.time.dev - base)), by rw [hport],
    by rw [hport, ← hp.stage], rfl, rfl, rfl, rfl, hp.speed, ?_, ?_⟩
  · change u.clk * 131072 - (u.time.dev - base) ≤ u.clk * 131072 + delta - (u.time.dev - base)
    omega
  · change u.clk * 131072 + delta - (u.time.dev - base) < u.clk * 131072 - (u.time.dev - base) + _
    rw [← hp.speed]
    omega

/-- The launch times that staged frames wait for, on an idle wire. -/
def launchesAhead (s : State) (p : Nat) : List Nat :=
  if (port s p).wire.isSome then [] else (port s p).stage.filterMap fun f => if launched s f then none else f.launch

theorem launchIdle_eq (hw : (port s p).wire = none) (hb : (port s p).stage ≠ [] ∨ (port s p).held ≠ none)
    (hu : u = waitUntil (port s p).freeAt s) : launchIdle p .none s =
    match pickStaged u p with
    | some f => readStaged p f u.time.dev .none u
    | none => match launchesAhead (resumeHeld p u) p with
      | [] => resumeHeld p u
      | l :: ls => match pickStaged (waitDev ((ls.foldl min l) * 65536) (resumeHeld p u)) p with
        | some f => readStaged p f (if f.launch.isSome
            then min ((ls.foldl min l) * 65536) (waitDev ((ls.foldl min l) * 65536) (resumeHeld p u)).time.dev
            else (waitDev ((ls.foldl min l) * 65536) (resumeHeld p u)).time.dev) .none
            (waitDev ((ls.foldl min l) * 65536) (resumeHeld p u))
        | none => waitDev ((ls.foldl min l) * 65536) (resumeHeld p u) := by
  have hbusy : ¬ ((port s p).wire.isSome = true ∨ ((port s p).stage = [] ∧ (port s p).held.isNone = true)) := by
    rw [hw]
    rcases hb with hb | hb <;> simp [hb]
  subst hu
  unfold launchIdle
  exact if_neg hbusy

theorem pickStaged_mem (h : pickStaged u p = some f) : f ∈ (port u p).stage := by
  unfold pickStaged at h
  obtain ⟨c, -, hc⟩ := List.exists_of_findSome?_eq_some h
  split at hc
  · next g hg =>
    split at hc
    · cases hc
      exact List.mem_of_find?_eq_some hg
    · exact nomatch hc
  · exact nomatch hc

theorem egressLaunch_idle (hw : (port s p).wire = none) (hl : (port s p).link = true) (hs : s.safety.safe = false)
    (hr : s.pair.role < 2) : egressLaunchEffect p .none s = launchIdle p .none s := by
  unfold egressLaunchEffect
  refine (if_neg ?_).trans ?_
  · simp only [hl, hs, Bool.not_true, Bool.false_eq_true, false_or, not_le]
    exact hr
  · rw [hw]

section
variable (hw : (port s p).wire = none)
include hw

theorem launchIdle_starts (hu : u = waitUntil (port s p).freeAt s) (hf : pickStaged u p = some f) :
    Started s u p f (u.clk * 131072) (launchIdle p .none s) := by
  have hsame : SamePort p s u := hu ▸ samePort_waitUntil _ s
  have hbusy : (port s p).stage ≠ [] := by
    rw [← hsame.stage]
    exact List.ne_nil_of_mem (pickStaged_mem hf)
  have hstart := started_readStaged (f := f) (base := u.time.dev) hsame
  rw [Nat.sub_self, Nat.sub_zero] at hstart
  rw [launchIdle_eq hw (.inl hbusy) hu, hf]
  exact hstart

variable (hfree : (port s p).freeAt ≤ s.clk) (hpick : pickStaged s p = none)
include hfree hpick

/-- No frame can start now. -/
theorem launchIdle_none (hb : (port s p).stage ≠ [] ∨ (port s p).held ≠ none) : launchIdle p .none s =
    match launchesAhead (resumeHeld p s) p with
    | [] => resumeHeld p s
    | l :: ls => match pickStaged (waitDev ((ls.foldl min l) * 65536) (resumeHeld p s)) p with
      | some f => readStaged p f (if f.launch.isSome
          then min ((ls.foldl min l) * 65536) (waitDev ((ls.foldl min l) * 65536) (resumeHeld p s)).time.dev
          else (waitDev ((ls.foldl min l) * 65536) (resumeHeld p s)).time.dev) .none
          (waitDev ((ls.foldl min l) * 65536) (resumeHeld p s))
      | none => waitDev ((ls.foldl min l) * 65536) (resumeHeld p s) := by
  rw [launchIdle_eq hw hb (waitUntil_past hfree).symm, hpick]

omit hfree hpick in
theorem resumeHeld_none (hh : (port s p).held = none) : resumeHeld p s = s := by
  unfold resumeHeld
  dsimp only
  rw [hw, hh]

theorem launchIdle_rests (hh : (port s p).held = none) (hall : ∀ f ∈ (port s p).stage, launched s f = true) :
    launchIdle p .none s = s := by
  by_cases hst : (port s p).stage = []
  · exact if_pos (.inr ⟨hst, by rw [hh]; rfl⟩)
  · have hahead : launchesAhead s p = [] := by
      unfold launchesAhead
      split
      · rfl
      · exact List.filterMap_eq_nil_iff.mpr fun f hf => if_pos (hall f hf)
    rw [launchIdle_none hw hfree hpick (.inl hst), resumeHeld_none hw hh, hahead]

/-- The one staged frame waits for its launch time. -/
theorem launchIdle_waits {l : Nat} (hh : (port s p).held = none) (hst : (port s p).stage = [f]) (hl : f.launch = some l)
    (hnot : launched s f = false) (hv : v = waitDev (l * 65536) s) (hf : pickStaged v p = some f) :
    Started s v p f (v.clk * 131072 - (v.time.dev - l * 65536)) (launchIdle p .none s) := by
  have hsame : SamePort p s v := hv ▸ samePort_waitDev _ s
  have hahead : launchesAhead s p = [l] := by
    unfold launchesAhead
    rw [hw, hst]
    simp [hnot, hl]
  have hbase : v.time.dev - min (l * 65536) v.time.dev = v.time.dev - l * 65536 := by omega
  have hstart := started_readStaged (f := f) (base := min (l * 65536) v.time.dev) hsame
  rw [hbase] at hstart
  have heff : launchIdle p .none s = readStaged p f (min (l * 65536) v.time.dev) .none v := by
    rw [launchIdle_none hw hfree hpick (.inl (by rw [hst]; exact List.cons_ne_nil _ _)), resumeHeld_none hw hh, hahead]
    dsimp only [List.foldl_nil]
    rw [← hv, hf]
    exact congrArg (readStaged p f · .none v) (if_pos (by rw [hl]; rfl))
  rw [heff]
  exact hstart

/-- The preempted frame resumes. -/
theorem launchIdle_resumes {h : Staged} (hh : (port s p).held = some h) (hg : gateOpen s p h.cls = true)
    (hold : (port s p).gate.hold = false) : launchIdle p .none s
      = modPort p (fun x => { x with wire := some { h with clkAt := max s.clk x.freeAt }, held := none }) s := by
  have hresume : resumeHeld p s
      = modPort p (fun x => { x with wire := some { h with clkAt := max s.clk x.freeAt }, held := none }) s := by
    unfold resumeHeld
    dsimp only
    rw [hw, hh]
    exact if_pos (by simp [hg, hold, hpick])
  rw [launchIdle_none hw hfree hpick (.inr (by rw [hh]; exact Option.some_ne_none h)), hresume]
  have hahead : launchesAhead (modPort p (fun x => { x with wire := some { h with clkAt := max s.clk x.freeAt }, held := none }) s) p
      = [] := if_pos (by rw [port_modPort_same]; rfl)
  rw [hahead]

end

/-! ### The last bit of a frame (R224, R247, R270) -/

/-- What of a port the wire side alone changes. -/
def wireSide (x : Port) : Option Staged × Option Staged × List (List Byte) × Nat := (x.wire, x.held, x.sent, x.freeAt)

/-- The wire is idle from its frame's last bit on. -/
def wireEnded (p : Nat) (f : Staged) (s : State) : State :=
  modPort p (fun x => { x with wire := none, freeAt := s.clk + byteTicks f.speed 12 }) s

/-- The frame counts, and its entry and ring see its end. -/
def frameCounted (p : Nat) (f : Staged) (s : State) : State :=
  let s2 := bwCount p true f.bytes.length (countPort p 17 f.bytes.length (countPort p 16 1 (wireEnded p f s)))
  let s3 := perfAdd (0x020004 + 256 * p) f.bytes.length (perfAdd (0x020003 + 256 * p) 1 s2)
  if f.fragments > 0 then countPort p 22 1 s3 else s3

/-- A ring that has sent a frame is looked at again. -/
def ringServed (o : Origin) (s : State) : State :=
  match o with
  | .tenant t r _ _ _ _ _ => serve t r s
  | _ => s

theorem txEnd_due (hw : (port s p).wire = some f) (hend : wireEnd f ≤ s.clk) : txEnd p s = resumeHeld p
    (ringServed f.origin (finishOrigin f.origin .sent f.bytes.length (some (egressTime s f / 65536)) (frameCounted p f s))) := by
  unfold txEnd
  rw [hw]
  dsimp only
  rw [waitUntil_past hend]
  rfl

theorem frameCounted_ev (p : Nat) (f : Staged) (s : State) : Evolves 0x80100 (wireEnded p f s) (frameCounted p f s) := by
  have hport : Evolves 0x80100 (wireEnded p f s) (countPort p 17 f.bytes.length (countPort p 16 1 (wireEnded p f s))) :=
    countPort_ev rfl (countPort_ev rfl (.refl _))
  have hperf : Evolves 0x80100 (wireEnded p f s) (perfAdd (0x020004 + 256 * p) f.bytes.length (perfAdd (0x020003 + 256 * p) 1
      (bwCount p true f.bytes.length (countPort p 17 f.bytes.length (countPort p 16 1 (wireEnded p f s)))))) :=
    perfAdd_ev rfl (perfAdd_ev rfl (bwCount_ev rfl hport))
  unfold frameCounted
  exact .ite (countPort_ev rfl hperf) hperf

theorem ringServed_params (o : Origin) (s : State) : (ringServed o s).params = s.params := by
  unfold ringServed
  split
  · exact (serve_ev (by decide) (.refl s)).kept .params
  · rfl

theorem ringServed_clk (o : Origin) (s : State) : (ringServed o s).clk = s.clk := by
  unfold ringServed
  split
  · exact (serve_ev (by decide) (.refl s)).kept .clk
  · rfl

/-- The frame's end leaves its port idle for 12 byte times, and nothing else of its wire changes. -/
theorem txEnd_idle (hw : (port s p).wire = some f) (hh : (port s p).held = none) (hend : wireEnd f ≤ s.clk) :
    wireSide (port (txEnd p s) p) = (none, none, (port s p).sent, s.clk + byteTicks f.speed 12)
      ∧ (txEnd p s).params = s.params ∧ (txEnd p s).clk = s.clk := by
  rw [txEnd_due hw hend]
  have hcounted := frameCounted_ev p f s
  have hports : (finishOrigin f.origin .sent f.bytes.length (some (egressTime s f / 65536)) (frameCounted p f s)).ports
      = (wireEnded p f s).ports :=
    (ports_finishOrigin ..).trans ((hcounted.frame .ports).resolve_left (by decide))
  have hparams : (finishOrigin f.origin .sent f.bytes.length (some (egressTime s f / 65536)) (frameCounted p f s)).params
      = s.params :=
    ((finishOrigin_ev (by decide) (.refl _)).kept .params).trans ((hcounted.frame .params).resolve_left (by decide))
  have hclk : (finishOrigin f.origin .sent f.bytes.length (some (egressTime s f / 65536)) (frameCounted p f s)).clk = s.clk :=
    ((finishOrigin_ev (by decide) (.refl _)).kept .clk).trans ((hcounted.frame .clk).resolve_left (by decide))
  generalize finishOrigin f.origin .sent f.bytes.length (some (egressTime s f / 65536)) (frameCounted p f s) = v
    at hports hparams hclk
  have hserved : PortsKeep wireSide v (ringServed f.origin v) := by
    unfold ringServed
    split
    · exact portsKeep_serve (fun _ _ _ => rfl) (fun _ _ _ => rfl) _ _ v
    · exact .refl v
  have hside : wireSide (port (ringServed f.origin v) p) = (none, none, (port s p).sent, s.clk + byteTicks f.speed 12) := by
    rw [hserved p, port_of_ports hports, wireEnded, port_modPort_same, ← hh]
    rfl
  have hidle : resumeHeld p (ringServed f.origin v) = ringServed f.origin v := by
    obtain ⟨hwire, hheld, -⟩ := Prod.mk.inj hside |>.imp_right Prod.mk.inj
    exact resumeHeld_none hwire hheld
  rw [hidle]
  exact ⟨hside, (ringServed_params ..).trans hparams, (ringServed_clk ..).trans hclk⟩

theorem txFrameEnd_sent (hw : (port s p).wire = some f) (hh : (port s p).held = none) (hloop : loopback s p = 0)
    (hend : wireEnd f ≤ s.clk) : ∃ t, txFrameEndEffect p s = t ∧ (port t p).wire = none
      ∧ (port t p).sent = (port s p).sent ++ [oneStep f (egressTime s f)] ∧ t.clk = s.clk
      ∧ (port t p).freeAt = s.clk + byteTicks f.speed 12 := by
  obtain ⟨hside, hparams, hclk⟩ := txEnd_idle hw hh hend
  have heff : txFrameEndEffect p s
      = modPort p (fun x => { x with sent := x.sent ++ [oneStep f (egressTime s f)] }) (txEnd p s) := by
    unfold txFrameEndEffect
    rw [hw]
    dsimp only
    rw [waitUntil_past hend]
    exact if_pos ((loopback_of_params hparams p).trans hloop)
  refine ⟨_, heff, ?_⟩
  generalize txEnd p s = v at hside hclk
  obtain ⟨hwire, hside⟩ := Prod.mk.inj hside
  obtain ⟨-, hside⟩ := Prod.mk.inj hside
  obtain ⟨hsent, hfree⟩ := Prod.mk.inj hside
  rw [port_modPort_same]
  exact ⟨hwire, by rw [hsent], hclk, hfree⟩

/-! ### The witness beacon (R255, R496) -/

/-- The beacon of a port on its wire. -/
def beaconOnWire (p : Nat) (s : State) : Staged :=
  { onWire s p { cls := 7, origin := .beacon, launch := none, supplied := 60, tag := beaconTag s, bytes := beaconFrame s p }
      (s.clk * 131072) with pre := false }

theorem witnessBeacon_leaves (hrole : s.pair.role ≠ 0) (hport : beaconPort s p = true) (hlink : (port s p).link = true)
    (hsafe : s.safety.safe = false) (hlost : pairingLost s = false) (hdue : tget s.pair.beaconSent p 0 + ms 1 ≤ s.clk)
    (hw : (port s p).wire = none) (hfree : (port s p).freeAt ≤ s.clk) (hlaunch : disturbsLaunch s p = false) :
    witnessBeaconEffect p s = modPair (fun x => { x with
        beaconSent := tput x.beaconSent p s.clk, beacons := tput x.beacons p ((tget x.beacons p 0 + 1) % 2 ^ 32) })
      (modPort p (fun x => { x with wire := some (beaconOnWire p s) }) s) := by
  have hnow : waitUntil (max (port s p).freeAt (tget s.pair.beaconSent p 0 + ms 1)) s = s := waitUntil_past (by omega)
  unfold witnessBeaconEffect
  refine (if_neg (by simp [hrole, hport, hlink, hsafe, hlost])).trans ?_
  dsimp only
  rw [hnow]
  exact if_neg (by simp [hw, hlaunch])

/-! ### O32 -/

/-- Settles O32: time changes only the gate of a port (`SamePort`), and a served ring only its flow control and queues
(`portsKeep_serve`). -/
theorem egressCopiesStartsAndEndsFrames : Obligations.EgressCopiesStartsAndEndsFrames := by
  unfold Obligations.EgressCopiesStartsAndEndsFrames
  refine ⟨fun s p c i rest ht hr hl hc hq => ⟨fun hi => ?_, fun l hi hlate => ?_⟩, fun s p ht h => ?_, egressTag_relay,
    fun s u p ht hw hlink hsafe hr hu => ⟨fun f hf => ?_,
      fun hfree hpick hh => ⟨fun hall => ?_, fun f l v hst hl hnot hv hf => ?_⟩, fun h hfree hpick hh hg hold => ?_⟩,
    fun s p f ht hw hh hloop hend => ?_, fun s p ht hrole hport hlink hsafe hlost hdue hw hfree hlaunch => ?_⟩
  · obtain ⟨t, heff, h⟩ := egressCopy_stages hr hl hc hq hi
    exact ⟨t, (live_next s (egressCopyEffect p .none) ht).trans (congrArg _ heff), h⟩
  · exact (live_next s (egressCopyEffect p .none) ht).trans (congrArg _ (egressCopy_late hr hl hc hq hi hlate))
  · exact (live_next s (egressCopyEffect p .none) ht).trans (congrArg _ (egressCopy_closed h))
  · obtain ⟨w, h⟩ := launchIdle_starts hw hu hf
    exact ⟨_, w, (live_next s (egressLaunchEffect p .none) ht).trans (congrArg _ (egressLaunch_idle hw hlink hsafe hr)), h⟩
  · exact (live_next s (egressLaunchEffect p .none) ht).trans
      (congrArg _ ((egressLaunch_idle hw hlink hsafe hr).trans (launchIdle_rests hw hfree hpick hh hall)))
  · obtain ⟨w, hwire, hstage, -, -, hbytes, hclk, -, hlo, hhi⟩ := launchIdle_waits hw hfree hpick hh hst hl hnot hv hf
    rw [hst, List.erase_cons_head] at hstage
    exact ⟨_, w, (live_next s (egressLaunchEffect p .none) ht).trans (congrArg _ (egressLaunch_idle hw hlink hsafe hr)),
      hwire, hstage, hbytes, hclk, hlo, hhi⟩
  · refine ⟨_, (live_next s (egressLaunchEffect p .none) ht).trans
      (congrArg _ ((egressLaunch_idle hw hlink hsafe hr).trans (launchIdle_resumes hw hfree hpick hh hg hold))), ?_⟩
    rw [port_modPort_same]
    exact ⟨by rw [max_eq_left hfree], rfl, rfl⟩
  · obtain ⟨t, heff, h⟩ := txFrameEnd_sent hw hh hloop hend
    exact ⟨t, (live_next s (txFrameEndEffect p) ht).trans (congrArg _ heff), h⟩
  · refine ⟨_, beaconOnWire p s, (live_next s (witnessBeaconEffect p) ht).trans
      (congrArg _ (witnessBeacon_leaves hrole hport hlink hsafe hlost hdue hw hfree hlaunch)), ?_⟩
    rw [port_modPair, port_modPort_same]
    exact ⟨rfl, rfl, rfl, tget_tput_same .., tget_tput_same ..⟩

end Sys2Proof.Machine
end
